-- ==== Sys2Proof/Word.lean ====
section
/-! DEFINITION. The plain word types of the SZ2-1792 (R5, R11): bytes, 64-bit words, 48-bit local addresses. -/

namespace Sys2Proof

/-- A byte. -/
abbrev Byte := BitVec 8

/-- A 64-bit register or instruction word (R11, R90). -/
abbrev Word := BitVec 64

/-- A 48-bit local address (R216). -/
abbrev Addr := BitVec 48

end Sys2Proof
end

