-- ==== Sys2Proof/Syntax.lean ====
section
/-! DEFINITION. The commands the block takes: one constructor of `Instr` per row of spec/opcode_table.json, with the
operands of that row. The table gives no row any bits; what a row's operands are is logged (log 2). -/

namespace Sys2Proof

/-- The fields of one Chalk instruction word below OP (R90, Table 03-5). -/
structure Ins where
  pred : BitVec 3 := 0
  pneg : Bool := false
  dst  : BitVec 5 := 0
  sa   : BitVec 5 := 0
  sb   : BitVec 5 := 0
  sc   : BitVec 5 := 0
  imm  : BitVec 32 := 0
  deriving DecidableEq, Repr

/-- Header of an authenticated generation 3 request (R334, Table 11-2): SESSION, SEQ, EXPERT, PART, CLASS and CMD; and what its answer goes
back with (R332, R333): VID [11:0] and PCP [14:12] of its 802.1Q tag, and its source address [127:0] and port. -/
structure Req where
  sess   : BitVec 32
  seq    : BitVec 64
  expert : Bool := false
  part   : BitVec 3
  cls    : BitVec 8 := 0
  cmd    : BitVec 8 := 0
  vlan   : Option (BitVec 16) := none
  src    : BitVec 144 := 0
  deriving DecidableEq, Repr

/-- Header of an authenticated generation 2 request (R358), with its OPCODE; its tag and its source as in `Req`. -/
structure Req2 where
  sess : BitVec 32
  seq  : BitVec 32
  op   : BitVec 8 := 0
  vlan : Option (BitVec 16) := none
  src  : BitVec 144 := 0
  deriving DecidableEq, Repr

/-- A flit (R282, Table 09-1) as sent or as verified by GCM. -/
structure Flit where
  kind    : BitVec 4 := 0
  resend  : Bool := false
  pkind   : BitVec 3 := 0
  src     : BitVec 16 := 0
  stream  : BitVec 8 := 0
  bell    : BitVec 16 := 0
  slot    : Nat := 0
  ackCode : BitVec 2 := 0
  ackSlot : Nat := 0
  ackPar  : Bool := false
  errCode : BitVec 4 := 0
  tag     : BitVec 7 := 0
  offset  : BitVec 32 := 0
  payload : List Byte := []
  deriving DecidableEq, Repr

/-- What arrives in a slot (R285): a flit whose codeword is uncorrectable, or whose tag is said to fail; or a codeword that FEC has corrected: its
header and payload once opened, with the 272 bytes of ciphertext and tag it came as (R282, R292). -/
inductive Rx where
  | damaged (tag : Bool)
  | intact (f : Flit) (cipher : List Byte)
  deriving DecidableEq, Repr

/-- An IDENT flit (R295, Table 09-18): SEQ of its header and its payload. -/
structure Ident where
  seq      : BitVec 32 := 0
  serial   : BitVec 128
  node     : BitVec 16
  link     : BitVec 8
  pool     : Bool := false
  echo     : Bool := false
  nocount  : Bool := false
  jobEpoch : BitVec 32
  map      : BitVec 32 := 0x76543210
  retired  : BitVec 9 := 0
  bell     : BitVec 64 := 0
  offsetPs : BitVec 32 := 0
  echoSeq  : BitVec 32 := 0
  holdPs   : BitVec 32 := 0
  deriving DecidableEq, Repr

/-- The eight words and two norm sums of a STATUS flit (R289). -/
structure StatusFlit where
  words : List (BitVec 64)
  norm0 : BitVec 64 := 0
  norm1 : BitVec 64 := 0
  down  : Bool
  deriving DecidableEq, Repr

/-- The host's part of a satchel slot header (R247, R348, Table 08-1). -/
structure SatHeader where
  step     : BitVec 64
  seed     : BitVec 64
  jobEpoch : BitVec 32
  planVer  : BitVec 16
  long     : Bool := false
  rsv      : BitVec 14 := 0      -- FLAGS [15:2]
  seqLen   : BitVec 32 := 0
  micro    : BitVec 32 := 0
  inputLen : Nat
  inputCrc : BitVec 32
  deriving DecidableEq, Repr

/-- A lesson image with its fields read (R85, Table 03-3). -/
structure Lesson where
  magic      : BitVec 32 := 0x4B4C4843
  format     : BitVec 16 := 1
  planVer    : BitVec 16
  core       : Nat
  nEntries   : Nat
  codeLen    : Nat
  entries    : List (BitVec 64)
  code       : List (BitVec 64)
  slateLen   : Nat := 0          -- SLATE_INIT
  deskLen    : Nat := 0          -- DESK_INIT
  slateInit  : List Byte := []
  deskInit   : List Byte := []
  deriving DecidableEq, Repr

/-- One check unit of a shard (R245): the part of it that one update record serves on one core. Offsets are from the
start of a shard buffer (master, first moment, second moment, record, R246) and of a tray buffer (record image, gradients, R254). -/
structure ShardUnit where
  core    : Nat
  record  : Nat
  count   : Nat
  fp32    : Bool := false      -- master is FP32, else BF24
  gradFp16 : Bool := false     -- gradients are FP16, else BF16
  offset  : Nat
  trayOff : Nat
  recOff  : Nat := 0           -- slate offset at which the core keeps its record
  idxBase : BitVec 40 := 0
  deriving DecidableEq, Repr

/-- One core's cubby segment and ring as the plan lays them out (R233, R235, R244). -/
structure CubbySeg where
  core   : Nat                 -- core within the field, 0 to 499
  offset : BitVec 24           -- pages from the region base
  pages  : BitVec 20
  ringOff  : BitVec 32 := 0
  ringSize : BitVec 32 := 0
  water    : BitVec 32 := 0
  deriving DecidableEq, Repr

/-- The plan's cubby layout of one field (R244). -/
structure CubbyPlan where
  base   : Addr := 0
  pages  : BitVec 24 := 0
  ccbOff : BitVec 19 := 0
  enable : Bool := false
  segs   : List CubbySeg := []
  deriving DecidableEq, Repr

/-- The kind of transfer a bulk stream carries (R443): a satchel copy, a homework tray, the cross-check, and fills, pulls, fixes and pushes by the
region they write. -/
inductive BulkKind where
  | satchelCopy | tray | crossCheck | toMirror | toShard | toSatchel | toCopy
  deriving DecidableEq, Repr

/-- The plan's assignment of a BULK stream to a transfer (R443). -/
structure BulkUse where
  field  : Nat
  chan   : Nat                 -- Librarian channel, 0 to 15
  stream : BitVec 8
  kind   : BulkKind
  base   : Nat                 -- local address of the region, where the plan fixes one: the cross-check's buffer
  units  : Nat                 -- its length in 256-byte units
  deriving DecidableEq, Repr

/-- Core-data RX runs of a link and STREAM that carry slices of the partner's homework tray (R107, R254): the place in tray buffer s mod 2 of a run
whose OFFSET is 0. -/
structure TrayRun where
  field  : Nat
  link   : Nat                 -- link within the field
  stream : BitVec 8
  base   : Nat
  deriving DecidableEq, Repr

/-- The regions of a seat as the plan places them (R31): local addresses in the partition's LPDDR. -/
structure Regions where
  shard0 : Nat := 0
  shard1 : Nat := 0
  mirror : Nat := 0
  tray0  : Nat := 0
  tray1  : Nat := 0
  satchel     : List Nat := []
  satchelCopy : List Nat := []
  histOff : Nat := 0           -- history block within a shard buffer
  histLen : Nat := 0
  histOf  : List Nat := []     -- bytes of it that belong to each of the fields, in ascending order (R310); none listed: all to the lowest
  staging : Option Nat := none -- checkpoint staging and plans (Table 01-2): where the plan's own bytes and the pool writes are staged
  deriving DecidableEq, Repr

/-- The plan header: what the manual says it carries (R47, R54, R63, R73, R75, R204, R205, R254, R260, R263, R287, R312). -/
structure PlanHeader where
  version    : BitVec 16
  period     : Nat := 8500
  lag        : BitVec 4 := 2
  abortLimit : BitVec 4 := 2
  resendSlots : Nat := 139
  resendMax  : BitVec 2 := 2
  resendAge  : BitVec 2 := 1
  theta      : BitVec 32 := 0x7F800000
  normPeriod : List Nat := []          -- PERIOD entries whose last period is a norm period B_N, one for each variant of a step (log 26)
  normTable  : Nat := 0                -- slate offset of every core's norm table
  normCount  : Nat := 0                -- entries of every norm table (R203)
  applyDeadline : BitVec 32 := 0
  applyShare : BitVec 4 := 8
  seqLen     : BitVec 32 := 0
  holdTemplate : Option Nat := none    -- PERIOD entry of the HOLD schedule, none for no slots (R77; DESIGN CHOICE, log 26)
  mainEntry  : Nat := 1
  jitEntry   : Option Nat := none      -- entry of the just-in-time variant (R191)
  consume    : Bool := false           -- the plan contains a consume-mode layer (R206)
  genSize    : BitVec 32 := 0          -- G in chunks (R312)
  shardLen   : Nat := 0
  blockLens  : List Nat                -- the image header: each block's length (R63)
  deriving DecidableEq, Repr

/-- A plan (R63, R85): header, timetable blocks of 128-bit entries, lesson images as their bytes, the units of the seat's shard and of its
partner's, whose mirror and trays it holds, regions. -/
structure Plan where
  hdr     : PlanHeader
  blocks  : List (List (BitVec 128))
  lessons : List (List Byte) := []
  units   : List ShardUnit := []
  mirrorUnits : List ShardUnit := []
  regions : Regions := {}
  cubby   : List CubbyPlan := []
  bulk    : List BulkUse := []
  trays   : List TrayRun := []
  deriving DecidableEq, Repr

/-- A link peer named by the job controller (R293, R303, R346). -/
structure PeerSpec where
  link   : Nat
  node   : BitVec 16
  pool   : Bool := false
  serial : BitVec 128
  peerLink : Nat := 0          -- the link or port index at the peer's end
  deriving DecidableEq, Repr

/-- The verdict of a FINISH credential (R340): SHA-384 of the two public keys used, and whether both signatures verify. -/
structure Cred where
  keyHash : BitVec 384
  sigsOk  : Bool
  deriving DecidableEq, Repr

/-- A token as its bytes (R410, Table 14-4), with the verdict of its two signatures. -/
structure Token where
  bytes  : List Byte
  sigsOk : Bool
  deriving DecidableEq, Repr

/-- A firmware manifest as its bytes (R404, Table 14-3), with the verdicts of its two signatures (R405). -/
structure Manifest where
  bytes   : List Byte
  edOk    : Bool
  mldsaOk : Bool
  deriving DecidableEq, Repr

/-- The holder's summary of a step (R261): the step, UNRESOLVED units, OWNER_FIX units. -/
structure Summary where
  step       : BitVec 64
  unresolved : Bool
  ownerFix   : List (Nat × Nat)
  deriving DecidableEq, Repr

/-- A seal record (R313, Table 10-2), with the verdict of MAGIC, FORMAT and SEAL_CRC. -/
structure SealRec where
  gen       : Bool
  state     : BitVec 2
  step      : BitVec 64
  jobEpoch  : BitVec 32 := 0
  planVer   : BitVec 16 := 0
  moduleId  : BitVec 14
  root      : BitVec 256 := 0
  headerCrc : BitVec 32 := 0
  crcOk     : Bool := true
  raw       : List Byte := []  -- its 64 bytes as a SCAN returned them
  deriving DecidableEq, Repr

/-- A dump recipe entry (R393, Table 13-4). -/
structure RecipeEntry where
  kind   : BitVec 8
  arg    : BitVec 8 := 0
  first  : Nat := 0
  last   : Nat := 0
  rsv    : BitVec 16 := 0
  offset : BitVec 32 := 0
  len    : BitVec 32 := 0
  deriving DecidableEq, Repr

/-- A measurement of one level input of a scored unit (R365): the field, the unit's card (Table 12-2), the input, and the measurement in
ten-thousandths of that input's factory baseline (R367). -/
structure Level where
  field : Nat
  kind  : Nat
  index : Nat
  input : Nat
  ratio : Nat
  deriving DecidableEq, Repr

/-- Optical readings of one wavelength of a link (R308, Table 09-17). -/
structure Optic where
  link : Nat
  k    : Nat
  rx   : BitVec 16
  tx   : BitVec 16
  eye  : BitVec 12
  deriving DecidableEq, Repr

/-- Readings of one telemetry window (R416, R440). -/
structure Telemetry where
  grade  : BitVec 2        -- 0 tenant (1 s), 1 owner (100 ms), 2 service (1 ms), 3 the readings of the Hall Monitors alone
  watts  : BitVec 16
  volts  : BitVec 16 := 0
  amps   : BitVec 16 := 0
  fields : BitVec 64 := 0
  temps  : BitVec 40 := 0
  fine   : BitVec 32 := 0
  levels : List Level := []
  optics : List Optic := []
  deriving DecidableEq, Repr

/-- Who writes a register (R109, R414, R436). -/
inductive Writer where
  | session (id : BitVec 32)
  | sideband
  | core (c : Nat)
  deriving DecidableEq, Repr

/-- A neighbour-discovery message (R332): a solicitation for a target, or a router advertisement's prefix. -/
inductive Ndp where
  | solicit (target : BitVec 128) (vlan : Option (BitVec 16) := none)
  | routerAdvert (hi : BitVec 64)
  deriving DecidableEq, Repr

/-- An echo request's IP version, its 802.1Q tag and its source (R332). -/
structure EchoFrom where
  v6   : Bool
  vlan : Option (BitVec 16) := none
  src  : BitVec 128 := 0
  deriving DecidableEq, Repr

/-- An ARP request: the address it asks for and its 802.1Q tag (R332). -/
structure ArpReq where
  target : BitVec 32
  vlan   : Option (BitVec 16) := none
  deriving DecidableEq, Repr

/-- Why a host-port frame is dropped (R331, R332, R333, R337). -/
inductive DropReason where
  | buffersFull | badSize | badVlan | badIp | badPort | authFail
  deriving DecidableEq, Repr

/-- Sub-types of the generation 2 LOAD, WEIGHTS and FEED opcodes (R358, Table 11-8). -/
inductive Gen2Load where
  | start (p : Plan) (len : Nat)
  | data (off : Nat) (bytes : List Byte)
  | commit
  deriving DecidableEq, Repr

inductive Gen2Weights where
  | data (off : Nat) (bytes : List Byte)
  | commit (step : BitVec 64)
  deriving DecidableEq, Repr

inductive Gen2Feed where
  | start (h : SatHeader)
  | data (step : BitVec 64) (off : Nat) (bytes : List Byte)
  deriving DecidableEq, Repr

/-- Rung of a generation 2 RESET (R358, Table 13-2). -/
inductive Rung where
  | engineCore (c : Nat)
  | engineLink (l : Nat)
  | engineChannel (f ch : Nat)
  | context
  | partition
  | chip (waitS : Nat)
  deriving DecidableEq, Repr

/-- The fixed fields of a HELLO frame beside its nonce and shares (Table 11-4): the role, the options and the reserved bytes. -/
structure HelloFields where
  role : BitVec 8
  options : BitVec 8
  rsv : BitVec 48
  deriving DecidableEq, Repr

/-- The partner's firmware digest and stepping that a fill compares with the module's own (R252). -/
structure FillTag where
  digest : BitVec 384
  stepping : BitVec 8
  deriving DecidableEq, Repr

/-- What a MAINT_MARGIN measures (R373): the lane or unit, and the limits it gives. -/
structure MarginArgs where
  unit : Nat
  limits : BitVec 64
  deriving DecidableEq, Repr

/-- The nonce and the key share of a generation 2 OPEN (R358). -/
structure KeyOffer where
  nonce : BitVec 256
  share : BitVec 256
  deriving DecidableEq, Repr

/-- A READ response during boot (R403): its bytes, and the verdicts of the two signatures over the manifest once it is whole. -/
structure BootPiece where
  data : List Byte
  edOk : Bool
  mldsaOk : Bool
  deriving DecidableEq, Repr

/-- A unit's acknowledgement (R266): its record, whose unit it is, and whether the receiver took it. -/
structure UnitAck where
  record : Nat
  own : Bool
  ok : Bool
  deriving DecidableEq, Repr

/-- The commands of the block: one per row of spec/opcode_table.json, in its order. -/
inductive Instr where
  /-- NOP (R98): Chalk nop instruction does nothing for one clk. -/
  | nop (c : Nat) (i : Ins)
  /-- ADD (R98): Scalar add of two registers, wrapping modulo 2^64. -/
  | add (c : Nat) (i : Ins)
  /-- SUB (R98): Scalar subtract of two registers, wrapping modulo 2^64. -/
  | sub (c : Nat) (i : Ins)
  /-- AND (R98): Scalar bitwise AND of two registers. -/
  | and (c : Nat) (i : Ins)
  /-- OR (R98): Scalar bitwise OR of two registers. -/
  | or (c : Nat) (i : Ins)
  /-- XOR (R98): Scalar bitwise XOR of two registers. -/
  | xor (c : Nat) (i : Ins)
  /-- SLL (R98): Shift left logical by sB[5:0]. -/
  | sll (c : Nat) (i : Ins)
  /-- SRL (R98): Shift right logical by sB[5:0]. -/
  | srl (c : Nat) (i : Ins)
  /-- SRA (R98): Shift right arithmetic by sB[5:0]. -/
  | sra (c : Nat) (i : Ins)
  /-- MUL (R98): Low 64 bits of the product of two registers. -/
  | mul (c : Nat) (i : Ins)
  /-- MULHU (R98): High 64 bits of the unsigned 128-bit product. -/
  | mulhu (c : Nat) (i : Ins)
  /-- MIN (R98): Signed minimum of two registers. -/
  | min (c : Nat) (i : Ins)
  /-- MAX (R98): Signed maximum of two registers. -/
  | max (c : Nat) (i : Ins)
  /-- DIVU (R98): Unsigned quotient, all ones on division by zero. -/
  | divu (c : Nat) (i : Ins)
  /-- REMU (R98): Unsigned remainder, sA on division by zero. -/
  | remu (c : Nat) (i : Ins)
  /-- ADDI (R98): Add a sign-extended immediate to a register. -/
  | addi (c : Nat) (i : Ins)
  /-- ANDI (R98): AND a register with an immediate. -/
  | andi (c : Nat) (i : Ins)
  /-- ORI (R98): OR a register with an immediate. -/
  | ori (c : Nat) (i : Ins)
  /-- XORI (R98): XOR a register with an immediate. -/
  | xori (c : Nat) (i : Ins)
  /-- SLLI (R98): Shift left logical by imm[5:0]. -/
  | slli (c : Nat) (i : Ins)
  /-- SRLI (R98): Shift right logical by imm[5:0]. -/
  | srli (c : Nat) (i : Ins)
  /-- SRAI (R98): Shift right arithmetic by imm[5:0]. -/
  | srai (c : Nat) (i : Ins)
  /-- LI (R98): Load a sign-extended immediate into a scalar register. -/
  | li (c : Nat) (i : Ins)
  /-- LIH (R98): Set the upper 32 bits of a scalar register, keeping the lower half. -/
  | lih (c : Nat) (i : Ins)
  /-- CMPEQ (R98): Write equality of two registers into a predicate. -/
  | cmpeq (c : Nat) (i : Ins)
  /-- CMPLT (R98): Write signed less-than of two registers into a predicate. -/
  | cmplt (c : Nat) (i : Ins)
  /-- CMPLTU (R98): Write unsigned less-than of two registers into a predicate. -/
  | cmpltu (c : Nat) (i : Ins)
  /-- CMPEQI (R98): Write equality against an immediate into a predicate. -/
  | cmpeqi (c : Nat) (i : Ins)
  /-- CMPLTI (R98): Write signed less-than against an immediate into a predicate. -/
  | cmplti (c : Nat) (i : Ins)
  /-- CMPLTUI (R98): Write unsigned less-than against an immediate into a predicate. -/
  | cmpltui (c : Nat) (i : Ins)
  /-- PLOG (R98): Combine two predicates by the function in SC[1:0]. -/
  | plog (c : Nat) (i : Ins)
  /-- ADDA (R98): Add a scalar to an address register modulo 2^48. -/
  | adda (c : Nat) (i : Ins)
  /-- ADDAI (R98): Add an immediate to an address register modulo 2^48. -/
  | addai (c : Nat) (i : Ins)
  /-- MVSA (R98): Move a scalar's low 48 bits into an address register. -/
  | mvsa (c : Nat) (i : Ins)
  /-- MVAS (R98): Move an address register into a scalar, zero-extended. -/
  | mvas (c : Nat) (i : Ins)
  /-- BR (R99): Guarded relative branch, which may end an active loop. -/
  | br (c : Nat) (i : Ins)
  /-- CALL (R99): Relative call saving the return index in s31. -/
  | call (c : Nat) (i : Ins)
  /-- JR (R100): Jump to an index in a register, faulting 0x08 outside the code region. -/
  | jr (c : Nat) (i : Ins)
  /-- LOOP (R100): Set up a hardware loop on lc0 or lc1, faulting 0x06 on a third nesting. -/
  | loop (c : Nat) (i : Ins)
  /-- LD (R102): Scalar load from own slate or desk, faulting outside the windows or when misaligned. -/
  | ld (c : Nat) (i : Ins)
  /-- ST (R102): Scalar store into own slate or desk, waiting on sealed buffers. -/
  | st (c : Nat) (i : Ins)
  /-- LDD (R101): Load a 64-byte descriptor register from slate or desk. -/
  | ldd (c : Nat) (i : Ins)
  /-- STD (R101): Store a descriptor register to slate or desk. -/
  | std (c : Nat) (i : Ins)
  /-- DMA (R104): Queue a tile DMA copy of sB bytes, refused at issue for illegal length or alignment. -/
  | dma (c : Nat) (i : Ins)
  /-- DMAD (R104): Queue a descriptor-to-descriptor element copy. -/
  | dmad (c : Nat) (i : Ins)
  /-- MMA (R133): Queue a matrix multiply-accumulate into an accumulator after legality checks. -/
  | mma (c : Nat) (i : Ins)
  /-- MXZ (R123): Queue zeroing of an accumulator, starting a classless chain. -/
  | mxz (c : Nat) (i : Ins)
  /-- MXLD (R123): Queue loading of an accumulator from memory, starting a chain. -/
  | mxld (c : Nat) (i : Ins)
  /-- MXST (R134): Queue a checked, converted store of an accumulator. -/
  | mxst (c : Nat) (i : Ins)
  /-- VOP_CVT (R169): Vector conversion between formats, with E8M0 conversion under R441. -/
  | vopCvt (c : Nat) (i : Ins)
  /-- VOP_ADD (R165): Elementwise vector addition. -/
  | vopAdd (c : Nat) (i : Ins)
  /-- VOP_SUB (R165): Elementwise vector subtraction. -/
  | vopSub (c : Nat) (i : Ins)
  /-- VOP_MUL (R165): Elementwise vector multiplication. -/
  | vopMul (c : Nat) (i : Ins)
  /-- VOP_DIV (R168): Elementwise correctly rounded division. -/
  | vopDiv (c : Nat) (i : Ins)
  /-- VOP_MIN (R165): Elementwise minimum. -/
  | vopMin (c : Nat) (i : Ins)
  /-- VOP_MAX (R165): Elementwise maximum. -/
  | vopMax (c : Nat) (i : Ins)
  /-- VOP_FMA (R165): Elementwise fused multiply-add rounded once. -/
  | vopFma (c : Nat) (i : Ins)
  /-- VOP_ABS (R165): Elementwise sign clear. -/
  | vopAbs (c : Nat) (i : Ins)
  /-- VOP_NEG (R165): Elementwise sign flip. -/
  | vopNeg (c : Nat) (i : Ins)
  /-- VOP_SQRT (R168): Elementwise correctly rounded square root. -/
  | vopSqrt (c : Nat) (i : Ins)
  /-- VOP_RSQRT (R168): Elementwise reciprocal square root within 1 ulp. -/
  | vopRsqrt (c : Nat) (i : Ins)
  /-- VOP_RECIP (R168): Elementwise reciprocal within 1 ulp. -/
  | vopRecip (c : Nat) (i : Ins)
  /-- VOP_EXP (R168): Elementwise exponential within 2 ulp. -/
  | vopExp (c : Nat) (i : Ins)
  /-- VOP_LOG (R168): Elementwise logarithm within 2 ulp. -/
  | vopLog (c : Nat) (i : Ins)
  /-- VOP_TANH (R168): Elementwise hyperbolic tangent within 2 ulp. -/
  | vopTanh (c : Nat) (i : Ins)
  /-- VOP_SIGMOID (R168): Elementwise sigmoid within 2 ulp. -/
  | vopSigmoid (c : Nat) (i : Ins)
  /-- VOP_SILU (R165): Elementwise x times sigmoid(x). -/
  | vopSilu (c : Nat) (i : Ins)
  /-- VOP_RSUM (R164): Per-row sum in the fixed reduction order. -/
  | vopRsum (c : Nat) (i : Ins)
  /-- VOP_RMAX (R164): Per-row maximum in the fixed reduction order. -/
  | vopRmax (c : Nat) (i : Ins)
  /-- VOP_AMAX (R167): Scalar maximum absolute value of a tensor. -/
  | vopAmax (c : Nat) (i : Ins)
  /-- VOP_SUMSQ (R167): FP64 sum of squares added to VX_NORM at completion. -/
  | vopSumsq (c : Nat) (i : Ins)
  /-- VOP_SUM (R167): Scalar FP32 or INT32 sum of a tensor. -/
  | vopSum (c : Nat) (i : Ins)
  /-- VOP_SOFTMAX (R166): Row softmax. -/
  | vopSoftmax (c : Nat) (i : Ins)
  /-- VOP_LSE (R166): Row log-sum-exp. -/
  | vopLse (c : Nat) (i : Ins)
  /-- VOP_RMSNORM (R166): Row RMS normalisation with gain. -/
  | vopRmsnorm (c : Nat) (i : Ins)
  /-- VOP_LAYERNORM (R166): Row layer normalisation with gain and bias. -/
  | vopLayernorm (c : Nat) (i : Ins)
  /-- VOP_XENT (R166): Per-row cross-entropy loss with a scalar sum. -/
  | vopXent (c : Nat) (i : Ins)
  /-- VOP_XGRAD (R166): Gradient of the cross-entropy loss. -/
  | vopXgrad (c : Nat) (i : Ins)
  /-- VOP_QROW (R173): Per-row asymmetric quantisation to INT8 or INT4. -/
  | vopQrow (c : Nat) (i : Ins)
  /-- VOP_QTENSOR (R174): Per-tensor scaled quantisation. -/
  | vopQtensor (c : Nat) (i : Ins)
  /-- VOP_MXQ (R175): Quantisation to MXFP4 with block scales. -/
  | vopMxq (c : Nat) (i : Ins)
  /-- VOP_DEQ (R165): Dequantisation (A - z) x s rounded once. -/
  | vopDeq (c : Nat) (i : Ins)
  /-- VOP_RESCALE (R176): Integer rescale with round-half-even shift. -/
  | vopRescale (c : Nat) (i : Ins)
  /-- VOP_HIST (R172): Exponent histogram of a tensor. -/
  | vopHist (c : Nat) (i : Ins)
  /-- FUPD (R200): Queue a fused optimiser update of a master slice. -/
  | fupd (c : Nat) (i : Ins)
  /-- CRC (R106): Queue a CRC-32C over the bytes of a descriptor. -/
  | crc (c : Nat) (i : Ins)
  /-- VGET (R167): Read the scalar result of the last scalar-producing operation on a tag. -/
  | vget (c : Nat) (i : Ins)
  /-- VFLG (R106): Read and clear the OR of flag words completed on a tag. -/
  | vflg (c : Nat) (i : Ins)
  /-- BELLWAIT (R110): Park until the bell opening an immediate step period. -/
  | bellwait (c : Nat) (i : Ins)
  /-- BELLWAITS (R110): Park until the bell opening a register-named step period. -/
  | bellwaits (c : Nat) (i : Ins)
  /-- SEAL (R112): Drain earlier writes, then set a seal bit. -/
  | seal (c : Nat) (i : Ins)
  /-- REST (R113): Put the core in RESTING until the next redirect. -/
  | rest (c : Nat) (i : Ins)
  /-- RDCR (R109): Read a permitted control register, faulting 0x05 otherwise. -/
  | rdcr (c : Nat) (i : Ins)
  /-- WRCR (R109): Write a lesson-writable control register field, faulting 0x05 otherwise. -/
  | wrcr (c : Nat) (i : Ins)
  /-- RNGK (R108): Set the layer field of the core's Philox key. -/
  | rngk (c : Nat) (i : Ins)
  /-- RNG (R108): Return Philox output words for an element index. -/
  | rng (c : Nat) (i : Ins)
  /-- FENCE (R114): Wait until earlier operations of the named engines drain. -/
  | fence (c : Nat) (i : Ins)
  /-- WAIT (R114): Wait until every tag in a mask is complete. -/
  | wait (c : Nat) (i : Ins)
  /-- CHECK (R114): Record fault 0x07 with a check code. -/
  | check (c : Nat) (i : Ins)
  /-- RAISE (R114): Set permitted status bits in the period's status word. -/
  | raise (c : Nat) (i : Ins)
  /-- RDFLT (R114): Read FAULT or FAULT_ADDR. -/
  | rdflt (c : Nat) (i : Ins)
  /-- SEAL_DRAIN_DONE (R112): A stalled SEAL sees its earlier writes complete and sets the seal bit. -/
  | sealDrainDone (c : Nat)
  /-- FENCE_DRAIN_DONE (R114): A stalled FENCE retires once its engines drain. -/
  | fenceDrainDone (c : Nat)
  /-- TAG_WAIT_DONE (R94): A WAIT, VGET or VFLG stalled on tags resumes when they complete. -/
  | tagWaitDone (c : Nat)
  /-- SEALED_WRITE_RELEASE (R58): A write held on a sealed buffer proceeds once the seal clears. -/
  | sealedWriteRelease (c : Nat)
  /-- MMA_START (R140): The array starts a queued MMA when the cells are free. -/
  | mmaStart (c : Nat)
  /-- MMA_RESULT_READY (R139): An MMA result becomes ready 72 clk after occupancy; its tag completes. -/
  | mmaResultReady (c : Nat) (disturb : List (Nat × BitVec 32))
  /-- MXZ_DONE (R140): An MXZ finishes its port time and completes its tag. -/
  | mxzDone (c : Nat)
  /-- MXLD_DONE (R140): An MXLD finishes loading the accumulator and its check state. -/
  | mxldDone (c : Nat)
  /-- MXST_START (R140): An MXST starts once its result is ready and the port is free. -/
  | mxstStart (c : Nat)
  /-- ABFT_CHECK_VERDICT (R141): The ABFT comparison of all rows and columns yields pass or mismatch. -/
  | abftCheckVerdict (c : Nat)
  /-- LOCAL_RECOMPUTE_START (R144): A local recompute takes the cells if its estimate fits the period. -/
  | localRecomputeStart (c : Nat)
  /-- LOCAL_RECOMPUTE_DONE (R143): A local recompute finishes and is checked again. -/
  | localRecomputeDone (c : Nat) (disturb : List (Nat × BitVec 32))
  /-- BUDDY_SERVICE_REQUEST (R145): A buddy request arrives and is accepted or refused. -/
  | buddyServiceRequest (c : Nat)
  /-- BUDDY_SERVICE_START (R145): The buddy's cells take the service after the running operation. -/
  | buddyServiceStart (c : Nat)
  /-- BUDDY_SERVICE_DONE (R143): The buddy finishes the chain and checks it. -/
  | buddyServiceDone (c : Nat) (disturb : List (Nat × BitVec 32))
  /-- BUDDY_TILE_RETURN (R143): The buddy's tile arrives and replaces the requester's accumulator. -/
  | buddyTileReturn (c : Nat)
  /-- MXST_WRITE_DONE (R143): An MXST finishes its write and completes its tag with flags. -/
  | mxstWriteDone (c : Nat)
  /-- DMA_DONE (R103): A tile DMA or DMAD finishes or meets an error response and completes its tag. -/
  | dmaDone (c : Nat) (n : Nat)
  /-- VECTOR_OP_START (R156): The vector engine starts the next queued operation. -/
  | vectorOpStart (c : Nat)
  /-- VECTOR_OP_DONE (R171): A vector operation completes, delivering its flag word and scalar. -/
  | vectorOpDone (c : Nat)
  /-- BELL (R68): A bell: fold effective status words and walk the timetable. -/
  | bell (f : Nat) (offset : BitVec 32)
  /-- PARENT_SILENCE_UNLOCK (R52): No flit from the parent for 16 periods unlocks the seat. -/
  | parentSilenceUnlock (f : Nat)
  /-- TX_SLOT (R281): A slot starts on a link direction and its flit or resend is sent. -/
  | txSlot (l : Nat) (slot : Nat)
  /-- SEAL_DEADLINE (R57): At 32 clk before a run, pull sealed payloads or send late markers. -/
  | sealDeadline (l : Nat) (slot : Nat)
  /-- FLIT_RECEIVE (R285): A flit is decoded, verified, checked, placed and answered. -/
  | flitReceive (l : Nat) (bell : BitVec 64) (slot : Nat) (rx : Rx) (ce : List (Nat × Nat))
  /-- ACK_TIMEOUT (R287): An unanswered flit enters the resend queue. -/
  | ackTimeout (l : Nat) (bell : BitVec 64) (slot : Nat)
  /-- STATUS_FLIT_RECEIVE (R289): A STATUS flit supplies status words and norm sums. -/
  | statusFlitReceive (l : Nat) (sf : Option StatusFlit)
  /-- STATUS_CHILD_MISSING (R71): A child word absent at the sending slot is combined as TAINT. -/
  | statusChildMissing (f : Nat) (l : Nat)
  /-- ABSENT_RECEIVED (R284): An ABSENT block takes the link to ABSENT. -/
  | absentReceived (l : Nat)
  /-- WIPE_RECEIVED (R284): A WIPE block takes the link to WIPE. -/
  | wipeReceived (l : Nat)
  /-- ABSENT_PATTERN_END (R296): The absent pattern ends; the link returns to DARK or SIGNAL. -/
  | absentPatternEnd (l : Nat) (light : Bool)
  /-- WIPE_PATTERN_END (R296): The wipe pattern ends; the link returns to IDENT. -/
  | wipePatternEnd (l : Nat)
  /-- LIGHT_DETECTED (R300): Light on eight of nine wavelengths takes a DARK link to SIGNAL. -/
  | lightDetected (l : Nat) (mask : BitVec 9)
  /-- SIGNAL_TRAINED (R298): Equalisers finish adapting or training; link to ALIGNED or FAILED. -/
  | signalTrained (l : Nat) (ok : Bool) (preset : Bool)
  /-- FEC_ALIGNED (R296): FEC lock and flit alignment take the link to IDENT. -/
  | fecAligned (l : Nat)
  /-- FEC_LOCK_LOST (R297): FEC lock is lost and the link leaves LOCKED. -/
  | fecLockLost (l : Nat)
  /-- IDENT_RECEIVE (R295): An IDENT flit is verified, checked, echoed and used for lane map and ranging. -/
  | identReceive (l : Nat) (tagOk : Bool) (d : Ident) (tripPs : BitVec 32)
  /-- SWAP_REQ (R299): An LCTL request to move a lane to the spare wavelength at a bell. -/
  | swapReq (l : Nat) (fromPeer : Bool) (lane : Nat) (bell : BitVec 64)
  /-- SWAP_ACK (R299): The peer accepts a wavelength swap. -/
  | swapAck (l : Nat)
  /-- SWAP_NAK (R299): The peer declines a wavelength swap. -/
  | swapNak (l : Nat)
  /-- LANE_SWAP_EFFECT (R299): Both ends change FL_LANES at verdict bell V. -/
  | laneSwapEffect (l : Nat)
  /-- POOL_RESPONSE (R305): A pool response closes an operation and advances checkpoint, scan or restore. -/
  | poolResponse (l : Nat) (tag : BitVec 7) (status : BitVec 8) (delivered : Nat)
  /-- POOL_TIMEOUT (R302): A pool operation without response in 50 ms fails TIMEOUT. -/
  | poolTimeout (l : Nat) (tag : BitVec 7)
  /-- SCHEDULED_START (R349): A placed Run start takes effect at its bell. -/
  | scheduledStart (f : Nat)
  /-- SCHEDULED_STOP (R349): A placed Run stop puts the seat in HOLD at its bell. -/
  | scheduledStop (f : Nat)
  /-- KEY_ROTATION_EFFECT (R228): New memory keys install at the effective bell and the sweep begins. -/
  | keyRotationEffect (f : Nat)
  /-- SWEEP_BLOCK (R229): The sweep re-encrypts one block using idle channel time. -/
  | sweepBlock (f : Nat)
  /-- OLD_EPOCH_ERASE (R231): After the sweep and in-flight reads drain, the old keys are erased. -/
  | oldEpochErase (f : Nat)
  /-- PAGE_COPY_COMPLETE (R214): A retirement copy finishes and waits for the verdict-bell remap. -/
  | pageCopyComplete (f : Nat) (page : Nat)
  /-- PATROL_SCRUB_PASS (R210): A patrol scrub rewrites corrected words under a pass. -/
  | patrolScrubPass (f : Nat) (words : List Nat) (margins : List (Nat × Nat))
  /-- CUBBY_SAMPLE (R237): The Librarian samples CCBs and spills or prefetches records. -/
  | cubbySample (c : Nat)
  /-- CUBBY_READY (R239): After a redirect and in-flight moves, the Librarian resets CCBs and sets READY. -/
  | cubbyReady (f : Nat)
  /-- OWNER_CRC_RECEIVE (R258): The holder receives the owner's CRC of a unit. -/
  | ownerCrcReceive (f : Nat) (core record : Nat) (crc : BitVec 32)
  /-- UNIT_APPLY_DONE (R259): The mirror engine finishes applying a unit and votes on it. -/
  | unitApplyDone (f : Nat) (core record : Nat) (disturb : List Bool)
  /-- RECOMPUTE_REQUEST (R260): The owner recomputes a unit before the apply deadline, or answers none. -/
  | recomputeRequest (f : Nat) (core record : Nat) (tray : List Byte)
  /-- RECOMPUTE_REPLY (R259): The owner's recompute CRC decides the vote. -/
  | recomputeReply (f : Nat) (core record : Nat) (crc : Option (BitVec 32)) (bytes : List Byte)
  /-- APPLY_COMPLETE (R261): Every field's apply ends; the summary is sent and CM_MIRROR_FOR set. -/
  | applyComplete (f : Nat)
  /-- SUMMARY_RECEIVE (R274): The owner receives the holder's summary, releasing committed reads. -/
  | summaryReceive (f : Nat) (sm : Summary)
  /-- UNIT_TRANSFER_RECEIVE (R264): A transferred unit is CRC-checked and written, or sent again. -/
  | unitTransferReceive (f : Nat) (core record : Nat) (bytes : List Byte) (crc : BitVec 32)
  /-- HANDOVER_PULLS_DONE (R272): The four pulls end and the substitute is SEATED. -/
  | handoverPullsDone (f : Nat)
  /-- CARD_DECAY_TICK (R365): Every 10 s each card's demerits decay. -/
  | cardDecayTick (f : Nat)
  /-- CARD_STORE_TIMER (R368): Cards are written to the information store every 24 hours. -/
  | cardStoreTimer (f : Nat)
  /-- REMEDY_RELAX_TIMER (R370): A card below 200 for 24 hours loses its deepest remedy step. -/
  | remedyRelaxTimer (f : Nat) (kind index : Nat)
  /-- POP_QUIZ_START (R372): The Hall Monitor starts a quiz on idle or spare tiles. -/
  | popQuizStart (f : Nat) (tileA tileB : Nat)
  /-- POP_QUIZ_RESULT (R372): Quiz CRCs are compared and the loser is scored. -/
  | popQuizResult (f : Nat) (crcA crcB : BitVec 32) (third : Option (Nat × BitVec 32))
  /-- SPARE_MARGIN_TIMER (R373): Every 24 hours the Hall Monitor measures margins on spare tiles. -/
  | spareMarginTimer (f : Nat)
  /-- MARGIN_MEASURE_DONE (R373): A margin measurement ends and restores the setting. -/
  | marginMeasureDone (f : Nat) (kind index : Nat) (steps : Nat)
  /-- TILE_COPY_COMPLETE (R375): A substitution copy finishes; seating changes at the next boundary. -/
  | tileCopyComplete (f : Nat)
  /-- PASS_GRANT (R377): A waiting Hall Monitor pass request is granted. -/
  | passGrant (f : Nat)
  /-- COMB_CHANGEOVER (R301): A cartridge changes to its spare comb while its seats are in HOLD. -/
  | combChangeover (f : Nat)
  /-- COUNTER_CLEAR (R360): Writing zero to an event counter clears COUNT and SAT. -/
  | counterClear (w : Writer) (addr : Addr) (v : BitVec 64)
  /-- MX_FLAGS_CLEAR (R138): RW1C write clearing sticky array flag bits. -/
  | mxFlagsClear (c : Nat) (v : BitVec 64)
  /-- VX_FLAGS_CLEAR (R181): RW1C write clearing sticky vector flag bits. -/
  | vxFlagsClear (c : Nat) (v : BitVec 64)
  /-- OUT_OF_TOL_CLEAR (R52): RW1C write clearing TT_SYNC_STATUS.OUT_OF_TOL. -/
  | outOfTolClear (f : Nat) (v : BitVec 64)
  /-- PW_ALERT_CLEAR (R440): RW1C write clearing alert bits, re-set if the condition persists. -/
  | pwAlertClear (v : BitVec 64)
  /-- REGISTER_WRITE (R12): Write to a register field with no row of its own. -/
  | registerWrite (w : Writer) (addr : Addr) (v : BitVec 64)
  /-- SESSION_HELLO (R338): Start a handshake and answer with ATTEST. -/
  | sessionHello (r : Req) (h : HelloFields) (nonce share : BitVec 256) (kem : List Byte)
  /-- SESSION_FINISH (R340): Verify the credential and open the session. -/
  | sessionFinish (r : Req) (cred : Cred)
  /-- SESSION_CLOSE (R341): End the session. -/
  | sessionClose (r : Req)
  /-- SESSION_STATUS (R346): Return layout, sessions, steps and bell count. -/
  | sessionStatus (r : Req)
  /-- HANDSHAKE_TIMEOUT (R341): A handshake not finished in 5 s is discarded. -/
  | handshakeTimeout (sess : BitVec 32)
  /-- SESSION_IDLE_TIMEOUT (R341): A session without requests for 30 s ends. -/
  | sessionIdleTimeout (sess : BitVec 32)
  /-- PARTITION_LAYOUT (R413): Change the partitions, wiping changed fields. -/
  | partitionLayout (r : Req) (codes : BitVec 12)
  /-- PARTITION_GRANT (R340): Register a tenant key hash for a partition. -/
  | partitionGrant (r : Req) (p : BitVec 3) (keyHash : BitVec 384) (number : BitVec 32)
  /-- PARTITION_REVOKE (R346): Remove a grant and end the tenant session. -/
  | partitionRevoke (r : Req) (p : BitVec 3)
  /-- PLAN_BEGIN (R347): Begin a plan transfer with its header. -/
  | planBegin (r : Req) (plan : Plan) (len : Nat) (staging : Addr)
  /-- PLAN_DATA (R347): Deliver one piece of a plan. -/
  | planData (r : Req) (off : Nat) (data : List Byte)
  /-- PLAN_COMMIT (R347): Check and load a plan, or reject it with a reason. -/
  | planCommit (r : Req)
  /-- DELIVER_BEGIN (R348): Open a satchel slot with its header. -/
  | deliverBegin (r : Req) (h : SatHeader)
  /-- DELIVER_DATA (R348): Deliver a piece of step inputs and forward it to the partner. -/
  | deliverData (r : Req) (step : BitVec 64) (off : Nat) (data : List Byte)
  /-- SHARD_DATA (R346): Deliver unit data of an initial shard. -/
  | shardData (r : Req) (off : Nat) (data : List Byte)
  /-- SHARD_COMMIT (R346): Make the initial shard committed with its step. -/
  | shardCommit (r : Req) (step : BitVec 64)
  /-- UNLOAD (R346): Remove the plan and return cores to NOLESSON. -/
  | unload (r : Req)
  /-- RUN_START (R349): Place a start at a bell and entry. -/
  | runStart (r : Req) (bell : BitVec 64) (entry : Nat) (setCount : Bool) (step : BitVec 64)
  /-- RUN_STOP (R349): Place a HOLD at a bell or next verdict. -/
  | runStop (r : Req) (bell : BitVec 64)
  /-- READ_OPEN (R350): Open a committed, immediate or mirror read. -/
  | readOpen (r : Req) (immediate mirror history : Bool)
  /-- READ_OPEN_ANSWER (R274): A waiting basic read opens once its step can be served. -/
  | readOpenAnswer (f : Nat)
  /-- READ_WAIT_TIMEOUT (R350): A basic OPEN answers WAIT_TIMEOUT after 60 s. -/
  | readWaitTimeout (f : Nat)
  /-- READ_PIECE (R350): Serve up to 1 MiB of an open read. -/
  | readPiece (r : Req) (id off len : Nat)
  /-- READ_CLOSE (R346): End an open read. -/
  | readClose (r : Req) (id : Nat)
  /-- READ_REGS (R363): Return up to 128 registers, coarsened for tenants. -/
  | readRegs (r : Req) (addrs : List Addr)
  /-- READ_LOG (R354): Return the numerics or violation log, optionally clearing it. -/
  | readLog (r : Req) (numerics : Bool) (start : Nat) (clear : Bool)
  /-- JOB_SEAT (R294): Seat the module and derive link keys. -/
  | jobSeat (r : Req) (moduleId : BitVec 14) (epoch : BitVec 32) (peers : List PeerSpec)
  /-- JOB_PARTNER (R252): Name the partner seat. -/
  | jobPartner (r : Req) (partner : BitVec 14) (both : Bool)
  /-- JOB_FILL (R253): Fill the mirror from the partner's committed buffer. -/
  | jobFill (r : Req) (first last : Nat) (tag : FillTag) (step : BitVec 64)
  /-- JOB_STANDBY (R268): Put the module in STANDBY. -/
  | jobStandby (r : Req)
  /-- JOB_ASSUME (R269): Take a seat's module id as substitute. -/
  | jobAssume (r : Req) (moduleId partner : BitVec 14) (epoch : BitVec 32) (planVer : BitVec 16) (committed : BitVec 64) (peers : List PeerSpec)
  /-- JOB_HANDOVER (R270): Let the partner serve pulls to a substitute. -/
  | jobHandover (r : Req) (committed : BitVec 64)
  /-- JOB_PEERS (R346): Replace a link peer's serial. -/
  | jobPeers (r : Req) (peers : List PeerSpec)
  /-- JOB_POOL (R312): Grant a pool region. -/
  | jobPool (r : Req) (node : BitVec 16) (region : BitVec 32)
  /-- JOB_CKPT_SECRET (R311): Install the checkpoint secret and derive keys. -/
  | jobCkptSecret (r : Req) (secret : BitVec 256) (keyId : BitVec 32)
  /-- JOB_CHECKPOINT (R316): Arm a checkpoint for a bell or step. -/
  | jobCheckpoint (r : Req) (bell step : BitVec 64)
  /-- JOB_SCAN (R325): Scan the region and report seal records. -/
  | jobScan (r : Req)
  /-- JOB_RESTORE (R327): Restore a named step from the pool. -/
  | jobRestore (r : Req) (step : BitVec 64)
  /-- JOB_LEAVE (R346): Give up the seat and its link keys. -/
  | jobLeave (r : Req)
  /-- HEALTH_CARDS (R381): Return card records. -/
  | healthCards (r : Req) (kind state minScore : Nat) (fine : Option (BitVec 8))
  /-- HEALTH_PASSES (R346): Return hall pass table state. -/
  | healthPasses (r : Req)
  /-- HEALTH_CLEAR (R346): Zero named counters. -/
  | healthClear (r : Req) (addrs : List Addr)
  /-- MAINT_ROTATE (R228): Request a key rotation at a bell. -/
  | maintRotate (r : Req) (bell : BitVec 64) (rate : BitVec 4)
  /-- MAINT_RETRAIN (R296): Retrain a FAILED link. -/
  | maintRetrain (r : Req) (l : Nat)
  /-- MAINT_WIPE (R418): Request a blackboard wipe. -/
  | maintWipe (r : Req)
  /-- RESET_ENGINE_CORE (R118): Engine reset of one core. -/
  | resetEngineCore (r : Req) (c : Nat)
  /-- RESET_ENGINE_LINK (R390): Engine reset of one link. -/
  | resetEngineLink (r : Req) (l : Nat)
  /-- RESET_ENGINE_CHANNEL (R390): Engine reset of one Librarian channel. -/
  | resetEngineChannel (r : Req) (f ch : Nat)
  /-- RESET_CONTEXT (R389): Request a context reset at the next bell. -/
  | resetContext (r : Req)
  /-- CONTEXT_RESET_EFFECT (R117): A context reset takes effect at its bell. -/
  | contextResetEffect (f : Nat)
  /-- RESET_PARTITION (R386): Partition reset clearing the partition's state. -/
  | resetPartition (r : Req)
  /-- RESET_CHIP (R385): Owner-requested chip reset after the dump. -/
  | resetChip (r : Req) (waitS : Nat)
  /-- CHIP_RESET_WAIT_EXPIRY (R391): The chip reset proceeds when its dump wait expires. -/
  | chipResetWaitExpiry
  /-- MAINT_MARGIN (R373): Start a margin measurement. -/
  | maintMargin (r : Req) (clock : Bool) (f : Nat) (m : MarginArgs)
  /-- MAINT_NETCFG (R357): Set VLAN and generation 2 enable. -/
  | maintNetcfg (r : Req) (vlan : BitVec 12) (gen2 : Bool)
  /-- MAINT_RETURN (R423): Enter sealed-for-return after a wipe. -/
  | maintReturn (r : Req)
  /-- RETURN_CANCEL (R423): Leave sealed-for-return by expert RETURN. -/
  | returnCancel (r : Req)
  /-- OWNERSHIP_TOKEN (R408): An ownership token installs owner keys during FINISH. -/
  | ownershipToken (r : Req) (t : Token) (cred : Cred)
  /-- TOKEN_SERVICE_MODE (R417): A kind-2 token starts or ends service mode. -/
  | tokenServiceMode (r : Req) (t : Token)
  /-- TOKEN_FACTORY_UNLOCK (R422): A kind-3 token opens factory mode. -/
  | tokenFactoryUnlock (r : Req) (t : Token)
  /-- TOKEN_REINSTATEMENT (R423): A kind-4 token leaves sealed-for-return. -/
  | tokenReinstatement (r : Req) (t : Token)
  /-- TOKEN_OWNER_TRANSFER (R411): A kind-5 token replaces the owner keys. -/
  | tokenOwnerTransfer (r : Req) (t : Token)
  /-- SERVICE_MODE_EXPIRY (R417): Service mode ends after DURATION. -/
  | serviceModeExpiry
  /-- DUMP_COLLECT (R393): Collect a dump with a recipe. -/
  | dumpCollect (r : Req) (recipe : List RecipeEntry)
  /-- DUMP_COLLECT_DONE (R391): A dump finishes and any waiting reset starts. An element v of `hung` is a bank or unit, v mod 2^18, that timed out after
  v / 2^18 reads that it answered (R394). -/
  | dumpCollectDone (f : Nat) (hung : List Nat)
  /-- DUMP_LIST (R346): List held dumps. -/
  | dumpList (r : Req)
  /-- DUMP_FETCH (R396): Return a 1 MiB piece of a dump. -/
  | dumpFetch (r : Req) (id off : Nat)
  /-- DUMP_DELETE (R346): Free a dump. -/
  | dumpDelete (r : Req) (id : Nat)
  /-- ATTEST_REPORT (R412): Return a signed attestation report. -/
  | attestReport (r : Req) (nonce : BitVec 256)
  /-- ATTEST_CERTS (R409): Return both certificate chains. -/
  | attestCerts (r : Req)
  /-- GEN2_OPEN (R358): Generation 2 session handshake. -/
  | gen2Open (q : Req2) (cred : Cred) (k : KeyOffer)
  /-- GEN2_CLOSE (R358): Generation 2 close. -/
  | gen2Close (q : Req2)
  /-- GEN2_INFO (R358): Generation 2 status. -/
  | gen2Info (q : Req2)
  /-- GEN2_LOAD (R358): Generation 2 plan load by sub-type. -/
  | gen2Load (q : Req2) (x : Gen2Load)
  /-- GEN2_WEIGHTS (R358): Generation 2 initial shard. -/
  | gen2Weights (q : Req2) (x : Gen2Weights)
  /-- GEN2_FEED (R358): Generation 2 input delivery. -/
  | gen2Feed (q : Req2) (x : Gen2Feed)
  /-- GEN2_GO (R358): Generation 2 Run start. -/
  | gen2Go (q : Req2)
  /-- GEN2_HALT (R358): Generation 2 Run stop. -/
  | gen2Halt (q : Req2)
  /-- GEN2_FETCH (R358): Generation 2 committed read. -/
  | gen2Fetch (q : Req2) (id off len : Nat)
  /-- GEN2_REGS (R358): Generation 2 register read. -/
  | gen2Regs (q : Req2) (addrs : List Addr)
  /-- GEN2_HEALTH (R358): Generation 2 health cards. -/
  | gen2Health (q : Req2)
  /-- GEN2_RESET (R358): Generation 2 reset. -/
  | gen2Reset (q : Req2) (g : Rung)
  /-- GEN2_DUMP (R358): Generation 2 dump collect and fetch. -/
  | gen2Dump (q : Req2) (id off : Nat)
  /-- ICMP_ECHO (R332): Answer an IPv4 or IPv6 echo request. -/
  | icmpEcho (q : EchoFrom) (dst : BitVec 128) (data : List Byte)
  /-- NDP_MESSAGE (R332): Handle neighbour discovery and SLAAC. -/
  | ndpMessage (m : Ndp)
  /-- ARP_REQUEST (R332): Answer an ARP request. -/
  | arpRequest (q : ArpReq)
  /-- DHCPV4_REPLY (R332): Take an IPv4 address from DHCPv4. -/
  | dhcpv4Reply (addr : BitVec 32)
  /-- PORT_MODE_TIMEOUT (R331): After 2 s without link, try the other port mode. -/
  | portModeTimeout
  /-- BOOT_SOLICIT (R356): The boot ROM sends SOLICIT every 250 ms. -/
  | bootSolicit
  /-- BOOT_ADVERTISE (R356): An ADVERTISE names the manifest and image lengths. -/
  | bootAdvertise (imageLen manifestLen : Nat)
  /-- BOOT_READ_RESPONSE (R403): A READ response delivers manifest or image bytes for verification. -/
  | bootReadResponse (p : BootPiece)
  /-- BOOT_READ_RETRY (R356): An unanswered boot READ is retried after 50 ms. -/
  | bootReadRetry
  /-- BOOT_RETRY_TIMER (R403): After a failed verification, solicit again after 1 s. -/
  | bootRetryTimer
  /-- BOOT_WIPE_DONE (R421): The boot wipe ends and port 49,300 opens. -/
  | bootWipeDone
  /-- WIPE_START (R419): A wipe begins at bell b: stop, erase keys, zero SRAM and LPDDR. -/
  | wipeStart (p : BitVec 3)
  /-- WIPE_LPDDR_DONE (R419): Zeroing of LPDDR ends; counters, logs cleared and the wipe ends. -/
  | wipeLpddrDone (p : BitVec 3)
  /-- ENTDAA (R435): I3C dynamic address assignment. -/
  | entdaa (addr : BitVec 7)
  /-- RSTDAA (R435): I3C reset of the dynamic address. -/
  | rstdaa
  /-- GETPID (R435): I3C read of the provisional ID. -/
  | getpid
  /-- GETBCR (R435): I3C read of the bus characteristics register. -/
  | getbcr
  /-- GETDCR (R435): I3C read of the device characteristics register. -/
  | getdcr
  /-- TELEMETRY_WINDOW (R416): A telemetry window ends and readings update. -/
  | telemetryWindow (t : Telemetry)
  /-- PWR_EN_RISE (R430): PWR_EN rises and power-on sequencing begins. -/
  | pwrEnRise
  /-- POWER_GOOD (R430): All rails regulate; PG rises and the boot ROM is released. -/
  | powerGood
  /-- PWR_EN_FALL (R431): PWR_EN falls; chip reset, PG low, rails down. -/
  | pwrEnFall
  /-- RST_N_ASSERT (R432): RST_N low starts a chip reset. -/
  | rstNAssert
  /-- RST_N_RELEASE (R432): RST_N rises and the module boots or releases a trip. -/
  | rstNRelease
  /-- THERMTRIP (R433): A die sensor at 115 °C trips the module. -/
  | thermtrip
  /-- UNDERVOLT (R428): Input below 37 V for 1 ms sets an alert. -/
  | undervolt
  /-- UNDERVOLT_SHUTDOWN (R428): Input below 34 V for 1 ms acts as PWR_EN falling. -/
  | undervoltShutdown
  /-- OVERVOLT (R428): Input above 43 V for 1 ms sets an alert. -/
  | overvolt
  /-- INPUT_OVERVOLT_CUTOFF (R428): Input above 46 V opens the hot-swap. -/
  | inputOvervoltCutoff
  /-- OVERCURRENT (R428): Input above 160 A over 10 ms sets an alert. -/
  | overcurrent
  /-- HOT_SWAP_TRIP (R428): Trip current opens the hot-swap. -/
  | hotSwapTrip
  /-- PHASE (R428): A phase fault sets an alert and moves load to a spare phase. -/
  | phase (f ph : Nat)
  /-- CART_LATCH (R438): A cartridge latch opens; combs off and links leave LOCKED. -/
  | cartLatch (f : Nat)
  /-- CAP (R440): Input above PW_CAP over 100 ms sets an alert. -/
  | cap
  /-- DIE_HOT (R439): Die at 95 °C sets an alert. -/
  | dieHot
  /-- INLET_HOT (R439): Inlet above 40 °C sets an alert. -/
  | inletHot
  /-- LPDDR_HOT (R439): LPDDR case at 90 °C sets an alert. -/
  | lpddrHot
  /-- LIGHT_LOST (R296): Received light is lost on a link, for example at a fibre re-patch, and the link leaves LOCKED for DARK. -/
  | lightLost (l : Nat)
  /-- CARTRIDGE_LATCHED (R438): A laser cartridge is latched again, which sets PW_STATUS.CART_LATCH and lets its links leave DARK on a later RETRAIN. -/
  | cartridgeLatched (f : Nat)
  /-- ALERT_CONDITION_END (R440): An alert condition (undervolt, overvolt, overcurrent, cap, die, inlet or LPDDR hot) ends, so that a cleared alert bit is no longer set again. -/
  | alertConditionEnd (bit : Nat)
  /-- PORT_LINK_UP (R331): The host port's Ethernet link comes up in DR8 or DR4 mode, which sets PR_PORT.UP and MODE and ends the mode search. -/
  | portLinkUp (dr8 : Bool)
  /-- PORT_LINK_DOWN (R331): The host port's Ethernet link goes down and PR_PORT reads down. -/
  | portLinkDown
  /-- RESET_RUNG_COMPLETE (R385): An engine or partition reset finishes within its bound, ends PR_RESET.RUNG and lets the core serve buddy requests or the partition report the reset complete. -/
  | resetRungComplete (f : Nat)
  /-- UNIT_TRANSFER_ACK (R266): The sender of a pushed or fixed unit receives the receiver's acknowledgement, which counts toward MIRROR_OK and toward the Handover refusal of R267. -/
  | unitTransferAck (f core : Nat) (a : UnitAck)
  /-- FRAME_DROPPED (R331): A received host-port frame is dropped and counted: full buffers, bad size, wrong VLAN or UDP port, or a failed Slate tag. -/
  | frameDropped (f : Nat) (why : DropReason)
  /-- UNKNOWN_COMMAND (R352): An authenticated Slate frame with a wrong VER, a wrong LEN or an unknown class or command is answered BAD_FRAME or BAD_COMMAND. -/
  | unknownCommand (r : Req) (badFrame : Bool)
  deriving DecidableEq, Repr

end Sys2Proof
end

