-- ==== Sys2Proof/Decode.lean ====
section
/-! DEFINITION. Chalk instruction words (R90, R91, Table 03-5): reading a word, its legality, the constructor of `Instr` it
stands for, and writing it; and the host's `decodeTableWord`, which has no row with bits to read. -/

namespace Sys2Proof

/-- The fields below OP of an instruction word (Table 03-5). -/
def insOfWord (w : Word) : Ins :=
  { pred := w.extractLsb' 53 3, pneg := w.getLsbD 52, dst := w.extractLsb' 47 5, sa := w.extractLsb' 42 5,
    sb := w.extractLsb' 37 5, sc := w.extractLsb' 32 5, imm := w.extractLsb' 0 32 }

/-- OP of an instruction word. -/
def opOfWord (w : Word) : BitVec 8 := w.extractLsb' 56 8

/-- The word of an opcode and its fields. -/
def wordOf (op : BitVec 8) (i : Ins) : Word :=
  op ++ i.pred ++ BitVec.ofBool i.pneg ++ i.dst ++ i.sa ++ i.sb ++ i.sc ++ i.imm

/-- A register field that an instruction does not use is zero. -/
def none5 (r : BitVec 5) : Bool := r == 0
/-- A register field is in range for a file of `n` registers. -/
def reg5 (n : Nat) (r : BitVec 5) : Bool := decide (r.toNat < n)

/-- R91 without the code region: the OP appears in the chapter, every field it does not use is zero, every register field is in
range for its file, and the immediate meets its limits. DESIGN CHOICE (log 26): SB and IMM[19:16] of a VOP are fields of the VOP form, used or
not by its code's count of sources, and may be non-zero. -/
def insLegal (op : BitVec 8) (i : Ins) : Bool :=
  let noImm := i.imm == 0
  match op.toNat with
  | 0x00 => none5 i.dst && none5 i.sa && none5 i.sb && none5 i.sc && noImm
  | 0x01 => none5 i.sc && noImm
  | 0x02 => none5 i.sc && noImm
  | 0x03 => none5 i.sc && noImm
  | 0x04 => none5 i.sc && noImm
  | 0x05 => none5 i.sc && noImm
  | 0x06 => none5 i.sc && noImm
  | 0x07 => none5 i.sc && noImm
  | 0x08 => none5 i.sc && noImm
  | 0x09 => none5 i.sc && noImm
  | 0x0A => none5 i.sc && noImm
  | 0x0B => none5 i.sc && noImm
  | 0x0C => none5 i.sc && noImm
  | 0x0D => none5 i.sc && noImm
  | 0x0E => none5 i.sc && noImm
  | 0x10 => none5 i.sb && none5 i.sc
  | 0x11 => none5 i.sb && none5 i.sc
  | 0x12 => none5 i.sb && none5 i.sc
  | 0x13 => none5 i.sb && none5 i.sc
  | 0x14 => none5 i.sb && none5 i.sc && decide (i.imm.toNat < 64)
  | 0x15 => none5 i.sb && none5 i.sc && decide (i.imm.toNat < 64)
  | 0x16 => none5 i.sb && none5 i.sc && decide (i.imm.toNat < 64)
  | 0x17 => none5 i.sa && none5 i.sb && none5 i.sc
  | 0x18 => i.sa == i.dst && none5 i.sb && none5 i.sc
  | 0x20 => reg5 8 i.dst && none5 i.sc && noImm
  | 0x21 => reg5 8 i.dst && none5 i.sc && noImm
  | 0x22 => reg5 8 i.dst && none5 i.sc && noImm
  | 0x23 => reg5 8 i.dst && none5 i.sb && none5 i.sc
  | 0x24 => reg5 8 i.dst && none5 i.sb && none5 i.sc
  | 0x25 => reg5 8 i.dst && none5 i.sb && none5 i.sc
  | 0x26 => reg5 8 i.dst && reg5 8 i.sa && reg5 8 i.sb && reg5 4 i.sc && noImm
  | 0x30 => reg5 16 i.dst && reg5 16 i.sa && none5 i.sc && noImm
  | 0x31 => reg5 16 i.dst && reg5 16 i.sa && none5 i.sb && none5 i.sc
  | 0x32 => reg5 16 i.dst && none5 i.sb && none5 i.sc && noImm
  | 0x33 => reg5 16 i.sa && none5 i.sb && none5 i.sc && noImm
  | 0x40 => none5 i.dst && none5 i.sa && none5 i.sb && none5 i.sc
  | 0x41 => none5 i.dst && none5 i.sa && none5 i.sb && none5 i.sc
  | 0x42 => none5 i.dst && none5 i.sb && none5 i.sc && noImm
  | 0x43 => none5 i.dst && none5 i.sb && none5 i.sc && decide (1 ≤ i.imm.toNat) && decide (i.imm.toNat ≤ 4096)
  | 0x50 => reg5 16 i.sa && none5 i.sb && reg5 16 i.sc
  | 0x51 => none5 i.dst && reg5 16 i.sa && reg5 16 i.sc && !i.sc.getLsbD 2
  | 0x52 => reg5 16 i.dst && reg5 16 i.sa && none5 i.sb && none5 i.sc
  | 0x53 => none5 i.dst && reg5 16 i.sa && reg5 16 i.sb && none5 i.sc
  | 0x60 => reg5 16 i.dst && reg5 16 i.sa && reg5 16 i.sc && noImm
  | 0x61 => reg5 16 i.dst && reg5 16 i.sa && none5 i.sb && reg5 16 i.sc && noImm
  | 0x70 => reg5 8 i.dst && reg5 16 i.sa && reg5 16 i.sb && reg5 16 i.sc && i.imm.extractLsb' 13 18 == 0
  | 0x71 => reg5 8 i.dst && none5 i.sa && none5 i.sb && reg5 16 i.sc && noImm
  | 0x72 => reg5 8 i.dst && reg5 16 i.sa && none5 i.sb && reg5 16 i.sc && noImm
  | 0x73 => reg5 16 i.dst && reg5 8 i.sa && none5 i.sb && reg5 16 i.sc && i.imm.extractLsb' 9 23 == 0
  | 0x80 => reg5 16 i.dst && reg5 16 i.sa && reg5 16 i.sb && reg5 16 i.sc && i.imm.extractLsb' 24 8 == 0
  | 0x81 => reg5 16 i.dst && reg5 16 i.sa && reg5 16 i.sb && reg5 16 i.sc && i.imm.extractLsb' 20 12 == 0
  | 0x82 => none5 i.dst && reg5 16 i.sa && none5 i.sb && reg5 16 i.sc && noImm
  | 0x83 => none5 i.sa && none5 i.sb && reg5 16 i.sc && noImm
  | 0x84 => none5 i.sa && none5 i.sb && reg5 16 i.sc && noImm
  | 0x90 => none5 i.dst && none5 i.sa && none5 i.sb && none5 i.sc
  | 0x91 => none5 i.dst && none5 i.sb && none5 i.sc && noImm
  | 0x92 => none5 i.dst && none5 i.sa && none5 i.sb && none5 i.sc && decide (i.imm.toNat < 256)
  | 0x93 => none5 i.dst && none5 i.sa && none5 i.sb && none5 i.sc && noImm
  | 0xA0 => reg5 16 i.sa && none5 i.sb && none5 i.sc
  | 0xA1 => none5 i.dst && reg5 16 i.sa && none5 i.sc
  | 0xA8 => none5 i.dst && none5 i.sb && none5 i.sc && noImm
  | 0xA9 => none5 i.sb && none5 i.sc && noImm
  | 0xB0 => none5 i.dst && none5 i.sa && none5 i.sb && none5 i.sc && decide (i.imm.toNat < 16)
  | 0xB1 => none5 i.dst && none5 i.sa && none5 i.sb && none5 i.sc && decide (i.imm.toNat < 65536)
  | 0xB8 => none5 i.dst && none5 i.sa && none5 i.sb && none5 i.sc && decide (i.imm.toNat < 65536)
  | 0xB9 => none5 i.dst && none5 i.sb && none5 i.sc && decide (i.imm.toNat < 512)
  | 0xBA => none5 i.sa && none5 i.sb && none5 i.sc && decide (i.imm.toNat < 2)
  | _ => false

/-- The target of a branch or CALL at index `ix`, or the end of a LOOP's body, lies in a code region of `n` words (R91). -/
def targetLegal (op : BitVec 8) (i : Ins) (ix n : Nat) : Bool :=
  let t : Int := (ix : Int) + i.imm.toInt
  if op = 0x40#8 ∨ op = 0x41#8 then decide (0 ≤ t) && decide (t < n)
  else if op = 0x43#8 then decide (ix + i.imm.toNat < n) else true

/-- R91 for the word at index `ix` of a code region of `n` words. A reserved format or rounding code in the IMM of an MMA or MXST is no unknown opcode
and no reserved bit: it passes here, and the instruction is refused with fault 0x0A when it issues (DEDUCED, log 26). -/
def wordLegal (w : Word) (ix n : Nat) : Bool :=
  insLegal (opOfWord w) (insOfWord w) && targetLegal (opOfWord w) (insOfWord w) ix n

/-- A RAISE names only bits that a lesson may raise: IMM[8:0] within 0x139 (R115). -/
def raiseLegal (w : Word) : Bool := opOfWord w != 0xB9#8 || ((insOfWord w).imm &&& ~~~0x139#32) == 0

/-- The command an opcode and its fields stand for on core `c`; a VOP by its code in IMM[15:0] (Table 05-4). A VOP of a code that is not listed is
issued under the first row, which refuses it (R165; the table has no row of its own for it, log 26). -/
def instrOf (op : BitVec 8) (c : Nat) (i : Ins) : Option Instr :=
  match op.toNat with
  | 0x00 => some (.nop c i)
  | 0x01 => some (.add c i)
  | 0x02 => some (.sub c i)
  | 0x03 => some (.and c i)
  | 0x04 => some (.or c i)
  | 0x05 => some (.xor c i)
  | 0x06 => some (.sll c i)
  | 0x07 => some (.srl c i)
  | 0x08 => some (.sra c i)
  | 0x09 => some (.mul c i)
  | 0x0A => some (.mulhu c i)
  | 0x0B => some (.min c i)
  | 0x0C => some (.max c i)
  | 0x0D => some (.divu c i)
  | 0x0E => some (.remu c i)
  | 0x10 => some (.addi c i)
  | 0x11 => some (.andi c i)
  | 0x12 => some (.ori c i)
  | 0x13 => some (.xori c i)
  | 0x14 => some (.slli c i)
  | 0x15 => some (.srli c i)
  | 0x16 => some (.srai c i)
  | 0x17 => some (.li c i)
  | 0x18 => some (.lih c i)
  | 0x20 => some (.cmpeq c i)
  | 0x21 => some (.cmplt c i)
  | 0x22 => some (.cmpltu c i)
  | 0x23 => some (.cmpeqi c i)
  | 0x24 => some (.cmplti c i)
  | 0x25 => some (.cmpltui c i)
  | 0x26 => some (.plog c i)
  | 0x30 => some (.adda c i)
  | 0x31 => some (.addai c i)
  | 0x32 => some (.mvsa c i)
  | 0x33 => some (.mvas c i)
  | 0x40 => some (.br c i)
  | 0x41 => some (.call c i)
  | 0x42 => some (.jr c i)
  | 0x43 => some (.loop c i)
  | 0x50 => some (.ld c i)
  | 0x51 => some (.st c i)
  | 0x52 => some (.ldd c i)
  | 0x53 => some (.std c i)
  | 0x60 => some (.dma c i)
  | 0x61 => some (.dmad c i)
  | 0x70 => some (.mma c i)
  | 0x71 => some (.mxz c i)
  | 0x72 => some (.mxld c i)
  | 0x73 => some (.mxst c i)
  | 0x81 => some (.fupd c i)
  | 0x82 => some (.crc c i)
  | 0x83 => some (.vget c i)
  | 0x84 => some (.vflg c i)
  | 0x90 => some (.bellwait c i)
  | 0x91 => some (.bellwaits c i)
  | 0x92 => some (.seal c i)
  | 0x93 => some (.rest c i)
  | 0xA0 => some (.rdcr c i)
  | 0xA1 => some (.wrcr c i)
  | 0xA8 => some (.rngk c i)
  | 0xA9 => some (.rng c i)
  | 0xB0 => some (.fence c i)
  | 0xB1 => some (.wait c i)
  | 0xB8 => some (.check c i)
  | 0xB9 => some (.raise c i)
  | 0xBA => some (.rdflt c i)
  | 0x80 =>
    match i.imm.toNat % 65536 with
    | 0x01 => some (.vopCvt c i)
    | 0x02 => some (.vopAdd c i)
    | 0x03 => some (.vopSub c i)
    | 0x04 => some (.vopMul c i)
    | 0x05 => some (.vopDiv c i)
    | 0x06 => some (.vopMin c i)
    | 0x07 => some (.vopMax c i)
    | 0x08 => some (.vopFma c i)
    | 0x09 => some (.vopAbs c i)
    | 0x0A => some (.vopNeg c i)
    | 0x0B => some (.vopSqrt c i)
    | 0x0C => some (.vopRsqrt c i)
    | 0x0D => some (.vopRecip c i)
    | 0x0E => some (.vopExp c i)
    | 0x0F => some (.vopLog c i)
    | 0x10 => some (.vopTanh c i)
    | 0x11 => some (.vopSigmoid c i)
    | 0x12 => some (.vopSilu c i)
    | 0x20 => some (.vopRsum c i)
    | 0x21 => some (.vopRmax c i)
    | 0x22 => some (.vopAmax c i)
    | 0x23 => some (.vopSumsq c i)
    | 0x24 => some (.vopSum c i)
    | 0x30 => some (.vopSoftmax c i)
    | 0x31 => some (.vopLse c i)
    | 0x32 => some (.vopRmsnorm c i)
    | 0x33 => some (.vopLayernorm c i)
    | 0x34 => some (.vopXent c i)
    | 0x35 => some (.vopXgrad c i)
    | 0x40 => some (.vopQrow c i)
    | 0x41 => some (.vopQtensor c i)
    | 0x42 => some (.vopMxq c i)
    | 0x43 => some (.vopDeq c i)
    | 0x44 => some (.vopRescale c i)
    | 0x48 => some (.vopHist c i)
    | _ => some (.vopCvt c i)
  | _ => none

/-- Opcode, core and fields of a Chalk instruction. -/
def opOf (x : Instr) : Option (BitVec 8 × Nat × Ins) :=
  match x with
  | .nop c i => some (0x00, c, i)
  | .add c i => some (0x01, c, i)
  | .sub c i => some (0x02, c, i)
  | .and c i => some (0x03, c, i)
  | .or c i => some (0x04, c, i)
  | .xor c i => some (0x05, c, i)
  | .sll c i => some (0x06, c, i)
  | .srl c i => some (0x07, c, i)
  | .sra c i => some (0x08, c, i)
  | .mul c i => some (0x09, c, i)
  | .mulhu c i => some (0x0A, c, i)
  | .min c i => some (0x0B, c, i)
  | .max c i => some (0x0C, c, i)
  | .divu c i => some (0x0D, c, i)
  | .remu c i => some (0x0E, c, i)
  | .addi c i => some (0x10, c, i)
  | .andi c i => some (0x11, c, i)
  | .ori c i => some (0x12, c, i)
  | .xori c i => some (0x13, c, i)
  | .slli c i => some (0x14, c, i)
  | .srli c i => some (0x15, c, i)
  | .srai c i => some (0x16, c, i)
  | .li c i => some (0x17, c, i)
  | .lih c i => some (0x18, c, i)
  | .cmpeq c i => some (0x20, c, i)
  | .cmplt c i => some (0x21, c, i)
  | .cmpltu c i => some (0x22, c, i)
  | .cmpeqi c i => some (0x23, c, i)
  | .cmplti c i => some (0x24, c, i)
  | .cmpltui c i => some (0x25, c, i)
  | .plog c i => some (0x26, c, i)
  | .adda c i => some (0x30, c, i)
  | .addai c i => some (0x31, c, i)
  | .mvsa c i => some (0x32, c, i)
  | .mvas c i => some (0x33, c, i)
  | .br c i => some (0x40, c, i)
  | .call c i => some (0x41, c, i)
  | .jr c i => some (0x42, c, i)
  | .loop c i => some (0x43, c, i)
  | .ld c i => some (0x50, c, i)
  | .st c i => some (0x51, c, i)
  | .ldd c i => some (0x52, c, i)
  | .std c i => some (0x53, c, i)
  | .dma c i => some (0x60, c, i)
  | .dmad c i => some (0x61, c, i)
  | .mma c i => some (0x70, c, i)
  | .mxz c i => some (0x71, c, i)
  | .mxld c i => some (0x72, c, i)
  | .mxst c i => some (0x73, c, i)
  | .fupd c i => some (0x81, c, i)
  | .crc c i => some (0x82, c, i)
  | .vget c i => some (0x83, c, i)
  | .vflg c i => some (0x84, c, i)
  | .bellwait c i => some (0x90, c, i)
  | .bellwaits c i => some (0x91, c, i)
  | .seal c i => some (0x92, c, i)
  | .rest c i => some (0x93, c, i)
  | .rdcr c i => some (0xA0, c, i)
  | .wrcr c i => some (0xA1, c, i)
  | .rngk c i => some (0xA8, c, i)
  | .rng c i => some (0xA9, c, i)
  | .fence c i => some (0xB0, c, i)
  | .wait c i => some (0xB1, c, i)
  | .check c i => some (0xB8, c, i)
  | .raise c i => some (0xB9, c, i)
  | .rdflt c i => some (0xBA, c, i)
  | .vopCvt c i => some (0x80, c, i)
  | .vopAdd c i => some (0x80, c, i)
  | .vopSub c i => some (0x80, c, i)
  | .vopMul c i => some (0x80, c, i)
  | .vopDiv c i => some (0x80, c, i)
  | .vopMin c i => some (0x80, c, i)
  | .vopMax c i => some (0x80, c, i)
  | .vopFma c i => some (0x80, c, i)
  | .vopAbs c i => some (0x80, c, i)
  | .vopNeg c i => some (0x80, c, i)
  | .vopSqrt c i => some (0x80, c, i)
  | .vopRsqrt c i => some (0x80, c, i)
  | .vopRecip c i => some (0x80, c, i)
  | .vopExp c i => some (0x80, c, i)
  | .vopLog c i => some (0x80, c, i)
  | .vopTanh c i => some (0x80, c, i)
  | .vopSigmoid c i => some (0x80, c, i)
  | .vopSilu c i => some (0x80, c, i)
  | .vopRsum c i => some (0x80, c, i)
  | .vopRmax c i => some (0x80, c, i)
  | .vopAmax c i => some (0x80, c, i)
  | .vopSumsq c i => some (0x80, c, i)
  | .vopSum c i => some (0x80, c, i)
  | .vopSoftmax c i => some (0x80, c, i)
  | .vopLse c i => some (0x80, c, i)
  | .vopRmsnorm c i => some (0x80, c, i)
  | .vopLayernorm c i => some (0x80, c, i)
  | .vopXent c i => some (0x80, c, i)
  | .vopXgrad c i => some (0x80, c, i)
  | .vopQrow c i => some (0x80, c, i)
  | .vopQtensor c i => some (0x80, c, i)
  | .vopMxq c i => some (0x80, c, i)
  | .vopDeq c i => some (0x80, c, i)
  | .vopRescale c i => some (0x80, c, i)
  | .vopHist c i => some (0x80, c, i)
  | _ => none

/-- The instruction a word stands for on core `c`, if the word is legal by itself (R91). -/
def decodeIns (c : Nat) (w : Word) : Option Instr :=
  if insLegal (opOfWord w) (insOfWord w) then instrOf (opOfWord w) c (insOfWord w) else none

/-- The word of a Chalk instruction. -/
def encodeIns (x : Instr) : Option Word := (opOf x).map (fun p => wordOf p.1 p.2.2)

/-- No row of the opcode table has bits: no word spells a command (log 2). -/
def decodeTableWord (nbits w : Nat) : Option Instr :=
  match nbits, w with
  | _, _ => none

end Sys2Proof
end

