-- ==== Sys2Proof/Config.lean ====
section
/-! DEFINITION. What the manual leaves open: free values (constants with no body, so that no proof can see a number) and
the uninterpreted published functions whose outputs the model never computes. -/

namespace Sys2Proof.Config

/-- A fresh 64-bit value the manual leaves open, drawn with the model's own counter (log 4). -/
opaque freeWord : Nat → BitVec 64

/-- A byte a cancelled operation was writing (R89, R180): unspecified (log 4). -/
opaque freeByte : Nat → BitVec 8

/-- A fresh 256-bit random value: boot nonce, challenge, device nonce (R401, R411) (log 4, log 7). -/
opaque freeBits : Nat → BitVec 256

/-- Byte of the payload of an IDLE flit by step, period of the step, link and slot: the manual leaves it open, and equal runs of a step send
equal payloads (R78) (log 4). -/
opaque idleByte : BitVec 64 → BitVec 32 → Nat → Nat → Nat → BitVec 8

/-- A status word that a STATUS flit carries for a period whose word is not held, by its place in the payload (log 14). -/
opaque unheldWord : Nat → BitVec 64

/-- The Hall Monitor's quiz seed (R372): its value is not stated (log 4). -/
opaque quizSeed : BitVec 64

/-- Factory baseline, less one, of a tile's voltage margin (input 0, in mV) and clock margin (input 1, in MHz), by field, card number and input: the
manual gives no value (R365, R373) (log 4). -/
opaque factoryMargin : Nat → Nat → Nat → Nat

/-- EXP of a FP32 value, as FP32 bits, wherever Table 05-6 names no result: one fixed algorithm within 2 ulp (R168) (log 9). -/
opaque exp32 : BitVec 32 → BitVec 32

/-- LOG of a positive FP32 value (R168) (log 9). -/
opaque log32 : BitVec 32 → BitVec 32

/-- TANH of a FP32 value that is not a NaN (R168) (log 9). -/
opaque tanh32 : BitVec 32 → BitVec 32

/-- SIGMOID of a FP32 value that is neither a NaN nor minus infinity (R168) (log 9). -/
opaque sigmoid32 : BitVec 32 → BitVec 32

/-- RSQRT of a positive finite FP32 value, within 1 ulp (R168), and of -0, which Table 05-6 leaves out (log 9). -/
opaque rsqrt32 : BitVec 32 → BitVec 32

/-- RECIP of a non-zero FP32 value, within 1 ulp (R168) (log 9). -/
opaque recip32 : BitVec 32 → BitVec 32

/-- SHA-256, a published standard the model does not compute (R314, R315) (log 10). -/
opaque sha256 : List (BitVec 8) → BitVec 256

/-- HMAC-SHA-384 of a key and a message, first byte most significant: the PRF of every KDF (R293, R311, R402) (log 10). -/
opaque hmac384 : List (BitVec 8) → List (BitVec 8) → BitVec 384

/-- AES-256-CMAC of a message, first byte most significant (R224) (log 10). -/
opaque cmac : BitVec 256 → List (BitVec 8) → BitVec 128

/-- AES-256-GCM under a key, nonce, associated data and plaintext: the ciphertext and its 16-byte tag (R292) (log 10). -/
opaque gcm : BitVec 256 → List (BitVec 8) → List (BitVec 8) → List (BitVec 8) → List (BitVec 8)

/-- The secrets fused at manufacture (R293, R400, Table 14-1): their values never leave the Proctor (log 10). -/
opaque idSeed : BitVec 256
opaque fleetRoot : BitVec 256
opaque memRoot : BitVec 256

/-- Memory keys that the DRBG gives a module whose memory root is disconnected, by boot nonce and generation (R401, R422) (log 10). -/
opaque drbgKeys : BitVec 256 → Nat → BitVec 768

/-- The digest of the vendor firmware keys that the boot ROM holds (R405): its value is not stated (log 10). -/
opaque vendorKeys : BitVec 384

/-- Session keys of a generation 2 OPEN (R357): X25519 alone; the manual lays out no derivation (log 10). -/
opaque sessionKeys : BitVec 256 → BitVec 256 → BitVec 256 → BitVec 512

/-- X25519 of a scalar and a u-coordinate (R339) (log 10). -/
opaque x25519 : BitVec 256 → BitVec 256 → BitVec 256

/-- ML-KEM-768 encapsulation under an encapsulation key, with its randomness: the ciphertext and the shared secret (R338, R339) (log 10). -/
opaque mlkemCt : List (BitVec 8) → BitVec 256 → List (BitVec 8)
opaque mlkemKey : List (BitVec 8) → BitVec 256 → BitVec 256

/-- ML-DSA-65 signature of a message under the key pair of a seed (R338, R402, R412) (log 10). -/
opaque mldsa : BitVec 256 → List (BitVec 8) → List (BitVec 8)

/-- Ed25519 signature of a message under a private key (R338, R402, R412) (log 10). -/
opaque ed25519 : BitVec 256 → List (BitVec 8) → BitVec 512

/-- SHA-384, a published standard the model does not compute (R404, R406, R412) (log 10). -/
opaque sha384 : List (BitVec 8) → BitVec 384

/-- The two identity certificate chains of a serial (R409): written at manufacture, contents open (log 8). -/
opaque certChains : BitVec 128 → List (BitVec 8)

/-- AES-256-XTS under a key pair: key, tweak, data unit (R223, R311) (log 10). -/
opaque xts : BitVec 512 → Nat → List (BitVec 8) → List (BitVec 8)

/-- Decryption of one data unit under AES-256-XTS (R327) (log 10). -/
opaque xtsInv : BitVec 512 → Nat → List (BitVec 8) → List (BitVec 8)

/-- HMAC-SHA-256 (R314) (log 10). -/
opaque hmac256 : BitVec 256 → List (BitVec 8) → BitVec 256

/-- Sign and payload of a FP64 NaN the module writes: the manual gives FP64 no canonical NaN (log 9). -/
opaque nanPayload : BitVec 52

/-- Sign of the MIN (first argument false) or MAX of two zeros of unlike sign, by the sign of the first: not stated (log 9). -/
opaque zeroTie : Bool → Bool → Bool

/-- Manufacturer code in the I3C provisional ID, bits 47 to 32, bus and device characteristics (R435): values not stated (log 4). -/
opaque i3cMaker : BitVec 16
opaque i3cBcr : BitVec 8
opaque i3cDcr : BitVec 8

end Sys2Proof.Config
end

