-- ==== Sys2Proof/Machine/Bits.lean ====
section
/-! DEFINITION. Byte order (R5: little-endian), bit fields, the CRC-32C of R106 and small list helpers. -/

namespace Sys2Proof.Machine

/-- The `n` low bytes of a number, least significant first (R5). -/
def leBytes : Nat → Nat → List Byte
  | 0, _ => []
  | n + 1, v => BitVec.ofNat 8 v :: leBytes n (v / 256)

/-- Zero bytes up to a whole number of `n`. -/
def padTo (n : Nat) (l : List Byte) : List Byte := l ++ List.replicate ((n - l.length % n) % n) 0

/-- The number that bytes spell, least significant first (R5). -/
def ofLe : List Byte → Nat
  | [] => 0
  | b :: r => b.toNat + 256 * ofLe r

/-- Bits [hi:lo] of a number. -/
def bits (v hi lo : Nat) : Nat := v / 2 ^ lo % 2 ^ (hi + 1 - lo)

/-- One bit of a number. -/
def bit (v i : Nat) : Bool := v / 2 ^ i % 2 == 1

/-- Put a field of a register at its lowest bit. -/
def fieldAt (v lo : Nat) : Nat := v * 2 ^ lo

/-- One bit as a number. -/
def b2n (b : Bool) : Nat := if b then 1 else 0

/-- Rounded-up quotient; 0 when the divisor is 0. -/
def ceilDiv (a b : Nat) : Nat := if b = 0 then 0 else (a + b - 1) / b

/-- `n`-bit two's complement of a number as an integer. -/
def signedOf (n v : Nat) : Int :=
  let w := v % 2 ^ n
  if w < 2 ^ (n - 1) then (w : Int) else (w : Int) - (2 ^ n : Nat)

/-- An integer modulo 2^n, as a number. -/
def wrapTo (n : Nat) (x : Int) : Nat := (x % (2 ^ n : Nat)).toNat

/-- Clamp an integer. -/
def clampInt (x lo hi : Int) : Int := if x < lo then lo else if hi < x then hi else x

/-- One byte into a reflected CRC-32C register: eight shifts with the Castagnoli polynomial 0x82F63B78 (R106). -/
def crcByte (r : BitVec 32) (b : Byte) : BitVec 32 :=
  (List.range 8).foldl
    (fun c _ => if c.getLsbD 0 then (c >>> 1) ^^^ 0x82F63B78#32 else c >>> 1)
    (r ^^^ (b.setWidth 32))

/-- CRC-32C: Castagnoli, reflected, initial and final value all ones (R106). -/
def crc32c (bs : List Byte) : BitVec 32 := ~~~ (bs.foldl crcByte 0xFFFFFFFF#32)

/-- Apply a function to the entry at a position. -/
def modifyAt {α : Type} : List α → Nat → (α → α) → List α
  | [], _, _ => []
  | x :: r, 0, f => f x :: r
  | x :: r, n + 1, f => x :: modifyAt r n f

/-- Drop the entry at a position. -/
def dropAt {α : Type} : List α → Nat → List α
  | [], _ => []
  | _ :: r, 0 => r
  | x :: r, n + 1 => x :: dropAt r n

/-- Floor of the square root of `n`, from `k` bits downward. -/
def isqrtGo (n : Nat) : Nat → Nat → Nat
  | 0, r => r
  | k + 1, r =>
    let r' := r + 2 ^ k
    isqrtGo n k (if r' * r' ≤ n then r' else r)

/-- Floor of the square root. -/
def isqrt (n : Nat) : Nat := isqrtGo n (Nat.log2 n / 2 + 1) 0

end Sys2Proof.Machine
end

