-- ==== Sys2Proof/Machine/Fp.lean ====
section
/-! DEFINITION. Number formats and arithmetic (R124, R130, R135, R158, R168, R169, R179, R441): values as exact dyadic
numbers, rounded once into a format; Philox4x32-10 (R177). -/

namespace Sys2Proof.Machine

/-- A value: NaN, infinity, or (-1)^neg · m · 2^e exactly. Zero keeps its sign. -/
inductive Fv where
  | nan
  | inf (neg : Bool)
  | fin (neg : Bool) (m : Nat) (e : Int)
  deriving DecidableEq, Repr

def Fv.zero : Fv := .fin false 0 0
def Fv.one : Fv := .fin false 1 0

def Fv.isNan : Fv → Bool
  | .nan => true
  | _ => false

def Fv.isInf : Fv → Bool
  | .inf _ => true
  | _ => false

def Fv.isZero : Fv → Bool
  | .fin _ m _ => m == 0
  | _ => false

def Fv.finite : Fv → Bool
  | .fin _ _ _ => true
  | _ => false

def Fv.negative : Fv → Bool
  | .nan => false
  | .inf n => n
  | .fin n _ _ => n

def Fv.neg : Fv → Fv
  | .nan => .nan
  | .inf n => .inf (!n)
  | .fin n m e => .fin (!n) m e

def Fv.abs : Fv → Fv
  | .nan => .nan
  | .inf _ => .inf false
  | .fin _ m e => .fin false m e

/-- Times 2^k, exactly. -/
def Fv.scale (v : Fv) (k : Int) : Fv :=
  match v with
  | .fin n m e => .fin n m (e + k)
  | w => w

/-- floor(log2 |v|) of m · 2^e, m not 0. -/
def elog2 (m : Nat) (e : Int) : Int := (Nat.log2 m : Int) + e

/-- m · 2^(e − u) when that is whole, else its floor. -/
def shiftTo (m : Nat) (e u : Int) : Nat :=
  if u ≤ e then m * 2 ^ (e - u).toNat else m / 2 ^ (u - e).toNat

/-- Signed value in units of 2^u, u at or below e. -/
def signedAt (n : Bool) (m : Nat) (e u : Int) : Int :=
  let k : Int := (m * 2 ^ (e - u).toNat : Nat)
  if n then -k else k

/-- Exact sum; an exact zero of unlike signs is +0 (R130). -/
def Fv.add : Fv → Fv → Fv
  | .nan, _ => .nan
  | _, .nan => .nan
  | .inf a, .inf b => if a = b then .inf a else .nan
  | .inf a, _ => .inf a
  | _, .inf b => .inf b
  | .fin a m e, .fin b k g =>
    if m = 0 ∧ k = 0 then .fin (a && b) 0 0
    else
      let u := min e g
      let t := signedAt a m e u + signedAt b k g u
      if t = 0 then .fin false 0 0 else .fin (decide (t < 0)) t.natAbs u

/-- Exact product (Table 04-2). -/
def Fv.mul : Fv → Fv → Fv
  | .nan, _ => .nan
  | _, .nan => .nan
  | .inf a, .inf b => .inf (a != b)
  | .inf a, .fin b k _ => if k = 0 then .nan else .inf (a != b)
  | .fin a m _, .inf b => if m = 0 then .nan else .inf (a != b)
  | .fin a m e, .fin b k g => .fin (a != b) (m * k) (e + g)

def Fv.sub (a b : Fv) : Fv := Fv.add a (Fv.neg b)

/-- Order of two values that are not NaN: a < b. -/
def Fv.lt : Fv → Fv → Bool
  | .nan, _ => false
  | _, .nan => false
  | .inf a, .inf b => a && !b
  | .inf a, _ => a
  | _, .inf b => !b
  | .fin a m e, .fin b k g =>
    let u := min e g
    decide (signedAt a m e u < signedAt b k g u)

/-- The quotient with at least 128 significant bits and a sticky bit: enough to round once to any format (R168). -/
def Fv.quot : Fv → Fv → Fv
  | .nan, _ => .nan
  | _, .nan => .nan
  | .inf _, .inf _ => .nan
  | .inf a, .fin b _ _ => .inf (a != b)
  | .fin a _ _, .inf b => .fin (a != b) 0 0
  | .fin a m e, .fin b k g =>
    if k = 0 then (if m = 0 then .nan else .inf (a != b))
    else
      let s := 128 + Nat.log2 k
      let q := m * 2 ^ s / k
      .fin (a != b) (2 * q + b2n (m * 2 ^ s % k != 0)) (e - g - (s : Int) - 1)

/-- The square root of a value that is not negative, with a sticky bit (R168). -/
def Fv.root : Fv → Fv
  | .nan => .nan
  | .inf n => if n then .nan else .inf false
  | .fin n m e =>
    if m = 0 then .fin n 0 0
    else if n then .nan
    else
      let odd : Nat := if e % 2 = 0 then 0 else 1
      let x := m * 2 ^ (128 + odd)
      let r := isqrt x
      .fin false (2 * r + b2n (r * r != x)) ((e - (odd : Int) - 128) / 2 - 1)

/-! ### Rounding -/

/-- How a conversion rounds: to nearest-even, stochastically with 16 random bits, toward zero (R165, R179). -/
inductive Rnd where
  | rne
  | stoch (r : Nat)
  | rtz
  deriving DecidableEq, Repr

/-- A positive magnitude m · 2^e on the grid of spacing 2^u. -/
def roundAt (md : Rnd) (m : Nat) (e u : Int) : Nat :=
  if u ≤ e then
    match md with
    | .stoch r => (m * 2 ^ (e - u).toNat * 65536 + r) / 65536
    | _ => m * 2 ^ (e - u).toNat
  else
    let d := 2 ^ (u - e).toNat
    let q := m / d
    let r := m % d
    match md with
    | .rtz => q
    | .stoch x => (m * 65536 / d + x) / 65536
    | .rne => if 2 * r > d ∨ (2 * r = d ∧ q % 2 = 1) then q + 1 else q

/-- A floating-point format: exponent and significand bits, bias, whether the top exponent holds infinity and NaN, the bits of
its largest finite value, its NaN, and whether a finite overflow and an infinity saturate (Tables 04-1, 04-6, 05-2). -/
structure FpFmt where
  eb : Nat
  mb : Nat
  bias : Int
  ieee : Bool
  maxBits : Nat
  nanBits : Nat
  satFin : Bool
  satInf : Bool
  deriving DecidableEq, Repr

def fpBF16 : FpFmt := ⟨8, 7, 127, true, 0x7F7F, 0x7FC0, false, false⟩
def fpFP16 : FpFmt := ⟨5, 10, 15, true, 0x7BFF, 0x7E00, true, false⟩
def fpE4M3 : FpFmt := ⟨4, 3, 7, false, 0x7E, 0x7F, true, true⟩
def fpE5M2 : FpFmt := ⟨5, 2, 15, true, 0x7B, 0x7E, true, false⟩
def fpE2M1 : FpFmt := ⟨2, 1, 1, false, 0x7, 0, true, true⟩
def fpFP32 : FpFmt := ⟨8, 23, 127, true, 0x7F7FFFFF, 0x7FC00000, false, false⟩
def fpBF24 : FpFmt := ⟨8, 15, 127, true, 0x7F7FFF, 0x7FC000, false, false⟩
/-- FP64: the manual gives it no canonical NaN, so sign and payload are free (log 9). -/
def fpFP64 : FpFmt := ⟨11, 52, 1023, true, 0x7FEFFFFFFFFFFFFF,
  0x7FF8000000000000 + Config.nanPayload.toNat / 2 % 2 ^ 51 + Config.nanPayload.toNat % 2 * 2 ^ 63, false, false⟩

/-- Read a value of a format. -/
def FpFmt.decode (f : FpFmt) (x : Nat) : Fv :=
  let n := bit x (f.eb + f.mb)
  let e := bits x (f.eb + f.mb - 1) f.mb
  let m := x % 2 ^ f.mb
  if f.ieee ∧ e = 2 ^ f.eb - 1 then (if m = 0 then .inf n else .nan)
  else if f.nanBits = 0x7F ∧ e = 15 ∧ m = 7 then .nan
  else if e = 0 then .fin n m (1 - f.bias - f.mb)
  else .fin n (2 ^ f.mb + m) ((e : Int) - f.bias - f.mb)

/-- Flag bits of Tables 04-7 and 05-7. -/
def flNanOut : Nat := 1
def flInfOut : Nat := 2
def flOvf : Nat := 4
def flUnf : Nat := 8
def flRecomp : Nat := 16
def flBuddy : Nat := 32
def flSkip : Nat := 64
def flIwrap : Nat := 128
def flCad : Nat := 256
def flNanIn : Nat := 512
def flInfIn : Nat := 1024
def flDivz : Nat := 2048
def flDomain : Nat := 4096
def flHsat : Nat := 8192
def flEmpty : Nat := 16384

/-- Exponent and significand fields of the magnitude q · 2^u, q not 0. -/
def FpFmt.fields (f : FpFmt) (q : Nat) (u : Int) : Nat :=
  let emin := 1 - f.bias
  let l := elog2 q u
  if l < emin then shiftTo q u (emin - f.mb)
  else (l + f.bias).toNat * 2 ^ f.mb + (shiftTo q u (l - f.mb) - 2 ^ f.mb)

/-- Convert a value into a format with one rounding, and the flags it sets (R135, Table 04-6, R169, R179). -/
def FpFmt.conv (f : FpFmt) (md : Rnd) (v : Fv) : Nat × Nat :=
  let sgn (n : Bool) : Nat := b2n n * 2 ^ (f.eb + f.mb)
  let inf : Nat := (2 ^ f.eb - 1) * 2 ^ f.mb
  match v with
  | .nan => (f.nanBits, flNanOut)
  | .inf n => if f.satInf then (sgn n + f.maxBits, flOvf) else (sgn n + inf, flInfOut)
  | .fin n m e =>
    if m = 0 then (sgn n, 0)
    else
      let emin := 1 - f.bias
      let u := max (elog2 m e) emin - f.mb
      let q := roundAt md m e u
      if q = 0 then (sgn n, flUnf)
      else
        let b := f.fields q u
        if b > f.maxBits then
          (if f.satFin then (sgn n + f.maxBits, flOvf) else (sgn n + inf, flInfOut + flOvf))
        else (sgn n + b, 0)

/-- Round to FP32, to nearest-even (rn32 of R129). -/
def rn32 (v : Fv) : Fv := fpFP32.decode (fpFP32.conv .rne v).1

/-- Round to FP64, to nearest-even. -/
def rn64 (v : Fv) : Fv := fpFP64.decode (fpFP64.conv .rne v).1

def f32Of (x : Nat) : Fv := fpFP32.decode x
def f32Bits (v : Fv) : Nat := (fpFP32.conv .rne v).1
def f64Of (x : Nat) : Fv := fpFP64.decode x
def f64Bits (v : Fv) : Nat := (fpFP64.conv .rne v).1

def add32 (a b : Fv) : Fv := rn32 (Fv.add a b)
def mul32 (a b : Fv) : Fv := rn32 (Fv.mul a b)
def fma32 (a b c : Fv) : Fv := rn32 (Fv.add (Fv.mul a b) c)
def div32 (a b : Fv) : Fv := rn32 (Fv.quot a b)
def sqrt32 (a : Fv) : Fv := rn32 (Fv.root a)
def add64 (a b : Fv) : Fv := rn64 (Fv.add a b)

/-- MIN and MAX return NaN if either input is NaN (R164); which of two zeros of unlike sign is open (log 9). -/
def Fv.minN (a b : Fv) : Fv :=
  if a.isNan || b.isNan then .nan
  else if a.isZero && b.isZero && a.negative != b.negative then .fin (Config.zeroTie false a.negative) 0 0
  else if Fv.lt b a then b else a
def Fv.maxN (a b : Fv) : Fv :=
  if a.isNan || b.isNan then .nan
  else if a.isZero && b.isZero && a.negative != b.negative then .fin (Config.zeroTie true a.negative) 0 0
  else if Fv.lt a b then b else a

/-- A whole number as a value. -/
def Fv.ofInt (x : Int) : Fv := .fin (decide (x < 0)) x.natAbs 0

/-- Round a value to a whole number (R173, R179: u = 1); NaN gives 0, and infinities are left to the caller. -/
def Fv.toInt (md : Rnd) : Fv → Int
  | .fin n m e =>
    let q : Int := (if m = 0 then 0 else roundAt md m e 0 : Nat)
    if n then -q else q
  | _ => 0

/-- Convert a value into an integer format of range [lo, hi] (Table 05-6, R169). -/
def intConv (lo hi : Int) (md : Rnd) (v : Fv) : Int × Nat :=
  match v with
  | .nan => (0, flDomain)
  | .inf n => (if n then lo else hi, flOvf)
  | .fin _ m _ =>
    let q := Fv.toInt md v
    let c := clampInt q lo hi
    (c, (if c = q then 0 else flOvf) + (if q = 0 ∧ m ≠ 0 then flUnf else 0))

/-- Convert into E8M0 (R441, Table 05-17). -/
def e8m0Conv (v : Fv) : Nat × Nat :=
  match v with
  | .nan => (0xFF, flNanIn ||| flNanOut)
  | .inf n => if n then (0xFF, flDomain ||| flNanOut) else (0xFE, flOvf)
  | .fin n m e =>
    if m = 0 then (0, 0)
    else if n then (0xFF, flDomain ||| flNanOut)
    else
      let x := elog2 m e
      if 128 ≤ x then (0xFE, flOvf) else if x < -127 then (0, flUnf) else ((x + 127).toNat, 0)

/-- E8M0 as a value (Table 04-1). -/
def e8m0Of (x : Nat) : Fv := if x % 256 = 255 then .nan else .fin false 1 (((x % 256 : Nat) : Int) - 127)

/-! ### Philox4x32-10 (R177) -/

/-- One round. -/
def philoxRound (c : BitVec 32 × BitVec 32 × BitVec 32 × BitVec 32) (k : BitVec 32 × BitVec 32) :
    BitVec 32 × BitVec 32 × BitVec 32 × BitVec 32 :=
  let p0 : BitVec 64 := c.1.setWidth 64 * 0xD2511F53#64
  let p1 : BitVec 64 := c.2.2.1.setWidth 64 * 0xCD9E8D57#64
  ((p1 >>> 32).setWidth 32 ^^^ c.2.1 ^^^ k.1, p1.setWidth 32,
   (p0 >>> 32).setWidth 32 ^^^ c.2.2.2 ^^^ k.2, p0.setWidth 32)

/-- Rounds with the key bumped between them. -/
def philoxRounds : Nat → BitVec 32 × BitVec 32 × BitVec 32 × BitVec 32 → BitVec 32 × BitVec 32 →
    BitVec 32 × BitVec 32 × BitVec 32 × BitVec 32
  | 0, c, _ => c
  | n + 1, c, k => philoxRounds n (philoxRound c k) (k.1 + 0x9E3779B9#32, k.2 + 0xBB67AE85#32)

/-- philox_in of R177. -/
def philoxIn (seed step layer core idx : Nat) : BitVec 32 × BitVec 32 × BitVec 32 × BitVec 32 :=
  philoxRounds 10
    (BitVec.ofNat 32 idx, BitVec.ofNat 32 (bits idx 39 32 + core * 256),
     BitVec.ofNat 32 (layer % 65536 + bits step 15 0 * 65536), BitVec.ofNat 32 (bits step 47 16))
    (BitVec.ofNat 32 seed, BitVec.ofNat 32 (bits seed 63 32))

end Sys2Proof.Machine
end

