-- ==== Sys2Proof/Machine/Crypto.lean ====
section
/-! DEFINITION. Keys and codes of the module: the KDF of R293, R311 and R402, the protection of an LPDDR block (R219 to R224) with its
Reed–Solomon code over GF(2⁸), and the protection of a flit (R292, R295). The published functions themselves are uninterpreted (log 10). -/

namespace Sys2Proof.Machine

/-- `n` bytes of a number, most significant first. -/
def beBytes (n v : Nat) : List Byte := (leBytes n v).reverse

/-- The ASCII bytes of a label. -/
def ascii (t : String) : List Byte := t.toList.map (fun c => BitVec.ofNat 8 c.toNat)

/-- Counter-mode KDF of NIST SP 800-108r1 with HMAC-SHA-384, its first `n` bytes: block i is the PRF of i ‖ label ‖ 0x00 ‖ context ‖ 8n, with i
and 8n as 32 bits, most significant first (log 27). -/
def kdf (key label ctx : List Byte) (n : Nat) : List Byte :=
  ((List.range ((n + 47) / 48)).flatMap (fun i =>
    beBytes 48 (Config.hmac384 key (beBytes 4 (i + 1) ++ label ++ [0] ++ ctx ++ beBytes 4 (8 * n))).toNat)).take n

/-- Link key of the direction from X to Y (R293). -/
def linkKey (serX serY : BitVec 128) (linkX linkY : Nat) (epoch : BitVec 32) : BitVec 256 :=
  BitVec.ofNat 256 (ofLe (kdf (leBytes 32 Config.fleetRoot.toNat) (ascii "SZ2-LINK")
    (leBytes 16 serX.toNat ++ leBytes 16 serY.toNat ++ leBytes 1 linkX ++ leBytes 1 linkY ++ leBytes 4 epoch.toNat) 32))

/-- Checkpoint keys K1, K2 (the first 512 bits) and K3 (R311). -/
def ckptKeys (secret : BitVec 256) (m : BitVec 14) (keyId : BitVec 32) : BitVec 768 :=
  BitVec.ofNat 768 (ofLe (kdf (leBytes 32 secret.toNat) (ascii "SZ2-CKPT") (leBytes 2 m.toNat ++ leBytes 4 keyId.toNat) 96))

/-- The identity keys, the same at every boot (R402): the Ed25519 private key, and the seed ξ of the ML-DSA-65 key pair. -/
def idEd : BitVec 256 := BitVec.ofNat 256 (ofLe (kdf (leBytes 32 Config.idSeed.toNat) (ascii "SZ2-ID") (ascii "ED") 32))
def idMldsa : BitVec 256 := BitVec.ofNat 256 (ofLe (kdf (leBytes 32 Config.idSeed.toNat) (ascii "SZ2-ID") (ascii "MLDSA") 32))

/-- Memory keys K1, K2, K3 of a partition's epoch (Table 14-2). -/
def memKeys (nonce : BitVec 256) (part : Nat) (epoch : BitVec 8) (gen : Nat) : BitVec 768 :=
  BitVec.ofNat 768 (ofLe (kdf (leBytes 32 Config.memRoot.toNat) (ascii "SZ2-MEM")
    (leBytes 32 nonce.toNat ++ leBytes 1 part ++ leBytes 1 epoch.toNat ++ leBytes 4 gen) 96))

/-! ### An LPDDR block as it is stored (R219, R223, R224) -/

/-- Tweak of a block (R223): its address in [47:0], the epoch in [55:48]. -/
def lpTweak (a : Nat) (epoch : BitVec 8) : Nat := a / 512 * 512 + fieldAt epoch.toNat 48

/-- Ciphertext of a block's 512 bytes (R223). -/
def lpCipher (keys : BitVec 768) (a : Nat) (epoch : BitVec 8) (plain : List Byte) : List Byte :=
  Config.xts (keys.setWidth 512) (lpTweak a epoch) plain

/-- MAC of a block: the leftmost 64 bits of the CMAC of ciphertext, address, epoch and 7 zero bytes (R224). -/
def lpMac (keys : BitVec 768) (a : Nat) (epoch : BitVec 8) (cipher : List Byte) : BitVec 64 :=
  (Config.cmac (keys.extractLsb' 512 256) (cipher ++ leBytes 8 (a / 512 * 512) ++ leBytes 1 epoch.toNat ++ List.replicate 7 0)).extractLsb' 64 64

/-! ### GF(2⁸) and RS(136,132) (R220) -/

/-- Times x in GF(2⁸), with field polynomial x⁸ + x⁴ + x³ + x² + 1. -/
def gfX (a : Nat) : Nat := if 128 ≤ a then (2 * a) % 256 ^^^ 0x1D else 2 * a

/-- Product in GF(2⁸), over the low `n` bits of the second factor. -/
def gfMulN : Nat → Nat → Nat → Nat
  | 0, _, _ => 0
  | n + 1, a, b => (if b % 2 = 1 then a else 0) ^^^ gfMulN n (gfX a) (b / 2)

def gfMul (a b : Nat) : Nat := gfMulN 8 a b

/-- Power in GF(2⁸). -/
def gfPow (a : Nat) : Nat → Nat
  | 0 => 1
  | n + 1 => gfMul a (gfPow a n)

/-- αⁿ. -/
def gfExp (n : Nat) : Nat := gfPow 2 (n % 255)

/-- Inverse of a non-zero element. -/
def gfInv (a : Nat) : Nat := gfPow a 254

/-- Syndrome r of a word of (position, byte), position 0 being the coefficient of x¹³⁵ (log 27): its value at αʳ. -/
def syndrome (r : Nat) (w : List (Nat × Nat)) : Nat := w.foldl (fun t e => t ^^^ gfMul e.2 (gfExp (r * (135 - e.1)))) 0

/-- Decode a word that is all zero but for its errors: the errors the decoder removes, at most two; none where it finds no such pattern. -/
def rsDecode (w : List (Nat × Nat)) : Option (List (Nat × Nat)) :=
  let s0 := syndrome 0 w
  let s1 := syndrome 1 w
  let s2 := syndrome 2 w
  let s3 := syndrome 3 w
  if s0 = 0 ∧ s1 = 0 ∧ s2 = 0 ∧ s3 = 0 then some []
  else
    let x (p : Nat) : Nat := gfExp (135 - p)
    match (List.range 136).find? (fun p => gfMul s0 (x p) == s1 && gfMul s1 (x p) == s2 && gfMul s2 (x p) == s3) with
    | some p => some [(p, s0)]
    | none =>
      let det := gfMul s1 s1 ^^^ gfMul s0 s2
      if det = 0 then none
      else
        let a1 := gfMul (gfMul s0 s3 ^^^ gfMul s1 s2) (gfInv det)
        let a2 := gfMul (gfMul s1 s3 ^^^ gfMul s2 s2) (gfInv det)
        match (List.range 136).filter (fun p => gfMul (x p) (x p) ^^^ gfMul a1 (x p) ^^^ a2 == 0) with
        | [p, q] =>
          let eq := gfMul (s1 ^^^ gfMul s0 (x p)) (gfInv (x p ^^^ x q))
          some [(p, s0 ^^^ eq), (q, eq)]
        | _ => none

/-- Coefficients from x³ down of the generator polynomial, roots α⁰ to α³. -/
def rsGen : List Nat := [0x0F, 0x36, 0x78, 0x40]

/-- Parity of an information word, from x³ down: the remainder of its division by the generator. -/
def rsParity (info : List Nat) : List Nat :=
  info.foldl (fun r d =>
    let t := d ^^^ r.headD 0
    (List.range 4).map (fun i => r.getD (i + 1) 0 ^^^ gfMul t (rsGen.getD i 0))) [0, 0, 0, 0]

/-- Bytes of codeword `k` of 528 information bytes: byte j belongs to codeword j mod 4. -/
def rsInfo (info : List Byte) (k : Nat) : List Nat := (List.range 132).map (fun i => (info.getD (4 * i + k) 0).toNat)

/-- The 16 parity bytes of a block: four for each codeword, codeword k at 4k. -/
def rsBlock (info : List Byte) : List Byte := (List.range 4).flatMap (fun k => (rsParity (rsInfo info k)).map (BitVec.ofNat 8))

/-- Metadata slot of a block (Table 07-4); the tag is an output of AES and keeps the standard's byte order (R5). -/
def metaSlot (keys : BitVec 768) (a : Nat) (epoch : BitVec 8) (cipher : List Byte) : List Byte :=
  let head := beBytes 8 (lpMac keys a epoch cipher).toNat ++ leBytes 1 epoch.toNat ++ List.replicate 7 0
  head ++ rsBlock (cipher ++ head)

/-- Codeword and position of byte `i` of a stored block: 0 to 511 ciphertext, from 512 the slot, its parity from 528. -/
def rsPlace (i : Nat) : Nat × Nat := if i < 528 then (i % 4, i / 4) else ((i - 528) / 4, 132 + (i - 528) % 4)

/-- What decoding finds (R221). -/
inductive RsOut where
  | clean | corrected | failed | wrong
  deriving DecidableEq, Repr

/-- Outcome for a stored block whose bytes differ from what was written by `errs` (byte, difference): a pattern that decodes to another
word is left to the MAC, which then differs. -/
def rsOutcome (errs : List (Nat × Byte)) : RsOut :=
  let word (k : Nat) : List (Nat × Nat) := (errs.filter (fun e => (rsPlace e.1).1 == k)).map (fun e => ((rsPlace e.1).2, e.2.toNat))
  if errs = [] then .clean
  else if (List.range 4).any (fun k => (rsDecode (word k)).isNone) then .failed
  else if (List.range 4).all (fun k => match rsDecode (word k) with
    | some c => c.all (fun e => (word k).contains e) && decide (c.length = (word k).length)
    | none => false) then .corrected
  else .wrong

/-! ### A flit on the wire (R292, R295) -/

/-- Nonce of a scheduled flit: bell, slot, a zero byte (R292). -/
def flitNonce (bell : BitVec 64) (slot : Nat) : List Byte := leBytes 8 bell.toNat ++ leBytes 3 slot ++ [0]

/-- Nonce of an IDENT flit: SEQ, BRINGUP, 0x01 (R295). -/
def identNonce (seq : BitVec 32) (bringup : BitVec 56) : List Byte := leBytes 4 seq.toNat ++ leBytes 7 bringup.toNat ++ [1]

end Sys2Proof.Machine
end

