-- ==== Sys2Proof/Machine/Table.lean ====
section
/-! DEFINITION. Sparse tables in one canonical form: a list of (index, value) pairs, indices strictly rising, no entry equal
to what an unlisted index reads as. Memory, register files, cores, links, counters are all such tables. -/

namespace Sys2Proof.Machine

/-- A table: pairs in strictly rising order of index. -/
abbrev Tab (α : Type) := List (Nat × α)

/-- The listed value at an index, if any. -/
def Tab.find {α : Type} : Tab α → Nat → Option α
  | [], _ => none
  | (j, v) :: r, i => if j = i then some v else Tab.find r i

/-- What the table reads as at an index; `d` gives what an unlisted index reads as. -/
def Tab.get {α : Type} (d : Nat → α) (t : Tab α) (i : Nat) : α := (Tab.find t i).getD (d i)

/-- List a value at its place in the order. -/
def Tab.put {α : Type} : Tab α → Nat → α → Tab α
  | [], i, v => [(i, v)]
  | (j, w) :: r, i, v =>
    if i < j then (i, v) :: (j, w) :: r
    else if j = i then (i, v) :: r
    else (j, w) :: Tab.put r i v

/-- Unlist an index. -/
def Tab.erase {α : Type} (t : Tab α) (i : Nat) : Tab α := t.filter (fun e => e.1 != i)

/-- Write a value, keeping the canonical form: writing what an unlisted index reads as removes the entry. -/
def Tab.set {α : Type} [DecidableEq α] (d : Nat → α) (t : Tab α) (i : Nat) (v : α) : Tab α :=
  if v = d i then Tab.erase t i else Tab.put t i v

/-- Unlist every index of a range [lo, lo + n). -/
def Tab.clearRange {α : Type} (t : Tab α) (lo n : Nat) : Tab α :=
  t.filter (fun e => !(decide (lo ≤ e.1) && decide (e.1 < lo + n)))

/-- Indices strictly rise. -/
def Tab.sorted {α : Type} : Tab α → Bool
  | [] => true
  | (i, _) :: r => r.all (fun e => decide (i < e.1)) && Tab.sorted r

/-- The canonical form. -/
def Tab.wf {α : Type} [DecidableEq α] (d : Nat → α) (t : Tab α) : Bool :=
  Tab.sorted t && t.all (fun e => decide (e.2 ≠ d e.1))

/-- A table of units after a change of each listed one. -/
def Tab.each {α : Type} [DecidableEq α] (d : Nat → α) (t : Tab α) (g : α → α) : Tab α :=
  t.foldl (fun r e => Tab.set d r e.1 (g e.2)) []

end Sys2Proof.Machine
end

