-- ==== Sys2Proof/Machine/State.lean ====
section
/-! DEFINITION. The state of the block: everything the manual gives the module, as plain data, and its reset value.
Field defaults are the reset values of the manual's register tables; where it gives none, the log names the value. -/

namespace Sys2Proof.Machine

/-- Memory: (address, byte) pairs over the 48-bit local addresses (R216), in the canonical form of `Tab`. -/
abbrev Memory := List Host.Cell

/-! ### Counters, blocks of LPDDR -/

/-- An event counter (R360): COUNT and SAT. -/
structure Counter where
  count : BitVec 32 := 0
  sat   : Bool := false
  deriving DecidableEq, Repr

/-- The tag of an LPDDR block (R219, R224): the EPOCH byte it was written under, and which set of keys made its MAC (R401). -/
structure BlockTag where
  epoch : BitVec 8 := 0
  gen   : Nat := 0
  deriving DecidableEq, Repr

/-! ### A Chalk core and its engines -/

/-- States of a core (R83, Table 03-1). -/
inductive CoreMode where
  | noLesson | resting | running | parked | faulted
  deriving DecidableEq, Repr

/-- A hardware loop (R84, R100): passes left, first and last index of the body. -/
structure LoopReg where
  count : BitVec 64
  start : BitVec 14
  last  : BitVec 14
  deriving DecidableEq, Repr

/-- What holds the core's pipeline (R94, R102, R112, R114). -/
inductive Stall where
  | sealing (id : BitVec 8)
  | fence (mask : BitVec 4)
  | tags (mask : BitVec 16)
  | vget (dst : BitVec 5) (tag : BitVec 4)
  | vflg (dst : BitVec 5) (tag : BitVec 4)
  | store (addr : Nat) (data : List Byte)
  deriving DecidableEq, Repr

/-- The Philox key an operation copies at issue (R177). -/
structure RngKey where
  seed  : BitVec 64 := 0
  step  : BitVec 64 := 0
  layer : BitVec 16 := 0
  core  : Nat := 0
  deriving DecidableEq, Repr

/-- Class of an accumulator's chain (R133). -/
inductive ChainCls where
  | classless | fp | int
  deriving DecidableEq, Repr

/-- An entry of an accumulator's recorded chain (R146). -/
inductive ChainEntry where
  | zero
  | load (a : BitVec 512)
  | mma (a b : BitVec 512) (imm : BitVec 32)
  deriving DecidableEq, Repr

/-- An accumulator (R84) with its check state (R120) and its chain (R123). Elements are listed at 64·i + j. -/
structure Acc where
  elems : Tab (BitVec 32) := []
  rowS  : Tab (BitVec 32) := []   -- checksum row, by column
  rowM  : Tab (BitVec 32) := []   -- magnitude row, by column
  colS  : Tab (BitVec 32) := []   -- checksum column, by row
  colM  : Tab (BitVec 32) := []   -- magnitude column, by row
  cls   : ChainCls := .classless
  cf8   : Nat := 0                -- largest c_f of its MMAs, times 8 (Table 04-9)
  depth : Nat := 0                -- D of R142
  chain : List ChainEntry := [.zero]
  deriving DecidableEq, Repr

/-- What an array operation does (R105). -/
inductive ArrKind where
  | mma (acc : BitVec 3) (a b : BitVec 512) (imm : BitVec 32)
  | mxz (acc : BitVec 3)
  | mxld (acc : BitVec 3) (a : BitVec 512)
  | mxst (acc : BitVec 3) (d : BitVec 512) (imm : BitVec 32)
  deriving DecidableEq, Repr

/-- An array operation in the queue or running (R94, R95). -/
structure ArrOp where
  kind    : ArrKind
  tag     : BitVec 4
  pc      : BitVec 14
  op      : BitVec 8
  key     : RngKey := {}
  started : Bool := false
  deriving DecidableEq, Repr

/-- Stage of the MXST on the accumulator port (R143, Table 04-10). -/
inductive MxStage where
  | checking | failedFirst | recomputing | failedSecond | buddyAsked | buddyPassed | writing
  deriving DecidableEq, Repr

/-- The MXST on the accumulator port and what its check has found. -/
structure Mxst where
  acc   : BitVec 3
  d     : BitVec 512
  imm   : BitVec 32
  tag   : BitVec 4
  pc    : BitVec 14
  key   : RngKey := {}
  stage : MxStage := .checking
  mismatch   : Bool := false
  axisRow    : Bool := false
  index      : BitVec 6 := 0
  ratio      : BitVec 32 := 0
  skip       : Bool := false
  iwrap      : Bool := false
  recomp     : Bool := false
  buddy      : Bool := false
  unresolved : Bool := false
  buddyFail  : Bool := false
  deriving DecidableEq, Repr

/-- A buddy service on the serving core (R145). -/
structure Svc where
  requester : Nat
  started   : Bool := false
  deriving DecidableEq, Repr

/-- What a vector-queue operation is (R106). -/
inductive VecKind where
  | vop (code : BitVec 16)
  | fupd (layer : BitVec 16)
  | crc
  deriving DecidableEq, Repr

/-- A vector-queue operation with the descriptors it copied at issue (R95). -/
structure VecOp where
  kind : VecKind
  d    : BitVec 512 := 0
  a    : BitVec 512 := 0
  b    : BitVec 512 := 0
  c    : BitVec 512 := 0
  mods : BitVec 12 := 0
  tag  : BitVec 4
  pc   : BitVec 14
  op   : BitVec 8
  key  : RngKey := {}
  step : BitVec 64 := 0          -- s3 at issue, for the roll of R200
  deriving DecidableEq, Repr

/-- What a tile DMA operation copies (R103). -/
inductive DmaKind where
  | copy (dst src len : Nat)
  | elements (d a : BitVec 512)
  deriving DecidableEq, Repr

structure DmaOp where
  kind : DmaKind
  tag  : BitVec 4
  pc   : BitVec 14
  op   : BitVec 8
  old  : List (Nat × Nat) := []  -- its reads that count in MC_INFLIGHT_OLD (R231): field, blocks
  deriving DecidableEq, Repr

/-- One logical core (R82, R84) with its array, vector engine and tile DMA, and its MX_ and VX_ registers (R153, R181). -/
structure Core where
  mode  : CoreMode := .noLesson
  pc    : BitVec 14 := 0
  s     : Tab (BitVec 64) := []
  a     : Tab (BitVec 48) := []
  d     : Tab (BitVec 512) := []
  p     : BitVec 8 := 1
  acc   : Tab Acc := []
  lc0   : Option LoopReg := none
  lc1   : Option LoopReg := none
  tags  : Tab (BitVec 8) := []
  tagFlags  : Tab (BitVec 64) := []
  tagScalar : Tab (BitVec 64) := []
  rngLayer  : BitVec 16 := 0
  fault     : BitVec 64 := 0
  faultAddr : BitVec 64 := 0
  seals     : BitVec 256 := 0
  waitFor   : BitVec 32 := 0        -- target of the BELLWAIT or BELLWAITS that parked it (R110), and its opcode
  waitOp    : BitVec 8 := 0
  stall     : Option Stall := none
  arrQ      : List ArrOp := []
  mxst      : Option Mxst := none
  svc       : Option Svc := none
  svcResult : Option (Bool × Tab (BitVec 32)) := none
  vecQ      : List VecOp := []
  vecBusy   : Bool := false
  dmaQ      : List DmaOp := []
  resetting : Bool := false
  cellsEnd  : Nat := 0               -- count of clk at which the operation on the cells is to end (R144)
  lastWg    : Option Bool := none
  codeLen   : Nat := 0
  entries   : List (BitVec 64) := []
  logged    : List (BitVec 16) := []
  oscale    : BitVec 32 := 0x3F800000
  cadence   : Bool := false
  mxFlags   : BitVec 9 := 0
  mxNorm    : BitVec 64 := 0
  abftLast  : BitVec 64 := 0
  vxEps     : BitVec 32 := 0x35800000
  vxNorm    : BitVec 64 := 0
  vxFlags   : BitVec 15 := 0
  deriving DecidableEq, Repr

/-- A core after any reset (R84): s2 holds the logical core number, a0 and a1 the slate and desk bases. -/
def Core.reset (c : Nat) : Core :=
  { s := if BitVec.ofNat 64 c = 0#64 then [] else [(2, BitVec.ofNat 64 c)],
    a := [(0, BitVec.ofNat 48 (0x900000000000 + c * 0x80000)), (1, BitVec.ofNat 48 (0x800000000000 + c * 0x800000))] }

/-! ### A partition's seat: timetable, steps, regions, plan, logs -/

/-- A violation log entry (R353, Table 11-7). -/
structure VEntry where
  bell   : BitVec 64 := 0
  addr   : BitVec 64 := 0
  source : BitVec 8
  code   : BitVec 8
  unitId : BitVec 16
  loc    : BitVec 32 := 0
  peer   : BitVec 16 := 0
  period : BitVec 16 := 0
  again  : BitVec 32 := 0
  deriving DecidableEq, Repr

/-- A numerics log entry (R197, Table 06-4). -/
structure NumEntry where
  step    : BitVec 64
  layer   : BitVec 16
  tensor  : BitVec 16 := 0
  core    : BitVec 16 := 0
  fmt     : BitVec 8 := 0
  kind    : BitVec 8
  amax    : BitVec 32 := 0
  attempt : BitVec 8
  bell    : BitVec 64
  deriving DecidableEq, Repr

/-- States of a satchel slot (R248, Table 08-2). -/
inductive SlotState where
  | free | filling | complete | live | held
  deriving DecidableEq, Repr

/-- A satchel slot: state, header (Table 08-1), the byte ranges arrived, the history block's length and CRC. -/
structure Slot where
  st      : SlotState := .free
  hdr     : Option SatHeader := none
  arrived : List (Nat × Nat) := []
  histLen : Nat := 0
  histCrc : BitVec 32 := 0
  deriving DecidableEq, Repr

/-- A placed Run start (R349). -/
structure StartAt where
  bell     : BitVec 64
  entry    : Nat
  setCount : Bool := false
  deriving DecidableEq, Repr

/-- A placed Run stop (R349): at a bell, or at the next bell that judges a step. -/
inductive StopAt where
  | atBell (b : BitVec 64)
  | nextVerdict
  deriving DecidableEq, Repr

/-- A reduced status word waiting for its bell (R72), with its norm sum (R204, R289). -/
structure RedWord where
  period : BitVec 64
  word   : BitVec 64
  norm   : Option (BitVec 64) := none
  deriving DecidableEq, Repr

/-- What the holder has decided about one unit of its partner (R259, R265). -/
structure UnitRes where
  outcome  : BitVec 3 := 0            -- Table 08-4; 0 while undecided
  ownerCrc : Option (BitVec 32) := none
  failed   : Bool := false            -- its first comparison failed
  asked    : Bool := false            -- an owner recompute was asked for
  second   : List Byte := []          -- result of the second run, kept for the vote
  again    : Bool := false            -- the owner's unit failed its CRC once (R264)
  unacked  : Bool := false            -- a push to the owner waits for its acknowledgement
  deriving DecidableEq, Repr

/-- A message of the Librarian to the partner's (R252, R253, R258 to R266); the manual lays down no bytes for it (log 14). -/
inductive XMsg where
  | crc (core record : Nat) (c : BitVec 32)
  | ask (core record : Nat) (tray : List Byte)
  | reply (core record : Nat) (c : Option (BitVec 32))
  | summary (sm : Summary)
  | ack (core record : Nat) (own ok : Bool)
  | unit (core record : Nat) (c : BitVec 32)
  | fillAsk (first last : Nat) (digest : BitVec 384) (stepping : BitVec 8)
  | fillNo
  | named (partner own : BitVec 14)
  deriving DecidableEq, Repr

/-- A transfer of units into this seat (R253, R264, R270). -/
inductive XferKind where
  | fill | pullShard | pullSatchel | pullMirror | pullSatchelCopy | clipPush
  deriving DecidableEq, Repr

structure Xfer where
  kind   : XferKind
  step   : BitVec 64
  req    : Option Req := none
  failed : List (Nat × Nat) := []     -- units that have failed their CRC once
  due    : List (Nat × Nat) := []     -- units, or satchel slots, that have not landed
  deriving DecidableEq, Repr

/-- An open read (R350). -/
structure OpenRead where
  id        : Nat
  sess      : BitVec 32
  immediate : Bool := false
  mirror    : Bool := false
  history   : Bool := false
  step      : BitVec 64
  restarts  : Nat := 0
  told      : Nat := 0                -- restarts already answered RESTARTED
  deriving DecidableEq, Repr

/-- A basic OPEN that waits (R274). `step` is set by the verdict it waits for. -/
structure WaitOpen where
  req  : Req
  step : Option (BitVec 64) := none
  history : Bool := false
  deriving DecidableEq, Repr

/-- A PIECE that waits (R275, R276): for an apply to end, or a unit to land. -/
structure WaitPiece where
  req : Req
  id  : Nat
  off : Nat
  len : Nat
  deriving DecidableEq, Repr

/-- What arms a checkpoint (R316). -/
inductive Arm where
  | bell (n : BitVec 64)
  | step (s : BitVec 64)
  deriving DecidableEq, Repr

/-- Checkpoint state of a seat (R330; LB_CKPT_ registers) and what a running operation still has to do. -/
structure Ckpt where
  node      : BitVec 16 := 0
  region    : BitVec 32 := 0
  regionOk  : Bool := false
  genSize   : BitVec 32 := 0
  keyId     : BitVec 32 := 0
  keyOk     : Bool := false
  secret    : BitVec 256 := 0
  keys      : BitVec 768 := 0
  state     : BitVec 4 := 0
  outcome   : BitVec 8 := 0
  gen       : Bool := false
  trigger   : BitVec 2 := 0
  stateA    : BitVec 2 := 0
  stateB    : BitVec 2 := 0
  arms      : List (Arm × Req) := []     -- commands that wait for their commit (R316)
  lastCommit : Option (BitVec 64) := none -- bell of the latest commit verdict
  off       : Bool := false             -- a generation 2 job, which has no checkpoint (R357)
  step      : BitVec 64 := 0
  genA      : BitVec 64 := 0
  genB      : BitVec 64 := 0
  recA      : Option SealRec := none
  recB      : Option SealRec := none
  held      : Bool := false             -- it holds seal records written or scanned (R319)
  done      : Tab Nat := []             -- chunks done, per field
  total     : Tab Nat := []             -- chunks in all, per field
  errs      : Tab Nat := []             -- LB_CKPT_ERR_LAST, per field
  rewrites  : List (Nat × Nat) := []    -- chunks (field, index in its share) that must be written again (R322)
  seed      : BitVec 64 := 0            -- job seed of the step being written (R309)
  leaves    : Tab (BitVec 256) := []    -- leaf of each chunk as written, or as the header names it (R315, R320)
  table     : List Byte := []           -- section table of the data as read (Table 10-3)
  header    : List Byte := []           -- the header as written or read
  keyPlain  : List Byte := []           -- KEYSTATE as restored (R327)
  reqs      : List Req := []             -- commands that the running operation answers
  sealedStep : Option (Bool × BitVec 64) := none  -- generation last sealed or restored from
  next      : Tab Nat := []             -- next chunk to issue, per field
  waitLand  : Bool := false             -- waits for clip pushes to land (R317)
  summary   : Option Summary := none    -- the holder's summary of the step being written (R322)
  deriving DecidableEq, Repr

/-- CM_VERDICT (R277, Table 08-14). -/
structure Verdict where
  commit    : Bool := false
  clip      : Bool := false
  ckpt      : Bool := false
  subst     : Bool := false
  abort     : Bool := false
  nonfinite : Bool := false
  limit     : Bool := false
  cont      : BitVec 2 := 0
  midstep   : Bool := false
  deriving DecidableEq, Repr

/-- TT_BRANCH_SEL (R81, Table 02-18). -/
structure BranchSel where
  sel     : BitVec 2 := 0
  verdict : Bool := false
  indexed : Bool := false
  layer   : BitVec 16 := 0xFFFF
  entry   : BitVec 17 := 0
  aborts  : BitVec 4 := 0
  deriving DecidableEq, Repr

/-- The timetable side of a seat (R46 to R81): registers, walk, status words, accumulators. -/
structure Tt where
  period    : BitVec 18 := 8500
  slots     : BitVec 17 := 6944
  bell      : BitVec 64 := 0
  opened    : BitVec 64 := 0                 -- HM_CLK at the latest bell (R46)
  lag       : BitVec 4 := 2
  sel       : BranchSel := {}
  stepPeriod : BitVec 32 := 0
  entry     : Nat := 0
  hold      : Bool := true
  left      : Nat := 0                       -- periods left from the running template
  stack     : List (Nat × Nat) := []         -- loop frames: (LOOP index, left)
  marginMin : BitVec 7 := 0
  lowest    : BitVec 2 := 0
  abortLimit : BitVec 4 := 2
  syncOffset : BitVec 32 := 0
  syncState : BitVec 2 := 0
  isRoot    : Bool := false
  parent    : BitVec 5 := 0
  outOfTol  : Bool := false
  silent    : Nat := 0                       -- periods without a flit from the parent
  heard     : Bool := false                  -- a flit from the parent in this period
  statusLast : BitVec 64 := 0
  cur       : BitVec 9 := 0                  -- status bits recorded in this period
  curLayer  : BitVec 16 := 0xFFFF
  own       : Tab (BitVec 64) := []          -- own words of closed periods, by period
  combined  : Tab (BitVec 64) := []          -- words combined with the children's, by period
  childGot  : List (Nat × BitVec 64 × BitVec 64 × BitVec 64) := []  -- (link, period, word, norm sum) of children's words
  reduced   : List RedWord := []
  norms     : Tab (BitVec 64) := []          -- own and children's norm sums, by period
  win       : Option (BitVec 64) := none
  accs      : Tab (BitVec 64) := []          -- step accumulators, by attempt
  attempt   : Nat := 0
  periodOf  : Tab Nat := []                  -- attempt of each period not yet folded
  pendingAttempt : Option (Nat × BitVec 64) := none
  normPeriods : List (BitVec 64) := []       -- norm periods whose N² has not taken effect (R204)
  lastPeriod : Bool := false                 -- this is the last period of a step
  inStep    : Bool := false                  -- an attempt has begun and neither reached its final bell nor ended (R76)
  counted   : Bool := false                  -- the seat holds a bell count (R295)
  recent    : List (BitVec 64 × Option Nat × Bool) := []  -- template and HOLD of the latest closed periods, newest first
  recentLive : List (BitVec 64 × BitVec 64 × BitVec 32) := []  -- live step and step period of the latest closed periods, newest first
  judgedAt  : Option (BitVec 64) := none     -- the latest verdict bell
  abortedStep : Option (BitVec 64) := none   -- step of the latest abort: its next attempt is a replay attempt (R39)
  deriving DecidableEq, Repr

/-- The commit and mirror side of a seat (R245 to R277) held once for all its fields. -/
structure Cm where
  committed : BitVec 64 := 0
  live      : BitVec 64 := 0
  partner   : BitVec 14 := 0
  partnerOk : Bool := false
  named     : Bool := false                  -- a partner has been named (R252): the pairing waits until it names this seat
  namedBy   : Option (BitVec 14) := none     -- the seat that has named this one
  roll      : BitVec 64 := 0
  verdict   : Verdict := {}
  verdictStep : BitVec 64 := 0
  moduleId  : BitVec 14 := 0
  seatState : BitVec 3 := 0
  epoch     : BitVec 32 := 0
  own       : Tab Slot := []                 -- own slots 0 to 2
  copy      : Tab Slot := []                 -- copy slots 0 to 2
  deadline  : BitVec 32 := 0
  share     : BitVec 4 := 8
  buffer    : Bool := false
  tray      : Tab (Option (BitVec 64)) := [] -- step each tray buffer holds
  units     : Tab UnitRes := []              -- by 65536·core + record
  applyStep : Option (BitVec 64) := none     -- step being applied to the mirror
  applyClip : Bool := false                  -- the apply is a clip correction (R265)
  applyC    : BitVec 32 := 0x3F800000        -- clip factor c of the apply (R205)
  fixLanded : List (Nat × Nat) := []         -- OWNER_FIX units that have landed since the commit
  failedXfer : List (Nat × Nat) := []        -- pushed units that have failed their CRC once (R264)
  resent    : List (Bool × Nat × Nat) := []  -- units sent a second time (R264), the seat's own first
  partnerStep : Option (BitVec 64) := none   -- the partner's committed step (R253)
  partnerFor : BitVec 64 := 0xFFFFFFFFFFFFFFFF -- its CM_MIRROR_FOR, as its latest summary tells it (log 14)
  copyStep  : Option (BitVec 64) := none     -- step whose satchel copy is being delivered (R249, R443)
  trayGot   : Tab (List (Nat × Nat)) := []   -- byte ranges of each tray buffer that have landed in the running attempt
  landing   : Tab (List Byte) := []          -- 256-byte units of unit transfers that wait for their CRC (R264), by 4 · OFFSET + region
  outbox    : List XMsg := []                -- messages sent to the partner's Librarian, newest first
  xfers     : List Xfer := []
  serving   : Bool := false                  -- serves pulls to a substitute
  handReq   : Option Req := none             -- the Handover that waits for its answer (R270)
  handStep  : BitVec 64 := 0                 -- its committed step C
  summary   : Option Summary := none         -- the holder's summary of the committed step
  ownFixDue : List (Nat × Nat) := []         -- OWNER_FIX units that have not landed
  clipDue   : Bool := false                  -- corrected units have still to land (R266)
  clipFactor : BitVec 32 := 0x3F800000       -- c of the running step (R205)
  n2        : BitVec 64 := 0                 -- N² of the running step
  firstStep : Bool := false                  -- first step of a job or after a restore (R40)
  hist      : List (BitVec 64 × Bool) := []  -- latest steps whose slots take the histories of the step before, and whether they are there (R189, R250)
  fixInAttempt : Bool := false
  deriving DecidableEq, Repr

/-- A plan transfer (R347), with the local address at which its bytes are staged. -/
structure Staging where
  plan    : Plan
  len     : Nat
  addr    : Option Nat
  arrived : List (Nat × Nat) := []
  deriving DecidableEq, Repr

/-- A 256-byte unit that waits in the queue of a Librarian channel of a field (R65, R443): its kind of transfer and OFFSET. -/
structure BulkUnit where
  kind  : BulkKind
  field : Nat
  chan  : Nat
  off   : Nat
  data  : List Byte
  base  : Nat := 0                     -- where it was read: `base` + 256 · `off`
  first : Nat := 0                     -- OFFSET of the first block of its unit
  deriving DecidableEq, Repr

/-- A command that was accepted inside a period and takes effect at the next bell (R28). -/
inductive BellCmd where
  | leave
  | retrain (l : Nat)
  | seat (moduleId : BitVec 14) (epoch : BitVec 32) (peers : List PeerSpec)
  | peers (peers : List PeerSpec)
  deriving DecidableEq, Repr

/-- A partition's seat. -/
structure Seat where
  tt      : Tt := {}
  cm      : Cm := {}
  ck      : Ckpt := {}
  plan    : Option Plan := none
  staging : Option Staging := none
  start   : Option StartAt := none
  stop    : Option StopAt := none
  running : Bool := false                    -- a Run is in progress
  reads   : List OpenRead := []
  waits   : List WaitOpen := []
  pieces  : List WaitPiece := []
  nextRead : Nat := 1
  vlog    : List VEntry := []
  numlog  : Tab NumEntry := []               -- ring of 4,096
  numHead : BitVec 12 := 0
  numWrap : Bool := false
  sealedBell : BitVec 64 := 0
  sealMissed : Bool := false                 -- a core-data run of this period missed its seal
  ctxReset   : Bool := false                 -- a context reset waits for the next bell
  ctxHeld    : Bool := false                 -- a context reset holds the seat out of the job (R389)
  wiping     : Bool := false
  rotateAt   : Option (BitVec 64 × BitVec 4) := none
  shardVer   : Option (BitVec 16) := none    -- plan version the committed shard was written under
  noShard    : Bool := false                 -- the shard buffers hold no step: a restore that named none, or a shard half written (R326)
  atBell     : List BellCmd := []            -- commands that take effect at the next bell (R28)
  bulkOut    : List BulkUnit := []           -- bulk units waiting in their Librarian channels' queues (R65)
  lateEntry  : Option Nat := none            -- template that a context reset interrupted: its core-data TX runs carry late markers (R389)
  deriving DecidableEq, Repr

/-! ### A field: memory controller, Librarian, Hall Monitor, dumps -/

/-- Card states (R366, Table 12-4). -/
inductive CardState where
  | probation | good | watch | remedial | substituted | detention
  deriving DecidableEq, Repr

/-- A report card (R364 to R368). Margins are ratios times 10,000. -/
structure Card where
  st     : CardState := .probation
  d      : BitVec 32 := 0
  level  : Nat := 0
  margin : Option Nat := none  -- m of R365
  steps  : List Nat := []      -- remedy steps applied (Tables 12-5, 12-6)
  dirty  : Int := 0            -- `Hm.periods` less the clean periods of this card
  last   : BitVec 32 := 0
  subs   : Nat := 0            -- times substituted
  hit    : Bool := false       -- an event in the running period
  quizzes : Nat := 0           -- quizzes passed while SUBSTITUTED
  meas   : Tab Nat := []       -- latest measurement of each level input
  samples : List (Nat × Nat) := []  -- (input, measurement) taken in probation
  refs   : Tab Nat := []       -- references fixed when probation completed
  deriving DecidableEq, Repr

/-- A hall pass entry (R380, Table 12-14). -/
structure Pass where
  code     : BitVec 4 := 0
  resource : BitVec 32 := 0
  byHost   : Bool := false
  granted  : BitVec 27 := 0
  onLink   : Bool := false     -- of code 7: a link's QUIZ slots in place of a tile
  deriving DecidableEq, Repr

/-- A tile substitution copy (R375). -/
structure TileCopy where
  core  : Nat                  -- core within the field
  old   : Nat
  spare : Nat
  done  : Bool := false
  deriving DecidableEq, Repr

/-- A quiz running on two tiles (R372). -/
structure Quiz where
  tileA : Nat
  tileB : Nat
  third : Option (Nat × BitVec 32 × BitVec 32) := none  -- the third tile, with the CRCs of the first two, once they differ
  deriving DecidableEq, Repr

/-- A dump held in a field's buffer (R392, R396): its header, the units that timed out, whether fetched whole, its bytes. -/
structure Dump where
  id      : Nat
  cause   : BitVec 8
  part    : BitVec 3
  bell    : BitVec 64
  committed : BitVec 64
  live    : BitVec 64
  planVer : BitVec 16
  hung    : List Nat := []
  recipe  : List RecipeEntry := []
  data    : List Byte := []
  fetched : Bool := false
  req     : Option Req := none    -- the COLLECT or RESET that this dump answers
  deriving DecidableEq, Repr

/-- Memory controller of a field (R209 to R232, R243). -/
structure Mc where
  epoch    : BitVec 8 := 0
  old      : BitVec 8 := 0
  oldLive  : Bool := false
  sweeping : Bool := false
  gen      : Option Nat := none        -- key set of the current epoch, if held
  oldGen   : Option Nat := none
  next     : Nat := 0
  rate     : BitVec 4 := 1
  inflight : Nat := 0                  -- reads in flight under a live old epoch (R231)
  used     : BitVec 20 := 0
  borrowed : List Nat := []            -- borrowed cubby pages (local page numbers)
  pending  : List Nat := []            -- pages whose copy waits for the verdict bell
  copying  : List Nat := []            -- pages being copied
  due      : List Nat := []            -- pages that wait for their retirement copy
  stuck    : Bool := false             -- a retirement could not be made (R215)
  corrected : Tab Nat := []            -- corrected reads of each page since the last decay tick
  remapped : List Nat := []
  errAddr  : BitVec 48 := 0
  errKind  : BitVec 3 := 0
  base     : BlockTag := {}            -- tag of every block of the field not listed in `lpTags`
  deriving DecidableEq, Repr

/-- Librarian registers of a field (R244, R277). -/
structure Lb where
  region   : BitVec 48 := 0
  pages    : BitVec 24 := 0
  usable   : BitVec 24 := 0
  ccb      : BitVec 19 := 0
  enable   : Bool := false
  segs     : List CubbySeg := []
  failed   : List Nat := []            -- cores counted as FAILED in this attempt (R244)
  redirect : Bool := false             -- a redirect waits for READY (R239)
  redirectFirst : Bool := false
  resetting : List Nat := []           -- channels under an engine reset (R390)
  turned   : List Nat := []            -- cores whose TURN the Librarian has acted on (R238)
  mirrorFor : BitVec 64 := 0xFFFFFFFFFFFFFFFF
  mState   : BitVec 3 := 0
  verified : Bool := false
  selfChecked : Bool := false
  unresolved : Bool := false
  ownerFix : Bool := false
  late     : Bool := false
  unitsDone : BitVec 32 := 0
  xchk     : BitVec 30 := 0
  deriving DecidableEq, Repr

/-- A record of the module information store: two copies, each with its sequence number and whether its CRC is valid (R429). -/
structure NvRec (α : Type) where
  a    : α
  b    : α
  seqA : Nat := 0
  seqB : Nat := 0
  okA  : Bool := true
  okB  : Bool := true
  deriving DecidableEq, Repr

/-- Hall Monitor of a field (R360 to R381, R444). -/
structure Hm where
  cards    : Tab Card := []            -- by 8192·kind + index
  seating  : Tab Nat := []             -- tile within the field + 1 of each core that has moved; 0 = identity
  passes   : Tab Pass := []
  waiting  : List Pass := []
  lastBusy : BitVec 4 := 0
  comb     : Bool := true              -- the spare comb is unused
  phases   : Nat := 2
  workingPhases : Nat := 22
  rows     : List (Nat × Nat) := []    -- desk rows moved to a spare row: (bank, row)
  rowsDue  : List (Nat × Nat) := []    -- rows that wait for their boundary
  periods  : Nat := 0                  -- bells seen: the clean periods of an untouched card
  reqCkpt  : Bool := false
  reqSubst : Bool := false
  reason   : BitVec 4 := 0
  reqKind  : BitVec 4 := 0
  reqIndex : BitVec 13 := 0
  satAddr  : BitVec 48 := 0
  copies   : List TileCopy := []
  quiz     : Option Quiz := none
  quizAsked : Option Quiz := none      -- a quiz that waits for its passes (R377, R379)
  measuring : List (Nat × Nat) := []   -- (kind 5 group / 6 tile, index) under measurement
  phaseDue : List Nat := []            -- faulted phases that wait for their boundary
  relaxDue : List Nat := []            -- cards that lose a remedy step at their boundary (R370)
  stored   : Tab (NvRec Card) := []    -- cards as written to the information store, in two copies (R368, R429)
  storedPeriods : Nat := 0
  raisedOnce : List (Nat × Nat × Nat) := []  -- conditions of Table 12-7 already raised: row, kind and index of the card (log 27)
  dumps    : List Dump := []
  lastDump : Nat := 0
  collecting : Option Dump := none
  deriving DecidableEq, Repr

/-- A field (R21). -/
structure Field where
  mc : Mc := {}
  lb : Lb := {}
  hm : Hm := {}
  lateSeen : Bool := false             -- LATE recorded by this field in the running period
  deriving DecidableEq, Repr

/-! ### A link -/

/-- States of a link (R296, Table 09-4). -/
inductive LinkState where
  | off | dark | signal | aligned | ident | ranging | locked | absent | wipe | failed
  deriving DecidableEq, Repr

/-- A flit kept until it is acknowledged (R58, R287). -/
structure Kept where
  flit    : Flit
  bell    : BitVec 64          -- period of its original transmission
  sentBell : BitVec 64         -- period and slot of its latest transmission
  sentSlot : Nat
  resends : Nat := 0
  queued  : Bool := false
  deriving DecidableEq, Repr

/-- A flit accepted, or expected and not yet accepted, before its delivery bell (R55, R288). -/
structure Arrival where
  period  : BitVec 64          -- its original transmission
  slot    : Nat
  deliver : BitVec 64          -- the bell from which it is readable
  pool    : Option Nat := none -- Librarian channel of a pool slot: its loss fails an operation and sets no TAINT (R288)
  got     : Bool := false
  deriving DecidableEq, Repr

/-- An open pool operation (R302). -/
structure PoolOp where
  tag    : BitVec 7
  op     : BitVec 8
  addr   : Nat
  len    : Nat
  field  : Nat
  chunk  : Option Nat := none
  chan   : Nat := 0            -- Librarian channel that carries it (R302)
  record : Option SealRec := none
  bytes  : List Byte := []     -- what a WRITE carries
  sent   : Bool := false
  data   : Nat := 0            -- data flits sent
  got    : Tab (List Byte) := []   -- 256-byte units received, by OFFSET (R304)
  answer : Option Nat := none  -- its OK response has come and names what was delivered
  retries : Nat := 0           -- times reissued (R323)
  deriving DecidableEq, Repr

/-- A pending wavelength swap (R299). -/
structure Swap where
  lane  : Nat
  bell  : BitVec 64
  acked : Bool := false
  fromPeer : Bool := false
  deriving DecidableEq, Repr

/-- Optical readings of one wavelength (R308, Table 09-17). -/
structure WlOpt where
  rx  : BitVec 16 := 0x8000
  tx  : BitVec 16 := 0x8000
  eye : BitVec 12 := 0
  deriving DecidableEq, Repr

/-- A link controller (R278 to R308). -/
structure Link where
  st        : LinkState := .off
  reason    : BitVec 4 := 0
  preset    : Bool := false
  node      : BitVec 16 := 0
  peerLink  : BitVec 5 := 0
  pool      : Bool := false
  confirmed : Bool := false
  nodeOk    : Bool := false
  serial    : BitVec 128 := 0
  resendMax : BitVec 2 := 2
  resendAge : BitVec 2 := 1
  delay     : BitVec 32 := 0
  map       : BitVec 32 := 0x76543210
  spareUsed : Bool := false
  retired   : BitVec 9 := 0
  comb      : Bool := false
  errLast   : BitVec 54 := 0
  opt       : Tab WlOpt := []
  keyEpoch  : Option (BitVec 32) := none   -- link keys held, for this job epoch
  keyTx     : BitVec 256 := 0              -- key of the direction to the peer, and of that from it (R293)
  keyRx     : BitVec 256 := 0
  wantLink  : Nat := 0                     -- the peer's link or port index as the controller gave it
  presets   : List (BitVec 64) := []       -- equaliser presets of the lanes, in the information store (R298)
  bringup   : BitVec 56 := 0
  seq       : BitVec 32 := 0
  realigned : Bool := false
  kept      : List Kept := []
  answer    : Option (BitVec 2 × Nat × Bool × BitVec 4) := none
  arrivals  : List Arrival := []
  swap      : Option Swap := none
  lctl      : List Flit := []
  ops       : List PoolOp := []
  sent      : Option Flit := none
  wire      : List Byte := []              -- the 288 bytes of the latest slot as they leave the module (R282, R292)
  pulled    : List Nat := []               -- start slots of this period's runs whose seal was in time
  lateRuns  : List Nat := []               -- start slots of this period's runs sending late markers
  ended     : List Nat := []               -- start slots of this period's runs whose last flit has been pulled (R58)
  resetting : Bool := false
  combDark  : Bool := false                -- dark since its cartridge was unlatched (R438)
  ranged    : Bool := false                -- an echo has measured the round trip in RANGING
  echoDue   : Option (BitVec 32) := none   -- SEQ of the latest IDENT flit received, to be answered
  absent    : Bool := false                -- this end sends the absent pattern (R284)
  ceNow     : Tab Nat := []                -- symbols corrected on each wavelength in this period (Table 12-3)
  ceQuiz    : Tab Nat := []                -- those of them in QUIZ slots (R372)
  quizSeen  : Bool := false                -- QUIZ flits have come in this period, and none of them was lost (R288)
  quizVoid  : Bool := false
  quizBad   : Bool := false                -- a QUIZ flit of this period carried another pattern than its slot's (R372)
  deriving DecidableEq, Repr

/-! ### Host port, Proctor, power, sideband -/

/-- The command's own part of a response (R336). -/
inductive Body where
  | empty
  | words (w : List (BitVec 64))
  | bytes (b : List Byte)
  | vlog (e : List VEntry)
  | numlog (e : List NumEntry)
  | seals (a b : Option SealRec)
  | report (bytes : List Byte) (sig : BitVec 512)
  | piece (step : BitVec 64) (selfChecked : Bool) (data : List Byte)
  deriving DecidableEq, Repr

/-- A response (R334, R336, R352). -/
structure Resp where
  sess      : BitVec 32
  seq       : BitVec 64
  part      : BitVec 3
  status    : BitVec 16
  detail    : BitVec 64 := 0
  committed : BitVec 64 := 0
  replay    : Bool := false
  body      : Body := .empty
  cls       : BitVec 8 := 0
  cmd       : BitVec 8 := 0
  vlan      : Option (BitVec 16) := none      -- tag of the request (R332)
  dst       : BitVec 144 := 0                 -- its source address and port (R333)
  deriving DecidableEq, Repr

/-- A frame the host port sends. -/
inductive OutFrame where
  | slate (r : Resp)
  | gen2 (sess seq : BitVec 32) (status : BitVec 8) (body : Body)
  | attest (sess : BitVec 32) (report : List Byte) (sig : BitVec 512) (certs : Bool)
  | echo (v6 : Bool) (data : List Byte)
  | advert (target : BitVec 128) (mac : BitVec 48)
  | arp (ip : BitVec 32) (mac : BitVec 48)
  | bootSolicit (serial : BitVec 128) (minSvn : Nat)
  | bootRead (manifest : Bool) (off len : Nat)
  | dhcp (mac : BitVec 48)
  deriving DecidableEq, Repr

/-- A session (R341, R342). -/
structure Session where
  id    : BitVec 32
  owner : Bool
  part  : BitVec 3            -- the partition it is bound to; 7 = none
  bound : Bool
  gen2  : Bool := false
  small : Bool := false
  keys  : BitVec 512 := 0
  h     : BitVec 64 := 0
  seen  : List (BitVec 64) := []
  busy  : List (BitVec 64) := []
  kept  : List Resp := []
  done  : List (BitVec 64 × BitVec 16) := []  -- status of each answered request in the window (R342)
  deriving DecidableEq, Repr

/-- A handshake in progress (R338). -/
structure Handshake where
  id    : BitVec 32
  owner : Bool
  part  : BitVec 3
  small : Bool
  keys  : BitVec 512
  deriving DecidableEq, Repr

/-- A grant of a partition to a tenant (R340). -/
structure Grant where
  part    : BitVec 3
  keyHash : BitVec 384
  number  : BitVec 32
  deriving DecidableEq, Repr

/-- The host port and the sessions (R331 to R359). -/
structure HostPort where
  mode     : BitVec 2 := 0
  up       : Bool := false
  tryDr8   : Bool := true
  vlan     : BitVec 12 := 0
  gen2En   : Bool := false
  mac      : BitVec 48 := 0
  ipv4     : Option (BitVec 32) := none
  prefixes : List (BitVec 64) := []
  layout   : BitVec 12 := 0xDB6
  sessions : Tab (Option Session) := []       -- slots 0 to 3
  pending  : List Handshake := []
  grants   : List Grant := []
  modVlog  : List VEntry := []
  modVdrop : Nat := 0
  sent     : List OutFrame := []              -- newest first
  wire     : List (List Byte) := []           -- UDP payloads of the newest Slate or boot frames, one a frame
  dests    : List (BitVec 144) := []          -- where the newest frame goes: address [127:0], an IPv4 one mapped, and UDP port (R333, R356)
  tag      : Option (BitVec 16) := none       -- 802.1Q tag of the newest frame (R332)
  deriving DecidableEq, Repr

/-- A reset asked for through Slate (R385, R387, R391): it waits for its dump, then acts until it is complete. -/
structure ResetJob where
  rung   : Rung
  part   : BitVec 3
  req    : Req
  dumpId : Option Nat := none         -- its dump, once that is being collected
  dumped : Bool := false              -- its dump has ended: the rung acts, or a chip reset waits for the fetch
  deriving DecidableEq, Repr

/-- Why a wipe runs and what follows it (R413, R418, R422, R423). -/
inductive WipeWhy where
  | request
  | layout (codes : BitVec 12) (req : Req)
  | sealing
  | unlock
  deriving DecidableEq, Repr

/-- A wipe of a partition code, or 7 for the module. -/
structure WipeJob where
  scope   : BitVec 3
  why     : WipeWhy := .request
  started : Bool := false
  deriving DecidableEq, Repr

/-- The Proctor and the boot (R400 to R424), with PR_RESET (R399). -/
structure Proctor where
  stage    : BitVec 3 := 0
  reason   : BitVec 5 := 0
  manifest : Option Manifest := none
  buf      : List Byte := []          -- manifest or image bytes arrived
  romKeys  : BitVec 384 := Config.vendorKeys  -- digest of the vendor firmware keys in the ROM (R405)
  imageLen : Nat := 0
  tries    : Nat := 0
  minSvn   : Nat := 0
  factoryOpened : Bool := false
  secrets  : Bool := true
  rootGens : Nat := 0                 -- generations of memory keys taken from the root before it was disconnected (R422)
  certsOk  : Bool := true
  nonce    : BitVec 256 := Config.freeBits 0   -- drawn at the boot (R401)
  gens     : BitVec 32 := 0           -- generation counter (R401)
  wStage   : BitVec 3 := 0
  wScope   : BitVec 3 := 0
  wPercent : BitVec 7 := 0
  wBoot    : Bool := false
  tokKind  : BitVec 3 := 0
  tokResult : BitVec 4 := 0
  challenge : BitVec 256 := Config.freeBits 1  -- drawn at the boot (R411)
  service  : Bool := false
  serviceLeft : BitVec 17 := 0        -- DURATION of the token that began service mode, in s
  serviceFrom : BitVec 64 := 0        -- HM_CLK when it began
  factory  : Bool := false
  cause    : BitVec 3 := 1
  resets   : List ResetJob := []      -- resets in progress, oldest first
  wipes    : List WipeJob := []       -- wipes that wait for their bell or run (R418)
  deriving DecidableEq, Repr

/-- The module information store (R429): serial, owner, flags, BOOT_COUNT. Lane maps, cards and seating are kept with their units. -/
structure Store where
  serial    : BitVec 128 := 0
  owner     : Option (BitVec 384) := none  -- SHA-384 of the owner keys held
  ownerKeys : List Byte := []         -- the keys themselves, OWNER_ED ‖ OWNER_MLDSA (R408)
  ownerGen  : BitVec 32 := 0
  sealed    : Bool := false           -- SEALED_FOR_RETURN
  wipePending : Bool := false
  bootCount : BitVec 32 := 0
  deriving DecidableEq, Repr

/-- Power, sideband pins and the PW_ block (R425 to R440). -/
structure Power where
  powered   : Bool := true
  pwrEn     : Bool := true
  rstN      : Bool := true
  pg        : Bool := true
  vio       : Bool := true            -- the tray controller supplies VIO
  slot      : BitVec 2 := 0
  trip      : Bool := false
  present   : BitVec 4 := 0xF
  latch     : BitVec 4 := 0xF
  watts     : BitVec 16 := 0
  wattsTen  : BitVec 16 := 0          -- at tenant grade
  wattsSvc  : BitVec 16 := 0          -- in service mode
  volts     : BitVec 16 := 0
  amps      : BitVec 16 := 0
  fieldPower : BitVec 64 := 0
  temps     : BitVec 40 := 0
  die       : BitVec 8 := 0           -- the hottest die sensor itself, in °C (R433)
  alert     : BitVec 10 := 0
  mask      : BitVec 10 := 0x3FF
  cap       : BitVec 16 := 5600
  fineSel   : BitVec 8 := 0
  fine      : BitVec 32 := 0
  cond      : BitVec 10 := 0          -- alert conditions that persist
  i3cAddr   : Option (BitVec 7) := none
  i3cAnswer : Option (BitVec 64) := none
  deriving DecidableEq, Repr

/-- The Hall Monitor coordinator (R380). -/
structure Coord where
  passes   : Tab Pass := []
  more     : List Pass := []           -- checkpoint passes of other partitions held beside the one that entry 32 shows
  lastBusy : BitVec 4 := 0
  satAddr  : BitVec 48 := 0
  lastCkpt : Option (BitVec 64) := none   -- HM_CLK of the last CKPT_REQ raised (R376: at most one an hour)
  deriving DecidableEq, Repr

/-- The state of the block. -/
structure State where
  mem      : Memory := []
  lpTags   : Tab BlockTag := []             -- tags of LPDDR blocks written since the field's base (by block number)
  bad      : List Nat := []                 -- uncorrectable words of slate and desk, by first address (R210)
  ce       : List Nat := []                 -- words of slate and desk with a single-bit error, which every read corrects (R210)
  flaws    : Tab Byte := []                 -- stored bytes of LPDDR that differ from what was written, and how: by 544 · block + byte (R220)
  held     : List (Nat × Nat × List Byte) := []  -- Librarian and link writes that wait for a seal (R58): field, address, bytes
  cores    : Tab Core := []
  seats    : Tab Seat := []                 -- by the partition's lowest field
  fields   : Tab Field := []
  links    : Tab Link := []
  counters : Tab Counter := []              -- by register address (R360)
  latched  : Tab Counter := []              -- values latched at the most recent bell of their partition (R363)
  host     : HostPort := {}
  px       : Proctor := {}
  store    : Store := {}
  nv       : NvRec Store := { a := {}, b := {} }  -- the store's record as written, in its two copies (R429)
  pw       : Power := {}
  coord    : Coord := {}
  hmClk    : BitVec 64 := 0                 -- HM_CLK of every field
  free     : Nat := 0                       -- the model's own: next free value
  pending  : List Instr := []
  deriving DecidableEq, Repr

/-- The block right after reset: power good, the boot ROM released, every register at its reset value, the
boot's nonce and challenge drawn (R401, R411). -/
def State.reset : State := { free := 2 }

/-- Faults. The manual names no command that stops the module (R97, R382), so this type has no constructor. -/
inductive Fault where
  deriving DecidableEq, Repr

/-- Refusals. -/
inductive Refusal where
  /-- Raised only by an arm of `exec` whose command has no meaning yet; safe. -/
  | notModelled (mnemonic : String)
  deriving DecidableEq, Repr

end Sys2Proof.Machine
end

