-- ==== Sys2Proof/Machine/Timetable.lean ====
section
/-! DEFINITION. Timetable entries (R63 to R66): reading the fields of Tables 02-4 to 02-9 from a 128-bit entry, the slot
runs of a template, and the image checks of R63, R64, R66 and R67. -/

namespace Sys2Proof.Machine

/-- A timetable entry as a number. -/
abbrev Entry := BitVec 128

/-- Field [hi:lo] of an entry. -/
def efield (e : Entry) (hi lo : Nat) : Nat := bits e.toNat hi lo

/-- TYPE of an entry (Table 02-4). -/
def etype (e : Entry) : Nat := efield e 127 124

/-- A slot run: a SLOT entry with its fields read (Table 02-6). -/
structure Run where
  link    : Nat
  rx      : Bool
  kind    : Nat
  start   : Nat
  count   : Nat
  peer    : Nat
  core    : Nat
  slate   : Bool
  offset  : Nat
  sealId  : Nat
  deliver : Nat
  stream  : Nat
  deriving DecidableEq, Repr

/-- Read a SLOT entry (Table 02-6). -/
def runOf (e : Entry) : Run :=
  { link := efield e 123 121, rx := efield e 120 120 == 1, kind := efield e 119 117, start := efield e 116 100,
    count := efield e 99 83, peer := efield e 82 67, core := efield e 66 58, slate := efield e 57 57 == 1,
    offset := efield e 56 42, sealId := efield e 41 34, deliver := efield e 33 32, stream := efield e 31 24 }

/-- The SLOT entries of the template whose PERIOD entry stands at `p`, fillers left out (R64). -/
def templateRuns (blk : List Entry) (p : Nat) : List Run :=
  ((((blk.drop (p + 1)).take (efield (blk.getD p 0) 123 107)).filter (fun e => etype e == 2)).map runOf).filter
    (fun r => r.count != 0)

/-- The slot lies in the run. -/
def Run.covers (r : Run) (slot : Nat) : Bool := decide (r.start ≤ slot) && decide (slot < r.start + r.count)

/-- Librarian channel of a KIND 1 or KIND 5 run: CORE [61:58] (R65). -/
def Run.chan (r : Run) : Nat := r.core % 16

/-- Librarian channel of a pool run. -/
def Run.poolChan (r : Run) : Option Nat := if r.kind = 5 then some r.chan else none

/-- S of R53. -/
def slotsOf (period : Nat) : Nat := period * 125 / 153

/-- "Next entry" of R68: skips the SLOT entries of a template. -/
def nextEntry (blk : List Entry) (i : Nat) : Nat :=
  let e := blk.getD i 0
  if etype e == 1 then i + 1 + efield e 123 107 else i + 1

/-- First entry from `i` that is not a JUMP: the end of a JUMP table (R74). -/
def jumpTableEnd (blk : List Entry) : Nat → Nat → Nat
  | 0, i => i
  | n + 1, i => if etype (blk.getD i 0) == 6 && decide (i < blk.length) then jumpTableEnd blk n (i + 1) else i

/-! ### Checks of an image at plan load (R63, R64, R66, R67) -/

/-- The bits a TYPE leaves reserved are zero, and its fields are in the ranges of Tables 02-5 to 02-9 (R67, first case). DEDUCED (log 26): the
"only" of Table 02-6 makes SPACE, OFFSET and SEAL of a SLOT that is not KIND 0, SEAL of an RX one and DELIVER of a TX one reserved; CORE of KINDs 2 to 4
has no stated range and is not checked; PARENT is checked against 0–23 for every ROLE, the root's ignored one too. -/
def entryOk (e : Entry) : Bool :=
  match etype e with
  | 1 => efield e 49 0 == 0 && efield e 106 75 != 0
  | 2 =>
    let r := runOf e
    if r.count == 0 then efield e 123 0 == 0
    else efield e 23 0 == 0 && decide (r.link < 6) && decide (r.kind < 6) &&
      (if r.kind == 0 then decide (r.core < 500) else !r.slate && r.offset == 0 && r.sealId == 0) &&
      (if r.kind == 1 || r.kind == 5 then efield e 66 62 == 0 else true) &&
      (if r.kind == 3 then r.peer == 0 else true) &&
      (if r.rx then r.sealId == 0 else r.deliver == 0)
  | 3 => efield e 74 0 == 0 && efield e 106 75 != 0
  | 4 => efield e 6 0 == 0
  | 5 => efield e 92 0 == 0 && efield e 123 122 != 3 && decide (efield e 121 117 < 24)
  | 6 => efield e 106 0 == 0
  | 7 => efield e 123 0 == 0
  | _ => false

/-- Targets that an entry names (R67, second case). -/
def targets (e : Entry) : List Nat :=
  match etype e with
  | 3 => [efield e 123 107]
  | 4 => [efield e 121 105, efield e 104 88, efield e 87 71, efield e 70 54]
  | 6 => [efield e 123 107]
  | _ => []

/-- Two runs overlap on one link direction. -/
def Run.overlaps (a b : Run) : Bool :=
  a.link == b.link && a.rx == b.rx && decide (a.start < b.start + b.count) && decide (b.start < a.start + a.count)

/-- SLOT entries of the template at `p` with their indices, fillers left out. -/
def slotsAt (blk : List Entry) (p : Nat) : List (Nat × Run) :=
  let e := blk.getD p 0
  if etype e == 1 then
    ((((List.range (efield e 123 107)).map (fun i => p + 1 + i)).filter (fun i => etype (blk.getD i 0) == 2)).map
      (fun i => (i, runOf (blk.getD i 0)))).filter (fun x => x.2.count != 0)
  else []

/-- The entry at `i` is no SLOT that overlaps an earlier SLOT of a template that holds both (R67, third case). -/
def slotApart (blk : List Entry) (i : Nat) : Bool :=
  (List.range i).all (fun p =>
    let l := slotsAt blk p
    (l.filter (fun x => x.1 == i)).all (fun x => l.all (fun y => decide (i ≤ y.1) || !y.2.overlaps x.2)))

/-- The run ends by slot S − 1 and inside its desk or slate, and a core-data TX run starts at slot 27 or later (R67). -/
def runFits (slots : Nat) (r : Run) : Bool :=
  decide (r.start + r.count ≤ slots) &&
  (if r.kind == 0 then decide (256 * (r.offset + r.count) ≤ if r.slate then 524288 else 8388608) else true) &&
  (if r.kind == 0 && !r.rx then decide (27 ≤ r.start) else true)

/-- Resend-region slots and the need for them on one link direction (R54, R67). -/
def resendOk (need : Nat) (rs : List Run) (link : Nat) (rx : Bool) : Bool :=
  let here := rs.filter (fun r => r.link == link && r.rx == rx)
  if here.any (fun r => r.kind == 0 || r.kind == 1 || r.kind == 5) then
    decide (need ≤ ((here.filter (fun r => r.kind == 3)).map (·.count)).sum)
  else true

/-- First position from 0 at which a test fails. -/
def firstBad (p : Nat → Bool) (n : Nat) : Option Nat := (List.range n).find? (fun i => !p i)

/-- The entry at `i` is a SLOT of some template: some PERIOD stands at most ENTRIES places above it. -/
def slotInside (blk : List Entry) (i : Nat) : Bool :=
  (List.range i).any (fun p => etype (blk.getD p 0) == 1 && decide (i ≤ p + efield (blk.getD p 0) 123 107))

/-- Bodies of the LOOPs of a block: (TARGET, index of the LOOP) (R68). -/
def loopBodies (blk : List Entry) : List (Nat × Nat) :=
  ((List.range blk.length).filter (fun i => etype (blk.getD i 0) == 3)).map
    (fun i => (efield (blk.getD i 0) 123 107, i))

/-- LOOP checks of R67: TARGET below the LOOP, nesting at most 4, no partial overlap. -/
def loopOk (blk : List Entry) (i : Nat) : Bool :=
  let e := blk.getD i 0
  if etype e == 3 then
    let t := efield e 123 107
    decide (t < i) &&
    decide (((loopBodies blk).filter (fun b => decide (b.1 ≤ t) && decide (i ≤ b.2))).length ≤ 4) &&
    (loopBodies blk).all (fun b =>
      decide (b.2 ≤ t) || decide (i ≤ b.1) || (decide (b.1 ≤ t) && decide (i ≤ b.2)) ||
      (decide (t ≤ b.1) && decide (b.2 ≤ i)))
  else true

/-- Skeleton type: entries that every block must hold alike at the same index (R64). -/
def isSkeleton (e : Entry) : Bool := etype e == 1 || etype e == 3 || etype e == 4 || etype e == 6 || etype e == 7

/-- Two blocks hold the same skeleton (R64). -/
def sameSkeleton (a b : List Entry) : Option Nat :=
  firstBad (fun i =>
    let x := a.getD i 0; let y := b.getD i 0
    if isSkeleton x || isSkeleton y then x == y else true) (Nat.max a.length b.length)

/-- The template at `p` of a block passes a test of its runs (true at an index that is no PERIOD). -/
def templateTest (blk : List Entry) (test : List Run → Bool) (p : Nat) : Bool :=
  if etype (blk.getD p 0) == 1 then test (templateRuns blk p) else true

/-- Reason of R347 and entry index for one block, or none: the cases of R67 in its order, 1 to 9. -/
def blockFault (slots need : Nat) (blk : List Entry) (reduce0 : Entry) : Option (Nat × Nat) :=
  let n := blk.length
  let at_ (r : Nat) (p : Nat → Bool) : Option (Nat × Nat) := (firstBad p n).map (fun i => (r, i))
  at_ 1 (fun i => entryOk (blk.getD i 0)) <|>
  at_ 2 (fun i => (targets (blk.getD i 0)).all (fun t => decide (t < n))) <|>
  at_ 3 (slotApart blk) <|>
  at_ 4 (fun i => etype (blk.getD i 0) != 2 || (runOf (blk.getD i 0)).count == 0 || runFits slots (runOf (blk.getD i 0))) <|>
  at_ 5 (fun i =>
    let e := blk.getD i 0
    if etype e == 1 then
      let k := efield e 123 107
      decide (i + k < n) && ((blk.drop (i + 1)).take k).all (fun x => etype x == 2) &&
        !(etype (blk.getD (i + 1 + k) 0) == 2)
    else if etype e == 2 then slotInside blk i
    else true) <|>
  at_ 6 (loopOk blk) <|>
  at_ 7 (templateTest blk (fun rs => (List.range 6).all (fun l => resendOk need rs l false && resendOk need rs l true))) <|>
  at_ 8 (fun i =>
    let e := blk.getD i 0
    if etype e == 4 && efield e 7 7 == 1 then efield e 123 123 == 1 && efield e 53 24 == 0 else true) <|>
  (if etype (blk.getD 0 0) == 5 && blk.getD 0 0 == reduce0 then none else some (9, 0)) <|>
  at_ 9 (fun i => i == 0 || etype (blk.getD i 0) != 5)

end Sys2Proof.Machine
end

