-- ==== Sys2Proof/Machine/Ops.lean ====
section
/-! DEFINITION. Named operations over the state: units and partitions, free values, event counters, report-card events,
status bits, violation logs, memory with its protection, and the recording of a core's fault. -/

namespace Sys2Proof.Machine

/-! ### Units (R15, R21) -/

/-- Logical core `c`. -/
def State.core (s : State) (c : Nat) : Core := Tab.get Core.reset s.cores c

/-- Replace logical core `c`; there are 2,000 (R3). -/
def State.setCore (s : State) (c : Nat) (k : Core) : State :=
  if c < 2000 then { s with cores := Tab.set Core.reset s.cores c k } else s

/-- Field `f`. -/
def State.field (s : State) (f : Nat) : Field := Tab.get (fun _ => {}) s.fields f

/-- Replace field `f`; there are four (R3). -/
def State.setField (s : State) (f : Nat) (k : Field) : State :=
  if f < 4 then { s with fields := Tab.set (fun _ => {}) s.fields f k } else s

/-- Link `l`. -/
def State.link (s : State) (l : Nat) : Link := Tab.get (fun _ => {}) s.links l

/-- Replace link `l`; there are 24 (R3). -/
def State.setLink (s : State) (l : Nat) (k : Link) : State :=
  if l < 24 then { s with links := Tab.set (fun _ => {}) s.links l k } else s

/-! ### The module information store (R429) -/

/-- The newer copy of a record whose CRC is valid is copy `a`. -/
def NvRec.newerA {α : Type} (r : NvRec α) : Bool := r.okA && (!r.okB || decide (r.seqB ≤ r.seqA))

/-- What the store returns of a record: the newer copy whose CRC is valid. -/
def NvRec.get {α : Type} (r : NvRec α) : α := if r.newerA then r.a else r.b

/-- Write a record: one copy, the other one standing until it is written; a page program that has begun always finishes, so its CRC is valid. -/
def NvRec.put {α : Type} (r : NvRec α) (x : α) : NvRec α :=
  if r.newerA then { r with b := x, seqB := r.seqA + 1, okB := true } else { r with a := x, seqA := r.seqB + 1, okA := true }

/-- Change what the information store holds of the module, and write its record. -/
def State.keep (s : State) (g : Store → Store) : State := { s with store := g s.store, nv := s.nv.put (g s.store) }

/-! ### Units of a field -/

def State.modMc (s : State) (f : Nat) (g : Mc → Mc) : State := let x := s.field f; s.setField f { x with mc := g x.mc }
def State.modLb (s : State) (f : Nat) (g : Lb → Lb) : State := let x := s.field f; s.setField f { x with lb := g x.lb }
def State.modHm (s : State) (f : Nat) (g : Hm → Hm) : State := let x := s.field f; s.setField f { x with hm := g x.hm }
def State.modLink (s : State) (l : Nat) (g : Link → Link) : State := s.setLink l (g (s.link l))
def State.modCore (s : State) (c : Nat) (g : Core → Core) : State := s.setCore c (g (s.core c))

/-- Field that owns a core, a link, a tile (R15). -/
def fieldOfCore (c : Nat) : Nat := c / 500
def fieldOfLink (l : Nat) : Nat := l / 6

/-! ### Partitions and their seats (R22, R335) -/

/-- Fields of a partition code (Table 11-3). -/
def partFields (code : Nat) : List Nat :=
  match code with
  | 0 => [0] | 1 => [1] | 2 => [2] | 3 => [3] | 4 => [0, 1] | 5 => [2, 3] | 6 => [0, 1, 2, 3] | _ => []

/-- Partition code in force for a field (PR_LAYOUT). -/
def State.partOf (s : State) (f : Nat) : Nat := bits s.host.layout.toNat (3 * f + 2) (3 * f)

/-- Lowest field of the partition that owns field `f`: where its seat is kept. -/
def State.seatIx (s : State) (f : Nat) : Nat := (partFields (s.partOf f)).headD f

/-- Fields of the partition that owns field `f`. -/
def State.seatFields (s : State) (f : Nat) : List Nat := partFields (s.partOf f)

/-- The seat of the partition that owns field `f`. -/
def State.seat (s : State) (f : Nat) : Seat := Tab.get (fun _ => {}) s.seats (s.seatIx f)

/-- Replace the seat of the partition that owns field `f`. -/
def State.setSeat (s : State) (f : Nat) (k : Seat) : State :=
  if f < 4 then { s with seats := Tab.set (fun _ => {}) s.seats (s.seatIx f) k } else s

def State.modSeat (s : State) (f : Nat) (g : Seat → Seat) : State := s.setSeat f (g (s.seat f))
def State.modTt (s : State) (f : Nat) (g : Tt → Tt) : State := s.modSeat f (fun x => { x with tt := g x.tt })
def State.modCm (s : State) (f : Nat) (g : Cm → Cm) : State := s.modSeat f (fun x => { x with cm := g x.cm })
def State.modCk (s : State) (f : Nat) (g : Ckpt → Ckpt) : State := s.modSeat f (fun x => { x with ck := g x.ck })

/-- Clk since the latest bell of the partition that owns field `f` (R21, R46). -/
def State.clkOf (s : State) (f : Nat) : Nat := (s.hmClk - (s.seat f).tt.opened).toNat

/-- The partition code is in force: its fields carry it. -/
def State.partLive (s : State) (p : Nat) : Bool := decide (p < 7) && (partFields p).all (fun f => s.partOf f == p)

/-- Cores of a field; cores of a list of fields. -/
def coresOfField (f : Nat) : List Nat := (List.range 500).map (fun j => 500 * f + j)
def coresOf (fs : List Nat) : List Nat := fs.flatMap coresOfField

/-- Links of a field. -/
def linksOfField (f : Nat) : List Nat := (List.range 6).map (fun j => 6 * f + j)

/-- Cores that differ from their reset state: the only ones a partition-wide action can change. -/
def State.listedCores (s : State) (fs : List Nat) : List Nat :=
  (s.cores.map (·.1)).filter (fun c => fs.contains (fieldOfCore c))

/-- Apply an action to each of a list of units in turn. -/
def eachOf (l : List Nat) (g : Nat → State → State) (s : State) : State := l.foldl (fun t i => g i t) s

/-! ### Free values (log 4) -/

def State.freshWord (s : State) : BitVec 64 := Config.freeWord s.free
def State.freshBits (s : State) : BitVec 256 := Config.freeBits s.free
def State.burn (s : State) (n : Nat := 1) : State := { s with free := s.free + n }

/-- `n` bytes the manual leaves unspecified, from the counter on. -/
def freeBytes : Nat → Nat → List Byte
  | _, 0 => []
  | k, n + 1 => Config.freeByte k :: freeBytes (k + 1) n

/-! ### Event counters (R360) -/

def fieldBlock (base f : Nat) : Nat := base + f * 0x1000000
def ttBase (f : Nat) : Nat := fieldBlock 0xF01000000000 f
def mxBase (c : Nat) : Nat := 0xF02000000000 + c * 0x1000
def vxBase (c : Nat) : Nat := 0xF03000000000 + c * 0x1000
def mcBase (f : Nat) : Nat := fieldBlock 0xF04000000000 f
def lbBase (f : Nat) : Nat := fieldBlock 0xF05000000000 f
def cmBase (f : Nat) : Nat := fieldBlock 0xF06000000000 f
def flBase (l : Nat) : Nat := 0xF07000000000 + l * 0x10000
def prBase (f : Nat) : Nat := fieldBlock 0xF08000000000 f
def hmBase (f : Nat) : Nat := fieldBlock 0xF09000000000 f
def hmCoordBase : Nat := 0xF0900F000000
def pxBase : Nat := 0xF0A000000000
def pwBase : Nat := 0xF0B000000000

def State.counter (s : State) (addr : Nat) : Counter := Tab.get (fun _ => {}) s.counters addr
def State.setCounter (s : State) (addr : Nat) (k : Counter) : State :=
  { s with counters := Tab.set (fun _ => {}) s.counters addr k }

/-- Who owns a counter's block (R360): a field's Hall Monitor, or the coordinator (4). -/
def counterOwner (addr : Nat) : Nat :=
  let r := addr % 0x1000000000
  match addr / 0x1000000000 with
  | 0xF02 => r / 0x1000 / 500
  | 0xF03 => r / 0x1000 / 500
  | 0xF07 => r / 0x10000 / 6
  | 0xF0A => 4
  | 0xF0B => 4
  | _ => if r / 0x1000000 = 15 then 4 else r / 0x1000000

/-- Address of HM_SAT_COUNT of an owner. -/
def satCountAddr (o : Nat) : Nat := (if o < 4 then hmBase o else hmCoordBase) + 0x30

/-- One more event, without the record of a saturation. -/
def Counter.bump (k : Counter) : Counter :=
  if k.count = 0xFFFFFFFF#32 then { k with sat := true } else { k with count := k.count + 1 }

/-- The record of one saturation event: HM_SAT_COUNT and HM_SAT_LAST of the owner (R360). -/
def State.satEvent (s : State) (addr : Nat) : State :=
  let o := counterOwner addr
  let a := satCountAddr o
  let s := s.setCounter a (s.counter a).bump
  if o < 4 then s.modHm o (fun h => { h with satAddr := BitVec.ofNat 48 addr })
  else { s with coord := { s.coord with satAddr := BitVec.ofNat 48 addr } }

/-- Count one event (R360). Further events on a saturated counter record nothing. -/
def State.bump (s : State) (addr : Nat) : State :=
  let k := s.counter addr
  if k.sat then s
  else if k.count = 0xFFFFFFFF#32 then (s.setCounter addr k.bump).satEvent addr
  else s.setCounter addr k.bump

/-! ### Report-card events (R364, R365) -/

/-- Card number within a field's table. -/
def cardIx (kind index : Nat) : Nat := 8192 * kind + index

def Hm.card (h : Hm) (kind index : Nat) : Card := Tab.get (fun _ => {}) h.cards (cardIx kind index)
def Hm.setCard (h : Hm) (kind index : Nat) (k : Card) : Hm :=
  { h with cards := Tab.set (fun _ => {}) h.cards (cardIx kind index) k }

/-- A scored event: `w` points on a card (Table 12-3); D saturates (R365). -/
def State.demerit (s : State) (f kind index w : Nat) : State :=
  s.modHm f (fun h =>
    let k := h.card kind index
    h.setCard kind index
      { k with d := BitVec.ofNat 32 (Nat.min (k.d.toNat + 256 * w) 0xFFFFFFFF), hit := true,
               last := (s.seat f).tt.bell.setWidth 32 })

/-- Tile within the field that seats core `j` of the field (R17, R444). -/
def Hm.tileOf (h : Hm) (j : Nat) : Nat :=
  match Tab.find h.seating j with
  | some (t + 1) => t
  | _ => j

/-- Tile within its field that seats logical core `c`. -/
def State.tileOf (s : State) (c : Nat) : Nat := (s.field (fieldOfCore c)).hm.tileOf (c % 500)

/-- An array operation issued by core `c` abandons a quiz on its tile; an abandoned quiz is not scored (R372). -/
def State.quizAbandon (s : State) (c : Nat) : State :=
  let f := fieldOfCore c
  match (s.field f).hm.quiz with
  | some q =>
    if s.tileOf c = q.tileA ∨ s.tileOf c = q.tileB ∨ q.third.map (·.1) = some (s.tileOf c) then
      s.modHm f (fun h => { h with quiz := none, passes := h.passes.filter (fun e => e.2.code != 7 || e.2.onLink) })
    else s
  | none => s

/-! ### Status bits of the running period (R69, R71) -/

/-- Set status bits [8:0] in the word of the running period of the seat of field `f`. -/
def State.setStatus (s : State) (f : Nat) (mask : BitVec 9) : State := s.modTt f (fun t => { t with cur := t.cur ||| mask })

/-- TAINT. -/
def State.taint (s : State) (f : Nat) : State := s.setStatus f 1#9

/-- LATE recorded by field `f`: the status bit, and TT_LATE_COUNT once a period (Table 02-25). -/
def State.late (s : State) (f : Nat) : State :=
  let s := s.setStatus f 2#9
  let x := s.field f
  if x.lateSeen then s else (s.setField f { x with lateSeen := true }).bump (ttBase f + 0x50)

/-- OVERFLOW with the layer folded into OVF_LAYER by minimum. -/
def State.overflow (s : State) (f : Nat) (layer : BitVec 16) : State :=
  s.modTt f (fun t => { t with cur := t.cur ||| 8#9, curLayer := if layer < t.curLayer then layer else t.curLayer })

/-! ### Violation logs (R353, R355) -/

/-- Append to a log of 256 entries; equal SOURCE, CODE and UNIT to the newest adds to its REPEAT. The flag says the log
was full. -/
def vlogAdd (log : List VEntry) (e : VEntry) : List VEntry × Bool :=
  match log.reverse with
  | n :: r =>
    if n.source = e.source ∧ n.code = e.code ∧ n.unitId = e.unitId then
      (({ n with again := if n.again = 0xFFFFFFFF#32 then n.again else n.again + 1 } :: r).reverse, false)
    else if log.length < 256 then (log ++ [e], false) else (log, true)
  | [] => ([e], false)

/-- Log a violation in the partition of field `f`; a full log counts PR_VLOG_DROP. -/
def State.vlog (s : State) (f : Nat) (e : VEntry) : State :=
  let k := s.seat f
  let r := vlogAdd k.vlog { e with bell := k.tt.bell }
  let s := s.setSeat f { k with vlog := r.1 }
  if r.2 then s.bump (prBase (s.seatIx f) + 0x30) else s

/-- Log a violation in the module's own log (R355). -/
def State.modVlog (s : State) (e : VEntry) : State :=
  let r := vlogAdd s.host.modVlog { e with bell := (s.seat 0).tt.bell }
  { s with host := { s.host with modVlog := r.1, modVdrop := s.host.modVdrop + b2n r.2 } }

/-- Add an entry to the numerics log of field `f`'s partition: a ring of 4,096 (R197). -/
def State.numLog (s : State) (f : Nat) (e : NumEntry) : State :=
  s.modSeat f (fun k =>
    { k with numlog := Tab.put k.numlog k.numHead.toNat e, numHead := k.numHead + 1,
             numWrap := k.numWrap || (Tab.find k.numlog k.numHead.toNat).isSome })

/-! ### Addresses (R216, Table 07-3) -/

def lpField : Nat := 0x7000000000          -- 448 GiB
def deskBase (c : Nat) : Nat := 0x800000000000 + c * 0x800000
def slateBase (c : Nat) : Nat := 0x900000000000 + c * 0x80000

/-- What a local address names. -/
inductive Region where
  | lpddr (f : Nat)
  | desk (c : Nat)
  | slate (c : Nat)
  | ctrl
  | hole
  deriving DecidableEq, Repr

/-- The local address map. -/
def regionOf (a : Nat) : Region :=
  if a < 4 * lpField then .lpddr (a / lpField)
  else if 0x800000000000 ≤ a ∧ a < 0x800000000000 + 2000 * 0x800000 then .desk ((a - 0x800000000000) / 0x800000)
  else if 0x900000000000 ≤ a ∧ a < 0x900000000000 + 2000 * 0x80000 then .slate ((a - 0x900000000000) / 0x80000)
  else if 0xF00000000000 ≤ a ∧ a < 0xF10000000000 then .ctrl
  else .hole

/-- The fields of a partition reach the byte at `a` (R217). -/
def reaches (fs : List Nat) (a : Nat) : Bool :=
  match regionOf a with
  | .lpddr f => fs.contains f
  | .desk c => fs.contains (fieldOfCore c)
  | .slate c => fs.contains (fieldOfCore c)
  | _ => false

/-- The byte lies in a code region (R87). -/
def State.inCode (s : State) (a : Nat) : Bool :=
  match regionOf a with
  | .slate c => decide (a - slateBase c < 8 * (s.core c).codeLen)
  | _ => false

/-! ### Memory (R209 to R224) -/

/-- An unlisted byte reads as zero (log 5). -/
def memDefault : Nat → Byte := fun _ => 0

/-- One byte. -/
def Memory.read (m : Memory) (a : Nat) : Byte := Tab.get memDefault m a

/-- Write one byte, keeping the canonical form. -/
def Memory.write (m : Memory) (a : Nat) (b : Byte) : Memory := Tab.set memDefault m a b

/-- The canonical form. -/
def Memory.wf (m : Memory) : Bool := Tab.wf memDefault m

/-- `n` bytes from `a` up. -/
def Memory.readN (m : Memory) : Nat → Nat → List Byte
  | _, 0 => []
  | a, n + 1 => Memory.read m a :: Memory.readN m (a + 1) n

/-- Bytes from `a` up. -/
def Memory.writeN (m : Memory) (a : Nat) : List Byte → Memory
  | [] => m
  | b :: r => Memory.writeN (Memory.write m a b) (a + 1) r

/-- Zero a range. -/
def Memory.zero (m : Memory) (a n : Nat) : Memory := Tab.clearRange m a n

/-- Tag of an LPDDR block (R219): the field's own tag unless the block is listed. -/
def State.blockTag (s : State) (b : Nat) : BlockTag :=
  Tab.get (fun b => (s.field (b * 512 / lpField)).mc.base) s.lpTags b

/-- Why an access gets an error response (R216, R210, R221). -/
inductive MemErr where
  | firewall | word | ue | mac | tag
  deriving DecidableEq, Repr

/-- Outcome of Reed–Solomon decoding of a block (R220, R221). -/
def State.blockOut (s : State) (b : Nat) : RsOut :=
  rsOutcome ((s.flaws.filter (fun e => e.1 / 544 == b)).map (fun e => (e.1 % 544, e.2)))

/-- Read check of the byte at `a` for a partition's fields, in the order of R221: decoding, then the MAC under the keys of the block's epoch. -/
def State.readErr (s : State) (fs : List Nat) (a : Nat) : Option MemErr :=
  if !reaches fs a then some .firewall
  else match regionOf a with
  | .lpddr f =>
    let m := (s.field f).mc
    let t := s.blockTag (a / 512)
    let out := s.blockOut (a / 512)
    if out = .failed then some .ue
    else if t.epoch = m.epoch ∧ m.gen.isSome then (if m.gen = some t.gen ∧ out ≠ .wrong then none else some .mac)
    else if t.epoch = m.old ∧ m.oldLive ∧ m.oldGen.isSome then (if m.oldGen = some t.gen ∧ out ≠ .wrong then none else some .mac)
    else some .tag
  | _ => if s.bad.contains (a - a % 8) then some .word else none

/-- Write check of the byte at `a` within a write of [lo, lo + n): a word or block covered in part is read first
(R210, R222). -/
def State.writeErr (s : State) (fs : List Nat) (lo n a : Nat) : Option MemErr :=
  if !reaches fs a then some .firewall
  else match regionOf a with
  | .lpddr f =>
    let b := a - a % 512
    if (s.field f).mc.gen.isNone then some .tag
    else if lo ≤ b ∧ b + 512 ≤ lo + n then none else s.readErr fs a
  | _ =>
    let b := a - a % 8
    if lo ≤ b ∧ b + 8 ≤ lo + n then none else s.readErr fs a

/-- First failing byte of a range, in ascending order. -/
def firstErr (test : Nat → Option MemErr) : Nat → Nat → Option (Nat × MemErr)
  | _, 0 => none
  | a, n + 1 =>
    match test a with
    | some e => some (a, e)
    | none => firstErr test (a + 1) n

/-- Read a range, or the first failing address. -/
def State.readRange (s : State) (fs : List Nat) (a n : Nat) : Except (Nat × MemErr) (List Byte) :=
  match firstErr (s.readErr fs) a n with
  | some e => .error e
  | none => .ok (Memory.readN s.mem a n)

/-- Block numbers an LPDDR range touches. -/
def blocksOf (a n : Nat) : List Nat := (List.range ((a + n + 511) / 512 - a / 512)).map (fun i => a / 512 + i)

/-- Carry the current tag on a list of blocks (R222, R227). -/
def State.tagBlocks (s : State) (bs : List Nat) : State :=
  { s with lpTags := bs.foldl (fun t b =>
      let m := (s.field (b * 512 / lpField)).mc
      Tab.set (fun b => (s.field (b * 512 / lpField)).mc.base) t b { epoch := m.epoch, gen := m.gen.getD 0 }) s.lpTags }

/-- Store bytes that have passed their checks: fresh check bits on every word and block written, and the current tag on every LPDDR block
touched; an uncorrectable word that is not covered whole stays so (R210, R222). -/
def State.storeBytes (s : State) (a : Nat) (bs : List Byte) : State :=
  let n := bs.length
  let s := { s with mem := Memory.writeN s.mem a bs,
                    bad := s.bad.filter (fun w => !(decide (a ≤ w) && decide (w + 8 ≤ a + n))),
                    ce := s.ce.filter (fun w => decide (w + 8 ≤ a) || decide (a + n ≤ w)) }
  if a < 4 * lpField then
    { s.tagBlocks (blocksOf a n) with flaws := s.flaws.filter (fun e => !(blocksOf a n).contains (e.1 / 544)) }
  else s

/-- Desk bank card of an address (Table 12-2). -/
def bankOf (s : State) (c a : Nat) : Nat := 8 * s.tileOf c + (a - deskBase c) / 0x100000

/-- LPDDR channel card of an address (R212). -/
def channelOf (a : Nat) : Nat := a % lpField / 65536 % 32

/-- The page of an LPDDR address waits for its retirement copy (R214, Table 12-6). -/
def State.duePage (s : State) (g a : Nat) : State :=
  let p := a / 65536
  s.modMc g (fun m =>
    if m.due.contains p || m.copying.contains p || m.pending.contains p then m else { m with due := m.due ++ [p] })

/-! ### Corrected errors (R210, R221, Table 12-3) -/

/-- A corrected LPDDR read: counted and scored; the 8th of a page between two decay ticks retires the page (Tables 12-3, 12-6). -/
def State.correctedBlock (s : State) (f a : Nat) : State :=
  let s := (s.bump (mcBase f + 0x20)).demerit f 3 (channelOf a) 1
  let p := a / 65536
  let n := Tab.get (fun _ => 0) (s.field f).mc.corrected p + 1
  let s := s.modMc f (fun m => { m with corrected := Tab.set (fun _ => 0) m.corrected p n })
  if n = 8 then s.duePage f a else s

/-- A corrected read of a slate or desk word: counted in HM_SRAM_CE_COUNT and scored (R210). -/
def State.correctedWord (s : State) (a : Nat) : State :=
  match regionOf a with
  | .desk c => (s.bump (hmBase (fieldOfCore c) + 0x48)).demerit (fieldOfCore c) 2 (bankOf s c a) 1
  | .slate c => (s.bump (hmBase (fieldOfCore c) + 0x48)).demerit (fieldOfCore c) 1 (s.tileOf c) 1
  | _ => s

/-- A unit of `g` bytes from `w` on meets one of the ranges. -/
def touches (l : List (Nat × Nat)) (w g : Nat) : Bool := l.any (fun r => decide (w < r.1 + r.2) && decide (r.1 < w + g))

/-- Ranges have been read: each word and each block of them that was corrected counts once (log 27). -/
def State.noteCorrected (s : State) (l : List (Nat × Nat)) : State :=
  let ws := s.ce.filter (fun w => touches l w 8)
  let bs := ((s.flaws.map (fun e => e.1 / 544)).eraseDups).filter (fun b => touches l (512 * b) 512 && s.blockOut b == .corrected)
  bs.foldl (fun t b => t.correctedBlock (512 * b / lpField) (512 * b)) (ws.foldl State.correctedWord s)

/-- The first and the last word or block of a range that a write covers in part, and so reads (R210, R222). -/
def edges (a n : Nat) : List (Nat × Nat) :=
  let g := if a < 4 * lpField then 512 else 8
  (if a % g = 0 then [] else [(a, 1)]) ++ (if (a + n) % g = 0 then [] else [(a + n - 1, 1)])

/-- Write a range, or the first failing address; nothing is written when a byte fails. -/
def State.writeRange (s : State) (fs : List Nat) (a : Nat) (bs : List Byte) : Except (Nat × MemErr) State :=
  match firstErr (s.writeErr fs a bs.length) a bs.length with
  | some e => .error e
  | none => .ok ((s.noteCorrected (edges a bs.length)).storeBytes a bs)

/-- What the block does about a failing access of a unit of field `f` (R210, R216, R221): counters, card, MC_ERR_LAST, TAINT. -/
def State.noteErr (s : State) (f a : Nat) (e : MemErr) : State :=
  let g := a / lpField
  let last (k : BitVec 3) (t : State) : State :=
    t.modMc g (fun m => { m with errAddr := BitVec.ofNat 48 (a - a % 512), errKind := k })
  match e with
  | .firewall => s
  | .word =>
    match regionOf a with
    | .desk c =>
      let g := fieldOfCore c
      let r := (bankOf s c a, (a - deskBase c) / 1024 % 1024)
      ((((s.bump (hmBase g + 0x50)).demerit g 2 (bankOf s c a) 256).modHm g (fun h =>
        if h.rows.contains r || h.rowsDue.contains r then h else { h with rowsDue := h.rowsDue ++ [r] }))).taint f
    | .slate c => (((s.bump (hmBase (fieldOfCore c) + 0x50)).demerit (fieldOfCore c) 1 (s.tileOf c) 256)).taint f
    | _ => s.taint f
  | .ue => (((last 1 (s.bump (mcBase g + 0x28))).demerit g 3 (channelOf a) 256).duePage g a).taint f
  | .mac => ((last 2 (s.bump (mcBase g + 0x30))).demerit g 3 (channelOf a) 256).taint f
  | .tag => (last 3 (s.bump (mcBase g + 0x38))).taint f

/-! ### The running template and sealed buffers (R57, R58, R77) -/

/-- Position of a field among its partition's fields: its block of the image. -/
def blockIx (fs : List Nat) (f : Nat) : Nat := (fs.filter (fun g => decide (g < f))).length

/-- The block of entries that field `f` walks; empty without a plan. -/
def State.block (s : State) (f : Nat) : List Entry :=
  match (s.seat f).plan with
  | some p => p.blocks.getD (blockIx (s.seatFields f) f) []
  | none => []

/-- PERIOD entry whose template runs in the current period: the running one, or the plan's HOLD schedule (R77). -/
def State.template (s : State) (f : Nat) : Option Nat :=
  let k := s.seat f
  match k.plan with
  | none => none
  | some p => if k.tt.hold then p.hdr.holdTemplate else some k.tt.entry

/-- Runs of the current period in the block of field `f`. -/
def State.runs (s : State) (f : Nat) : List Run :=
  match s.template f with
  | some p => templateRuns (s.block f) p
  | none => []

/-- Core-data TX runs of core `c` in the current period; none in HOLD, where core-data slots carry idle flits (R77). -/
def State.coreRuns (s : State) (c : Nat) : List Run :=
  if (s.seat (fieldOfCore c)).tt.hold then []
  else (s.runs (fieldOfCore c)).filter (fun r => r.kind == 0 && !r.rx && r.core == c % 500)

/-- First byte of the buffer of a core-data run of field `f`. -/
def Run.bufAddr (r : Run) (f : Nat) : Nat :=
  (if r.slate then slateBase (500 * f + r.core) else deskBase (500 * f + r.core)) + 256 * r.offset

/-- Seal `id` of core `k` is set. -/
def Core.sealed (k : Core) (id : Nat) : Bool := k.seals.getLsbD id

/-- Units of size `size` from `base` on that a range touches. -/
def unitsIn (base size a n : Nat) : List Nat :=
  if n = 0 ∨ a + n ≤ base then []
  else (List.range ((a + n - 1 - base) / size + 1 - (a - base) / size)).map (fun i => (a - base) / size + i)

/-- Cores whose desk or slate a range touches. -/
def coresTouched (a n : Nat) : List Nat :=
  if a < 0x900000000000 then unitsIn 0x800000000000 0x800000 a n else unitsIn 0x900000000000 0x80000 a n

/-- A write of [a, a + n) meets a sealed buffer (R58): it must wait. -/
def State.meetsSeal (s : State) (a n : Nat) : Bool :=
  (coresTouched a n).any (fun c => (s.coreRuns c).any (fun r =>
    (s.core c).sealed r.sealId &&
      decide (a < r.bufAddr (fieldOfCore c) + 256 * r.count) && decide (r.bufAddr (fieldOfCore c) < a + n)))

/-- A list of ranges meets a sealed buffer. -/
def State.anySeal (s : State) (l : List (Nat × Nat)) : Bool := l.any (fun r => s.meetsSeal r.1 r.2)

/-- A range touches a code region (R87). -/
def State.hitsCode (s : State) (a n : Nat) : Bool :=
  (unitsIn 0x900000000000 0x80000 a n).any (fun c =>
    decide (a < slateBase c + 8 * (s.core c).codeLen) && decide (slateBase c < a + n))

/-- First byte of a range that lies in a code region. -/
def State.firstCode (s : State) (a n : Nat) : Nat :=
  match (unitsIn 0x900000000000 0x80000 a n).find? (fun c =>
    decide (a < slateBase c + 8 * (s.core c).codeLen) && decide (slateBase c < a + n)) with
  | some c => Nat.max a (slateBase c)
  | none => a

/-! ### Faults of a core (R97, Tables 03-13 to 03-15) -/

/-- FAULT of a first fault. -/
def faultWord (code pc op : Nat) : BitVec 64 := BitVec.ofNat 64 (code % 256 + pc % 16384 * 512 + op % 256 * 8388608)

/-- Record a fault in a core: the first is kept in full, later ones set MORE. -/
def Core.recordFault (k : Core) (code pc op addr : Nat) : Core :=
  if k.fault.toNat % 256 = 0 then { k with fault := faultWord code pc op, faultAddr := BitVec.ofNat 64 (addr % 2 ^ 48) }
  else { k with fault := k.fault ||| 256#64 }

/-- Record a fault: FAULT and FAULT_ADDR, TAINT in the seat, and for codes 0x02 to 0x05 an entry of the violation log with
SOURCE 1 (scalar), 2 (DMA) or 3 (array, vector). -/
def State.recordFault (s : State) (c code pc op addr source : Nat) : State :=
  let f := fieldOfCore c
  let s := (s.modCore c (fun k => k.recordFault code pc op addr)).taint f
  if 2 ≤ code ∧ code ≤ 5 then
    s.vlog f { addr := BitVec.ofNat 64 (addr % 2 ^ 48), source := BitVec.ofNat 8 source, code := BitVec.ofNat 8 code,
               unitId := BitVec.ofNat 16 c }
  else s

/-- Record a fault for which the manual names no address: ADDR is a free value (log 4). -/
def State.recordFaultOpen (s : State) (c code pc op source : Nat) : State :=
  (s.recordFault c code pc op s.freshWord.toNat source).burn

/-- An error response met while an engine operation of core `c` runs: fault 0x04 and what the memory does about it. -/
def State.engineErr (s : State) (c pc op source : Nat) (e : Nat × MemErr) : State :=
  (s.recordFault c 4 pc op e.1 source).noteErr (fieldOfCore c) e.1 e.2

end Sys2Proof.Machine
end

