-- ==== Sys2Proof/Machine/Operands.lean ====
section
/-! DEFINITION. Operand forms: a core's register files (R84, R90), its guard and program counter with the two hardware loops
(R92, R100), and tensor descriptors with their walk and checks (R157 to R164). -/

namespace Sys2Proof.Machine

/-! ### Register files (R84) -/

/-- Scalar register: s0 reads as zero. -/
def Core.sreg (k : Core) (r : BitVec 5) : BitVec 64 := if r = 0 then 0 else Tab.get (fun _ => 0) k.s r.toNat

/-- Write a scalar register: writes to s0 are discarded. -/
def Core.setS (k : Core) (r : BitVec 5) (v : BitVec 64) : Core :=
  if r = 0 then k else { k with s := Tab.set (fun _ => 0) k.s r.toNat v }

/-- Address register a0 to a15: bits [3:0] of the field (R90). -/
def Core.areg (k : Core) (r : BitVec 5) : BitVec 48 := Tab.get (fun _ => 0) k.a (r.toNat % 16)
def Core.setA (k : Core) (r : BitVec 5) (v : BitVec 48) : Core :=
  { k with a := Tab.set (fun _ => 0) k.a (r.toNat % 16) v }

/-- Descriptor register d0 to d15. -/
def Core.dreg (k : Core) (r : BitVec 5) : BitVec 512 := Tab.get (fun _ => 0) k.d (r.toNat % 16)
def Core.setD (k : Core) (r : BitVec 5) (v : BitVec 512) : Core :=
  { k with d := Tab.set (fun _ => 0) k.d (r.toNat % 16) v }

/-- Predicate p0 to p7: p0 reads as 1. -/
def Core.preg (k : Core) (r : Nat) : Bool := r % 8 == 0 || k.p.getLsbD (r % 8)

/-- Write a predicate: writes to p0 are discarded. -/
def Core.setP (k : Core) (r : Nat) (b : Bool) : Core :=
  if r % 8 = 0 then k
  else { k with p := if b then k.p ||| (1#8 <<< (r % 8)) else k.p &&& ~~~(1#8 <<< (r % 8)) }

/-- Accumulator acc0 to acc7. -/
def Core.accreg (k : Core) (r : Nat) : Acc := Tab.get (fun _ => {}) k.acc (r % 8)
def Core.setAcc (k : Core) (r : Nat) (v : Acc) : Core := { k with acc := Tab.set (fun _ => {}) k.acc (r % 8) v }

/-- Outstanding count of tag t0 to t15 (R94). -/
def Core.tag (k : Core) (t : BitVec 4) : BitVec 8 := Tab.get (fun _ => 0) k.tags t.toNat
def Core.tagAdd (k : Core) (t : BitVec 4) : Core :=
  { k with tags := Tab.set (fun _ => 0) k.tags t.toNat (k.tag t + 1) }

/-- An operation on a tag completes: the count drops, its flag word is collected and its scalar kept (R94, R106). -/
def Core.tagDone (k : Core) (t : BitVec 4) (flags : Nat) (scalar : Option (BitVec 64)) : Core :=
  { k with
    tags := Tab.set (fun _ => 0) k.tags t.toNat (k.tag t - 1),
    tagFlags := Tab.set (fun _ => 0) k.tagFlags t.toNat (Tab.get (fun _ => 0) k.tagFlags t.toNat ||| BitVec.ofNat 64 flags),
    tagScalar := match scalar with
      | some v => Tab.set (fun _ => 0) k.tagScalar t.toNat v
      | none => k.tagScalar }

/-- IMM sign-extended to 64 bits (Table 03-5). -/
def imm64 (i : Ins) : BitVec 64 := i.imm.signExtend 64
/-- The tag of an asynchronous instruction: SC[3:0]. -/
def tagOf (i : Ins) : BitVec 4 := i.sc.setWidth 4

/-- [aA + imm], modulo 2^48 (R98). -/
def Core.effAddr (k : Core) (i : Ins) : Nat := (k.areg i.sa + i.imm.signExtend 48).toNat

/-- The guard p[PRED] XOR PNEG (R92). -/
def Core.guardOk (k : Core) (i : Ins) : Bool := k.preg i.pred.toNat != i.pneg

/-! ### Program counter (R99, R100) -/

/-- Where sequential execution goes after index `x`: back to the start of a loop body that ends at `x` and has passes
left, else to `x + 1` with the finished loops inactive. DESIGN CHOICE (log 26): while the inner loop is active the outer one is not looked at but at
an end that both share, so a body that runs past the enclosing one's end neither repeats nor ends that. -/
def Core.seqNext (k : Core) (x : Nat) : Core × Nat :=
  let outer (k : Core) : Core × Nat :=
    match k.lc0 with
    | some l =>
      if k.lc1.isNone ∧ l.last.toNat = x then
        (if 1 < l.count.toNat then ({ k with lc0 := some { l with count := l.count - 1 } }, l.start.toNat)
         else ({ k with lc0 := none }, x + 1))
      else (k, x + 1)
    | none => (k, x + 1)
  match k.lc1 with
  | some l =>
    if l.last.toNat = x then
      (if 1 < l.count.toNat then ({ k with lc1 := some { l with count := l.count - 1 } }, l.start.toNat)
       else outer { k with lc1 := none })
    else (k, x + 1)
  | none => outer k

/-- Advance sequentially from index `x`; running past the last instruction records fault 0x08 and stops the core (R100). -/
def State.advanceFrom (s : State) (c op x : Nat) : State :=
  let r := (s.core c).seqNext x
  if r.2 < r.1.codeLen then s.setCore c { r.1 with pc := BitVec.ofNat 14 r.2 }
  else (s.setCore c { r.1 with mode := .faulted }).recordFaultOpen c 8 (s.core c).pc.toNat op 1

/-- Advance past the instruction at the PC. -/
def State.advance (s : State) (c op : Nat) : State := s.advanceFrom c op (s.core c).pc.toNat

/-- A loop whose body does not hold the index ends when a branch is taken to it (R100). -/
def loopKeep (l : Option LoopReg) (x : Nat) : Option LoopReg :=
  l.bind (fun r => if r.start.toNat ≤ x ∧ x ≤ r.last.toNat then some r else none)

/-- A taken branch, CALL or JR to index `x` inside the code region. It ends the innermost loop whose body does not hold `x` (R100); a target
outside both active bodies ends both (log 26). -/
def Core.jumpTo (k : Core) (x : Nat) : Core :=
  let l1 := loopKeep k.lc1 x
  { k with pc := BitVec.ofNat 14 x, lc1 := l1, lc0 := if l1.isSome then k.lc0 else loopKeep k.lc0 x }

/-! ### Issue of an instruction (R91 to R94, R97) -/

/-- Where the core fetches the instruction at its PC (R87). -/
def fetchAddr (c : Nat) (k : Core) : Nat := slateBase c + 8 * k.pc.toNat

/-- The core is able to issue: RUNNING and not held by an instruction that waits. -/
def Core.ready (k : Core) : Bool := k.mode == .running && k.stall.isNone && !k.resetting

/-- A core's turn: a core that cannot issue does nothing; a code word that fails its ECC records fault 0x01 with an opcode
nothing can read (log 4), and one with a single-bit error is corrected and counted (R210); a false guard only takes the issue slot (R92);
otherwise the instruction has its effect. -/
def issue (c op : Nat) (i : Ins) (eff : State → State) (s : State) : State :=
  let k := s.core c
  if c < 2000 ∧ k.ready then
    (if s.bad.contains (fetchAddr c k) then
      (((s.modCore c (fun k => { k with mode := .faulted })).recordFault c 1 k.pc.toNat s.freshWord.toNat (fetchAddr c k) 1).noteErr
        (fieldOfCore c) (fetchAddr c k) .word).burn
     else
       let s := if s.ce.contains (fetchAddr c k) then s.correctedWord (fetchAddr c k) else s
       if k.guardOk i then eff s else s.advance c op)
  else s

/-- An instruction that only changes its core and goes on. -/
def issueK (c op : Nat) (i : Ins) (g : Core → Core) (s : State) : State :=
  issue c op i (fun s => (s.modCore c g).advance c op) s

/-! ### Tensor descriptors (Table 05-1) -/

/-- A descriptor with its fields read. -/
structure Desc where
  base : Nat
  fmt  : Nat
  d0 : Nat
  d1 : Nat
  d2 : Nat
  d3 : Nat
  s1 : Nat
  s2 : Nat
  s3 : Nat
  aux : Nat
  auxkind : Nat
  scale : Nat
  zp : Nat
  shift : Nat
  flagoff : Nat
  histoff : Nat
  idxbase : Nat
  tensor : Nat
  rsv : Bool             -- every reserved bit is zero
  deriving DecidableEq, Repr

/-- Read Table 05-1. -/
def descOf (b : BitVec 512) : Desc :=
  let x := b.toNat
  { base := bits x 47 0, fmt := bits x 51 48, d0 := bits x 87 64, d1 := bits x 111 88, d2 := bits x 127 112,
    d3 := bits x 143 128, s1 := bits x 175 144, s2 := bits x 223 192, s3 := bits x 255 224, aux := bits x 303 256,
    auxkind := bits x 307 304, scale := bits x 351 320, zp := bits x 359 352, shift := bits x 365 360,
    flagoff := bits x 402 384, histoff := bits x 421 403, idxbase := bits x 487 448, tensor := bits x 503 488,
    rsv := bits x 63 52 == 0 && bits x 191 176 == 0 && bits x 319 308 == 0 && bits x 383 366 == 0 &&
      bits x 447 422 == 0 && bits x 511 504 == 0 }

/-- Element size in nibbles (Table 05-2); 0 for a reserved code. -/
def fmtNib (f : Nat) : Nat :=
  match f with
  | 0 => 4 | 1 => 4 | 2 => 2 | 3 => 2 | 4 => 1 | 5 => 2 | 6 => 1 | 7 => 8 | 8 => 8 | 9 => 16 | 10 => 2 | 11 => 6
  | 12 => 2 | _ => 0

def Desc.rows (d : Desc) : Nat := d.d1 * d.d2 * d.d3
/-- Number of elements. -/
def Desc.count (d : Desc) : Nat := d.d0 * d.rows
/-- Bytes of a row. -/
def Desc.rowBytes (d : Desc) : Nat := (d.d0 * fmtNib d.fmt + 1) / 2
/-- Address of the first byte of row `r`, rows in visiting order (R162). -/
def Desc.rowAddr (d : Desc) (r : Nat) : Nat :=
  d.base + r % d.d1 * d.s1 + r / d.d1 % d.d2 * d.s2 + r / d.d1 / d.d2 * d.s3
/-- Address of element `k` in visiting order, and whether it is the high nibble (R160). -/
def Desc.elemAddr (d : Desc) (k : Nat) : Nat × Bool :=
  let n := k % d.d0 * fmtNib d.fmt
  (d.rowAddr (k / d.d0) + n / 2, n % 2 == 1)
/-- Linear index of element `k` (R160). -/
def Desc.index (d : Desc) (k : Nat) : Nat := d.idxbase + k

/-- Bytes of the auxiliary array (Table 05-3). -/
def Desc.auxBytes (d : Desc) : Nat :=
  match d.auxkind with
  | 1 => d.rows * (d.d0 / 32)
  | 2 => 8 * d.rows
  | 4 => if d.rows = 0 then 0 else 8 * d.d0
  | _ => 0

/-- Bits of element `k`. -/
def Desc.raw (m : Memory) (d : Desc) (k : Nat) : Nat :=
  let a := d.elemAddr k
  if fmtNib d.fmt = 1 then (let b := (Memory.read m a.1).toNat; if a.2 then b / 16 else b % 16)
  else ofLe (Memory.readN m a.1 (fmtNib d.fmt / 2))

/-- Write the bits of element `k`. -/
def Desc.put (d : Desc) (m : Memory) (k v : Nat) : Memory :=
  let a := d.elemAddr k
  if fmtNib d.fmt = 1 then
    let b := (Memory.read m a.1).toNat
    Memory.write m a.1 (BitVec.ofNat 8 (if a.2 then b % 16 + v % 16 * 16 else b / 16 * 16 + v % 16))
  else Memory.writeN m a.1 (leBytes (fmtNib d.fmt / 2) v)

/-- An integer format (R442). -/
def fmtInt (f : Nat) : Bool := f == 5 || f == 6 || f == 8 || f == 10
/-- Range of an integer format. -/
def intRange (f : Nat) : Int × Int :=
  match f with
  | 5 => (-128, 127) | 6 => (-8, 7) | 10 => (0, 255) | _ => (-2147483648, 2147483647)

/-- Integer value of the bits of an integer format. -/
def intOf (f x : Nat) : Int :=
  match f with
  | 5 => signedOf 8 x | 6 => signedOf 4 x | 10 => ((x % 256 : Nat) : Int) | _ => signedOf 32 x

/-- Value of the bits of a format; a MXFP4 element without its block scale. -/
def valOf (f x : Nat) : Fv :=
  match f with
  | 0 => fpBF16.decode x | 1 => fpFP16.decode x | 2 => fpE4M3.decode x | 3 => fpE5M2.decode x | 4 => fpE2M1.decode x
  | 7 => fpFP32.decode x | 9 => fpFP64.decode x | 11 => fpBF24.decode x | 12 => e8m0Of x
  | _ => Fv.ofInt (intOf f x)

/-- Block-scale byte of element `k` (R159). -/
def Desc.blockScale (m : Memory) (d : Desc) (k : Nat) : Nat := (Memory.read m (d.aux + k / 32)).toNat

/-- Value of element `k`; a MXFP4 element is multiplied by its block scale, 0xFF giving NaN (R126, Table 04-2). -/
def Desc.val (m : Memory) (d : Desc) (k : Nat) : Fv :=
  let v := valOf d.fmt (d.raw m k)
  if d.fmt = 4 then (let e := d.blockScale m k; if e = 255 then .nan else v.scale ((e : Int) - 127)) else v

/-- Integer value of element `k`. -/
def Desc.int (m : Memory) (d : Desc) (k : Nat) : Int := intOf d.fmt (d.raw m k)

/-- The record that applies to element `k` (R159): SCALE, ZP and SHIFT as 64 bits. -/
def Desc.record (m : Memory) (d : Desc) (k : Nat) : Nat :=
  match d.auxkind with
  | 2 => ofLe (Memory.readN m (d.aux + 8 * (k / d.d0)) 8)
  | 4 => ofLe (Memory.readN m (d.aux + 8 * (k % d.d0)) 8)
  | _ => d.scale + d.zp * 2 ^ 32 + d.shift * 2 ^ 40

/-- The ranges of bytes a tensor covers, row by row. -/
def Desc.ranges (d : Desc) : List (Nat × Nat) :=
  if d.count = 0 then [] else (List.range d.rows).map (fun r => (d.rowAddr r, d.rowBytes))

/-- The ranges of bytes an operand reads: its elements and its auxiliary array. -/
def Desc.readRanges (d : Desc) : List (Nat × Nat) := if d.count = 0 then [] else d.ranges ++ [(d.aux, d.auxBytes)]

/-- [a, a + n) lies in one of the two windows of core `c` (R101, R154). -/
def inWindow (c a n : Nat) : Bool :=
  (decide (slateBase c ≤ a) && decide (a + n ≤ slateBase c + 0x80000)) ||
  (decide (deskBase c ≤ a) && decide (a + n ≤ deskBase c + 0x800000))

/-- A destination may address a byte twice (R161). -/
def Desc.overlaps (d : Desc) : Bool :=
  let p0 := d.rowBytes
  let p1 := if 1 < d.d1 then (d.d1 - 1) * d.s1 + p0 else p0
  let p2 := if 1 < d.d2 then (d.d2 - 1) * d.s2 + p1 else p1
  (decide (1 < d.d1) && decide (d.s1 < p0)) || (decide (1 < d.d2) && decide (d.s2 < p1)) ||
  (decide (1 < d.d3) && decide (d.s3 < p2))

/-- The checks of R161 that do not name windows: format, auxiliary kind, reserved fields, alignment, strides, index limit. -/
def Desc.legal (d : Desc) (fmts kinds : List Nat) (dest : Bool) : Bool :=
  d.rsv && fmts.contains d.fmt && kinds.contains d.auxkind && decide (d.auxkind < 5) && decide (fmtNib d.fmt ≠ 0) &&
  (if d.fmt = 4 then d.auxkind == 1 && d.d0 % 32 == 0 else true) &&
  (if fmtNib d.fmt = 4 ∨ fmtNib d.fmt = 8 ∨ fmtNib d.fmt = 16 then d.base % (fmtNib d.fmt / 2) == 0 else true) &&
  (if fmtNib d.fmt = 1 then d.d0 % 2 == 0
   else d.s1 % (fmtNib d.fmt / 2) == 0 && d.s2 % (fmtNib d.fmt / 2) == 0 && d.s3 % (fmtNib d.fmt / 2) == 0) &&
  d.flagoff % 8 == 0 && (d.flagoff == 0 || decide (d.flagoff + 8 ≤ 0x80000)) &&
  d.histoff % 64 == 0 && (d.histoff == 0 || decide (d.histoff + 1024 ≤ 0x80000)) &&
  (d.count == 0 || decide (d.idxbase + d.count ≤ 2 ^ 40)) &&
  (!dest || !d.overlaps)

/-- Every byte of the tensor and of its auxiliary array lies in the windows of core `c`. -/
def Desc.inWindows (d : Desc) (c : Nat) : Bool :=
  d.count == 0 || (d.ranges.all (fun r => inWindow c r.1 r.2) && (d.auxBytes == 0 || inWindow c d.aux d.auxBytes))

/-- R161 for one descriptor of an operation of core `c`. -/
def Desc.ok (d : Desc) (c : Nat) (fmts kinds : List Nat) (dest : Bool) : Bool :=
  d.legal fmts kinds dest && d.inWindows c

def allFmts : List Nat := [0, 1, 2, 3, 4, 5, 6, 7, 8, 9, 10, 11, 12]
def allKinds : List Nat := [0, 1, 2, 3, 4]
def fltFmts : List Nat := [0, 1, 2, 3, 4, 7, 11]
def intFmts : List Nat := [5, 6, 8]

/-- First failing byte of a tensor read: elements, then the auxiliary array. -/
def State.tensorErr (s : State) (c : Nat) (d : Desc) : Option (Nat × MemErr) :=
  let fs := s.seatFields (fieldOfCore c)
  let rd (r : Nat × Nat) : Option (Nat × MemErr) := firstErr (s.readErr fs) r.1 r.2
  (d.ranges.findSome? rd) <|> (if d.count = 0 then none else rd (d.aux, d.auxBytes))

/-- First failing byte of the writes of ranges. -/
def State.rangesErr (s : State) (c : Nat) (l : List (Nat × Nat)) : Option (Nat × MemErr) :=
  let fs := s.seatFields (fieldOfCore c)
  l.findSome? (fun r => firstErr (s.writeErr fs r.1 r.2) r.1 r.2)

/-- Ranges that have passed their checks take their bytes from `m`: what they cover in part has been read first (R210, R222). -/
def State.landRanges (s : State) (m : Memory) (l : List (Nat × Nat)) : State :=
  l.foldl (fun t r => t.storeBytes r.1 (Memory.readN m r.1 r.2)) (s.noteCorrected (l.flatMap (fun r => edges r.1 r.2)))

/-- Bytes as (address, byte) pairs of ascending ranges. -/
def splitBytes : List (Nat × Nat) → List Byte → List (Nat × List Byte)
  | [], _ => []
  | r :: t, bs => (r.1, bs.take r.2) :: splitBytes t (bs.drop r.2)

/-- Store the bits `v` of every element of `d` from the list, in visiting order. Words and blocks keep their tags as a store does. -/
def State.putAll (s : State) (d : Desc) (vs : List Nat) : State :=
  let m := (vs.zipIdx).foldl (fun m p => d.put m p.2 p.1) s.mem
  s.landRanges m d.ranges

/-! ### Reductions (R164) -/

/-- Fold a row into 128 partial lanes. -/
def lanesOf {α : Type} (op : α → α → α) (id : α) (xs : List α) : List α :=
  (List.range 128).map (fun l => (((xs.zipIdx).filter (fun p => p.2 % 128 == l)).map (·.1)).foldl op id)

/-- Fold the lanes by halves. -/
def foldHalves {α : Type} (op : α → α → α) : Nat → List α → List α
  | 0, p => p
  | n + 1, p =>
    let w := p.length / 2
    foldHalves op n (List.zipWith op (p.take w) (p.drop w))

/-- reduce_row. -/
def reduceRow {α : Type} (op : α → α → α) (id : α) (xs : List α) : α :=
  (foldHalves op 7 (lanesOf op id xs)).headD id

/-- Rows of a list of elements, `n` each. -/
def chunksOf {α : Type} (n : Nat) : Nat → List α → List (List α)
  | 0, _ => []
  | k + 1, l => l.take n :: chunksOf n k (l.drop n)

/-- reduce_tensor. -/
def reduceTensor {α : Type} (op : α → α → α) (id : α) (rows : List (List α)) : α :=
  rows.foldl (fun acc r => op acc (reduceRow op id r)) id

end Sys2Proof.Machine
end

