-- ==== Sys2Proof/Machine/Flags.lean ====
section
/-! DEFINITION. Flag computations (Tables 04-6, 04-7, 05-6, 05-7): arithmetic with the flags it sets, conversion into an
element format, and the delivery of a flag word (R138, R171). -/

namespace Sys2Proof.Machine

/-- OR of flag words. -/
def orAll (l : List Nat) : Nat := l.foldl (· ||| ·) 0

/-- A NaN or an infinity is read (Table 05-7). -/
def inFlags (v : Fv) : Nat := if v.isNan then flNanIn else if v.isInf then flInfIn else 0

/-- DOMAIN where an operation on operands that are no NaN gives a NaN (Table 05-6). -/
def domain (ops : List Fv) (r : Fv) : Nat := if r.isNan && !ops.any Fv.isNan then flDomain else 0

/-- Round to FP32 with the flags of the rounding: OVF where a finite value leaves the range, UNF where a non-zero one becomes zero (Table 05-7). -/
def r32F (v : Fv) : Fv × Nat := let c := fpFP32.conv .rne v; (fpFP32.decode c.1, c.2 &&& (flOvf ||| flUnf))

/-- Addition, product and fused form in FP32, with their flags. -/
def addF (a b : Fv) : Fv × Nat := let r := r32F (Fv.add a b); (r.1, r.2 ||| domain [a, b] r.1)
def mulF (a b : Fv) : Fv × Nat := let r := r32F (Fv.mul a b); (r.1, r.2 ||| domain [a, b] r.1)
def fmaF (a b c : Fv) : Fv × Nat := let r := r32F (Fv.add (Fv.mul a b) c); (r.1, r.2 ||| domain [a, b, c] r.1)

/-- Division, correctly rounded (R168, Table 05-6). -/
def divF (a b : Fv) : Fv × Nat :=
  let r := r32F (Fv.quot a b)
  (r.1, r.2 ||| domain [a, b] r.1 ||| (if b.isZero && a.finite && !a.isZero then flDivz else 0))

/-- Square root, correctly rounded. -/
def sqrtF (a : Fv) : Fv × Nat := let r := sqrt32 a; (r, domain [a] r)

/-- A FP32 value within 1 ulp of an exact one, not infinite (R168): the value at or below it in magnitude or the next, by a free choice; one
that FP32 holds may be missed by one ulp on either side (log 9). -/
def nearUlp (x : Fv) (choice : BitVec 32) : Fv :=
  let t := (fpFP32.conv .rtz x).1
  if 0x7F800000 ≤ t % 2 ^ 31 then f32Of t
  else if x.isZero then f32Of (t + choice.toNat % 2)
  else if (Fv.sub x (f32Of t)).isZero then f32Of (t + choice.toNat % 3 - 1)
  else f32Of (t + choice.toNat % 2)

/-! ### EXP, LOG, TANH and SIGMOID to far more than FP32 precision

Values stand as whole numbers of 2^-256. The error of each function is below 2^-60 of its value. -/

/-- One, in units of 2^-256. -/
def fixOne : Int := 2 ^ 256

/-- A finite value as a fixed-point number, its magnitude held to 128: beyond it every function has left the range of FP32 or reached its limit. -/
def fixOf (v : Fv) : Int :=
  match v with
  | .fin n m e =>
    let q : Int := (if 0 ≤ e then m * 2 ^ 256 * 2 ^ (Nat.min e.toNat 256) else m * 2 ^ 256 / 2 ^ (-e).toNat : Nat)
    let q := min q (128 * fixOne)
    if n then -q else q
  | .inf n => if n then -(128 * fixOne) else 128 * fixOne
  | .nan => 0

/-- exp: Taylor's series of x / 256, squared 8 times. -/
def fixExp (x : Int) : Int :=
  let r := x / 256
  let s := (List.range 48).foldl (fun s i => fixOne + r * s / ((48 - i : Nat) * fixOne)) fixOne
  (List.range 8).foldl (fun s _ => s * s / fixOne) s

/-- atanh of a magnitude at most 1/3. -/
def fixAtanh (z : Int) : Int :=
  ((List.range 100).foldl (fun (p : Int × Int) k => (p.1 * z / fixOne * z / fixOne, p.2 + p.1 / ((2 * k + 1 : Nat) : Int))) (z, 0)).2

/-- log of m · 2^e, m not 0. -/
def fixLog (m : Nat) (e : Int) : Int :=
  let l := Nat.log2 m
  2 * fixAtanh (((m : Int) - 2 ^ l) * fixOne / ((m : Int) + 2 ^ l)) + (e + l) * (2 * fixAtanh (fixOne / 3))

/-- tanh and the sigmoid function. -/
def fixTanh (x : Int) : Int := let e := fixExp (2 * x); (e - fixOne) * fixOne / (e + fixOne)
def fixSigmoid (x : Int) : Int := let e := fixExp x; e * fixOne / (e + fixOne)

/-- A fixed-point number as a value. -/
def fixVal (x : Int) : Fv := .fin (decide (x < 0)) x.natAbs (-256)

/-- Spacing of FP32 at the value of the bits `t` of a magnitude. -/
def ulpAt (t : Nat) : Fv := .fin false 1 (((Nat.max (t / 2 ^ 23) 1 : Nat) : Int) - 150)

/-- A FP32 value within 2 ulp of a finite one, by a free choice among them (R168, log 9): infinity stands for 2^128, and the sign of a zero is
free. -/
def within2 (x : Fv) (choice : BitVec 32) : Fv :=
  let a := x.abs
  let t := (fpFP32.conv .rtz a).1
  let lim := (Fv.mul (ulpAt t) (.fin false (2 ^ 31 + 1) (-30)))
  let at' (j : Int) : Fv := if j.natAbs = 0x7F800000 then .fin false 1 128 else if j < 0 then (f32Of j.natAbs).neg else f32Of j.natAbs
  let js := ((List.range 9).map (fun i => (t : Int) + i - 4)).filter (fun j => decide (j ≤ 0x7F800000) && !Fv.lt lim (Fv.sub (at' j) a).abs)
  let j := js.getD (choice.toNat % js.length) t
  let neg := if j = 0 then bit choice.toNat 31 else decide (j < 0) != x.negative
  f32Of (j.natAbs + (if neg then 2 ^ 31 else 0))

/-- OVF where a finite value has no finite result in FP32, UNF where one that is not zero becomes zero. -/
def edgeF (x r : Fv) : Nat := (if x.finite && r.isInf then flOvf else 0) ||| (if x.finite && !x.isZero && r.isZero then flUnf else 0)

/-- The result and flags of a function of FP32 value `x` that the silicon gives within 2 ulp. -/
def fun2 (x : Fv) (choice : BitVec 32) : Fv × Nat := let r := within2 x choice; (r, edgeF x r)

/-- The result and flags of a function of FP32 value `x` that the silicon gives within 1 ulp. -/
def fun1 (x : Fv) (choice : BitVec 32) : Fv × Nat := let r := nearUlp x choice; (r, edgeF x r)

/-- The functions of R168 that are one fixed algorithm in the silicon, RSQRT and RECIP within 1 ulp, EXP, LOG, TANH and SIGMOID within 2 ulp
(log 9). -/
def rsqrtF (a : Fv) : Fv × Nat :=
  match a with
  | .nan => (.nan, 0)
  | .inf true => (.nan, flDomain)
  | .inf false => (.fin false 0 0, 0)
  | .fin n m _ =>
    if m = 0 ∧ !n then (.inf false, flDivz)
    else if m ≠ 0 ∧ n then (.nan, flDomain)
    else if m = 0 then (f32Of (Config.rsqrt32 (BitVec.ofNat 32 (f32Bits a))).toNat, 0)
    else fun1 (Fv.root (Fv.quot .one a)) (Config.rsqrt32 (BitVec.ofNat 32 (f32Bits a)))

def recipF (a : Fv) : Fv × Nat :=
  match a with
  | .nan => (.nan, 0)
  | .fin n 0 _ => (.inf n, flDivz)
  | v => fun1 (Fv.quot .one v) (Config.recip32 (BitVec.ofNat 32 (f32Bits v)))

def expF (a : Fv) : Fv × Nat :=
  match a with
  | .nan => (.nan, 0)
  | .inf true => (.fin false 0 0, 0)
  | .inf false => (.inf false, 0)
  | v => fun2 (fixVal (fixExp (fixOf v))) (Config.exp32 (BitVec.ofNat 32 (f32Bits v)))

def logF (a : Fv) : Fv × Nat :=
  match a with
  | .nan => (.nan, 0)
  | .inf true => (.nan, flDomain)
  | .fin n m e =>
    if m = 0 then (.inf true, flDivz)
    else if n then (.nan, flDomain)
    else fun2 (fixVal (if (Fv.sub a .one).isZero then 0 else fixLog m e)) (Config.log32 (BitVec.ofNat 32 (f32Bits (.fin n m e))))
  | .inf false => (f32Of (Config.log32 0x7F800000#32).toNat, 0)

def tanhF (a : Fv) : Fv × Nat :=
  match a with
  | .nan => (.nan, 0)
  | v => fun2 (fixVal (fixTanh (fixOf v))) (Config.tanh32 (BitVec.ofNat 32 (f32Bits v)))

def sigmoidF (a : Fv) : Fv × Nat :=
  match a with
  | .nan => (.nan, 0)
  | .inf true => (.fin false 0 0, 0)
  | v => fun2 (fixVal (fixSigmoid (fixOf v))) (Config.sigmoid32 (BitVec.ofNat 32 (f32Bits v)))

/-- Convert a value into an element format: its bits and flags (Table 04-6, R169, R441). -/
def convFmt (f : Nat) (md : Rnd) (v : Fv) : Nat × Nat :=
  match f with
  | 0 => fpBF16.conv md v
  | 1 => fpFP16.conv md v
  | 2 => fpE4M3.conv md v
  | 3 => fpE5M2.conv md v
  | 4 => fpE2M1.conv md v
  | 7 => fpFP32.conv md v
  | 9 => fpFP64.conv md v
  | 11 => fpBF24.conv md v
  | 12 => e8m0Conv v
  | _ =>
    let r := intRange f
    let c := intConv r.1 r.2 md v
    (wrapTo (if f = 6 then 4 else if f = 8 then 32 else 8) c.1, c.2)

/-- Saturate an integer into an integer format (R442, R176). -/
def satInt (f : Nat) (x : Int) : Nat × Nat :=
  let r := intRange f
  let c := clampInt x r.1 r.2
  (wrapTo (if f = 6 then 4 else if f = 8 then 32 else 8) c, if c = x then 0 else flOvf)

/-- The random bits of the element of linear index `idx` under a key (R178). -/
def RngKey.r16 (k : RngKey) (idx : Nat) : Nat :=
  (philoxIn k.seed.toNat k.step.toNat k.layer.toNat k.core idx).1.toNat % 65536

/-- The rounding of RND (R165) for one element. -/
def rndOf (rnd : Nat) (k : RngKey) (idx : Nat) : Rnd :=
  match rnd with
  | 1 => .stoch (k.r16 idx)
  | 2 => .rtz
  | _ => .rne

/-- Sticky array flags (R138). -/
def Core.stickMx (k : Core) (fl : Nat) : Core := { k with mxFlags := k.mxFlags ||| BitVec.ofNat 9 fl }

/-- Sticky vector flags: bits 0–3 and 9–14 (Table 05-13). -/
def Core.stickVx (k : Core) (fl : Nat) : Core := { k with vxFlags := k.vxFlags ||| (BitVec.ofNat 15 fl &&& 0x7E0F#15) }

end Sys2Proof.Machine
end

