-- ==== Sys2Proof/Machine/Mma.lean ====
section
/-! DEFINITION. What the matrix array computes (R120 to R137, R141, R142): products and their accumulation order, check
state, the ABFT comparison, and the conversion of a tile. -/

namespace Sys2Proof.Machine

/-- Fields of the MMA immediate (Table 04-3). -/
def mmaA (imm : BitVec 32) : Nat := bits imm.toNat 3 0
def mmaB (imm : BitVec 32) : Nat := bits imm.toNat 7 4
def mmaBcol (imm : BitVec 32) : Bool := bit imm.toNat 8
def mmaAcol (imm : BitVec 32) : Bool := bit imm.toNat 9
def mmaAzp (imm : BitVec 32) : Bool := bit imm.toNat 10
def mmaBzp (imm : BitVec 32) : Bool := bit imm.toNat 11
def mmaWg (imm : BitVec 32) : Bool := bit imm.toNat 12
def mmaSet (imm : BitVec 32) : Bool := bit imm.toNat 31
/-- An integer class (Table 04-4). -/
def mmaInt (imm : BitVec 32) : Bool := mmaA imm == 5 || mmaA imm == 6
/-- Class of an MMA's chain (R133). -/
def mmaCls (imm : BitVec 32) : ChainCls := if mmaInt imm then .int else .fp
/-- G of R129. -/
def mmaG (imm : BitVec 32) : Nat := if mmaA imm = 4 then 32 else if mmaA imm = 2 ∨ mmaA imm = 3 then 2 else 1
/-- Constant c_f of Table 04-9, times 8. -/
def mmaCf8 (imm : BitVec 32) : Nat :=
  match mmaA imm with
  | 2 => 12 | 3 => 12 | 4 => 9 | 5 => 0 | 6 => 0 | _ => 16
/-- Depth of an operand A. -/
def mmaDepth (imm : BitVec 32) (a : Desc) : Nat := if mmaAcol imm then a.d1 else a.d0
/-- Occupancy of the cells (Table 04-8). -/
def mmaOcc (imm : BitVec 32) (k : Nat) : Nat :=
  match mmaA imm with
  | 0 => k | 1 => k | 7 => 3 * k | 4 => k / 4 | 6 => k / 4 | _ => k / 2

/-- A zero point may be applied from this auxiliary kind (R127). -/
def zpKinds (cols : Bool) : List Nat := if cols then [4, 3] else [2, 3]

/-- The legality of an MMA that its words and descriptors decide (R127, R133, R159, R161). -/
def mmaLegal (c : Nat) (imm : BitVec 32) (a b : Desc) : Bool :=
  let fa := mmaA imm
  let fb := mmaB imm
  let k := mmaDepth imm a
  let m := if fa = 4 then 32 else 64
  let kinds (f : Nat) (zp : Bool) (cols : Bool) : List Nat := if f = 4 then [1] else if zp then zpKinds cols else [0, 2, 3, 4]
  decide (fa < 8) && (fa == fb || (fa == 2 && fb == 3) || (fa == 3 && fb == 2)) &&
  bits imm.toNat 30 13 == 0 &&
  a.ok c [fa] (kinds fa (mmaAzp imm) false) false && b.ok c [fb] (kinds fb (mmaBzp imm) (!mmaBcol imm)) false &&
  (if mmaAcol imm then a.d0 else a.d1) == 64 && (if mmaBcol imm then b.d1 else b.d0) == 64 &&
  a.d2 == 1 && a.d3 == 1 && b.d2 == 1 && b.d3 == 1 &&
  (if mmaBcol imm then b.d0 else b.d1) == k &&
  k % m == 0 && decide (0 < k) && decide (k ≤ 65536) &&
  (mmaInt imm || (!mmaAzp imm && !mmaBzp imm)) &&
  (if fa = 4 then !mmaAcol imm && mmaBcol imm else true)

/-- The chain accepts the MMA (R133). -/
def chainTakes (cls : ChainCls) (imm : BitVec 32) : Bool :=
  mmaSet imm || cls == .classless || cls == mmaCls imm

/-- Visiting position of A[i][k] and of B[k][j] in their descriptors (R132). -/
def posA (imm : BitVec 32) (a : Desc) (i k : Nat) : Nat := if mmaAcol imm then k * a.d0 + i else i * a.d0 + k
def posB (imm : BitVec 32) (b : Desc) (k j : Nat) : Nat := if mmaBcol imm then j * b.d0 + k else k * b.d0 + j

/-- Zero point of row or column `n` (R127). -/
def zpOf (m : Memory) (d : Desc) (n : Nat) : Int :=
  if d.auxkind = 3 then signedOf 8 d.zp else signedOf 8 (ofLe (Memory.readN m (d.aux + 8 * n) 8) / 2 ^ 32)

/-- Zero-point-adjusted integer operands. -/
def intA (m : Memory) (imm : BitVec 32) (a : Desc) (i k : Nat) : Int :=
  a.int m (posA imm a i k) - (if mmaAzp imm then zpOf m a i else 0)
def intB (m : Memory) (imm : BitVec 32) (b : Desc) (k j : Nat) : Int :=
  b.int m (posB imm b k j) - (if mmaBzp imm then zpOf m b j else 0)

/-- Halves of an FP32 operand (R128). -/
def splitHi (v : Fv) : Fv := if v.finite then fpBF16.decode (fpBF16.conv .rtz v).1 else v
def splitLo (v : Fv) : Fv := if v.finite then fpBF16.decode (fpBF16.conv .rne (Fv.sub v (splitHi v))).1 else .fin false 0 0

/-- The passes of an MMA: what each takes of A and of B (R128). -/
def mmaPasses (imm : BitVec 32) : List ((Fv → Fv) × (Fv → Fv)) :=
  if mmaA imm = 7 then [(splitLo, splitHi), (splitHi, splitLo), (splitHi, splitHi)] else [(id, id)]

/-- Exact sum of a list, from its first value on. -/
def sumExact : List Fv → Fv
  | [] => .fin false 0 0
  | v :: r => r.foldl Fv.add v

/-- Accumulate a depth of K in groups of G, one rounding a group (R129). -/
def dotAcc (g k : Nat) (a b : Nat → Fv) (c : Fv) : Fv :=
  (List.range (k / g)).foldl
    (fun c n => rn32 (Fv.add c (sumExact ((List.range g).map (fun x => Fv.mul (a (n * g + x)) (b (n * g + x))))))) c

/-- FP32 sum with the index ascending (R122). -/
def sum32 (f : Nat → Fv) (n : Nat) : Fv := (List.range n).foldl (fun x i => if i = 0 then rn32 (f 0) else add32 x (f i)) .zero

/-- Listed entries of a table of 32-bit words given by a function. -/
def tabOf (n : Nat) (f : Nat → BitVec 32) : Tab (BitVec 32) :=
  (List.range n).filterMap (fun i => if f i = 0 then none else some (i, f i))

def Acc.elem (x : Acc) (n : Nat) : BitVec 32 := Tab.get (fun _ => 0) x.elems n
def wordAt (t : Tab (BitVec 32)) (n : Nat) : BitVec 32 := Tab.get (fun _ => 0) t n
def fvAt (t : Tab (BitVec 32)) (n : Nat) : Fv := f32Of (wordAt t n).toNat
def w32 (v : Fv) : BitVec 32 := BitVec.ofNat 32 (f32Bits v)
def i32 (x : Int) : BitVec 32 := BitVec.ofInt 32 x

/-- One floating-point pass over the tile and its check state (R121, R122, R129). -/
def Acc.fpPass (x : Acc) (m : Memory) (imm : BitVec 32) (a b : Desc) (fa fb : Fv → Fv) : Acc :=
  let k := mmaDepth imm a
  let av (i n : Nat) : Fv := fa (a.val m (posA imm a i n))
  let bv (n j : Nat) : Fv := fb (b.val m (posB imm b n j))
  let ea (n : Nat) : Fv := sum32 (fun i => av i n) 64
  let eaM (n : Nat) : Fv := sum32 (fun i => (av i n).abs) 64
  let be (n : Nat) : Fv := sum32 (fun j => bv n j) 64
  let beM (n : Nat) : Fv := sum32 (fun j => (bv n j).abs) 64
  { x with
    elems := tabOf 4096 (fun n => w32 (dotAcc (mmaG imm) k (fun p => av (n / 64) p) (fun p => bv p (n % 64)) (f32Of (x.elem n).toNat)))
    rowS := tabOf 64 (fun j => w32 (dotAcc 1 k ea (fun p => bv p j) (fvAt x.rowS j)))
    rowM := tabOf 64 (fun j => w32 (dotAcc 1 k eaM (fun p => (bv p j).abs) (fvAt x.rowM j)))
    colS := tabOf 64 (fun i => w32 (dotAcc 1 k (fun p => av i p) be (fvAt x.colS i)))
    colM := tabOf 64 (fun i => w32 (dotAcc 1 k (fun p => (av i p).abs) beM (fvAt x.colM i))) }

/-- Integer dot product. -/
def dotInt (k : Nat) (a b : Nat → Int) (c : Int) : Int := (List.range k).foldl (fun c n => c + a n * b n) c

/-- An integer MMA over the tile and its check state (R122, R131). -/
def Acc.intPass (x : Acc) (m : Memory) (imm : BitVec 32) (a b : Desc) : Acc :=
  let k := mmaDepth imm a
  let ai := intA m imm a
  let bi := intB m imm b
  let ea (n : Nat) : Int := ((List.range 64).map (fun i => ai i n)).sum
  let eaM (n : Nat) : Int := ((List.range 64).map (fun i => ((ai i n).natAbs : Int))).sum
  let be (n : Nat) : Int := ((List.range 64).map (fun j => bi n j)).sum
  let beM (n : Nat) : Int := ((List.range 64).map (fun j => ((bi n j).natAbs : Int))).sum
  let mag (v : Int) : Fv := Fv.ofInt v
  { x with
    elems := tabOf 4096 (fun n => i32 (dotInt k (fun p => ai (n / 64) p) (fun p => bi p (n % 64)) (x.elem n).toInt))
    rowS := tabOf 64 (fun j => i32 (dotInt k ea (fun p => bi p j) (wordAt x.rowS j).toInt))
    rowM := tabOf 64 (fun j => w32 (dotAcc 1 k (fun p => mag (eaM p)) (fun p => mag (bi p j).natAbs) (fvAt x.rowM j)))
    colS := tabOf 64 (fun i => i32 (dotInt k (fun p => ai i p) be (wordAt x.colS i).toInt))
    colM := tabOf 64 (fun i => w32 (dotAcc 1 k (fun p => mag (ai i p).natAbs) (fun p => mag (beM p)) (fvAt x.colM i))) }

/-- An accumulator and its check state at +0 (R123). -/
def Acc.zeroed : Acc := {}

/-- Append to the recorded chain; up to 16 entries are recorded, one more marks a chain that is too long (R146). -/
def chainAdd (l : List ChainEntry) (e : ChainEntry) : List ChainEntry := if l.length ≤ 16 then l ++ [e] else l

/-- MMA on an accumulator (R121, R123, R133); c_f is the largest of the chain's MMAs (R142). -/
def Acc.mma (x : Acc) (m : Memory) (a b : BitVec 512) (imm : BitVec 32) : Acc :=
  let x0 : Acc := if mmaSet imm then { chain := [] } else x
  let da := descOf a
  let db := descOf b
  let y := if mmaInt imm then x0.intPass m imm da db
           else (mmaPasses imm).foldl (fun x p => x.fpPass m imm da db p.1 p.2) x0
  { y with cls := mmaCls imm, cf8 := if x0.depth = 0 then mmaCf8 imm else Nat.max x0.cf8 (mmaCf8 imm),
           depth := x0.depth + (if mmaA imm = 7 then 3 else 1) * mmaDepth imm da,
           chain := chainAdd x0.chain (.mma a b imm) }

/-- An FP32 word as the array writes it into an accumulator: every NaN is the canonical one (R130). -/
def canon32 (w : BitVec 32) : BitVec 32 :=
  match f32Of w.toNat with
  | .nan => 0x7FC00000#32
  | _ => w

/-- MXLD: the tile from memory with its check state derived (R123). DESIGN CHOICE (log 23): the sums of an INT32 tile are formed modulo 2^32, as R142
compares them, and only its magnitudes in FP32. -/
def Acc.load (m : Memory) (a : BitVec 512) : Acc :=
  let d := descOf a
  let e (n : Nat) : BitVec 32 := if d.fmt = 8 then BitVec.ofNat 32 (d.raw m n) else canon32 (BitVec.ofNat 32 (d.raw m n))
  if d.fmt = 8 then
    let z (n : Nat) : Int := (e n).toInt
    { elems := tabOf 4096 e, cls := .int,
      rowS := tabOf 64 (fun j => i32 ((List.range 64).map (fun i => z (64 * i + j))).sum),
      colS := tabOf 64 (fun i => i32 ((List.range 64).map (fun j => z (64 * i + j))).sum),
      rowM := tabOf 64 (fun j => w32 (sum32 (fun i => Fv.ofInt (z (64 * i + j)).natAbs) 64)),
      colM := tabOf 64 (fun i => w32 (sum32 (fun j => Fv.ofInt (z (64 * i + j)).natAbs) 64)),
      chain := [.load a] }
  else
    let v (n : Nat) : Fv := f32Of (e n).toNat
    { elems := tabOf 4096 e, cls := .fp, cf8 := 16,
      rowS := tabOf 64 (fun j => w32 (sum32 (fun i => v (64 * i + j)) 64)),
      colS := tabOf 64 (fun i => w32 (sum32 (fun j => v (64 * i + j)) 64)),
      rowM := tabOf 64 (fun j => w32 (sum32 (fun i => (v (64 * i + j)).abs) 64)),
      colM := tabOf 64 (fun i => w32 (sum32 (fun j => (v (64 * i + j)).abs) 64)),
      chain := [.load a] }

/-- One entry of a recorded chain run again. -/
def Acc.rerun (m : Memory) (x : Acc) (e : ChainEntry) : Acc :=
  match e with
  | .zero => {}
  | .load a => Acc.load m a
  | .mma a b imm => x.mma m a b imm

/-- Run a recorded chain again (R143). -/
def Acc.replay (m : Memory) (chain : List ChainEntry) : Acc := chain.foldl (Acc.rerun m) {}

/-- Faults of the cells: masks on elements (log 2). -/
def Acc.disturbed (x : Acc) (l : List (Nat × BitVec 32)) : Acc :=
  { x with elems := l.foldl (fun t p => Tab.set (fun _ => 0) t (p.1 % 4096) (wordAt t (p.1 % 4096) ^^^ p.2)) x.elems }

/-! ### The ABFT comparison (R141, R142) -/

/-- Outcome of one row or column: not checked, agrees, or mismatches with its ratio. -/
inductive AbftLine where
  | skip
  | agree
  | miss (ratio : BitVec 32)
  deriving DecidableEq, Repr

/-- τ = c_f · 2^-24 · k · M, with M at least 2^-125, exactly. -/
def tau (cf8 k : Nat) (mag : Fv) : Fv :=
  let m := if Fv.lt mag (.fin false 1 (-125)) then .fin false 1 (-125) else mag
  Fv.mul (.fin false (cf8 * k) (-27)) m

/-- Compare one floating-point row or column. -/
def fpLine (cf8 k : Nat) (s p mag : Fv) : AbftLine :=
  if !s.finite || !p.finite || !mag.finite then .skip
  else
    let d := (Fv.sub s p).abs
    let t := tau cf8 k mag
    if Fv.lt t d then .miss (BitVec.ofNat 32 (f32Bits (Fv.quot d t))) else .agree

/-- Compare one integer row or column: an infinite magnitude is not compared away, the sums are exact (R141). -/
def intLine (s : Int) (p : BitVec 32) : AbftLine := if i32 s = p then .agree else .miss 0x7F800000#32

/-- Sum of 64 values in FP64, in order (R141). -/
def sum64 (f : Nat → Fv) : Fv := (List.range 64).foldl (fun x i => if i = 0 then rn64 (f 0) else add64 x (f i)) .zero

/-- Outcome of column `j`, and of row `i`. -/
def Acc.colLine (x : Acc) (j : Nat) : AbftLine :=
  match x.cls with
  | .classless => .agree
  | .int => intLine ((List.range 64).map (fun i => (x.elem (64 * i + j)).toInt)).sum (wordAt x.rowS j)
  | .fp => fpLine x.cf8 (x.depth + 64) (sum64 (fun i => f32Of (x.elem (64 * i + j)).toNat)) (fvAt x.rowS j) (fvAt x.rowM j)

def Acc.rowLine (x : Acc) (i : Nat) : AbftLine :=
  match x.cls with
  | .classless => .agree
  | .int => intLine ((List.range 64).map (fun j => (x.elem (64 * i + j)).toInt)).sum (wordAt x.colS i)
  | .fp => fpLine x.cf8 (x.depth + 64) (sum64 (fun j => f32Of (x.elem (64 * i + j)).toNat)) (fvAt x.colS i) (fvAt x.colM i)

/-- First mismatch of 64 lines: index and ratio. -/
def firstMiss (f : Nat → AbftLine) : Option (Nat × BitVec 32) :=
  (List.range 64).findSome? (fun n => match f n with
    | .miss r => some (n, r)
    | _ => none)

/-- The check of a tile: the first failing column, or row if no column failed: (is a row, index, ratio) (R147). -/
def Acc.check (x : Acc) : Option (Bool × Nat × BitVec 32) :=
  match firstMiss x.colLine with
  | some r => some (false, r.1, r.2)
  | none =>
    match firstMiss x.rowLine with
    | some r => some (true, r.1, r.2)
    | none => none

/-- Some row or column was not checked (SKIP). -/
def Acc.skips (x : Acc) : Bool :=
  (List.range 64).any (fun n => x.colLine n == .skip || x.rowLine n == .skip)

/-- A magnitude of an integer chain exceeds 2^31 − 1 (IWRAP, R131). -/
def Acc.wraps (x : Acc) : Bool :=
  x.cls == .int && (List.range 64).any (fun n =>
    Fv.lt (.fin false 2147483647 0) (fvAt x.rowM n) || Fv.lt (.fin false 2147483647 0) (fvAt x.colM n))

/-! ### MXST (R134 to R137) -/

def mxstFmt (imm : BitVec 32) : Nat := bits imm.toNat 3 0
def mxstRnd (imm : BitVec 32) : Nat := bits imm.toNat 5 4
def mxstTrans (imm : BitVec 32) : Bool := bit imm.toNat 6
def mxstOscale (imm : BitVec 32) : Bool := bit imm.toNat 7
def mxstSq (imm : BitVec 32) : Bool := bit imm.toNat 8

/-- Descriptor format of a DFMT code (Table 04-5). -/
def dfmtCode (d : Nat) : Nat :=
  match d with
  | 0 => 7 | 1 => 0 | 2 => 1 | 3 => 2 | 4 => 3 | 5 => 8 | _ => 15

/-- Legality of an MXST (R134, R161). -/
def mxstLegal (c : Nat) (imm : BitVec 32) (d : Desc) (cls : ChainCls) : Bool :=
  let f := mxstFmt imm
  decide (f < 6) && decide (mxstRnd imm < 2) && bits imm.toNat 31 9 == 0 &&
  (match cls with
   | .classless => true
   | .int => f == 5
   | .fp => f != 5) &&
  (if f = 0 ∨ f = 5 then mxstRnd imm == 0 else true) &&
  (if f = 5 then !mxstOscale imm && !mxstSq imm else true) &&
  d.ok c [dfmtCode f] [0, 2, 3, 4] true && d.d0 == 64 && d.d1 == 64 && d.d2 == 1 && d.d3 == 1

/-- Source element of destination element `n`: transposed under TRANS. -/
def mxstSrc (imm : BitVec 32) (n : Nat) : Nat := if mxstTrans imm then 64 * (n % 64) + n / 64 else n

/-- Value, bits and flags of destination element `n` (R135, R136). -/
def Acc.outElem (x : Acc) (imm : BitVec 32) (oscale : BitVec 32) (key : RngKey) (d : Desc) (n : Nat) : Nat × Nat :=
  let e := x.elem (mxstSrc imm n)
  if mxstFmt imm = 5 then (e.toNat, 0)
  else
    let v := f32Of e.toNat
    let w := if mxstOscale imm then Fv.mul v (f32Of oscale.toNat) else v
    convFmt (dfmtCode (mxstFmt imm)) (rndOf (mxstRnd imm) key (d.index n)) w

end Sys2Proof.Machine
end

