-- ==== Sys2Proof/Machine/Images.lean ====
section
/-! DEFINITION. Reading a firmware manifest and a token at their stated offsets (R404, R406, R410, Tables 14-3 and 14-4). -/

namespace Sys2Proof

open Machine in
/-- `n` bytes of a manifest from an offset, as a number. -/
def Manifest.num (m : Manifest) (o n : Nat) : Nat := ofLe ((m.bytes.drop o).take n)

/-- MAGIC and FORMAT are as Table 14-3 gives them, in a manifest of its length. -/
def Manifest.magicOk (m : Manifest) : Bool := m.bytes.length == 5445 && m.num 0 4 == 0x4E415A53 && m.num 4 2 == 1

/-- FLAGS [7:1] and the seven reserved bytes are zero. -/
def Manifest.reservedOk (m : Manifest) : Bool := decide (m.num 7 1 < 2) && m.num 9 7 == 0

def Manifest.stepping (m : Manifest) : BitVec 8 := BitVec.ofNat 8 (m.num 6 1)
def Manifest.commit (m : Manifest) : Bool := m.num 7 1 % 2 == 1
def Manifest.svn (m : Manifest) : Nat := m.num 8 1
def Manifest.imageLen (m : Manifest) : Nat := m.num 0x10 8
def Manifest.imageDigest (m : Manifest) : BitVec 384 := BitVec.ofNat 384 (m.num 0x28 48)

/-- SHA-384 of ED_PUB ‖ MLDSA_PUB (R405). -/
def Manifest.keyDigest (m : Manifest) : BitVec 384 := Config.sha384 ((m.bytes.drop 0x58).take 1984)

/-- FW_DIGEST: SHA-384 of the whole manifest (R406). -/
def Manifest.fwDigest (m : Manifest) : BitVec 384 := Config.sha384 m.bytes

open Machine in
/-- `n` bytes of a token from an offset, as a number. -/
def Token.num (t : Token) (o n : Nat) : Nat := ofLe ((t.bytes.drop o).take n)

def Token.kind (t : Token) : BitVec 8 := BitVec.ofNat 8 (t.num 6 1)
def Token.signer (t : Token) : BitVec 8 := BitVec.ofNat 8 (t.num 7 1)
def Token.serial (t : Token) : BitVec 128 := BitVec.ofNat 128 (t.num 8 16)
def Token.challenge (t : Token) : BitVec 256 := BitVec.ofNat 256 (t.num 0x18 32)
def Token.ownerGen (t : Token) : BitVec 32 := BitVec.ofNat 32 (t.num 0x38 4)
def Token.duration (t : Token) : Nat := t.num 0x3C 4

/-- Both owner keys, OWNER_ED ‖ OWNER_MLDSA. -/
def Token.ownerKeys (t : Token) : List Byte := (t.bytes.drop 0x40).take 1984

/-- SHA-384 of the owner keys that a token names (Table 14-5). -/
def Token.keyHash (t : Token) : BitVec 384 := Config.sha384 t.ownerKeys

/-- Length, MAGIC and FORMAT are as R410 gives them, and OWNER_GEN and the keys are zero outside kinds 1 and 5. -/
def Token.formatOk (t : Token) : Bool :=
  t.bytes.length == 5421 && t.num 0 4 == 0x4B545A53 && t.num 4 2 == 1 &&
    (t.kind == 1 || t.kind == 5 || t.ownerGen == 0 && t.ownerKeys.all (fun b => b == 0))

end Sys2Proof
end

