-- ==== Sys2Proof/Machine/Regs.lean ====
section
/-! DEFINITION. The register map (R11, R81, R153, R181, R243, R244, R277, R308, R330, R359, R380, R399, R424, R440): what
each control register reads as. A register stored once per seat, link or module is computed here for every address. -/

namespace Sys2Proof.Machine

/-- A register as a word. -/
def reg (v : Nat) : Option (BitVec 64) := some (BitVec.ofNat 64 v)

/-- Which register an address names: block, unit, offset. `none`: no register block or not 8-byte aligned (R11). -/
structure RegAddr where
  block : Nat
  ix    : Nat
  off   : Nat
  deriving DecidableEq, Repr

/-- Decode a control register address; blocks are numbered 1 (TT) to 11 (PW) as their base addresses are. -/
def regAddr (a : Nat) : Option RegAddr :=
  let b := a / 0x1000000000
  let r := a % 0x1000000000
  if a % 8 ≠ 0 then none
  else if b = 0xF02 ∨ b = 0xF03 then
    (if r / 0x1000 < 2000 then some ⟨b - 0xF00, r / 0x1000, r % 0x1000⟩ else none)
  else if b = 0xF07 then (if r / 0x10000 < 24 then some ⟨7, r / 0x10000, r % 0x10000⟩ else none)
  else if b = 0xF0A ∨ b = 0xF0B then some ⟨b - 0xF00, 0, r⟩
  else if b = 0xF09 ∧ r / 0x1000000 = 15 then some ⟨9, 15, r % 0x1000000⟩
  else if 0xF01 ≤ b ∧ b ≤ 0xF09 ∧ r / 0x1000000 < 4 then some ⟨b - 0xF00, r / 0x1000000, r % 0x1000000⟩
  else none

/-- The register is an event counter (Table 12-1). -/
def RegAddr.isCounter (r : RegAddr) : Bool :=
  match r.block with
  | 1 => r.off == 0x50
  | 2 => r.off == 0x28 || r.off == 0x30 || r.off == 0x38 || r.off == 0x40
  | 3 => r.off == 0x30 || r.off == 0x38
  | 4 => r.off == 0x20 || r.off == 0x28 || r.off == 0x30 || r.off == 0x38
  | 5 => r.off == 0x18 || r.off == 0x140 || r.off == 0x148
  | 6 => r.off == 0x60 || r.off == 0x68 || r.off == 0x70
  | 7 => r.off == 0x28 || r.off == 0x30 || r.off == 0x38 || r.off == 0x40 || r.off == 0x48 || r.off == 0x58 ||
      (decide (0x108 ≤ r.off) && decide (r.off ≤ 0x188) && r.off % 16 == 8)
  | 8 => r.off == 0x30 || r.off == 0x38 || r.off == 0x40 || r.off == 0x48 || r.off == 0x58
  | 9 => r.off == 0x30 || r.off == 0x38 || r.off == 0x40 || r.off == 0x48 || r.off == 0x50
  | 10 => r.off == 0x50
  | 11 => r.off == 0x40 || r.off == 0x48
  | _ => false

/-- Address at which a counter is kept: PR_VLOG_DROP and PR_SEALED_COUNT belong to the partition (R359, R399). -/
def State.counterHome (s : State) (r : RegAddr) (a : Nat) : Nat :=
  if r.block = 8 ∧ (r.off = 0x30 ∨ r.off = 0x58) then prBase (s.seatIx r.ix) + r.off else a

/-- A counter register: COUNT and SAT. -/
def Counter.word (k : Counter) : Nat := k.count.toNat + fieldAt (b2n k.sat) 32

/-- The buddy of a core (R145). -/
def buddyOf (c : Nat) : Nat := 500 * (c / 500) + (c % 500 + 250) % 500

/-- Score of a card (R365). -/
def Card.score (k : Card) : Nat := k.d.toNat / 256 + k.level

/-- Deepest remedy step applied. -/
def Card.step (k : Card) : Nat := k.steps.foldl Nat.max 0

/-- Clean periods of a card (R366). -/
def Card.clean (k : Card) (h : Hm) : Nat := ((h.periods : Int) - k.dirty).toNat

/-- Probation has completed: the unit has served 1,000,000 clean periods (R366, R367). -/
def Card.proven (k : Card) (h : Hm) : Bool := decide (1000000 ≤ k.clean h)

/-- State of a card: a PROBATION card whose probation has completed is GOOD. -/
def Card.state (k : Card) (h : Hm) : CardState :=
  if k.st = .probation ∧ k.proven h then .good else k.st

/-- Code of a card state (Table 12-4). -/
def CardState.code : CardState → Nat
  | .probation => 0 | .good => 1 | .watch => 2 | .remedial => 3 | .substituted => 4 | .detention => 5

/-- The unit is in service. -/
def Card.inService (k : Card) : Bool := k.st != .substituted && k.st != .detention

/-- The listed card of the highest score in service: (card number, card). -/
def Hm.worst (h : Hm) : Nat × Card :=
  h.cards.foldl (fun b e => if e.2.inService && decide (b.2.score < e.2.score) then e else b) (0, {})

/-- Code of a slot state (Table 08-17). -/
def SlotState.code : SlotState → Nat
  | .free => 0 | .filling => 1 | .complete => 2 | .live => 3 | .held => 4

def Cm.ownSlot (m : Cm) (i : Nat) : Slot := Tab.get (fun _ => {}) m.own i
def Cm.copySlot (m : Cm) (i : Nat) : Slot := Tab.get (fun _ => {}) m.copy i

/-- Code of a link state (Table 09-4). -/
def LinkState.code : LinkState → Nat
  | .off => 0 | .dark => 1 | .signal => 2 | .aligned => 3 | .ident => 4 | .ranging => 5 | .locked => 6 | .absent => 7
  | .wipe => 8 | .failed => 9

/-- Pages of a cubby segment below its lowest borrowed page (R215, R233); `base` is the region base. -/
def segUsable (base : Nat) (borrowed : List Nat) (g : CubbySeg) : Nat :=
  let first := base / 65536 + g.offset.toNat
  borrowed.foldl (fun n p => if first ≤ p ∧ p - first < n then p - first else n) g.pages.toNat

/-- TT_BRANCH_SEL (Table 02-18). -/
def BranchSel.word (b : BranchSel) : Nat :=
  b.sel.toNat + fieldAt (b2n b.verdict) 2 + fieldAt (b2n b.indexed) 3 + fieldAt b.layer.toNat 4 +
    fieldAt b.entry.toNat 20 + fieldAt b.aborts.toNat 37

/-- CM_VERDICT (Table 08-14). -/
def Verdict.word (v : Verdict) : Nat :=
  b2n v.commit + fieldAt (b2n v.clip) 1 + fieldAt (b2n v.ckpt) 2 + fieldAt (b2n v.subst) 3 + fieldAt (b2n v.abort) 4 +
    fieldAt (b2n v.nonfinite) 5 + fieldAt (b2n v.limit) 6 + fieldAt v.cont.toNat 7 + fieldAt (b2n v.midstep) 9

/-- CM_SEAT (Table 08-15). -/
def Cm.seatWord (m : Cm) : Nat := m.moduleId.toNat + fieldAt m.seatState.toNat 14 + fieldAt m.epoch.toNat 17

/-- TT_ registers (Tables 02-15 to 02-26), without the counter. -/
def ttReg (t : Tt) (off : Nat) : Option (BitVec 64) :=
  match off with
  | 0x00 => reg (t.period.toNat + fieldAt t.slots.toNat 18)
  | 0x08 => some t.bell
  | 0x10 => reg t.lag.toNat
  | 0x18 => reg t.sel.word
  | 0x20 => reg t.stepPeriod.toNat
  | 0x28 => reg (t.entry + fieldAt t.stack.length 17 + fieldAt (b2n t.hold) 20)
  | 0x30 => reg (t.marginMin.toNat + fieldAt t.lowest.toNat 7)
  | 0x38 => reg t.abortLimit.toNat
  | 0x40 => reg t.syncOffset.toNat
  | 0x48 => reg (t.syncState.toNat + fieldAt (b2n t.isRoot) 2 + fieldAt t.parent.toNat 3 + fieldAt (b2n t.outOfTol) 8)
  | 0x58 => some t.statusLast
  | _ => none

/-- CM_ registers (Tables 08-10 to 08-21), without the counters. -/
def cmReg (m : Cm) (b : Lb) (off : Nat) : Option (BitVec 64) :=
  match off with
  | 0x00 => some m.committed
  | 0x08 => some m.live
  | 0x10 => reg (m.partner.toNat + fieldAt (b2n m.partnerOk) 14)
  | 0x18 => some b.mirrorFor
  | 0x20 => some m.roll
  | 0x28 => reg m.verdict.word
  | 0x30 => some m.verdictStep
  | 0x38 => reg m.seatWord
  | 0x40 => reg (b.mState.toNat + fieldAt (b2n b.verified) 3 + fieldAt (b2n b.selfChecked) 4 +
      fieldAt (b2n b.unresolved) 5 + fieldAt (b2n b.ownerFix) 6 + fieldAt (b2n b.late) 7 + fieldAt b.unitsDone.toNat 8)
  | 0x48 => reg ((m.ownSlot 0).st.code + fieldAt (m.ownSlot 1).st.code 3 + fieldAt (m.ownSlot 2).st.code 6 +
      fieldAt (m.copySlot 0).st.code 16 + fieldAt (m.copySlot 1).st.code 19 + fieldAt (m.copySlot 2).st.code 22)
  | 0x50 => reg (m.deadline.toNat + fieldAt m.share.toNat 32)
  | 0x58 => reg (b2n m.buffer)
  | 0x78 => reg b.xchk.toNat
  | _ => none

/-- MX_ registers (Tables 04-13 to 04-19), without the counters. -/
def mxReg (c : Nat) (k : Core) (off : Nat) : Option (BitVec 64) :=
  match off with
  | 0x00 => reg k.oscale.toNat
  | 0x08 => reg (b2n k.cadence)
  | 0x10 => reg k.mxFlags.toNat
  | 0x18 => some k.mxNorm
  | 0x20 => reg (buddyOf c)
  | 0x48 => some k.abftLast
  | _ => none

/-- Step number and seed of the Philox key: from the live step's satchel slot, else 0 (R108, Table 05-15). -/
def Cm.liveHdr (m : Cm) : Option SatHeader :=
  match (m.ownSlot (m.live.toNat % 3)).hdr with
  | some h => if h.step = m.live then some h else none
  | none => none

def State.rngStep (s : State) (c : Nat) : BitVec 64 :=
  match (s.seat (fieldOfCore c)).cm.liveHdr with
  | some h => h.step
  | none => 0

def State.rngSeed (s : State) (c : Nat) : BitVec 64 :=
  match (s.seat (fieldOfCore c)).cm.liveHdr with
  | some h => h.seed
  | none => 0

/-- The Philox key current in core `c` (R108, R177). -/
def State.rngKey (s : State) (c : Nat) : RngKey :=
  { seed := s.rngSeed c, step := s.rngStep c, layer := (s.core c).rngLayer, core := c }

/-- VX_ registers (Tables 05-11 to 05-16), without the counters. -/
def vxReg (s : State) (c : Nat) (k : Core) (off : Nat) : Option (BitVec 64) :=
  match off with
  | 0x00 => reg k.vxEps.toNat
  | 0x08 => some k.vxNorm
  | 0x10 => reg k.vxFlags.toNat
  | 0x18 => reg (k.rngLayer.toNat + fieldAt c 16)
  | 0x20 => some (s.rngStep c)
  | 0x28 => some (s.rngSeed c)
  | _ => none

/-- MC_ registers (Tables 07-12 to 07-17), without the counters. -/
def mcReg (m : Mc) (off : Nat) : Option (BitVec 64) :=
  match off with
  | 0x00 => reg (m.epoch.toNat + fieldAt m.old.toNat 8 + fieldAt (b2n m.oldLive) 16 + fieldAt (b2n m.sweeping) 17)
  | 0x08 => reg (m.next + fieldAt m.rate.toNat 48)
  | 0x10 => reg (Nat.min m.inflight 0xFFFF)
  | 0x18 => reg (m.used.toNat + fieldAt m.borrowed.length 20 + fieldAt (b2n (!m.pending.isEmpty)) 40)
  | 0x40 => reg (m.errAddr.toNat + fieldAt m.errKind.toNat 48)
  | _ => none

/-- Code of a pool slot state held as two bits, and the LB_CKPT_ registers (Tables 10-9 to 10-16). -/
def ckReg (k : Ckpt) (f : Nat) (off : Nat) : Option (BitVec 64) :=
  match off with
  | 0x100 => reg (k.node.toNat + fieldAt k.region.toNat 16 + fieldAt (b2n k.regionOk) 48)
  | 0x108 => reg k.genSize.toNat
  | 0x110 => reg (k.keyId.toNat + fieldAt (b2n k.keyOk) 32)
  | 0x118 => reg (k.state.toNat + fieldAt k.outcome.toNat 4 + fieldAt (b2n k.gen) 12 + fieldAt k.trigger.toNat 13 +
      fieldAt k.stateA.toNat 15 + fieldAt k.stateB.toNat 17 + fieldAt (b2n (!k.arms.isEmpty)) 19)
  | 0x120 => some k.step
  | 0x128 => some k.genA
  | 0x130 => some k.genB
  | 0x138 => reg (Tab.get (fun _ => 0) k.done f % 2 ^ 32 + fieldAt (Tab.get (fun _ => 0) k.total f % 2 ^ 32) 32)
  | 0x150 => reg (Tab.get (fun _ => 0) k.errs f)
  | _ => none

/-- LB_ cubby registers (Tables 07-19 to 07-23). -/
def lbReg (b : Lb) (m : Mc) (off : Nat) : Option (BitVec 64) :=
  match off with
  | 0x00 => reg b.region.toNat
  | 0x08 => reg (b.pages.toNat + fieldAt b.usable.toNat 24)
  | 0x10 => reg (b.ccb.toNat + fieldAt (b2n b.enable) 19)
  | _ =>
    if 0x1000 ≤ off ∧ off ≤ 0x1F98 ∧ off % 8 = 0 then
      match b.segs.find? (fun g => g.core == (off - 0x1000) / 8) with
      | some g => reg (g.offset.toNat + fieldAt g.pages.toNat 24 + fieldAt (segUsable b.region.toNat m.borrowed g) 44)
      | none => reg 0
    else none

/-- FL_ registers (Tables 09-10 to 09-17), without the counters. -/
def flReg (k : Link) (off : Nat) : Option (BitVec 64) :=
  match off with
  | 0x00 => reg (k.st.code + fieldAt k.reason.toNat 4 + fieldAt (b2n k.preset) 8)
  | 0x08 => reg (k.node.toNat + fieldAt k.peerLink.toNat 16 + fieldAt (b2n k.pool) 21 + fieldAt (b2n k.confirmed) 22 +
      fieldAt (b2n k.nodeOk) 23)
  | 0x10 => reg (k.resendMax.toNat + fieldAt k.resendAge.toNat 2)
  | 0x18 => reg k.delay.toNat
  | 0x20 => reg (k.map.toNat + fieldAt (b2n k.spareUsed) 32 + fieldAt k.retired.toNat 33 + fieldAt (b2n k.comb) 42)
  | 0x50 => reg k.errLast.toNat
  | _ =>
    if 0x100 ≤ off ∧ off ≤ 0x180 ∧ off % 16 = 0 then
      let w := Tab.get (fun _ => {}) k.opt ((off - 0x100) / 16)
      reg (w.rx.toNat + fieldAt w.tx.toNat 16 + fieldAt w.eye.toNat 32)
    else none

/-- One byte of PR_SESSIONS (Table 11-14). -/
def slotByte : Option Session → Nat
  | some k => k.part.toNat + fieldAt (b2n k.bound) 3 + fieldAt (b2n k.owner) 4 + fieldAt (b2n k.gen2) 5 + 128
  | none => 0

/-- Code of a rung (Table 13-13). -/
def rungCode : Rung → Nat
  | .engineCore _ => 1 | .engineLink _ => 1 | .engineChannel _ _ => 1 | .context => 2 | .partition => 3 | .chip _ => 4

/-- A chip reset waits for the fetch of its dump (R391). -/
def ResetJob.waits (w : ResetJob) : Bool := w.dumped && rungCode w.rung == 4

/-- PR_RESET (Table 13-13): the widest rung in progress. -/
def Proctor.resetWord (p : Proctor) : Nat :=
  (p.resets.filter (·.dumped)).foldl (fun n w => Nat.max n (rungCode w.rung)) 0 + fieldAt p.cause.toNat 3 +
    fieldAt (b2n (p.resets.any ResetJob.waits)) 6

/-- PR_ registers of field `f` (Tables 11-11 to 11-16, 13-10 to 13-13), without the counters. -/
def prReg (s : State) (f : Nat) (off : Nat) : Option (BitVec 64) :=
  let h := s.host
  let k := s.seat f
  let m := (s.field f).hm
  match off with
  | 0x00 => reg (h.mode.toNat + fieldAt (b2n h.up) 2 + fieldAt h.vlan.toNat 3 + fieldAt (b2n h.gen2En) 15)
  | 0x08 => reg h.mac.toNat
  | 0x10 => reg h.layout.toNat
  | 0x18 => reg ((List.range 4).foldl (fun n i => n + fieldAt (slotByte (Tab.get (fun _ => none) h.sessions i)) (8 * i)) 0 +
      fieldAt h.pending.length 32)
  | 0x20 => reg (k.vlog.length + fieldAt (b2n (k.vlog.length == 256)) 9)
  | 0x28 => reg (k.numHead.toNat + fieldAt (b2n k.numWrap) 12)
  | 0x50 => some k.sealedBell
  | 0x60 => reg (m.dumps.length % 256 + fieldAt (m.lastDump % 2 ^ 32) 8 + fieldAt (b2n m.collecting.isSome) 40)
  | 0x68 => reg s.px.resetWord
  | _ => none

/-- A pass entry (Table 12-14). -/
def Pass.word (p : Pass) : Nat :=
  p.code.toNat + fieldAt p.resource.toNat 4 + fieldAt (b2n p.byHost) 36 + fieldAt p.granted.toNat 37

/-- HM_PASS (Table 12-13). -/
def passWord (passes : Tab Pass) (waiting : Nat) (lastBusy : Nat) : Nat :=
  passes.length + fieldAt (Nat.min waiting 63) 6 + fieldAt lastBusy 12 + fieldAt (b2n (Tab.find passes 33).isSome) 16

/-- HM_PASS_ENTRY by offset. -/
def passReg (passes : Tab Pass) (off : Nat) : Option (BitVec 64) :=
  if 0x100 ≤ off ∧ off ≤ 0x1F8 ∧ off % 8 = 0 then reg (Tab.get (fun _ => {}) passes ((off - 0x100) / 8)).word
  else if off = 0x200 then reg (Tab.get (fun _ => {}) passes 32).word
  else if off = 0x208 then reg (Tab.get (fun _ => {}) passes 33).word
  else none

/-- HM_REQ of a field (Table 12-16). -/
def Hm.reqWord (h : Hm) : Nat :=
  b2n h.reqCkpt + fieldAt (b2n h.reqSubst) 1 + fieldAt h.reason.toNat 2 + fieldAt h.reqKind.toNat 6 +
    fieldAt h.reqIndex.toNat 10

/-- Listed tile cards in one of some states. -/
def Hm.tilesIn (h : Hm) (sts : List CardState) : Nat :=
  (h.cards.filter (fun e => e.1 / 8192 == 1 && sts.contains e.2.st)).length

/-- Spare tiles left: 28 tiles seat no core, less those substituted or detained (R375). -/
def Hm.tiles (h : Hm) : Nat := 28 - h.tilesIn [.substituted, .detention]

/-- Links of a field whose λ8 is unused. -/
def State.lambdas (s : State) (f : Nat) : Nat := ((linksOfField f).filter (fun l => !(s.link l).spareUsed)).length

/-- HM_SPARES (Table 12-15). -/
def Hm.sparesWord (h : Hm) (lambdas : Nat) : Nat :=
  h.tiles + fieldAt lambdas 5 + fieldAt (b2n h.comb) 11 + fieldAt h.phases 12 + fieldAt (h.tilesIn [.detention]) 14 +
    fieldAt h.rows.length 24

/-- HM_SCORE (Table 12-12). -/
def Hm.scoreWord (h : Hm) : Nat :=
  let w := h.worst
  w.2.score % 65536 + fieldAt (w.2.state h).code 16 + fieldAt (w.1 / 8192) 19 + fieldAt (w.1 % 8192) 23 + fieldAt w.2.step 36

/-- HM_ registers of a field (Tables 12-12 to 12-18), without the counters. -/
def hmReg (s : State) (f : Nat) (h : Hm) (off : Nat) : Option (BitVec 64) :=
  match off with
  | 0x00 => reg h.scoreWord
  | 0x08 => reg (passWord h.passes h.waiting.length h.lastBusy.toNat)
  | 0x10 => reg (h.sparesWord (s.lambdas f))
  | 0x18 => reg h.reqWord
  | 0x20 => some s.hmClk
  | 0x28 => reg h.satAddr.toNat
  | _ => passReg h.passes off

/-- HM_ registers of the coordinator: module-wide passes, the merged requests (R380). Its score, spares and clock are not
of one field and read as zero (log 11). -/
def hmCoordReg (s : State) (off : Nat) : Option (BitVec 64) :=
  let hs := (List.range 4).map (fun f => (s.field f).hm)
  match off with
  | 0x00 => reg 0
  | 0x08 => reg (passWord s.coord.passes 0 s.coord.lastBusy.toNat)
  | 0x10 => reg 0
  | 0x18 => reg (hs.foldl (fun w h => if h.reqCkpt || h.reqSubst then
      h.reqWord ||| (w % 4) else w) 0)
  | 0x20 => some s.hmClk
  | 0x28 => reg s.coord.satAddr.toNat
  | _ => passReg s.coord.passes off

/-- First bytes of a digest as a number, byte 0 lowest; a digest is kept with its byte 0 in the low bits. -/
def digestBytes (d : BitVec 384) (n : Nat) : Nat := d.toNat % 2 ^ (8 * n)

/-- Seconds of service mode left: DURATION less the seconds of HM_CLK, which counts at 850 MHz, since it began (R417, Table 14-14). -/
def Proctor.secondsLeft (p : Proctor) (clk : BitVec 64) : Nat := p.serviceLeft.toNat - (clk - p.serviceFrom).toNat / 850000000

/-- PX_ registers (Tables 14-11 to 14-17), without the counter. -/
def pxReg (s : State) (off : Nat) : Option (BitVec 64) :=
  let p := s.px
  match off with
  | 0x00 => reg (p.stage.toNat + fieldAt p.reason.toNat 3 + fieldAt s.store.bootCount.toNat 8)
  | 0x08 => match p.manifest with
    | some m => reg (m.svn % 128 + fieldAt (b2n m.commit) 7 + fieldAt (digestBytes m.fwDigest 7) 8)
    | none => reg 0
  | 0x10 => reg (p.minSvn % 128 + fieldAt (b2n p.factoryOpened) 7 + fieldAt (b2n p.secrets) 8)
  | 0x18 => reg (b2n s.store.owner.isSome + fieldAt (b2n s.store.sealed) 1 + fieldAt (b2n p.service) 2 +
      fieldAt (b2n p.factory) 3 + fieldAt (b2n s.store.wipePending) 4 + fieldAt s.store.ownerGen.toNat 5 +
      fieldAt (s.px.secondsLeft s.hmClk) 37)
  | 0x20 => reg (p.wStage.toNat + fieldAt p.wScope.toNat 3 + fieldAt p.wPercent.toNat 6 + fieldAt (b2n p.wBoot) 13)
  | 0x28 => reg (p.tokKind.toNat + fieldAt p.tokResult.toNat 3)
  | 0x30 => some (p.challenge.extractLsb' 0 64)
  | 0x38 => some (p.challenge.extractLsb' 64 64)
  | 0x40 => some (p.challenge.extractLsb' 128 64)
  | 0x48 => some (p.challenge.extractLsb' 192 64)
  | _ => none

/-- PW_ registers (Tables 15-9 to 15-15) at owner grade, without the counters. -/
def pwReg (p : Power) (off : Nat) : Option (BitVec 64) :=
  match off with
  | 0x00 => reg (p.slot.toNat + fieldAt (b2n p.trip) 2 + fieldAt p.present.toNat 3 + fieldAt p.latch.toNat 7)
  | 0x08 => reg (p.watts.toNat + fieldAt p.volts.toNat 16 + fieldAt p.amps.toNat 32)
  | 0x10 => some p.fieldPower
  | 0x18 => reg p.temps.toNat
  | 0x20 => reg p.alert.toNat
  | 0x28 => reg p.mask.toNat
  | 0x30 => reg p.cap.toNat
  | 0x38 => reg (p.fineSel.toNat + fieldAt p.fine.toNat 16)
  | _ => none

/-- What the register at an address reads as, exact and current; `none` where no register is (R11). -/
def State.readReg (s : State) (a : Nat) : Option (BitVec 64) :=
  match regAddr a with
  | none => none
  | some r =>
    if r.isCounter then reg (s.counter (s.counterHome r a)).word
    else match r.block with
    | 1 => ttReg (s.seat r.ix).tt r.off
    | 2 => mxReg r.ix (s.core r.ix) r.off
    | 3 => vxReg s r.ix (s.core r.ix) r.off
    | 4 => mcReg (s.field r.ix).mc r.off
    | 5 => if 0x100 ≤ r.off ∧ r.off < 0x1000 then ckReg (s.seat r.ix).ck r.ix r.off
           else lbReg (s.field r.ix).lb (s.field r.ix).mc r.off
    | 6 => cmReg (s.seat r.ix).cm (s.field r.ix).lb r.off
    | 7 => flReg (s.link r.ix) r.off
    | 8 => prReg s r.ix r.off
    | 9 => if r.ix = 15 then hmCoordReg s r.off else hmReg s r.ix (s.field r.ix).hm r.off
    | 10 => pxReg s r.off
    | 11 => pwReg s.pw r.off
    | _ => none

/-- Owner of a register's block, to check a partition's reach: its field, or 4 for a module-level block. -/
def RegAddr.field (r : RegAddr) : Nat :=
  match r.block with
  | 2 => r.ix / 500
  | 3 => r.ix / 500
  | 7 => r.ix / 6
  | 9 => if r.ix = 15 then 4 else r.ix
  | 10 => 4
  | 11 => 4
  | _ => r.ix

end Sys2Proof.Machine
end

