-- ==== Sys2Proof/Machine/Array.lean ====
section
/-! DEFINITION. The array instructions and the commands of the array: starts, results, the ABFT sequence, the buddy service
and the write of an MXST (R105, R133, R134, R140, R143 to R147, R152). -/

namespace Sys2Proof.Machine

/-- Accumulator an array operation works on. -/
def ArrKind.acc : ArrKind → Nat
  | .mma a _ _ _ => a.toNat
  | .mxz a => a.toNat
  | .mxld a _ => a.toNat
  | .mxst a _ _ => a.toNat

def ArrKind.isMma : ArrKind → Bool
  | .mma _ _ _ _ => true
  | _ => false

/-- Class of an accumulator's chain once the queued operations have run: what an issue checks against (R133, R134). -/
def Core.clsAt (k : Core) (acc : Nat) : ChainCls :=
  k.arrQ.foldl (fun cls o =>
    if o.kind.acc = acc then
      match o.kind with
      | .mma _ _ _ imm => if mmaSet imm || cls == .classless then mmaCls imm else cls
      | .mxz _ => .classless
      | .mxld _ a => if (descOf a).fmt = 8 then .int else .fp
      | .mxst _ _ _ => cls
    else cls) (k.accreg acc).cls

/-- Queue an array operation and go on; a full queue of 8 holds the issue (R94). A running MMA keeps its place among the 8 until its result is
ready; an MXST that has taken the port has left it (DESIGN CHOICE, log 26: the manual does not say whether the running operation counts). -/
def State.queueArr (s : State) (c op : Nat) (t : BitVec 4) (kind : ArrKind) : State :=
  let k := s.core c
  if k.arrQ.length < 8 then
    ((s.setCore c { k.tagAdd t with
      arrQ := k.arrQ ++ [{ kind := kind, tag := t, pc := k.pc, op := BitVec.ofNat 8 op, key := s.rngKey c }] }).advance c op).quizAbandon c
  else s

/-- MMA (0x70): checked at issue; an illegal one records fault 0x0A and leaves its accumulator unchanged. -/
def execMma (c : Nat) (i : Ins) (s : State) : State :=
  issue c 0x70 i (fun s =>
    let k := s.core c
    let acc := i.dst.toNat % 8
    if !(mmaLegal c i.imm (descOf (k.dreg i.sa)) (descOf (k.dreg i.sb)) && chainTakes (k.clsAt acc) i.imm) then
      (s.recordFaultOpen c 10 k.pc.toNat 0x70 3).advance c 0x70
    else s.queueArr c 0x70 (tagOf i) (.mma (BitVec.ofNat 3 acc) (k.dreg i.sa) (k.dreg i.sb) i.imm)) s

/-- MXZ (0x71). -/
def execMxz (c : Nat) (i : Ins) (s : State) : State :=
  issue c 0x71 i (fun s => s.queueArr c 0x71 (tagOf i) (.mxz (BitVec.ofNat 3 i.dst.toNat))) s

/-- MXLD (0x72): a 64 x 64 tile of FP32 or INT32. -/
def execMxld (c : Nat) (i : Ins) (s : State) : State :=
  issue c 0x72 i (fun s =>
    let k := s.core c
    let d := descOf (k.dreg i.sa)
    if !(d.ok c [7, 8] [0, 2, 3, 4] false && d.d0 == 64 && d.d1 == 64 && d.d2 == 1 && d.d3 == 1) then
      (s.recordFaultOpen c 10 k.pc.toNat 0x72 3).advance c 0x72
    else s.queueArr c 0x72 (tagOf i) (.mxld (BitVec.ofNat 3 i.dst.toNat) (k.dreg i.sa))) s

/-- MXST (0x73): checked at issue; a destination in a code region records fault 0x03 (R87, R134). -/
def execMxst (c : Nat) (i : Ins) (s : State) : State :=
  issue c 0x73 i (fun s =>
    let k := s.core c
    let acc := i.sa.toNat % 8
    let d := descOf (k.dreg i.dst)
    if !mxstLegal c i.imm d (k.clsAt acc) then (s.recordFaultOpen c 10 k.pc.toNat 0x73 3).advance c 0x73
    else match (d.ranges.find? (fun r => s.hitsCode r.1 r.2)) with
    | some r => (s.recordFault c 3 k.pc.toNat 0x73 (s.firstCode r.1 r.2) 3).advance c 0x73
    | none => s.queueArr c 0x73 (tagOf i) (.mxst (BitVec.ofNat 3 acc) (k.dreg i.dst) i.imm)) s

/-! ### Starts and completions -/

/-- No earlier operation on the accumulator of the operation at `n` is pending: none in the queue before it, and no MXST of it
on the port (R95). -/
def Core.accFree (k : Core) (n : Nat) (acc : Nat) : Bool :=
  (k.arrQ.take n).all (fun o => o.kind.acc != acc) &&
  (match k.mxst with
   | some x => x.acc.toNat != acc
   | none => true)

/-- The cells go to other work before any waiting MMA: a recompute that waits for them (R140), or a buddy service (R145). -/
def Core.cellsDue (k : Core) : Bool :=
  (match k.mxst with
   | some x => x.stage == .failedFirst
   | none => false) ||
  (match k.svc with
   | some v => !v.started
   | none => false)

/-- No earlier port operation on the accumulator is pending; earlier MMAs run ahead of it through the same cells; no recompute and no service is to
take the cells first. -/
def Core.mmaFree (k : Core) (n : Nat) (acc : Nat) : Bool :=
  !k.cellsDue &&
  (k.arrQ.take n).all (fun o => if o.kind.isMma then o.started else o.kind.acc != acc) &&
  (match k.mxst with
   | some x => x.acc.toNat != acc
   | none => true)

/-- Position of the first operation of the queue that satisfies a test. -/
def Core.arrPos (k : Core) (p : ArrOp → Bool) : Option Nat := k.arrQ.findIdx? p

/-- The first port operation of the queue (R140: one at a time, in queue order), when the port is free and no earlier
operation on its accumulator is pending. -/
def Core.portNext (k : Core) : Option (Nat × ArrOp) :=
  match k.arrPos (fun o => !o.kind.isMma) with
  | none => none
  | some n =>
    match k.arrQ[n]? with
    | none => none
    | some o => if k.mxst.isNone && k.accFree n o.kind.acc then some (n, o) else none

/-- Core clock in MHz: lowered by remedy step 4 or 5 of the tile's card (Table 12-5). -/
def State.coreMhz (s : State) (c : Nat) : Nat :=
  match ((s.field (fieldOfCore c)).hm.card 1 (s.tileOf c)).step with
  | 4 => 800
  | 5 => 750
  | _ => 850

/-- Count of clk at which work of `n` core clk that begins now on the cells of a core is to end. -/
def State.cellsTo (s : State) (c n : Nat) : Nat := s.hmClk.toNat + (n * 850 + s.coreMhz c - 1) / s.coreMhz c

/-- Core clk that the operation on the cells of a core has left (R144). -/
def State.cellsLeft (s : State) (c : Nat) : Nat := (((s.core c).cellsEnd - s.hmClk.toNat) * s.coreMhz c + 849) / 850

/-- Occupancy of an array operation on the cells (Table 04-8). -/
def ArrKind.occ : ArrKind → Nat
  | .mma _ a _ imm => mmaOcc imm (mmaDepth imm (descOf a))
  | _ => 0

/-- MMA_START: the first MMA that waits takes the cells; the command says that they are free. A chain start is checked
against the cadence (R152). -/
def execMmaStart (c : Nat) (s : State) : State :=
  let k := s.core c
  match k.arrPos (fun o => o.kind.isMma && !o.started) with
  | none => s
  | some n =>
    match k.arrQ[n]? with
    | none => s
    | some o =>
      if k.mmaFree n o.kind.acc then
        s.setCore c { k with arrQ := modifyAt k.arrQ n (fun o => { o with started := true }), cellsEnd := s.cellsTo c o.kind.occ }
      else s

/-- Contents of an accumulator that an operation met an error in: nothing states them (log 4). -/
def Acc.scribble (x : Acc) (n : Nat) : Acc :=
  { x with elems := (List.range 4096).foldl (fun t i => Tab.set (fun _ => 0) t i ((Config.freeWord (n + i)).setWidth 32)) [] }

/-- The chain of an accumulator holds an MMA. -/
def Acc.hasMma (x : Acc) : Bool :=
  x.chain.any (fun e => match e with
    | .mma _ _ _ => true
    | _ => false)

/-- MMA_RESULT_READY: the oldest running MMA's result is ready; its tag completes with its flag word. An MMA starts a chain when it has SET or is the
first MMA of its accumulator's chain, and is checked against the cadence then (R152, log 23). -/
def execMmaResultReady (c : Nat) (disturb : List (Nat × BitVec 32)) (s : State) : State :=
  let k := s.core c
  match k.arrPos (fun o => o.kind.isMma && o.started) with
  | none => s
  | some n =>
    match k.arrQ[n]? with
    | some { kind := .mma acc a b imm, tag := t, pc := pc, op := op, .. } =>
      let starts := mmaSet imm || !(k.accreg acc.toNat).hasMma
      let cad := k.cadence && starts && k.lastWg == some (mmaWg imm)
      let fl := if cad then flCad else 0
      let k1 : Core := { (k.tagDone t fl none).stickMx fl with
        arrQ := dropAt k.arrQ n, lastWg := if starts then some (mmaWg imm) else k.lastWg }
      match (s.tensorErr c (descOf a)) <|> (s.tensorErr c (descOf b)) with
      | some e => (((s.setCore c (k1.setAcc acc.toNat ((k.accreg acc.toNat).scribble s.free))).burn 4096).engineErr c pc.toNat op.toNat 3 e)
      | none => (s.noteCorrected ((descOf a).readRanges ++ (descOf b).readRanges)).setCore c
        (k1.setAcc acc.toNat (((k.accreg acc.toNat).mma s.mem a b imm).disturbed disturb))
    | _ => s

/-- MXZ_DONE. -/
def execMxzDone (c : Nat) (s : State) : State :=
  let k := s.core c
  match k.portNext with
  | some (n, { kind := .mxz acc, tag := t, .. }) =>
    s.setCore c { (k.tagDone t 0 none).setAcc acc.toNat {} with arrQ := dropAt k.arrQ n }
  | _ => s

/-- MXLD_DONE. -/
def execMxldDone (c : Nat) (s : State) : State :=
  let k := s.core c
  match k.portNext with
  | some (n, { kind := .mxld acc a, tag := t, pc := pc, op := op, .. }) =>
    let k1 : Core := { k.tagDone t 0 none with arrQ := dropAt k.arrQ n }
    match s.tensorErr c (descOf a) with
    | some e => (((s.setCore c (k1.setAcc acc.toNat ((k.accreg acc.toNat).scribble s.free))).burn 4096).engineErr c pc.toNat op.toNat 3 e)
    | none => (s.noteCorrected (descOf a).readRanges).setCore c (k1.setAcc acc.toNat (Acc.load s.mem a))
  | _ => s

/-- MXST_START: the MXST at the head of the port order takes the port and its check begins (R140). -/
def execMxstStart (c : Nat) (s : State) : State :=
  let k := s.core c
  match k.portNext with
  | some (n, { kind := .mxst acc d imm, tag := t, pc := pc, key := key, .. }) =>
    s.setCore c { k with arrQ := dropAt k.arrQ n, mxst := some { acc := acc, d := d, imm := imm, tag := t, pc := pc, key := key } }
  | _ => s

/-! ### The ABFT sequence (Table 04-10) -/

/-- Occupancy of a recorded chain (R144). -/
def chainOcc (chain : List ChainEntry) (buddy : Bool) : Nat :=
  (chain.map (fun e => match e with
    | .mma a _ imm => (if buddy && mmaA imm == 7 then 2 else 1) * mmaOcc imm (mmaDepth imm (descOf a))
    | _ => 0)).sum

/-- Reload time of a chain begun by MXLD. -/
def chainReload (chain : List ChainEntry) : Nat :=
  match chain with
  | .load _ :: _ => 48
  | _ => 0

/-- Write time of an MXST (R144). -/
def mxWrite (imm : BitVec 32) : Nat := if mxstFmt imm = 0 ∨ mxstFmt imm = 5 then 48 else 32

/-- A step of `n` core clk fits before the guard band (R144): bell + P − 64. -/
def State.fits (s : State) (c n : Nat) : Bool :=
  decide (s.clkOf (fieldOfCore c) * s.coreMhz c + n * 850 + 64 * s.coreMhz c ≤ (s.seat (fieldOfCore c)).tt.period.toNat * s.coreMhz c)

/-- MX_ABFT_LAST of a sequence that ends (Table 04-19). -/
def abftLastWord (x : Mxst) (outcome : Nat) : BitVec 64 :=
  BitVec.ofNat 64 (x.acc.toNat + outcome * 8 + b2n x.axisRow * 32 + x.index.toNat * 64 + b2n x.buddyFail * 4096) |||
    (x.ratio.setWidth 64 <<< 32)

/-- The outcome of a sequence is decided, 1 local, 2 buddy, 3 unresolved: the MXST goes on to its write, which ends the sequence (Table 04-10). -/
def State.endSequence (s : State) (c : Nat) (x : Mxst) (outcome : Nat) : State :=
  s.modCore c (fun k => { k with
    mxst := some { x with stage := .writing, recomp := outcome == 1, buddy := outcome == 2, unresolved := outcome == 3 } })

/-- Outcome of an MXST's sequence (Table 04-19); 0 where it began with no mismatch. -/
def Mxst.outcome (x : Mxst) : Nat := if x.recomp then 1 else if x.buddy then 2 else if x.unresolved then 3 else 0

/-- A sequence that began with a mismatch ends with its MXST's write (R147): register, counters, report cards; an unresolved one also sets
ABFT_UNRESOLVED in the period in which it ends. The buddy's MX_BUDDY_SERVED counts a service whose result it has checked, whatever the check
said (log 23). -/
def State.abftEvent (s : State) (c : Nat) (x : Mxst) : State :=
  let f := fieldOfCore c
  let outcome := x.outcome
  if outcome = 0 then s else
  let s := s.modCore c (fun k => { k with abftLast := abftLastWord x outcome })
  let s := s.bump (mxBase c + 0x20 + 8 * outcome)
  let s := if x.buddy || x.buddyFail then s.bump (mxBase (buddyOf c) + 0x40) else s
  let s := s.demerit f 1 (s.tileOf c) (if outcome = 1 then 8 else if outcome = 2 then 64 else 256)
  if outcome = 3 then
    (if x.buddyFail then s.demerit f 1 (s.tileOf (buddyOf c)) 256 else s).setStatus f 4#9
  else s

/-- A core's operations are about to be cancelled: a buddy service that its sequence waits for ends it unresolved (R89, R145, R147). -/
def State.cutService (s : State) (c : Nat) : State :=
  match (s.core c).mxst with
  | some x => if x.stage = .buddyAsked ∨ x.stage = .buddyPassed then s.abftEvent c { x with unresolved := true } else s
  | none => s

/-- ABFT_CHECK_VERDICT: pass goes on to the write; a mismatch starts the sequence, which ends at once when the chain is
longer than was recorded (R143, R146). -/
def execAbftCheckVerdict (c : Nat) (s : State) : State :=
  let k := s.core c
  match k.mxst with
  | none => s
  | some x =>
    if x.stage = .checking ∧ c < 2000 then
      let a := k.accreg x.acc.toNat
      let x1 : Mxst := { x with skip := a.skips, iwrap := a.wraps }
      match a.check with
      | none => s.setCore c { k with mxst := some { x1 with stage := .writing } }
      | some (row, ix, ratio) =>
        let x2 : Mxst := { x1 with stage := .failedFirst, mismatch := true, axisRow := row, index := BitVec.ofNat 6 ix, ratio := ratio }
        if 16 < a.chain.length then s.endSequence c x2 3
        else s.setCore c { k with mxst := some x2 }
    else s

/-- LOCAL_RECOMPUTE_START: starts if its estimate ends by the guard band, else the sequence ends unresolved (R144). -/
def execLocalRecomputeStart (c : Nat) (s : State) : State :=
  let k := s.core c
  match k.mxst with
  | none => s
  | some x =>
    if x.stage = .failedFirst ∧ c < 2000 then
      let ch := (k.accreg x.acc.toNat).chain
      if s.fits c (chainReload ch + chainOcc ch false + 72 + 16 + (mxWrite x.imm - 16)) then
        s.setCore c { k with mxst := some { x with stage := .recomputing }, cellsEnd := s.cellsTo c (chainReload ch + chainOcc ch false) }
      else s.endSequence c x 3
    else s

/-- Ranges that a chain reads when it runs again. -/
def chainRanges (chain : List ChainEntry) : List (Nat × Nat) :=
  chain.flatMap (fun e => match e with
    | .zero => []
    | .load a => (descOf a).readRanges
    | .mma a b _ => (descOf a).readRanges ++ (descOf b).readRanges)

/-- First read error met by a chain that runs again. -/
def State.chainErr (s : State) (c : Nat) (chain : List ChainEntry) : Option (Nat × MemErr) :=
  chain.findSome? (fun e => match e with
    | .zero => none
    | .load a => s.tensorErr c (descOf a)
    | .mma a b _ => (s.tensorErr c (descOf a)) <|> (s.tensorErr c (descOf b)))

/-- LOCAL_RECOMPUTE_DONE: the chain has run again on the same core and is checked again. -/
def execLocalRecomputeDone (c : Nat) (disturb : List (Nat × BitVec 32)) (s : State) : State :=
  let k := s.core c
  match k.mxst with
  | none => s
  | some x =>
    if x.stage = .recomputing ∧ c < 2000 then
      let old := k.accreg x.acc.toNat
      match s.chainErr c old.chain with
      | some e => (s.engineErr c x.pc.toNat 0x73 3 e).endSequence c x 3
      | none =>
        let a := (Acc.replay s.mem old.chain).disturbed disturb
        let s := (s.noteCorrected (chainRanges old.chain)).setCore c (k.setAcc x.acc.toNat a)
        let x := { x with skip := a.skips, iwrap := a.wraps }
        match a.check with
        | none => s.endSequence c x 1
        | some _ => s.modCore c (fun k => { k with mxst := some { x with stage := .failedSecond } })
    else s

/-- BUDDY_SERVICE_REQUEST: the requester's request arrives at core `c`, its buddy. It is refused while `c` is under engine
reset or when the estimate, with what is left of the operation on the cells of `c`, misses the guard band; the sequence then ends unresolved
(R144, R145). The estimate is counted in the clk of `c` throughout (log 23). -/
def execBuddyServiceRequest (c : Nat) (s : State) : State :=
  let r := buddyOf c
  let k := s.core r
  match k.mxst with
  | none => s
  | some x =>
    if x.stage = .failedSecond ∧ c < 2000 then
      let ch := (k.accreg x.acc.toNat).chain
      if !(s.core c).resetting && s.fits c (s.cellsLeft c + chainOcc ch true + 72 + 16 + 64 + mxWrite x.imm) then
        (s.modCore c (fun b => { b with svc := some { requester := r } })).modCore r
          (fun k => { k with mxst := some { x with stage := .buddyAsked } })
      else s.endSequence r x 3
    else s

/-- BUDDY_SERVICE_START: the service takes the cells of core `c`. -/
def execBuddyServiceStart (c : Nat) (s : State) : State :=
  match (s.core c).svc with
  | some v =>
    let r := s.core v.requester
    let ch := match r.mxst with | some x => (r.accreg x.acc.toNat).chain | none => []
    s.modCore c (fun k => { k with svc := some { v with started := true }, cellsEnd := s.cellsTo c (chainOcc ch true) })
  | none => s

/-- BUDDY_SERVICE_DONE: core `c` has run the requester's chain and checks it. A result that fails its check is never
returned, and the sequence ends unresolved (R143). -/
def execBuddyServiceDone (c : Nat) (disturb : List (Nat × BitVec 32)) (s : State) : State :=
  match (s.core c).svc with
  | none => s
  | some v =>
    let r := v.requester
    match (s.core r).mxst with
    | none => s.modCore c (fun k => { k with svc := none })
    | some x =>
      if v.started ∧ x.stage = .buddyAsked ∧ c < 2000 then
        let ch := ((s.core r).accreg x.acc.toNat).chain
        let s := s.modCore c (fun k => { k with svc := none })
        match s.chainErr r ch with
        | some e => (s.engineErr r x.pc.toNat 0x73 3 e).endSequence r x 3
        | none =>
          let a := (Acc.replay s.mem ch).disturbed disturb
          let s := s.noteCorrected (chainRanges ch)
          match a.check with
          | some _ => s.endSequence r { x with buddyFail := true } 3
          | none =>
            (s.modCore c (fun k => { k with svcResult := some (a.skips, a.elems) })).modCore r
              (fun k => { k with mxst := some { x with stage := .buddyPassed } })
      else s

/-- BUDDY_TILE_RETURN: the buddy's tile replaces the requester's accumulator, which is written without a further check. -/
def execBuddyTileReturn (c : Nat) (s : State) : State :=
  let k := s.core c
  let b := buddyOf c
  match k.mxst, (s.core b).svcResult with
  | some x, some r =>
    if x.stage = .buddyPassed ∧ c < 2000 then
      ((s.modCore c (fun k => k.setAcc x.acc.toNat { k.accreg x.acc.toNat with elems := r.2 })).modCore b
        (fun k => { k with svcResult := none })).endSequence c { x with skip := x.skip || r.1 } 2
    else s
  | _, _ => s

/-- FP64 sum of the squares of written values, in ascending element index (R137). -/
def sumSquares (f : Nat) (norm : BitVec 64) (out : List Nat) : BitVec 64 :=
  BitVec.ofNat 64 (f64Bits (out.foldl (fun a b => let v := valOf f b; add64 a (Fv.mul v v)) (f64Of norm.toNat)))

/-- Record an overflow that counts under R192 in the numerics log, once a tensor in an attempt (R197). -/
def State.logOverflow (s : State) (c : Nat) (layer : BitVec 16) (d : Desc) (amax : BitVec 32) : State :=
  let k := s.core c
  let t := BitVec.ofNat 16 d.tensor
  let x := s.seat (fieldOfCore c)
  if k.logged.contains t then s
  else (s.setCore c { k with logged := t :: k.logged }).numLog (fieldOfCore c)
    { step := x.cm.live, layer := layer, tensor := t, core := BitVec.ofNat 16 c, fmt := BitVec.ofNat 8 d.fmt, kind := 1,
      amax := amax, attempt := x.tt.sel.aborts.setWidth 8, bell := x.tt.bell }

/-- MXST_WRITE_DONE: the tile is converted and written, its flag word and norm delivered, its tag completes (R135 to R138), and a sequence that
began with a mismatch ends in its event (R147).
A write into a sealed buffer waits (R58). -/
def execMxstWriteDone (c : Nat) (s : State) : State :=
  let k := s.core c
  match k.mxst with
  | none => s
  | some x =>
    let d := descOf x.d
    if x.stage = .writing ∧ c < 2000 ∧ !s.anySeal d.ranges then
      let a := k.accreg x.acc.toNat
      let outs := (List.range 4096).map (a.outElem x.imm k.oscale x.key d)
      match s.rangesErr c d.ranges with
      | some e => ((s.setCore c { k.tagDone x.tag 0 none with mxst := none }).engineErr c x.pc.toNat 0x73 3 e).abftEvent c x
      | none =>
        let fl := orAll (outs.map (·.2)) ||| (if x.recomp then flRecomp else 0) ||| (if x.buddy then flBuddy else 0) |||
          (if x.skip then flSkip else 0) ||| (if x.iwrap then flIwrap else 0)
        let norm := if mxstSq x.imm then sumSquares d.fmt k.mxNorm (outs.map (·.1)) else k.mxNorm
        let s := (s.setCore c { (k.tagDone x.tag fl none).stickMx fl with mxst := none, mxNorm := norm }).putAll d (outs.map (·.1))
        let s := s.abftEvent c x
        if mxstOscale x.imm ∧ 2 ≤ mxstFmt x.imm ∧ mxstFmt x.imm ≤ 4 ∧ fl / flOvf % 2 = 1 then s.logOverflow c x.key.layer d 0 else s
    else s

end Sys2Proof.Machine
end

