-- ==== Sys2Proof/Machine/Frames.lean ====
section
/-! DEFINITION. Slate frames as bytes: records that responses and dumps carry (Tables 06-4, 10-2, 11-7), the headers of both generations
(R334, R358), the protection of a frame (R337, R358) and the key agreement of a handshake (R338, R339). The published functions are
uninterpreted (log 10). -/

namespace Sys2Proof.Machine

/-! ### Records -/

/-- A violation log entry as its 32 bytes (Table 11-7). -/
def VEntry.bytes (e : VEntry) : List Byte :=
  leBytes 8 e.bell.toNat ++ leBytes 8 e.addr.toNat ++ leBytes 1 e.source.toNat ++ leBytes 1 e.code.toNat ++ leBytes 2 e.unitId.toNat ++
    leBytes 4 e.loc.toNat ++ leBytes 2 e.peer.toNat ++ leBytes 2 e.period.toNat ++ leBytes 4 e.again.toNat

/-- A numerics log entry as its 32 bytes (Table 06-4). -/
def NumEntry.bytes (e : NumEntry) : List Byte :=
  leBytes 8 e.step.toNat ++ leBytes 2 e.layer.toNat ++ leBytes 2 e.tensor.toNat ++ leBytes 2 e.core.toNat ++ leBytes 1 e.fmt.toNat ++
    leBytes 1 e.kind.toNat ++ leBytes 4 e.amax.toNat ++ leBytes 1 e.attempt.toNat ++ leBytes 3 0 ++ leBytes 8 e.bell.toNat

/-- The seal record as its 64 bytes (Table 10-2). -/
def sealBytes (x : SealRec) : List Byte :=
  let b := leBytes 4 0x4B435A53 ++ leBytes 1 1 ++ leBytes 1 (b2n x.gen) ++ leBytes 1 x.state.toNat ++ leBytes 1 0 ++
    leBytes 8 x.step.toNat ++ leBytes 4 x.jobEpoch.toNat ++ leBytes 2 x.planVer.toNat ++ leBytes 2 x.moduleId.toNat ++
    leBytes 32 x.root.toNat ++ leBytes 4 x.headerCrc.toNat
  b ++ leBytes 4 (crc32c b).toNat

/-- A seal record as SCAN answers it: its bytes as the node returned them, then 8 bytes of which bit 0 marks it valid (R325; log 18). -/
def sealWire (x : Option SealRec) : List Byte :=
  match x with
  | some r => (if r.raw = [] then sealBytes r else r.raw) ++ leBytes 8 (b2n r.crcOk)
  | none => List.replicate 72 0

/-- The first `n` bytes of what an uninterpreted function answers, zeros where it answers fewer. -/
def fit (n : Nat) (l : List Byte) : List Byte := (l ++ List.replicate (n - l.length) 0).take n

/-- Ed25519 signature of the identity key over a message (R338, R402, R412). -/
def idSignature (m : List Byte) : BitVec 512 := Config.ed25519 idEd m

/-- Both signatures of the identity keys over a message. -/
def idSignatures (m : List Byte) : List Byte := leBytes 64 (idSignature m).toNat ++ fit 3309 (Config.mldsa idMldsa m)

/-- What a report's signatures are made over (R412). -/
def reportHash (b : List Byte) : List Byte := leBytes 48 (Config.sha384 b).toNat

/-- The response fields of a command as they are sent. The manual names them and lays out only their records (log 27). -/
def Body.wire : Body → List Byte
  | .empty => []
  | .words w => w.flatMap (fun x => leBytes 8 x.toNat)
  | .bytes b => b
  | .vlog e => e.flatMap VEntry.bytes
  | .numlog e => e.flatMap NumEntry.bytes
  | .seals a b => sealWire a ++ sealWire b
  | .report b sig => b ++ leBytes 64 sig.toNat ++ fit 3309 (Config.mldsa idMldsa (reportHash b))
  | .piece step selfChecked d => leBytes 8 step.toNat ++ leBytes 8 (b2n selfChecked) ++ d

/-! ### Generation 3 frames (R334, R336, R337) -/

/-- Largest payload of a frame: a piece of 8,192 bytes, or of 1,024 under SMALL, with the 16 bytes of R336 (R333, log 27). -/
def fragMax (small : Bool) : Nat := if small then 16 + 1024 else 16 + 8192

/-- A payload cut into frames: at least one. -/
def fragments (n : Nat) (p : List Byte) : List (List Byte) :=
  (List.range (Nat.max 1 ((p.length + n - 1) / n))).map (fun i => (p.drop (n * i)).take n)

/-- Header of a response frame (Table 11-2). -/
def Resp.header (x : Resp) (clear more : Bool) (frag len : Nat) : List Byte :=
  [3, x.cls, x.cmd, BitVec.ofNat 8 (1 + fieldAt (b2n more) 2 + fieldAt (b2n x.replay) 3 + fieldAt (b2n clear) 4)] ++
    leBytes 4 x.sess.toNat ++ leBytes 8 x.seq.toNat ++ leBytes 2 x.status.toNat ++ leBytes 2 frag ++ leBytes 1 x.part.toNat ++
    leBytes 3 0 ++ leBytes 4 len ++ leBytes 4 0

/-- Payload of a response: DETAIL, COMMITTED, the command's fields (R336). -/
def Resp.payload (x : Resp) (fields : List Byte) : List Byte := leBytes 8 x.detail.toNat ++ leBytes 8 x.committed.toNat ++ fields

/-- Frames with their numbers, and whether more follow. -/
def numbered (l : List (List Byte)) : List (Nat × Bool × List Byte) :=
  (List.range l.length).map (fun i => (i, decide (i + 1 < l.length), l.getD i []))

/-- Nonce of a frame from the module (R337). -/
def slateNonce (seq : BitVec 64) (frag : Nat) : List Byte := leBytes 8 seq.toNat ++ leBytes 2 frag ++ [1, 0]

/-- Key of the direction from the module to the host: the last 32 bytes (R339). -/
def hostKey (keys : BitVec 512) : BitVec 256 := keys.extractLsb' 256 256

/-- A protected response: per frame its header, then payload and tag by AES-256-GCM with the header as associated data (R334, R337). -/
def Resp.frames (x : Resp) (keys : BitVec 512) (small : Bool) : List (List Byte) :=
  (numbered (fragments (fragMax small) (x.payload x.body.wire))).map (fun e =>
    let h := x.header false e.2.1 e.1 e.2.2.length
    h ++ fit (e.2.2.length + 16) (Config.gcm (hostKey keys) (slateNonce x.seq e.1) h e.2.2))

/-- A response of a CLEAR frame: no tag (R334, R337). -/
def Resp.clearFrames (x : Resp) (small : Bool) (fields : List Byte) : List (List Byte) :=
  (numbered (fragments (fragMax small) (x.payload fields))).map (fun e => x.header true e.2.1 e.1 e.2.2.length ++ e.2.2)

/-! ### Generation 2 frames (R358) -/

/-- Header of a generation 2 response. -/
def header2 (op : BitVec 8) (status : BitVec 8) (sess seq : BitVec 32) (more : Bool) (frag len : Nat) : List Byte :=
  [2, op, BitVec.ofNat 8 (1 + fieldAt (b2n more) 1), status] ++ leBytes 4 sess.toNat ++ leBytes 4 seq.toNat ++ leBytes 4 len ++
    leBytes 2 frag ++ leBytes 6 0

/-- A generation 2 response: its payload is the command's fields alone (log 27). -/
def frames2 (keys : BitVec 512) (op status : BitVec 8) (sess seq : BitVec 32) (body : Body) : List (List Byte) :=
  (numbered (fragments (fragMax false) body.wire)).map (fun e =>
    let h := header2 op status sess seq e.2.1 e.1 e.2.2.length
    h ++ fit (e.2.2.length + 16) (Config.gcm (hostKey keys) (leBytes 4 seq.toNat ++ leBytes 2 e.1 ++ [1] ++ leBytes 5 0) h e.2.2))

/-! ### The handshake (R338, R339) -/

/-- HKDF-SHA-384 (RFC 5869), its first 64 bytes. -/
def hkdf64 (salt ikm info : List Byte) : List Byte :=
  let prk := beBytes 48 (Config.hmac384 salt ikm).toNat
  let t1 := beBytes 48 (Config.hmac384 prk (info ++ [1])).toNat
  (t1 ++ beBytes 48 (Config.hmac384 prk (t1 ++ info ++ [2])).toNat).take 64

/-- Session keys of a handshake (R339): host to module in the low 256 bits, module to host above. -/
def slateKeys (transcript : List Byte) (x25519 mlkem : BitVec 256) : BitVec 512 :=
  BitVec.ofNat 512 (ofLe (hkdf64 (leBytes 48 (Config.sha384 transcript).toNat) (leBytes 32 x25519.toNat ++ leBytes 32 mlkem.toNat)
    (ascii "SZ2-SLATE-3")))

/-- Payload of HELLO (Table 11-4). -/
def helloPayload (role options : BitVec 8) (nonce share : BitVec 256) (kem : List Byte) : List Byte :=
  leBytes 32 nonce.toNat ++ [role, options] ++ leBytes 6 0 ++ leBytes 32 share.toNat ++ kem

end Sys2Proof.Machine
end

