-- ==== Sys2Proof/Machine/Respond.lean ====
section
/-! DEFINITION. Status codes and responses of the Slate host protocol (R336, R342, R343, R352, Table 11-6), and the hall
passes (R377 to R379, Tables 12-8 and 12-9) that commands and the Hall Monitor take. -/

namespace Sys2Proof.Machine

/-! ### Status codes (Table 11-6) -/

def stOk : BitVec 16 := 0x0000
def stInProgress : BitVec 16 := 0x0001
def stDupExpired : BitVec 16 := 0x0002
def stStale : BitVec 16 := 0x0003
def stBadFrame : BitVec 16 := 0x0010
def stBadCommand : BitVec 16 := 0x0011
def stBadField : BitVec 16 := 0x0012
def stForm : BitVec 16 := 0x0013
def stDenied : BitVec 16 := 0x0020
def stAuthFailed : BitVec 16 := 0x0021
def stRoleTaken : BitVec 16 := 0x0022
def stSessionLimit : BitVec 16 := 0x0023
def stBusy : BitVec 16 := 0x0030
def stWiping : BitVec 16 := 0x0031
def stTooLate : BitVec 16 := 0x0032
def stWrongState : BitVec 16 := 0x0033
def stNoPlan : BitVec 16 := 0x0034
def stNotSeated : BitVec 16 := 0x0035
def stPlanRejected : BitVec 16 := 0x0040
def stIncomplete : BitVec 16 := 0x0041
def stSlotRefused : BitVec 16 := 0x0042
def stInputCrc : BitVec 16 := 0x0043
def stHeld : BitVec 16 := 0x0050
def stRestarted : BitVec 16 := 0x0051
def stMoved : BitVec 16 := 0x0052
def stUnresolved : BitVec 16 := 0x0053
def stWaitTimeout : BitVec 16 := 0x0054
def stMirrorBehind : BitVec 16 := 0x0060
def stStepMismatch : BitVec 16 := 0x0061
def stPairing : BitVec 16 := 0x0062
def stSelfChecked : BitVec 16 := 0x0063
def stTransfer : BitVec 16 := 0x0064
def stCkpt : BitVec 16 := 0x0070
def stInternal : BitVec 16 := 0x00F0

/-! ### Sessions -/

/-- Session in a slot. -/
def State.slot (s : State) (i : Nat) : Option Session := Tab.get (fun _ => none) s.host.sessions i

/-- Put a session into a slot, or free it. -/
def State.setSlot (s : State) (i : Nat) (k : Option Session) : State :=
  { s with host := { s.host with sessions := Tab.set (fun _ => none) s.host.sessions i k } }

/-- Slot and session of an id. -/
def State.session (s : State) (id : BitVec 32) : Option (Nat × Session) :=
  (List.range 4).findSome? (fun i => match s.slot i with
    | some k => if k.id = id then some (i, k) else none
    | none => none)

/-- Change the session of an id, if it is open. -/
def State.modSession (s : State) (id : BitVec 32) (g : Session → Session) : State :=
  match s.session id with
  | some (i, k) => s.setSlot i (some (g k))
  | none => s

/-! ### Responses -/

/-- Bytes of a response body; a VLOG, numerics or seal body is counted in its record sizes. -/
def Body.size : Body → Nat
  | .empty => 0
  | .words w => 8 * w.length
  | .bytes b => b.length
  | .vlog e => 32 * e.length
  | .numlog e => 32 * e.length
  | .seals _ _ => 144
  | .report b _ => b.length + 64 + 3309
  | .piece _ _ d => 16 + d.length

/-- The response fits one frame (R333, R336). -/
def Resp.oneFrame (r : Resp) (small : Bool) : Bool :=
  decide (16 + r.body.size ≤ fragMax small)

/-- A sequence number lies in the window of a session whose highest is `h` (R342). -/
def seqHeld (h q : BitVec 64) : Bool := decide (h.toNat < q.toNat + 4096)

/-- Of the responses in a list those that the session keeps (R343): one-frame responses to requests in the window, and longer ones to its last 16
requests, `seen` listing them newest first. -/
def Session.keeps (k : Session) (l : List Resp) : List Resp :=
  l.filter (fun x => seqHeld k.h x.seq && (x.oneFrame k.small || (k.seen.take 16).contains x.seq))

/-- COMMITTED of a response (R336): all ones where no plan is loaded; the module as a whole has none. -/
def State.committedOf (s : State) (part : BitVec 3) : BitVec 64 :=
  match partFields part.toNat with
  | f :: _ => if (s.seat f).plan.isSome then (s.seat f).cm.committed else 0xFFFFFFFFFFFFFFFF#64
  | [] => 0xFFFFFFFFFFFFFFFF#64

/-- Send a frame: for Slate, the bytes of its frames with it; where it goes, and its 802.1Q tag. -/
def State.send (s : State) (x : OutFrame) (wire : List (List Byte) := []) (dests : List (BitVec 144) := []) (tag : Option (BitVec 16) := none) : State :=
  { s with host := { s.host with sent := x :: s.host.sent, wire := wire, dests := dests, tag := tag } }

/-- Generation 2 status of a status code (Table 11-8). -/
def status2 (st : BitVec 16) : BitVec 8 :=
  if st = stOk then 0
  else if st = stInProgress ∨ st = stHeld ∨ st = stBusy ∨ st = stRestarted ∨ st = stWiping then 1
  else if st = stBadFrame ∨ st = stBadCommand ∨ st = stBadField ∨ st = stPlanRejected then 2
  else if st = stDenied then 3
  else if st = stStale then 5
  else 4

/-- The frame of a response on the port its session uses (R333, R358). -/
def frameOf (k : Session) (x : Resp) : OutFrame :=
  if k.gen2 then .gen2 x.sess (x.seq.setWidth 32) (status2 x.status) x.body else .slate x

/-- Send a response under its session's keys, in frames of the session's size, to the request's source and under its tag (R332, R333, R337,
R358). -/
def State.sendTo (s : State) (k : Session) (x : Resp) : State :=
  s.send (frameOf k x) (if k.gen2 then frames2 k.keys x.cmd (status2 x.status) x.sess (x.seq.setWidth 32) x.body else x.frames k.keys k.small)
    [x.dst] x.vlan

/-- A response to a request. -/
def State.respOf (s : State) (r : Req) (status : BitVec 16) (detail : BitVec 64) (body : Body) : Resp :=
  { sess := r.sess, seq := r.seq, part := r.part, status := status, detail := detail, committed := s.committedOf r.part, body := body,
    cls := r.cls, cmd := r.cmd, vlan := r.vlan, dst := r.src }

/-- Answer a request: the response is sent, and kept by its session for copies of the request (R343). A session that has
ended gets none. -/
def State.respond (s : State) (r : Req) (status : BitVec 16) (detail : BitVec 64 := 0) (body : Body := .empty) : State :=
  match s.session r.sess with
  | none => s
  | some (i, k) =>
    let x := s.respOf r status detail body
    (s.setSlot i (some { k with busy := k.busy.filter (fun q => q != r.seq), kept := k.keeps (x :: k.kept),
                                done := (r.seq, status) :: k.done.filter (fun e => seqHeld k.h e.1) })).sendTo k x

/-- A payload field is refused. DETAIL is its payload offset (Table 11-6), a free value where the manual lays out no payload (log 4). -/
def State.badField (s : State) (r : Req) : State := (s.respond r stBadField s.freshWord).burn

/-- Answer a request that waited, if there is one. -/
def State.respondTo (s : State) (r : Option Req) (status : BitVec 16) (detail : BitVec 64 := 0) (body : Body := .empty) :
    State :=
  match r with
  | some q => s.respond q status detail body
  | none => s

/-- DETAIL of WRONG_STATE (Table 11-6): bits [48:0] of CM_SEAT and TT_ENTRY_PTR.HOLD of the target's lowest field. -/
def State.wrongDetail (s : State) (f : Nat) : BitVec 64 :=
  BitVec.ofNat 64 ((s.seat f).cm.seatWord % 2 ^ 49 + fieldAt (b2n (s.seat f).tt.hold) 49)

/-! ### Addresses -/

/-- An IPv4 address in 128 bits, and an address with a UDP port as `HostPort.dests` lists them. -/
def mapped4 (a : BitVec 32) : BitVec 128 := 0xFFFF#96 ++ a
def udpTo (a : BitVec 128) (port : BitVec 16) : BitVec 144 := port ++ a

/-- The boot group ff02::5a32 (R356). -/
def bootGroup : BitVec 128 := 0xFF020000000000000000000000005A32#128

/-! ### Hall passes (R377 to R379) -/

/-- Tiles a voltage margin, clock margin, quiz or substitution pass holds. -/
def Pass.tiles (p : Pass) : List Nat :=
  match p.code.toNat with
  | 5 => (List.range 16).map (fun i => 16 * p.resource.toNat + i)
  | 6 => [p.resource.toNat]
  | 7 => if p.onLink then [] else [p.resource.toNat]
  | 8 => [p.resource.toNat]
  | _ => []

/-- Codes 3 and 4 take a link out of use; a link's quiz is exclusive with them (Table 12-9). -/
def Pass.trains (p : Pass) : Bool := p.code == 3 || p.code == 4
def Pass.onSome (p : Pass) : Bool := p.trains || p.onLink

/-- Two passes may not be held together (Table 12-9); the wipe preempts and is not in this test. -/
def Pass.conflicts (a b : Pass) : Bool :=
  (a.code == b.code && a.onLink == b.onLink && a.resource == b.resource) ||
  (a.onSome && b.onSome && a.resource == b.resource) ||
  (a.tiles.any (fun t => b.tiles.contains t)) ||
  (a.code == 9 && b.trains) || (a.trains && b.code == 9)

/-- Smallest free entry 0 to 31. -/
def Hm.freePass (h : Hm) : Option Nat := (List.range 32).find? (fun i => (Tab.find h.passes i).isNone)

/-- Link `i` of a field carries pool slots under the loaded plan. -/
def State.carriesPool (s : State) (f i : Nat) : Bool :=
  (s.block f).any (fun e => etype e == 2 && (runOf e).link == i && (runOf e).kind == 5 && (runOf e).count != 0)

/-- A held pass of a field stands in the way of a new one (Table 12-9): a tile substitution holds the spare of its copy too (Table 12-8), and a
checkpoint the links alone that carry its pool slots. -/
def State.clash (s : State) (f : Nat) (held p : Pass) : Bool :=
  if held.code = 9 ∧ p.trains then s.carriesPool f p.resource.toNat
  else held.conflicts p || held.code == 8 && (s.field f).hm.copies.any (fun c => c.old == held.resource.toNat && p.tiles.contains c.spare)

/-- The held pass of a field, or the checkpoint pass that the coordinator holds for its partition, that a new one conflicts with. -/
def State.blocker (s : State) (f : Nat) (p : Pass) : Option (Nat × Pass) :=
  (s.field f).hm.passes.find? (fun e => s.clash f e.2 p) <|> (s.coord.passes ++ s.coord.more.map (fun e => (32, e))).find?
    (fun e => e.1 == 32 && e.2.resource.toNat == s.partOf f && s.clash f e.2 p)

/-- Enter a pass at an entry, with the bell at the grant (Table 12-14). -/
def Hm.enter (h : Hm) (i : Nat) (p : Pass) (bell : BitVec 64) : Hm :=
  { h with passes := Tab.put h.passes i { p with granted := bell.setWidth 27 } }

/-- End the passes of an activity on a resource. -/
def Hm.endPass (h : Hm) (code : BitVec 4) (resource : Nat) (onLink : Bool := false) : Hm :=
  { h with passes := h.passes.filter (fun e => !(e.2.code == code && e.2.resource.toNat == resource && e.2.onLink == onLink)) }

/-- A Hall Monitor request that waits its turn (R379). -/
def Hm.want (h : Hm) (code : BitVec 4) (resource : Nat) : Hm :=
  let p : Pass := { code := code, resource := BitVec.ofNat 32 resource }
  if h.waiting.contains p || h.passes.any (fun e => e.2.code == code && e.2.resource == p.resource && !e.2.onLink) then h
  else { h with waiting := h.waiting ++ [p] }

/-- DETAIL of a BUSY over a held pass (R379). -/
def busyDetail (i : Nat) (p : Pass) : BitVec 64 := BitVec.ofNat 64 (p.code.toNat + fieldAt i 8 + fieldAt p.resource.toNat 16)

/-- DETAIL of a BUSY for want of a free entry (R379). -/
def busyFull : BitVec 64 := 0xFF00#64

/-- Take a pass in field `f`, for a request through Slate or for the Hall Monitor itself: the new state, or DETAIL of the BUSY. -/
def State.takePass (s : State) (f : Nat) (code : BitVec 4) (resource : Nat) (byHost : Bool := true) (onLink : Bool := false) :
    Except (BitVec 64 × BitVec 4) State :=
  let h := (s.field f).hm
  let p : Pass := { code := code, resource := BitVec.ofNat 32 resource, byHost := byHost, onLink := onLink }
  match s.blocker f p with
  | some (i, q) => .error (busyDetail i q, q.code)
  | none =>
    match h.freePass with
    | none => .error (busyFull, 0)
    | some i => .ok (s.modHm f (fun h => h.enter i p (s.seat f).tt.bell))

/-- Take the same pass in several fields, in ascending field order (R377): none is kept when one is refused, and the refusal names its field. -/
def State.takePasses (s : State) (fs : List Nat) (code : BitVec 4) (resource : Nat) :
    Except (Nat × BitVec 64 × BitVec 4) State :=
  fs.foldl (fun r f => match r with
    | .ok t => (t.takePass f code resource).mapError (fun e => (f, e))
    | .error e => .error e) (.ok s)

/-- The checkpoint pass (entry 32) and the wipe pass (entry 33): of the field, or of the coordinator when the partition has
several fields or the scope is the module (R377). -/
def State.bigPass (s : State) (code : BitVec 4) (entry : Nat) (part : Nat) (byHost : Bool) : State :=
  let p : Pass := { code := code, resource := BitVec.ofNat 32 part, byHost := byHost }
  let b := (s.seat ((partFields part).headD 0)).tt.bell.setWidth 27
  match partFields part with
  | [f] => s.modHm f (fun h => { h with passes := Tab.put h.passes entry { p with granted := b } })
  | _ => { s with coord := { s.coord with passes := Tab.put s.coord.passes entry { p with granted := b },
                                          more := s.coord.more ++ ((s.coord.passes.filter (fun e => e.1 == entry)).map (·.2)) } }

/-- Return the partition's pass of an entry 32 or 33; the coordinator then shows another partition's that is still held. -/
def State.endBigPass (s : State) (entry : Nat) (part : Nat) : State :=
  match partFields part with
  | [f] => s.modHm f (fun h => { h with passes := Tab.erase h.passes entry })
  | _ =>
    let c := s.coord
    let rest := c.more.filter (fun p => p.resource.toNat != part)
    match Tab.find c.passes entry with
    | some p =>
      if p.resource.toNat = part then
        { s with coord := { c with more := rest.drop 1, passes := match rest with
            | q :: _ => Tab.put c.passes entry q
            | [] => Tab.erase c.passes entry } }
      else { s with coord := { c with more := rest } }
    | none => s

/-- Note the activity code named in a BUSY (Table 12-13). -/
def State.noteBusy (s : State) (f : Nat) (code : BitVec 4) : State := s.modHm f (fun h => { h with lastBusy := code })

/-- SHA-384 of the running manifest; zero before one is held. -/
def State.fwDigest (s : State) : BitVec 384 := match s.px.manifest with | some m => m.fwDigest | none => 0

end Sys2Proof.Machine
end

