-- ==== Sys2Proof/Machine/Shard.lean ====
section
/-! DEFINITION. Check units (R245, R246) and the places of a seat's regions (R31): shard buffers, mirror, trays, satchels. -/

namespace Sys2Proof.Machine

/-- Bytes of a unit in the order of R246: master values, first moments, second moments, record. -/
def unitLen (u : ShardUnit) : Nat := (if u.fp32 then 8 else 7) * u.count + 64

/-- Bytes of a tray unit (R254): record image, then 16-bit gradients. -/
def trayUnitLen (u : ShardUnit) : Nat := 64 + 2 * u.count

/-- Put a unit at its place in unit order: by core, then by record (R245). -/
def insertUnit (u : ShardUnit) : List ShardUnit → List ShardUnit
  | [] => [u]
  | v :: r => if u.core < v.core ∨ (u.core = v.core ∧ u.record ≤ v.record) then u :: v :: r else v :: insertUnit u r

/-- Units in unit order. -/
def inOrder (l : List ShardUnit) : List ShardUnit := l.foldr insertUnit []

/-- Units of the seat's own shard in unit order. -/
def Seat.units (k : Seat) : List ShardUnit := match k.plan with | some p => inOrder p.units | none => []

/-- Units of the partner's shard, named by its cores and laid out in this seat's mirror and trays, in unit order (R245, R254, R257). -/
def Seat.mirrorUnits (k : Seat) : List ShardUnit := match k.plan with | some p => inOrder p.mirrorUnits | none => []

/-- Regions of the plan. -/
def Seat.regions (k : Seat) : Regions := match k.plan with | some p => p.regions | none => {}

/-- Length of a shard buffer. -/
def Seat.shardLen (k : Seat) : Nat := match k.plan with | some p => p.hdr.shardLen | none => 0

/-- The named unit. -/
def Seat.unit (k : Seat) (core record : Nat) : Option ShardUnit :=
  k.units.find? (fun u => u.core == core && u.record == record)

/-- The named unit of the partner's shard. -/
def Seat.mirrorUnit (k : Seat) (core record : Nat) : Option ShardUnit :=
  k.mirrorUnits.find? (fun u => u.core == core && u.record == record)

/-- Index by which a unit's outcome is kept. -/
def unitIx (core record : Nat) : Nat := 65536 * core + record

/-- Base of the committed and of the working buffer (R32, Table 08-19). -/
def Seat.committedBase (k : Seat) : Nat := if k.cm.buffer then k.regions.shard1 else k.regions.shard0
def Seat.workingBase (k : Seat) : Nat := if k.cm.buffer then k.regions.shard0 else k.regions.shard1

/-- Base of tray buffer `s mod 2` (R254). -/
def Seat.trayBase (k : Seat) (step : BitVec 64) : Nat :=
  if step.toNat % 2 = 0 then k.regions.tray0 else k.regions.tray1

/-- Base of own and copy satchel slots (R247). -/
def Seat.satchelBase (k : Seat) (i : Nat) : Nat := k.regions.satchel.getD i 0
def Seat.copyBase (k : Seat) (i : Nat) : Nat := k.regions.satchelCopy.getD i 0

/-- Offset of the history block within a satchel slot: after the header and the inputs, on a 64-byte boundary. -/
def histSlotOff (h : SatHeader) : Nat := (64 + h.inputLen + 63) / 64 * 64

/-- The plaintext of a unit in a buffer at `base`. -/
def State.unitBytes (s : State) (base : Nat) (u : ShardUnit) : List Byte := Memory.readN s.mem (base + u.offset) (unitLen u)

/-- A failed access of a Librarian of field `f`: one the firewall refuses is logged with SOURCE 4 and the code of an error response, UNIT its
field (R23, R353, log 27); any other counts as R210 and R221 state. -/
def State.libErr (s : State) (f : Nat) (e : Nat × MemErr) : State :=
  let s := if e.2 = .firewall then
      s.vlog f { addr := BitVec.ofNat 64 (e.1 % 2 ^ 48), source := 4, code := 4, unitId := BitVec.ofNat 16 f }
    else s
  s.noteErr f e.1 e.2

/-- A Librarian of field `f` reads a range; an error counts as R221 states and gives nothing. -/
def State.libRead (s : State) (f a n : Nat) : State × Option (List Byte) :=
  match s.readRange (s.seatFields f) a n with
  | .ok bs => (s.noteCorrected [(a, n)], some bs)
  | .error e => (s.libErr f e, none)

/-- A Librarian's write would be made. -/
def State.libOk (s : State) (f a : Nat) (bs : List Byte) : Bool := (firstErr (s.writeErr (s.seatFields f) a bs.length) a bs.length).isNone

/-- A Librarian's write that no seal holds: an error counts as R210 and R221 state and writes nothing. -/
def State.libLand (s : State) (f a : Nat) (bs : List Byte) : State :=
  match s.writeRange (s.seatFields f) a bs with
  | .ok t => t
  | .error e => s.libErr f e

/-- A Librarian of field `f` writes a range; one that meets a sealed buffer waits until the seal clears (R58). -/
def State.libWrite (s : State) (f a : Nat) (bs : List Byte) : State :=
  if bs = [] then s
  else if s.meetsSeal a bs.length then { s with held := s.held ++ [(f, a, bs)] }
  else s.libLand f a bs

/-- Seals have cleared: the writes that waited for them are made in order (R58). -/
def State.flushHeld (s : State) : State :=
  s.held.foldl (fun t w => t.libWrite w.1 w.2.1 w.2.2) { s with held := [] }

/-- Change every field of a seat's Librarian side. -/
def State.modLbs (s : State) (f : Nat) (g : Lb → Lb) : State :=
  eachOf (s.seatFields f) (fun x t => t.modLb x g) s

/-- Open reads of the seat's own shard go over to another committed step, or to other bytes of it: each starts again (R44, R274). -/
def Seat.restartReads (k : Seat) (step : BitVec 64) : Seat :=
  { k with reads := k.reads.map (fun r => if r.mirror then r else { r with step := step, restarts := r.restarts + 1 }) }

/-- What was to pass between the partners about units is given up; what has been decided of each stays (R262, R275). -/
def Cm.quiet (m : Cm) : Cm :=
  { m with units := Tab.each (fun _ => {}) m.units (fun r => { r with asked := false, second := [], unacked := false }) }

/-- Set a satchel slot's state. -/
def Cm.setOwn (m : Cm) (i : Nat) (k : Slot) : Cm := { m with own := Tab.set (fun _ => {}) m.own i k }
def Cm.setCopy (m : Cm) (i : Nat) (k : Slot) : Cm := { m with copy := Tab.set (fun _ => {}) m.copy i k }

/-- The slot of a step holds that step. -/
def Slot.holds (k : Slot) (step : BitVec 64) : Bool :=
  match k.hdr with
  | some h => h.step == step
  | none => false

/-- A satchel slot header as its 64 bytes (Table 08-1). -/
def satHeaderBytes (h : SatHeader) (complete : Bool) (histLen : Nat) (histCrc : BitVec 32) : List Byte :=
  leBytes 8 h.step.toNat ++ leBytes 8 h.seed.toNat ++ leBytes 4 h.jobEpoch.toNat ++ leBytes 2 h.planVer.toNat ++
    leBytes 2 (b2n complete + 2 * b2n h.long) ++ leBytes 4 h.seqLen.toNat ++ leBytes 4 h.micro.toNat ++ leBytes 8 h.inputLen ++
    leBytes 4 h.inputCrc.toNat ++ leBytes 4 histLen ++ leBytes 8 (histSlotOff h) ++ leBytes 4 histCrc.toNat ++ leBytes 4 0

/-- The header that 64 bytes spell, as a partner's copy slot reads it. -/
def satHeaderOf (bs : List Byte) : SatHeader :=
  let w (o n : Nat) : Nat := ofLe ((bs.drop o).take n)
  { step := BitVec.ofNat 64 (w 0 8), seed := BitVec.ofNat 64 (w 8 8), jobEpoch := BitVec.ofNat 32 (w 16 4),
    planVer := BitVec.ofNat 16 (w 20 2), long := bit (w 22 2) 1, seqLen := BitVec.ofNat 32 (w 24 4),
    micro := BitVec.ofNat 32 (w 28 4), inputLen := w 32 8, inputCrc := BitVec.ofNat 32 (w 40 4) }

/-- Add the span [lo, hi) to a list of disjoint spans, merging what it touches. -/
def addSpan (l : List (Nat × Nat)) (lo hi : Nat) : List (Nat × Nat) :=
  if hi ≤ lo then l else
  let near := l.filter (fun x => decide (x.1 ≤ hi) && decide (lo ≤ x.2))
  let far := l.filter (fun x => !(decide (x.1 ≤ hi) && decide (lo ≤ x.2)))
  (near.foldl (fun m x => Nat.min m x.1) lo, near.foldl (fun m x => Nat.max m x.2) hi) :: far

/-- Spans cover [0, n). -/
def spansCover (l : List (Nat × Nat)) (n : Nat) : Bool := n == 0 || l.any (fun x => x.1 == 0 && decide (n ≤ x.2))

/-- Every field's apply of the seat has ended (R261): none reads applying or correcting. -/
def State.appliesEnded (s : State) (f : Nat) : Bool :=
  (s.seatFields f).all (fun g => (s.field g).lb.mState != 3 && (s.field g).lb.mState != 4)

/-- The holder's summary of a step has arrived, with every OWNER_FIX and corrected unit landed (R274, R266). A seat without a
valid partner has nobody to wait for. -/
def State.stepProven (s : State) (f : Nat) (step : BitVec 64) : Bool :=
  let m := (s.seat f).cm
  !m.partnerOk || ((match m.summary with | some x => x.step == step | none => false) && m.ownFixDue.isEmpty && !m.clipDue)

/-! ### Satchel slots (R248, R249) -/

/-- What a slot's bytes say of it (R248). -/
inductive SlotCheck where
  | part                       -- not all of INPUT_LEN has arrived
  | good
  | bad (crc : BitVec 32)      -- they do not match INPUT_CRC
  | unread                     -- they cannot be read back
  deriving DecidableEq, Repr

/-- Check a FILLING slot of the seat at address `base`: its inputs are read when they are whole. -/
def State.checkSlot (s : State) (f base : Nat) (k : Slot) : State × SlotCheck :=
  match k.hdr with
  | some h =>
    if k.st = .filling ∧ spansCover k.arrived h.inputLen then
      match s.libRead (s.seatIx f) (base + 64) h.inputLen with
      | (s, none) => (s, .unread)
      | (s, some bs) => (s, if crc32c bs = h.inputCrc then .good else .bad (crc32c bs))
    else (s, .part)
  | none => (s, .part)

/-! ### Bulk transfers (R65, R443) -/


/-- Field and Librarian channel whose queue carries a kind of transfer for field `f`: its own, else the seat's first the plan assigns. -/
def Seat.bulkChan (k : Seat) (f : Nat) (kind : BulkKind) : Option (Nat × Nat) :=
  match k.plan with
  | some p =>
    ((p.bulk.find? (fun u => u.kind == kind && u.field == f)) <|> p.bulk.find? (fun u => u.kind == kind)).map (fun u => (u.field, u.chan))
  | none => none

/-- Queue a unit in the channel of its kind; a plan that assigns none carries no such transfer. -/
def Seat.queueBulk (k : Seat) (f : Nat) (kind : BulkKind) (off : Nat) (data : List Byte) (base : Nat := 0) (first : Nat := 0) : Seat :=
  match k.bulkChan f kind with
  | some c => { k with bulkOut := k.bulkOut ++ [{ kind := kind, field := c.1, chan := c.2, off := off, data := data, base := base, first := first }] }
  | none => k

/-- Queue the 256-byte units of a region's bytes [lo, hi) for the bulk slots of a kind; a unit that cannot be read is not sent (R221). -/
def State.forward (s : State) (f : Nat) (kind : BulkKind) (base lo hi : Nat) : State :=
  (List.range ((hi + 255) / 256 - lo / 256)).foldl (fun t i =>
    match t.libRead f (base + 256 * (lo / 256 + i)) 256 with
    | (t, some bs) => t.modSeat f (fun k => k.queueBulk f kind (lo / 256 + i) bs base (lo / 256))
    | (t, none) => t) s

/-! ### Histories (R189, R247, R250) -/

/-- The header of own slot `i` goes to memory and, with the histories it names, on to the partner's copy (R247, R249). -/
def State.writeHeader (s : State) (f i : Nat) : State :=
  let k := s.seat f
  let x := k.cm.ownSlot i
  match x.hdr with
  | some h =>
    let s := s.libWrite (s.seatIx f) (k.satchelBase i) (satHeaderBytes h (x.st != .filling) x.histLen x.histCrc)
    if !k.cm.partnerOk then s
    else
      let s := s.forward f .satchelCopy (k.satchelBase i) 0 64
      if x.histLen = 0 then s else s.forward f .satchelCopy (k.satchelBase i) (histSlotOff h) (histSlotOff h + x.histLen)
  | none => s

/-- Base of the shard buffer of the step before `n`: the committed one once that step has committed. -/
def Seat.bufferBefore (k : Seat) (n : BitVec 64) : Nat := if k.cm.committed + 1 = n then k.committedBase else k.workingBase

/-- The histories of the step before are due in the slot of step `n`, or are there (R250): the latest three such steps are kept. -/
def Cm.noteHist (m : Cm) (n : BitVec 64) (there : Bool) : Cm := { m with hist := ((n, there) :: m.hist.filter (fun e => e.1 != n)).take 3 }

/-- The histories that step `n`'s slot waits for go into it and on to the partner's copy, once the slot has its header. Where they cannot be
read or written the copy stays due (R250). -/
def State.copyHistory (s : State) (f : Nat) (n : BitVec 64) : State :=
  let k := s.seat f
  match k.cm.hist.find? (fun e => e.1 == n) with
  | some (_, false) =>
    let i := n.toNat % 3
    let x := k.cm.ownSlot i
    let done (s : State) (x : Slot) : State := s.modCm f (fun m => (m.setOwn i x).noteHist n true)
    match x.hdr with
    | some h =>
      if h.step ≠ n then s
      else if k.regions.histLen = 0 then done s x
      else
        let a := k.satchelBase i + histSlotOff h
        (match s.libRead (s.seatIx f) (k.bufferBefore n + k.regions.histOff) k.regions.histLen with
         | (s, none) => s
         | (s, some bs) =>
           if !s.libOk (s.seatIx f) a bs then s.libWrite (s.seatIx f) a bs
           else
             let s := s.libWrite (s.seatIx f) a bs
             (done s { x with histLen := bs.length, histCrc := crc32c bs }).writeHeader f i)
    | none => s
  | _ => s

/-- Bytes of a message (log 14): its code, then its numbers. -/
def XMsg.bytes : XMsg → List Byte
  | .crc c r x => leBytes 8 1 ++ leBytes 4 c ++ leBytes 4 r ++ leBytes 4 x.toNat
  | .ask c r tray => leBytes 8 2 ++ leBytes 4 c ++ leBytes 4 r ++ tray
  | .reply c r x => leBytes 8 3 ++ leBytes 4 c ++ leBytes 4 r ++ leBytes 4 (b2n x.isSome) ++ leBytes 4 (x.getD 0).toNat
  | .summary m => leBytes 8 4 ++ leBytes 8 m.step.toNat ++ leBytes 4 (b2n m.unresolved) ++ leBytes 4 m.ownerFix.length ++
      m.ownerFix.flatMap (fun p => leBytes 4 p.1 ++ leBytes 4 p.2)
  | .ack c r own ok => leBytes 8 5 ++ leBytes 4 c ++ leBytes 4 r ++ leBytes 4 (b2n ok + 2 * b2n own)
  | .unit c r x => leBytes 8 6 ++ leBytes 4 c ++ leBytes 4 r ++ leBytes 4 x.toNat
  | .fillAsk a b d t => leBytes 8 7 ++ leBytes 4 a ++ leBytes 4 b ++ leBytes 48 d.toNat ++ leBytes 1 t.toNat
  | .fillNo => leBytes 8 8
  | .named p o => leBytes 8 9 ++ leBytes 4 p.toNat ++ leBytes 4 o.toNat

/-- Replace a transfer of units; none ends it. -/
def Cm.setXfer (m : Cm) (old : Xfer) (new : Option Xfer) : Cm :=
  { m with xfers := m.xfers.flatMap (fun x => if x = old then new.toList else [x]) }

/-- The first transfer of the seat that runs. -/
def Seat.xfer (k : Seat) : Option Xfer := k.cm.xfers.find? (fun x => x.kind != .clipPush)

/-- A message to the partner's Librarian: it is kept as sent and its 256-byte units wait for the bulk slots of the cross-check's stream. -/
def State.tell (s : State) (f : Nat) (x : XMsg) : State :=
  let bs := padTo 256 x.bytes
  s.modSeat f (fun k =>
    (List.range (bs.length / 256)).foldl (fun k i => k.queueBulk f .crossCheck i ((bs.drop (256 * i)).take 256))
      { k with cm := { k.cm with outbox := x :: k.cm.outbox } })

/-- Region of a unit transfer, which its flits' OFFSET counts in (R443); none for the other kinds. -/
def bulkRegion : BulkKind → Option Nat
  | .toMirror => some 0
  | .toShard => some 1
  | .toSatchel => some 2
  | .toCopy => some 3
  | _ => none

/-- A unit goes out with its CRC (R264): its 256-byte blocks wait for the bulk slots of the transfers that write a mirror, or a shard buffer. One that
cannot be read is not sent. -/
def State.sendUnit (s : State) (f base : Nat) (u : ShardUnit) (kind : BulkKind) : State :=
  match s.libRead f (base + u.offset) (unitLen u) with
  | (t, some bs) => (t.forward f kind base u.offset (u.offset + unitLen u)).tell f (.unit u.core u.record (crc32c bs))
  | (t, none) => t

end Sys2Proof.Machine
end

