-- ==== Sys2Proof/Machine/Pool.lean ====
section
/-! DEFINITION. Checkpoints and the pool (R302 to R306, R309 to R330): what a generation holds and where, the stages of a write,
scans, restores, and the commands that close a pool operation. -/

namespace Sys2Proof.Machine

/-! ### Contents and layout of a generation (R309, R310, Tables 10-1 to 10-3) -/

def chunkSize : Nat := 0x4000000

/-- A section: KIND and plaintext. -/
structure ShareSec where
  kind  : Nat
  bytes : List Byte

/-- KEYSTATE of a step (R309): the job seed is that of the step's satchel slot when the write began. -/
def State.keyState (s : State) (f : Nat) (step : BitVec 64) : List Byte :=
  let k := s.seat f
  padTo 64 (leBytes 8 k.ck.seed.toNat ++ leBytes 8 step.toNat ++
    leBytes 2 (match k.plan with | some p => p.hdr.version.toNat | none => 0) ++ leBytes 2 k.cm.moduleId.toNat)

/-- A length on a 4 KiB boundary. -/
def up4k (n : Nat) : Nat := (n + 4095) / 4096 * 4096

/-- Units of the seat's shard that lie in field `g`. -/
def Seat.unitsIn (k : Seat) (g : Nat) : List ShardUnit := k.units.filter (fun u => u.core / 500 == g)

/-- Field `g`'s part of the history block: offset and length; a plan that divides none gives it all to the lowest field (R310, log 13). -/
def State.histPart (s : State) (f g : Nat) : Nat × Nat :=
  let r := (s.seat f).regions
  let i := blockIx (s.seatFields f) g
  if r.histOf = [] then (if i = 0 then (r.histOff, r.histLen) else (r.histOff + r.histLen, 0))
  else (r.histOff + (r.histOf.take i).sum, r.histOf.getD i 0)

/-- Sections of field `g`'s share: its UNITS, then its HISTORY; KEYSTATE last, in the lowest field's share (R310). -/
def State.sections (s : State) (f g : Nat) (step : BitVec 64) : List ShareSec :=
  let k := s.seat f
  let h := s.histPart f g
  [{ kind := 1, bytes := (k.unitsIn g).flatMap (s.unitBytes k.committedBase) },
   { kind := 2, bytes := Memory.readN s.mem (k.committedBase + h.1) h.2 }] ++
  (if g = s.seatIx f then [{ kind := 3, bytes := s.keyState f step }] else [])

/-- KIND and length of the sections of field `g`'s share: the plan's shard layout (R327). -/
def State.sectionLens (s : State) (f g : Nat) : List (Nat × Nat) :=
  [(1, (((s.seat f).unitsIn g).map unitLen).sum), (2, (s.histPart f g).2)] ++ (if g = s.seatIx f then [(3, 64)] else [])

/-- Length of field `g`'s share: every section on a 4 KiB boundary. -/
def State.shareLen (s : State) (f g : Nat) : Nat := ((s.sectionLens f g).map (fun x => up4k x.2)).sum

/-- Chunks of field `g`'s share. -/
def State.shareChunks (s : State) (f g : Nat) : Nat := (s.shareLen f g + chunkSize - 1) / chunkSize

/-- Index in the generation of field `g`'s first chunk. -/
def State.firstChunk (s : State) (f g : Nat) : Nat :=
  (((s.seatFields f).filter (fun x => decide (x < g))).map (s.shareChunks f)).sum

/-- Plaintext of chunk `i` of field `g`'s share. -/
def State.chunkPlain (s : State) (f g i : Nat) (step : BitVec 64) : List Byte :=
  (((s.sections f g step).flatMap (fun x => padTo 4096 x.bytes)).drop (i * chunkSize)).take chunkSize

/-- Tweak of a data unit (R311). -/
def ckTweak (k : Ckpt) (m : BitVec 14) (u : Nat) : Nat := u + fieldAt (b2n k.gen) 40 + fieldAt m.toNat 41

/-- Places of field `g`'s share in a shard buffer: offset in the share, length, offset in the buffer (R309, R310). -/
def State.sharePlaces (s : State) (f g : Nat) : List (Nat × Nat × Nat) :=
  let us := (s.seat f).unitsIn g
  let h := s.histPart f g
  (us.foldl (fun (r : List (Nat × Nat × Nat) × Nat) u => (r.1 ++ [(r.2, unitLen u, u.offset)], r.2 + unitLen u)) ([], 0)).1 ++
    [(up4k (us.map unitLen).sum, h.2, h.1)]

/-- Ranges of the committed buffer that chunk `i` of field `g` reads. -/
def State.chunkSpots (s : State) (f g i : Nat) : List (Nat × Nat) :=
  let base := (s.seat f).committedBase
  (s.sharePlaces f g).filterMap (fun p =>
    let a := Nat.max p.1 (i * chunkSize)
    let b := Nat.min (p.1 + p.2.1) ((i + 1) * chunkSize)
    if a < b then some (base + p.2.2 + (a - p.1), b - a) else none)

/-- Encrypt data units from unit index `u` on. -/
def cipherUnits (k : Ckpt) (m : BitVec 14) : Nat → Nat → List Byte → List Byte
  | 0, _, _ => []
  | n + 1, u, bs => Config.xts (k.keys.setWidth 512) (ckTweak k m u) (bs.take 512) ++ cipherUnits k m n (u + 1) (bs.drop 512)

/-- Ciphertext of chunk `i` of field `g`. -/
def State.chunkCipher (s : State) (f g i : Nat) (step : BitVec 64) : List Byte :=
  let p := s.chunkPlain f g i step
  cipherUnits (s.seat f).ck (s.seat f).cm.moduleId (p.length / 512) ((s.firstChunk f g + i) * (chunkSize / 512)) p

/-- Chunks of the generation. -/
def State.chunkCount (s : State) (f : Nat) : Nat := ((s.seatFields f).map (s.shareChunks f)).sum

/-- The `n` leaves of the generation in chunk order. -/
def Ckpt.leafList (k : Ckpt) (n : Nat) : List (BitVec 256) := (List.range n).map (Tab.get (fun _ => 0) k.leaves)

/-- One level of the Merkle tree (R315). -/
def merkleUp : List (BitVec 256) → List (BitVec 256)
  | a :: b :: r => Config.sha256 (leBytes 32 a.toNat ++ leBytes 32 b.toNat) :: merkleUp r
  | l => l

/-- Merkle root (R315); `n` bounds the levels. -/
def merkle : Nat → List (BitVec 256) → BitVec 256
  | n + 1, a :: b :: r => merkle n (merkleUp (a :: b :: r))
  | _, l => l.headD 0

/-- Length of the header (R314). -/
def headerLen (chunks : Nat) : Nat := (0x1000 + 32 * chunks + 255) / 256 * 256

/-- Section table entries with their offsets in the data. -/
def State.sectionTable (s : State) (f : Nat) (step : BitVec 64) : List Byte :=
  (s.seatFields f).flatMap (fun g =>
    ((s.sections f g step).foldl (fun (r : List Byte × Nat) x =>
      (r.1 ++ leBytes 2 x.kind ++ leBytes 1 g ++ leBytes 5 0 ++ leBytes 8 r.2 ++ leBytes 8 x.bytes.length ++
        leBytes 4 (crc32c x.bytes).toNat ++ leBytes 4 0, r.2 + (padTo 4096 x.bytes).length))
      ([], s.firstChunk f g * chunkSize)).1)

/-- The header with a given MAC (Table 10-3), over the leaves and the section table as they were read (R320). -/
def State.headerWith (s : State) (f : Nat) (step : BitVec 64) (mac : Nat) : List Byte :=
  let k := s.seat f
  let ls := k.ck.leafList (s.chunkCount f)
  let tab := k.ck.table
  let data := ((s.seatFields f).map (s.shareLen f)).sum
  let head := leBytes 4 0x48445A53 ++ leBytes 2 1 ++ leBytes 1 (b2n k.ck.gen) ++ leBytes 1 0 ++ leBytes 8 step.toNat ++
    leBytes 4 k.cm.epoch.toNat ++ leBytes 2 (match k.plan with | some p => p.hdr.version.toNat | none => 0) ++
    leBytes 2 k.cm.moduleId.toNat ++ leBytes 8 data ++ leBytes 4 ls.length ++ leBytes 4 (tab.length / 32) ++
    leBytes 4 k.ck.keyId.toNat ++ leBytes 4 (headerLen ls.length) ++ leBytes 32 (merkle 32 ls).toNat ++ leBytes 32 mac
  padTo 256 (padTo 0x1000 (padTo 0x100 head ++ tab) ++ ls.flatMap (fun x => leBytes 32 x.toNat))

/-- MAC of a header, taken with its field zero (R314). -/
def headerMac (k : Ckpt) (h : List Byte) : BitVec 256 :=
  Config.hmac256 (k.keys.extractLsb' 512 256) (h.take 0x50 ++ List.replicate 32 0 ++ h.drop 0x70)

/-- The header (R314). -/
def State.header (s : State) (f : Nat) (step : BitVec 64) : List Byte :=
  s.headerWith f step (headerMac (s.seat f).ck (s.headerWith f step 0)).toNat

/-- The record that 64 bytes hold, with the verdict of MAGIC, FORMAT and SEAL_CRC (R325). -/
def sealOf (bs : List Byte) : SealRec :=
  let w (o n : Nat) : Nat := ofLe ((bs.drop o).take n)
  { gen := w 5 1 == 1, state := if w 6 1 < 4 then BitVec.ofNat 2 (w 6 1) else 0, step := BitVec.ofNat 64 (w 8 8),
    jobEpoch := BitVec.ofNat 32 (w 16 4), planVer := BitVec.ofNat 16 (w 20 2), moduleId := BitVec.ofNat 14 (w 22 2),
    root := BitVec.ofNat 256 (w 24 32), headerCrc := BitVec.ofNat 32 (w 56 4), raw := bs,
    crcOk := w 0 4 == 0x4B435A53 && w 4 1 == 1 && decide (w 5 1 < 2) && w 60 4 == (crc32c (bs.take 60)).toNat }

/-- Addresses of Table 10-1. -/
def sealAddr (gen : Bool) : Nat := if gen then 0x100 else 0
def headerAddr (gen : Bool) : Nat := if gen then 0x110000 else 0x10000
def dataAddr (k : Ckpt) : Nat := 0x1000000 + b2n k.gen * k.genSize.toNat * chunkSize

/-- A record is valid in the slot of a generation (R325). -/
def recValid (m : BitVec 14) (slot : Bool) (x : SealRec) : Bool := x.crcOk && x.moduleId == m && x.gen == slot

/-- Step of a valid SEALED record of a slot. -/
def sealedIn (m : BitVec 14) (slot : Bool) (x : Option SealRec) : Option (BitVec 64) :=
  match x with
  | some r => if recValid m slot r && r.state == 2 then some r.step else none
  | none => none

/-! ### Opening and failing operations -/

/-- The link a field's Librarian reaches the pool node by: its own, else another of the seat's. -/
def State.poolLink (s : State) (f g : Nat) : Option Nat :=
  (linksOfField g ++ (s.seatFields f).flatMap linksOfField).find? (fun l =>
    (s.link l).pool && (s.link l).nodeOk && (s.link l).node == (s.seat f).ck.node)

/-- End of an operation of R329: outcome, counters, pass, open operations, answer. -/
def State.ckEnd (s : State) (f : Nat) (code : BitVec 8) (body : Body := .empty) : State :=
  let k := (s.seat f).ck
  let s := if k.trigger = 0 then s
    else eachOf (s.seatFields f) (fun g t => t.bump (lbBase g + if code = 0 then 0x140 else 0x148)) s
  let s := if k.trigger = 1 ∨ k.trigger = 2 then s.endBigPass 32 (s.partOf f) else s
  let s := eachOf ((s.seatFields f).flatMap linksOfField) (fun l t => t.modLink l (fun x => { x with ops := [] })) s
  let s := s.modCk f (fun k => { k with state := 0, outcome := code, reqs := [], rewrites := [], waitLand := false, keyPlain := [] })
  k.reqs.foldl (fun t r => t.respond r (if code = 0 then stOk else stCkpt) (code.setWidth 64) body) s

/-- An outcome with nothing started is shown and answered (R329). -/
def State.ckAnswer (s : State) (f : Nat) (code : BitVec 8) (rs : List Req) : State :=
  let s := s.modCk f (fun k => { k with outcome := code })
  rs.foldl (fun t r => t.respond r stCkpt (code.setWidth 64)) s

/-- A checkpoint or restore that ends with nothing started: SKIPPED, NO_REGION, TOO_LATE, NO_COMMON_CUT. It counts in LB_CKPT_FAIL_COUNT. -/
def State.ckNote (s : State) (f : Nat) (code : BitVec 8) (rs : List Req) : State :=
  (eachOf (s.seatFields f) (fun g t => t.bump (lbBase g + 0x148)) s).ckAnswer f code rs

/-- Chunk of an operation as LB_CKPT_ERR_LAST shows it. -/
def chunkCode (c : Option Nat) : Nat := match c with | some i => i % 2 ^ 32 | none => 0xFFFFFFFF

/-- Record a failed operation in the error register of its field (Table 10-16). -/
def State.noteOpErr (s : State) (f : Nat) (o : PoolOp) (status : BitVec 8) : State :=
  s.modCk f (fun k =>
    { k with errs := Tab.set (fun _ => 0) k.errs o.field (o.op.toNat + fieldAt status.toNat 8 + fieldAt (chunkCode o.chunk) 16) })

/-- Librarian channel of the pool slots that a plan gives a link's transmit direction (R65). DESIGN CHOICE (log 14): the manual does not say which channel
queues an operation; the model takes that of the link's first such entry. -/
def State.poolChan (s : State) (l : Nat) : Nat :=
  let blk := s.block (fieldOfLink l)
  let rs := ((List.range blk.length).filter (fun p => etype (blk.getD p 0) == 1)).flatMap (templateRuns blk)
  match rs.find? (fun r => r.kind == 5 && !r.rx && r.link == l % 6) with
  | some r => r.core % 16
  | none => 0

/-- What a WRITE carries is staged in the plan's staging region, a chunk's room for each field (Table 01-2; log 15). -/
def State.stageOp (s : State) (f : Nat) (o : PoolOp) : State :=
  match (s.seat f).regions.staging with
  | some a => s.libWrite o.field (a + chunkSize * blockIx (s.seatFields f) o.field) o.bytes
  | none => s

/-- Open an operation: its command waits for a pool slot of the link's channel. With no link to the node it fails LINK_LOST. -/
def State.openOp (s : State) (f : Nat) (o : PoolOp) : State :=
  let s := s.stageOp f o
  match s.poolLink f o.field with
  | some l =>
    let ch := s.poolChan l
    s.modLink l (fun k =>
      let t := ((List.range 128).find? (fun t => k.ops.all (fun x => x.tag.toNat != t))).getD 0
      { k with ops := k.ops ++ [{ o with tag := BitVec.ofNat 7 t, chan := ch, sent := false, data := 0, got := [], answer := none }] })
  | none => (s.noteOpErr f o 0x0A).ckEnd f 2

/-- An operation ended with a status other than OK: reissued up to three times for TIMEOUT, LINK_LOST, BUSY or MEDIA, else the
operation of the seat ends POOL_ERROR (R323). -/
def State.opFail (s : State) (f : Nat) (o : PoolOp) (status : BitVec 8) : State :=
  let s := s.noteOpErr f o status
  if (status == 9 || status == 0x0A || status == 8 || status == 5) && decide (o.retries < 3) then
    s.openOp f { o with retries := o.retries + 1 }
  else s.ckEnd f 2

/-! ### Stages -/

/-- SEAL of a record into its slot. -/
def State.issueSeal (s : State) (f : Nat) (x : SealRec) : State :=
  s.openOp f { tag := 0, op := 3, addr := sealAddr x.gen, len := 256, field := s.seatIx f, record := some x }

/-- The record of a stage. -/
def State.sealRec (s : State) (f : Nat) (state : BitVec 2) (step : BitVec 64) (root : BitVec 256) (hcrc : BitVec 32) :
    SealRec :=
  let k := s.seat f
  { gen := k.ck.gen, state := state, step := step, jobEpoch := k.cm.epoch,
    planVer := (match k.plan with | some p => p.hdr.version | none => 0), moduleId := k.cm.moduleId, root := root,
    headerCrc := hcrc }

/-- Keep a record as written or scanned (R319, Table 10-12). -/
def Ckpt.keepRec (k : Ckpt) (slot : Bool) (x : Option SealRec) : Ckpt :=
  let st := match x with | some r => r.state | none => 0
  let step := match x with | some r => r.step | none => 0
  if slot then { k with recB := x, stateB := st, genB := step, held := true }
  else { k with recA := x, stateA := st, genA := step, held := true }

/-- Generation to write (R319): not the one that holds the step last sealed or restored from; with none of those, not the
newest SEALED one; A when neither is SEALED. -/
def chooseGen (k : Ckpt) (m : BitVec 14) : Bool :=
  match k.sealedStep with
  | some (g, _) => !g
  | none =>
    match sealedIn m false k.recA, sealedIn m true k.recB with
    | some _, none => true
    | some a, some b => decide (b ≤ a)
    | none, _ => false

/-- Stage 1: the older record of the slot is withdrawn by an OPEN record (R320). -/
def State.ckOpen (s : State) (f : Nat) : State :=
  let s := s.modCk f (fun k => { k with state := 1, gen := chooseGen k (s.seat f).cm.moduleId })
  s.issueSeal f (s.sealRec f 1 (s.seat f).ck.step 0 0)

/-- SCAN of the region's seal slots. -/
def State.issueScan (s : State) (f : Nat) : State :=
  (s.modCk f (fun k => { k with state := 6 })).openOp f { tag := 0, op := 4, addr := 0, len := 2, field := s.seatIx f }

/-- Begin the write: a seat that holds no records scans first (R319). -/
def State.ckGo (s : State) (f : Nat) : State := if (s.seat f).ck.held then s.ckOpen f else s.issueScan f

/-- Every field has issued its last chunk: the committed buffer has been read (R321). -/
def Ckpt.allRead (k : Ckpt) : Bool := k.total.all (fun e => decide (e.2 ≤ Tab.get (fun _ => 0) k.next e.1))

/-- The section table of what the committed buffer holds (Table 10-3). -/
def State.noteTable (s : State) (f : Nat) : State :=
  let step := (s.seat f).ck.step
  let tab := s.sectionTable f step
  s.modCk f (fun k => { k with table := tab })

/-- READ of chunk `i` of field `g`. -/
def State.readChunk (s : State) (f g i : Nat) : State :=
  let n := Nat.min chunkSize (s.shareLen f g - i * chunkSize)
  let j := s.firstChunk f g + i
  s.openOp f { tag := 0, op := 2, addr := dataAddr (s.seat f).ck + j * chunkSize, len := n, field := g, chunk := some j }

/-- WRITE of chunk `i` of field `g`: it is read, encrypted and its leaf kept (R320). A chunk that cannot be read whole ends the checkpoint
INTEGRITY (log 13). -/
def State.writeChunk (s : State) (f g i : Nat) : State :=
  let j := s.firstChunk f g + i
  match (s.chunkSpots f g i).findSome? (fun r => firstErr (s.readErr (s.seatFields f)) r.1 r.2) with
  | some e => (s.libErr g e).ckEnd f 7
  | none =>
    let bs := s.chunkCipher f g i (s.seat f).ck.step
    let s := (s.noteCorrected (s.chunkSpots f g i)).modCk f (fun k => { k with leaves := Tab.put k.leaves j (Config.sha256 bs) })
    s.openOp f { tag := 0, op := 1, addr := dataAddr (s.seat f).ck + j * chunkSize, len := bs.length, field := g, chunk := some j, bytes := bs }

/-- Reset the progress of every field: nothing done. -/
def State.ckTotals (s : State) (f : Nat) : State :=
  let t := (s.seatFields f).foldl (fun t g => Tab.set (fun _ => 0) t g (s.shareChunks f g)) []
  s.modCk f (fun k => { k with done := [], next := [], total := t })

/-- Every chunk of the seat has completed. -/
def Ckpt.allDone (k : Ckpt) : Bool := k.total.all (fun e => Tab.get (fun _ => 0) k.done e.1 == e.2)

/-- Issue the next chunk of field `g`, if one is left (one operation per chunk, in chunk order). -/
def State.nextChunk (s : State) (f g : Nat) (op : BitVec 8) : State :=
  let k := (s.seat f).ck
  let i := Tab.get (fun _ => 0) k.next g
  if i < Tab.get (fun _ => 0) k.total g then
    let s := s.modCk f (fun k => { k with next := Tab.set (fun _ => 0) k.next g (i + 1) })
    if op = 2 then s.readChunk f g i
    else
      let s := s.writeChunk f g i
      if (s.seat f).ck.allRead then s.noteTable f else s
  else s

/-- Stage 3: WRITE of the header. -/
def State.ckHeader (s : State) (f : Nat) : State :=
  let h := s.header f (s.seat f).ck.step
  (s.modCk f (fun k => { k with state := 4, header := h })).openOp f
    { tag := 0, op := 1, addr := headerAddr (s.seat f).ck.gen, len := h.length, field := s.seatIx f, bytes := h }

/-- Chunks (field, index in its share) that hold bytes of a unit (R322). -/
def State.chunksOfUnit (s : State) (f : Nat) (u : ShardUnit) : List (Nat × Nat) :=
  let g := u.core / 500
  let o := ((((s.seat f).unitsIn g).takeWhile (fun v => !(v.core == u.core && v.record == u.record))).map unitLen).sum
  (List.range ((o + unitLen u - 1) / chunkSize + 1 - o / chunkSize)).map (fun i => (g, o / chunkSize + i))

/-- Awaiting the summary (R322): UNSAFE over an UNRESOLVED unit; chunks with a corrected unit are written again; then the
header. A summary that comes after the next commit serves as well, unless a fix that it reports would have to be read from the buffer (R321). A seat without a valid partner waits for no summary (log 13). -/
def State.ckSummary (s : State) (f : Nat) : State :=
  let k := s.seat f
  if k.ck.state ≠ 3 then s
  else if !k.cm.partnerOk then s.ckHeader f
  else match k.ck.summary with
    | none => s
    | some m =>
      if m.unresolved then s.ckEnd f 3
      else if k.cm.committed ≠ k.ck.step then (if m.ownerFix.isEmpty then s.ckHeader f else s.ckEnd f 1)
      else if !k.cm.ownFixDue.isEmpty then s
      else match k.ck.rewrites with
        | [] => s.ckHeader f
        | p :: r => ((s.modCk f (fun c => { c with rewrites := r })).writeChunk f p.1 p.2).noteTable f

/-- Stage 2 begins: every field issues its first chunk. -/
def State.ckData (s : State) (f : Nat) : State :=
  let s := (s.modCk f (fun k => { k with state := 2 })).ckTotals f
  if (s.seat f).ck.allDone then ((s.modCk f (fun k => { k with state := 3 })).noteTable f).ckSummary f
  else eachOf (s.seatFields f) (fun g t => if (t.seat f).ck.state = 2 then t.nextChunk f g 1 else t) s

/-! ### Restore (R327, R328) -/

/-- The generation whose valid SEALED record holds a step. -/
def recordOf (k : Ckpt) (m : BitVec 14) (step : BitVec 64) : Option SealRec :=
  if sealedIn m false k.recA = some step then k.recA
  else if sealedIn m true k.recB = some step then k.recB
  else none

/-- Steps 1 and 2: the record, then a READ of the header. -/
def State.restoreGo (s : State) (f : Nat) : State :=
  let k := s.seat f
  match recordOf k.ck k.cm.moduleId k.ck.step with
  | none => s.ckEnd f 6
  | some x =>
    (s.modCk f (fun k => { k with state := 7, gen := x.gen })).openOp f
      { tag := 0, op := 2, addr := headerAddr x.gen, len := 0x100000, field := s.seatIx f }

/-- Void the next slot whose valid SEALED record has a step above the restored one, or end OK. -/
def State.voidNext (s : State) (f : Nat) : State :=
  let k := s.seat f
  let newer (g : Bool) (x : Option SealRec) : Bool := match sealedIn k.cm.moduleId g x with | some t => k.ck.step < t | none => false
  let go (x : Option SealRec) (s : State) : State :=
    match x with
    | some r => (s.modCk f (fun k => { k with state := 8 })).issueSeal f { r with state := 3, root := 0, headerCrc := 0, jobEpoch := k.cm.epoch }
    | none => s
  if newer false k.ck.recA then go k.ck.recA s
  else if newer true k.ck.recB then go k.ck.recB s
  else s.ckEnd f 0

/-- The Cubby is empty (R328): the stream pointers and flags of every control block are zero (Table 07-9). -/
def State.emptyCubby (s : State) (g : Nat) : State :=
  let b := (s.field g).lb
  let s := if b.enable then
      b.segs.foldl (fun t x =>
        let a := slateBase (500 * g + x.core) + b.ccb.toNat
        (t.libWrite g a (List.replicate 32 0)).libWrite g (a + 0x34) (List.replicate 4 0)) s
    else s
  s.modLb g (fun b => { b with turned := [], failed := [], redirect := false })

/-- What a successful restore sets (R328). -/
def State.restored (s : State) (f : Nat) : State :=
  let k := s.seat f
  let ver := match recordOf k.ck k.cm.moduleId k.ck.step with | some x => some x.planVer | none => none
  let s := s.modSeat f (fun k =>
    let k := k.restartReads k.ck.step
    { k with shardVer := ver, noShard := false,
             cm := { k.cm with buffer := false, committed := k.ck.step, live := k.ck.step, own := [], copy := [], hist := [], units := [],
                               partnerStep := some k.ck.step, firstStep := true, summary := none, ownFixDue := [], clipDue := false },
             ck := { k.ck with sealedStep := some (k.ck.gen, k.ck.step) } })
  let s := s.modLbs f (fun b => { b with mirrorFor := 0xFFFFFFFFFFFFFFFF, mState := 0, verified := false, selfChecked := false,
                                         unresolved := false })
  (eachOf (s.seatFields f) (fun g t => t.emptyCubby g) s).voidNext f

/-! ### Completion of an operation -/

/-- Bytes of a READ or SCAN as its data flits delivered them, in order of OFFSET (R304). -/
def PoolOp.data' (o : PoolOp) (n : Nat) : List Byte :=
  ((List.range ((n + 255) / 256)).flatMap (fun i => padTo 256 (Tab.get (fun _ => []) o.got i))).take n

/-- Decrypt data units from unit index `u` on. -/
def plainUnits (k : Ckpt) (m : BitVec 14) : Nat → Nat → List Byte → List Byte
  | 0, _, _ => []
  | n + 1, u, bs => Config.xtsInv (k.keys.setWidth 512) (ckTweak k m u) (bs.take 512) ++ plainUnits k m n (u + 1) (bs.drop 512)

/-- Write the part of chunk bytes, which stand at `lo` of the share, that belongs to each place of a shard buffer. -/
def State.placePlain (s : State) (g base lo : Nat) (bs : List Byte) (places : List (Nat × Nat × Nat)) : State :=
  places.foldl (fun t p =>
    let a := Nat.max p.1 lo
    let b := Nat.min (p.1 + p.2.1) (lo + bs.length)
    if a < b then t.libWrite g (base + p.2.2 + (a - p.1)) ((bs.drop (a - lo)).take (b - a)) else t) s

/-- Entry `i` of a header's section table: KIND, FIELD, LEN, CRC. -/
def headerSec (h : List Byte) (i : Nat) : Nat × Nat × Nat × Nat :=
  let w (o n : Nat) : Nat := ofLe ((h.drop (0x100 + 32 * i + o)).take n)
  (w 0 2, w 2 1, w 16 8, w 24 4)

/-- Sections of a generation as the plan lays them out: KIND, FIELD, LEN. -/
def State.planSecs (s : State) (f : Nat) : List (Nat × Nat × Nat) :=
  (s.seatFields f).flatMap (fun g => (s.sectionLens f g).map (fun x => (x.1, g, x.2)))

/-- Step 2 and 3 of R327 on a header: INTEGRITY (7), LAYOUT (8), or none. -/
def State.headerBad' (s : State) (f : Nat) (h : List Byte) : Option (BitVec 8) :=
  let k := s.seat f
  let w (o n : Nat) : Nat := ofLe ((h.drop o).take n)
  let n := w 0x20 4
  let ls := (List.range n).map (fun i => BitVec.ofNat 256 (w (0x1000 + 32 * i) 32))
  match recordOf k.ck k.cm.moduleId k.ck.step with
  | none => some 7
  | some x =>
    if crc32c h ≠ x.headerCrc ∨ (headerMac k.ck h).toNat ≠ w 0x50 32 ∨ w 0x30 32 ≠ x.root.toNat ∨ merkle 32 ls ≠ x.root then some 7
    else if w 0x24 4 ≠ (s.planSecs f).length ∨ n ≠ s.chunkCount f ∨
        (List.range (w 0x24 4)).map (fun i => let e := headerSec h i; (e.1, e.2.1, e.2.2.1)) ≠ s.planSecs f then some 8
    else none

/-- Header of a restore: INTEGRITY, LAYOUT, or every field reads its chunks (R327). -/
def State.restoreHeader (s : State) (f : Nat) (data : List Byte) : State :=
  let h := data.take (ofLe ((data.drop 0x2C).take 4))
  match s.headerBad' f h with
  | some c => s.ckEnd f c
  | none =>
    let n := s.chunkCount f
    let s := (s.modSeat f (fun k => { k with noShard := true, shardVer := none })).modCk f (fun k =>
      { k with header := h, leaves := (List.range n).foldl (fun t i => Tab.put t i (BitVec.ofNat 256 (ofLe ((h.drop (0x1000 + 32 * i)).take 32)))) [] })
    let s := s.ckTotals f
    eachOf (s.seatFields f) (fun g t => t.nextChunk f g 2) s

/-- The Librarian of field `g` reads ranges one after the other; none where one cannot be read. -/
def State.libReads (s : State) (g : Nat) (l : List (Nat × Nat)) : State × Option (List Byte) :=
  l.foldl (fun p r =>
    match p.2 with
    | none => p
    | some bs => match p.1.libRead g r.1 r.2 with
      | (t, some cs) => (t, some (bs ++ cs))
      | (t, none) => (t, none)) (s, some [])

/-- CRC of each section of field `g` as it is read back from shard buffer 0, and of KEYSTATE as it was read; none for what cannot be read. -/
def State.restoredCrcs (s : State) (f g : Nat) : State × List (Option Nat) :=
  let k := s.seat f
  let h := s.histPart f g
  let u := s.libReads g ((k.unitsIn g).map (fun u => (k.regions.shard0 + u.offset, unitLen u)))
  let v := u.1.libReads g [(k.regions.shard0 + h.1, h.2)]
  let crc (x : Option (List Byte)) : Option Nat := x.map (fun bs => (crc32c bs).toNat)
  (v.1, [crc u.2, crc v.2] ++ (if g = s.seatIx f then [crc (some k.ck.keyPlain)] else []))

/-- Every chunk has landed: the sections' CRCs and KEYSTATE are checked (R327). -/
def State.restoreEnd (s : State) (f : Nat) : State :=
  let k := s.seat f
  let w (o n : Nat) : Nat := ofLe ((k.ck.keyPlain.drop o).take n)
  let r := (s.seatFields f).foldl (fun (p : State × List (Option Nat)) g => let x := p.1.restoredCrcs f g; (x.1, p.2 ++ x.2)) (s, [])
  let s := r.1
  let crcs := r.2
  if crcs ≠ (List.range crcs.length).map (fun i => some (headerSec k.ck.header i).2.2.2) then s.ckEnd f 7
  else if w 8 8 ≠ k.ck.step.toNat ∨ w 18 2 ≠ k.cm.moduleId.toNat then s.ckEnd f 7
  else s.restored f

/-- A chunk read for a restore: one that does not match its leaf is read again, up to three times (R323, R327); any other is decrypted into
shard buffer 0. -/
def State.restoreChunk (s : State) (f j : Nat) (o : PoolOp) (data : List Byte) : State :=
  let k := s.seat f
  let g := o.field
  if Config.sha256 data ≠ Tab.get (fun _ => 0) k.ck.leaves j then
    (if o.retries < 3 then s.openOp f { o with retries := o.retries + 1 } else s.ckEnd f 7)
  else
    let bs := plainUnits k.ck k.cm.moduleId (data.length / 512) (j * (chunkSize / 512)) data
    let lo := (j - s.firstChunk f g) * chunkSize
    let keyAt := s.shareLen f g - 4096
    let s := s.placePlain g k.regions.shard0 lo bs (s.sharePlaces f g)
    let s := s.modCk f (fun c =>
      { c with done := Tab.set (fun _ => 0) c.done g (Tab.get (fun _ => 0) c.done g + 1),
               keyPlain := if g = s.seatIx f ∧ lo ≤ keyAt ∧ keyAt < lo + bs.length then (bs.drop (keyAt - lo)).take 64 else c.keyPlain })
    if (s.seat f).ck.allDone then s.restoreEnd f else s.nextChunk f g 2

/-- Records of a SCAN, marked valid or not (R325). -/
def marked (m : BitVec 14) (slot : Bool) (x : Option SealRec) : Option SealRec :=
  x.map (fun r => { r with crcOk := recValid m slot r })

/-- Seal records of slot A and slot B among `n` that a SCAN returned, in ascending ADDR; a single one is that of the slot its GEN names
(log 13). -/
def scanRecs (n : Nat) (bs : List Byte) : Option SealRec × Option SealRec :=
  let a := sealOf (bs.take 64)
  let b := sealOf ((bs.drop 64).take 64)
  if n = 0 then (none, none)
  else if n = 1 then (if a.gen then (none, some a) else (some a, none))
  else (some a, some b)

/-- A SCAN has returned: for Job SCAN the answer, else the operation it served goes on. -/
def State.scanned (s : State) (f n : Nat) (data : List Byte) : State :=
  let (a, b) := scanRecs n data
  let s := s.modCk f (fun k => (k.keepRec false a).keepRec true b)
  let k := s.seat f
  let m := k.cm.moduleId
  match k.ck.trigger.toNat with
  | 0 =>
    if (sealedIn m false a).isNone ∧ (sealedIn m true b).isNone then s.ckEnd f 0 (.seals none none)
    else s.ckEnd f 0 (.seals (marked m false a) (marked m true b))
  | 3 => s.restoreGo f
  | _ => s.ckOpen f

/-- A SEAL has completed OK: the next stage. -/
def State.sealed (s : State) (f : Nat) (o : PoolOp) : State :=
  let s := match o.record with
    | some x => s.modCk f (fun k => k.keepRec x.gen (some x))
    | none => s
  match (s.seat f).ck.state.toNat with
  | 1 => s.ckData f
  | 5 => (s.modCk f (fun k => { k with sealedStep := some (k.gen, k.step) })).ckEnd f 0
  | 8 => s.voidNext f
  | _ => s

/-- A WRITE has completed OK. -/
def State.written (s : State) (f : Nat) (o : PoolOp) : State :=
  match (s.seat f).ck.state.toNat with
  | 2 =>
    let s := s.modCk f (fun k => { k with done := Tab.set (fun _ => 0) k.done o.field (Tab.get (fun _ => 0) k.done o.field + 1) })
    if (s.seat f).ck.allDone then (s.modCk f (fun k => { k with state := 3 })).ckSummary f else s.nextChunk f o.field 1
  | 3 => s.ckSummary f
  | 4 =>
    let k := (s.seat f).ck
    (s.modCk f (fun k => { k with state := 5 })).issueSeal f
      (s.sealRec f 2 k.step (merkle 32 (k.leafList (s.chunkCount f))) (crc32c k.header))
  | _ => s

/-- An operation completed OK, `n` bytes or records delivered. -/
def State.opDone (s : State) (f : Nat) (o : PoolOp) (n : Nat) : State :=
  match o.op.toNat with
  | 1 => s.written f o
  | 2 => match o.chunk with
    | some j => s.restoreChunk f j o (o.data' o.len)
    | none => s.restoreHeader f (o.data' o.len)
  | 3 => s.sealed f o
  | 4 => s.scanned f n (o.data' (64 * n))
  | _ => s

/-- The open operation of a tag. -/
def Link.op (k : Link) (tag : BitVec 7) : Option PoolOp := k.ops.find? (fun o => o.tag == tag)

/-- Close the operation of a tag. -/
def Link.close (k : Link) (tag : BitVec 7) : Link := { k with ops := k.ops.filter (fun o => o.tag != tag) }

/-- End the operation of a tag with a status (R306); `n` is what it delivered. -/
def State.endOp (s : State) (l : Nat) (tag : BitVec 7) (status : BitVec 8) (n : Nat := 0) : State :=
  match (s.link l).op tag with
  | none => s
  | some o =>
    let f := fieldOfLink l
    let s := s.modLink l (fun k => k.close tag)
    if status = 0 then s.opDone f o n else s.opFail f o status

/-- Data flits that a READ or a SCAN of `n` bytes or records takes (R305). -/
def PoolOp.flits (o : PoolOp) (n : Nat) : Nat := if o.op = 2 then (o.len + 255) / 256 else if o.op = 4 then (n + 3) / 4 else 0

/-- All data of an operation has come. -/
def PoolOp.whole (o : PoolOp) (n : Nat) : Bool := (List.range (o.flits n)).all (fun i => (Tab.find o.got i).isSome)

/-- Change the operation of a tag. -/
def Link.modOp (k : Link) (tag : BitVec 7) (g : PoolOp → PoolOp) : Link :=
  { k with ops := k.ops.map (fun o => if o.tag = tag then g o else o) }

/-- A response: it closes the operation, but one whose data flits are not all there waits for them (R302, R305; log 13). -/
def State.poolAnswer (s : State) (l : Nat) (tag : BitVec 7) (status : BitVec 8) (n : Nat) : State :=
  match (s.link l).op tag with
  | none => s
  | some o =>
    if status = 0 ∧ !o.whole n then s.modLink l (fun k => k.modOp tag (fun o => { o with answer := some n }))
    else s.endOp l tag status n

/-- A data flit of an operation is written at its OFFSET (R285, R304); the last one closes an operation whose response has come. -/
def State.poolData (s : State) (l : Nat) (tag : BitVec 7) (off : Nat) (bytes : List Byte) : State :=
  let s := s.modLink l (fun k => k.modOp tag (fun o => { o with got := Tab.put o.got off bytes }))
  match (s.link l).op tag with
  | some o => match o.answer with
    | some n => if o.whole n then s.endOp l tag 0 n else s
    | none => s
  | none => s

/-- POOL_RESPONSE: a response closes the operation of its tag (R302, R305, R306). -/
def execPoolResponse (l : Nat) (tag : BitVec 7) (status : BitVec 8) (delivered : Nat) (s : State) : State :=
  s.poolAnswer l tag status delivered

/-- POOL_TIMEOUT: no response within 50 ms of the command (R302). -/
def execPoolTimeout (l : Nat) (tag : BitVec 7) (s : State) : State := s.endOp l tag 0x09

/-! ### Triggers (R316 to R318, R321) -/

/-- A trigger at the commit verdict of a step: SKIPPED while an operation runs, NO_REGION without region or secret, else the
pass is taken and the write begins, after the corrected units of a clip have landed. -/
def State.startCkpt (s : State) (f : Nat) (step : BitVec 64) (trigger : BitVec 2) (rs : List Req) : State :=
  let k := (s.seat f).ck
  if k.state ≠ 0 then s.ckNote f 4 rs
  else if !k.regionOk || !k.keyOk then s.ckNote f 5 rs
  else
    let s := s.bigPass 9 32 (s.partOf f) false
    let s := s.modCk f (fun k =>
      { k with state := 1, trigger := trigger, step := step, reqs := rs, rewrites := [], done := [], next := [], total := [], leaves := [],
               table := [], header := [], summary := none, seed := (match ((s.seat f).cm.ownSlot (step.toNat % 3)).hdr with
                 | some h => if h.step = step then h.seed else 0
                 | none => 0),
               waitLand := (s.seat f).cm.clipDue })
    if (s.seat f).ck.waitLand then s else s.ckGo f

/-- The checkpoint has not finished reading the committed buffer. -/
def Ckpt.reading (k : Ckpt) : Bool :=
  (k.trigger == 1 || k.trigger == 2) &&
    (k.state == 1 || (k.state == 2 && !k.allRead) || k.state == 6 || (k.state == 3 && !k.rewrites.isEmpty))

/-- A unit that an OWNER_FIX corrects is read again while the checkpoint of its step is being written (R322). -/
def Ckpt.rereads (k : Ckpt) : Bool := (k.trigger == 1 || k.trigger == 2) && (k.state == 1 || k.state == 2 || k.state == 3 || k.state == 6)

/-- A checkpoint still reading at the next commit verdict ends ABANDONED; so does one that waits for a fix, whose chunk it would read again (R321). -/
def State.ckAbandon (s : State) (f : Nat) : State :=
  let k := s.seat f
  if k.ck.reading || (k.ck.rereads && !k.cm.ownFixDue.isEmpty) then s.ckEnd f 1 else s

/-- A reset, wipe or loss of the seat ends a running operation INTERRUPTED (R324). -/
def State.ckInterrupt (s : State) (f : Nat) : State := if (s.seat f).ck.state = 0 then s else s.ckEnd f 0x0B

/-- An armed command matches the commit of a step at a bell (R316). -/
def Arm.hits (a : Arm) (bell step : BitVec 64) : Bool :=
  match a with
  | .bell n => n ≤ bell
  | .step t => t == step

/-- Checkpoint triggers of a commit verdict: the armed commands that it meets and CKPT_REQ make one checkpoint (R316); a
generation 2 job has none (R357). -/
def State.ckTrigger (s : State) (f : Nat) (step : BitVec 64) (req : Bool) : State :=
  if (s.seat f).ck.off then s else
  let b := (s.seat f).tt.bell
  let hits := ((s.seat f).ck.arms.filter (fun a => a.1.hits b step)).map (·.2)
  let s := s.modCk f (fun k => { k with lastCommit := some b, arms := k.arms.filter (fun a => !a.1.hits b step) })
  if !hits.isEmpty then s.startCkpt f step 1 hits
  else if req then s.startCkpt f step 2 []
  else s

end Sys2Proof.Machine
end

