-- ==== Sys2Proof/Machine/Words.lean ====
section
/-! DEFINITION. Status words (R69 to R72, Table 02-10): their fields, the folding of periods and the combining of seats. -/

namespace Sys2Proof.Machine

/-- A status word from its fields. -/
def mkWord (flags : BitVec 9) (mirrorOk : Bool) (layer count ver : BitVec 16) : BitVec 64 :=
  BitVec.ofNat 64 (flags.toNat + 512 * b2n mirrorOk + 65536 * layer.toNat + 2 ^ 32 * count.toNat + 2 ^ 48 * ver.toNat)

def wordFlags (w : BitVec 64) : BitVec 9 := w.extractLsb' 0 9
def wordMirror (w : BitVec 64) : Bool := w.getLsbD 9
def wordLayer (w : BitVec 64) : BitVec 16 := w.extractLsb' 16 16
def wordCount (w : BitVec 64) : BitVec 16 := w.extractLsb' 32 16
def wordVer (w : BitVec 64) : BitVec 16 := w.extractLsb' 48 16

/-- The smaller and the larger of two 16-bit fields. -/
def min16 (a b : BitVec 16) : BitVec 16 := if a < b then a else b
def max16 (a b : BitVec 16) : BitVec 16 := if a < b then b else a

/-- Saturating sum of two 16-bit fields. -/
def satAdd16 (a b : BitVec 16) : BitVec 16 := BitVec.ofNat 16 (Nat.min (a.toNat + b.toNat) 0xFFFF)

/-- The empty word (R72). -/
def emptyWord (ver : BitVec 16) : BitVec 64 := mkWord 0 true 0xFFFF 0 ver

/-- A child word that has not arrived (R71). -/
def missingWord (ver : BitVec 16) : BitVec 64 := mkWord 1 true 0xFFFF 1 ver

/-- TAINT when two plan versions differ (R69, R71). -/
def verTaint (a b : BitVec 16) : BitVec 9 := if a = b then 0 else 1

/-- Fold the word of a later period into an accumulator (R72): FLAG_COUNT by maximum, OVF_LAYER by minimum. -/
def foldWord (a w : BitVec 64) : BitVec 64 :=
  mkWord (wordFlags a ||| wordFlags w ||| verTaint (wordVer a) (wordVer w)) (wordMirror a && wordMirror w)
    (min16 (wordLayer a) (wordLayer w)) (max16 (wordCount a) (wordCount w)) (wordVer a)

/-- Combine a child's word into a node's (R71): FLAG_COUNT adds, the node's PLAN_VER stands. -/
def joinWord (a w : BitVec 64) : BitVec 64 :=
  mkWord (wordFlags a ||| wordFlags w ||| verTaint (wordVer a) (wordVer w)) (wordMirror a && wordMirror w)
    (min16 (wordLayer a) (wordLayer w)) (satAdd16 (wordCount a) (wordCount w)) (wordVer a)

/-- The condition word V of R74: bits [8:0], and bit 9 where MIRROR_OK is clear. -/
def condWord (w : BitVec 64) : BitVec 10 := (wordFlags w).setWidth 10 ||| (if wordMirror w then 0 else 512)

/-- Verdict and continuation of a step (Tables 01-3 and 02-11): `replay` says that an abort of the step came before,
`aborts` counts the aborts in a row before this one. -/
def judgeWord (w : BitVec 64) (replay : Bool) (aborts limit : Nat) : Verdict :=
  let fl := wordFlags w
  let fault := fl &&& 7 != 0 || !wordMirror w
  if fl.getLsbD 8 && (replay || !fault) then { abort := true, nonfinite := true, cont := 3 }
  else if fault then
    (if aborts + 1 < limit then { abort := true, cont := 1 } else { abort := true, limit := true, cont := 3 })
  else
    { commit := true, clip := fl.getLsbD 5, ckpt := fl.getLsbD 6, subst := fl.getLsbD 7,
      cont := if fl.getLsbD 7 then 3 else if fl.getLsbD 5 then 2 else 0 }

end Sys2Proof.Machine
end

