-- ==== Sys2Proof/Machine/Links.lean ====
section
/-! DEFINITION. Shared operations of the links (R283 to R297, R365): scoring of wavelengths, the resend queue, loss of flits, the
departure of a link from LOCKED, and the links' place in the status tree (R65, R66). -/

namespace Sys2Proof.Machine

/-! ### The seat's place in the tree (Table 02-9) -/

/-- Links of a seat. -/
def State.seatLinks (s : State) (f : Nat) : List Nat := (s.seatFields f).flatMap linksOfField

/-- The REDUCE entry of the loaded image. -/
def State.reduceEntry (s : State) (f : Nat) : Entry := (s.block (s.seatIx f)).getD 0 0

/-- Links to tree children. -/
def State.treeChildren (s : State) (f : Nat) : List Nat :=
  (List.range 24).filter (fun l => bit (efield (s.reduceEntry f) 116 93) l)

/-- The link leads to the tree parent. -/
def State.isParentLink (s : State) (l : Nat) : Bool :=
  let k := s.seat (fieldOfLink l)
  k.plan.isSome && !k.tt.isRoot && k.tt.parent.toNat == l

/-! ### Report cards of a link -/

/-- Card of a wavelength of a link. -/
def waveIx (l k : Nat) : Nat := 9 * (l % 6) + k

/-- Score an event on the wavelengths with the most corrected symbols; none when no symbol was corrected (Table 12-3). -/
def State.scoreWaves (s : State) (l w : Nat) (ce : List (Nat × Nat)) : State :=
  let top := ce.foldl (fun m e => Nat.max m e.2) 0
  if top = 0 then s
  else (ce.filter (fun e => e.2 == top && decide (e.1 < 9))).foldl
    (fun t e => t.demerit (fieldOfLink l) 4 (waveIx l e.1) w) s

/-- A lost flit: counted, and scored on its period's wavelengths. -/
def State.lostFlit (s : State) (l : Nat) : State :=
  (s.bump (flBase l + 0x38)).scoreWaves l 32 (s.link l).ceNow

/-! ### The resend queue (R287) -/

/-- A kept flit that can never be resent: resent as often as allowed, or its period too old for a region of period `q`. -/
def Link.spent (k : Link) (q : BitVec 64) (x : Kept) : Bool :=
  decide (k.resendMax.toNat ≤ x.resends) || decide (k.resendAge.toNat < (q - x.bell).toNat)

/-- Drop queued flits that can never be resent: counted by the sender; a POOL flit fails its operation (R288). -/
def State.dropSpent (s : State) (l : Nat) (q : BitVec 64) : State :=
  let k := s.link l
  let gone := k.kept.filter (fun x => x.queued && k.spent q x)
  let s := s.modLink l (fun k => { k with kept := k.kept.filter (fun x => !(x.queued && k.spent q x)) })
  gone.foldl (fun s x =>
    let s := s.lostFlit l
    if x.flit.kind = 5 then s.endOp l x.flit.tag 0x0A else s) s

/-! ### Leaving LOCKED -/

/-- Every open pool operation of a link fails LINK_LOST (Table 09-6). -/
def State.opsLost (s : State) (l : Nat) : State :=
  (s.link l).ops.foldl (fun t o => t.endOp l o.tag 0x0A) s

/-- End an activity's pass on a link (R299, Table 12-8). -/
def State.endLinkPass (s : State) (l : Nat) (code : BitVec 4) : State := s.modHm (fieldOfLink l) (fun h => h.endPass code (l % 6))

/-- A link takes a new state; one that is dark receives no power (Table 09-17). Leaving LOCKED sets TAINT, drops what waits on the link, voids its quiz and fails its pool operations (R288, R297); a swap
that waits is given up, and a retrain that has failed returns its pass. -/
def State.linkTo (s : State) (l : Nat) (st : LinkState) (reason : BitVec 4 := 0) : State :=
  if 24 ≤ l then s else
  let was := (s.link l).st
  let swap := (s.link l).swap.isSome
  let dark : Bool := st == .dark || st == .off
  let s := s.modLink l (fun k =>
    { k with st := st, reason := reason, opt := if dark then Tab.each (fun _ => {}) k.opt (fun o => { o with rx := 0x8000 }) else k.opt })
  let s := if st = .failed then s.endLinkPass l 3 else s
  if was = .locked ∧ st ≠ .locked then
    let s := s.modLink l (fun k => { k with kept := [], answer := none, swap := none, lctl := [], confirmed := false, quizVoid := true })
    ((if swap then s.endLinkPass l 4 else s).taint (fieldOfLink l)).opsLost l
  else s

/-- The absent pattern goes out on a link that was up: it leaves LOCKED or RANGING and comes up again from DARK (R284). -/
def State.sendAbsent (s : State) (l : Nat) : State :=
  if 24 ≤ l then s else
  let st := (s.link l).st
  if st = .off ∨ st = .failed then s
  else (s.linkTo l .dark).modLink l (fun k => { k with absent := true })

/-- A link enters IDENT with a fresh BRINGUP, its IDENT flits counted from 0 (R295); its absent pattern ends (R284). -/
def State.enterIdent (s : State) (l : Nat) : State :=
  ((s.linkTo l .ident).modLink l (fun k =>
    { k with bringup := s.freshWord.setWidth 56, seq := 0, echoDue := none, confirmed := false, ranged := false,
             absent := false })).burn

/-- Link keys and the expected peer are gone (R294). -/
def Link.unkeyed (k : Link) : Link :=
  { k with keyEpoch := none, keyTx := 0, keyRx := 0, wantLink := 0, node := 0, peerLink := 0, pool := false, serial := 0, nodeOk := false, confirmed := false }

/-- The controller's peer for a link: its id, serial, link index and kind, with the keys of both directions for the job epoch (R293, R294); an unused
link is enabled (Table 09-4). -/
def Link.given (k : Link) (own : BitVec 128) (p : PeerSpec) (epoch : BitVec 32) : Link :=
  { k with node := p.node, pool := p.pool, serial := p.serial, wantLink := p.peerLink, nodeOk := true, confirmed := false, keyEpoch := some epoch,
           keyTx := linkKey own p.serial p.link p.peerLink epoch, keyRx := linkKey p.serial own p.peerLink p.link epoch,
           st := if k.st = .off then .dark else k.st }

/-- Give the links their peers; one that waits in IDENT begins the exchange with a fresh BRINGUP (R295). -/
def State.givePeers (s : State) (peers : List PeerSpec) (epoch : BitVec 32) : State :=
  peers.foldl (fun t p =>
    let t := t.modLink p.link (fun k => k.given t.store.serial p epoch)
    if (t.link p.link).st = .ident then t.enterIdent p.link else t) s

/-- The seat's bell count is not the job's until it is taken up again (R48, R295); the tree's root holds its own. -/
def Seat.uncounted (k : Seat) : Seat := { k with tt := { k.tt with counted := k.plan.isSome && k.tt.isRoot } }

/-! ### The seat's identity (R268, R311) -/

/-- The keys of a checkpoint secret depend on the module id (R311). -/
def Ckpt.rekey (k : Ckpt) (m : BitVec 14) : Ckpt := if k.keyOk then { k with keys := ckptKeys k.secret m k.keyId } else k

/-- A seat takes a module id and a job epoch; commits of another job count no more (R316). -/
def Seat.takeId (k : Seat) (m : BitVec 14) (epoch : BitVec 32) (state : BitVec 3) : Seat :=
  { k with cm := { k.cm with moduleId := m, epoch := epoch, seatState := state }, ck := { k.ck.rekey m with lastCommit := none, off := false } }

/-- A seat takes its module id, its job epoch and its peers (R29, R294). -/
def State.takeSeat (s : State) (f : Nat) (m : BitVec 14) (epoch : BitVec 32) (peers : List PeerSpec) : State :=
  (s.modSeat f (fun k => (k.takeId m epoch 4).uncounted)).givePeers peers epoch

/-- The seat takes a bell count; a commit that a lower count has yet to reach is none (R316). -/
def Seat.setBell (k : Seat) (b : BitVec 64) : Seat :=
  { k with tt := { k.tt with bell := b }, ck := { k.ck with lastCommit := k.ck.lastCommit.filter (fun x => decide (x ≤ b)) } }

/-- The seat is unlocked (Table 02-1): its links send the absent pattern and it takes no further part in the job. -/
def State.unlock (s : State) (f : Nat) : State :=
  eachOf (s.seatLinks f) (fun l t => if (t.link l).st = .locked ∨ (t.link l).st = .ranging then t.sendAbsent l else t)
    (s.modTt f (fun t => { t with syncState := 0 }))

end Sys2Proof.Machine
end

