-- ==== Sys2Proof/Machine/Health.lean ====
section
/-! DEFINITION. The Hall Monitor (R364 to R381, R444): card states, remedies and their boundaries, substitution, quizzes,
margin measurement, requests to the job, and its commands. -/

namespace Sys2Proof.Machine

/-! ### Cards -/

/-- Card of a card number. -/
def Hm.cardAt (h : Hm) (i : Nat) : Card := Tab.get (fun _ => {}) h.cards i

/-- The step of Table 12-5 that matches a score: 1 to 3 supply or the kind's remedies in order, 4 and 5 clock steps, 6 substitution. -/
def scoreStep (score : Nat) : Nat :=
  if 1000 ≤ score then 6 else if 800 ≤ score then 5 else if 700 ≤ score then 4 else if 600 ≤ score then 3 else if 500 ≤ score then 2
  else if 400 ≤ score then 1 else 0

/-- A kind has a step, and R62 allows it under the loaded plan, whose TT_MARGIN_MIN.LOWEST is `low` (Tables 12-5, 12-6). -/
def hasStep (kind low n : Nat) : Bool :=
  match kind with
  | 1 => decide (n ≤ 3 ∨ n = 4 ∧ 1 ≤ low ∨ n = 5 ∧ low = 2 ∨ n = 6)
  | 2 => decide (n ≤ 3 ∨ n = 6)
  | 3 => decide (n ≤ 2)
  | 4 => decide (n ≤ 2 ∨ n = 6)
  | 5 => decide (n ≤ 2 ∨ n = 6)
  | 6 => decide (n = 6)
  | _ => false

/-- The remedy step a score calls for: the matching one, or the next deeper one that is available, down to substitution, for a step that the kind
lacks too; 0 where none is left (R369). -/
def calledStep (kind score low : Nat) : Nat :=
  if scoreStep score = 0 then 0
  else (([1, 2, 3, 4, 5, 6].filter (fun n => decide (scoreStep score ≤ n))).find? (hasStep kind low)).getD 0

/-- A channel's refresh rate is doubled: its card's first remedy (Table 12-6). -/
def Hm.refreshDoubled (h : Hm) (ch : Nat) : Bool := (h.card 3 ch).steps.contains 1

/-- State of a card after its re-evaluation (R366, Table 12-4). -/
def nextCardState (h : Hm) (k : Card) : CardState :=
  let rest := if k.proven h then CardState.good else .probation
  match k.st with
  | .probation | .good => if 400 ≤ k.score then .remedial else if 100 ≤ k.score then .watch else rest
  | .watch => if 400 ≤ k.score then .remedial else if k.score < 50 then rest else .watch
  | st => st

/-- Write a card's record in the information store (R368, R429). -/
def putCard (t : Tab (NvRec Card)) (i : Nat) (k : Card) : Tab (NvRec Card) :=
  let d : NvRec Card := { a := {}, b := {} }
  Tab.set (fun _ => d) t i ((Tab.get (fun _ => d) t i).put k)

/-- Write a card; a change of state is written to the information store with it (R368). -/
def Hm.writeCard (h : Hm) (i : Nat) (k : Card) : Hm :=
  let old := h.cardAt i
  let h' := { h with cards := Tab.set (fun _ => {}) h.cards i k }
  if old.st = k.st then h' else { h' with stored := putCard h'.stored i { k with dirty := k.dirty + h'.storedPeriods - h'.periods } }

/-- Insert in rising order. -/
def insertNat (x : Nat) : List Nat → List Nat
  | [] => [x]
  | y :: r => if x ≤ y then x :: y :: r else y :: insertNat x r

/-- Median: the middle value, or the mean of the two middle values rounded down; none of nothing. -/
def median (l : List Nat) : Option Nat :=
  let s := l.foldl (fun a x => insertNat x a) []
  match s with
  | [] => none
  | _ => some ((s.getD ((s.length - 1) / 2) 0 + s.getD (s.length / 2) 0) / 2)

/-- Factory baseline of a level input of a card: a tile's voltage and clock margins are measured in mV and MHz, every other input in ten-thousandths of
its baseline (R365, R373). -/
def marginBase (f i input : Nat) : Nat := if i / 8192 = 1 ∧ input ≤ 1 then Config.factoryMargin f i input + 1 else 10000

/-- When probation has completed each reference becomes the median of the unit's own measurements of that input, at most the factory baseline, and is
fixed from then on (R367). -/
def Card.fix (f i : Nat) (h : Hm) (k : Card) : Card :=
  if !k.proven h then k
  else { k with samples := [], refs := k.samples.foldl (fun t e =>
    if (Tab.find t e.1).isSome then t
    else match median ((k.samples.filter (fun x => x.1 == e.1)).map (·.2)) with
      | some r => Tab.put t e.1 (Nat.min r (marginBase f i e.1))
      | none => t) k.refs }

/-- Cards that no event has touched become GOOD when their 1,000,000th clean period has passed, and are stored with that state (R366, R368): the store's
count of periods goes to now, and the clean periods stored of every other card stay as they were. -/
def Hm.storeRest (h : Hm) : Hm :=
  let add := (h.periods : Int) - h.storedPeriods
  { h with storedPeriods := h.periods,
           stored := h.cards.foldl (fun t e => if (Tab.find h.stored e.1).isSome then t else putCard t e.1 { dirty := add })
             (h.stored.foldl (fun t e => putCard t e.1 { e.2.get with dirty := e.2.get.dirty + add }) h.stored) }

/-- A SUBSTITUTED tile that has passed 1,000 quizzes is readmitted in PROBATION once its score is below 100; its clean periods count anew (R375). -/
def Hm.readmit (h : Hm) (i : Nat) : Hm :=
  let k := h.cardAt i
  if k.st = .substituted ∧ 1000 ≤ k.quizzes ∧ k.score < 100 then
    h.writeCard i { k with st := .probation, quizzes := 0, dirty := h.periods, samples := [], refs := [] }
  else h

/-- A bell for the cards of field `f`: an event in the closed period makes it unclean, then each state is re-evaluated (R366, R367, R375). -/
def Hm.cardsBell (f : Nat) (h : Hm) : Hm :=
  let h := { h with periods := h.periods + 1 }
  let h := if h.periods = 1000000 then h.storeRest else h
  h.cards.foldl (fun h e =>
    let k := if e.2.hit then { e.2 with hit := false, dirty := e.2.dirty + 1 } else e.2
    let k := k.fix f e.1 h
    (h.writeCard e.1 { k with st := nextCardState h k }).readmit e.1) h

/-- Level term (R365) of a measurement `v` against its reference `r`: 2,000 × (0.75 − v / r), rounded to the nearest, at most 1,500. -/
def levelOf (v r : Nat) : Nat :=
  if r = 0 then 1500 else if 3 * r ≤ 4 * v then 0 else Nat.min 1500 ((2 * (1500 * r - 2000 * v) + r) / (2 * r))

/-- Reference of a level input of a card: its factory baseline until probation has completed, and where none was measured in it (R367). -/
def Card.ref (f i : Nat) (k : Card) (input : Nat) : Nat := (Tab.find k.refs input).getD (marginBase f i input)

/-- A measurement of one level input: the smallest ratio of the card's inputs, whose level is the highest, decides (R365, R367). -/
def Card.measure (f i : Nat) (h : Hm) (k : Card) (input v : Nat) : Card :=
  let k := if k.proven h then k.fix f i h else { k with samples := k.samples ++ [(input, v)] }
  let k := { k with meas := Tab.put k.meas input v }
  let ratio (e : Nat × Nat) : Nat := let r := k.ref f i e.1; if r = 0 then 0 else e.2 * 10000 / r
  { k with margin := some (k.meas.foldl (fun m e => Nat.min m (ratio e)) (ratio (input, v))),
           level := k.meas.foldl (fun n e => Nat.max n (levelOf e.2 (k.ref f i e.1))) 0 }

/-- Cards of a field by kind (Table 12-2). -/
def cardCount (kind : Nat) : Nat :=
  match kind with
  | 1 => 528 | 2 => 4224 | 3 => 32 | 4 => 54 | 5 => 2 | 6 => 22 | 7 => 1 | _ => 0

/-- A measurement of a level input reaches the card of its unit (R365); a tile's inputs 0 and 1 are its measured margins, its sensors follow. -/
def State.takeLevel (s : State) (x : Level) : State :=
  if x.field < 4 ∧ x.index < cardCount x.kind then
    let n := if x.kind = 1 then x.input + 2 else x.input
    s.modHm x.field (fun h =>
      h.writeCard (cardIx x.kind x.index) (Card.measure x.field (cardIx x.kind x.index) h (h.card x.kind x.index) n x.ratio))
  else s

/-! ### Tiles and spares -/

/-- Tiles of a field that seat a core (R444). -/
def Hm.seated (h : Hm) : List Nat := (List.range 500).map h.tileOf

/-- Core within the field that a tile seats. -/
def Hm.coreOn (h : Hm) (t : Nat) : Option Nat := (List.range 500).find? (fun j => h.tileOf j == t)

/-- A tile that seats no core and is in service. -/
def Hm.isSpare (h : Hm) (t : Nat) : Bool :=
  decide (t < 528) && (h.card 1 t).inService && (h.coreOn t).isNone && h.copies.all (fun c => c.spare != t)

/-- The spare of the lowest score, GOOD before PROBATION at equal scores (R375). -/
def Hm.bestSpare (h : Hm) : Option Nat :=
  ((List.range 528).filter h.isSpare).foldl (fun b t =>
    match b with
    | none => some t
    | some u =>
      let x := h.card 1 t; let y := h.card 1 u
      if x.score < y.score ∨ (x.score = y.score ∧ x.state h = .good ∧ y.state h ≠ .good) then some t else b) none

/-- A unit leaves service: a tile enters SUBSTITUTED, and DETENTION the second time; every other unit enters DETENTION (R375). -/
def Hm.retire (h : Hm) (kind index : Nat) : Hm :=
  let k := h.card kind index
  let st := if kind = 1 ∧ k.subs = 0 then CardState.substituted else .detention
  h.writeCard (cardIx kind index) { k with st := st, subs := k.subs + 1, steps := [], quizzes := 0 }

/-- The seat of field `f` is in HOLD or has no plan. -/
def State.idleSeat (s : State) (f : Nat) : Bool := (s.seat f).tt.hold || (s.seat f).plan.isNone

/-- No tile of a list seats a core of a partition that is running a plan (R373). -/
def State.measurable (s : State) (f : Nat) (ts : List Nat) : Bool :=
  s.idleSeat f || ts.all (fun t => ((s.field f).hm.coreOn t).isNone)

/-- Measurements of tiles that a plan begins to run on stop: their settings are restored and their passes returned (R373). -/
def State.stopMargins (s : State) (f : Nat) : State :=
  eachOf (s.seatFields f) (fun g t =>
    t.modHm g (fun h =>
      let running (x : Nat × Nat) : Bool :=
        (Pass.tiles { code := BitVec.ofNat 4 x.1, resource := BitVec.ofNat 32 x.2 }).any (fun u => (h.coreOn u).isSome)
      (h.measuring.filter running).foldl (fun h x => h.endPass (BitVec.ofNat 4 x.1) x.2) { h with measuring := h.measuring.filter (fun x => !running x) })) s

/-! ### Remedies (R369, R374) -/

/-- Raise of an LDO group in steps of 10 mV: the highest that a card of its 16 tiles or their desk banks has applied. -/
def Hm.raiseOf (h : Hm) (g : Nat) : Nat :=
  h.cards.foldl (fun n e =>
    let kind := e.1 / 8192
    let t := if kind = 1 then e.1 % 8192 else e.1 % 8192 / 8
    if (kind = 1 ∨ kind = 2) ∧ t / 16 = g then (e.2.steps.filter (fun x => decide (x ≤ 3))).foldl Nat.max n else n) 0

/-- Steps of 5 mV by which a voltage margin can lower a group: from its setting down to 60 mV below the factory's (R373). -/
def Hm.sweepSteps (h : Hm) (g : Nat) : Nat := 12 + 2 * h.raiseOf g

/-- Output of an LDO group in mV: 750 at the factory setting, with the raise its tiles call for; while its voltage margin is measured lower by some
steps of 5 mV, a free value, since no command tells how far the measurement is (R373; log 27); off while a thermal trip is latched (R369, R426, R433). -/
def State.ldoMv (s : State) (f g : Nat) : Nat :=
  let h := (s.field f).hm
  let down := if h.measuring.contains (5, g) then 5 * ((Config.freeByte (s.free + g)).toNat % (h.sweepSteps g + 1)) else 0
  if s.pw.trip ∨ !s.pw.powered then 0 else 750 + 10 * h.raiseOf g - down

/-- The copy onto a spare that leaves the pool is given up; its tile asks for another (R375). -/
def Hm.dropCopy (h : Hm) (spare : Nat) : Hm :=
  match h.copies.find? (fun c => c.spare == spare) with
  | some c => Hm.endPass { h with copies := h.copies.filter (fun x => x.spare != spare) } 8 c.old
  | none => h

/-- A tile whose desk bank is to be substituted, or has no spare row left (Table 12-6): its substitution is asked for; one that seats no core leaves the
pool of spares at its boundary. -/
def Hm.bankOut (h : Hm) (first idle : Bool) (t : Nat) : Hm :=
  if (h.coreOn t).isSome then (if h.copies.any (fun c => c.old == t) then h else h.want 8 t)
  else if (first || idle) && (h.card 1 t).inService then (h.dropCopy t).retire 1 t else h

/-- What a card in REMEDIAL asks for at a bell: `first` opens a FIRST redirect, `verdict` judges a step, `idle` is HOLD or no
plan. Supply steps and the other kinds' remedies wait for a verdict bell, clock steps for a FIRST redirect, a comb's for HOLD (R301); a substitution
asks for its pass, and a spare tile leaves the pool, with the copy that would have seated it (R374, R375). -/
def Hm.remedy (h : Hm) (low : Nat) (first verdict idle : Bool) (i : Nat) : Hm :=
  let k := h.cardAt i
  let kind := i / 8192
  let idx := i % 8192
  let n := calledStep kind k.score low
  if k.st ≠ .remedial ∨ n ≤ k.step ∧ n ≠ 6 then h
  else if n = 6 then
    match kind with
    | 1 =>
      if (h.coreOn idx).isSome then (if h.copies.any (fun c => c.old == idx) then h else h.want 8 idx)
      else if (first || idle) && k.inService then (h.dropCopy idx).retire 1 idx else h
    | 2 => h.bankOut first idle (idx / 8)
    | 4 => h.want 4 (idx / 9)
    | 6 => if h.phaseDue.contains idx || h.phases = 0 then h else { h with phaseDue := h.phaseDue ++ [idx] }
    | _ => h
  else if n = 4 ∨ n = 5 then
    (if first || idle then h.writeCard i { k with steps := k.steps ++ [n] } else h)
  else if (verdict && kind != 5) || idle then
    let h := h.writeCard i { k with steps := k.steps ++ [n] }
    if kind = 3 ∧ n = 2 then h.want 1 idx else if kind = 4 ∧ n = 2 then h.want 3 (idx / 9) else h
  else h

/-- State of a card that has lost its last remedy step: WATCH, or GOOD or PROBATION below 50 (R370); one that still scores 400 stays REMEDIAL. -/
def Card.unremedied (k : Card) (h : Hm) : CardState :=
  if 400 ≤ k.score then .remedial else if k.score < 50 then (if k.proven h then .good else .probation) else .watch

/-- A relaxed card loses its deepest step; with its last step gone it returns to WATCH, GOOD or PROBATION (R370). -/
def Hm.relax (h : Hm) (i : Nat) : Hm :=
  let k := h.cardAt i
  if k.st ≠ .remedial ∨ k.steps = [] then h
  else
    let rest := k.steps.filter (fun x => decide (x < k.step))
    h.writeCard i { k with steps := rest, st := if rest ≠ [] then CardState.remedial else k.unremedied h }

/-- A phase fault moves its load to a spare phase (R428): one spare and one working phase fewer. -/
def Hm.movePhase (h : Hm) (p : Nat) : Hm :=
  if (h.card 6 p).inService then
    { h.retire 6 p with phases := h.phases - 1, workingPhases := h.workingPhases - 1 }
  else h

/-- Phases that wait move their load under a voltage margin pass on every group of the field, which the change takes and returns at its bell: it waits
while a pass is held that excludes one of them, or no entry is free (Tables 12-8, 12-9; log 27). -/
def Hm.movePhases (h : Hm) : Hm :=
  if h.freePass.isNone || h.passes.any (fun e => !e.2.tiles.isEmpty) then h
  else h.phaseDue.foldl Hm.movePhase { h with phaseDue := [] }

/-- Desk rows that wait move to a spare row of their bank; with no spare row left the tile is substituted (Table 12-6). -/
def Hm.moveRow (idle : Bool) (h : Hm) (r : Nat × Nat) : Hm :=
  if (h.rows.filter (fun x => x.1 == r.1)).length < 8 then { h with rows := h.rows ++ [r] } else h.bankOut true idle (r.1 / 8)

/-- Rows that wait move under a patrol scrub pass on their tile, which the repair takes and returns at its bell: it waits while no entry is free
(Table 12-8, R377; log 27). -/
def Hm.moveRows (idle : Bool) (h : Hm) : Hm :=
  if h.freePass.isNone then h else h.rowsDue.foldl (Hm.moveRow idle) { h with rowsDue := [] }

/-- A finished copy changes the seating: the core runs on the spare, the old tile's steps are withdrawn (R375). -/
def Hm.seatCopy (h : Hm) (c : TileCopy) : Hm :=
  let h := { h with seating := Tab.set (fun _ => 0) h.seating c.core (if c.spare = c.core then 0 else c.spare + 1),
                    copies := h.copies.filter (fun x => x.core != c.core) }
  (h.retire 1 c.old).endPass 8 c.old

/-- The Hall Monitor's changes at a bell of field `f` (R374). -/
def Hm.boundary (h : Hm) (low : Nat) (first verdict idle : Bool) : Hm :=
  let h := (h.cards.map (·.1)).foldl (fun h i => h.remedy low first verdict idle i) h
  let h := if verdict || idle then
      let h := h.relaxDue.foldl (fun h i => if (h.cardAt i).step ≤ 3 then h.relax i else h) h
      let h := { h with relaxDue := h.relaxDue.filter (fun i => decide (3 < (h.cardAt i).step)) }
      h.movePhases
    else h
  if first || idle then
    let h := h.relaxDue.foldl (fun h i => if 3 < (h.cardAt i).step then h.relax i else h) h
    let h := Hm.moveRows idle { h with relaxDue := h.relaxDue.filter (fun i => decide ((h.cardAt i).step ≤ 3)) }
    (h.copies.filter (fun c => c.done)).foldl Hm.seatCopy h
  else h

/-! ### Page retirement (R214, R215) -/

/-- The page a channel borrows: the highest of the cubby region in that channel not yet borrowed. -/
def borrowPage (b : Lb) (m : Mc) (ch : Nat) : Option Nat :=
  ((List.range b.pages.toNat).reverse.map (fun i => b.region.toNat / 65536 + i)).find?
    (fun p => p % 32 == ch && !m.borrowed.contains p)

/-- The spare holds what the page held after Reed–Solomon correction (R214): only what could not be corrected differs there. -/
def State.cleanPage (s : State) (p : Nat) : State :=
  { s with flaws := s.flaws.filter (fun e => e.1 / 544 / 128 != p || s.blockOut (e.1 / 544) != .corrected) }

/-- A copied page takes effect: on a spare page of its channel, or on a borrowed cubby page. -/
def State.remapPage (s : State) (f p : Nat) : State :=
  let s := s.cleanPage p
  let x := s.field f
  let ch := p % 32
  let own := (x.mc.remapped.filter (fun q => q % 32 == ch)).length - (x.mc.borrowed.filter (fun q => q % 32 == ch)).length
  if own < 16384 then s.modMc f (fun m => { m with remapped := m.remapped ++ [p], used := m.used + 1 })
  else match borrowPage x.lb x.mc ch with
    | some q =>
      let s := s.modMc f (fun m => { m with remapped := m.remapped ++ [p], borrowed := m.borrowed ++ [q] })
      s.modLb f (fun b => { b with usable := b.usable - 1 })
    | none => s.modMc f (fun m => { m with stuck := true })

/-- Copies that wait take effect at a verdict bell, or at any bell in HOLD or with no plan (R214, R374). -/
def State.remapPending (s : State) (f : Nat) : State :=
  let ps := (s.field f).mc.pending
  (s.modMc f (fun m => { m with pending := [] })) |> eachOf ps (fun p t => t.remapPage f p)

/-- Pages that wait for their copy ask for a patrol-scrub pass on their channel (Table 12-8). -/
def State.wantPages (s : State) (f : Nat) : State :=
  s.modHm f (fun h => (s.field f).mc.due.foldl (fun h p => h.want 1 (p % 32)) h)

/-! ### Requests to the job (R376, Table 12-7) -/

/-- Rows of Table 12-7 that hold in a field, with the kind and index of the card concerned. -/
def State.requestRows (s : State) (f : Nat) : List (Nat × Nat × Nat) :=
  let h := (s.field f).hm
  let low := (s.seat f).tt.lowest.toNat
  let card (row : Nat) (p : Nat → Card → Bool) : List (Nat × Nat × Nat) :=
    (h.cards.filter (fun e => e.2.inService && p (e.1 / 8192) e.2)).map (fun e => (row, e.1 / 8192, e.1 % 8192))
  let noSpare (kind : Nat) : Bool := match kind with
    | 1 => h.bestSpare.isNone
    | 2 => h.bestSpare.isNone
    | 4 => s.lambdas f == 0
    | 5 => !h.comb
    | 6 => h.phases == 0
    | _ => false
  card 1 (fun _ k => decide (700 ≤ k.score)) ++
  (if h.tiles ≤ 4 then [(2, 1, 0)] else []) ++
  ((List.range 6).filter (fun i => (s.link (6 * f + i)).spareUsed)).map (fun i => (2, 4, 9 * i + 8)) ++
  (match h.cards.find? (fun e => e.2.inService && calledStep (e.1 / 8192) e.2.score low == 6 &&
      (if e.1 / 8192 = 4 then (s.link (6 * f + e.1 % 8192 / 9)).spareUsed else noSpare (e.1 / 8192))) with
    | some e => [(3, e.1 / 8192, e.1 % 8192)]
    | none => []) ++
  card 4 (fun kind k => (kind == 3 || kind == 7) && decide (1000 ≤ k.score)) ++
  (if (s.field f).mc.stuck then [(5, 3, 0)] else []) ++
  (if h.workingPhases < 20 then [(6, 6, 0)] else [])

/-- An hour of the bell reference at 850 MHz. -/
def hourClk : Nat := 3060000000000

/-- Raise and withdraw the requests of a field: CKPT_REQ once per condition and at most once an hour for the module, SUBST_REQ
while its condition lasts. -/
def State.requests (s : State) (f : Nat) : State :=
  let rows := s.requestRows f
  let h := (s.field f).hm
  let note (h : Hm) (r : Nat × Nat × Nat) : Hm :=
    { h with reason := BitVec.ofNat 4 r.1, reqKind := BitVec.ofNat 4 r.2.1, reqIndex := BitVec.ofNat 13 r.2.2 }
  let s := match rows.find? (fun r => decide (3 ≤ r.1)) with
    | some r => s.modHm f (fun h => { (if h.reqSubst then h else note h r) with reqSubst := true })
    | none => s.modHm f (fun h => { h with reqSubst := false })
  let free := match s.coord.lastCkpt with
    | some t => decide (hourClk ≤ (s.hmClk - t).toNat)
    | none => true
  match rows.find? (fun r => decide (r.1 ≤ 2) && !h.raisedOnce.contains r) with
  | some r =>
    if free then
      let s := s.modHm f (fun h => { note h r with reqCkpt := true, raisedOnce := h.raisedOnce ++ [r] })
      { s with coord := { s.coord with lastCkpt := some s.hmClk } }
    else s
  | none => s

/-- A link's quiz pass is held. -/
def Hm.quizzing (h : Hm) (i : Nat) : Bool := h.passes.any (fun e => e.2.code == 7 && e.2.onLink && e.2.resource.toNat == i)

/-- The link quiz of a period returns its pass. -/
def State.endQuiz (s : State) (l : Nat) : State := s.modHm (fieldOfLink l) (fun h => h.endPass 7 (l % 6) true)

/-- A period with QUIZ slots on a LOCKED link takes a quiz pass for it; where none can be had the quiz waits for a later period (Tables 12-8, 12-9). -/
def State.quizPasses (s : State) (g : Nat) : State :=
  eachOf (List.range 6) (fun i t =>
    if (t.runs g).any (fun r => r.link == i && r.kind == 4 && r.count != 0) && (t.link (6 * g + i)).st == .locked then
      match t.takePass g 7 i false true with
      | .ok t => t
      | .error _ => t
    else t) s

/-- The Hall Monitor's part of a bell, in every field of a seat: cards, requests, boundary changes, page remaps, quiz passes of its links. -/
def State.healthBell (s : State) (f : Nat) (first verdict : Bool) : State :=
  let idle := s.idleSeat f
  let low := (s.seat f).tt.lowest.toNat
  eachOf (s.seatFields f) (fun g t =>
    let t := t.modHm g (fun h => (h.cardsBell g).boundary low first verdict idle)
    let t := if verdict || idle then t.remapPending g else t
    ((t.wantPages g).requests g).quizPasses g) s

/-- A plan that no longer allows a core's lowered clock raises it to the lowest allowed (R371). -/
def Hm.planClocks (h : Hm) (low : Nat) : Hm :=
  h.cards.foldl (fun h e =>
    if e.1 / 8192 = 1 ∧ (e.2.steps.any (fun x => decide (low + 3 < x))) then
      let keep := e.2.steps.filter (fun x => decide (x ≤ low + 3))
      let now := if low = 0 ∨ keep.contains (low + 3) then keep else keep ++ [low + 3]
      h.writeCard e.1 { e.2 with steps := now, st := if now = [] ∧ e.2.st = .remedial then e.2.unremedied h else e.2.st }
    else h) h

/-! ### Hall passes granted to the Hall Monitor (R377, R379) -/

/-- A tile may compute a quiz (R372): a spare or SUBSTITUTED tile, or one whose core is RESTING or PARKED with an empty array queue. -/
def State.quizReady (s : State) (f t : Nat) : Bool :=
  let h := (s.field f).hm
  match h.coreOn t with
  | some j =>
    let k := s.core (500 * f + j)
    (k.mode == .resting || k.mode == .parked) && k.arrQ.isEmpty && k.mxst.isNone
  | none => decide (t < 528) && (h.card 1 t).st != .detention

/-- A quiz that waited begins once both its passes are held, if its tiles may still compute it; else it is given up and they are returned. -/
def State.quizGo (s : State) (f : Nat) : State :=
  let h := (s.field f).hm
  match h.quizAsked with
  | none => s
  | some q =>
    let held (t : Nat) : Bool := h.passes.any (fun e => e.2.code == 7 && !e.2.onLink && e.2.resource.toNat == t)
    if !held q.tileA || !held q.tileB then s
    else if s.quizReady f q.tileA && s.quizReady f q.tileB then s.modHm f (fun h => { h with quiz := some q, quizAsked := none })
    else s.modHm f (fun h => (Hm.endPass { h with quizAsked := none } 7 q.tileA).endPass 7 q.tileB)

/-- Start the activity of a granted pass. -/
def State.startActivity (s : State) (f : Nat) (p : Pass) : State :=
  let r := p.resource.toNat
  match p.code.toNat with
  | 1 => s.modMc f (fun m =>
      match m.due.find? (fun q => q % 32 == r) with
      | some q => { m with due := m.due.filter (fun x => x != q), copying := m.copying ++ [q] }
      | none => m)
  | 3 => if r < 6 ∧ (s.link (6 * f + r)).st = .locked then s.linkTo (6 * f + r) .signal else s
  | 5 => s.modHm f (fun h => { h with measuring := h.measuring ++ [(5, r)] })
  | 6 => s.modHm f (fun h => { h with measuring := h.measuring ++ [(6, r)] })
  | 7 => s.quizGo f
  | 8 => s.modHm f (fun h =>
      match h.coreOn r, h.bestSpare with
      | some j, some t => { h with copies := h.copies ++ [{ core := j, old := r, spare := t }] }
      | _, _ => h.endPass 8 r)
  | _ => s

/-- A waiting request may be granted: it conflicts with no held pass, and for a substitution neither does its spare (Table 12-8); nor with a request
that waits before it (R379: in order of request; log 27). A margin is granted only where it may be measured then (R373). -/
def State.grantable (s : State) (f : Nat) (before : List Pass) (p : Pass) : Bool :=
  let h := (s.field f).hm
  (s.blocker f p).isNone && before.all (fun q => !q.conflicts p) &&
    ((p.code != 5 && p.code != 6) || s.measurable f p.tiles) &&
    (p.code != 8 || (match h.bestSpare with
      | some t => (s.blocker f { code := 8, resource := BitVec.ofNat 32 t }).isNone
      | none => true))

/-- The first waiting request that may be granted; `before` wait ahead of it. -/
def State.nextGrant (s : State) (f : Nat) (before : List Pass) : List Pass → Option Pass
  | [] => none
  | p :: r => if s.grantable f before p then some p else s.nextGrant f (before ++ [p]) r

/-- PASS_GRANT: the first waiting request that conflicts with no held pass takes a free entry, and its activity starts. -/
def execPassGrant (f : Nat) (s : State) : State :=
  if 4 ≤ f then s else
  let h := (s.field f).hm
  match h.freePass, s.nextGrant f [] h.waiting with
  | some i, some p =>
    let s := s.modHm f (fun h => ({ h with waiting := h.waiting.erase p }).enter i p (s.seat f).tt.bell)
    s.startActivity f p
  | _, _ => s

/-! ### Timers and measurements -/

/-- CARD_DECAY_TICK: every card's D decays to D − (D >> 8); corrected reads of pages count anew (R365, Table 12-6). -/
def execCardDecayTick (f : Nat) (s : State) : State :=
  let s := s.modHm f (fun h => h.cards.foldl (fun h e => h.writeCard e.1 { e.2 with d := e.2.d - e.2.d >>> 8 }) h)
  s.modMc f (fun m => { m with corrected := [] })

/-- CARD_STORE_TIMER: every card is written to the information store (R368). -/
def execCardStoreTimer (f : Nat) (s : State) : State :=
  s.modHm f (fun h => { h with stored := h.cards.foldl (fun t e => putCard t e.1 e.2) h.stored, storedPeriods := h.periods })

/-- REMEDY_RELAX_TIMER: a REMEDIAL card below 200 for 24 hours loses its deepest step at its next boundary (R370). -/
def execRemedyRelaxTimer (f kind index : Nat) (s : State) : State :=
  s.modHm f (fun h =>
    let k := h.card kind index
    if k.st = .remedial ∧ k.score < 200 ∧ index < 8192 ∧ !h.relaxDue.contains (cardIx kind index) then
      { h with relaxDue := h.relaxDue ++ [cardIx kind index] } else h)

/-- POP_QUIZ_START: two tiles compute the same quiz under a pass on each (R372); where a pass is not to be had, the quiz waits for both (R377, R379). -/
def execPopQuizStart (f tileA tileB : Nat) (s : State) : State :=
  let h := (s.field f).hm
  let q : Quiz := { tileA := tileA, tileB := tileB }
  if 4 ≤ f ∨ h.quiz.isSome ∨ h.quizAsked.isSome ∨ tileA = tileB ∨ !s.quizReady f tileA ∨ !s.quizReady f tileB then s
  else match (s.takePass f 7 tileA false).bind (fun t => t.takePass f 7 tileB false) with
    | .ok t => t.modHm f (fun h => { h with quiz := some q })
    | .error _ => s.modHm f (fun h => (Hm.want { h with quizAsked := some q } 7 tileA).want 7 tileB)

/-- A tile that lost no vote: a SUBSTITUTED one counts the quiz, and is readmitted in PROBATION after 1,000 with a score below
100 (R375). -/
def Hm.quizPass (h : Hm) (t : Nat) : Hm :=
  let k := h.card 1 t
  if k.st ≠ .substituted then h else (h.writeCard (cardIx 1 t) { k with quizzes := k.quizzes + 1 }).readmit (cardIx 1 t)

/-- The tile that lost the vote: 128 points, and DETENTION if it was SUBSTITUTED. -/
def State.quizLost (s : State) (f t : Nat) : State :=
  let s := s.demerit f 1 t 128
  s.modHm f (fun h =>
    let k := h.card 1 t
    if k.st = .substituted then h.writeCard (cardIx 1 t) { k with st := .detention } else h)

/-- A quiz ends and returns its passes. -/
def Hm.quizDone (h : Hm) (q : Quiz) : Hm :=
  let h := (Hm.endPass { h with quiz := none } 7 q.tileA).endPass 7 q.tileB
  match q.third with
  | some t => h.endPass 7 t.1
  | none => h

/-- The vote of three tiles: the one whose CRC differs from the other two loses; where all three differ the quiz counts in HM_QUIZ_FAIL_COUNT only
(R372). -/
def State.quizVote (s : State) (f : Nat) (q : Quiz) (t : Nat) (a b c : BitVec 32) : State :=
  let lost := (s.bump (hmBase f + 0x38)).bump (hmBase f + 0x40)
  if c = a then (lost.quizLost f q.tileB).modHm f (fun h => (h.quizPass q.tileA).quizPass t)
  else if c = b then (lost.quizLost f q.tileA).modHm f (fun h => (h.quizPass q.tileB).quizPass t)
  else s.bump (hmBase f + 0x40)

/-- POP_QUIZ_RESULT: the CRCs of the first two tiles are compared; where they differ a third tile, named in the operand, computes the quiz under a pass
of its own, and a second result with its CRC names the loser. A third tile that may not compute is not taken: the quiz waits for another. Where none
is named the quiz counts in HM_QUIZ_FAIL_COUNT only (R372; log 27). -/
def execPopQuizResult (f : Nat) (crcA crcB : BitVec 32) (third : Option (Nat × BitVec 32)) (s : State) : State :=
  match (s.field f).hm.quiz with
  | none => s
  | some q =>
    let ended := s.modHm f (fun h => h.quizDone q)
    match q.third, third with
    | some (t, a, b), some (u, c) => if u = t then ended.quizVote f q t a b c else s
    | some _, none => ended.bump (hmBase f + 0x40)
    | none, _ =>
      if crcA = crcB then (ended.bump (hmBase f + 0x38)).modHm f (fun h => (h.quizPass q.tileA).quizPass q.tileB)
      else match third with
        | none => ended.bump (hmBase f + 0x40)
        | some (t, _) =>
          if t = q.tileA ∨ t = q.tileB ∨ !s.quizReady f t then s
          else match s.takePass f 7 t false with
            | .ok u => u.modHm f (fun h => { h with quiz := some { q with third := some (t, crcA, crcB) } })
            | .error _ => s

/-- SPARE_MARGIN_TIMER: both measurements are asked for on every spare tile, group by group where the group may be measured
(R373). -/
def execSpareMarginTimer (f : Nat) (s : State) : State :=
  let h := (s.field f).hm
  let spares := (List.range 528).filter h.isSpare
  let groups := (List.range 33).filter (fun g =>
    let ts := (List.range 16).map (fun i => 16 * g + i)
    ts.any h.isSpare && s.measurable f ts)
  s.modHm f (fun h => groups.foldl (fun h g => h.want 5 g) (spares.foldl (fun h t => h.want 6 t) h))

/-- Clock of a tile in MHz: that of its card's clock step (R369). -/
def Hm.tileMhz (h : Hm) (t : Nat) : Nat :=
  let k := h.card 1 t
  if k.steps.contains 5 then 750 else if k.steps.contains 4 then 800 else 850

/-- The margin that a measurement found, its 64 quizzes on each tile passed at every one of `steps` steps: of a group the offset below its factory
setting in mV, in steps of 5 mV from its setting down to −60 mV; of a tile the frequency above 850 MHz, in steps of 25 MHz up to 1,000 MHz (R373). -/
def Hm.marginOf (h : Hm) (kind index steps : Nat) : Nat :=
  if kind = 5 then 5 * Nat.min steps (h.sweepSteps index) - 10 * h.raiseOf index
  else h.tileMhz index + 25 * Nat.min steps ((1000 - h.tileMhz index) / 25) - 850

/-- MARGIN_MEASURE_DONE: the setting is restored, the measurement reaches the cards of its tiles, the pass is returned. -/
def execMarginMeasureDone (f kind index steps : Nat) (s : State) : State :=
  s.modHm f (fun h =>
    if h.measuring.contains (kind, index) then
      let v := h.marginOf kind index steps
      let h := { h with measuring := h.measuring.filter (fun x => x != (kind, index)) }
      let h := (Pass.tiles { code := BitVec.ofNat 4 kind, resource := BitVec.ofNat 32 index }).foldl (fun h t =>
        h.writeCard (cardIx 1 t) (Card.measure f (cardIx 1 t) h (h.card 1 t) (kind - 5) v)) h
      h.endPass (BitVec.ofNat 4 kind) index
    else h)

/-- TILE_COPY_COMPLETE: the oldest copy is complete; the seating changes at the next boundary (R375). -/
def execTileCopyComplete (f : Nat) (s : State) : State :=
  s.modHm f (fun h =>
    match h.copies.find? (fun c => !c.done) with
    | some c => { h with copies := h.copies.map (fun x => if x.core = c.core then { x with done := true } else x) }
    | none => h)

/-- Passes of one code on all six links of a field, for the Hall Monitor itself (Table 12-8); none is kept when one is refused. -/
def State.sixPasses (s : State) (f : Nat) (code : BitVec 4) : Option State :=
  (List.range 6).foldl (fun r i => match r with
    | some t => (match t.takePass f code i false with | .ok t => some t | .error _ => none)
    | none => none) (some s)

/-- COMB_CHANGEOVER: only with the cartridge's seat in HOLD or without a plan, under a pass on each of its six links (R301, Table 12-8). The links go
dark and relock; a link's pass ends when it is LOCKED again or fails, that of a link which is OFF or FAILED at once. -/
def execCombChangeover (f : Nat) (s : State) : State :=
  if 4 ≤ f ∨ !(s.field f).hm.comb ∨ !s.idleSeat f then s
  else match s.sixPasses f 3 with
    | none => s
    | some s =>
      let s := s.modHm f (fun h => { h.retire 5 0 with comb := false })
      eachOf (linksOfField f) (fun l t =>
        let t := t.modLink l (fun k => { k with comb := true })
        if (t.link l).st = .off ∨ (t.link l).st = .failed then t.endLinkPass l 3 else t.linkTo l .dark) s

/-! ### Resets (R368, R375) -/

/-- A card as it resumes from the store: D and L start again, nothing measured (R368). -/
def Card.resumed (k : Card) : Card :=
  { k with d := 0, hit := false, level := 0, margin := none, meas := [], samples := [], last := 0 }

/-- The Hall Monitor of a field after a chip reset: cards resume from the store with D = 0; seating, rows and spares stay. -/
def Hm.afterReset (h : Hm) : Hm :=
  { cards := h.stored.map (fun e => (e.1, e.2.get.resumed)),
    stored := h.stored, storedPeriods := h.storedPeriods, periods := h.storedPeriods,
    seating := h.seating, comb := h.comb, phases := h.phases, workingPhases := h.workingPhases, rows := h.rows,
    quiz := none }

/-- A partition reset or a wipe abandons copies, quizzes and measurements of the field and ends its passes (Table 12-9). -/
def Hm.stopWork (h : Hm) : Hm :=
  { h with copies := [], quiz := none, quizAsked := none, measuring := [], passes := h.passes.filter (fun e => e.1 == 33), waiting := [] }

end Sys2Proof.Machine
end

