-- ==== Sys2Proof/Machine/LoadStore.lean ====
section
/-! DEFINITION. Loads and stores of a core's own slate and desk (R101, R102, R210), the tile DMA (R103, R104), and the
commands that end a held store and a DMA. -/

namespace Sys2Proof.Machine

/-- Size in bytes of LD and ST: SC[1:0] (Table 03-8). -/
def memSize (i : Ins) : Nat := 2 ^ (i.sc.toNat % 4)

/-- Post-increment: SC[3]. -/
def postInc (i : Ins) : Bool := i.sc.getLsbD 3

/-- Address of LD and ST: aA with post-increment, else aA + imm. -/
def ldstAddr (k : Core) (i : Ins) : Nat := if postInc i then (k.areg i.sa).toNat else k.effAddr i

/-- aA := aA + imm when post-incrementing. -/
def Core.inc (k : Core) (i : Ins) : Core :=
  if postInc i then k.setA i.sa (k.areg i.sa + i.imm.signExtend 48) else k

/-- What stops a scalar access of `n` bytes: fault 0x02 outside the two windows, 0x09 misaligned (R102). -/
def accessFault (c a n : Nat) : Option Nat :=
  if !inWindow c a n then some 2 else if a % n ≠ 0 then some 9 else none

/-- A scalar load of `n` bytes: its bytes, and the state with what a failure records. A load that cannot be made returns
zero; an uncorrectable word gives zero without a fault code (R102, R210). R87 names no other reader of a code region than plan load and dumps
and gives such a read no fault: here a load, as a DMA, an array or vector read and a TX pull, gets the bytes (log 26). -/
def State.scalarLoad (s : State) (c op a n : Nat) : State × List Byte :=
  match accessFault c a n with
  | some code => (s.recordFault c code (s.core c).pc.toNat op a 1, List.replicate n 0)
  | none =>
    match s.readRange (s.seatFields (fieldOfCore c)) a n with
    | .ok bs => (s.noteCorrected [(a, n)], bs)
    | .error e => (s.noteErr (fieldOfCore c) e.1 e.2, List.replicate n 0)

/-- Make a store that has passed the window, code and seal checks; an uncorrectable word in a partial write discards it (R210). -/
def State.landStore (s : State) (c a : Nat) (bs : List Byte) : State :=
  match s.writeRange (s.seatFields (fieldOfCore c)) a bs with
  | .ok t => t
  | .error e => s.noteErr (fieldOfCore c) e.1 e.2

/-- A scalar store: a fault discards it; one that meets a sealed buffer holds the core until the seal clears (R58, R102). -/
def State.scalarStore (s : State) (c op a : Nat) (bs : List Byte) : State :=
  match accessFault c a bs.length with
  | some code => (s.recordFault c code (s.core c).pc.toNat op a 1).advance c op
  | none =>
    if s.hitsCode a bs.length then (s.recordFault c 3 (s.core c).pc.toNat op (s.firstCode a bs.length) 1).advance c op
    else if s.meetsSeal a bs.length then s.modCore c (fun k => { k with stall := some (.store a bs) })
    else (s.landStore c a bs).advance c op

/-- Extend loaded bytes to 64 bits: SC[2] sign-extends. -/
def extendLoad (i : Ins) (bs : List Byte) : BitVec 64 :=
  let n := 8 * bs.length
  if i.sc.getLsbD 2 then BitVec.ofInt 64 (signedOf n (ofLe bs)) else BitVec.ofNat 64 (ofLe bs)

/-- LD (0x50). -/
def execLd (c : Nat) (i : Ins) (s : State) : State :=
  issue c 0x50 i (fun s =>
    let r := s.scalarLoad c 0x50 (ldstAddr (s.core c) i) (memSize i)
    (r.1.modCore c (fun k => (k.inc i).setS i.dst (extendLoad i r.2))).advance c 0x50) s

/-- ST (0x51). -/
def execSt (c : Nat) (i : Ins) (s : State) : State :=
  issue c 0x51 i (fun s =>
    let k := s.core c
    (s.modCore c (fun k => k.inc i)).scalarStore c 0x51 (ldstAddr k i) (leBytes (memSize i) (k.sreg i.sb).toNat)) s

/-- LDD (0x52). -/
def execLdd (c : Nat) (i : Ins) (s : State) : State :=
  issue c 0x52 i (fun s =>
    let r := s.scalarLoad c 0x52 ((s.core c).effAddr i) 64
    (r.1.modCore c (fun k => k.setD i.dst (BitVec.ofNat 512 (ofLe r.2)))).advance c 0x52) s

/-- STD (0x53). -/
def execStd (c : Nat) (i : Ins) (s : State) : State :=
  issue c 0x53 i (fun s =>
    let k := s.core c
    s.scalarStore c 0x53 (k.effAddr i) (leBytes 64 (k.dreg i.sb).toNat)) s

/-- SEALED_WRITE_RELEASE: a store held on a sealed buffer lands once the seal has cleared, and the core goes on (R58). -/
def execSealedWriteRelease (c : Nat) (s : State) : State :=
  let k := s.core c
  match k.stall with
  | some (.store a bs) =>
    if c < 2000 ∧ !s.meetsSeal a bs.length then
      ((s.modCore c (fun k => { k with stall := none })).landStore c a bs).advance c (if bs.length = 64 then 0x53 else 0x51)
    else s
  | _ => s

/-! ### Tile DMA -/

/-- Limits of a DMA: 64-byte alignment, a multiple of 64 from 64 to 16 MiB (Table 03-9). -/
def dmaOk (dst src n : Nat) : Bool :=
  dst % 64 == 0 && src % 64 == 0 && n % 64 == 0 && decide (64 ≤ n) && decide (n ≤ 0x1000000)

/-- Source ranges of a DMA operation. -/
def DmaKind.sources : DmaKind → List (Nat × Nat)
  | .copy _ src n => [(src, n)]
  | .elements _ a => (descOf a).ranges

/-- LPDDR blocks of field `f` that a range meets. -/
def fieldBlocks (f : Nat) (r : Nat × Nat) : Nat :=
  let lo := Nat.max r.1 (f * lpField)
  let hi := Nat.min (r.1 + r.2) ((f + 1) * lpField)
  if lo < hi then (hi + 511) / 512 - lo / 512 else 0

/-- Reads of a partition that count in MC_INFLIGHT_OLD until they end, by field (R231): one for each block of a field of the partition whose sweep
runs; once the sweep has ended no read counts, and one that the firewall blocks reaches no controller (R23). DEDUCED (log 22). -/
def State.oldReads (s : State) (fs : List Nat) (l : List (Nat × Nat)) : List (Nat × Nat) :=
  ((fs.filter (fun f => (s.field f).mc.oldLive && (s.field f).mc.sweeping)).map (fun f => (f, (l.map (fieldBlocks f)).sum))).filter
    (fun e => e.2 != 0)

/-- Queue a DMA operation and go on; a full queue of 16 holds the issue (R94). -/
def State.queueDma (s : State) (c op : Nat) (t : BitVec 4) (kind : DmaKind) : State :=
  let k := s.core c
  if k.dmaQ.length < 16 then
    let old := s.oldReads (s.seatFields (fieldOfCore c)) kind.sources
    let s := old.foldl (fun t e => t.modMc e.1 (fun m => { m with inflight := m.inflight + e.2 })) s
    (s.setCore c { k.tagAdd t with dmaQ := k.dmaQ ++ [{ kind := kind, tag := t, pc := k.pc, op := BitVec.ofNat 8 op, old := old }] }).advance c op
  else s

/-- DMA (0x60): refused at issue with 0x0A for its length or alignment, with 0x03 for a code region (R97, R104). -/
def execDma (c : Nat) (i : Ins) (s : State) : State :=
  issue c 0x60 i (fun s =>
    let k := s.core c
    let dst := (k.areg i.dst).toNat
    let src := (k.areg i.sa).toNat
    let n := (k.sreg i.sb).toNat
    if !dmaOk dst src n then (s.recordFaultOpen c 10 k.pc.toNat 0x60 2).advance c 0x60
    else if s.hitsCode dst n then (s.recordFault c 3 k.pc.toNat 0x60 (s.firstCode dst n) 2).advance c 0x60
    else s.queueDma c 0x60 (tagOf i) (.copy dst src n)) s

/-- First range of a tensor that touches a code region. -/
def State.codeHit (s : State) (l : List (Nat × Nat)) : Option Nat :=
  (l.find? (fun r => s.hitsCode r.1 r.2)).map (fun r => s.firstCode r.1 r.2)

/-- DMAD (0x61): equal formats and element counts (R104); the windows of R154 do not bind the tile DMA (R103). -/
def execDmad (c : Nat) (i : Ins) (s : State) : State :=
  issue c 0x61 i (fun s =>
    let k := s.core c
    let d := descOf (k.dreg i.dst)
    let a := descOf (k.dreg i.sa)
    if !(d.legal allFmts allKinds true && a.legal allFmts allKinds false && d.fmt == a.fmt && d.count == a.count) then
      (s.recordFaultOpen c 10 k.pc.toNat 0x61 2).advance c 0x61
    else match s.codeHit d.ranges with
    | some x => (s.recordFault c 3 k.pc.toNat 0x61 x 2).advance c 0x61
    | none => s.queueDma c 0x61 (tagOf i) (.elements (k.dreg i.dst) (k.dreg i.sa))) s

/-- Units of a DMA that are written together: eight where they are a whole LPDDR block whose source can be read and does not overlap it, which
is then written without a read (R222); else one. -/
def State.dmaUnits (s : State) (fs : List Nat) (dst src n : Nat) : Nat :=
  if dst < 4 * lpField ∧ dst % 512 = 0 ∧ 8 ≤ n ∧ (src + 512 ≤ dst ∨ dst + 512 ≤ src) ∧ (firstErr (s.readErr fs) src 512).isNone then 8 else 1

/-- Copy `n` 64-byte units in ascending order, each read before it is written; the first failing address ends it and what
has moved stays moved (R103, R104). -/
def State.copyUnits (s : State) (fs : List Nat) : Nat → Nat → Nat → Nat → State × Option (Nat × MemErr)
  | 0, _, _, _ => (s, none)
  | k + 1, dst, src, n =>
    if n = 0 then (s, none) else
    let m := s.dmaUnits fs dst src n
    match s.readRange fs src (64 * m) with
    | .error e => (s, some e)
    | .ok bs =>
      match s.writeRange fs dst bs with
      | .error e => (s, some e)
      | .ok t => t.copyUnits fs k (dst + 64 * m) (src + 64 * m) (n - m)

/-- How many elements from `k` on, at most `n`, share the 64-byte destination unit of element `k` (R104); an element whose bytes lie in two
units counts for that of its first byte (log 26). -/
def unitGroup (d : Desc) (k n : Nat) : Nat :=
  ((List.range n).takeWhile (fun j =>
    decide (k + j < d.count) && (d.elemAddr (k + j)).1 / 64 == (d.elemAddr k).1 / 64)).length

/-- Ranges of bytes of `g` elements from `k` on: one range where they lie one after another without a gap, else one for each. -/
def elemRanges (d : Desc) (k g : Nat) : List (Nat × Nat) :=
  let first := (d.elemAddr k).1
  if (List.range g).all (fun j => (d.elemAddr (k + j)).1 == first + j * fmtNib d.fmt / 2) then [(first, (g * fmtNib d.fmt + 1) / 2)]
  else (List.range g).map (fun j => ((d.elemAddr (k + j)).1, (fmtNib d.fmt + 1) / 2))

/-- Copy elements group by group from element `k` on (R104). -/
def State.copyElems (s : State) (c : Nat) (d a : Desc) : Nat → Nat → State × Option (Nat × MemErr)
  | 0, _ => (s, none)
  | n + 1, k =>
    if d.count ≤ k then (s, none)
    else
      let g := unitGroup d k 128
      let src := elemRanges a k g
      let dst := elemRanges d k g
      let fs := s.seatFields (fieldOfCore c)
      match src.findSome? (fun r => firstErr (s.readErr fs) r.1 r.2) with
      | some e => (s, some e)
      | none =>
        match s.rangesErr c dst with
        | some e => (s, some e)
        | none =>
          let vals := (List.range g).map (fun j => (k + j, a.raw s.mem (k + j)))
          let m := vals.foldl (fun m p => d.put m p.1 p.2) s.mem
          (s.landRanges m dst).copyElems c d a n (k + g)

/-- Destination ranges of a DMA operation. -/
def DmaKind.ranges : DmaKind → List (Nat × Nat)
  | .copy dst _ n => [(dst, n)]
  | .elements d _ => (descOf d).ranges

/-- The reads of a DMA that ends, or is cancelled, count no longer in MC_INFLIGHT_OLD (R231). -/
def State.endReads (s : State) (o : DmaOp) : State := o.old.foldl (fun t e => t.modMc e.1 (fun m => { m with inflight := m.inflight - e.2 })) s

/-- Elements of a tensor before the first whose bytes, in it or in the tensor `d` they go to, take in `x`. -/
def elemsBefore (d a : Desc) (x : Nat) : Nat :=
  let at_ (t : Desc) (j : Nat) : Bool := decide ((t.elemAddr j).1 ≤ x) && decide (x < (t.elemAddr j).1 + (fmtNib t.fmt + 1) / 2)
  ((List.range a.count).takeWhile (fun j => !at_ a j && !at_ d j)).length

/-- What a DMA has read when it ends: its sources, or after an error those up to the failing address (R103, R104). -/
def DmaKind.readPart (k : DmaKind) (e : Option (Nat × MemErr)) : List (Nat × Nat) :=
  match k, e with
  | .copy dst src n, some (x, _) =>
    if src ≤ x ∧ x < src + n then [(src, x - src)] else [(src, (x - dst) / 64 * 64 + 64)]
  | .elements d a, some (x, _) =>
    (List.range (elemsBefore (descOf d) (descOf a) x)).map (fun j => (((descOf a).elemAddr j).1, (fmtNib (descOf a).fmt + 1) / 2))
  | k, none => k.sources

/-- The transfer of a DMA (R103, R104). -/
def State.runDma (s : State) (c : Nat) (k : DmaKind) : State × Option (Nat × MemErr) :=
  match k with
  | .copy dst src len => s.copyUnits (s.seatFields (fieldOfCore c)) (len / 64) dst src (len / 64)
  | .elements d a => s.copyElems c (descOf d) (descOf a) ((descOf d).count + 1) 0

/-- DMA_DONE: the `n`-th DMA in the queue finishes (DMAs complete in any order, R95), or meets an error response and records
fault 0x04; either way its tag completes. A write into a sealed buffer waits (R58). -/
def execDmaDone (c n : Nat) (s : State) : State :=
  match (s.core c).dmaQ[n]? with
  | none => s
  | some o =>
    if s.anySeal o.kind.ranges then s
    else
      let s := s.endReads o
      let r := (s.noteCorrected (o.kind.readPart (s.runDma c o.kind).2)).runDma c o.kind
      let s := match r.2 with
        | some e => r.1.engineErr c o.pc.toNat o.op.toNat 2 e
        | none => r.1
      s.modCore c (fun k => { k.tagDone o.tag 0 none with dmaQ := dropAt k.dmaQ n })

end Sys2Proof.Machine
end

