-- ==== Sys2Proof/Machine/Vector.lean ====
section
/-! DEFINITION. The vector engine (R154 to R181, R441, R442): the operations of Table 05-4, their legality at issue, their walk
over rows and chunks, flag words, scalars and histograms. -/

namespace Sys2Proof.Machine

/-! ### The catalogue (Table 05-4) -/

/-- Group of an operation: how it walks and how many lanes it takes (R155, R162). -/
inductive VGrp where
  | elem | trans | row | tensor | loss | qrow | quant
  deriving DecidableEq, Repr

/-- Group and number of sources of an operation code; none for a code that is not listed. -/
def vopInfo (code : Nat) : Option (VGrp × Nat) :=
  match code with
  | 0x01 => some (.elem, 1) | 0x02 => some (.elem, 2) | 0x03 => some (.elem, 2) | 0x04 => some (.elem, 2)
  | 0x05 => some (.elem, 2) | 0x06 => some (.elem, 2) | 0x07 => some (.elem, 2) | 0x08 => some (.elem, 3)
  | 0x09 => some (.elem, 1) | 0x0A => some (.elem, 1) | 0x0B => some (.elem, 1)
  | 0x0C => some (.trans, 1) | 0x0D => some (.trans, 1) | 0x0E => some (.trans, 1) | 0x0F => some (.trans, 1)
  | 0x10 => some (.trans, 1) | 0x11 => some (.trans, 1) | 0x12 => some (.trans, 1)
  | 0x20 => some (.row, 1) | 0x21 => some (.row, 1)
  | 0x22 => some (.tensor, 1) | 0x23 => some (.tensor, 1) | 0x24 => some (.tensor, 1)
  | 0x30 => some (.row, 1) | 0x31 => some (.row, 1) | 0x32 => some (.row, 2) | 0x33 => some (.row, 3)
  | 0x34 => some (.loss, 2) | 0x35 => some (.loss, 3)
  | 0x40 => some (.qrow, 1) | 0x41 => some (.quant, 1) | 0x42 => some (.quant, 1) | 0x43 => some (.quant, 1)
  | 0x44 => some (.quant, 1) | 0x48 => some (.tensor, 1)
  | _ => none

/-- Operations whose destination has DIM0 = 1 (R163). -/
def vopNarrow (code : Nat) : Bool := code == 0x20 || code == 0x21 || code == 0x31 || code == 0x34

/-- Operations that take integer formats in place of floating-point ones (R442). -/
def vopTakesInt (code : Nat) : Bool :=
  (decide (2 ≤ code) && decide (code ≤ 4)) || code == 6 || code == 7 || code == 9 || code == 10 || code == 0x20 ||
  code == 0x21 || code == 0x22 || code == 0x24 || code == 0x48

/-- Formats of the source A, of the other sources, and of the destination (R158, R165, R173 to R176, R442). -/
def vopFmts (code : Nat) (intg : Bool) : List Nat × List Nat × List Nat :=
  match code with
  | 0x01 => (allFmts, [], allFmts)
  | 0x23 => (fltFmts ++ [9], [], [])
  | 0x34 => (fltFmts, [8], fltFmts)
  | 0x35 => (fltFmts, [8], fltFmts)
  | 0x40 => (fltFmts, [], [5, 6])
  | 0x41 => (fltFmts, [], [2, 3, 5, 6])
  | 0x42 => (fltFmts, [], [4])
  | 0x43 => (fltFmts ++ intFmts, [], fltFmts)
  | 0x44 => ([8], [], intFmts)
  | _ =>
    if intg then (intFmts, intFmts, if code = 0x20 ∨ code = 0x21 then [8] else intFmts) else (fltFmts, fltFmts, fltFmts)

/-- Auxiliary kinds of the source A and of the destination: QROW writes per-row records, QTENSOR scales per tensor, MXQ writes
block scales, DEQ reads records of A, RESCALE of D (R173 to R176). -/
def vopKinds (code : Nat) : List Nat × List Nat :=
  match code with
  | 0x40 => (allKinds, [2])
  | 0x41 => (allKinds, [3])
  | 0x42 => (allKinds, [1])
  | 0x43 => ([2, 3, 4], allKinds)
  | 0x44 => (allKinds, [2, 3])
  | _ => (allKinds, allKinds)

/-- A source of B or C matches the destination, or has extent 1 and is repeated (R163). -/
def shapeFits (s d : Desc) : Bool :=
  (s.d0 == d.d0 || s.d0 == 1) && (s.d1 == d.d1 || s.d1 == 1) && (s.d2 == d.d2 || s.d2 == 1) && (s.d3 == d.d3 || s.d3 == 1)

/-- Equal extents. -/
def sameShape (s d : Desc) : Bool := s.d0 == d.d0 && s.d1 == d.d1 && s.d2 == d.d2 && s.d3 == d.d3

/-- Modifiers of IMM[31:20] (R165). -/
def modRnd (mods : BitVec 12) : Nat := mods.toNat % 4
def modAmax (mods : BitVec 12) : Bool := mods.getLsbD 2
def modHist (mods : BitVec 12) : Bool := mods.getLsbD 3

/-- A descriptor that stands in an operation with no destination: it is checked where it describes a tensor, for it is then
the home descriptor (R171) (log 12). -/
def homeOk (c : Nat) (d : Desc) : Bool := d.count == 0 || d.ok c allFmts allKinds false

/-- R161 and R165 at issue: everything but code regions. -/
def vopLegal (c code : Nat) (mods : BitVec 12) (d a b e : Desc) : Bool :=
  match vopInfo code with
  | none => false
  | some (g, arity) =>
    let intg := vopTakesInt code && fmtInt a.fmt
    let f := vopFmts code intg
    let k := vopKinds code
    let narrow := vopNarrow code
    let loss := code == 0x34 || code == 0x35
    modRnd mods != 3 && mods.toNat / 16 == 0 &&
    !(modAmax mods && (g == .tensor || code == 0x34)) &&
    a.ok c f.1 k.1 false &&
    (if g == .tensor then homeOk c d
     else d.ok c f.2.2 k.2 true &&
       (if narrow then d.d0 == 1 && a.d1 == d.d1 && a.d2 == d.d2 && a.d3 == d.d3 else sameShape a d)) &&
    (decide (arity < 2) || (b.ok c f.2.1 allKinds false && shapeFits b d && (!loss || b.d0 == 1))) &&
    (decide (arity < 3) || (e.ok c fltFmts allKinds false && shapeFits e d)) &&
    (!(g == .row || g == .loss || g == .qrow) || decide (a.d0 ≤ 16384))

/-- Lanes (R155). -/
def vopLanes (g : VGrp) (fmts : List Nat) : Nat :=
  if g == .trans || g == .row || g == .loss || fmts.any (fun f => decide (4 < fmtNib f)) then 128
  else if fmts.any (fun f => fmtNib f == 4) then 256 else 512

/-! ### Elements -/

/-- What an operation works from: its code, descriptors, rounding, key and ε. -/
structure VCtx where
  code : Nat
  d : Desc
  a : Desc
  b : Desc
  e : Desc
  rnd : Nat
  key : RngKey
  eps : Fv
  intg : Bool
  deriving DecidableEq, Repr

/-- What a chunk or row yields: element bits by element number, the values computed before conversion, auxiliary bytes, flags. -/
structure VOut where
  outs  : List (Nat × Nat) := []
  pre   : List Fv := []
  aux   : List (Nat × List Byte) := []
  flags : Nat := 0
  deriving DecidableEq, Repr

/-- Two yields in order. -/
def VOut.join (x y : VOut) : VOut :=
  { outs := x.outs ++ y.outs, pre := x.pre ++ y.pre, aux := x.aux ++ y.aux, flags := x.flags ||| y.flags }

/-- The element of a repeated source that stands for element `k` of a shape (R163). -/
def srcIx (shape s : Desc) (k : Nat) : Nat :=
  let r := k / shape.d0
  let p (n i : Nat) : Nat := if n = 1 then 0 else i
  p s.d0 (k % shape.d0) +
    s.d0 * (p s.d1 (r % shape.d1) + s.d1 * (p s.d2 (r / shape.d1 % shape.d2) + s.d2 * p s.d3 (r / shape.d1 / shape.d2)))

/-- INT32 arithmetic wraps modulo 2^32 (R165). -/
def wrap32 (x : Int) : Int := signedOf 32 (wrapTo 32 x)

/-- Integer element operations (R442). -/
def elemInt (code : Nat) (a b : Int) : Int :=
  match code with
  | 0x02 => wrap32 (a + b)
  | 0x03 => wrap32 (a - b)
  | 0x04 => wrap32 (a * b)
  | 0x06 => if b < a then b else a
  | 0x07 => if a < b then b else a
  | 0x09 => wrap32 a.natAbs
  | _ => wrap32 (-a)

/-- The value CVT converts into format `f`: a floating-point result is computed in FP32 first (R155), but E8M0 takes the source exactly (R441), and
so does an integer result (log 12). -/
def cvtF (f : Nat) (a : Fv) : Fv × Nat := if f = 12 ∨ fmtInt f then (a, 0) else r32F a

/-- Floating-point element operations in FP32, with their flags (R165, R168, R169); `f` is the format of D. -/
def elemFlt (code f : Nat) (a b c : Fv) : Fv × Nat :=
  match code with
  | 0x01 => cvtF f a
  | 0x02 => addF a b
  | 0x03 => addF a (Fv.neg b)
  | 0x04 => mulF a b
  | 0x05 => divF a b
  | 0x06 => r32F (Fv.minN a b)
  | 0x07 => r32F (Fv.maxN a b)
  | 0x08 => fmaF a b c
  | 0x09 => r32F (Fv.abs a)
  | 0x0A => r32F (Fv.neg a)
  | 0x0B => sqrtF a
  | 0x0C => rsqrtF a
  | 0x0D => recipF a
  | 0x0E => expF a
  | 0x0F => logF a
  | 0x10 => tanhF a
  | 0x11 => sigmoidF a
  | _ => let r := sigmoidF a; let p := mulF a r.1; (p.1, r.2 ||| p.2)

/-- Convert the value of element `k` into D under RND (R165, R178); a MXFP4 destination divides by the block scale that stands
at its AUX (Table 05-9, log 12). DESIGN CHOICE (log 12): MXFP4 has no NaN and no infinity, and Table 04-6 no row for it: a NaN is written as +0 with
NAN_OUT, an infinity as ±6 with OVF, and an element under a block scale of 0xFF as 0 with NAN_OUT. -/
def VCtx.conv (x : VCtx) (m : Memory) (k : Nat) (v : Fv) : Nat × Nat :=
  let md := rndOf x.rnd x.key (x.d.index k)
  if x.d.fmt = 4 then
    (let e := x.d.blockScale m k
     if e = 255 then (0, flNanOut) else convFmt 4 md (v.scale (127 - (e : Int))))
  else convFmt x.d.fmt md v

/-- Value of a source at the place of element `k` of D. -/
def VCtx.src (x : VCtx) (m : Memory) (s : Desc) (k : Nat) : Fv := s.val m (srcIx x.d s k)

/-- A chunk of an element operation: elements `ks` of D. -/
def VCtx.elems (x : VCtx) (m : Memory) (arity : Nat) (ks : List Nat) : VOut :=
  if x.intg then
    let vs := ks.map (fun k => (k, elemInt x.code (x.a.int m k) (if arity < 2 then 0 else x.b.int m (srcIx x.d x.b k))))
    let os := vs.map (fun p => (p.1, satInt x.d.fmt p.2))
    { outs := os.map (fun p => (p.1, p.2.1)), pre := vs.map (fun p => Fv.ofInt p.2), flags := orAll (os.map (·.2.2)) }
  else
    let vs := ks.map (fun k =>
      let a := x.a.val m k
      let b := if arity < 2 then Fv.zero else x.src m x.b k
      let c := if arity < 3 then Fv.zero else x.src m x.e k
      let r := elemFlt x.code x.d.fmt a b c
      (k, r.1, r.2 ||| inFlags a ||| inFlags b ||| inFlags c))
    let os := vs.map (fun p => (p.1, x.conv m p.1 p.2.1))
    { outs := os.map (fun p => (p.1, p.2.1)), pre := vs.map (·.2.1),
      flags := orAll (vs.map (·.2.2)) ||| orAll (os.map (·.2.2)) }

/-! ### Rows (R164, R166) -/

/-- Sum of a row in FP32. -/
def rowSum (xs : List Fv) : Fv := reduceRow add32 Fv.zero xs
/-- Maximum of a row. -/
def rowMax (xs : List Fv) : Fv := reduceRow Fv.maxN (.inf true) xs

/-- exp(rn32(x − m)) of a row. -/
def rowExps (xs : List Fv) (m : Fv) : List Fv := xs.map (fun v => (expF (add32 v (Fv.neg m))).1)

/-- Rows that Table 05-6 names: NaN across the row for a NaN; NaN for +Inf; a row entirely −Inf. -/
inductive RowCase where
  | nan | allNegInf | plain
  deriving DecidableEq, Repr

def rowCase (xs : List Fv) : RowCase :=
  if xs.any Fv.isNan || xs.contains (.inf false) then .nan
  else if xs.all (fun v => v == .inf true) then .allNegInf else .plain

/-- OVF where a sum of finite values has no finite result in FP32 (R170). -/
def sumFlags (ins : List Fv) (v : Fv) : Nat := if v.isInf && ins.all Fv.finite then flOvf else 0

/-- Flags of the roundings that give a row its results; those of values on the way raise none (R170, log 12). -/
def lastFlags (l : List (Fv × Nat)) : Nat := orAll (l.map (·.2)) &&& (flOvf ||| flUnf)

/-- SOFTMAX of a row and its flags beside those of reading. -/
def softmaxRow (xs : List Fv) : List Fv × Nat :=
  match rowCase xs with
  | .nan => (xs.map (fun _ => .nan), 0)
  | .allNegInf => (xs.map (fun _ => Fv.zero), flDomain)
  | .plain =>
    let es := rowExps xs (rowMax xs)
    let t := rowSum es
    let ys := es.map (fun v => divF v t)
    (ys.map (·.1), lastFlags ys)

/-- Log-sum-exp of a row: rn32(m + log(s)). -/
def lseRow (xs : List Fv) : Fv × Nat :=
  match rowCase xs with
  | .nan => (.nan, 0)
  | .allNegInf => (.nan, flDomain)
  | .plain =>
    let m := rowMax xs
    let y := addF m (logF (rowSum (rowExps xs m))).1
    (y.1, lastFlags [y])

/-- rn32(t / n) for the row length. -/
def perCount (t : Fv) (n : Nat) : Fv := div32 t (Fv.ofInt n)

/-- A row that turned to NaN with no NaN read sets DOMAIN. -/
def rowDomain (ins outs : List Fv) : Nat := if outs.any Fv.isNan && !ins.any Fv.isNan then flDomain else 0

/-- RMSNORM of a row with gains `g`. -/
def rmsRow (eps : Fv) (xs g : List Fv) : List Fv × Nat :=
  if (xs ++ g).any Fv.isNan then (xs.map (fun _ => .nan), 0)
  else
    let r := (rsqrtF (add32 (perCount (rowSum (xs.map (fun v => mul32 v v))) xs.length) eps)).1
    let ps := List.zipWith (fun v k => mulF (mul32 v r) k) xs g
    let ys := ps.map (·.1)
    (ys, lastFlags ps ||| rowDomain (xs ++ g) ys)

/-- LAYERNORM of a row with gains `g` and biases `b`. -/
def layerRow (eps : Fv) (xs g b : List Fv) : List Fv × Nat :=
  if (xs ++ g ++ b).any Fv.isNan then (xs.map (fun _ => .nan), 0)
  else
    let mu := perCount (rowSum xs) xs.length
    let ds := xs.map (fun v => add32 v (Fv.neg mu))
    let r := (rsqrtF (add32 (perCount (rowSum (ds.map (fun v => mul32 v v))) xs.length) eps)).1
    let ps := List.zipWith (fun v k => fmaF (mul32 v r) k.1 k.2) ds (List.zip g b)
    let ys := ps.map (·.1)
    (ys, lastFlags ps ||| rowDomain (xs ++ g ++ b) ys)

/-- Loss of a row with target `t` (R166). -/
def xentRow (xs : List Fv) (t : Int) : Fv × Nat :=
  if t = -1 then (Fv.zero, 0)
  else if t < 0 ∨ (xs.length : Int) ≤ t then (.nan, flDomain)
  else
    let l := lseRow xs
    let y := addF l.1 (Fv.neg (xs.getD t.toNat .nan))
    (y.1, l.2 ||| lastFlags [y])

/-- Gradient of a row with target `t`, scaled by the values `cs` of C (R166). -/
def xgradRow (xs : List Fv) (t : Int) (cs : List Fv) : List Fv × Nat :=
  if t = -1 then (xs.map (fun _ => Fv.zero), 0)
  else if t < 0 ∨ (xs.length : Int) ≤ t then (xs.map (fun _ => .nan), flDomain)
  else if (xs ++ cs).any Fv.isNan then (xs.map (fun _ => .nan), 0)
  else
    let y := softmaxRow xs
    let ps := List.zipWith (fun p c =>
      mulF (add32 p.1 (Fv.ofInt (if (p.2 : Int) = t then -1 else 0))) c) y.1.zipIdx cs
    let gs := ps.map (·.1)
    (gs, (y.2 &&& flDomain) ||| lastFlags ps ||| (if rowCase xs = .nan then 0 else rowDomain (xs ++ cs) gs))

/-- A row of a row or loss operation: row number `r`, source elements from `k` on. -/
def VCtx.rowOut (x : VCtx) (m : Memory) (r : Nat) : VOut :=
  let n := x.a.d0
  let ks := (List.range n).map (fun i => r * n + i)
  if x.intg then
    let vs := ks.map (x.a.int m)
    let v := if x.code = 0x20 then reduceRow (fun p q => wrap32 (p + q)) 0 vs
             else reduceRow (fun p q => if p < q then q else p) (-2147483648) vs
    let o := satInt x.d.fmt v
    { outs := [(r, o.1)], pre := [Fv.ofInt v], flags := o.2 }
  else
    let vs := ks.map (x.a.val m)
    let side (s : Desc) : List Fv := ks.map (x.src m s)
    let target : Int := x.b.int m (srcIx x.d x.b (if vopNarrow x.code then r else r * n))
    let res : List Fv × Nat × Nat :=
      match x.code with
      | 0x20 => let v := rowSum vs; ([v], rowDomain vs [v] ||| sumFlags vs v, 0)
      | 0x21 => let v := r32F (rowMax vs); ([v.1], v.2, 0)
      | 0x30 => let y := softmaxRow vs; (y.1, y.2, 0)
      | 0x31 => let y := lseRow vs; ([y.1], y.2, 0)
      | 0x32 => let g := side x.b; let y := rmsRow x.eps vs g; (y.1, y.2, orAll (g.map inFlags))
      | 0x33 =>
        let g := side x.b
        let b := side x.e
        let y := layerRow x.eps vs g b
        (y.1, y.2, orAll ((g ++ b).map inFlags))
      | 0x34 => let y := xentRow vs target; ([y.1], y.2, 0)
      | _ => let c := side x.e; let y := xgradRow vs target c; (y.1, y.2, orAll (c.map inFlags))
    let first := if vopNarrow x.code then r else r * n
    let os := res.1.zipIdx.map (fun p => (first + p.2, x.conv m (first + p.2) p.1))
    { outs := os.map (fun p => (p.1, p.2.1)), pre := res.1,
      flags := res.2.1 ||| res.2.2 ||| orAll (vs.map inFlags) ||| orAll (os.map (·.2.2)) }

/-! ### Quantisation (R173 to R176) -/

/-- Zero point of a record, signed. -/
def recZp (r : Nat) : Int := signedOf 8 (r / 2 ^ 32)
/-- Scale of a record as FP32. -/
def recScale (r : Nat) : Fv := f32Of (r % 2 ^ 32)

/-- A value rounded to a whole number and added to a zero point, saturated into D. -/
def quantInt (f : Nat) (md : Rnd) (z : Int) (v : Fv) : Nat × Nat :=
  let q := intConv (-2147483648) 2147483647 md v
  let o := satInt f (q.1 + z)
  (o.1, q.2 ||| o.2)

/-- QROW of row `r` (R173). -/
def VCtx.qrow (x : VCtx) (m : Memory) (r : Nat) : VOut :=
  let n := x.a.d0
  let ks := (List.range n).map (fun i => r * n + i)
  let vs := ks.map (x.a.val m)
  let q := intRange x.d.fmt
  let fin := orAll (vs.map inFlags)
  let rec' (s : Nat) (z : Int) : List (Nat × List Byte) := [(x.d.aux + 8 * r, leBytes 8 (s + wrapTo 8 z * 2 ^ 32))]
  if vs.any (fun v => !v.finite) then
    { outs := ks.map (fun k => (k, 0)), pre := vs.map (fun _ => Fv.zero), aux := rec' 0x7FC00000 0, flags := fin ||| flNanOut }
  else
    let lo := Fv.minN (reduceRow Fv.minN (.inf false) vs) Fv.zero
    let hi := Fv.maxN (reduceRow Fv.maxN (.inf true) vs) Fv.zero
    let s0 := rn32 (Fv.quot (Fv.sub hi lo) (Fv.ofInt (q.2 - q.1)))
    let s := if s0.isZero then Fv.one else s0
    let inv := div32 Fv.one s
    let z := (intConv q.1 q.2 .rne (Fv.sub (Fv.ofInt q.1) (mul32 lo inv))).1
    let ys := vs.map (fun v => mulF v inv)
    let ps := ys.map (·.1)
    let os := (List.zip ks ps).map (fun p => (p.1, quantInt x.d.fmt (rndOf x.rnd x.key (x.d.index p.1)) z p.2))
    { outs := os.map (fun p => (p.1, p.2.1)), pre := ps, aux := rec' (f32Bits s) z, flags := fin ||| lastFlags ys ||| orAll (os.map (·.2.2)) }

/-- QTENSOR of one element (R174): its bits, the value before conversion, its flags. -/
def VCtx.qtensor (x : VCtx) (m : Memory) (k : Nat) : Nat × Fv × Nat :=
  let v := x.a.val m k
  let sc := f32Of x.d.scale
  let y := mulF v sc
  let md := rndOf x.rnd x.key (x.d.index k)
  let o := if fmtInt x.d.fmt then quantInt x.d.fmt md (signedOf 8 x.d.zp) y.1 else convFmt x.d.fmt md y.1
  (o.1, y.1, o.2 ||| y.2 ||| inFlags v ||| inFlags sc)

/-- DEQ of one element: (A − z) × s rounded once to FP32, then converted (R165). -/
def VCtx.deq (x : VCtx) (m : Memory) (k : Nat) : Nat × Fv × Nat :=
  let v := x.a.val m k
  let r := x.a.record m k
  let s := recScale r
  let p := Fv.mul (Fv.sub v (Fv.ofInt (recZp r))) s
  let y := r32F p
  let o := x.conv m k y.1
  (o.1, y.1, o.2 ||| y.2 ||| inFlags v ||| inFlags s ||| domain [v, s] y.1)

/-- RESCALE of an integer (R176): multiply, shift with ties to even, add the zero point. -/
def rescale (v mul : Int) (n : Nat) (z : Int) : Int :=
  let p := v * mul
  let q := p / (2 ^ n : Nat)
  let r := p - q * (2 ^ n : Nat)
  let h : Int := (2 ^ (n - 1) : Nat)
  (if 0 < n ∧ (h < r ∨ (r = h ∧ q % 2 = 1)) then q + 1 else q) + z

def VCtx.rescaleOut (x : VCtx) (m : Memory) (k : Nat) : Nat × Fv × Nat :=
  let r := x.d.record m k
  let y := rescale (x.a.int m k) (signedOf 32 r) (r / 2 ^ 40 % 64) (recZp r)
  let o := satInt x.d.fmt y
  (o.1, Fv.ofInt y, o.2)

/-- MXQ of the block of 32 elements from `k` on (R175). -/
def VCtx.mxq (x : VCtx) (m : Memory) (k : Nat) : VOut :=
  let ks := (List.range 32).map (fun i => k + i)
  let vs := ks.map (x.a.val m)
  let fin := orAll (vs.map inFlags)
  let at' (e : Nat) : List (Nat × List Byte) := [(x.d.aux + k / 32, [BitVec.ofNat 8 e])]
  if vs.any (fun v => !v.finite) then
    { outs := ks.map (fun k => (k, 0)), pre := vs.map (fun _ => Fv.zero), aux := at' 255, flags := fin ||| flNanOut }
  else
    let a := (vs.map Fv.abs).foldl Fv.maxN Fv.zero
    let e : Int := match a with
      | .fin _ q g => if q = 0 then -127 else clampInt (elog2 q g - 2) (-127) 127
      | _ => -127
    let ps := vs.map (fun v => v.scale (-e))
    let os := (List.zip ks ps).map (fun p => (p.1, convFmt 4 (rndOf x.rnd x.key (x.d.index p.1)) p.2))
    { outs := os.map (fun p => (p.1, p.2.1)), pre := ps, aux := at' (e + 127).toNat, flags := fin ||| orAll (os.map (·.2.2)) }

/-- A chunk of a quantising operation. QTENSOR's AMAXOUT takes the values before scaling (R174). -/
def VCtx.quantOut (x : VCtx) (m : Memory) (ks : List Nat) : VOut :=
  if x.code = 0x42 then ((ks.filter (fun k => k % 32 == 0)).map (x.mxq m)).foldl VOut.join {}
  else
    let vs := ks.map (fun k => (k, if x.code = 0x41 then x.qtensor m k else if x.code = 0x43 then x.deq m k else x.rescaleOut m k))
    { outs := vs.map (fun p => (p.1, p.2.1)), pre := vs.map (·.2.2.1), flags := orAll (vs.map (·.2.2.2)) }

/-! ### Walking (R162) -/

/-- Make the writes of a chunk or row: elements, then auxiliary bytes. -/
def VOut.land (o : VOut) (d : Desc) (m : Memory) : Memory :=
  o.aux.foldl (fun m p => Memory.writeN m p.1 p.2) (o.outs.foldl (fun m p => d.put m p.1 p.2) m)

/-- Element numbers of the chunks of a row of `n` elements from `k` on, `l` lanes each. -/
def rowChunks (l n k : Nat) : List (List Nat) :=
  (List.range (ceilDiv n l)).map (fun c => (List.range (Nat.min l (n - c * l))).map (fun i => k + c * l + i))

/-- Pieces an operation reads whole before it writes them: chunks, or whole rows. -/
def VCtx.pieces (x : VCtx) (g : VGrp) (arity : Nat) : List (Memory → VOut) :=
  let rows := List.range x.a.rows
  let l := vopLanes g ([x.d.fmt, x.a.fmt] ++ (if arity < 2 then [] else [x.b.fmt]) ++ (if arity < 3 then [] else [x.e.fmt]))
  let chunks := rows.flatMap (fun r => rowChunks l x.a.d0 (r * x.a.d0))
  match g with
  | .row => rows.map (fun r m => x.rowOut m r)
  | .loss => rows.map (fun r m => x.rowOut m r)
  | .qrow => rows.map (fun r m => x.qrow m r)
  | .quant => chunks.map (fun ks m => x.quantOut m ks)
  | .tensor => []
  | _ => chunks.map (fun ks m => x.elems m arity ks)

/-- Walk: each piece reads memory as the pieces before it left it (R162). -/
def VCtx.walk (x : VCtx) (ps : List (Memory → VOut)) (m : Memory) : Memory × VOut :=
  ps.foldl (fun acc p => let o := p acc.1; (o.land x.d acc.1, acc.2.join o)) (m, {})

/-! ### Tensor scalars (R164, R167) -/

/-- Rows of a tensor's values. -/
def Desc.rowVals (d : Desc) (m : Memory) : List (List Fv) :=
  (List.range d.rows).map (fun r => (List.range d.d0).map (fun i => d.val m (r * d.d0 + i)))
def Desc.rowInts (d : Desc) (m : Memory) : List (List Int) :=
  (List.range d.rows).map (fun r => (List.range d.d0).map (fun i => d.int m (r * d.d0 + i)))

/-- Largest of a list of magnitudes as an unsigned 32-bit value (R442). -/
def amaxInt (l : List Int) : Nat := l.foldl (fun n x => Nat.max n x.natAbs) 0 % 2 ^ 32

/-- FP64 sum of exact squares under R164. -/
def sumsq (d : Desc) (m : Memory) : Fv :=
  reduceTensor add64 Fv.zero ((d.rowVals m).map (fun r => r.map (fun v => rn64 (Fv.mul v v))))

/-- Scalar and flags of AMAX, SUMSQ and SUM. -/
def tensorScalar (code : Nat) (a : Desc) (intg : Bool) (m : Memory) : BitVec 64 × Nat :=
  if intg then
    let rs := a.rowInts m
    if code = 0x22 then (BitVec.ofNat 64 (amaxInt rs.flatten), 0)
    else (BitVec.ofNat 64 (wrapTo 32 (reduceTensor (fun p q => wrap32 (p + q)) 0 rs)), 0)
  else
    let rs := a.rowVals m
    let ins := orAll (rs.flatten.map inFlags)
    let v := match code with
      | 0x22 => reduceTensor Fv.maxN Fv.zero (rs.map (fun r => r.map Fv.abs))
      | 0x23 => sumsq a m
      | _ => reduceTensor add32 Fv.zero rs
    (BitVec.ofNat 64 (if code = 0x23 then f64Bits v else f32Bits v), ins ||| rowDomain rs.flatten [v])

/-! ### Histograms (R172) -/

/-- Bin of a value: the biased exponent of it taken as FP32. -/
def binOf (v : Fv) : Nat := f32Bits v / 2 ^ 23 % 256

/-- Add values to the 256 bins at an address; a bin stays at all ones, which sets HSAT. -/
def binValues (m : Memory) (at' : Nat) (vs : List Fv) : Memory × Nat :=
  vs.foldl (fun acc v =>
    let p := at' + 4 * binOf v
    let n := ofLe (Memory.readN acc.1 p 4)
    if n = 0xFFFFFFFF then (acc.1, acc.2 ||| flHsat) else (Memory.writeN acc.1 p (leBytes 4 (n + 1)), acc.2)) (m, 0)

/-! ### Issue (R94, R97, R161) -/

/-- Home descriptor: dD when it describes a tensor, else dA (R171). -/
def homeDesc (d a : Desc) : Desc := if d.count = 0 then a else d

/-- Ranges an operation writes at completion in the flag word and histogram of its home descriptor. -/
def homeRanges (c : Nat) (h : Desc) (hist : Bool) : List (Nat × Nat) :=
  (if h.flagoff = 0 then [] else [(slateBase c + h.flagoff, 8)]) ++
  (if hist && h.histoff != 0 then [(slateBase c + h.histoff, 1024)] else [])

/-- The operation described no elements (R161). -/
def vopEmpty (code : Nat) (d a : Desc) : Bool :=
  match vopInfo code with
  | some (g, arity) => if g == .tensor then a.count == 0 else d.count == 0 || (arity == 1 && a.count == 0)
  | none => true

/-- Every range a VOP writes. -/
def vopRanges (c code : Nat) (mods : BitVec 12) (d a : Desc) : List (Nat × Nat) :=
  if vopEmpty code d a then []
  else
    let home := homeRanges c (homeDesc d a) (code == 0x48 || modHist mods)
    match vopInfo code with
    | some (.tensor, _) => home
    | _ => d.ranges ++ (if code = 0x40 ∨ code = 0x42 then [(d.aux, d.auxBytes)] else []) ++ home

/-- Queue a vector operation and go on; a full queue of 8 holds the issue (R94). -/
def State.queueVec (s : State) (c : Nat) (o : VecOp) : State :=
  let k := s.core c
  if k.vecQ.length < 8 then
    (s.setCore c { k.tagAdd o.tag with vecQ := k.vecQ ++ [o] }).advance c o.op.toNat
  else s

/-- Refuse with fault 0x0A or 0x03, or queue. -/
def State.issueVec (s : State) (c : Nat) (o : VecOp) (legal : Bool) (writes : List (Nat × Nat)) : State :=
  if !legal then (s.recordFaultOpen c 10 o.pc.toNat o.op.toNat 3).advance c o.op.toNat
  else match writes.find? (fun r => s.hitsCode r.1 r.2) with
  | some r => (s.recordFault c 3 o.pc.toNat o.op.toNat (s.firstCode r.1 r.2) 3).advance c o.op.toNat
  | none => s.queueVec c o

/-- A VOP of code `code` (R106, R165): IMM[19:16] names the third descriptor, IMM[31:20] the modifiers; a word whose IMM[15:0] is another code, one
that is not listed among them, is refused. -/
def issueVop (code c : Nat) (i : Ins) (s : State) : State :=
  issue c 0x80 i (fun s =>
    let k := s.core c
    let mods : BitVec 12 := (i.imm >>> 20).setWidth 12
    let e := k.dreg ((i.imm >>> 16).setWidth 4 |>.setWidth 5)
    let o : VecOp := { kind := .vop (BitVec.ofNat 16 code), d := k.dreg i.dst, a := k.dreg i.sa, b := k.dreg i.sb, c := e,
                       mods := mods, tag := tagOf i, pc := k.pc, op := 0x80, key := s.rngKey c, step := k.sreg 3 }
    s.issueVec c o (i.imm.toNat % 65536 == code && vopLegal c code mods (descOf o.d) (descOf o.a) (descOf o.b) (descOf e))
      (vopRanges c code mods (descOf o.d) (descOf o.a))) s

/-- VOP CVT (R169, R441): code 0x0001. -/
def execVopCvt (c : Nat) (i : Ins) (s : State) : State := issueVop 0x01 c i s

/-- VOP ADD (R165): code 0x0002. -/
def execVopAdd (c : Nat) (i : Ins) (s : State) : State := issueVop 0x02 c i s

/-- VOP SUB (R165): code 0x0003. -/
def execVopSub (c : Nat) (i : Ins) (s : State) : State := issueVop 0x03 c i s

/-- VOP MUL (R165): code 0x0004. -/
def execVopMul (c : Nat) (i : Ins) (s : State) : State := issueVop 0x04 c i s

/-- VOP DIV (R168): code 0x0005. -/
def execVopDiv (c : Nat) (i : Ins) (s : State) : State := issueVop 0x05 c i s

/-- VOP MIN (R164): code 0x0006. -/
def execVopMin (c : Nat) (i : Ins) (s : State) : State := issueVop 0x06 c i s

/-- VOP MAX (R164): code 0x0007. -/
def execVopMax (c : Nat) (i : Ins) (s : State) : State := issueVop 0x07 c i s

/-- VOP FMA (R165): code 0x0008. -/
def execVopFma (c : Nat) (i : Ins) (s : State) : State := issueVop 0x08 c i s

/-- VOP ABS (R165): code 0x0009. -/
def execVopAbs (c : Nat) (i : Ins) (s : State) : State := issueVop 0x09 c i s

/-- VOP NEG (R165): code 0x000A. -/
def execVopNeg (c : Nat) (i : Ins) (s : State) : State := issueVop 0x0A c i s

/-- VOP SQRT (R168): code 0x000B. -/
def execVopSqrt (c : Nat) (i : Ins) (s : State) : State := issueVop 0x0B c i s

/-- VOP RSQRT (R168): code 0x000C. -/
def execVopRsqrt (c : Nat) (i : Ins) (s : State) : State := issueVop 0x0C c i s

/-- VOP RECIP (R168): code 0x000D. -/
def execVopRecip (c : Nat) (i : Ins) (s : State) : State := issueVop 0x0D c i s

/-- VOP EXP (R168): code 0x000E. -/
def execVopExp (c : Nat) (i : Ins) (s : State) : State := issueVop 0x0E c i s

/-- VOP LOG (R168): code 0x000F. -/
def execVopLog (c : Nat) (i : Ins) (s : State) : State := issueVop 0x0F c i s

/-- VOP TANH (R168): code 0x0010. -/
def execVopTanh (c : Nat) (i : Ins) (s : State) : State := issueVop 0x10 c i s

/-- VOP SIGMOID (R168): code 0x0011. -/
def execVopSigmoid (c : Nat) (i : Ins) (s : State) : State := issueVop 0x11 c i s

/-- VOP SILU (R165): code 0x0012. -/
def execVopSilu (c : Nat) (i : Ins) (s : State) : State := issueVop 0x12 c i s

/-- VOP RSUM (R164): code 0x0020. -/
def execVopRsum (c : Nat) (i : Ins) (s : State) : State := issueVop 0x20 c i s

/-- VOP RMAX (R164): code 0x0021. -/
def execVopRmax (c : Nat) (i : Ins) (s : State) : State := issueVop 0x21 c i s

/-- VOP AMAX (R167): code 0x0022. -/
def execVopAmax (c : Nat) (i : Ins) (s : State) : State := issueVop 0x22 c i s

/-- VOP SUMSQ (R167): code 0x0023. -/
def execVopSumsq (c : Nat) (i : Ins) (s : State) : State := issueVop 0x23 c i s

/-- VOP SUM (R167): code 0x0024. -/
def execVopSum (c : Nat) (i : Ins) (s : State) : State := issueVop 0x24 c i s

/-- VOP SOFTMAX (R166): code 0x0030. -/
def execVopSoftmax (c : Nat) (i : Ins) (s : State) : State := issueVop 0x30 c i s

/-- VOP LSE (R166): code 0x0031. -/
def execVopLse (c : Nat) (i : Ins) (s : State) : State := issueVop 0x31 c i s

/-- VOP RMSNORM (R166): code 0x0032. -/
def execVopRmsnorm (c : Nat) (i : Ins) (s : State) : State := issueVop 0x32 c i s

/-- VOP LAYERNORM (R166): code 0x0033. -/
def execVopLayernorm (c : Nat) (i : Ins) (s : State) : State := issueVop 0x33 c i s

/-- VOP XENT (R166): code 0x0034. -/
def execVopXent (c : Nat) (i : Ins) (s : State) : State := issueVop 0x34 c i s

/-- VOP XGRAD (R166): code 0x0035. -/
def execVopXgrad (c : Nat) (i : Ins) (s : State) : State := issueVop 0x35 c i s

/-- VOP QROW (R173): code 0x0040. -/
def execVopQrow (c : Nat) (i : Ins) (s : State) : State := issueVop 0x40 c i s

/-- VOP QTENSOR (R174): code 0x0041. -/
def execVopQtensor (c : Nat) (i : Ins) (s : State) : State := issueVop 0x41 c i s

/-- VOP MXQ (R175): code 0x0042. -/
def execVopMxq (c : Nat) (i : Ins) (s : State) : State := issueVop 0x42 c i s

/-- VOP DEQ (R165): code 0x0043. -/
def execVopDeq (c : Nat) (i : Ins) (s : State) : State := issueVop 0x43 c i s

/-- VOP RESCALE (R176): code 0x0044. -/
def execVopRescale (c : Nat) (i : Ins) (s : State) : State := issueVop 0x44 c i s

/-- VOP HIST (R172): code 0x0048. -/
def execVopHist (c : Nat) (i : Ins) (s : State) : State := issueVop 0x48 c i s

/-! ### CRC, VGET, VFLG (R106, R167) -/

/-- Put a range into a list sorted by address. -/
def insertRange (r : Nat × Nat) : List (Nat × Nat) → List (Nat × Nat)
  | [] => [r]
  | x :: t => if r.1 ≤ x.1 then r :: x :: t else x :: insertRange r t

/-- Bytes of sorted ranges from `next` on, each byte once. -/
def bytesInOrder (m : Memory) : Nat → List (Nat × Nat) → List Byte
  | _, [] => []
  | next, r :: t =>
    let lo := Nat.max next r.1
    Memory.readN m lo (r.1 + r.2 - lo) ++ bytesInOrder m (Nat.max next (r.1 + r.2)) t

/-- The bytes a descriptor describes, in address order. -/
def Desc.bytesOf (d : Desc) (m : Memory) : List Byte := bytesInOrder m 0 (d.ranges.foldr insertRange [])

/-- CRC (0x82). -/
def execCrc (c : Nat) (i : Ins) (s : State) : State :=
  issue c 0x82 i (fun s =>
    let k := s.core c
    let a := descOf (k.dreg i.sa)
    let o : VecOp := { kind := .crc, a := k.dreg i.sa, tag := tagOf i, pc := k.pc, op := 0x82, key := s.rngKey c }
    s.issueVec c o (a.ok c allFmts allKinds false) (if a.count = 0 then [] else homeRanges c a false)) s

/-- Scalar last delivered under a tag. -/
def Core.scalarOf (k : Core) (t : BitVec 4) : BitVec 64 := Tab.get (fun _ => 0) k.tagScalar t.toNat
/-- Flag words collected under a tag. -/
def Core.flagsOf (k : Core) (t : BitVec 4) : BitVec 64 := Tab.get (fun _ => 0) k.tagFlags t.toNat

/-- sD := the scalar of the tag. -/
def Core.doVget (k : Core) (dst : BitVec 5) (t : BitVec 4) : Core := k.setS dst (k.scalarOf t)
/-- sD := the flags of the tag, which are then cleared. -/
def Core.doVflg (k : Core) (dst : BitVec 5) (t : BitVec 4) : Core :=
  { k.setS dst (k.flagsOf t) with tagFlags := Tab.set (fun _ => 0) k.tagFlags t.toNat 0 }

/-- VGET (0x83): waits for its tag. -/
def execVget (c : Nat) (i : Ins) (s : State) : State :=
  issue c 0x83 i (fun s =>
    if (s.core c).tag (tagOf i) = 0 then (s.modCore c (fun k => k.doVget i.dst (tagOf i))).advance c 0x83
    else s.modCore c (fun k => { k with stall := some (.vget i.dst (tagOf i)) })) s

/-- VFLG (0x84): waits for its tag. -/
def execVflg (c : Nat) (i : Ins) (s : State) : State :=
  issue c 0x84 i (fun s =>
    if (s.core c).tag (tagOf i) = 0 then (s.modCore c (fun k => k.doVflg i.dst (tagOf i))).advance c 0x84
    else s.modCore c (fun k => { k with stall := some (.vflg i.dst (tagOf i)) })) s

/-! ### FUPD (R198 to R202) -/

/-- An update record (Table 06-6). -/
structure UpdRec where
  lr : Fv
  beta1 : Fv
  beta2 : Fv
  eps : Fv
  wd : Fv
  clip : Fv
  bc1 : Fv
  bc2 : Fv
  gscale : Fv
  eu : Int
  evr : Int
  evw : Int
  layer : Nat
  dmax : Fv
  vmax : Fv
  sat : Nat
  step : Nat
  deriving DecidableEq, Repr

/-- Read 64 bytes as an update record. -/
def updRecOf (bs : List Byte) : UpdRec :=
  let w (o n : Nat) : Nat := ofLe ((bs.drop o).take n)
  { lr := f32Of (w 0 4), beta1 := f32Of (w 4 4), beta2 := f32Of (w 8 4), eps := f32Of (w 12 4), wd := f32Of (w 16 4),
    clip := f32Of (w 20 4), bc1 := f32Of (w 24 4), bc2 := f32Of (w 28 4), gscale := f32Of (w 32 4),
    eu := signedOf 16 (w 36 2), evr := signedOf 16 (w 38 2), evw := signedOf 16 (w 40 2), layer := w 42 2,
    dmax := f32Of (w 44 4), vmax := f32Of (w 48 4), sat := w 52 4, step := w 56 8 }

/-- The bytes of a record: FUPD's own fields over the lesson's bytes, which stay. -/
def UpdRec.bytes (r : UpdRec) (old : List Byte) : List Byte :=
  old.take 36 ++ leBytes 2 (wrapTo 16 r.eu) ++ leBytes 2 (wrapTo 16 r.evr) ++ leBytes 2 (wrapTo 16 r.evw) ++
    (old.drop 42).take 2 ++ leBytes 4 (f32Bits r.dmax) ++ leBytes 4 (f32Bits r.vmax) ++ leBytes 4 r.sat ++ leBytes 8 r.step

/-- Exponent of a finite positive value, else what stands. -/
def rollExp (v : Fv) (old : Int) : Int :=
  match v with
  | .fin false m e => if m = 0 then old else signedOf 16 (wrapTo 16 (elog2 m e - 12))
  | _ => old

/-- The roll at the first FUPD of an attempt on a record (R200). -/
def UpdRec.roll (r : UpdRec) (s3 : Nat) : UpdRec :=
  if r.step = s3 then r
  else { r with evr := r.evw, evw := rollExp r.vmax r.evw, eu := rollExp r.dmax r.eu,
                vmax := Fv.zero, dmax := Fv.zero, sat := 0, step := s3 }

/-- One element: (w, mom1, mom2) bits, the record, flags (R200). -/
def fupdElem (r : UpdRec) (mfmt : Nat) (md : Rnd) (w g0 m0 v0 : Fv) : (Nat × Nat × Nat) × UpdRec × Nat :=
  let gs := mulF g0 r.gscale
  let g := mulF gs.1 r.clip
  let b1 := addF Fv.one (Fv.neg r.beta1)
  let t1 := mulF b1.1 g.1
  let mo := fmaF r.beta1 m0 t1.1
  let b2 := addF Fv.one (Fv.neg r.beta2)
  let gg := mulF g.1 g.1
  let t2 := mulF b2.1 gg.1
  let vr := r32F (v0.scale r.evr)
  let v := fmaF r.beta2 vr.1 t2.1
  let num := mulF mo.1 r.bc1
  let vb := mulF v.1 r.bc2
  let rt := sqrtF vb.1
  let den := addF rt.1 r.eps
  let rho := divF num.1 den.1
  let u := fmaF r.wd w rho.1
  let d := mulF (Fv.neg r.lr) u.1
  let dq := fpFP16.conv .rne (d.1.scale (-r.eu))
  let sum := Fv.add w ((fpFP16.decode dq.1).scale r.eu)
  let wo := convFmt mfmt md sum
  let m1 := convFmt 0 .rne mo.1
  let v1 := convFmt 1 .rne (v.1.scale (-r.evw))
  let sats := b2n (dq.2 / flOvf % 2 == 1) + b2n (v1.2 / flOvf % 2 == 1)
  let fl := (orAll [gs.2, g.2, b1.2, t1.2, mo.2, b2.2, gg.2, vr.2, t2.2, v.2, num.2, vb.2, rt.2, den.2, rho.2, u.2, d.2,
    domain [w, fpFP16.decode dq.1] sum, dq.2] &&& (flOvf ||| flDivz ||| flDomain)) |||
    orAll [wo.2, m1.2, v1.2, inFlags w, inFlags g0, inFlags m0, inFlags v0]
  ((wo.1, m1.1, v1.1),
   { r with dmax := Fv.maxN r.dmax d.1.abs, vmax := Fv.maxN r.vmax v.1, sat := (r.sat + sats) % 2 ^ 32 }, fl)

/-- Legality of FUPD beside its record's LAYER (R198). -/
def fupdLegal (c : Nat) (d a b e : Desc) : Bool :=
  d.ok c [7, 11] [0] true && a.ok c [0, 1] allKinds false && b.ok c [0] allKinds true && e.ok c [1] allKinds true &&
  sameShape d a && sameShape d b && sameShape d e && d.aux % 64 == 0 &&
  decide (slateBase c ≤ d.aux) && decide (d.aux + 64 ≤ slateBase c + 0x80000)

/-- Ranges FUPD writes. -/
def fupdRanges (c : Nat) (d b e : Desc) : List (Nat × Nat) :=
  if d.count = 0 then [] else d.ranges ++ b.ranges ++ e.ranges ++ [(d.aux, 64)] ++ homeRanges c d false

/-- FUPD (0x81): IMM[3:0] names the second moment, IMM[19:4] the layer; IMM[31:20] is zero. The record is read at issue for its LAYER (R198): where
that read gets an error response, fault 0x04 is recorded and nothing is queued. -/
def execFupd (c : Nat) (i : Ins) (s : State) : State :=
  issue c 0x81 i (fun s =>
    let k := s.core c
    let layer : BitVec 16 := (i.imm >>> 4).setWidth 16
    let o : VecOp := { kind := .fupd layer, d := k.dreg i.dst, a := k.dreg i.sa, b := k.dreg i.sb,
                       c := k.dreg (i.imm.setWidth 4 |>.setWidth 5), mods := (i.imm >>> 20).setWidth 12,
                       tag := tagOf i, pc := k.pc, op := 0x81, key := s.rngKey c, step := k.sreg 3 }
    let d := descOf o.d
    let legal := fupdLegal c d (descOf o.a) (descOf o.b) (descOf o.c) && o.mods == 0
    match s.readRange (s.seatFields (fieldOfCore c)) d.aux 64 with
    | .ok bs => (s.noteCorrected [(d.aux, 64)]).issueVec c o (legal && (updRecOf bs).layer == layer.toNat) (fupdRanges c d (descOf o.b) (descOf o.c))
    | .error e => if legal then (s.engineErr c k.pc.toNat 0x81 3 e).advance c 0x81 else s.issueVec c o false []) s

/-- A chunk of FUPD: the memory and record after it, and its flags. -/
def fupdChunk (o : VecOp) (ks : List Nat) (acc : Memory × UpdRec × Nat) : Memory × UpdRec × Nat :=
  let d := descOf o.d
  let a := descOf o.a
  let b := descOf o.b
  let e := descOf o.c
  let r := ks.foldl (fun (p : List (Nat × (Nat × Nat × Nat)) × UpdRec × Nat) k =>
    let md := if d.fmt = 11 then rndOf 1 o.key (d.index k) else .rne
    let x := fupdElem p.2.1 d.fmt md (d.val acc.1 k) (a.val acc.1 k) (b.val acc.1 k) (e.val acc.1 k)
    (p.1 ++ [(k, x.1)], x.2.1, p.2.2 ||| x.2.2)) ([], acc.2.1, acc.2.2)
  (r.1.foldl (fun m p => e.put (b.put (d.put m p.1 p.2.1) p.1 p.2.2.1) p.1 p.2.2.2) acc.1, r.2.1, r.2.2)

/-- FUPD over memory, at 128 lanes (R200, R201). -/
def fupdRun (o : VecOp) (m : Memory) : Memory × Nat :=
  let d := descOf o.d
  let old := Memory.readN m d.aux 64
  let chunks := (List.range d.rows).flatMap (fun r => rowChunks 128 d.d0 (r * d.d0))
  let r := chunks.foldl (fun acc ks => fupdChunk o ks acc) (m, (updRecOf old).roll o.step.toNat, 0)
  (Memory.writeN r.1 d.aux (r.2.1.bytes old), r.2.2)

/-! ### VECTOR_OP_START and VECTOR_OP_DONE -/

/-- VECTOR_OP_START: the engine takes the next operation, in queue order (R156). -/
def execVectorOpStart (c : Nat) (s : State) : State :=
  let k := s.core c
  if !k.vecBusy && !k.vecQ.isEmpty then s.setCore c { k with vecBusy := true } else s

/-- What an operation does to memory, with its flags, scalar, SUMSQ's sum and AMAXOUT value. -/
structure VDone where
  mem    : Memory
  flags  : Nat := 0
  scalar : Option (BitVec 64) := none
  norm   : Option Fv := none
  deriving DecidableEq, Repr

/-- AMAXOUT: the largest magnitude of the values computed, before conversion (R165, R174); of a conversion of integers, of its source (R167, R442). -/
def amaxOut (x : VCtx) (m : Memory) (pre : List Fv) : BitVec 64 :=
  if x.intg || x.code == 0x44 then
    BitVec.ofNat 64 (pre.foldl (fun n v => match v with | .fin _ q _ => Nat.max n q | _ => n) 0 % 2 ^ 32)
  else if x.code == 0x01 && fmtInt x.a.fmt then BitVec.ofNat 64 (amaxInt ((List.range x.a.count).map (x.a.int m)))
  else
    let vs := if x.code = 0x41 then (List.range x.a.count).map (x.a.val m) else pre
    BitVec.ofNat 64 (f32Bits (reduceRow Fv.maxN Fv.zero (vs.map (fun v => (rn32 v).abs))))

/-- Bin values into the home histogram, if it has one. -/
def binHome (c : Nat) (h : Desc) (on : Bool) (m : Memory) (vs : List Fv) : Memory × Nat :=
  if on && h.histoff != 0 then binValues m (slateBase c + h.histoff) vs else (m, 0)

/-- A VOP over memory. -/
def vopRun (c : Nat) (x : VCtx) (mods : BitVec 12) (m : Memory) : VDone :=
  match vopInfo x.code with
  | none => { mem := m }
  | some (g, arity) =>
    let home := homeDesc x.d x.a
    match g with
    | .tensor =>
      if x.code = 0x48 then
        let vs := (List.range x.a.count).map (x.a.val m)
        let h := binHome c home true m vs
        { mem := h.1, flags := h.2 ||| orAll (vs.map inFlags),
          scalar := some (BitVec.ofNat 64 (if home.histoff = 0 then 0 else x.a.count)) }
      else
        let r := tensorScalar x.code x.a x.intg m
        { mem := m, flags := r.2, scalar := some r.1, norm := if x.code = 0x23 then some (sumsq x.a m) else none }
    | _ =>
      let w := x.walk (x.pieces g arity) m
      let h := binHome c home (modHist mods) w.1 w.2.pre
      let sc := if x.code = 0x34 then
          some (BitVec.ofNat 64 (f32Bits (reduceTensor add32 Fv.zero (w.2.pre.map (fun v => [v])))))
        else if modAmax mods then some (amaxOut x m w.2.pre) else none
      { mem := h.1, flags := w.2.flags ||| h.2, scalar := sc }

/-- The operation yields a scalar (Table 05-5). -/
def VecOp.hasScalar (o : VecOp) : Bool :=
  match o.kind with
  | .vop code => code == 0x22 || code == 0x23 || code == 0x24 || code == 0x34 || code == 0x48 || modAmax o.mods
  | .fupd _ => false
  | .crc => true

/-- The operation described no elements. -/
def VecOp.empty (o : VecOp) : Bool :=
  match o.kind with
  | .vop code => vopEmpty code.toNat (descOf o.d) (descOf o.a)
  | .fupd _ => (descOf o.d).count == 0
  | .crc => (descOf o.a).count == 0

/-- Ranges the operation writes. -/
def VecOp.writes (o : VecOp) (c : Nat) : List (Nat × Nat) :=
  match o.kind with
  | .vop code => vopRanges c code.toNat o.mods (descOf o.d) (descOf o.a)
  | .fupd _ => fupdRanges c (descOf o.d) (descOf o.b) (descOf o.c)
  | .crc => if (descOf o.a).count = 0 then [] else homeRanges c (descOf o.a) false

/-- Descriptors the operation reads. -/
def VecOp.reads (o : VecOp) : List Desc :=
  match o.kind with
  | .vop code => match vopInfo code.toNat with
    | some (_, 1) => [descOf o.a]
    | some (_, 2) => [descOf o.a, descOf o.b]
    | _ => [descOf o.a, descOf o.b, descOf o.c]
  | .fupd _ => [descOf o.d, descOf o.a, descOf o.b, descOf o.c]
  | .crc => [descOf o.a]

/-- Run an operation over memory. -/
def VecOp.run (o : VecOp) (c : Nat) (eps : Fv) (m : Memory) : VDone :=
  match o.kind with
  | .vop code =>
    let x : VCtx := { code := code.toNat, d := descOf o.d, a := descOf o.a, b := descOf o.b, e := descOf o.c,
                      rnd := modRnd o.mods, key := o.key, eps := eps,
                      intg := vopTakesInt code.toNat && fmtInt (descOf o.a).fmt }
    vopRun c x o.mods m
  | .fupd _ => let r := fupdRun o m; { mem := r.1, flags := r.2 }
  | .crc => { mem := m, scalar := some ((crc32c ((descOf o.a).bytesOf m)).setWidth 64) }

/-- OR a flag word into the one at FLAGOFF of the home descriptor (R171). -/
def orHome (c : Nat) (h : Desc) (fl : Nat) (m : Memory) : Memory :=
  if h.flagoff = 0 then m
  else let p := slateBase c + h.flagoff; Memory.writeN m p (leBytes 8 (ofLe (Memory.readN m p 8) ||| fl))

/-- Bytes a stopped operation was writing hold unspecified values (R89, R180) (log 4). -/
def State.scribble (s : State) (l : List (Nat × Nat)) : State :=
  l.foldl (fun s r => { s with mem := Memory.writeN s.mem r.1 (freeBytes s.free r.2), free := s.free + r.2 }) s

/-- Home descriptor of an operation. -/
def VecOp.home (o : VecOp) : Desc :=
  match o.kind with
  | .vop _ => homeDesc (descOf o.d) (descOf o.a)
  | .fupd _ => descOf o.d
  | .crc => descOf o.a

/-- The engine drops its operation and delivers flag word and scalar to the tag and to VX_FLAGS; the counters count (R171, Table 05-16). -/
def State.endVec (s : State) (c : Nat) (o : VecOp) (fl : Nat) (scalar : Option (BitVec 64)) (norm : Option Fv) : State :=
  let s := s.modCore c (fun k =>
    { (k.tagDone o.tag fl scalar).stickVx fl with
      vecQ := k.vecQ.drop 1, vecBusy := false,
      vxNorm := match norm with
        | some v => BitVec.ofNat 64 (f64Bits (add64 (f64Of k.vxNorm.toNat) v))
        | none => k.vxNorm })
  let s := s.bump (vxBase c + 0x30)
  if fl % 2 = 1 then s.bump (vxBase c + 0x38) else s

/-- What an operation reads beside its tensors: flag word, histogram, update record. -/
def VecOp.readsAlso (o : VecOp) (c : Nat) : List (Nat × Nat) :=
  match o.kind with
  | .vop code => homeRanges c o.home (code == 0x48 || modHist o.mods)
  | .fupd _ => ((descOf o.d).aux, 64) :: homeRanges c o.home false
  | .crc => homeRanges c o.home false

/-- First error response an operation meets: its reads, then its writes. -/
def State.vecErr (s : State) (c : Nat) (o : VecOp) : Option (Nat × MemErr) :=
  (o.reads.findSome? (s.tensorErr c)) <|>
  ((o.readsAlso c).findSome? (fun r => firstErr (s.readErr (s.seatFields (fieldOfCore c))) r.1 r.2)) <|>
  s.rangesErr c (o.writes c)

/-- Ranges an operation reads: its tensors with their auxiliary arrays, and what it reads beside them. -/
def VecOp.readRanges (o : VecOp) (c : Nat) : List (Nat × Nat) :=
  o.reads.flatMap Desc.readRanges ++ o.readsAlso c

/-- VECTOR_OP_DONE: the running operation completes. One whose writes meet a sealed buffer waits (R58); one that meets an error
response completes its tag, and what it had written is not stated (log 4). -/
def execVectorOpDone (c : Nat) (s : State) : State :=
  let k := s.core c
  match k.vecQ with
  | [] => s
  | o :: _ =>
    if !k.vecBusy || s.anySeal (o.writes c) then s
    else if o.empty then s.endVec c o flEmpty (if o.hasScalar then some 0 else none) none
    else match s.vecErr c o with
    | some e => ((s.scribble (o.writes c)).endVec c o 0 none none).engineErr c o.pc.toNat o.op.toNat 3 e
    | none =>
      let r := o.run c (f32Of k.vxEps.toNat) s.mem
      let m := orHome c o.home r.flags r.mem
      let s := (s.noteCorrected (o.readRanges c)).landRanges m (o.writes c)
      let s := s.endVec c o r.flags r.scalar r.norm
      match o.kind with
      | .vop code =>
        if code = 0x41 ∧ r.flags / flOvf % 2 = 1 then
          s.logOverflow c o.key.layer (descOf o.d) ((r.scalar.getD 0).setWidth 32)
        else s
      | _ => s

end Sys2Proof.Machine
end

