-- ==== Sys2Proof/Machine/Bell.lean ====
section
/-! DEFINITION. The bell (R46 to R80): closing a period, folding words, the walk of the timetable, verdicts and their effects on
registers and regions (R256), redirects (R88, R89), and the commands of starts, stops and the loss of the parent. -/

namespace Sys2Proof.Machine

/-! ### Closing a period -/

/-- The plan version of the seat; 0 without a plan. -/
def Seat.planVer (k : Seat) : BitVec 16 := match k.plan with | some p => p.hdr.version | none => 0

/-- Cores that overrun at the bell record LATE in the closing period; a period with no missed seal and no overrun is sealed
(R111, R383). -/
def State.closeCores (s : State) (f : Nat) : State :=
  let k := s.seat f
  if k.tt.hold || k.plan.isNone then s else
  let over' := (s.listedCores (s.seatFields f)).filter (fun c => (s.core c).mode == .running || (s.core c).mode == .faulted)
  let s := over'.foldl (fun t c => t.late (fieldOfCore c)) s
  if k.sealMissed || !over'.isEmpty then s
  else (s.bump (prBase (s.seatIx f) + 0x58)).modSeat f (fun k => { k with sealedBell := k.tt.bell + 1 })

/-- MIRROR_OK of the last period of an attempt (R70, R261, R266); a first step, and a seat without a partner, report it set. -/
def State.mirrorOk (s : State) (f : Nat) : Bool :=
  let m := (s.seat f).cm
  !m.partnerOk || m.firstStep ||
    (s.appliesEnded f && (s.seatFields f).all (fun g => (s.field g).lb.mirrorFor == m.committed && !(s.field g).lb.unresolved) &&
      !m.fixInAttempt && m.units.all (fun e => !e.2.unacked))

/-- Status bits of the closing period, the Hall Monitors' requests among them in the last period of an attempt (R376). -/
def State.closeFlags (s : State) (f : Nat) : BitVec 9 :=
  let k := s.seat f
  let hs := (s.seatFields f).map (fun g => (s.field g).hm)
  k.tt.cur ||| (if k.tt.lastPeriod && hs.any (·.reqCkpt) then 64 else 0) |||
    (if k.tt.lastPeriod && hs.any (·.reqSubst) then 128 else 0) ||| (if k.ctxHeld then 1 else 0)

/-- The seat's own word of the closing period (R69). -/
def State.ownWord (s : State) (f : Nat) : BitVec 64 :=
  let k := s.seat f
  let fl := s.closeFlags f
  mkWord fl (!k.tt.lastPeriod || s.mirrorOk f) k.tt.curLayer (if fl = 0 then 0 else 1) k.planVer

/-- VALID entries of a core's norm table, unscaled exactly and added in position order to a running sum (R203, R204). -/
def normEntries (m : Memory) (a : Nat) : Nat → Nat → Fv → Fv
  | 0, _, x => x
  | n + 1, i, x =>
    let e := ofLe (Memory.readN m (a + 16 + 16 * i) 16)
    let k := signedOf 8 (bits e 71 64)
    normEntries m a n (i + 1) (if bit e 72 then add64 x ((f64Of (bits e 63 0)).scale (-2 * k)) else x)

/-- A core's norm table is read and added to a running sum. A table with an uncorrectable word gives nothing to the sum, and the word counts and
sets TAINT as any read of it does (R210; log 26), so that no step commits on such a sum. -/
def State.coreNorm (s : State) (g a : Nat) (x : Fv) : State × Fv :=
  match s.libRead g a 8 with
  | (s, none) => (s, x)
  | (s, some bs) =>
    let n := Nat.min (ofLe bs) 32767
    match s.libRead g (a + 16) (16 * n) with
    | (s, none) => (s, x)
    | (s, some _) => (s, normEntries s.mem a n 0 x)

/-- Offset of the norm table in each core's slate, as the loaded plan gives it. -/
def Seat.normTable (k : Seat) : Nat := match k.plan with | some p => p.hdr.normTable | none => 0

/-- Norm sum of a field: its cores in ascending order (R204). -/
def State.fieldNorm (s : State) (f g : Nat) : State × Fv :=
  (coresOfField g).foldl (fun r c => r.1.coreNorm g (slateBase c + (s.seat f).normTable) r.2) (s, Fv.zero)

/-- A field's norm sum is added to those of the fields below it. -/
def State.addNorm (f : Nat) (r : State × Fv) (g : Nat) : State × Fv := ((r.1.fieldNorm f g).1, add64 r.2 (r.1.fieldNorm f g).2)

/-- Norm sum of the seat: its fields in ascending order. -/
def State.seatNorm (s : State) (f : Nat) : State × BitVec 64 :=
  (((s.seatFields f).foldl (State.addNorm f) (s, Fv.zero)).1,
    BitVec.ofNat 64 (f64Bits ((s.seatFields f).foldl (State.addNorm f) (s, Fv.zero)).2))

/-- The PERIOD entry is one of a norm period of the plan. -/
def Seat.isNorm (k : Seat) (entry : Nat) : Bool := match k.plan with | some p => p.hdr.normPeriod.contains entry | none => false

/-- A period within the last 31 of a bell: older words are dropped. -/
def recent (b p : BitVec 64) : Bool := decide ((b - p).toNat < 32)

/-- The closing period's word, and in a norm period (the last of a template that the plan names, log 26) its norm sum, are kept for the tree. -/
def State.closeWord (s : State) (f : Nat) : State :=
  let k := s.seat f
  if k.plan.isNone then s else
  let p := k.tt.bell
  let isNorm := !k.tt.hold && k.tt.left == 0 && k.isNorm k.tt.entry
  let r := if isNorm then s.seatNorm f else (s, 0)
  let s := r.1
  let n := r.2
  let w := s.ownWord f
  s.modTt f (fun t =>
    { t with own := Tab.put (t.own.filter (fun e => recent p (BitVec.ofNat 64 e.1))) p.toNat w,
             combined := Tab.put (t.combined.filter (fun e => recent p (BitVec.ofNat 64 e.1))) p.toNat w,
             norms := if isNorm then Tab.put (t.norms.filter (fun e => recent p (BitVec.ofNat 64 e.1))) p.toNat n else t.norms,
             normPeriods := if isNorm then t.normPeriods ++ [p] else t.normPeriods,
             childGot := t.childGot.filter (fun e => recent p e.2.1),
             reduced := t.reduced.filter (fun r => recent p r.period) })

/-- Slots of a run that the closing period scheduled and no accepted flit filled. -/
def Link.missing (k : Link) (p : BitVec 64) (r : Run) : List Nat :=
  ((List.range r.count).map (fun i => r.start + i)).filter (fun n => !k.arrivals.any (fun a => a.period == p && a.slot == n))

/-- Scheduled DATA slots without an accepted flit wait for a resend until their delivery bell; on a link that is not LOCKED, or that an engine
reset holds, the scheduled bulk slots do too, and on the latter the pool slots (R55, R288, R297, R390). -/
def State.closeRx (s : State) (f : Nat) : State :=
  let k := s.seat f
  eachOf (s.seatLinks f) (fun l t =>
    let x := t.link l
    let rs := (t.runs (fieldOfLink l)).filter (fun r => r.rx && r.link == l % 6 &&
      ((r.kind == 0 && !k.tt.hold) || (r.kind == 1 && (x.st != .locked || x.resetting)) || (r.kind == 5 && x.resetting)))
    t.modLink l (fun x =>
      { x with arrivals := x.arrivals ++ rs.flatMap (fun r => (x.missing k.tt.bell r).map (fun n =>
          { period := k.tt.bell, slot := n, pool := r.poolChan,
            deliver := k.tt.bell + (if r.kind = 0 then BitVec.ofNat 64 (r.deliver + 1) else 2 + x.resendAge.setWidth 64) })) })) s

/-! ### Entering HOLD -/

/-- Enter HOLD: the stack is empty, the HOLD schedule runs (R68, R77). -/
def State.holdNow (s : State) (f : Nat) : State :=
  let h := match (s.seat f).plan with | some p => p.hdr.holdTemplate.getD 0 | none => 0
  s.modSeat f (fun k =>
    { k with running := false,
             tt := { k.tt with hold := true, left := 0, stack := [], entry := h, lastPeriod := false, pendingAttempt := none,
                               inStep := false } })

/-- The count of aborts in a row, one more. -/
def nextAborts (a : BitVec 4) : BitVec 4 := if a = 15 then 15 else a + 1

/-- An abort of a step (R43): its tray buffer is discarded and the count of aborts in a row rises. -/
def Seat.abort (k : Seat) (step : BitVec 64) : Seat :=
  { k with cm := { k.cm with tray := Tab.set (fun _ => none) k.cm.tray (step.toNat % 2) none },
           tt := { k.tt with sel := { k.tt.sel with aborts := nextAborts k.tt.sel.aborts }, abortedStep := some step, inStep := false } }

/-- A mid-step branch ends the attempt (R76): CM_VERDICT, CM_ABORT_COUNT, the effect of an abort. -/
def State.endAttempt (s : State) (f : Nat) (step : BitVec 64) (cont : BitVec 2) : State :=
  let s := s.modSeat f (fun k =>
    let k := k.abort step
    { k with cm := { k.cm with verdict := { abort := true, cont := cont, midstep := true }, verdictStep := step } })
  eachOf (s.seatFields f) (fun g t => t.bump (cmBase g + 0x68)) s

/-- A step still pending at an entry to HOLD is aborted (R75). It counts in a row but not in CM_ABORT_COUNT, which R256 keeps to abort verdicts
and the ends of R76. -/
def State.holdAbort (s : State) (f : Nat) : State :=
  match (s.seat f).tt.pendingAttempt with
  | some p => s.modSeat f (fun k =>
      let k := k.abort p.2
      { k with cm := { k.cm with verdict := { abort := true }, verdictStep := p.2 } })
  | none => s

/-- Entry into HOLD. -/
def State.enterHold (s : State) (f : Nat) : State := (s.holdAbort f).holdNow f

/-! ### Opening a period -/

/-- The counters of a partition's fields are latched at its bell, and those that belong to no field with them (R363, log 3). -/
def State.latch (s : State) (f : Nat) : State :=
  let mine (e : Nat × Counter) : Bool := counterOwner e.1 == 4 || (s.seatFields f).contains (counterOwner e.1)
  { s with latched := (s.counters.filter mine).foldl (fun t e => Tab.set (fun _ => {}) t e.1 e.2) (s.latched.filter (fun e => !mine e)) }

/-- The bell reference starts the new period: the count advances, counters are latched, period records and seals clear. -/
def State.openBell (s : State) (f : Nat) : State :=
  let s := s.latch f
  let now := s.template f
  let s := s.modSeat f (fun k =>
    { k with sealMissed := false,
             tt := { k.tt with bell := k.tt.bell + 1, opened := s.hmClk, cur := 0, curLayer := 0xFFFF, heard := false,
                               silent := if k.tt.heard || k.tt.isRoot then 0 else k.tt.silent + 1,
                               recent := ((k.tt.bell, now, k.tt.hold) :: k.tt.recent).take 4,
                               recentLive := ((k.tt.bell, k.cm.live, k.tt.stepPeriod) :: k.tt.recentLive).take 4 } })
  let s := eachOf (s.seatFields f) (fun g t => let x := t.field g; t.setField g { x with lateSeen := false }) s
  let s := eachOf (s.seatLinks f) (fun l t => t.modLink l (fun k => { k with pulled := [], lateRuns := [], ended := [] })) s
  (eachOf (s.listedCores (s.seatFields f)) (fun c t => t.modCore c (fun k => { k with seals := 0 })) s).flushHeld

/-- Synchronisation state at a bell by the filtered offset in ps (Table 02-1). DESIGN CHOICE (log 14): the manual gives no condition for STATE 1. The
model begins locking once the link to the tree parent is RANGING or LOCKED, and stays there, without unlocking, until the offset is within ±10 ns.
A locked seat whose offset leaves ±100 ns is unlocked and holds; a step that is pending then ends as an abort. -/
def State.syncBell (s : State) (f : Nat) (offset : BitVec 32) : State :=
  let t := (s.seat f).tt
  let d := offset.toInt.natAbs
  if (s.seat f).plan.isNone then s
  else if t.isRoot then s.modTt f (fun t => { t with syncState := 2, syncOffset := 0 })
  else
    let s := s.modTt f (fun t => { t with syncOffset := offset })
    let up := (s.link t.parent.toNat).st
    if t.syncState = 0 then
      (if up = .ranging ∨ up = .locked then s.modTt f (fun t => { t with syncState := 1 }) else s)
    else if d ≤ 10000 then s.modTt f (fun t => { t with syncState := 2 })
    else if t.syncState = 1 then s
    else
      let s := s.modTt f (fun t => { t with outOfTol := true })
      if d ≤ 100000 then (s.modTt f (fun t => { t with syncState := 3 })).taint f
      else (s.unlock f).enterHold f

/-- Ranged links lock at the bell once the seat is locked (Table 09-4); a retrain then returns its pass. -/
def State.lockLinks (s : State) (f : Nat) : State :=
  let k := s.seat f
  if k.tt.syncState = 2 ∨ k.tt.syncState = 3 ∨ k.plan.isNone then
    eachOf (s.seatLinks f) (fun l t =>
      if (t.link l).st = .ranging ∧ (t.link l).ranged then (t.modLink l (fun x => { x with st := .locked })).endLinkPass l 3 else t) s
  else s

/-- Operations that a flit lost in a pool slot of a channel belongs to: those whose response has come and whose data have not; with none of them,
the oldest that waits for its response (R288; DESIGN CHOICE, log 14: a lost flit's TAG cannot be read). -/
def Link.lostOps (k : Link) (chan : Nat) : List PoolOp :=
  let here := k.ops.filter (fun o => o.chan == chan && o.sent)
  if here.any (fun o => o.answer.isSome) then here.filter (fun o => o.answer.isSome) else here.take 1

/-- A lost pool flit fails the operation it belongs to with LINK_LOST (R288, Table 09-6). -/
def State.poolLost (s : State) (l chan : Nat) : State := ((s.link l).lostOps chan).foldl (fun t o => t.endOp l o.tag 0x0A) s

/-- Verdict bell that an LCTL flit names (log 14). -/
def lctlBell (x : Flit) : BitVec 64 := BitVec.ofNat 64 (ofLe ((x.payload.drop 2).take 8))

/-- LCTL messages whose bell has passed are sent no more (R287). -/
def Link.dropLctl (k : Link) (b : BitVec 64) : Link :=
  { k with lctl := k.lctl.filter (fun x => decide (b < lctlBell x)),
           kept := k.kept.filter (fun x => x.flit.kind != 7 || decide (b < lctlBell x.flit)) }

/-- The link quiz of a period, which ran under its pass: a wavelength whose errors in QUIZ slots exceed those in the others by a factor of 16 loses the vote; a quiz of which
a flit was lost is void, and one whose pattern differs has failed (R288, R372). -/
def State.linkQuiz (s : State) (l : Nat) : State :=
  let k := s.link l
  let g := fieldOfLink l
  if !k.quizSeen || k.quizVoid || !(s.field g).hm.quizzing (l % 6) then s
  else
    let n (t : Tab Nat) (i : Nat) : Nat := Tab.get (fun _ => 0) t i
    let bad := (List.range 9).filter (fun i => decide (16 * (n k.ceNow i - n k.ceQuiz i) < n k.ceQuiz i))
    let s := s.bump (hmBase g + 0x38)
    let s := if bad.isEmpty && !k.quizBad then s else s.bump (hmBase g + 0x40)
    bad.foldl (fun t i => t.demerit g 4 (waveIx l i) 128) s

/-- Delivery at the bell: an expected flit not accepted by its delivery bell is lost, counted and scored; it sets TAINT, or fails its pool
operation; queued flits too old for the resend regions are dropped (R55, R287, R288). -/
def State.deliver (s : State) (f : Nat) : State :=
  let b := (s.seat f).tt.bell
  eachOf (s.seatLinks f) (fun l t =>
    let due := (t.link l).arrivals.filter (fun a => a.deliver == b && !a.got)
    let t := t.modLink l (fun x => { x with arrivals := x.arrivals.filter (fun a => a.deliver != b) })
    let t := due.foldl (fun t a => let t := t.lostFlit l; match a.pool with | some c => t.poolLost l c | none => t.taint f) t
    ((t.linkQuiz l).endQuiz l |>.dropSpent l b).modLink l (fun x =>
      { x.dropLctl b with ceNow := [], ceQuiz := [], quizSeen := false, quizVoid := false, quizBad := false })) s

/-! ### Words that take effect -/

/-- Norm sum of a period over the node's subtree: its own, then its children's in ascending id of the peer (R204). -/
def State.treeNorm (s : State) (f : Nat) (p : BitVec 64) : BitVec 64 :=
  let t := (s.seat f).tt
  let kids := (t.childGot.filter (fun e => e.2.1 == p)).map (fun e => ((s.link e.1).node.toNat, e.2.2.2))
  let sorted := kids.foldl (fun a k => (a.filter (fun x => decide (x.1 ≤ k.1))) ++ [k] ++ a.filter (fun x => decide (k.1 < x.1))) []
  BitVec.ofNat 64 (f64Bits (sorted.foldl (fun x k => add64 x (f64Of k.2.toNat))
    (f64Of (((Tab.find t.norms p.toNat).getD 0).toNat))))

/-- The reduced word of a period that the seat holds, with its N²: the root's own combination, or what came down. -/
def State.effective (s : State) (f : Nat) (q : BitVec 64) : Option (BitVec 64 × Option (BitVec 64)) :=
  let t := (s.seat f).tt
  if t.isRoot then (Tab.find t.combined q.toNat).map (fun w => (w, some (s.treeNorm f q)))
  else (t.reduced.find? (fun r => r.period == q)).map (fun r => (r.word, r.norm))

/-- Clip factor of a norm (R205): none when N² is NaN, infinite or negative. -/
def clipOf (theta : BitVec 32) (n2 : BitVec 64) : Option (BitVec 32) :=
  let v := f64Of n2.toNat
  let th := f32Of theta.toNat
  if v.isNan || v.isInf || (v.negative && !v.isZero) then none
  else
    let n := rn64 (Fv.root v)
    if Fv.lt th n then some (BitVec.ofNat 32 (f32Bits (rn64 (Fv.quot th n)))) else some 0x3F800000

/-- N² takes effect: it is written into the NORM word of every core's norm table, and gives the clip factor (R204, R205). A
factor the manual does not define is a free value (log 4). -/
def State.normEffect (s : State) (f : Nat) (n2 : BitVec 64) : State :=
  match (s.seat f).plan with
  | none => s
  | some p =>
    let s := eachOf (coresOf (s.seatFields f)) (fun c t => t.libWrite (fieldOfCore c) (slateBase c + p.hdr.normTable + 8) (leBytes 8 n2.toNat)) s
    match clipOf p.hdr.theta n2 with
    | some c => s.modCm f (fun m => { m with n2 := n2, clipFactor := c })
    | none => (s.modCm f (fun m => { m with n2 := n2, clipFactor := s.freshWord.setWidth 32 })).burn

/-- The reduced word of period b − 1 − Λ takes effect (R72). A running seat that lacks it, or N² of a norm period, leaves the
decision: it is unlocked and holds (R289, R397; log 14). -/
def State.foldWords (s : State) (f : Nat) : State :=
  let t := (s.seat f).tt
  let q := t.bell - 1 - t.lag.setWidth 64
  match Tab.find t.periodOf q.toNat with
  | none =>
    match s.effective f q with
    | some r => s.modTt f (fun t => { t with statusLast := r.1, win := some (match t.win with | some a => foldWord a r.1 | none => r.1) })
    | none => s
  | some a =>
    let norm := t.normPeriods.contains q
    match s.effective f q with
    | some (w, n) =>
      let s := s.modTt f (fun t =>
        { t with statusLast := w, win := some (match t.win with | some x => foldWord x w | none => w),
                 accs := Tab.put t.accs a (match Tab.find t.accs a with | some x => foldWord x w | none => w),
                 periodOf := Tab.erase t.periodOf q.toNat, normPeriods := t.normPeriods.filter (fun p => p != q) })
      if norm then
        match n with
        | some n2 => s.normEffect f n2
        | none => (s.unlock f).enterHold f
      else s
    | none => (s.unlock f).enterHold f

/-! ### The final bell (R189, R250) -/

/-- The bell that closes the last period of an attempt: the step becomes pending (R75), and its histories go into the next step's slot (R189). -/
def State.finalBell (s : State) (f : Nat) : State :=
  let t := (s.seat f).tt
  if t.lastPeriod then
    ((s.modCm f (fun m => m.noteHist (m.live + 1) false)).copyHistory f ((s.seat f).cm.live + 1)).modSeat f (fun k =>
      { k with tt := { k.tt with pendingAttempt := some (t.attempt, k.cm.live), inStep := false } })
  else s

/-! ### Verdicts (R256, Table 08-3) -/

/-- Own and copy slots of a step in one state go to another; a FREE slot keeps nothing. -/
def Cm.moveSlots (m : Cm) (step : BitVec 64) (was next : SlotState) : Cm :=
  let go (t : Tab Slot) : Tab Slot := t.foldl (fun t e =>
    if e.2.holds step ∧ e.2.st = was then Tab.set (fun _ => {}) t e.1 (if next = .free then {} else { e.2 with st := next })
    else t) t
  { m with own := go m.own, copy := go m.copy }

/-- CLIP of a unit's record in a buffer, as its Librarian reads it; none where the read fails (R221). -/
def State.unitClip (s : State) (base : Nat) (u : ShardUnit) : State × Option Nat :=
  match s.libRead (u.core / 500) (base + u.offset + unitLen u - 64) 64 with
  | (s, some bs) => (s, some (f32Bits (updRecOf bs).clip))
  | (s, none) => (s, none)

/-- Is there a unit of the committed buffer whose record does not carry the clip factor, or cannot be read: clip pushes will overwrite it (R265). -/
def State.clipOpen (s : State) (f : Nat) (c : BitVec 32) : State × Bool :=
  let k := s.seat f
  k.units.foldl (fun p u =>
    match p.1.unitClip k.committedBase u with
    | (s, some x) => (s, p.2 || x != c.toNat)
    | (s, none) => (s, true)) (s, false)

/-- Applies of the mirror start in every field that holds a current mirror (R257, R265), with the clip factor of the step. -/
def State.startApply (s : State) (f : Nat) (step : BitVec 64) (clip : Bool) : State :=
  if !(s.seat f).cm.partnerOk then s else
  let s := s.modCm f (fun m => { m with applyStep := some step, applyClip := clip, applyC := m.clipFactor, units := [] })
  s.modLbs f (fun b => if b.mState = 2 then
    { b with mState := if clip then 4 else 3, unitsDone := 0, late := false, unresolved := false } else b)

/-- The owner's Librarian sends the CRC of each unit of its new committed buffer (R258); at a commit with CLIP, of the units whose
record carries c (R265). -/
def State.sendCrcs (s : State) (f : Nat) (clip : Bool) : State :=
  if !(s.seat f).cm.partnerOk then s else
  let c := (s.seat f).cm.clipFactor
  (s.seat f).units.foldl (fun s u =>
    match s.libRead (u.core / 500) ((s.seat f).committedBase + u.offset) (unitLen u) with
    | (s, some bs) =>
      if clip && f32Bits (updRecOf (bs.drop (unitLen u - 64))).clip != c.toNat then s
      else s.tell f (.crc u.core u.record (crc32c bs))
    | (s, none) => s) s

/-- A commit: the step becomes committed, buffers flip, slots and reads follow (R41, Table 08-3). -/
def State.commitStep (s : State) (f : Nat) (step : BitVec 64) (v : Verdict) : State :=
  let s := s.ckAbandon f
  let s := s.modSeat f (fun k =>
    let k := k.restartReads step
    { k with
      shardVer := some k.planVer,
      waits := k.waits.map (fun w => match w.step with | none => { w with step := some step } | some _ => w),
      cm := { (k.cm.moveSlots step .live .held) with
        committed := step, buffer := !k.cm.buffer, firstStep := false, summary := none, ownFixDue := [],
        fixLanded := [], failedXfer := [], resent := [], partnerStep := some step },
      tt := { k.tt with sel := { k.tt.sel with aborts := 0 }, abortedStep := none } })
  let s := eachOf (s.seatFields f) (fun g t => t.bump (cmBase g + 0x60)) s
  let s := (s.startApply f step v.clip).sendCrcs f v.clip
  let s := if v.clip ∧ (s.seat f).cm.partnerOk then
      let r := s.clipOpen f (s.seat f).cm.clipFactor
      (r.1.modCm f (fun m => { m with xfers := m.xfers ++ [{ kind := .clipPush, step := step }], clipDue := r.2 }))
    else s.modCm f (fun m => { m with clipDue := false })
  let s := if v.ckpt then eachOf (s.seatFields f) (fun g t => t.modHm g (fun h => { h with reqCkpt := false })) s else s
  s.ckTrigger f step v.ckpt

/-- An abort verdict: the working buffer and the tray of the step are discarded, the slot stays LIVE (R43). -/
def State.abortStep (s : State) (f : Nat) (step : BitVec 64) : State :=
  let s := s.modSeat f (fun k => k.abort step)
  eachOf (s.seatFields f) (fun g t => t.bump (cmBase g + 0x68)) s

/-- The roll call of the pending step (R75): its verdict, and what every verdict sets and releases (R36, R255, R256). -/
def State.rollCall (s : State) (f : Nat) (p : Nat × BitVec 64) : State × Verdict :=
  let k := s.seat f
  let w := (Tab.find k.tt.accs p.1).getD (emptyWord k.planVer ||| 1)
  let v := judgeWord w (k.tt.abortedStep == some p.2) k.tt.sel.aborts.toNat k.tt.abortLimit.toNat
  let s := s.modSeat f (fun k =>
    { k with tt := { k.tt with pendingAttempt := none, judgedAt := some k.tt.bell, accs := k.tt.accs.filter (fun e => decide (p.1 < e.1)),
                               inStep := k.tt.inStep && v.cont == 0 },
             cm := { k.cm with roll := w, verdict := v, verdictStep := p.2 } })
  let s := if wordMirror w then
      s.modCm f (fun m => { (m.moveSlots (p.2 - 1) .held .free) with
        tray := if Tab.get (fun _ => none) m.tray ((p.2 - 1).toNat % 2) = some (p.2 - 1)
          then Tab.set (fun _ => none) m.tray ((p.2 - 1).toNat % 2) none else m.tray })
    else s
  (if v.commit then s.commitStep f p.2 v else s.abortStep f p.2, v)

/-! ### Branches (R74) and the walk (R68) -/

/-- State of a walk: whether a redirect is due, whether a step was judged, the continuation a mid-step branch took, whether the
walk ends in HOLD. -/
structure Walk where
  s        : State
  redirect : Bool := false
  judged   : Bool := false
  mid      : Option (BitVec 2) := none     -- continuation of the last mid-step branch walked
  stop     : Bool := false

/-- TT_BRANCH_SEL of a branch. LAYER is 0xFFFF after a branch that took no indexed form, its reset value (log 26). -/
def State.noteBranch (s : State) (f : Nat) (e k : Nat) (verdict indexed : Bool) (layer : BitVec 16) : State :=
  s.modTt f (fun t =>
    { t with win := none,
             sel := { t.sel with sel := BitVec.ofNat 2 k, verdict := verdict, indexed := indexed, layer := layer,
                                 entry := BitVec.ofNat 17 e } })

/-- Continuation `k` of a BRANCH entry. -/
def branchTarget (e : Entry) (k : Nat) : Nat :=
  match k with
  | 0 => efield e 121 105
  | 1 => efield e 104 88
  | 2 => efield e 87 71
  | _ => efield e 70 54

/-- The continuation a condition word selects (R74). -/
def branchPick (e : Entry) (v : BitVec 10) : Nat :=
  if v &&& BitVec.ofNat 10 (efield e 53 44) ≠ 0 then 1
  else if v &&& BitVec.ofNat 10 (efield e 43 34) ≠ 0 then 2
  else if v &&& BitVec.ofNat 10 (efield e 33 24) ≠ 0 then 3 else 0

/-- A mid-step branch at entry `i` of the block. With SOURCE 1 it reads the accumulator of the attempt that runs, though the step before may
still be pending (log 26). -/
def Walk.branch (w : Walk) (f : Nat) (blk : List Entry) (i : Nat) : Walk × Nat :=
  let e := blk.getD i 0
  let k := w.s.seat f
  let acc := if efield e 123 123 = 1 then Tab.find k.tt.accs k.tt.attempt else k.tt.win
  let word := acc.getD (emptyWord k.planVer)
  let pick := branchPick e (condWord word)
  let layer := (wordLayer word).toNat
  let base := efield e 23 8
  let t1 := efield e 104 88
  if pick = 1 ∧ efield e 122 122 = 1 then
    if base ≤ layer ∧ t1 + (layer - base) < jumpTableEnd blk blk.length t1 then
      let s := w.s.noteBranch f i 1 false true (wordLayer word)
      let s := s.numLog f { step := k.cm.live, layer := wordLayer word, kind := 2, bell := k.tt.bell,
                            attempt := k.tt.sel.aborts.setWidth 8 }
      ({ w with s := s, redirect := true, mid := some 1 }, t1 + (layer - base))
    else ({ w with s := w.s.noteBranch f i 0 false false 0xFFFF, mid := some 0 }, branchTarget e 0)
  else
    ({ w with s := w.s.noteBranch f i pick false false 0xFFFF, redirect := w.redirect || pick != 0, mid := some (BitVec.ofNat 2 pick) },
     branchTarget e pick)

/-- A VERDICT branch: it judges the pending step, or takes T0 (R75). A basic STOP holds in place of the continuation (R349). -/
def Walk.verdict (w : Walk) (f : Nat) (blk : List Entry) (i : Nat) : Walk × Nat :=
  let e := blk.getD i 0
  match (w.s.seat f).tt.pendingAttempt with
  | none => ({ w with s := w.s.noteBranch f i 0 true false 0xFFFF }, branchTarget e 0)
  | some p =>
    let r := w.s.rollCall f p
    let c := r.2.cont.toNat
    let stop := (w.s.seat f).stop == some .nextVerdict
    let s := r.1.noteBranch f i c true false 0xFFFF
    let s := if stop then s.modSeat f (fun k => { k with stop := none }) else s
    ({ w with s := s, redirect := w.redirect || c != 0, judged := true, stop := w.stop || stop }, branchTarget e c)

/-- Pop every loop frame whose body does not contain an entry. -/
def popFrames (blk : List Entry) (stack : List (Nat × Nat)) (e : Nat) : List (Nat × Nat) :=
  stack.filter (fun r => decide (efield (blk.getD r.1 0) 123 107 ≤ e) && decide (e ≤ r.1))

/-- A LOOP entry: the new stack and the next entry. -/
def loopStep (blk : List Entry) (stack : List (Nat × Nat)) (i : Nat) : List (Nat × Nat) × Nat :=
  let e := blk.getD i 0
  let st := match stack with
    | (j, n) :: r => if j = i then (j, n) :: r else (i, efield e 106 75 - 1) :: (j, n) :: r
    | [] => [(i, efield e 106 75 - 1)]
  match st with
  | (j, n) :: r => if 0 < n then ((j, n - 1) :: r, efield e 123 107) else (r, i + 1)
  | [] => ([], i + 1)

/-- The walk from entry `e` with a bound on its length (log 14): it ends at a PERIOD entry, or (`none`) in HOLD. A target that names a SLOT or
REDUCE entry, which R68 does not speak of, leads on to the entry after it (log 26). -/
def walk (f : Nat) (blk : List Entry) : Nat → Nat → Walk → Walk × Option Nat
  | 0, _, w => (w, none)
  | n + 1, i, w =>
    if blk.length ≤ i ∨ w.stop then (w, none)
    else
      let e := blk.getD i 0
      let jump (w : Walk) (t : Nat) : Walk := { w with s := w.s.modTt f (fun x => { x with stack := popFrames blk x.stack t }) }
      match etype e with
      | 1 => (w, some i)
      | 3 =>
        let r := loopStep blk (w.s.seat f).tt.stack i
        walk f blk n r.2 { w with s := w.s.modTt f (fun x => { x with stack := r.1 }) }
      | 4 =>
        let r := if efield e 7 7 = 1 then w.verdict f blk i else w.branch f blk i
        walk f blk n r.2 (jump r.1 r.2)
      | 6 => walk f blk n (efield e 123 107) (jump w (efield e 123 107))
      | 7 => (w, none)
      | _ => walk f blk n (i + 1) w

/-! ### Redirects (R88, R89) -/

/-- Ranges the running operations of a core are writing. -/
def Core.writing (k : Core) (c : Nat) : List (Nat × Nat) :=
  (match k.mxst with
   | some x => if x.stage = .writing then (descOf x.d).ranges else []
   | none => []) ++
  (match k.vecQ with
   | o :: _ => if k.vecBusy then (o.writes c).filter (fun r => !(homeRanges c o.home true).contains r) else []
   | [] => []) ++
  k.dmaQ.flatMap (fun o => o.kind.ranges)

/-- The words or blocks of a range, each as far as the range covers it. -/
def unitPieces (a n : Nat) : List (Nat × Nat) :=
  let g := if a < 4 * lpField then 512 else 8
  (List.range ((a + n + g - 1) / g - a / g)).map (fun i =>
    let lo := Nat.max a (g * (a / g + i))
    (lo, Nat.min (a + n) (g * (a / g + i + 1)) - lo))

/-- Locations a cancelled operation was writing hold unspecified values; what its writes could not reach is untouched. A flag word and a
histogram are left as they are: an addition not yet made is never made (R180). -/
def State.spoil (s : State) (c : Nat) (l : List (Nat × Nat)) : State :=
  (l.flatMap (fun r => unitPieces r.1 r.2)).foldl (fun s r =>
    if (s.rangesErr c [r]).isSome || s.meetsSeal r.1 r.2 || s.hitsCode r.1 r.2 then s
    else (s.storeBytes r.1 (freeBytes s.free r.2)).burn r.2) s

/-- The state of a core after a cancel (Table 03-2, R153): operations gone, registers at their reset values; code, entry records,
the log marks of the attempt and MX_ABFT_LAST stay. -/
def Core.cleared (k : Core) (c : Nat) : Core :=
  { Core.reset c with codeLen := k.codeLen, entries := k.entries, logged := k.logged, abftLast := k.abftLast,
                      resetting := k.resetting, mode := if k.codeLen = 0 then .noLesson else .resting }

/-- Cancel a core's operations and clear it (R89, R117); a sequence that waits for its buddy ends unresolved (R145). -/
def State.cancelCore (s : State) (c : Nat) : State :=
  let s := s.cutService c
  let k := s.core c
  (k.dmaQ.foldl State.endReads (s.spoil c (k.writing c))).setCore c (k.cleared c)

/-- A core at a redirect: s3 and s4 are set as Table 03-2 states; the entry record of the PERIOD entry that opens starts it, or, with none, it
rests (R88). A core without a lesson has no record and stays in NOLESSON (R83). -/
def Core.enter (k : Core) (live sel : BitVec 64) (entry : Option Nat) : Core :=
  if k.mode = .noLesson then k else
  let k := (k.setS 3 live).setS 4 sel
  match entry.bind (fun e => k.entries.find? (fun r => r.toNat % 131072 == e)) with
  | none => k
  | some r => ({ k with mode := .running, pc := r.extractLsb' 17 14 }).setS 1 ((r.extractLsb' 32 16).setWidth 64)

/-- The Librarian clears READY in the CCB of every core of its field that has one (R239). -/
def State.clearReady (s : State) (g : Nat) (first : Bool) : State :=
  let b := (s.field g).lb
  if !b.enable then s else
  let s := b.segs.foldl (fun t x =>
    let a := slateBase (500 * g + x.core) + b.ccb.toNat + 0x34
    match t.libRead g a 1 with
    | (t, some bs) => t.libWrite g a (leBytes 1 (ofLe bs / 2 * 2))
    | (t, none) => t) s
  s.modLb g (fun b => { b with redirect := true, redirectFirst := first })

/-- A redirect of a seat to the PERIOD entry that opens, or into HOLD. -/
def State.redirect (s : State) (f : Nat) (entry : Option Nat) (first : Bool) : State :=
  let live := (s.seat f).cm.live
  let sel := BitVec.ofNat 64 (s.seat f).tt.sel.word
  let s := eachOf (s.listedCores (s.seatFields f)) (fun c t => (t.cancelCore c).modCore c (fun k =>
    ({ k with logged := if first then [] else k.logged }).enter live sel entry)) s
  eachOf (s.seatFields f) (fun g t => t.clearReady g first) s.flushHeld

/-! ### Opening the next template -/

/-- The slot of the live step becomes LIVE at the step's first bell; otherwise the seat sets TAINT (R35, R249). -/
def Slot.goLive (k : Slot) (live : BitVec 64) : Slot × Bool :=
  if k.holds live ∧ k.st = .complete then ({ k with st := .live }, true)
  else (k, k.holds live && k.st == .live)

/-- The FIRST period of an attempt (R35, R68, R249, R266). -/
def State.openFirst (s : State) (f : Nat) (final : Bool) : State :=
  let k := s.seat f
  let live := if final then k.cm.live + 1 else k.cm.committed + 1
  let i := live.toNat % 3
  let own := (k.cm.ownSlot i).goLive live
  let copy := (k.cm.copySlot i).goLive live
  let s := s.modSeat f (fun k =>
    { k with tt := { k.tt with attempt := k.tt.attempt + 1, inStep := true },
             cm := { ((k.cm.setOwn i own.1).setCopy i (if k.cm.partnerOk then copy.1 else k.cm.copySlot i)) with
                     live := live, fixInAttempt := false,
                     trayGot := Tab.set (fun _ => []) k.cm.trayGot (live.toNat % 2) [] } })
  let s := s.modLbs f (fun b => { b with ownerFix := false, failed := [] })
  if !own.2 || (k.cm.partnerOk && !copy.2) || k.cm.clipDue then s.taint f else s

/-- The period of template `p` opens with `left` periods to follow. -/
def State.openPeriod (s : State) (f : Nat) (p left : Nat) (first : Bool) : State :=
  let e := (s.block (s.seatIx f)).getD p 0
  let s := s.modTt f (fun t =>
    { t with entry := p, left := left, stepPeriod := if first then 0 else t.stepPeriod + 1,
             lastPeriod := efield e 67 67 == 1 && left == 0, periodOf := Tab.put t.periodOf t.bell.toNat t.attempt })
  s.modLbs f (fun b => if (b.mState = 3 ∨ b.mState = 4) ∧ (s.seat f).cm.deadline ≤ (s.seat f).tt.stepPeriod then { b with late := true } else b)

/-- PARKED cores whose step period has come go on past their BELLWAIT (R110). -/
def State.wakeCores (s : State) (f : Nat) : State :=
  let t := (s.seat f).tt.stepPeriod
  eachOf (s.listedCores (s.seatFields f)) (fun c s =>
    let k := s.core c
    if k.mode = .parked ∧ k.waitFor ≤ t then (s.setCore c { k with mode := .running }).advance c k.waitOp.toNat else s) s

/-- What a walk ends in: HOLD, or a template, with the redirect that is due. A mid-step branch of a running attempt that leads to a FIRST
period at a bell that is not final, by whichever continuation, ends the attempt (R76). The seating changes at a FIRST redirect or in HOLD
alone (R374). -/
def State.afterWalk (f : Nat) (w : Walk) (at' : Option Nat) (final : Bool) : State :=
  let s := w.s
  match at' with
  | none =>
    let s := if w.redirect then s.redirect f none false else s
    (s.enterHold f).healthBell f false w.judged
  | some p =>
    let e := (s.block (s.seatIx f)).getD p 0
    let first := efield e 66 66 == 1
    let s := match w.mid with
      | some k => if first && !final && (s.seat f).tt.inStep then s.endAttempt f (s.seat f).cm.live k else s
      | none => s
    let s := if first then s.openFirst f final else s
    let s := s.openPeriod f p (efield e 106 75 - 1) first
    let s := if w.redirect || first then s.redirect f (some p) first else s.wakeCores f
    s.healthBell f first w.judged

/-- Bound on the entries one bell walks (log 14). -/
def walkFuel : Nat := 1048576

/-- Walk on from an entry. -/
def State.walkFrom (s : State) (f i : Nat) (redirect final : Bool) : State :=
  let r := walk f (s.block (s.seatIx f)) walkFuel i { s := s, redirect := redirect }
  State.afterWalk f r.1 r.2 final

/-- A Run start, or a stop at this bell, takes the walk over. -/
def Seat.taken (k : Seat) : Bool :=
  (match k.start with | some x => x.bell == k.tt.bell | none => false) ||
    (!k.tt.hold && match k.stop with | some (.atBell b) => b == k.tt.bell | _ => false)

/-- The walk at a bell (R68). -/
def State.walkBell (s : State) (f : Nat) (final : Bool) : State :=
  let k := s.seat f
  if k.plan.isSome && k.taken then s
  else if k.plan.isNone || k.tt.hold then s.healthBell f false false
  else if 0 < k.tt.left then
    ((s.openPeriod f k.tt.entry (k.tt.left - 1) false).wakeCores f).healthBell f false false
  else s.walkFrom f (nextEntry (s.block (s.seatIx f)) k.tt.entry) false final

/-- A placed start with SETCOUNT sets the root's count to BELL − 1 at the next bell (R349). -/
def State.setCount (s : State) (f : Nat) : State :=
  match (s.seat f).start with
  | some x => if x.setCount && (s.seat f).tt.isRoot then
      s.modSeat f (fun k => ({ k with start := some { x with setCount := false }, tt := { k.tt with counted := true } } : Seat).setBell (x.bell - 2))
    else s
  | none => s

/-- The second bell of a step finds its slot without the histories: TAINT for the first period (R250). -/
def State.closeHistory (s : State) (f : Nat) : State :=
  let k := s.seat f
  if k.plan.isSome ∧ !k.tt.hold ∧ k.tt.stepPeriod = 0 ∧ k.cm.hist.contains (k.cm.live, false) then s.taint f else s

/-- The seat is given up: identity, partner and link keys go; links in use fall back to IDENT without keys, those no plan uses go OFF
(R294, R295, R324, R346). A step that runs ends as at an entry to HOLD. -/
def State.leaveSeat (s : State) (f : Nat) : State :=
  let s := s.ckInterrupt f
  let s := if (s.seat f).tt.hold then s else s.enterHold f
  let s := s.modSeat f (fun k =>
    let k := k.takeId 0 0 0
    { k with cm := { k.cm with partner := 0, partnerOk := false, named := false, namedBy := none }, tt := { k.tt with counted := false } })
  eachOf (s.seatLinks f) (fun l t =>
    let st := (t.link l).st
    let t := if (t.seat f).plan.isNone ∧ st ≠ .failed then t.linkTo l .off else if st = .locked ∨ st = .ranging then t.enterIdent l else t
    t.modLink l Link.unkeyed) s

/-- A FAILED link, or one darkened with its cartridge, starts again from DARK with full training (R296, R298, R438). -/
def State.retrainLink (s : State) (l : Nat) : State :=
  if (s.link l).st ≠ .failed ∧ !(s.link l).combDark then s
  else (s.linkTo l .dark).modLink l (fun k =>
    { k with combDark := k.combDark && !s.pw.latch.getLsbD (fieldOfLink l), preset := false, realigned := false })

/-- What was accepted in the period that has closed takes effect (R28). -/
def State.runAtBell (s : State) (f : Nat) : State :=
  let l := (s.seat f).atBell
  l.foldl (fun t x => match x with
    | .leave => t.leaveSeat f
    | .retrain l => t.retrainLink l
    | .seat m e ps => t.takeSeat f m e ps
    | .peers ps => t.givePeers ps (t.seat f).cm.epoch) (s.modSeat f (fun k => { k with atBell := [] }))

/-- BELL: the bell of the seat of field `f` (R46): `offset` is the filtered offset from the tree parent in ps (R52). -/
def execBell (f : Nat) (offset : BitVec 32) (s : State) : State :=
  if 4 ≤ f then s else
  let s := ((((s.closeHistory f).closeCores f).closeRx f).closeWord f)
  let s := ((s.setCount f).openBell f).runAtBell f
  let s := ((s.syncBell f offset).lockLinks f).deliver f
  let final := (s.seat f).tt.lastPeriod
  let s := (s.foldWords f).finalBell f
  s.walkBell f final

/-- PARENT_SILENCE_UNLOCK: no flit from the parent for 16 consecutive periods (Table 02-1). DESIGN CHOICE (log 14): the unlocked seat holds, and a
step that is pending ends as an abort. -/
def execParentSilenceUnlock (f : Nat) (s : State) : State :=
  let k := s.seat f
  if f < 4 ∧ k.plan.isSome ∧ !k.tt.isRoot ∧ 16 ≤ k.tt.silent then (s.unlock f).enterHold f else s

/-- SCHEDULED_START: the placed Run start takes effect at its bell: the walk begins at its entry with an empty stack, the abort
count clears, and every core is redirected (R68, R75, R88, R349). -/
def execScheduledStart (f : Nat) (s : State) : State :=
  let k := s.seat f
  match k.start with
  | none => s
  | some x =>
    if 4 ≤ f ∨ x.bell ≠ k.tt.bell ∨ k.plan.isNone then s
    else
      let s := ((s.holdAbort f).stopMargins f).modSeat f (fun k =>
        { k with start := none, stop := none, running := true, ctxHeld := false, lateEntry := none,
                 tt := { k.tt with hold := false, left := 0, stack := [], pendingAttempt := none, lastPeriod := false, inStep := false,
                                   sel := { k.tt.sel with aborts := 0 } } })
      s.walkFrom f x.entry true false

/-- Entries a stop passes on its way to a roll call at its bell: LOOP, JUMP and the entry of the roll call itself. -/
def stopWalk (f : Nat) (blk : List Entry) : Nat → Nat → Walk → Walk
  | 0, _, w => w
  | n + 1, i, w =>
    let e := blk.getD i 0
    match etype e with
    | 3 =>
      let r := loopStep blk (w.s.seat f).tt.stack i
      stopWalk f blk n r.2 { w with s := w.s.modTt f (fun x => { x with stack := r.1 }) }
    | 4 => if efield e 7 7 = 1 then (w.verdict f blk i).1 else w
    | 6 => stopWalk f blk n (efield e 123 107) w
    | _ => w

/-- SCHEDULED_STOP: a STOP placed at this bell puts the seat in HOLD; at a verdict bell the pending step is judged first, at any
other it is aborted (R75, R349). -/
def execScheduledStop (f : Nat) (s : State) : State :=
  let k := s.seat f
  match k.stop with
  | some (.atBell b) =>
    if 4 ≤ f ∨ b ≠ k.tt.bell ∨ k.tt.hold ∨ k.plan.isNone then s
    else
      let blk := s.block (s.seatIx f)
      let w := if k.tt.left = 0 then stopWalk f blk walkFuel (nextEntry blk k.tt.entry) { s := s } else { s := s }
      let s := w.s.modSeat f (fun k => { k with stop := none })
      let s := if w.redirect then s.redirect f none false else s
      (s.enterHold f).healthBell f false w.judged
  | _ => s

end Sys2Proof.Machine
end

