-- ==== Sys2Proof/Machine/Fabric.lean ====
section
/-! DEFINITION. The optical fabric in LOCKED (R56 to R58, R281 to R291, R443): what a slot sends, what a received flit does, the
resend queue, status flits and the tree's combination (R71, R289). -/

namespace Sys2Proof.Machine

/-! ### Schedules of recent periods -/

/-- Runs of a field in a period, and whether the seat held then: the running period or one of the latest closed ones. -/
def State.runsAt (s : State) (g : Nat) (p : BitVec 64) : List Run × Bool :=
  let t := (s.seat g).tt
  if p = t.bell then (s.runs g, t.hold)
  else match t.recent.find? (fun r => r.1 == p) with
    | some (_, some e, h) => (templateRuns (s.block g) e, h)
    | some (_, none, h) => ([], h)
    | none => ([], true)

/-- The run of one direction of a link that covers a slot. -/
def runOn (rs : List Run) (l : Nat) (rx : Bool) (slot : Nat) : Option Run :=
  rs.find? (fun r => r.link == l % 6 && r.rx == rx && r.covers slot)

/-- Own node id on a link (R19). -/
def State.nodeId (s : State) (l : Nat) : BitVec 16 := BitVec.ofNat 16 (4 * (s.seat (fieldOfLink l)).cm.moduleId.toNat + fieldOfLink l)

/-- The seat holds a node id. -/
def State.hasNode (s : State) (l : Nat) : Bool := decide (2 ≤ (s.seat (fieldOfLink l)).cm.seatState.toNat)

/-- A flit of an acknowledged kind (Table 09-2). -/
def ackedKind (x : Flit) : Bool := x.kind == 1 || x.kind == 2 || x.kind == 5 || x.kind == 6 || x.kind == 7

/-! ### Seal deadlines (R56, R57) -/

/-- SEAL_DEADLINE: 32 clk before the first slot of a core-data TX run: a run whose seal is set is pulled, any other sends late
markers and the seat sets LATE. Under a context reset every run is unsealed (R389). -/
def execSealDeadline (l slot : Nat) (s : State) : State :=
  let g := fieldOfLink l
  let k := s.seat g
  match (s.runs g).find? (fun r => r.link == l % 6 && !r.rx && r.kind == 0 && r.start == slot) with
  | none => s
  | some r =>
    if 24 ≤ l ∨ (s.link l).pulled.contains slot ∨ (s.link l).lateRuns.contains slot then s
    else if k.tt.hold then s
    else if (s.core (500 * g + r.core)).sealed r.sealId then s.modLink l (fun x => { x with pulled := x.pulled ++ [slot] })
    else ((s.modLink l (fun x => { x with lateRuns := x.lateRuns ++ [slot] })).modSeat g (fun k => { k with sealMissed := true })).late g

/-! ### Payloads -/

/-- Words of a status payload going up or down: word k is that of period Q − 1 − k; a word not held is a free value (log 14). -/
def State.statusWord (s : State) (g : Nat) (down : Bool) (p : BitVec 64) (n : Nat) : BitVec 64 :=
  let t := (s.seat g).tt
  if down && !t.isRoot then
    match t.reduced.find? (fun r => r.period == p) with
    | some r => r.word
    | none => Config.unheldWord n
  else (Tab.find t.combined p.toNat).getD (Config.unheldWord n)

/-- Norm sum that belongs to a word: its own subtree's going up, N² going down; zero outside a norm period (R289). -/
def State.statusNorm (s : State) (g : Nat) (down : Bool) (p : BitVec 64) : BitVec 64 :=
  let t := (s.seat g).tt
  if (Tab.find t.norms p.toNat).isNone then 0
  else if down && !t.isRoot then
    match t.reduced.find? (fun r => r.period == p) with
    | some { norm := some n, .. } => n
    | _ => 0
  else s.treeNorm g p

/-- Payload of a STATUS flit sent in the running period (R289). -/
def State.statusPayload (s : State) (l : Nat) : List Byte :=
  let g := fieldOfLink l
  let q := (s.seat g).tt.bell
  let down := !s.isParentLink l
  (List.range 8).flatMap (fun k => leBytes 8 (s.statusWord g down (q - 1 - BitVec.ofNat 64 k) k).toNat) ++
    leBytes 8 (s.statusNorm g down (q - 1)).toNat ++ leBytes 8 (s.statusNorm g down (q - 2)).toNat ++
    leBytes 1 (b2n down) ++ List.replicate 175 0

/-- Payload of a pool command (Table 09-5). -/
def State.poolCommand (s : State) (g : Nat) (o : PoolOp) : List Byte :=
  let k := s.seat g
  padTo 256 (leBytes 1 o.op.toNat ++ leBytes 3 0 ++ leBytes 4 k.ck.region.toNat ++ leBytes 8 k.cm.epoch.toNat ++
    leBytes 8 o.addr ++ leBytes 8 o.len ++ List.replicate 32 0 ++
    (match o.record with | some x => sealBytes x | none => List.replicate 64 0))

/-- Payload of an IDENT flit that starts in a slot (Table 09-18); HOLD_PS of an echo is a time the model does not count, a free
value (log 14). -/
def State.identPayload (s : State) (l slot : Nat) : List Byte :=
  let x := s.link l
  let k := s.seat (fieldOfLink l)
  let echo := x.echoDue
  padTo 256 (leBytes 16 s.store.serial.toNat ++ leBytes 2 (s.nodeId l).toNat ++ leBytes 1 l ++
    leBytes 1 (2 * b2n echo.isSome + 4 * b2n (!k.tt.counted)) ++
    leBytes 4 k.cm.epoch.toNat ++ leBytes 4 x.map.toNat ++ leBytes 2 x.retired.toNat ++ leBytes 2 0 ++
    leBytes 8 (if k.tt.counted then k.tt.bell.toNat else 0) ++ leBytes 4 (slot * 1440) ++
    leBytes 4 (echo.getD 0).toNat ++ leBytes 4 (match echo with | some _ => s.freshWord.toNat | none => 0))

/-- An IDENT flit: BRINGUP stands in header bits [79:24] and SEQ in [127:96] (R295). -/
def State.identFlit (s : State) (l slot : Nat) : Flit :=
  let x := s.link l
  { kind := 8, src := s.nodeId l, stream := x.bringup.extractLsb' 0 8, bell := x.bringup.extractLsb' 8 16,
    slot := (x.bringup.extractLsb' 24 17).toNat, ackCode := x.bringup.extractLsb' 41 2,
    ackSlot := (x.bringup.extractLsb' 43 13).toNat, offset := x.seq, payload := s.identPayload l slot }

/-! ### Flits on the wire (R282, R284, R292, R295) -/

/-- A flit's header as its 16 bytes (Table 09-1). -/
def flitHeader (x : Flit) : List Byte :=
  leBytes 16 (x.kind.toNat + fieldAt (b2n x.resend) 4 + fieldAt x.pkind.toNat 5 + fieldAt x.src.toNat 8 + fieldAt x.stream.toNat 24 +
    fieldAt x.bell.toNat 32 + fieldAt (x.slot % 2 ^ 17) 48 + fieldAt x.ackCode.toNat 65 + fieldAt (x.ackSlot % 2 ^ 17) 67 +
    fieldAt (b2n x.ackPar) 84 + fieldAt x.errCode.toNat 85 + fieldAt x.tag.toNat 89 + fieldAt x.offset.toNat 96)

/-- A protected flit leaves the module: header in the clear, payload and tag by AES-256-GCM under the key of the direction (R282, R292). -/
def Link.emit (k : Link) (x : Flit) (nonce : List Byte) : Link :=
  { k with sent := some x, wire := flitHeader x ++ (Config.gcm k.keyTx nonce (flitHeader x) x.payload).take 272 }

/-- An ABSENT or WIPE block leaves the module: it carries no key, and its payload and tag are 0x5A (R284). -/
def Link.bare (k : Link) (x : Flit) : Link :=
  { k with sent := some x, wire := flitHeader x ++ x.payload ++ List.replicate 16 0x5A }

/-- Alignment fill: no flit (R281, R295). -/
def Link.fill (k : Link) : Link := { k with sent := none, wire := [] }

/-! ### Sending (R281 to R287) -/

/-- A flit with the header fields every scheduled flit carries. -/
def State.flitOf (s : State) (l slot : Nat) (kind : BitVec 4) (stream : BitVec 8) : Flit :=
  { kind := kind, src := s.nodeId l, stream := stream, bell := (s.seat (fieldOfLink l)).tt.bell.setWidth 16, slot := slot }

/-- Send a flit in a slot of a LOCKED link: it carries the answer that waits (R286), and one of an acknowledged kind is kept
until it is acknowledged (R58). -/
def State.sendFlit (s : State) (l slot : Nat) (x : Flit) : State :=
  let b := (s.seat (fieldOfLink l)).tt.bell
  s.modLink l (fun k =>
    let x := match k.answer with
      | some (c, sl, par, e) => { x with ackCode := c, ackSlot := sl, ackPar := par, errCode := e }
      | none => x
    { k.emit x (flitNonce b slot) with
      answer := none, kept := if ackedKind x then k.kept ++ [{ flit := x, bell := b, sentBell := b, sentSlot := slot }] else k.kept })

/-- Payload of an IDLE flit: the manual leaves it open, and equal runs of a step send it alike (R78; log 4). -/
def State.idlePayload (s : State) (l slot : Nat) : List Byte :=
  let k := s.seat (fieldOfLink l)
  (List.range 256).map (fun i => Config.idleByte k.cm.live k.tt.stepPeriod l slot i)

/-- Pattern of a QUIZ slot (R372). DESIGN CHOICE (log 4): the Philox words of the quiz seed, with the step, its period and the slot for the quiz
number, so that both ends of a link form the same pattern and equal runs of a step send it alike (R78). -/
def quizPattern (step : BitVec 64) (period : BitVec 32) (slot : Nat) : List Byte :=
  (List.range 32).flatMap (fun j =>
    let x := philoxIn Config.quizSeed.toNat step.toNat (period.toNat % 65536) (period.toNat / 65536) (32 * slot + j)
    leBytes 4 x.1.toNat ++ leBytes 4 x.2.1.toNat)

/-- An IDLE slot: an LCTL that waits, in the slot's stream (Table 09-1), else IDLE. -/
def State.sendIdle (s : State) (l slot : Nat) (stream : BitVec 8) : State :=
  match (s.link l).lctl with
  | x :: r => (s.modLink l (fun k => { k with lctl := r ++ [x] })).sendFlit l slot
      { x with src := s.nodeId l, stream := stream, bell := (s.seat (fieldOfLink l)).tt.bell.setWidth 16, slot := slot }
  | [] => s.sendFlit l slot { s.flitOf l slot 0 stream with payload := s.idlePayload l slot }

/-- Every flit of a run of this period has been pulled, or the run sends late markers. -/
def Link.through (k : Link) (r : Run) : Bool := k.ended.contains r.start || k.lateRuns.contains r.start

/-- A seal clears when the last flit of the last of its runs of the period, on whichever link, has been pulled (R58, R112). -/
def State.unseal (s : State) (g : Nat) (r : Run) : State :=
  let c := 500 * g + r.core
  if (s.coreRuns c).all (fun q => q.sealId != r.sealId || (s.link (6 * g + q.link)).through q) then
    (s.modCore c (fun k => { k with seals := k.seals &&& ~~~(1#256 <<< r.sealId) })).flushHeld
  else s

/-- A late marker (R57). -/
def State.lateFlit (s : State) (l slot : Nat) (r : Run) : Flit :=
  { s.flitOf l slot 6 (BitVec.ofNat 8 r.stream) with payload := List.replicate 256 0 }

/-- A slot of a core-data run: the pulled payload, or a late marker (R57); an uncorrectable word makes a late marker too (R210). In
HOLD the slot carries IDLE, and LATE after a context reset (R77, R389). -/
def State.sendData (s : State) (l slot : Nat) (r : Run) : State :=
  let g := fieldOfLink l
  let stream := BitVec.ofNat 8 r.stream
  let late := s.lateFlit l slot r
  if (s.seat g).tt.hold then (if (s.seat g).ctxHeld then s.sendFlit l slot late else s.sendIdle l slot stream)
  else if (s.link l).pulled.contains r.start then
    let a := r.bufAddr g + 256 * (slot - r.start)
    let s := match s.readRange (s.seatFields g) a 256 with
      | .ok bs => (s.noteCorrected [(a, 256)]).sendFlit l slot { s.flitOf l slot 1 stream with payload := bs }
      | .error e => (s.noteErr g e.1 e.2).sendFlit l slot late
    if slot + 1 = r.start + r.count then (s.modLink l (fun k => { k with ended := k.ended ++ [r.start] })).unseal g r else s
  else s.sendFlit l slot late

/-- Kind of transfer that the plan gives a Librarian channel and stream of a field, and its use (R443). -/
def Seat.bulkUse (k : Seat) (g chan : Nat) (stream : BitVec 8) : Option BulkUse :=
  match k.plan with
  | some p => p.bulk.find? (fun u => u.field == g && u.chan == chan && u.stream == stream)
  | none => none

/-- A bulk slot: the next unit that waits in its channel's queue for a stream of its kind, else IDLE (R65). -/
def State.sendBulk (s : State) (l slot : Nat) (r : Run) : State :=
  let g := fieldOfLink l
  let k := s.seat g
  let stream := BitVec.ofNat 8 r.stream
  match (if (s.field g).lb.resetting.contains r.chan then none else k.bulkUse g r.chan stream) with
  | none => s.sendIdle l slot stream
  | some u =>
    match k.bulkOut.find? (fun x => x.field == g && x.chan == r.chan && x.kind == u.kind) with
    | none => s.sendIdle l slot stream
    | some x => (s.modSeat g (fun k => { k with bulkOut := k.bulkOut.erase x })).sendFlit l slot
        { s.flitOf l slot 2 stream with offset := BitVec.ofNat 32 x.off, payload := x.data }

/-- A pool slot: of the operations of its Librarian channel, the command of the oldest not yet opened, else the next data of a WRITE, else IDLE
(R65, R302, R304). -/
def State.sendPool (s : State) (l slot : Nat) (r : Run) : State :=
  let g := fieldOfLink l
  let k := s.link l
  let stream := BitVec.ofNat 8 r.stream
  let upd (t : BitVec 7) (h : PoolOp → PoolOp) (s : State) : State :=
    s.modLink l (fun k => { k with ops := k.ops.map (fun o => if o.tag = t then h o else o) })
  if (s.field g).lb.resetting.contains r.chan then s.sendIdle l slot stream
  else match k.ops.find? (fun o => o.chan == r.chan && !o.sent) with
  | some o => (upd o.tag (fun o => { o with sent := true }) s).sendFlit l slot
      { s.flitOf l slot 5 stream with tag := o.tag, payload := s.poolCommand g o }
  | none =>
    match k.ops.find? (fun o => o.chan == r.chan && o.op == 1 && decide (256 * o.data < o.len)) with
    | some o => (upd o.tag (fun o => { o with data := o.data + 1 }) s).sendFlit l slot
        { s.flitOf l slot 5 stream with pkind := 1, tag := o.tag, offset := BitVec.ofNat 32 o.data,
                                        payload := padTo 256 ((o.bytes.drop (256 * o.data)).take 256) }
    | none => s.sendIdle l slot stream

/-- A resend-region slot: the oldest queued flit that may be resent, else IDLE in the region's stream (R287, Table 09-1). -/
def State.sendResend (s : State) (l slot : Nat) (stream : BitVec 8) : State :=
  let b := (s.seat (fieldOfLink l)).tt.bell
  let k := s.link l
  match k.kept.find? (fun x => x.queued && !k.spent b x) with
  | none => s.sendIdle l slot stream
  | some x =>
    let s := s.modLink l (fun k =>
      let y := match k.answer with
        | some (c, sl, par, e) => { x.flit with resend := true, ackCode := c, ackSlot := sl, ackPar := par, errCode := e }
        | none => { x.flit with resend := true, ackCode := 0, ackSlot := 0, ackPar := false, errCode := 0 }
      { k.emit y (flitNonce b slot) with
        answer := none, kept := k.kept.map (fun z => if z = x then
                 { z with sentBell := b, sentSlot := slot, resends := z.resends + 1, queued := false } else z) })
    s.bump (flBase l + 0x28)

/-- After a context reset: the core-data TX run, of the template that it interrupted, that covers the slot, which carries a late marker (R389; log 26). -/
def State.lateRun (s : State) (l slot : Nat) : Option Run :=
  let k := s.seat (fieldOfLink l)
  if !k.ctxHeld then none
  else k.lateEntry.bind (fun e => (runOn (templateRuns (s.block (fieldOfLink l)) e) l false slot).filter (fun r => r.kind == 0))

/-- TX_SLOT: a slot starts on the transmit direction of a link; beyond slot S − 1 there is none (R53). Out of LOCKED it carries the pattern or fill of the state (R284,
R295, R297). -/
def execTxSlot (l slot : Nat) (s : State) : State :=
  let g := fieldOfLink l
  let k := s.link l
  let bare (kind : BitVec 4) : Flit :=
    if s.hasNode l then { kind := kind, src := s.nodeId l, payload := List.replicate 256 0x5A }
    else { kind := kind, pkind := 1, payload := List.replicate 256 0x5A }
  if 24 ≤ l then s
  else if (s.seat g).wiping then s.modLink l (fun k => if k.st = .off then k.fill else k.bare (bare 0xF))
  else if k.absent then s.modLink l (fun k => k.bare (bare 0xE))
  else match k.st with
  | .locked =>
    if (s.seat g).tt.slots.toNat ≤ slot then s.modLink l Link.fill
    else match runOn (s.runs g) l false slot with
    | none =>
      match s.lateRun l slot with
      | some r => s.sendFlit l slot (s.lateFlit l slot r)
      | none => s.sendIdle l slot 0
    | some r =>
      match r.kind with
      | 0 => s.sendData l slot r
      | 1 => s.sendBulk l slot r
      | 2 => s.sendFlit l slot { s.flitOf l slot 3 (BitVec.ofNat 8 r.stream) with payload := s.statusPayload l }
      | 3 => s.sendResend l slot (BitVec.ofNat 8 r.stream)
      | 4 => s.sendFlit l slot { s.flitOf l slot 4 (BitVec.ofNat 8 r.stream) with
          payload := quizPattern (s.seat g).cm.live (s.seat g).tt.stepPeriod slot }
      | 5 => s.sendPool l slot r
      | _ => s.sendIdle l slot 0
  | .ident | .ranging =>
    if k.keyEpoch.isSome && k.nodeOk then
      (s.modLink l (fun k => { k.emit (s.identFlit l slot) (identNonce k.seq k.bringup) with seq := k.seq + 1, echoDue := none })).burn
    else s.modLink l Link.fill
  | _ => s.modLink l Link.fill

/-! ### Answers to our flits (R286, R287, R291) -/

/-- FL_ERR_LAST (Table 09-16). -/
def errWord (code : Nat) (peer : Bool) (slot : Nat) (src : BitVec 16) (bell : BitVec 64) : BitVec 54 :=
  BitVec.ofNat 54 (code + 16 * b2n peer + fieldAt slot 5 + fieldAt src.toNat 22 + fieldAt (bell.toNat % 65536) 38)

/-- An LCTL that a kept flit carried is acknowledged: it is sent no more; a SWAP_ACK that has reached the peer by bell V − 1 is exchanged (R299). -/
def Link.ackLctl (k : Link) (x : Kept) (now : BitVec 64) : Link :=
  if x.flit.kind = 7 then
    { k with lctl := k.lctl.filter (fun y => y.payload != x.flit.payload),
             swap := k.swap.map (fun w => if w.fromPeer ∧ x.flit.payload[0]? = some 2 ∧ now + 1 < w.bell then { w with acked := true } else w) }
  else k

/-- An ERR is counted and recorded (R291). -/
def State.noteErrRx (s : State) (l : Nat) (code : BitVec 4) (slot : Nat) (src : BitVec 16) (bell : BitVec 64) : State :=
  (s.modLink l (fun k => { k with errLast := errWord code.toNat true slot src bell })).bump (flBase l + 0x58)

/-- The answer in a received header, for the flit sent in that slot; an ERR may also name a flit that is not kept, sent in the latest period of
its parity. -/
def State.answered (s : State) (l : Nat) (x : Flit) : State :=
  let b := (s.seat (fieldOfLink l)).tt.bell
  match (s.link l).kept.find? (fun y => y.sentSlot == x.ackSlot && y.sentBell.getLsbD 0 == x.ackPar) with
  | none =>
    if x.ackCode = 3 then s.noteErrRx l x.errCode x.ackSlot (s.nodeId l) (if b.getLsbD 0 = x.ackPar then b else b - 1) else s
  | some y =>
    match x.ackCode.toNat with
    | 1 => s.modLink l (fun k => { k.ackLctl y b with kept := k.kept.erase y })
    | 2 =>
      if y.flit.kind = 7 then s.modLink l (fun k => { k with kept := k.kept.erase y })
      else (s.modLink l (fun k => { k with kept := k.kept.map (fun z => if z = y then { z with queued := true } else z) })).dropSpent l b
    | 3 =>
      let s := (s.modLink l (fun k => { k with kept := k.kept.erase y })).noteErrRx l x.errCode y.sentSlot y.flit.src y.sentBell
      if y.flit.kind = 5 then s.endOp l y.flit.tag (if x.errCode = 5 then 2 else 0x0B) else s
    | _ => s

/-- ACK_TIMEOUT: a flit without an answer in its time enters the resend queue (R287). -/
def execAckTimeout (l : Nat) (bell : BitVec 64) (slot : Nat) (s : State) : State :=
  s.modLink l (fun k =>
    { k with kept := (k.kept.filter (fun z => !(z.sentBell == bell && z.sentSlot == slot && z.flit.kind == 7))).map (fun z =>
        if z.sentBell = bell ∧ z.sentSlot = slot then { z with queued := true } else z) })
    |>.dropSpent l (s.seat (fieldOfLink l)).tt.bell

/-! ### Receiving (R285 to R290) -/

/-- FL_WL_CE_COUNT of each wavelength, and the running period's sums (Table 12-3). -/
def State.corrected (s : State) (l : Nat) (quiz : Bool) (ce : List (Nat × Nat)) : State :=
  ce.foldl (fun s e =>
    if e.1 < 9 then
      ((List.range e.2).foldl (fun t _ => t.bump (flBase l + 0x108 + 16 * e.1)) s).modLink l (fun k =>
        { k with ceNow := Tab.set (fun _ => 0) k.ceNow e.1 (Tab.get (fun _ => 0) k.ceNow e.1 + e.2),
                 ceQuiz := if quiz then Tab.set (fun _ => 0) k.ceQuiz e.1 (Tab.get (fun _ => 0) k.ceQuiz e.1 + e.2) else k.ceQuiz })
    else s) s

/-- Slot index that a unit of a satchel copy belongs to: that of the step being delivered, whose header opens it (R249, R443). -/
def Seat.copyInto (k : Seat) (off : Nat) (payload : List Byte) : Option Nat :=
  if off = 0 then some ((satHeaderOf payload).step.toNat % 3) else k.cm.copyStep.map (fun n => n.toNat % 3)

/-- Length of the partner's homework tray (R254). -/
def Seat.trayLen (k : Seat) : Nat := k.mirrorUnits.foldl (fun m u => Nat.max m (u.trayOff + trayUnitLen u)) 0

/-- Step that ran in a period; none in HOLD, or too long ago. -/
def Seat.stepAt (k : Seat) (p : BitVec 64) : Option (BitVec 64) :=
  if p = k.tt.bell then (if k.tt.hold then none else some k.cm.live)
  else match k.tt.recent.find? (fun r => r.1 == p), k.tt.recentLive.find? (fun r => r.1 == p) with
    | some (_, _, false), some (_, n, _) => some n
    | _, _ => none

/-- Step whose tray window a flit of period `p` meets: its slices are that step's, and the buffer is not yet whole (R254, R443). -/
def Seat.trayStep (k : Seat) (p : BitVec 64) : Option (BitVec 64) :=
  match k.stepAt p with
  | some n => if spansCover (Tab.get (fun _ => []) k.cm.trayGot (n.toNat % 2)) k.trayLen then none else some n
  | none => none

/-- A transfer of one of some kinds runs. -/
def Seat.xferOf (k : Seat) (kinds : List XferKind) : Option Xfer := k.cm.xfers.find? (fun x => kinds.contains x.kind)

/-- Start of the region that a unit transfer writes, while one that writes it is in progress or may still come (R253, R259, R264, R270, R443): the mirror
under a fill, a pull or an owner's recompute; the committed buffer under a pull, a fix or a push; the slot that a pull brings next. -/
def Seat.unitWindow (k : Seat) (kind : BulkKind) : Option Nat :=
  let slot (x : XferKind) (base : Nat → Nat) : Option Nat := (k.xferOf [x]).map (fun x => base ((x.due.headD (0, 0)).1))
  match kind with
  | .toMirror => if (k.xferOf [.fill, .pullMirror]).isSome || k.cm.units.any (fun e => e.2.asked) then some k.regions.mirror else none
  | .toShard =>
    if (k.xferOf [.pullShard, .clipPush]).isSome || !k.cm.ownFixDue.isEmpty || k.cm.clipDue || (k.cm.seatState == 2 && k.plan.isSome) ||
        (k.cm.partnerOk && !k.cm.firstStep && k.cm.summary.isNone) then some k.committedBase else none
  | .toSatchel => slot .pullSatchel k.satchelBase
  | .toCopy => slot .pullSatchelCopy k.copyBase
  | _ => none

/-- An exchange of the cross-check, or of the pairing and the transfers that its messages serve, is in progress or may begin (R252, R253, R258 to R264;
DESIGN CHOICE, log 14): until the partner is valid, in HOLD, while an apply runs or its summary is awaited, while units are sent or received. -/
def Seat.crossOpen (k : Seat) : Bool :=
  !k.cm.partnerOk || k.tt.hold || k.cm.applyStep.isSome || (k.cm.summary.isNone && !k.cm.firstStep) || !k.cm.xfers.isEmpty || k.cm.serving ||
    !k.cm.resent.isEmpty || k.cm.units.any (fun e => e.2.unacked)

/-- Use and base of the window that is open for a bulk stream (R443), for a flit whose original was sent in period `p`. -/
def State.windowAt (s : State) (l chan : Nat) (p : BitVec 64) (x : Flit) : Option (BulkUse × Nat) :=
  let k := s.seat (fieldOfLink l)
  match k.bulkUse (fieldOfLink l) chan x.stream with
  | none => none
  | some u =>
    let base : Option Nat := match u.kind with
      | .satchelCopy => if k.cm.partnerOk then (k.copyInto x.offset.toNat x.payload).map k.copyBase else none
      | .tray => if k.cm.partnerOk then (k.trayStep p).map k.trayBase else none
      | .crossCheck => if k.crossOpen then some u.base else none
      | kind => k.unitWindow kind
    base.map (fun b => (u, b))

/-- The open window that holds the flit's OFFSET. -/
def State.window (s : State) (l chan : Nat) (p : BitVec 64) (x : Flit) : Option (BulkUse × Nat) :=
  (s.windowAt l chan p x).filter (fun w => decide (x.offset.toNat < w.1.units))

/-- ERRCODE of a received flit (Table 09-3), 0 when it passes: `run` is the RX entry of its slot, `orig` that of the slot and period `p` that a
resend names, `held` says that the seat held in the period of the slot, `again` that the flit has been accepted before (R285). -/
def State.flitErr (s : State) (l : Nat) (bell : BitVec 64) (slot : Nat) (x : Flit) (run orig : Option Run) (p : BitVec 64)
    (held again : Bool) : Nat :=
  let k := s.link l
  let idle := x.kind == 0 || x.kind == 7
  let region := match run with | some r => r.kind == 3 | none => false
  let entry := if x.resend then orig else if region then none else run
  let kindOk (r : Run) : Bool := match r.kind with
    | 0 => x.kind == 1 || x.kind == 6 || (held && idle)
    | 1 => x.kind == 2 || idle
    | 2 => x.kind == 3
    | 4 => x.kind == 4 || idle
    | 5 => x.kind == 5 || idle
    | _ => idle
  if (run.isNone && !idle) || (x.resend && !region) || (region && !x.resend && !idle) then 1
  else if (match entry with | some r => !kindOk r | none => false) then 2
  else if (match run with
    | some r => if region then x.src != k.node else x.src != BitVec.ofNat 16 r.peer
    | none => x.src != k.node) then 3
  else if (match entry with | some r => x.stream != BitVec.ofNat 8 r.stream | none => false) then 4
  else if !again && x.kind == 2 && (match entry with | some r => (s.window l r.chan p x).isNone | none => false) then 5
  else if !again && x.kind == 5 && x.pkind == 1 &&
      (match k.op x.tag with | some o => decide (o.flits o.len ≤ x.offset.toNat) | none => false) then 5
  else if !again && x.kind == 5 && (k.op x.tag).isNone then 6
  else if (!x.resend && (x.bell != bell.setWidth 16 || x.slot != slot)) || (x.resend && orig.isNone) then 7
  else 0

/-- Address a DATA flit of a run writes in a slot of its core's buffer. -/
def rxAddr (g : Nat) (r : Run) (slot : Nat) : Nat := r.bufAddr g + 256 * (slot - r.start)

/-- The plan's assignment of a core-data RX run to the homework tray (R107, R254). -/
def Seat.trayRun (k : Seat) (g : Nat) (r : Run) : Option TrayRun :=
  match k.plan with
  | some p => p.trays.find? (fun t => t.field == g && t.link == r.link && t.stream == BitVec.ofNat 8 r.stream)
  | none => none

/-- Where a DATA flit of a run is placed in a slot of period `p`: its core's buffer, or tray buffer s mod 2 of the step s that ran in `p`, which is named too
(R37, R107, R254; DESIGN CHOICE, log 14). A slice whose step is not known has no place. -/
def Seat.dataPlace (k : Seat) (g : Nat) (r : Run) (p : BitVec 64) (slot : Nat) : Option (Nat × Option (BitVec 64)) :=
  match k.trayRun g r with
  | none => some (rxAddr g r slot, none)
  | some t => (k.stepAt p).map (fun n => (k.trayBase n + t.base + 256 * (r.offset + (slot - r.start)), some n))

/-- The tray buffer of a step holds slices of it. -/
def Cm.trayHolds (m : Cm) (n : BitVec 64) : Cm := { m with tray := Tab.set (fun _ => none) m.tray (n.toNat % 2) (some n) }

/-- A DATA flit's payload is placed. -/
def State.placeData (s : State) (g : Nat) (r : Run) (p : BitVec 64) (slot : Nat) (payload : List Byte) : State :=
  match (s.seat g).dataPlace g r p slot with
  | none => s
  | some (a, step) =>
    let s := s.libWrite g a payload
    match step with
    | some n => s.modCm g (fun m => m.trayHolds n)
    | none => s

/-- Local address that a flit under an RX entry would write, or 0. -/
def State.flitAddr (s : State) (l : Nat) (r : Run) (p : BitVec 64) (x : Flit) (slot : Nat) : Nat :=
  match r.kind with
  | 0 => (((s.seat (fieldOfLink l)).dataPlace (fieldOfLink l) r p slot).map (·.1)).getD 0
  | 1 => match s.windowAt l r.chan p x with
    | some w => w.2 + 256 * x.offset.toNat
    | none => 0
  | _ => 0

/-- A violation (R290): discarded, counted, logged, answered ERR; TAINT in slots named for DATA, BULK or STATUS, a failed operation
in a POOL slot, or of a resend that names one. A resend counts by the slot that it names for the address. -/
def State.violation (s : State) (l : Nat) (bell : BitVec 64) (slot : Nat) (x : Flit) (run orig : Option Run) (p : BitVec 64) (code : Nat) : State :=
  let g := fieldOfLink l
  let entry := if x.resend then orig else run
  let addr := match entry with | some r => s.flitAddr l r p x (if x.resend then x.slot else slot) | none => 0
  let s := s.modLink l (fun k =>
    { k with answer := some (3, slot, bell.getLsbD 0, BitVec.ofNat 4 code), errLast := errWord code false slot x.src bell })
  let s := (s.bump (flBase l + 0x40)).vlog g
    { addr := BitVec.ofNat 64 addr, source := 5, code := BitVec.ofNat 8 code, unitId := BitVec.ofNat 16 l,
      loc := BitVec.ofNat 32 slot, peer := x.src, period := bell.setWidth 16 }
  let s := match run with
    | some r => if r.kind = 0 ∨ r.kind = 1 ∨ r.kind = 2 then s.taint g else s
    | none => s
  let pool (r : Option Run) : Bool := match r with | some r => r.kind == 5 | none => false
  if (pool run || pool entry) && code != 6 then s.endOp l x.tag (if code = 5 then 2 else 0x0B) else s

/-- What a unit of a satchel copy leaves in its slot: its first unit carries the header, which opens the slot and names the histories (R247, R249). A
header that is not COMPLETE opens a COMPLETE slot anew: its owner delivers the step again. -/
def Slot.copyHeader (x : Slot) (payload : List Byte) : Slot :=
  let h := satHeaderOf payload
  let w (o n : Nat) : Nat := ofLe ((payload.drop o).take n)
  let named (x : Slot) : Slot := { x with histLen := w 0x2C 4, histCrc := BitVec.ofNat 32 (w 0x38 4) }
  if x.st = .complete ∧ x.holds h.step ∧ !bit (w 22 2) 0 then named { st := .filling, hdr := some h }
  else if x.st = .free ∨ x.st = .filling then
    named { st := .filling, hdr := some h,
            arrived := if x.holds h.step then (x.arrived.map (fun r => (r.1, Nat.min r.2 h.inputLen))).filter (fun r => decide (r.1 < r.2)) else [] }
  else if x.holds h.step then
    named { x with arrived := (x.arrived.map (fun r => (r.1, Nat.min r.2 h.inputLen))).filter (fun r => decide (r.1 < r.2)) }
  else x

/-- Inputs and histories of a copy slot are all there. -/
def Slot.copyWhole (x : Slot) (histLen : Nat) : Bool :=
  x.st != .filling && match x.hdr with
    | some h => histLen == 0 || x.arrived.any (fun r => decide (r.1 + 64 ≤ histSlotOff h) && decide (histSlotOff h + histLen ≤ r.2 + 64))
    | none => false

/-- A unit of a satchel copy lands in its slot (R249). When a slot is whole its window closes, and that of a slot still FILLING opens (log 14). -/
def State.copyUnit (s : State) (g off base : Nat) (payload : List Byte) : State :=
  match (s.seat g).copyInto off payload with
  | none => s
  | some i =>
    let x := (s.seat g).cm.copySlot i
    let x := if off = 0 then x.copyHeader payload else x
    let s := s.libWrite (s.seatIx g) (base + 256 * off) payload
    let x := { x with arrived := addSpan x.arrived (256 * off - 64) (256 * off + 192) }
    let r := s.checkSlot g base x
    let x := match r.2 with
      | .good => { x with st := .complete }
      | _ => x
    r.1.modSeat g (fun k =>
      let m := k.cm.setCopy i x
      let next := if x.copyWhole k.regions.histLen then
          (((List.range 3).map m.copySlot).find? (fun y => y.st == .filling)).bind (fun y => y.hdr.map (·.step))
        else x.hdr.map (·.step)
      { k with cm := { m with copyStep := next } })

/-- The partner has named this seat for the first time, which has named it before: its own naming goes out once more, since the partner may have
had no plan to hear it with (R252; log 14). -/
def State.answerNaming (s : State) (g : Nat) (due : Bool) : State :=
  if due then s.tell g (.named (s.seat g).cm.partner (s.seat g).cm.moduleId) else s

/-- The first unit of a message that the Librarian acts on itself (log 14): the partner's naming makes the pairing valid (R252); a fill asked for is
refused or served from the committed buffer (R252, R253); a refusal ends the fill that waits. The others have commands of their own. -/
def State.hear (s : State) (g : Nat) (bs : List Byte) : State :=
  let w (o n : Nat) : Nat := ofLe ((bs.drop o).take n)
  let k := s.seat g
  match w 0 8 with
  | 7 =>
    if w 16 48 ≠ s.fwDigest.toNat ∨ w 64 1 ≠ 0xA1 then s.tell g .fillNo
    else ((k.units.drop (w 8 4)).take (w 12 4 + 1 - w 8 4)).foldl
      (fun t u => t.sendUnit g k.committedBase u .toMirror) s
  | 8 =>
    match k.cm.xfers.find? (fun x => x.kind == .fill) with
    | some x => (s.modCm g (fun m => m.setXfer x none)).respondTo x.req stPairing
    | none => s
  | 9 =>
    if w 8 4 ≠ k.cm.moduleId.toNat then s
    else s.modCm g (fun m =>
      let by' := BitVec.ofNat 14 (w 12 4)
      { m with namedBy := some by', partnerOk := m.partnerOk || (m.named && m.partner == by') })
      |>.answerNaming g (k.cm.namedBy.isNone && k.cm.named)
  | _ => s

/-- An accepted bulk flit is written at OFFSET of its stream's window; a unit of a fill, pull, fix or push waits with its Librarian
for its CRC (R264, R443). A message accepted `again` is not heard twice (R285). -/
def State.placeBulk (s : State) (l chan : Nat) (p : BitVec 64) (x : Flit) (again : Bool) : State :=
  let g := fieldOfLink l
  let off := x.offset.toNat
  match s.window l chan p x with
  | none => s
  | some (u, base) =>
    match u.kind with
    | .satchelCopy => s.copyUnit g off base x.payload
    | .tray =>
      match (s.seat g).trayStep p with
      | none => s
      | some n => (s.libWrite g (base + 256 * off) x.payload).modCm g (fun m =>
          { m.trayHolds n with
                   trayGot := Tab.set (fun _ => []) m.trayGot (n.toNat % 2)
                     (addSpan (Tab.get (fun _ => []) m.trayGot (n.toNat % 2)) (256 * off) (256 * off + 256)) })
    | .crossCheck =>
      let s := s.libWrite g (base + 256 * off) x.payload
      if off = 0 && !again then s.hear g x.payload else s
    | kind => match bulkRegion kind with
      | some i => s.modCm g (fun m => { m with landing := Tab.put m.landing (4 * off + i) x.payload })
      | none => s

/-- A POOL flit of an operation: its data is placed at OFFSET, its response closes it (R285, R304). -/
def State.takePool (s : State) (l : Nat) (x : Flit) : State :=
  match x.pkind.toNat with
  | 1 => s.poolData l x.tag x.offset.toNat x.payload
  | 2 => s.poolAnswer l x.tag (x.payload.getD 1 0) (ofLe ((x.payload.drop 0x18).take 8))
  | _ => s

/-- Period a resend names: the latest of the last four whose low bits it carries. -/
def origPeriod (now : BitVec 64) (b : BitVec 16) : Option (BitVec 64) :=
  ((List.range 4).map (fun i => now - BitVec.ofNat 64 i)).find? (fun p => p.setWidth 16 == b)

/-- Delivery bell of a flit of a run whose original was sent in period `p` (R55, R288). -/
def State.deliveryBell (s : State) (l : Nat) (p : BitVec 64) (r : Run) : BitVec 64 :=
  p + (if r.kind = 0 then BitVec.ofNat 64 (r.deliver + 1) else 2 + (s.link l).resendAge.setWidth 64)

/-- A BULK or POOL flit has not come through in its slot: a resend of it is waited for until its delivery bell (R288). -/
def State.awaitResend (s : State) (l : Nat) (bell : BitVec 64) (slot : Nat) (r : Run) : State :=
  if (r.kind = 1 ∨ r.kind = 5) ∧ !(s.link l).arrivals.any (fun a => a.period == bell && a.slot == slot) then
    s.modLink l (fun k => { k with arrivals := k.arrivals ++
      [{ period := bell, slot := slot, deliver := s.deliveryBell l bell r, pool := r.poolChan }] })
  else s

/-- The flit sent in a slot of a period has been accepted. -/
def Link.accepted (k : Link) (p : BitVec 64) (slot : Nat) : Bool := k.arrivals.any (fun a => a.period == p && a.slot == slot && a.got)

/-- An accepted DATA, LATE, BULK or POOL flit, before its delivery bell: one accepted again is written again and counted once (R55, R285). -/
def State.take (s : State) (l : Nat) (p : BitVec 64) (r : Run) (x : Flit) : State :=
  let g := fieldOfLink l
  let d := s.deliveryBell l p r
  let again := (s.link l).accepted p x.slot
  if d ≤ (s.seat g).tt.bell then s
  else
    let s := s.modLink l (fun k =>
      { k with arrivals := k.arrivals.filter (fun a => !(a.period == p && a.slot == x.slot)) ++
                 [{ period := p, slot := x.slot, deliver := d, pool := r.poolChan, got := true }] })
    match x.kind.toNat with
    | 1 => s.placeData g r p x.slot x.payload
    | 6 => if again then s else s.taint g
    | 2 => s.placeBulk l r.chan p x again
    | 5 => if again && x.pkind != 1 then s else s.takePool l x
    | _ => s

/-- A damaged flit in a slot (R285, R286, R288): one whose codeword is uncorrectable is counted and scored; a slot named for an acknowledged kind
answers NACK, and a BULK or POOL flit is waited for; a QUIZ flit voids its quiz. -/
def State.damagedFlit (s : State) (l : Nat) (bell : BitVec 64) (slot : Nat) (tag : Bool) (run : Option Run) (ce : List (Nat × Nat)) : State :=
  let s := if tag then s else (s.bump (flBase l + 0x48)).scoreWaves l 4 ce
  match run with
  | none => s
  | some r =>
    let s := if r.kind = 0 ∨ r.kind = 1 ∨ r.kind = 3 ∨ r.kind = 5 then
        (s.modLink l (fun k => { k with answer := some (2, slot, bell.getLsbD 0, 0) })).bump (flBase l + 0x30)
      else if r.kind = 4 then s.modLink l (fun k => { k with quizSeen := true, quizVoid := true })
      else s
    s.awaitResend l bell slot r

/-- What FEC and GCM say of a codeword that has arrived (R285, R292): damaged, with whether by its tag, or the flit it opens as under the key of the
direction from the peer and the nonce of its period and slot. -/
def State.openFlit (s : State) (l : Nat) (bell : BitVec 64) (slot : Nat) (rx : Rx) : Except Bool Flit :=
  match rx with
  | .damaged tag => .error tag
  | .intact x cipher =>
    if (Config.gcm (s.link l).keyRx (flitNonce bell slot) (flitHeader x) x.payload).take 272 = cipher then .ok x else .error true

/-- A slot of a link under an engine reset: its flit is lost unless a resend of it comes in time, and a QUIZ flit voids its quiz (R288, R390). -/
def State.missedFlit (s : State) (l : Nat) (bell : BitVec 64) (slot : Nat) (run : Option Run) : State :=
  match run with
  | none => s
  | some r => if r.kind = 4 then s.modLink l (fun k => { k with quizVoid := true }) else s.awaitResend l bell slot r

/-- A seat in HOLD whose tree parent has set its count takes that count up (R48, R349): the parent's flits come from a period that is none of its
own latest (DESIGN CHOICE, log 26: the manual does not say how time synchronisation carries the count). -/
def State.followCount (s : State) (l : Nat) (bell : BitVec 64) : State :=
  let g := fieldOfLink l
  let t := (s.seat g).tt
  if !s.isParentLink l || !t.hold || decide ((t.bell + 1 - bell).toNat ≤ 4) then s
  else s.modSeat g (fun k => k.setBell (bell + BitVec.ofNat 64 ((s.link l).delay.toNat * 17 / (20000 * t.period.toNat))))

/-- Step and step period of a period: the running one, or one of the latest closed ones. -/
def Tt.stepOf (t : Tt) (live p : BitVec 64) : BitVec 64 × BitVec 32 :=
  if p = t.bell then (live, t.stepPeriod) else match t.recentLive.find? (fun r => r.1 == p) with | some r => r.2 | none => (live, t.stepPeriod)

/-- A QUIZ flit: its pattern is compared with that of its slot (R372). -/
def State.quizFlit (s : State) (l : Nat) (bell : BitVec 64) (slot : Nat) (x : Flit) : State :=
  let k := s.seat (fieldOfLink l)
  let n := k.tt.stepOf k.cm.live bell
  s.modLink l (fun y => { y with quizSeen := true, quizBad := y.quizBad || x.payload != quizPattern n.1 n.2 slot })

/-- A flit that passes every check: what it acknowledges leaves the queue, it is acknowledged itself, and its payload is placed (R285, R287). -/
def State.acceptFlit (s : State) (l : Nat) (bell : BitVec 64) (slot : Nat) (x : Flit) (period : Option (BitVec 64)) (run : Option Run) : State :=
  let s := s.answered l x
  let s := if ackedKind x then s.modLink l (fun k => { k with answer := some (1, slot, bell.getLsbD 0, 0) }) else s
  let s := if x.kind = 4 then s.quizFlit l bell slot x else s
  match period, run with
  | some p, some r => if x.kind = 1 ∨ x.kind = 2 ∨ x.kind = 5 ∨ x.kind = 6 then s.take l p r x else s
  | _, _ => s

/-- FLIT_RECEIVE: a flit sent in a slot of period `bell` arrives; `ce` gives the symbols corrected on each wavelength. -/
def execFlitReceive (l : Nat) (bell : BitVec 64) (slot : Nat) (rx : Rx) (ce : List (Nat × Nat)) (s : State) : State :=
  let g := fieldOfLink l
  if 24 ≤ l ∨ (s.link l).st ≠ .locked ∨ (s.seat g).tt.slots.toNat ≤ slot then s
  else
    let sched := s.runsAt g bell
    let run := runOn sched.1 l true slot
    if (s.link l).resetting then s.missedFlit l bell slot run else
    let s := s.corrected l (match run with | some r => r.kind == 4 | none => false) ce
    match s.openFlit l bell slot rx with
    | .error tag => s.damagedFlit l bell slot tag run ce
    | .ok x =>
      let s := if s.isParentLink l then (s.followCount l bell).modTt g (fun t => { t with heard := true }) else s
      let op := if x.resend then origPeriod (s.seat g).tt.bell x.bell else some bell
      let p := op.getD bell
      let orig := match op with | some p => runOn (s.runsAt g p).1 l true x.slot | none => none
      let code := s.flitErr l bell slot x run orig p sched.2 ((s.link l).accepted p x.slot)
      if code ≠ 0 then s.violation l bell slot x run orig p code
      else s.acceptFlit l bell slot x op (if x.resend then orig else run)

/-! ### Status flits (R71, R289) -/

/-- A child's word for the latest closed period joins the combined word; it is taken once. -/
def State.joinChild (s : State) (l : Nat) (w norm : BitVec 64) : State :=
  let g := fieldOfLink l
  let t := (s.seat g).tt
  let p := t.bell - 1
  if t.childGot.any (fun e => e.1 == l && e.2.1 == p) then s
  else match Tab.find t.combined p.toNat with
    | none => s
    | some a => s.modTt g (fun t =>
        { t with combined := Tab.put t.combined p.toNat (joinWord a w), childGot := t.childGot ++ [(l, p, w, norm)] })

/-- A reduced word that came down: kept until the bell at which it takes effect, with N² if it is a norm period's. -/
def State.addReduced (s : State) (g : Nat) (p : BitVec 64) (w : BitVec 64) (norm : Option (BitVec 64)) : State :=
  s.modTt g (fun t =>
    if t.reduced.any (fun r => r.period == p) then
      { t with reduced := t.reduced.map (fun r => if r.period = p ∧ r.norm = none then { r with norm := norm } else r) }
    else { t with reduced := t.reduced ++ [{ period := p, word := w, norm := norm }] })

/-- STATUS_FLIT_RECEIVE: the words of a STATUS flit sent in the running period; none for a damaged one. Upward words come on child
links, reduced words on the parent link. -/
def execStatusFlitReceive (l : Nat) (sf : Option StatusFlit) (s : State) : State :=
  let g := fieldOfLink l
  let k := s.seat g
  if 24 ≤ l ∨ (s.link l).st ≠ .locked ∨ k.plan.isNone then s
  else if (s.treeChildren g).contains l then
    match sf with
    | none => s.joinChild l (missingWord k.planVer) 0
    | some x => if x.down then s else s.joinChild l (x.words.getD 0 (missingWord k.planVer)) x.norm0
  else if s.isParentLink l then
    match sf with
    | none => s
    | some x =>
      if !x.down then s else
      let s := s.modTt g (fun t => { t with heard := true })
      (List.range 8).foldl (fun s i =>
        match x.words[i]? with
        | none => s
        | some w =>
          let p := k.tt.bell - 1 - BitVec.ofNat 64 i
          if k.tt.lag.toNat < i then s
          else s.addReduced g p w (if i = 0 then some x.norm0 else if i = 1 then some x.norm1 else none)) s
  else s

/-- STATUS_CHILD_MISSING: a child's word has not arrived by the node's sending slot (R71). -/
def execStatusChildMissing (f l : Nat) (s : State) : State :=
  if f < 4 ∧ (s.seat f).plan.isSome ∧ (s.treeChildren f).contains l ∧ s.seatIx f = s.seatIx (fieldOfLink l) then
    s.joinChild l (missingWord (s.seat f).planVer) 0
  else s

end Sys2Proof.Machine
end

