-- ==== Sys2Proof/Machine/Bringup.lean ====
section
/-! DEFINITION. Link bring-up and its loss (R284, R295 to R301, Table 09-4), and the swap of a lane to the spare wavelength (R299). -/

namespace Sys2Proof.Machine

/-! ### Loss of a link -/

/-- The link is enabled and has not failed. -/
def LinkState.active (st : LinkState) : Bool := st != .off && st != .failed

/-- A link that is active takes a new state; one that its cartridge darkened stays DARK (R438). -/
def State.linkMove (s : State) (l : Nat) (st : LinkState) (reason : BitVec 4 := 0) : State :=
  if (s.link l).st.active && !((s.link l).st == .dark && (s.link l).combDark) then s.linkTo l st reason else s

/-- ABSENT_RECEIVED: the receiver acts on the first ABSENT block (R284). -/
def execAbsentReceived (l : Nat) (s : State) : State := s.linkMove l .absent

/-- WIPE_RECEIVED: the receiver acts on the first WIPE block (R284). -/
def execWipeReceived (l : Nat) (s : State) : State := s.linkMove l .wipe

/-- ABSENT_PATTERN_END: DARK, or SIGNAL where light is received (Table 09-4), unless its cartridge darkened the link (R438). -/
def execAbsentPatternEnd (l : Nat) (light : Bool) (s : State) : State :=
  if (s.link l).st = .absent then s.linkTo l (if light && !(s.link l).combDark then .signal else .dark) else s

/-- LIGHT_LOST: the link goes DARK; reason 1 (Tables 09-4, 09-10). -/
def execLightLost (l : Nat) (s : State) : State := s.linkMove l .dark 1

/-- Symbol errors past correction: 128 points on every wavelength of the link (Table 12-3). -/
def State.scoreAll (s : State) (l w : Nat) : State :=
  (List.range 9).foldl (fun t k => t.demerit (fieldOfLink l) 4 (waveIx l k) w) s

/-- FEC_LOCK_LOST: a LOCKED link fails with reason 3 (R296, R297, Table 12-3). -/
def execFecLockLost (l : Nat) (s : State) : State :=
  if (s.link l).st = .locked then (s.linkTo l .failed 3).scoreAll l 128 else s

/-! ### Bring-up (R295, R296, R300) -/

/-- Wavelengths of a mask. -/
def waves (m : BitVec 9) : List Nat := (List.range 9).filter (fun k => m.getLsbD k)

/-- LIGHT_DETECTED: light on at least eight of the nine wavelengths takes a DARK link to SIGNAL (R300); a link that its cartridge
darkened waits for a retrain (R438). -/
def execLightDetected (l : Nat) (mask : BitVec 9) (s : State) : State :=
  let k := s.link l
  if k.st = .dark ∧ !k.combDark ∧ !k.resetting ∧ 8 ≤ (waves mask).length then s.linkTo l .signal else s

/-- SIGNAL_TRAINED: equalisers have adapted, from presets or in full, or training has failed (Table 09-4). A link that holds no presets trains in
full; a full training stores every lane's presets, whose contents the manual leaves open (R298; log 4). -/
def execSignalTrained (l : Nat) (ok preset : Bool) (s : State) : State :=
  if (s.link l).st ≠ .signal then s
  else if !ok then s.linkTo l .failed 2
  else if preset && !(s.link l).presets.isEmpty then (s.linkTo l .aligned).modLink l (fun k => { k with preset := true })
  else ((s.linkTo l .aligned).modLink l (fun k =>
    { k with preset := false, presets := (List.range 8).map (fun i => Config.freeWord (s.free + i)) })).burn 8

/-- FEC_ALIGNED: FEC lock and flit alignment. -/
def execFecAligned (l : Nat) (s : State) : State := if (s.link l).st = .aligned then s.enterIdent l else s

/-- WIPE_PATTERN_END: the link returns to IDENT (Table 09-4). -/
def execWipePatternEnd (l : Nat) (s : State) : State := if (s.link l).st = .wipe then (if (s.link l).combDark then s.linkTo l .dark else s.enterIdent l) else s

/-- Lane map that a union of retired masks calls for (R300): every lane on its own wavelength, but λ8 carries a lane whose
wavelength is retired. -/
def laneMap (union : BitVec 9) : BitVec 32 :=
  match (waves union).find? (fun j => decide (j < 8)) with
  | some j => BitVec.ofNat 32 ((List.range 8).foldl (fun n k => n + fieldAt (if k = j then 8 else k) (4 * k)) 0)
  | none => 0x76543210

/-- The seat takes the job's count from an IDENT flit of its tree parent, corrected by FL_DELAY (R295, R48). -/
def State.takeCount (s : State) (l : Nat) (d : Ident) : State :=
  let g := fieldOfLink l
  let t := (s.seat g).tt
  if t.counted || d.nocount || !s.isParentLink l then s
  else
    let ahead := (d.offsetPs.toNat + (s.link l).delay.toNat) * 17 / (20000 * t.period.toNat)
    s.modSeat g (fun k => ({ k with tt := { k.tt with counted := true } } : Seat).setBell (d.bell + BitVec.ofNat 64 ahead))

/-- An IDENT flit that passes its checks: the maps agree, or the link realigns once; then ranging begins, and an echo measures the
round trip (R295, R300). -/
def State.identOk (s : State) (l : Nat) (d : Ident) (tripPs : BitVec 32) : State :=
  let k := s.link l
  let s := s.modLink l (fun k => { k with confirmed := true, peerLink := d.link.setWidth 5, echoDue := some d.seq })
  if k.st = .ident then
    let union := k.retired ||| d.retired
    let map := laneMap union
    if 2 ≤ (waves union).length then s.linkTo l .failed 2
    else
      let s := s.modLink l (fun k => { k with map := map, spareUsed := (waves union).any (fun j => decide (j < 8)) })
      if (map ≠ k.map ∨ map ≠ d.map) ∧ !k.realigned then
        (s.linkTo l .signal).modLink l (fun k => { k with realigned := true })
      else (s.linkTo l .ranging).modLink l (fun k => { k with realigned := false, ranged := false })
  else if d.echo then
    (s.modLink l (fun k => { k with delay := BitVec.ofNat 32 ((tripPs.toNat - d.holdPs.toNat) / 2), ranged := true })).takeCount l d
  else if k.ranged then s.takeCount l d
  else s

/-- IDENT_RECEIVE: an IDENT flit arrives with the verdict of its tag (R295). An end without keys or an expected peer discards it. -/
def execIdentReceive (l : Nat) (tagOk : Bool) (d : Ident) (tripPs : BitVec 32) (s : State) : State :=
  let k := s.link l
  if 24 ≤ l ∨ (k.st ≠ .ident ∧ k.st ≠ .ranging) then s
  else match k.keyEpoch with
    | none => s
    | some e =>
      if !k.nodeOk then s
      else if !tagOk then s.linkTo l .failed 4
      else if d.serial ≠ k.serial ∨ d.node ≠ k.node ∨ d.pool ≠ k.pool ∨ d.link.toNat ≠ k.wantLink ∨ d.jobEpoch ≠ e then s.linkTo l .failed 5
      else s.identOk l d tripPs

/-! ### Wavelength swap (R299) -/

/-- An LCTL message: its code (1 SWAP_REQ, 2 SWAP_ACK, 3 SWAP_NAK), lane and bell (log 14: the manual gives no layout). -/
def lctlFlit (code lane : Nat) (v : BitVec 64) : Flit :=
  { kind := 7, payload := leBytes 1 code ++ leBytes 1 lane ++ leBytes 8 v.toNat ++ List.replicate 246 0 }

/-- An LCTL message waits for an idle slot. -/
def State.lctl (s : State) (l code lane : Nat) (v : BitVec 64) : State :=
  s.modLink l (fun k => { k with lctl := k.lctl ++ [lctlFlit code lane v] })

/-- A Hall Monitor holds a swap pass for the link. -/
def State.swapPass (s : State) (l : Nat) : Bool :=
  (s.field (fieldOfLink l)).hm.passes.any (fun e => e.2.code == 4 && e.2.resource.toNat == l % 6)

/-- SWAP_REQ: sent by the end whose Hall Monitor holds the pass, for a verdict bell at least two periods ahead; on receipt the peer
answers SWAP_ACK if its Hall Monitor grants a pass, else SWAP_NAK. -/
def execSwapReq (l : Nat) (fromPeer : Bool) (lane : Nat) (bell : BitVec 64) (s : State) : State :=
  let g := fieldOfLink l
  let k := s.link l
  let now := (s.seat g).tt.bell
  if 24 ≤ l ∨ k.st ≠ .locked ∨ 8 ≤ lane then s
  else if fromPeer then
    let h := (s.field g).hm
    let p : Pass := { code := 4, resource := BitVec.ofNat 32 (l % 6) }
    match (if (s.blocker g p).isSome || k.swap.isSome then none else h.freePass) with
    | some i => ((s.modHm g (fun h => h.enter i p now)).modLink l (fun k =>
        { k with swap := some { lane := lane, bell := bell, fromPeer := true } })).lctl l 2 lane bell
    | none => s.lctl l 3 lane bell
  else if s.swapPass l ∧ k.swap = none ∧ !k.spareUsed ∧ now + 2 ≤ bell then
    (s.modLink l (fun k => { k with swap := some { lane := lane, bell := bell } })).lctl l 1 lane bell
  else s

/-- SWAP_ACK: the peer accepts; it counts when it has come by bell V − 1. -/
def execSwapAck (l : Nat) (s : State) : State :=
  let now := (s.seat (fieldOfLink l)).tt.bell
  s.modLink l (fun k => { k with swap := k.swap.map (fun w => if !w.fromPeer && decide (now + 1 < w.bell) then { w with acked := true } else w) })

/-- SWAP_NAK: the peer declines; the swap is given up and its pass returned. -/
def execSwapNak (l : Nat) (s : State) : State :=
  match (s.link l).swap with
  | some w => if w.fromPeer then s else
      (s.modLink l (fun k => { k with swap := none, lctl := k.lctl.filter (fun x => x.payload[0]? != some 1) })).endLinkPass l 4
  | none => s

/-- FL_LANES after a swap of a lane to λ8. -/
def Link.swapLane (k : Link) (lane : Nat) (retire : Option Nat) : Link :=
  { k with map := (k.map &&& ~~~(0xF#32 <<< (4 * lane))) ||| (8#32 <<< (4 * lane)), spareUsed := true,
           retired := match retire with
             | some w => k.retired ||| (1#9 <<< w)
             | none => k.retired }

/-- LANE_SWAP_EFFECT: at bell V, a verdict bell, or any in HOLD or with no plan (R374), with SWAP_ACK exchanged, both ends change FL_LANES; the end whose pass it is retires the lane's
wavelength. Without it neither changes. The passes end. -/
def execLaneSwapEffect (l : Nat) (s : State) : State :=
  let g := fieldOfLink l
  let k := s.link l
  match k.swap with
  | none => s
  | some w =>
    if w.bell ≠ (s.seat g).tt.bell then s
    else
      let old := bits k.map.toNat (4 * w.lane + 3) (4 * w.lane)
      let s := s.modLink l (fun k => { k with swap := none, lctl := [] })
      let s := if w.acked ∧ !k.spareUsed ∧ ((s.seat g).tt.judgedAt = some w.bell ∨ s.idleSeat g) then
          (let s := s.modLink l (fun k => k.swapLane w.lane (if w.fromPeer then none else some old))
           if w.fromPeer then s else s.modHm g (fun h => h.retire 4 (waveIx l old)))
        else s
      s.endLinkPass l 4

end Sys2Proof.Machine
end

