-- ==== Sys2Proof/Machine/Lpddr.lean ====
section
/-! DEFINITION. LPDDR keys and pages (R214, R225 to R232, R401, R402): derivation of a set of memory keys, rotation, the sweep, the end of
an old epoch, retirement copies and the patrol scrub (R210). -/

namespace Sys2Proof.Machine

/-! ### Where a block lies in DRAM, and what is stored there (R212, R213, R219 to R224) -/

/-- Channel page that serves a visible page of a field (R212, R214, R215): its own, or the spare or borrowed page it was retired to last, in
the order of the channel's retirements. -/
def Mc.channelPage (m : Mc) (p : Nat) : Nat :=
  let ch := p % 32
  let mine (q : Nat) : Nat := q % (lpField / 65536) / 32
  let l := m.remapped.filter (fun q => q % 32 == ch)
  match l.reverse.findIdx? (fun q => q == p) with
  | none => mine p
  | some j => let i := l.length - 1 - j
    if i < 16384 then 229376 + i else match (m.borrowed.filter (fun q => q % 32 == ch))[i - 16384]? with
    | some q => mine q
    | none => mine p

/-- Block of its channel, visible and spare counted together, that serves an LPDDR address (R213): 128 blocks to a page. -/
def Mc.channelBlock (m : Mc) (a : Nat) : Nat := 128 * m.channelPage (a / 65536) + a % 65536 / 512

/-- Byte of the channel where block `n` has its data, and where its metadata slot: segments of 8 KiB hold 15 blocks, then their slots (R213). -/
def dataAt (n : Nat) : Nat := n / 15 * 8192 + n % 15 * 512
def slotAt (n : Nat) : Nat := n / 15 * 8192 + 7680 + n % 15 * 32

/-- Package, channel of it, and the bytes of data and of metadata of an LPDDR address (R212, R213). -/
def State.dramOf (s : State) (a : Nat) : Nat × Nat × Nat × Nat :=
  let f := a / lpField
  let n := (s.field f).mc.channelBlock a
  (4 * f + channelOf a / 8, channelOf a % 8, dataAt n, slotAt n)

/-- Memory keys of a partition's epoch: derived from the memory root, or drawn from the DRBG once that is disconnected (R402, R422). -/
def State.memKeys (s : State) (part : Nat) (epoch : BitVec 8) (gen : Nat) : BitVec 768 :=
  if s.px.secrets || decide (gen ≤ s.px.rootGens) then Machine.memKeys s.px.nonce part epoch gen else Config.drbgKeys s.px.nonce gen

/-- Keys of a block: those of the set it was written under (R225, Table 14-2). -/
def State.blockKeys (s : State) (b : Nat) : BitVec 768 :=
  let t := s.blockTag b
  s.memKeys (s.partOf (b * 512 / lpField)) t.epoch t.gen

/-- The 544 bytes stored for a block: ciphertext and metadata slot as they were written (R219 to R224), and what has changed since. -/
def State.storedBlock (s : State) (b : Nat) : List Byte :=
  let t := s.blockTag b
  let x := lpCipher (s.blockKeys b) (512 * b) t.epoch (Memory.readN s.mem (512 * b) 512)
  (x ++ metaSlot (s.blockKeys b) (512 * b) t.epoch x).zipIdx.map (fun p => p.1 ^^^ Tab.get (fun _ => 0) s.flaws (544 * b + p.2))

/-! ### Key epochs -/

/-- A set of memory keys is derived for a list of fields (R401): the generation counter rises by one and names the set. -/
def State.newKeys (s : State) (fs : List Nat) (g : Nat → Nat → Mc → Mc) : State :=
  let n := s.px.gens + 1
  eachOf fs (fun f t => t.modMc f (g n.toNat f)) { s with px := { s.px with gens := n } }

/-- A controller goes on to a new epoch: its former one becomes old and the sweep starts at the field's first block (R227, R228). -/
def Mc.rotate (rate : BitVec 4) (n f : Nat) (m : Mc) : Mc :=
  { m with epoch := m.epoch + 1, old := m.epoch, oldLive := true, oldGen := m.gen, gen := some n, sweeping := true,
           next := f * lpField, rate := rate }

/-- KEY_ROTATION_EFFECT: at the effective bell every field installs the new keys and begins the sweep (R228). -/
def execKeyRotationEffect (f : Nat) (s : State) : State :=
  match (s.seat f).rotateAt with
  | some (b, rate) =>
    if 4 ≤ f ∨ (s.seat f).tt.bell < b ∨ (s.field f).mc.oldLive then s
    else (s.newKeys (s.seatFields f) (Mc.rotate rate)).modSeat f (fun k => { k with rotateAt := none })
  | none => s

/-- SWEEP_BLOCK: the next block is read under its own epoch and written under the current one; a block that fails its read stays as it
is (R229). Plaintext does not change. After the last block the sweep has ended. -/
def execSweepBlock (f : Nat) (s : State) : State :=
  let m := (s.field f).mc
  if 4 ≤ f ∨ !m.sweeping then s
  else
    let s := match s.readErr [f] m.next with
      | none =>
        let t := (s.noteCorrected [(m.next, 512)]).tagBlocks [m.next / 512]
        { t with flaws := t.flaws.filter (fun e => e.1 / 544 != m.next / 512) }
      | some e => s.noteErr f m.next e
    s.modMc f (fun m => { m with next := m.next + 512, sweeping := decide (m.next + 512 < (f + 1) * lpField) })

/-- OLD_EPOCH_ERASE: once the sweep has passed the last block and no read is in flight, the old keys go (R231); the field's key-sweep
pass is returned. -/
def execOldEpochErase (f : Nat) (s : State) : State :=
  let m := (s.field f).mc
  if 4 ≤ f ∨ m.sweeping ∨ !m.oldLive ∨ m.inflight ≠ 0 then s
  else (s.modMc f (fun m => { m with oldLive := false, oldGen := none })).modHm f (fun h =>
    { h with passes := h.passes.filter (fun e => e.2.code != 2) })

/-- PAGE_COPY_COMPLETE: a retirement copy has finished and waits for the verdict bell (R214); its pass is returned. -/
def execPageCopyComplete (f page : Nat) (s : State) : State :=
  if (s.field f).mc.copying.contains page then
    (s.modMc f (fun m => { m with copying := m.copying.filter (fun q => q != page), pending := m.pending ++ [page] })).modHm f
      (fun h => h.endPass 1 (page % 32))
  else s

/-- One word or block that a scrub found with a correctable error, rewritten: data unchanged, counted and scored (R210). On LPDDR the scrub pauses while a
key-sweep pass is held, and on a channel while its pass is held for the copy of a page (Table 12-9). -/
def State.scrubWord (s : State) (f a : Nat) : State :=
  match regionOf a with
  | .lpddr g =>
    if g = f ∧ !(s.field f).hm.passes.any (fun e => e.2.code == 2) ∧ !(s.field f).mc.copying.any (fun p => p % 32 == channelOf a) then
      { s.correctedBlock f a with flaws := s.flaws.filter (fun e => e.1 / 544 != a / 512 || s.blockOut (a / 512) == .failed) }
    else s
  | .desk c => if fieldOfCore c = f then { s.correctedWord a with ce := s.ce.filter (fun w => w != a / 8 * 8) } else s
  | .slate c => if fieldOfCore c = f then { s.correctedWord a with ce := s.ce.filter (fun w => w != a / 8 * 8) } else s
  | _ => s

/-- PATROL_SCRUB_PASS: a scrub of the field ends; `words` are the words and blocks it corrected. It takes the pass of each channel and tile in turn and
returns it (Table 12-8), so that it needs a free entry (R377; log 27). The channels of `margins` report their training margin (R365). Scrub passes whose channel copies no page are returned. -/
def execPatrolScrubPass (f : Nat) (words : List Nat) (margins : List (Nat × Nat)) (s : State) : State :=
  if 4 ≤ f then s
  else (margins.foldl (fun t x => t.takeLevel { field := f, kind := 3, index := x.1, input := 0, ratio := x.2 })
      (if (s.field f).hm.freePass.isNone then s else words.foldl (fun t a => t.scrubWord f a) s)).modHm f (fun h =>
    { h with passes := h.passes.filter (fun e => !(e.2.code == 1 && (s.field f).mc.copying.all (fun p => p % 32 != e.2.resource.toNat))) })

end Sys2Proof.Machine
end

