-- ==== Sys2Proof/Machine/Cubby.lean ====
section
/-! DEFINITION. The Librarian's Cubby service (R233 to R239, R244): spilling and prefetching records and setting READY. -/

namespace Sys2Proof.Machine

/-- A cubby control block as read (Table 07-9). -/
structure Ccb where
  at'     : Nat            -- its local address
  head    : Nat
  spill   : Nat
  low     : Nat
  release : Nat
  ring    : Nat            -- local address of the desk ring
  size    : Nat
  water   : Nat
  ready   : Bool
  turn    : Bool
  failed  : Bool

/-- Address of the CCB of core `j` of field `f`. -/
def ccbAt (f j : Nat) (b : Lb) : Nat := slateBase (500 * f + j) + b.ccb.toNat

/-- Read a CCB. -/
def State.readCcb (s : State) (f j : Nat) : State × Option Ccb :=
  let a := ccbAt f j (s.field f).lb
  match s.libRead f a 64 with
  | (s, some bs) =>
    let w (o n : Nat) : Nat := ofLe ((bs.drop o).take n)
    (s, some { at' := a, head := w 0 8, spill := w 8 8, low := w 16 8, release := w 24 8,
               ring := deskBase (500 * f + j) + w 0x28 4, size := w 0x2C 4, water := w 0x30 4,
               ready := bit (w 0x34 4) 0, turn := bit (w 0x34 4) 1, failed := bit (w 0x34 4) 2 })
  | (s, none) => (s, none)

/-- Length of a record from the trailer that ends at `q` (Table 07-8); none where no record can end there (log 16). -/
def recLen (q len : Nat) : Option Nat := if 64 ≤ len ∧ len % 64 = 0 ∧ len ≤ q then some len else none

/-- LEN of the trailer that ends at stream offset `q` in the ring. -/
def State.ringLen (s : State) (f : Nat) (k : Ccb) (q : Nat) : State × Option Nat :=
  if q < 64 ∨ k.size = 0 then (s, none) else
  match s.libRead f (k.ring + (q - 64) % k.size) 4 with
  | (s, some bs) => (s, recLen q (ofLe bs))
  | (s, none) => (s, none)

/-- Record boundaries in the ring from `q` down to `lo`, lowest first, while the next is at or above `lo`; `n` bounds the records. -/
def State.boundaries (s : State) (f : Nat) (k : Ccb) (lo : Nat) : Nat → Nat → List Nat → State × List Nat
  | 0, q, l => (s, q :: l)
  | n + 1, q, l =>
    if q ≤ lo then (s, q :: l) else
    match s.ringLen f k q with
    | (s, some m) => if lo ≤ q - m then State.boundaries s f k lo n (q - m) (q :: l) else (s, q :: l)
    | (s, none) => (s, q :: l)

/-- Copy stream bytes [q, q + n) from the ring to the segment, or back; the flag says that they have been written, which a pointer that covers
them waits for (R235). A write that waits for a seal has not (R58). -/
def State.moveRecord (s : State) (f seg : Nat) (k : Ccb) (q n : Nat) (spill : Bool) : State × Bool :=
  let ring := k.ring + q % k.size
  let src := if spill then ring else seg + q
  let dst := if spill then seg + q else ring
  if s.meetsSeal dst n then (s, false) else
  match s.libRead f src n with
  | (s, some bs) => (s.libWrite f dst bs, s.libOk f dst bs)
  | (s, none) => (s, false)

/-- Write a 64-bit field of a CCB. -/
def State.setCcb (s : State) (f : Nat) (k : Ccb) (off v : Nat) : State := s.libWrite f (k.at' + off) (leBytes 8 v)

/-- Forward (R237): SPILL comes back to a lowered HEAD; while more than WATER is unspilled, the oldest whole records go out, as far as they can
be moved. -/
def State.spillCore (s : State) (f seg : Nat) (k : Ccb) : State :=
  if k.head < k.spill then s.setCcb f k 8 k.head
  else if k.head - k.spill ≤ k.water then s
  else
    let (s, bs) := s.boundaries f k k.spill (k.head / 64 + 1) k.head []
    if bs.headD 0 ≠ k.spill then s
    else
      let out := (bs.zip (bs.drop 1)).foldl (fun (r : State × Nat) p =>
        if k.water < k.head - r.2 ∧ r.2 = p.1 then
          let m := r.1.moveRecord f seg k p.1 (p.2 - p.1) true
          (m.1, if m.2 then p.2 else r.2)
        else r) (s, k.spill)
      out.1.setCcb f k 8 out.2

/-- Backward (R238): at TURN, LOW and RELEASE become the lowest boundary at or above HEAD − R. -/
def State.turnCore (s : State) (f : Nat) (k : Ccb) : State :=
  let (s, bs) := s.boundaries f k (k.head - k.size) (k.head / 64 + 1) k.head []
  let q := bs.headD k.head
  (s.setCcb f k 16 q).setCcb f k 24 q

/-- One record of a prefetch: the record below `low` is brought back where the buffer has the room (R238); answers the new low end, none where the prefetch ends. -/
def State.prefetchOne (s : State) (f seg : Nat) (k : Ccb) (low : Nat) : State × Option Nat :=
  if low < 64 then (s, none) else
  match s.libRead f (seg + low - 64) 4 with
  | (s, none) => (s, none)
  | (s, some bs) =>
    match recLen low (ofLe bs) with
    | none => (s, none)
    | some m =>
      if k.release - (low - m) ≤ k.size then
        let r := s.moveRecord f seg k (low - m) m false
        (r.1, if r.2 then some (low - m) else none)
      else (s, none)

/-- Backward: the next older record is placed at its ring position once RELEASE − q ≤ R; `n` bounds the records of one sample. -/
def State.prefetch (s : State) (f seg : Nat) (k : Ccb) : Nat → Nat → State × Nat
  | 0, low => (s, low)
  | n + 1, low =>
    match s.prefetchOne f seg k low with
    | (s, none) => (s, low)
    | (s, some q) => State.prefetch s f seg k n q

/-- CUBBY_SAMPLE: the Librarian samples the CCB of one core (R237, R238). A core found FAILED counts its attempt once for the field
(Table 07-22). -/
def execCubbySample (c : Nat) (s : State) : State :=
  let f := fieldOfCore c
  let b := (s.field f).lb
  match b.segs.find? (fun g => g.core == c % 500) with
  | none => s
  | some g =>
    if 2000 ≤ c ∨ !b.enable then s else
    let seg := b.region.toNat + 65536 * g.offset.toNat
    match s.readCcb f (c % 500) with
    | (s, none) => s
    | (s, some k) =>
      let s := if k.failed ∧ !b.failed.contains (c % 500) then
          (if b.failed = [] then s.bump (lbBase f + 0x18) else s).modLb f (fun b => { b with failed := b.failed ++ [c % 500] })
        else s
      if b.redirect ∨ k.size = 0 then s
      else if !k.turn then (s.modLb f (fun b => { b with turned := b.turned.filter (fun j => j != c % 500) })).spillCore f seg k
      else if !b.turned.contains (c % 500) then
        (s.turnCore f k).modLb f (fun b => { b with turned := b.turned ++ [c % 500] })
      else
        let (s, low) := s.prefetch f seg k (k.low / 64 + 1) k.low
        if low = k.low then s else s.setCcb f k 16 low

/-- The CCB of a core after a redirect (R239): at a FIRST redirect the stream starts anew and LIMIT is written; READY is set. -/
def State.readyCore (s : State) (f : Nat) (first : Bool) (g : CubbySeg) : State :=
  let x := s.field f
  let a := ccbAt f g.core x.lb
  let s := if first then
      (s.libWrite f a (leBytes 32 0)).libWrite f (a + 0x20) (leBytes 8 (65536 * segUsable x.lb.region.toNat x.mc.borrowed g))
    else s
  match s.libRead f (a + 0x34) 1 with
  | (s, some bs) => s.libWrite f (a + 0x34) (leBytes 1 (if first then 1 else ofLe bs / 2 * 2 + 1))
  | (s, none) => s

/-- CUBBY_READY: the moves in flight at a redirect have ended; every CCB of the field is reset and READY (R239). -/
def execCubbyReady (f : Nat) (s : State) : State :=
  let b := (s.field f).lb
  if 4 ≤ f ∨ !b.enable ∨ !b.redirect then s
  else (b.segs.foldl (fun t g => t.readyCore f b.redirectFirst g) s).modLb f (fun b =>
    { b with redirect := false, turned := if b.redirectFirst then [] else b.turned })

end Sys2Proof.Machine
end

