-- ==== Sys2Proof/Machine/Mirror.lean ====
section
/-! DEFINITION. The mirror apply, its cross-check and the transfers of units (R257 to R266, R270 to R272). -/

namespace Sys2Proof.Machine

/-! ### The mirror update engine (R257, R202) -/

/-- Result of an apply of one unit: R200 on every element under the owner's indices, with clip factor `c` in place of CLIP. -/
def applyUnit (u : ShardUnit) (old tray : List Byte) (c : BitVec 32) (key : RngKey) : List Byte :=
  let mw := if u.fp32 then 4 else 3
  let at' (bs : List Byte) (o n : Nat) : Nat := ofLe ((bs.drop o).take n)
  let rec0 := old.drop (unitLen u - 64)
  let image := tray.take 20 ++ leBytes 4 c.toNat ++ (tray.drop 24).take 12 ++ rec0.drop 36
  let r0 := (updRecOf image).roll key.step.toNat
  let key := { key with layer := BitVec.ofNat 16 r0.layer }
  let fmt := if u.fp32 then 7 else 11
  let run := (List.range u.count).foldl (fun (p : List (Nat × Nat × Nat) × UpdRec) i =>
    let md := if u.fp32 then Rnd.rne else rndOf 1 key (u.idxBase.toNat + i)
    let g := valOf (if u.gradFp16 then 1 else 0) (at' tray (64 + 2 * i) 2)
    let x := fupdElem p.2 fmt md (valOf fmt (at' old (mw * i) mw)) g (valOf 0 (at' old (mw * u.count + 2 * i) 2))
      (valOf 1 (at' old ((mw + 2) * u.count + 2 * i) 2))
    (p.1 ++ [x.1], x.2.1)) ([], r0)
  run.1.flatMap (fun x => leBytes mw x.1) ++ run.1.flatMap (fun x => leBytes 2 x.2.1) ++
    run.1.flatMap (fun x => leBytes 2 x.2.2) ++ run.2.bytes image

/-- Seed of a step: its satchel slot's, own or copy; a slot that does not hold the step names none (log 14). -/
def seedOf (k : Slot) (step : BitVec 64) : BitVec 64 :=
  match k.hdr with
  | some h => if h.step = step then h.seed else 0
  | none => 0

/-- Philox key of a unit's apply: the owner's core number and the step being applied. -/
def applyKey (u : ShardUnit) (step seed : BitVec 64) : RngKey := { seed := seed, step := step, core := u.core }

/-- Field of the holder that applies a unit: its i-th lowest for the owner's i-th lowest (R257). The fields of a partition of n are n in a row from
a multiple of n (Table 01-1). -/
def State.holderField (s : State) (f : Nat) (u : ShardUnit) : Nat :=
  let fs := s.seatFields f
  fs.getD (u.core / 500 % fs.length) (s.seatIx f)

/-- State of a unit in the running apply. -/
def Cm.res (m : Cm) (u : ShardUnit) : UnitRes := Tab.get (fun _ => {}) m.units (unitIx u.core u.record)

def State.setRes (s : State) (f : Nat) (u : ShardUnit) (r : UnitRes) : State :=
  s.modCm f (fun m => { m with units := Tab.set (fun _ => {}) m.units (unitIx u.core u.record) r })

/-- CM_XCHK_LAST (Table 08-21). -/
def State.noteXchk (s : State) (g core record outcome : Nat) : State :=
  s.modLb g (fun b => { b with xchk := BitVec.ofNat 30 (core % 2048 + fieldAt (record % 65536) 11 + fieldAt outcome 27) })

/-- Old mirror bytes and tray bytes of a unit; none where either cannot be read. -/
def State.applyInput (s : State) (f : Nat) (u : ShardUnit) (step : BitVec 64) : State × Option (List Byte × List Byte) :=
  let g := s.holderField f u
  match s.libRead g ((s.seat f).regions.mirror + u.offset) (unitLen u) with
  | (s, none) => (s, none)
  | (s, some old) =>
    match s.libRead g ((s.seat f).trayBase step + u.trayOff) (trayUnitLen u) with
    | (s, none) => (s, none)
    | (s, some t) => (s, some (old, t))

/-- Every unit that field `g` applies has been decided. -/
def State.fieldDecided (s : State) (f g : Nat) : Bool :=
  (s.seat f).mirrorUnits.all (fun u => s.holderField f u != g || ((s.seat f).cm.res u).outcome != 0)

/-- A unit is decided (Table 08-4): its data is written to the mirror, pushed if it must be, scored, and counted; CM_XCHK_LAST names one whose
first comparison failed or that is UNRESOLVED (R262). -/
def State.settle (s : State) (f : Nat) (u : ShardUnit) (outcome : Nat) (data : Option (List Byte)) (push : Bool) : State :=
  let g := s.holderField f u
  let a := (s.seat f).regions.mirror + u.offset
  let r := (s.seat f).cm.res u
  let s := match data with
    | some bs => s.libWrite g a bs
    | none => s
  let s := s.setRes f u { r with outcome := BitVec.ofNat 3 outcome, asked := false, second := [], unacked := push }
  let s := if push then s.sendUnit f (s.seat f).regions.mirror u .toShard else s
  let s := s.modLb g (fun b => { b with unitsDone := b.unitsDone + 1, unresolved := b.unresolved || outcome == 6,
                                        ownerFix := b.ownerFix || outcome == 4 })
  let s := if r.failed || outcome == 6 then s.noteXchk g u.core u.record outcome else s
  match outcome with
  | 2 => s.demerit g 7 0 8
  | 3 => s.demerit (a / lpField) 3 (channelOf a) 64
  | 4 => s.modCm f (fun m => { m with fixInAttempt := true })
  | _ => s

/-- Bytes of a run: a disturbed run yields bytes the manual does not fix (log 4). -/
def State.runBytes (s : State) (good : List Byte) (bad : Bool) : State × List Byte :=
  if bad then (s.burn good.length, freeBytes s.free good.length) else (s, good)

/-- Decision by runs alone (R265, R271): two agreeing runs out of at most three. A clip correction pushes the unit to its owner. -/
def State.settleAlone (s : State) (f : Nat) (u : ShardUnit) (good : List Byte) (disturb : List Bool) (push : Bool) : State :=
  let (s, m1) := s.runBytes good (disturb.getD 0 false)
  let (s, m2) := s.runBytes good (disturb.getD 1 false)
  if m1 = m2 then s.settle f u 5 (some m1) push
  else
    let (s, m3) := s.runBytes good (disturb.getD 2 false)
    if m3 = m1 ∨ m3 = m2 then s.settle f u 5 (some m3) push else s.settle f u 6 none false

/-- The vote of R259 on a unit whose owner CRC is held. -/
def State.vote (s : State) (f : Nat) (u : ShardUnit) (co : BitVec 32) (good tray : List Byte) (disturb : List Bool) : State :=
  let (s, m1) := s.runBytes good (disturb.getD 0 false)
  if crc32c m1 = co then s.settle f u 1 (some m1) false
  else
    let g := s.holderField f u
    let s := (s.bump (cmBase g + 0x70)).noteXchk g u.core u.record 0
    let (s, m2) := s.runBytes good (disturb.getD 1 false)
    let r := { (s.seat f).cm.res u with failed := true }
    let s := s.setRes f u r
    if crc32c m2 = co then s.settle f u 2 (some m2) false
    else (s.setRes f u { r with asked := true, second := m2 }).tell f (.ask u.core u.record tray)

/-- UNIT_APPLY_DONE: the engine has run on a unit (R257) and votes; `disturb` says which of its runs were disturbed. A unit whose owner
CRC has not come waits, unless its owner is lost (R270). -/
def execUnitApplyDone (f core record : Nat) (disturb : List Bool) (s : State) : State :=
  let m := (s.seat f).cm
  match m.applyStep, (s.seat f).mirrorUnit core record with
  | some step, some u =>
    let st := (s.field (s.holderField f u)).lb.mState
    let r := m.res u
    if 4 ≤ f ∨ (st ≠ 3 ∧ st ≠ 4) ∨ r.outcome ≠ 0 ∨ r.asked then s
    else
      let alone := m.applyClip && f32Bits (updRecOf (Memory.readN s.mem ((s.seat f).trayBase step + u.trayOff) 64)).clip != m.applyC.toNat
      if !alone && r.ownerCrc.isNone && !m.serving then s
      else match s.applyInput f u step with
        | (s, none) => s.settle f u 6 none false
        | (s, some (old, tray)) =>
          let good := applyUnit u old tray m.applyC (applyKey u step (seedOf (m.copySlot (step.toNat % 3)) step))
          match (if alone then none else r.ownerCrc) with
          | some co => s.vote f u co good tray disturb
          | none => s.settleAlone f u good disturb alone
  | _, _ => s

/-- OWNER_CRC_RECEIVE: the owner's CRC of a unit of the step being applied (R258). -/
def execOwnerCrcReceive (f core record : Nat) (crc : BitVec 32) (s : State) : State :=
  let m := (s.seat f).cm
  match m.applyStep, (s.seat f).mirrorUnit core record with
  | some _, some u => if f < 4 ∧ (m.res u).outcome = 0 then s.setRes f u { m.res u with ownerCrc := some crc } else s
  | _, _ => s

/-! ### Recompute (R260) -/

/-- Before the apply deadline of the step after the committed one (R260). -/
def Seat.beforeDeadline (k : Seat) : Bool :=
  k.cm.live == k.cm.committed || (k.cm.live == k.cm.committed + 1 && decide (k.tt.stepPeriod < k.cm.deadline))

/-- RECOMPUTE_REQUEST: the owner recomputes a unit from its other shard buffer and the tray unit sent with the request, or answers
none after the deadline. Where the result is its committed unit, which the holder then copies (MIRROR_FIX, R259), the unit goes out with the answer. -/
def execRecomputeRequest (f core record : Nat) (tray : List Byte) (s : State) : State :=
  let k := s.seat f
  match k.unit core record with
  | none => s
  | some u =>
    if 4 ≤ f ∨ !k.cm.partnerOk then s
    else if !k.beforeDeadline ∨ tray.length ≠ trayUnitLen u then s.tell f (.reply core record none)
    else match s.libRead (core / 500) (k.workingBase + u.offset) (unitLen u) with
      | (s, none) => s.tell f (.reply core record none)
      | (s, some old) =>
        let step := k.cm.committed
        let o2 := applyUnit u old tray k.cm.applyC (applyKey u step (seedOf (k.cm.ownSlot (step.toNat % 3)) step))
        let s := s.tell f (.reply core record (some (crc32c o2)))
        match s.libRead (core / 500) (k.committedBase + u.offset) (unitLen u) with
        | (s, some bs) => if crc32c bs = crc32c o2 then s.sendUnit f k.committedBase u .toMirror else s
        | (s, none) => s

/-- Bytes [lo, lo + n) of a region that bulk flits have brought, where all of their 256-byte units have landed (R264, R443). -/
def Cm.landed (m : Cm) (region lo n : Nat) : Option (List Byte) :=
  ((List.range ((lo + n + 255) / 256 - lo / 256)).mapM (fun i => Tab.find m.landing (4 * (lo / 256 + i) + region))).map (fun bs =>
    (bs.flatten.drop (lo % 256)).take n)

/-- The units of the landing buffer that lie wholly in [lo, lo + n) of a region have been used. -/
def Cm.unland (m : Cm) (region lo n : Nat) : Cm :=
  { m with landing := m.landing.filter (fun e => !(e.1 % 4 == region && decide (lo ≤ 256 * (e.1 / 4)) && decide (256 * (e.1 / 4) + 256 ≤ lo + n))) }

/-- RECOMPUTE_REPLY: the owner's recompute decides the vote (R259); `bytes` are the owner's unit, copied on MIRROR_FIX. -/
def execRecomputeReply (f core record : Nat) (crc : Option (BitVec 32)) (bytes : List Byte) (s : State) : State :=
  let m := (s.seat f).cm
  match (s.seat f).mirrorUnit core record with
  | none => s
  | some u =>
    let r := m.res u
    if 4 ≤ f ∨ !r.asked then s
    else match crc with
      | none => s.settle f u 6 none false
      | some c =>
        if r.ownerCrc = some c then
          let bytes := (m.landed 0 u.offset (unitLen u)).getD bytes
          (if crc32c bytes = c ∧ bytes.length = unitLen u then (s.modCm f (fun m => m.unland 0 u.offset (unitLen u))).settle f u 3 (some bytes) false
           else if r.again then s.settle f u 6 none false
           else (s.setRes f u { r with again := true }).tell f (.ack core record true false))
        else if c = crc32c r.second then s.settle f u 4 (some r.second) true
        else s.settle f u 6 none false

/-! ### End of an apply (R261) -/

/-- The units of an outcome. -/
def Seat.unitsWith (k : Seat) (outcome : BitVec 3) : List ShardUnit := k.mirrorUnits.filter (fun u => (k.cm.res u).outcome == outcome)

/-! ### Handover (R267, R270, R271) -/

/-- Bytes of a satchel slot: header and inputs, and the history block where the plan has one. -/
def Seat.slotLen (k : Seat) (x : Slot) : Nat :=
  match x.hdr with
  | some h => if k.regions.histLen = 0 then 64 + h.inputLen else histSlotOff h + k.regions.histLen
  | none => 0

/-- A slot goes out with its state (log 14): index, state code, CRC; its bytes wait for the bulk slots of the transfers that write a satchel, or a
satchel copy. One that cannot be read is not sent (R221). -/
def State.sendSlot (s : State) (f base i : Nat) (x : Slot) (kind : BulkKind) : State :=
  let n := (s.seat f).slotLen x
  match s.libRead (s.seatIx f) base n with
  | (s, some bs) => ((if n = 0 then s else s.forward f kind base 0 n)).tell f (.unit i x.st.code (crc32c bs))
  | (s, none) => s

/-- The partner serves the four pulls of Table 08-7 in order. -/
def State.servePulls (s : State) (f : Nat) : State :=
  let k := s.seat f
  let s := s.modLbs f (fun b => { b with mState := 5 })
  let s := k.mirrorUnits.foldl (fun t u => t.sendUnit f k.regions.mirror u .toShard) s
  let s := eachOf (List.range 3) (fun i t => t.sendSlot f (k.copyBase i) i (k.cm.copySlot i) .toSatchel) s
  let s := k.units.foldl (fun t u => t.sendUnit f k.committedBase u .toMirror) s
  eachOf (List.range 3) (fun i t => t.sendSlot f (k.satchelBase i) i (k.cm.ownSlot i) .toCopy) s

/-- A Handover is judged once no apply runs, by CM_MIRROR_FOR and CM_MIRROR_STATE: MIRROR_BEHIND below C, UNRESOLVED, SELF_CHECKED for the expert
form (R271); else the pulls are served. -/
def State.handGo (s : State) (f : Nat) : State :=
  let k := s.seat f
  match k.cm.handReq with
  | none => s
  | some r =>
    let refuse (st : BitVec 16) (d : BitVec 64) : State :=
      (s.modCm f (fun m => { m with serving := false, handReq := none })).respond r st d
    if (s.seatFields f).any (fun g => let b := (s.field g).lb; decide (b.mState < 2) || decide (b.mirrorFor < k.cm.handStep)) then
      refuse stMirrorBehind (s.field f).lb.mirrorFor
    else if (s.seatFields f).any (fun g => (s.field g).lb.unresolved) then
      refuse stUnresolved (match k.unitsWith 6 with | u :: _ => BitVec.ofNat 64 (u.core + fieldAt u.record 16) | [] => 0)
    else if r.expert ∧ (s.seatFields f).any (fun g => (s.field g).lb.selfChecked) then
      refuse stSelfChecked (BitVec.ofNat 64 (k.unitsWith 5).length)
    else s.servePulls f

/-- APPLY_COMPLETE: every unit has been decided: CM_MIRROR_FOR := s, every field's bits say what its own units were, and the summary goes to the
owner (R261, R277). -/
def execApplyComplete (f : Nat) (s : State) : State :=
  let k := s.seat f
  match k.cm.applyStep with
  | none => s
  | some step =>
    if 4 ≤ f ∨ !k.mirrorUnits.all (fun u => (k.cm.res u).outcome != 0) ∨
        !(s.seatFields f).all (fun g => decide (2 ≤ (s.field g).lb.mState.toNat)) then s
    else
      let unres := !(k.unitsWith 6).isEmpty
      let has (g : Nat) (o : BitVec 3) : Bool := (k.unitsWith o).any (fun u => s.holderField f u == g)
      let s := eachOf (s.seatFields f) (fun g t => t.modLb g (fun b =>
        { b with mirrorFor := step, mState := if b.mState = 3 ∨ b.mState = 4 then 2 else b.mState,
                 verified := !has g 6 && !has g 5, selfChecked := has g 5 })) s
      let s := s.modCm f (fun m => { m with applyStep := none })
      (s.tell f (.summary { step := step, unresolved := unres, ownerFix := (k.unitsWith 4).map (fun u => (u.core, u.record)) })).handGo f

/-! ### The owner's side (R261, R262, R266, R274) -/

/-- A checkpoint that waits for the summary or for corrected units goes on when no operation of it is open (R317, R322). -/
def State.ckPoke (s : State) (f : Nat) : State :=
  let k := s.seat f
  if k.ck.waitLand && !k.cm.clipDue then (s.modCk f (fun c => { c with waitLand := false })).ckGo f
  else if (s.seatLinks f).all (fun l => (s.link l).ops.isEmpty) then s.ckSummary f
  else s

/-- SUMMARY_RECEIVE: the holder's summary of the committed step; OWNER_FIX units that have not landed are waited for. One of an earlier
step serves only the checkpoint of that step (R322). -/
def execSummaryReceive (f : Nat) (sm : Summary) (s : State) : State :=
  let m := (s.seat f).cm
  if 4 ≤ f ∨ !m.partnerOk then s
  else
    let s := s.modCm f (fun m => { m with partnerFor := sm.step })
    let s := if (s.seat f).ck.rereads && (s.seat f).ck.step == sm.step then s.modCk f (fun c => { c with summary := some sm }) else s
    if sm.step ≠ m.committed then s.ckPoke f
    else (s.modCm f (fun m =>
      { m with summary := some sm, ownFixDue := sm.ownerFix.filter (fun p => !m.fixLanded.contains p) })).ckPoke f

/-- Record by which acknowledgements name a satchel slot, whose index stands in place of the core (log 14). -/
def slotRecord : Nat := 65536

/-- A unit, or satchel slot, goes out once more; `own` says that it is of the seat's own shard or Satchel, else of its mirror or copy. -/
def State.resend (s : State) (f core record : Nat) (own : Bool) : State :=
  let k := s.seat f
  if record = slotRecord then
    (if own then s.sendSlot f (k.satchelBase core) core (k.cm.ownSlot core) .toCopy
     else s.sendSlot f (k.copyBase core) core (k.cm.copySlot core) .toSatchel)
  else match (if own then k.unit core record else k.mirrorUnit core record) with
    | some u => s.sendUnit f (if own then k.committedBase else k.regions.mirror) u (if own then .toMirror else .toShard)
    | none => s

/-- A sent unit has failed its CRC twice: CM_XCHK_LAST of the field that holds it reports it, and a service to a substitute ends TRANSFER (R264). -/
def State.sendFailed (s : State) (f core record : Nat) (own : Bool) : State :=
  let k := s.seat f
  let s := s.noteXchk (if record = slotRecord then s.seatIx f else if own then core / 500 else match k.mirrorUnit core record with | some u => s.holderField f u | none => s.seatIx f) core record 6
  if !k.cm.serving then s
  else
    let s := s.modSeat f (fun k =>
      { k with cm := { k.cm with serving := false, handReq := none }, bulkOut := k.bulkOut.filter (fun x => (bulkRegion x.kind).isNone) })
    (s.modLbs f (fun b => { b with mState := if b.mState = 5 then 2 else b.mState })).respondTo k.cm.handReq stTransfer
      (BitVec.ofNat 64 (core + fieldAt record 16))

/-- UNIT_TRANSFER_ACK: the receiver has acknowledged a unit, or says that its CRC failed: a pushed unit then has landed (R266), a failed one is sent
once more, and a second failure ends the transfer (R264). `own` is as in `State.resend`. -/
def execUnitTransferAck (f core record : Nat) (own ok : Bool) (s : State) : State :=
  if 4 ≤ f then s
  else
    let k := s.seat f
    let e := (own, core, record)
    if ok then
      let s := s.modCm f (fun m => { m with resent := m.resent.filter (fun x => x != e) })
      match (if own then none else k.mirrorUnit core record) with
      | some u => s.setRes f u { k.cm.res u with unacked := false }
      | none => s
    else if k.cm.resent.contains e then (s.modCm f (fun m => { m with resent := m.resent.filter (fun x => x != e) })).sendFailed f core record own
    else (s.modCm f (fun m => { m with resent := m.resent ++ [e] })).resend f core record own

/-! ### Transfers into this seat (R264, R270, R271) -/

/-- The mirror is whole and current at a step of the partner's, every unit of it good (R253, Table 08-7). -/
def State.mirrorFilled (s : State) (f : Nat) (step : BitVec 64) : State :=
  (s.modCm f (fun m => { m with units := [], partnerStep := some step })).modLbs f (fun b =>
    { b with mirrorFor := step, mState := 2, verified := true, selfChecked := false, unresolved := false })

/-- A transfer has landed its last unit: a fill makes the mirror current (R253), the pull of the mirror too (Table 08-7). -/
def State.xferDone (s : State) (f : Nat) (x : Xfer) : State :=
  let s := s.modCm f (fun m => m.setXfer x none)
  match x.kind with
  | .fill => (s.mirrorFilled f x.step).respondTo x.req stOk
  | .pullShard => s.modSeat f (fun k => { k with shardVer := some k.planVer, noShard := false })
  | .pullMirror => s.mirrorFilled f x.step
  | _ => s

/-- The transfer moves satchel slots. -/
def XferKind.slots (k : XferKind) : Bool := k == .pullSatchel || k == .pullSatchelCopy

/-- What the sender holds of a transfer is its own: its shard or its Satchel. -/
def XferKind.ofOwner (k : XferKind) : Bool := k == .fill || k == .pullMirror || k == .pullSatchelCopy

/-- Acknowledge a unit or slot of a transfer, or say that it failed its CRC. -/
def State.tellAck (s : State) (f : Nat) (x : Xfer) (p : Nat × Nat) (ok : Bool) : State :=
  s.tell f (.ack p.1 (if x.kind.slots then slotRecord else p.2) x.kind.ofOwner ok)

/-- A unit or slot of a transfer has landed. -/
def State.landed (s : State) (f : Nat) (x : Xfer) (p : Nat × Nat) : State :=
  let y := { x with due := x.due.filter (fun q => q != p) }
  let s := s.tellAck f x p true
  if y.due = [] then s.xferDone f x else s.modCm f (fun m => m.setXfer x (some y))

/-- A unit has failed its CRC: it is sent once more; a second failure ends the transfer (R264). A substitute whose pull ends so is ASSUMING again:
its pulls begin anew under another Handover (log 14). -/
def State.badUnit (s : State) (f g : Nat) (x : Xfer) (p : Nat × Nat) : State :=
  if x.failed.contains p then
    let s := s.modCm f (fun m => if x.kind = .fill then m.setXfer x none else { m with xfers := [], seatState := if m.seatState = 3 then 2 else m.seatState })
    ((s.noteXchk g p.1 p.2 6).tellAck f x p false).respondTo x.req stTransfer (BitVec.ofNat 64 (p.1 + fieldAt p.2 16))
  else (s.modCm f (fun m => m.setXfer x (some { x with failed := x.failed ++ [p] }))).tellAck f x p false

/-- State of a pulled slot (R271): a FILLING one arrives FREE. -/
def pulledState (code : Nat) : SlotState :=
  match code with
  | 2 => .complete
  | 3 => .live
  | 4 => .held
  | _ => .free

/-- A pulled satchel slot: `core` is its index and `record` the code of its state at the partner (log 14). -/
def State.landSlot (s : State) (f i code : Nat) (bytes : List Byte) (copy : Bool) : State :=
  let st := pulledState code
  let x : Slot := if st = .free then {} else
    { st := st, hdr := some (satHeaderOf bytes), arrived := [(0, (satHeaderOf bytes).inputLen)],
      histLen := ofLe ((bytes.drop 44).take 4), histCrc := BitVec.ofNat 32 (ofLe ((bytes.drop 56).take 4)) }
  let k := s.seat f
  let s := if st = .free then s else s.libWrite (s.seatIx f) (if copy then k.copyBase i else k.satchelBase i) bytes
  s.modCm f (fun m => if copy then m.setCopy i x else m.setOwn i x)

/-- A pushed or fixed unit lands in the owner's committed buffer (R259, R265, R266): clip pushes end when every unit carries c. -/
def State.landPush (s : State) (f : Nat) (u : ShardUnit) (bytes : List Byte) (crc : BitVec 32) : State :=
  let k := s.seat f
  let p := (u.core, u.record)
  if crc32c bytes ≠ crc ∨ bytes.length ≠ unitLen u then
    let s := s.tell f (.ack u.core u.record false false)
    if k.cm.failedXfer.contains p then s.noteXchk (u.core / 500) u.core u.record 6
    else s.modCm f (fun m => { m with failedXfer := m.failedXfer ++ [p] })
  else
    let old := if k.cm.clipDue then s.unitClip k.committedBase u else (s, none)
    let s := (old.1.libWrite (u.core / 500) (k.committedBase + u.offset) bytes).tell f (.ack u.core u.record false true)
    if k.cm.clipDue && old.2 != some k.cm.applyC.toNat then
      let r := s.clipOpen f k.cm.applyC
      (r.1.modCm f (fun m =>
        { m with clipDue := r.2, xfers := if r.2 then m.xfers else m.xfers.filter (fun x => x.kind != .clipPush) })).ckPoke f
    else
      let s := s.demerit (u.core / 500) 1 (s.tileOf u.core) 64
      let s := s.modSeat f (fun k =>
        { k with cm := { k.cm with ownFixDue := k.cm.ownFixDue.filter (fun q => q != p), fixLanded := k.cm.fixLanded ++ [p] },
                 ck := if k.ck.rereads then { k.ck with rewrites := k.ck.rewrites ++ s.chunksOfUnit f u } else k.ck })
      s.ckPoke f

/-- The first unit that reaches a substitute in ASSUMING begins its pulls (R270, Table 08-7): CM_SEAT reads PULLING. -/
def State.beginPulls (s : State) (f : Nat) : State :=
  let k := s.seat f
  if k.cm.seatState ≠ 2 ∨ k.plan.isNone then s
  else
    let own := k.units.map (fun u => (u.core, u.record))
    let held := k.mirrorUnits.map (fun u => (u.core, u.record))
    let slots := (List.range 3).map (fun i => (i, 0))
    let x (kind : XferKind) (due : List (Nat × Nat)) : List Xfer := if due = [] then [] else [{ kind := kind, step := k.cm.committed, due := due }]
    let s := s.modCm f (fun m => { m with seatState := 3, xfers := x .pullShard own ++ x .pullSatchel slots ++ x .pullMirror held ++ x .pullSatchelCopy slots })
    s.modLbs f (fun b => { b with mState := 1 })

/-- Region, offset in it and length of a unit, or satchel slot, that UNIT_TRANSFER_RECEIVE names; a slot is as long as the command says. -/
def Seat.landsAt (k : Seat) (core record n : Nat) : Nat × Nat × Nat :=
  let at' (region : Nat) (u : Option ShardUnit) : Nat × Nat × Nat := match u with | some u => (region, u.offset, unitLen u) | none => (region, 0, n)
  match k.xfer.map Xfer.kind with
  | some .pullSatchel => (2, 0, n)
  | some .pullSatchelCopy => (3, 0, n)
  | some .fill | some .pullMirror => at' 0 (k.mirrorUnit core record)
  | _ => at' 1 (k.unit core record)

/-- UNIT_TRANSFER_RECEIVE: a unit arrives with its CRC and is written only if they agree (R264). Where bulk flits have brought the whole of it to the
Librarian's landing buffer the unit is what they brought, and they leave the buffer; else it is the command's `bytes` (log 14). -/
def execUnitTransferReceive (f core record : Nat) (bytes : List Byte) (crc : BitVec 32) (s : State) : State :=
  let s := s.beginPulls f
  let w := (s.seat f).landsAt core record bytes.length
  let bytes := ((s.seat f).cm.landed w.1 w.2.1 w.2.2).getD bytes
  let s := s.modCm f (fun m => m.unland w.1 w.2.1 w.2.2)
  let k := s.seat f
  if 4 ≤ f then s
  else match k.xfer with
    | none =>
      match k.unit core record with
      | some u => if k.cm.partnerOk then s.landPush f u bytes crc else s
      | none => s
    | some x =>
      let slot := x.kind.slots
      let p : Nat × Nat := if slot then (core, 0) else (core, record)
      if !x.due.contains p then s
      else if slot then
        (if crc32c bytes ≠ crc then s.badUnit f (s.seatIx f) x p
         else (s.landSlot f core record bytes (x.kind == .pullSatchelCopy)).landed f x p)
      else match (if x.kind = .pullShard then k.unit core record else k.mirrorUnit core record) with
        | none => s
        | some u =>
          let g := if x.kind = .pullShard then core / 500 else s.holderField f u
          if crc32c bytes ≠ crc ∨ bytes.length ≠ unitLen u then s.badUnit f g x p
          else
            let base := if x.kind = .pullShard then k.committedBase else k.regions.mirror
            (s.libWrite g (base + u.offset) bytes).landed f x p

/-- HANDOVER_PULLS_DONE: the substitute is SEATED once its pulls have ended (R272); the partner ends its service and answers the
Handover. -/
def execHandoverPullsDone (f : Nat) (s : State) : State :=
  let m := (s.seat f).cm
  if 4 ≤ f then s
  else if m.seatState = 3 ∧ m.xfers = [] then s.modCm f (fun m => { m with seatState := 4 })
  else if m.serving then
    ((s.modCm f (fun m => { m with serving := false, handReq := none })).modLbs f (fun b =>
      { b with mState := if b.mState = 5 then 2 else b.mState })).respondTo m.handReq stOk
  else s

end Sys2Proof.Machine
end

