-- ==== Sys2Proof/Machine/Slate.lean ====
section
/-! DEFINITION. What every Slate request goes through before its command acts (R27, R333, R337, R342, R345, R351, R423): its session, its
sequence number, the target under a wipe, the rights of Table 11-5. -/

namespace Sys2Proof.Machine

/-- Rights of a command (Table 11-5); `bound7` is Bound with PART 7 Owner. -/
inductive Rights where
  | any | owner | bound | bound7 | boundOwner
  deriving DecidableEq, Repr

/-- A partition has a bound session. -/
def State.hasBound (s : State) (p : BitVec 3) : Bool :=
  (List.range 4).any (fun i => match s.slot i with | some k => k.bound && k.part == p | none => false)

/-- The session is bound to the partition, or is the owner's and nothing is bound to it (R345). -/
def State.boundTo (s : State) (k : Session) (p : BitVec 3) : Bool :=
  s.partLive p.toNat && ((k.bound && k.part == p) || (k.owner && !s.hasBound p))

/-- A session's right to a command on a target. A partition code that is not in force gives no right (log 15). -/
def State.allowed (s : State) (k : Session) (p : BitVec 3) (x : Rights) : Bool :=
  match x with
  | .any => p == 7 || s.partLive p.toNat
  | .owner => k.owner && (p == 7 || s.partLive p.toNat)
  | .bound => s.boundTo k p
  | .bound7 => if p = 7 then k.owner else s.boundTo k p
  | .boundOwner => if p = 7 then k.owner else s.boundTo k p || (k.owner && s.partLive p.toNat)

/-- Lowest field of the target of a request; 0 for the module. -/
def reqField (r : Req) : Nat := (partFields r.part.toNat).headD 0

/-- The target is under a blackboard wipe: its partition, or the whole module (R351). -/
def State.wipingTarget (s : State) (p : BitVec 3) : Bool :=
  (s.px.wStage != 0 && s.px.wScope == 7) || (p != 7 && s.partLive p.toNat && (s.seat ((partFields p.toNat).headD 0)).wiping)

/-- An entry goes to the log that R345 and R355 name: the target partition's; for PART 7 that of the requester's bound partition, else the
module's. -/
def State.logAt (s : State) (k : Option Session) (p : BitVec 3) (e : VEntry) : State :=
  if p ≠ 7 ∧ s.partLive p.toNat then s.vlog ((partFields p.toNat).headD 0) e
  else match k with
    | some x => if x.bound then s.vlog ((partFields x.part.toNat).headD 0) e else s.modVlog e
    | none => s.modVlog e

/-- Log a refused request (R345, R355). -/
def State.logDenied (s : State) (i : Nat) (k : Session) (r : Req) (cls cmd : Nat) : State :=
  s.logAt (some k) r.part { source := 6, code := 0x20, unitId := BitVec.ofNat 16 i, loc := BitVec.ofNat 32 (cls + 256 * cmd) }

/-- Class and command in DETAIL of DENIED. -/
def opDetail (cls cmd : Nat) : BitVec 64 := BitVec.ofNat 64 (cls + 256 * cmd)

/-- A refusal with its log entry. -/
def State.deny (s : State) (r : Req) (cls cmd : Nat) : State :=
  match s.session r.sess with
  | some (i, k) => (s.logDenied i k r cls cmd).respond r stDenied (opDetail cls cmd)
  | none => s

/-- Classes and commands served while sealed for return (R423): Session, Attest, Health CARDS, Read REGS, Maintenance TOKEN, and the
RETURN that leaves the state. -/
def sealedServes (cls cmd : Nat) : Bool :=
  cls == 1 || cls == 0x0A || (cls == 7 && cmd == 1) || (cls == 5 && cmd == 4) || (cls == 8 && (cmd == 7 || cmd == 8))

/-- A request seen for the first time: it counts, and its session remembers it; older responses go (R342, R343). -/
def Session.accept (k : Session) (q : BitVec 64) : Session :=
  let h := if k.h < q then q else k.h
  let k := { k with h := h, seen := q :: k.seen.filter (seqHeld h), busy := q :: k.busy }
  { k with kept := k.keeps k.kept }

/-- A copy of a request already seen (R342): the answer that stands. -/
def State.again (s : State) (k : Session) (r : Req) : State :=
  if k.busy.contains r.seq then s.sendTo k (s.respOf r stInProgress 0 .empty)
  else match k.kept.find? (fun x => x.seq == r.seq) with
    | some x => s.sendTo k { x with replay := true, vlan := r.vlan, dst := r.src }
    | none => s.sendTo k (s.respOf r stDupExpired (match k.done.find? (fun e => e.1 == r.seq) with
        | some e => e.2.setWidth 64
        | none => 0) .empty)

/-- Partition whose Principal receives a request, or 7 for the Proctor (R22, R27): the target's for its bound session, or for the owner's where none is
bound (R345); else, as for the module, that of the session's own partition. -/
def State.routeOf (s : State) (k : Session) (p : BitVec 3) : BitVec 3 :=
  if p ≠ 7 ∧ ((k.bound ∧ k.part = p) ∨ (k.owner ∧ !s.hasBound p)) then p else if k.bound then k.part else 7

/-- A request is counted by the Principal that receives it; the Proctor keeps no count. -/
def State.countReq (s : State) (k : Session) (p : BitVec 3) : State :=
  if s.routeOf k p = 7 then s else s.bump (prBase ((partFields (s.routeOf k p).toNat).headD 0) + 0x48)

/-- The port takes a frame's tag: untagged, or of the VLAN set (R332). -/
def State.tagOk (s : State) (v : Option (BitVec 16)) : Bool :=
  match v with
  | none => true
  | some t => s.host.vlan != 0 && t.setWidth 12 == s.host.vlan

/-- A Slate request on port 49,300 or 49,200 (R333): `go` is the command's own effect. -/
def State.serve (s : State) (r : Req) (cls cmd : Nat) (x : Rights) (go : State → State) : State :=
  match s.session r.sess with
  | none => s.bump (prBase (reqField r) + 0x38)
  | some (i, k) =>
    if s.wipingTarget r.part && !(cls == 1 && cmd == 5) then s
    else if r.seq = 0 ∨ r.seq.toNat + 4096 ≤ k.h.toNat then
      s.sendTo k (s.respOf r stStale k.h .empty)
    else if k.seen.contains r.seq then s.again k r
    else
      let s := s.modSession r.sess (fun k => k.accept r.seq)
      if !s.allowed k r.part x ∨ (s.store.sealed ∧ !sealedServes cls cmd) then
        (s.logDenied i k r cls cmd).respond r stDenied (opDetail cls cmd)
      else go (s.countReq k r.part)

/-- A generation 3 request: served once the firmware runs (R333), where the port takes its tag (R332); a frame under a generation 2 session's id
fails its tag (R337). -/
def State.request (s : State) (r : Req) (cls cmd : Nat) (x : Rights) (go : State → State) : State :=
  if s.px.stage ≠ 6 then s
  else if !s.tagOk r.vlan then s.bump (prBase (reqField r) + 0x40)
  else match s.session r.sess with
    | some (_, k) => if k.gen2 then s.bump (prBase (reqField r) + 0x38) else s.serve r cls cmd x go
    | none => s.bump (prBase (reqField r) + 0x38)

/-- A field that only the expert form may carry (R346): a basic request with one is answered BAD_FIELD. -/
def State.expertOnly (s : State) (r : Req) (used : Bool) (go : State → State) : State :=
  if !r.expert && used then s.badField r else go s

/-- Refuse unless a condition holds. -/
def State.need (s : State) (r : Req) (ok : Bool) (st : BitVec 16) (detail : BitVec 64) (go : State → State) : State :=
  if ok then go s else s.respond r st detail

/-- FRAME_DROPPED: a received frame is dropped and counted in PR_RX_DROP_COUNT, or PR_AUTH_FAIL_COUNT for a failed tag (R331, R332, R337);
a datagram to another port is dropped uncounted (R333). -/
def execFrameDropped (f : Nat) (why : DropReason) (s : State) : State :=
  if 4 ≤ f then s
  else match why with
    | .authFail => s.bump (prBase f + 0x38)
    | .badPort => s
    | _ => s.bump (prBase f + 0x40)

end Sys2Proof.Machine
end

