-- ==== Sys2Proof/Machine/Sync.lean ====
section
/-! DEFINITION. Bells and seals, control registers, random numbers, synchronisation and checks of a core (R108 to R115,
Table 03-12), and the commands that end a stalled SEAL, FENCE, WAIT, VGET or VFLG. -/

namespace Sys2Proof.Machine

/-! ### BELLWAIT, REST -/

/-- Park at the instruction until step period `t`, whose bell goes on past it; go on at once if it has come (R110). -/
def State.parkUntil (s : State) (c op : Nat) (t : BitVec 32) : State :=
  if (s.seat (fieldOfCore c)).tt.stepPeriod < t then
    s.modCore c (fun k => { k with mode := .parked, waitFor := t, waitOp := BitVec.ofNat 8 op })
  else s.advance c op

/-- BELLWAIT (0x90): the target is IMM, unsigned. -/
def execBellwait (c : Nat) (i : Ins) (s : State) : State := issue c 0x90 i (fun s => s.parkUntil c 0x90 i.imm) s

/-- BELLWAITS (0x91): the target is sA[31:0]. -/
def execBellwaits (c : Nat) (i : Ins) (s : State) : State :=
  issue c 0x91 i (fun s => s.parkUntil c 0x91 (((s.core c).sreg i.sa).setWidth 32)) s

/-- REST (0x93): RESTING until the next redirect, which sets the PC (R113). -/
def execRest (c : Nat) (i : Ins) (s : State) : State :=
  issue c 0x93 i (fun s => s.modCore c (fun k => { k with mode := .resting })) s

/-! ### SEAL, FENCE, WAIT -/

/-- No DMA, MXST, vector or fused-update write issued earlier is outstanding; scalar stores land as they retire (R112). An operation that makes
no write is not waited for. -/
def Core.writesDone (k : Core) : Bool :=
  k.dmaQ.isEmpty && k.vecQ.all (fun o => o.empty || (o.writes 0).isEmpty) && k.mxst.isNone &&
    k.arrQ.all (fun o => match o.kind with | .mxst _ _ _ => false | _ => true)

/-- Set a seal bit. -/
def Core.setSeal (k : Core) (id : BitVec 8) : Core := { k with seals := k.seals ||| (1#256 <<< id.toNat) }

/-- SEAL (0x92): waits for the core's earlier writes, then sets the bit (R112). -/
def execSeal (c : Nat) (i : Ins) (s : State) : State :=
  issue c 0x92 i (fun s =>
    let id : BitVec 8 := i.imm.setWidth 8
    if (s.core c).writesDone then (s.modCore c (fun k => k.setSeal id)).advance c 0x92
    else s.modCore c (fun k => { k with stall := some (.sealing id) })) s

/-- SEAL_DRAIN_DONE: a stalled SEAL sets its bit once the writes are complete. -/
def execSealDrainDone (c : Nat) (s : State) : State :=
  match (s.core c).stall with
  | some (.sealing id) =>
    if (s.core c).writesDone then (s.modCore c (fun k => { k.setSeal id with stall := none })).advance c 0x92 else s
  | _ => s

/-- The engines of a FENCE mask are drained: stores, DMA, array, vector (Table 03-12). -/
def Core.fenceDone (k : Core) (m : BitVec 4) : Bool :=
  (!m.getLsbD 1 || k.dmaQ.isEmpty) && (!m.getLsbD 2 || (k.arrQ.isEmpty && k.mxst.isNone)) && (!m.getLsbD 3 || k.vecQ.isEmpty)

/-- FENCE (0xB0). -/
def execFence (c : Nat) (i : Ins) (s : State) : State :=
  issue c 0xB0 i (fun s =>
    let m : BitVec 4 := i.imm.setWidth 4
    if (s.core c).fenceDone m then s.advance c 0xB0 else s.modCore c (fun k => { k with stall := some (.fence m) })) s

/-- FENCE_DRAIN_DONE: a stalled FENCE retires once its engines are drained. -/
def execFenceDrainDone (c : Nat) (s : State) : State :=
  match (s.core c).stall with
  | some (.fence m) =>
    if (s.core c).fenceDone m then (s.modCore c (fun k => { k with stall := none })).advance c 0xB0 else s
  | _ => s

/-- Every tag of a mask is complete (R94). -/
def Core.tagsDone (k : Core) (m : BitVec 16) : Bool :=
  (List.range 16).all (fun t => !m.getLsbD t || k.tag (BitVec.ofNat 4 t) == 0)

/-- WAIT (0xB1). -/
def execWait (c : Nat) (i : Ins) (s : State) : State :=
  issue c 0xB1 i (fun s =>
    let m : BitVec 16 := i.imm.setWidth 16
    if (s.core c).tagsDone m then s.advance c 0xB1 else s.modCore c (fun k => { k with stall := some (.tags m) })) s

/-- TAG_WAIT_DONE: a WAIT, VGET or VFLG stalled on tags resumes once they are complete (R94, R106). -/
def execTagWaitDone (c : Nat) (s : State) : State :=
  let k := s.core c
  match k.stall with
  | some (.tags m) => if k.tagsDone m then (s.modCore c (fun k => { k with stall := none })).advance c 0xB1 else s
  | some (.vget dst t) =>
    if k.tag t = 0 then (s.modCore c (fun k => { k.doVget dst t with stall := none })).advance c 0x83 else s
  | some (.vflg dst t) =>
    if k.tag t = 0 then (s.modCore c (fun k => { k.doVflg dst t with stall := none })).advance c 0x84 else s
  | _ => s

/-! ### Control registers (R109) -/

/-- A lesson of core `c` may read the register: TT_ and CM_ of its own fields, MX_ and VX_ of its own core. -/
def State.lessonReads (s : State) (c : Nat) (r : RegAddr) : Bool :=
  match r.block with
  | 1 => (s.seatFields (fieldOfCore c)).contains r.ix
  | 6 => (s.seatFields (fieldOfCore c)).contains r.ix
  | 2 => r.ix == c
  | 3 => r.ix == c
  | _ => false

/-- Value a lesson reads, if it may. -/
def State.lessonRead (s : State) (c a : Nat) : Option (BitVec 64) :=
  match regAddr a with
  | some r => if s.lessonReads c r then s.readReg a else none
  | none => none

/-- MX_ fields a lesson may write (Tables 04-13 to 04-16): MX_FLAGS is RW1C. -/
def Core.writeMx (k : Core) (off : Nat) (v : BitVec 64) : Option Core :=
  match off with
  | 0x00 => some { k with oscale := v.setWidth 32 }
  | 0x08 => some { k with cadence := v.getLsbD 0 }
  | 0x10 => some { k with mxFlags := k.mxFlags &&& ~~~(v.setWidth 9) }
  | 0x18 => some { k with mxNorm := v }
  | _ => none

/-- VX_ fields a lesson may write (Tables 05-11 to 05-13): VX_FLAGS is RW1C. -/
def Core.writeVx (k : Core) (off : Nat) (v : BitVec 64) : Option Core :=
  match off with
  | 0x00 => some { k with vxEps := v.setWidth 32 }
  | 0x08 => some { k with vxNorm := v }
  | 0x10 => some { k with vxFlags := k.vxFlags &&& ~~~(v.setWidth 15) }
  | _ => none

/-- What a lesson's write does to its core, if it may. -/
def Core.lessonWrite (k : Core) (c a : Nat) (v : BitVec 64) : Option Core :=
  match regAddr a with
  | some ⟨2, j, off⟩ => if j = c then k.writeMx off v else none
  | some ⟨3, j, off⟩ => if j = c then k.writeVx off v else none
  | _ => none

/-- RDCR (0xA0): an access that is not permitted returns zero and records fault 0x05. -/
def execRdcr (c : Nat) (i : Ins) (s : State) : State :=
  issue c 0xA0 i (fun s =>
    let k := s.core c
    let a := k.effAddr i
    match s.lessonRead c a with
    | some v => (s.modCore c (fun k => k.setS i.dst v)).advance c 0xA0
    | none => ((s.recordFault c 5 k.pc.toNat 0xA0 a 1).modCore c (fun k => k.setS i.dst 0)).advance c 0xA0) s

/-- WRCR (0xA1): a write that is not permitted is discarded and records fault 0x05. -/
def execWrcr (c : Nat) (i : Ins) (s : State) : State :=
  issue c 0xA1 i (fun s =>
    let k := s.core c
    let a := k.effAddr i
    match k.lessonWrite c a (k.sreg i.sb) with
    | some k' => (s.setCore c k').advance c 0xA1
    | none => (s.recordFault c 5 k.pc.toNat 0xA1 a 1).advance c 0xA1) s

/-! ### Random numbers (R108) -/

/-- RNGK (0xA8): the layer of the key becomes sA[15:0]. -/
def execRngk (c : Nat) (i : Ins) (s : State) : State :=
  issueK c 0xA8 i (fun k => { k with rngLayer := (k.sreg i.sa).setWidth 16 }) s

/-- The words RNG returns: x1 above x0 for an element index. -/
def rngWord (k : RngKey) (idx : Nat) : BitVec 64 :=
  let x := philoxIn k.seed.toNat k.step.toNat k.layer.toNat k.core idx
  x.2.1 ++ x.1

/-- RNG (0xA9): sD := output words of element index sA[39:0] under the current key. -/
def execRng (c : Nat) (i : Ins) (s : State) : State :=
  issue c 0xA9 i (fun s =>
    (s.modCore c (fun k => k.setS i.dst (rngWord (s.rngKey c) ((k.sreg i.sa).toNat % 2 ^ 40)))).advance c 0xA9) s

/-! ### CHECK, RAISE, RDFLT -/

/-- CHECK (0xB8): records fault 0x07 with IMM[15:0]. -/
def execCheck (c : Nat) (i : Ins) (s : State) : State :=
  issue c 0xB8 i (fun s => (s.recordFault c 7 (s.core c).pc.toNat 0xB8 (i.imm.toNat % 65536) 1).advance c 0xB8) s

/-- RAISE (0xB9): sets the bits of IMM[8:0] that a lesson may name (R115) in the period's status word; OVERFLOW folds sA[15:0]
into OVF_LAYER. -/
def execRaise (c : Nat) (i : Ins) (s : State) : State :=
  issue c 0xB9 i (fun s =>
    let m : BitVec 9 := i.imm.setWidth 9 &&& 0x139#9
    let f := fieldOfCore c
    let s' := s.setStatus f m
    (if m.getLsbD 3 then s'.overflow f (((s.core c).sreg i.sa).setWidth 16) else s').advance c 0xB9) s

/-- RDFLT (0xBA): IMM 0 reads FAULT, 1 FAULT_ADDR. -/
def execRdflt (c : Nat) (i : Ins) (s : State) : State :=
  issueK c 0xBA i (fun k => k.setS i.dst (if i.imm = 0 then k.fault else k.faultAddr)) s

end Sys2Proof.Machine
end

