-- ==== Sys2Proof/Machine/Registers.lean ====
section
/-! DEFINITION. Writes of control registers from outside a lesson's WRCR (R12, R360, R414, R436, R440), and register reads through a session
(R363, R416). -/

namespace Sys2Proof.Machine

/-! ### Rights of a session to registers (Table 14-6) -/

/-- The register block belongs to the fields of a session's partition. -/
def Session.ownsField (k : Session) (f : Nat) : Bool := k.bound && (partFields k.part.toNat).contains f

/-- A session may read a register. -/
def Session.mayRead (k : Session) (r : RegAddr) : Bool :=
  match r.block with
  | 10 => if r.off = 0 ∨ r.off = 0x28 ∨ r.off = 0x50 then k.owner else true
  | 11 => true
  | _ => k.owner || k.ownsField r.field

/-- A session may write a counter. -/
def Session.mayClear (k : Session) (r : RegAddr) : Bool :=
  r.isCounter &&
  (match r.block with
   | 10 => k.owner
   | 11 => false
   | 9 => if r.ix = 15 then false else k.owner || k.ownsField r.field
   | _ => k.owner || k.ownsField r.field)

/-- Write zero to a counter: COUNT and SAT clear together (R360). -/
def State.clearCounter (s : State) (r : RegAddr) (a : Nat) : State := s.setCounter (s.counterHome r a) {}

/-- A write that is refused, or names an address that holds no register, gets an error response and an entry in the violation log of the
requester's partition (R11, R345, R414): fault 0x05 of a lesson (R109), DENIED of a session, which names its newest request (log 2). The sideband's
is ignored (R436). -/
def State.refuseWrite (s : State) (w : Writer) (loc : Nat) (addr : Addr) : State :=
  match w with
  | .core c => if 2000 ≤ c then s else s.recordFault c 5 (s.core c).pc.toNat 0xA1 addr.toNat 1
  | .sideband => s
  | .session id =>
    match s.session id with
    | none => s
    | some (i, k) =>
      let e : VEntry := { addr := addr.setWidth 64, source := 6, code := 0x20, unitId := BitVec.ofNat 16 i, loc := BitVec.ofNat 32 loc }
      (if k.bound then s.vlog ((partFields k.part.toNat).headD 0) e else s.modVlog e).sendTo k
        (s.respOf { sess := id, seq := k.h, part := k.part } stDenied (addr.setWidth 64) .empty)

/-- The I3C target answers from the rise of PG until power is removed, while VIO powers its buffers (R434, R435). -/
def State.i3cUp (s : State) : Bool := s.pw.powered && s.pw.pg && s.pw.vio

/-- The target is addressed: it is up and holds a dynamic address (R435). -/
def State.i3cHeard (s : State) : Bool := s.i3cUp && s.pw.i3cAddr.isSome

/-- A writer may clear a counter: a session where Table 14-6 allows it and the module is not sealed for return (R423), the sideband the PW_ counters
(R436). -/
def State.mayClear (s : State) (w : Writer) (r : RegAddr) : Bool :=
  match w with
  | .session id => !s.store.sealed && (match s.session id with | some (_, k) => k.mayClear r | none => false)
  | .sideband => r.block == 11 && r.isCounter && s.i3cHeard
  | .core _ => false

/-- COUNTER_CLEAR: zero clears COUNT and SAT, any other value has no effect (R360); a writer without the right is refused. -/
def execCounterClear (w : Writer) (addr : Addr) (v : BitVec 64) (s : State) : State :=
  match regAddr addr.toNat with
  | none => s.refuseWrite w (7 + 256 * 3) addr
  | some r =>
    if !s.mayClear w r then s.refuseWrite w (7 + 256 * 3) addr
    else if v.extractLsb' 0 32 = 0 then s.clearCounter r addr.toNat else s

/-- MX_FLAGS_CLEAR: RW1C by the core's lesson (R138). -/
def execMxFlagsClear (c : Nat) (v : BitVec 64) (s : State) : State :=
  s.modCore c (fun k => { k with mxFlags := k.mxFlags &&& ~~~(v.setWidth 9) })

/-- VX_FLAGS_CLEAR: RW1C by the core's lesson (R181). -/
def execVxFlagsClear (c : Nat) (v : BitVec 64) (s : State) : State :=
  s.modCore c (fun k => { k with vxFlags := k.vxFlags &&& ~~~(v.setWidth 15) })

/-- OUT_OF_TOL_CLEAR: RW1C (R52, R81). -/
def execOutOfTolClear (f : Nat) (v : BitVec 64) (s : State) : State :=
  if v.getLsbD 8 then s.modTt f (fun t => { t with outOfTol := false }) else s

/-! ### PW_ alerts (R440) -/

/-- Set alert bits; each bit newly set counts in PW_ALERT_COUNT. -/
def State.setAlert (s : State) (m : BitVec 10) : State :=
  let new := m &&& ~~~s.pw.alert
  let s := { s with pw := { s.pw with alert := s.pw.alert ||| m } }
  (List.range 10).foldl (fun t i => if new.getLsbD i then t.bump (pwBase + 0x40) else t) s

/-- ALERT_N as driven: low while an alert whose mask bit is 1 is set. -/
def Power.alertN (p : Power) : Bool := p.alert &&& p.mask == 0

/-- PW_ALERT_CLEAR: the tray controller clears alerts over the sideband, which must answer (R435); a bit cleared while its condition persists is set
again at once. -/
def execPwAlertClear (v : BitVec 64) (s : State) : State :=
  if !s.i3cHeard then s else
  let m : BitVec 10 := v.setWidth 10 &&& s.pw.alert
  ({ s with pw := { s.pw with alert := s.pw.alert &&& ~~~m } }).setAlert (m &&& s.pw.cond)

/-- REGISTER_WRITE: a lesson writes the MX_ and VX_ fields marked for it (R109); the tray controller, where the target
answers, PW_ALERT_MASK and PW_CAP (R435, R436); a session has no such right and is refused (R345, R414). Every other write has no effect (R12). -/
def execRegisterWrite (w : Writer) (addr : Addr) (v : BitVec 64) (s : State) : State :=
  match w with
  | .core c =>
    if 2000 ≤ c then s
    else match (s.core c).lessonWrite c addr.toNat v with
      | some k => s.setCore c k
      | none => s.refuseWrite w 0 addr
  | .sideband =>
    if !s.i3cHeard then s
    else if addr.toNat = pwBase + 0x28 then { s with pw := { s.pw with mask := v.setWidth 10 } }
    else if addr.toNat = pwBase + 0x30 then { s with pw := { s.pw with cap := v.setWidth 16 } }
    else s
  | .session _ => s.refuseWrite w 0 addr

/-! ### Reads through a session (R363, R416) -/

/-- A counter as a tenant reads it: latched at the most recent bell, bits [9:0] zero; a saturated one reads 0xFFFF_FC00 with SAT. -/
def Counter.coarse (k : Counter) : Nat :=
  if k.sat then 0xFFFFFC00 + fieldAt 1 32 else k.count.toNat / 1024 * 1024

/-- PW_ registers at a reader's grade (Tables 15-10, 15-11, 14-7): tenant and sideband reads give no field power; VOLTS, AMPS and PW_FINE
are read in service mode only. -/
def State.pwAt (s : State) (grade : Nat) (off : Nat) : Option (BitVec 64) :=
  let p := s.pw
  let svc := grade == 2 && s.px.service
  match off with
  | 0x08 => reg ((if grade = 0 then p.wattsTen.toNat else if svc then p.wattsSvc.toNat else p.watts.toNat) + (if svc then fieldAt p.volts.toNat 16 + fieldAt p.amps.toNat 32 else 0))
  | 0x10 => if grade = 2 then some p.fieldPower else reg 0
  | 0x38 => if svc then pwReg p off else reg p.fineSel.toNat
  | _ => if off = 0x40 ∨ off = 0x48 then reg (s.counter (pwBase + off)).word else pwReg p off

/-- What the sideband reads at a register index: module input power at owner grade, no field power; zero where the index names no PW_
register (R436). -/
def State.sidebandRead (s : State) (index : Nat) : BitVec 64 := (s.pwAt 1 (8 * index)).getD 0

/-- What a session reads at an address it may read. -/
def State.sessionRead (s : State) (k : Session) (a : Nat) : Option (BitVec 64) :=
  match regAddr a with
  | none => none
  | some r =>
    if r.block = 11 ∧ !(r.isCounter && !k.owner) then s.pwAt (if k.owner then 2 else 0) r.off
    else if r.isCounter && !k.owner then reg (Tab.get (fun _ => {}) s.latched (s.counterHome r a) : Counter).coarse
    else s.readReg a

end Sys2Proof.Machine
end

