-- ==== Sys2Proof/Machine/Lifecycle.lean ====
section
/-! DEFINITION. What resets, wipes and the loss of a seat take away (R89, R117, R225, R284, R294, R324, R341, R386, Table 13-3): cores, SRAM,
seats, links, sessions; and the chip reset. -/

namespace Sys2Proof.Machine

/-! ### Cores and their memory -/

/-- A core loses its lesson: its operations are cancelled and it goes to NOLESSON (R89, R119). -/
def State.noLesson (s : State) (c : Nat) : State :=
  (s.cancelCore c).modCore c (fun k => { k with codeLen := 0, entries := [], logged := [], mode := .noLesson })

/-- Every core of some fields loses its lesson. -/
def State.stopCores (s : State) (fs : List Nat) : State := eachOf (s.listedCores fs) (fun c t => t.noLesson c) s

/-- Zero a range, with fresh check bits; writes into it that still wait for a seal are lost with it. -/
def State.zeroRange (s : State) (a n : Nat) : State :=
  let out (w : Nat) : Bool := !(decide (a ≤ w) && decide (w < a + n))
  { s with mem := Memory.zero s.mem a n, bad := s.bad.filter out, ce := s.ce.filter out, held := s.held.filter (fun h => out h.2.1),
           flaws := if a < 4 * lpField then s.flaws.filter (fun e => out (e.1 / 544 * 512)) else s.flaws }

/-- Every slate and desk of a field reads zero. -/
def State.zeroSram (s : State) (f : Nat) : State :=
  (s.zeroRange (deskBase (500 * f)) (500 * 0x800000)).zeroRange (slateBase (500 * f)) (500 * 0x80000)

/-- Every LPDDR block of a field holds zero plaintext under its current epoch (R419). -/
def State.zeroLpddr (s : State) (f : Nat) : State :=
  let s := s.zeroRange (f * lpField) lpField
  let s := { s with lpTags := Tab.clearRange s.lpTags (f * lpField / 512) (lpField / 512) }
  s.modMc f (fun m => { m with base := { epoch := m.epoch, gen := m.gen.getD 0 } })

/-! ### A seat's loss -/

/-- Requests of a seat that wait for their answer. -/
def Seat.waiting (k : Seat) : List Req :=
  k.ck.arms.map (·.2) ++ k.cm.handReq.toList ++ k.cm.xfers.filterMap (·.req) ++ k.waits.map (·.req) ++ k.pieces.map (·.req)

/-- What is left of a seat: its bell count, logs, sealed bell, and how its last checkpoint ended (R324, R329, Table 13-3). -/
def Seat.dropped (k : Seat) : Seat :=
  { tt := { bell := k.tt.bell, opened := k.tt.opened }, vlog := k.vlog, numlog := k.numlog, numHead := k.numHead, numWrap := k.numWrap,
    sealedBell := k.sealedBell, nextRead := k.nextRead, wiping := k.wiping,
    ck := { outcome := k.ck.outcome, gen := k.ck.gen, trigger := k.ck.trigger, step := k.ck.step, done := k.ck.done, total := k.ck.total,
            errs := k.ck.errs } }

/-- The plan, the seat and its regions go: a checkpoint ends INTERRUPTED (R324), what waits is answered WRONG_STATE (log 17), the
satchel, the cubby and the mirror are lost. -/
def State.dropSeat (s : State) (f : Nat) : State :=
  let s := s.ckInterrupt f
  let d := s.wrongDetail f
  let s := (s.seat f).waiting.foldl (fun t r => t.respond r stWrongState d) s
  (s.modSeat f Seat.dropped).modLbs f (fun _ => {})

/-- The violation and numerics logs of a partition are cleared, with PR_VLOG_DROP (R354). -/
def State.clearLogs (s : State) (f : Nat) : State :=
  let s := s.modSeat f (fun k => { k with vlog := [], numlog := [], numHead := 0, numWrap := false })
  s.setCounter (prBase (s.seatIx f) + 0x30) {}

/-! ### Links -/

/-- Links of a field send ABSENT and lose their keys (R284, R386). -/
def State.absentLinks (s : State) (f : Nat) : State :=
  eachOf (linksOfField f) (fun l t => (t.sendAbsent l).modLink l Link.unkeyed) s

/-- Links of a field send WIPE and lose their keys; one that was up waits in IDENT without keys (R284, R420). -/
def State.wipeLinks (s : State) (f : Nat) : State :=
  eachOf (linksOfField f) (fun l t =>
    let st := (t.link l).st
    let t := if st = .locked ∨ st = .ranging then t.enterIdent l else t
    t.modLink l Link.unkeyed) s

/-! ### Sessions (R341) -/

/-- A session ends: its reads close with it. -/
def State.endSession (s : State) (id : BitVec 32) : State :=
  let s := match s.session id with
    | some (i, _) => s.setSlot i none
    | none => s
  eachOf (List.range 4) (fun f t => t.modSeat f (fun k =>
    { k with reads := k.reads.filter (fun x => x.sess != id), waits := k.waits.filter (fun w => w.req.sess != id),
             pieces := k.pieces.filter (fun w => w.req.sess != id) })) s

/-- Ids of the sessions that meet a test. -/
def State.sessionsWith (s : State) (p : Session → Bool) : List (BitVec 32) :=
  (List.range 4).filterMap (fun i => match s.slot i with | some k => if p k then some k.id else none | none => none)

/-- Tenant sessions of a partition end. -/
def State.endTenants (s : State) (p : BitVec 3) : State :=
  (s.sessionsWith (fun k => !k.owner && k.bound && k.part == p)).foldl State.endSession s

/-- Every tenant session ends (R423). -/
def State.endAllTenants (s : State) : State := (s.sessionsWith (fun k => !k.owner)).foldl State.endSession s

/-- A LAYOUT changes a partition: every session bound to it ends (R341, R413). -/
def State.endPartition (s : State) (p : BitVec 3) : State :=
  (s.sessionsWith (fun k => k.bound && k.part == p)).foldl State.endSession s

/-! ### Keys -/

/-- New memory keys under the same epoch: nothing written before can be read (R225, R421); copies of pages stop (Table 12-9). -/
def Mc.rekey (n : Nat) (m : Mc) : Mc :=
  { m with gen := some n, oldLive := false, oldGen := none, sweeping := false, copying := [], due := m.due ++ m.copying }

/-- New memory keys under a fresh epoch (R419). -/
def Mc.fresh (epoch : BitVec 8) (n : Nat) (m : Mc) : Mc := { m.rekey n with epoch := epoch }

/-! ### Partition reset (R386) -/

/-- PARTITION reset of the partition of field `f`. -/
def State.partitionReset (s : State) (f : Nat) : State :=
  let fs := s.seatFields f
  let s := (s.stopCores fs).dropSeat f
  let s := s.clearLogs f
  let s := eachOf fs (fun g t => ((t.zeroSram g).absentLinks g).modHm g Hm.stopWork) s
  s.newKeys fs (fun n _ m => m.rekey n)

/-! ### Chip reset (R385, R386, Table 13-3) -/

/-- A link after a chip reset: lane map and retired wavelengths are kept in the information store (R300); it sends ABSENT if it was in
use (R284). -/
def Link.afterReset (k : Link) : Link :=
  { presets := k.presets, map := k.map, spareUsed := k.spareUsed, retired := k.retired, comb := k.comb, combDark := k.combDark,
    absent := k.absent || k.st.active }

/-- The boot ROM runs: power good and no reset held. -/
def State.romRuns (s : State) : Bool := s.pw.powered && s.pw.pg && s.pw.rstN && !s.pw.trip

/-- BOOT_COUNT counts each boot the ROM begins (Table 14-18, R432). -/
def State.bootStarts (s : State) : State :=
  if s.romRuns then s.keep (fun x => { x with bootCount := x.bootCount + 1 }) else s

/-- A chip reset: what Table 13-3 clears goes; the information store, the PW_ block (R440), the fuses and the pins stay. The boot ROM
starts with a fresh nonce and challenge (R401, R411). The hour between two CKPT_REQ of the module runs on over it (R376). -/
def State.chipReset (s : State) (cause : BitVec 3) : State :=
  State.bootStarts
  { s with
    mem := [], lpTags := [], bad := [], ce := [], flaws := [], held := [], cores := [], seats := [],
    fields := Tab.each (fun _ => {}) s.fields (fun x => { hm := x.hm.afterReset }),
    links := Tab.each (fun _ => {}) s.links Link.afterReset,
    counters := s.counters.filter (fun e => e.1 / 0x1000000000 == 0xF0B),
    latched := s.latched.filter (fun e => e.1 / 0x1000000000 == 0xF0B),
    host := { mac := s.host.mac, grants := s.host.grants, sent := s.host.sent },
    px := { minSvn := s.px.minSvn, factoryOpened := s.px.factoryOpened, secrets := s.px.secrets, certsOk := s.px.certsOk, romKeys := s.px.romKeys,
            nonce := s.freshBits, challenge := Config.freeBits (s.free + 1), cause := cause },
    coord := { lastCkpt := s.coord.lastCkpt.map (· - s.hmClk) }, hmClk := 0, free := s.free + 2 }

end Sys2Proof.Machine
end

