-- ==== Sys2Proof/Machine/Dumps.lean ====
section
/-! DEFINITION. Crash dumps (R391 to R396): collection under a recipe, the shares and records of Tables 13-6 and 13-7, the buffers of the
fields. -/

namespace Sys2Proof.Machine

/-! ### Recipes (R393, Tables 13-4, 13-5) -/

/-- The default recipe of a partition's fields. ARG 0xFF marks the bank windows of entry 1 and the register blocks of entry 5, ARG 0xFE the CCB of each
field's own cores in entry 3: no expert recipe can name these in one entry (log 19). -/
def defaultRecipe (fs : List Nat) : List RecipeEntry :=
  let lo := fs.headD 0
  let hi := fs.getLastD 0
  let cores (kind : BitVec 8) (arg : BitVec 8) (off len : Nat) : RecipeEntry :=
    { kind := kind, arg := arg, first := 500 * lo, last := 500 * hi + 499, offset := BitVec.ofNat 32 off, len := BitVec.ofNat 32 len }
  [cores 1 0 0 1600, cores 2 0xFF 0 1024, cores 3 0 0 1024, cores 2 0xFE 0 64,
   { kind := 6, first := lo, last := hi, len := 0x18000 }, { kind := 7, arg := 0xFF, first := lo, last := hi }]

/-- A recipe as its bytes (Table 13-4). -/
def recipeBytes (l : List RecipeEntry) : List Byte :=
  l.flatMap (fun e => leBytes 1 e.kind.toNat ++ leBytes 1 e.arg.toNat ++ leBytes 2 e.first ++ leBytes 2 e.last ++ leBytes 2 0 ++
    leBytes 4 e.offset.toNat ++ leBytes 4 e.len.toNat)

/-- Offset in its 16 bytes of the first field of a recipe entry that is not as Table 13-4 allows. -/
def entryBad (e : RecipeEntry) : Option Nat :=
  if e.kind = 0 ∨ 8 < e.kind.toNat then some 0
  else if !(if e.kind = 4 then decide (e.arg.toNat < 8) else if e.kind = 6 then decide (1 ≤ e.arg.toNat) && decide (e.arg.toNat ≤ 4) else e.arg == 0) then some 1
  else if e.last < e.first then some 4
  else if e.rsv ≠ 0 then some 6
  else if e.len.toNat % 64 ≠ 0 then some 0xC else none

/-- Payload offset of the first field of a recipe that Dump COLLECT refuses: of its first bad entry; 0 for an empty recipe, and the entry past the
64th where there is one (Tables 11-6, 13-4). -/
def recipeBad (l : List RecipeEntry) : Option Nat :=
  if l.isEmpty then some 0
  else match (List.range (Nat.min l.length 64)).findSome? (fun i => match l[i]? with
    | some e => (entryBad e).map (16 * i + ·)
    | none => none) with
  | some o => some o
  | none => if 64 < l.length then some 1024 else none

/-- A recipe that Dump COLLECT accepts. -/
def recipeOk (l : List RecipeEntry) : Bool := (recipeBad l).isNone

/-! ### Collection begins -/

/-- Some field of a list is collecting a dump. -/
def State.collecting (s : State) (fs : List Nat) : Bool := fs.any (fun f => (s.field f).hm.collecting.isSome)

/-- Id of the next dump: ids rise by one per dump of the module (R392). -/
def State.nextDump (s : State) : Nat := 1 + (List.range 4).foldl (fun n f => Nat.max n (s.field f).hm.lastDump) 0

/-- What the header of a field's share records of its own seat at the start (Table 13-6). -/
def Dump.at (d : Dump) (k : Seat) : Dump :=
  { d with bell := k.tt.bell, committed := k.cm.committed, live := k.cm.live,
           planVer := (match k.plan with | some p => p.hdr.version | none => 0) }

/-- The Principals of some fields start to collect a dump. -/
def State.startDump (s : State) (fs : List Nat) (part : BitVec 3) (cause : BitVec 8) (recipe : List RecipeEntry) (req : Option Req) : State :=
  let id := s.nextDump
  let d : Dump := { id := id, cause := cause, part := part, bell := 0, committed := 0, live := 0, planVer := 0, recipe := recipe, req := req }
  eachOf fs (fun f t => t.modHm f (fun h => { h with collecting := some (d.at (s.seat f)), lastDump := id })) s

/-- The dump collected with an INTERNAL answer, or the one already being collected, and its id (R391). -/
def State.internalDump (s : State) (f : Nat) : State × Nat :=
  match (s.field f).hm.collecting with
  | some d => (s, d.id)
  | none =>
    let fs := s.seatFields f
    if s.collecting fs then (s, (s.field f).hm.lastDump)
    else (s.startDump fs (BitVec.ofNat 3 (s.partOf f)) 6 (defaultRecipe fs) none, s.nextDump)

/-! ### Records (R394, R396, Table 13-7) -/

/-- `n` bytes of the fill word 0x5CA1_AB1E. -/
def fillBytes (n : Nat) : List Byte := (List.range n).map (fun i => [0x1E#8, 0xAB#8, 0xA1#8, 0x5C#8].getD (i % 4) 0)

/-- A record before its bytes are laid down: FLAGS, UNIT, BANK, ADDR, data, bytes read. -/
structure DumpRec where
  kind : Nat
  flags : Nat := 0
  unitNo : Nat
  bank : Nat := 0xFF
  entry : Nat
  addr : Nat
  data : List Byte
  read : Nat

/-- A record's bytes, its data padded to 64. -/
def DumpRec.bytes (r : DumpRec) : List Byte :=
  leBytes 1 r.kind ++ leBytes 1 r.flags ++ leBytes 2 r.unitNo ++ leBytes 1 r.bank ++ leBytes 1 r.entry ++ leBytes 2 0 ++ leBytes 8 r.addr ++
    leBytes 4 r.data.length ++ leBytes 4 r.read ++ leBytes 4 (crc32c r.data).toNat ++ leBytes 4 0 ++
    r.data ++ List.replicate ((64 - r.data.length % 64) % 64) 0

/-- A share under collection: banks and units already timed out, reads made of each, records in order, bytes so far, free bytes drawn. -/
structure DumpAcc where
  seen : List Nat := []
  reads : Tab Nat := []
  recs : List DumpRec := []
  size : Nat := 128
  free : Nat := 0
  full : Bool := false

/-- Buffer of a field (R392). -/
def dumpBuffer : Nat := 0x1000000

/-- A record enters the share; the one that fills the buffer is cut and marked TRUNCATED, and none follows it. -/
def DumpAcc.add (a : DumpAcc) (r : DumpRec) : DumpAcc :=
  if a.full then a
  else
    let n := r.bytes.length
    if a.size + n ≤ dumpBuffer then { a with recs := a.recs ++ [r], size := a.size + n }
    else
      let room := (dumpBuffer - a.size - 32) / 64 * 64
      let d := r.data.take room
      if dumpBuffer ≤ a.size + 32 then { a with full := true }
      else { a with recs := a.recs ++ [{ r with data := d, read := Nat.min r.read room, flags := r.flags ||| 8 }],
                    size := a.size + 32 + room, full := true }

/-- Bytes of a range up to the first that a debug read cannot deliver. -/
def State.debugRead (s : State) (a n : Nat) : List Byte :=
  match firstErr (fun x => match regionOf x with
      | .lpddr f => s.readErr [f] x
      | .desk c => s.readErr [fieldOfCore c] x
      | .slate c => s.readErr [fieldOfCore c] x
      | _ => some .firewall) a n with
  | some e => Memory.readN s.mem a (e.1 - a)
  | none => Memory.readN s.mem a n

/-- A record of which `n` bytes were read; the fill word stands in place of the rest (R394). -/
def DumpAcc.filled (a : DumpAcc) (r : DumpRec) (n want flags : Nat) : DumpAcc :=
  a.add { r with data := r.data.take n ++ (fillBytes want).drop n, read := n,
                 flags := r.flags ||| flags ||| (if n < want then (if n = 0 then 1 else 2) else 0) }

/-- Reads of one unit, `step` bytes each: `hu` is its number among the banks and units that may hang. An element `v` of `hung` says that unit
v mod 2^18 times out, after v / 2^18 reads that it answers. A unit that has timed out is filled without another wait, and a read that fails for its
data ends the entry before a later one could time out (R394). -/
def DumpAcc.unit (a : DumpAcc) (hung : List Nat) (hu : Nat) (r : DumpRec) (want step : Nat) : DumpAcc :=
  let done := Tab.get (fun _ => 0) a.reads hu
  let all := (want + step - 1) / step
  let got := r.data.length
  let out := hung.find? (fun v => v % 0x40000 == hu && decide (v / 0x40000 - done < all) && decide ((v / 0x40000 - done) * step ≤ got))
  if a.seen.contains hu then a.filled r 0 want 1
  else match out with
    | some v => { a with seen := a.seen ++ [hu] }.filled r ((v / 0x40000 - done) * step) want 0x10
    | none => { a with reads := Tab.set (fun _ => 0) a.reads hu (done + Nat.min all (got / step + 1)) }.filled r got want 0

/-- Bytes whose layout the manual leaves open: core state, control processor state (log 4, log 19). -/
def DumpAcc.open (a : DumpAcc) (base n : Nat) : DumpAcc × List Byte := ({ a with free := a.free + n }, freeBytes (base + a.free) n)

/-- Cores of a field within an entry. -/
def recipeCores (e : RecipeEntry) (f : Nat) : List Nat :=
  (coresOfField f).filter (fun c => decide (e.first ≤ c) && decide (c ≤ e.last))

/-- Windows of an entry in one core: (bank, local address, bytes). A desk window stays within its 1 MiB bank. -/
def State.recipeWindows (s : State) (e : RecipeEntry) (c : Nat) : List (Nat × Nat × Nat) :=
  let o := if e.arg = 0xFE then (s.field (fieldOfCore c)).lb.ccb.toNat else e.offset.toNat
  let n := e.len.toNat
  if e.kind = 3 then (if o < 0x100000 then (List.range 8).map (fun b => (b, deskBase c + 0x100000 * b + o, Nat.min n (0x100000 - o))) else [])
  else if e.arg = 0xFF then (List.range 4).map (fun b => (b, slateBase c + 0x20000 * b + o, n))
  else (List.range 4).filterMap (fun b =>
    let lo := Nat.max o (0x20000 * b)
    let hi := Nat.min (o + n) (0x20000 * (b + 1))
    if lo < hi then some (b, slateBase c + lo, hi - lo) else none)

/-- RUNNING flag of a core's record. -/
def State.runFlag (s : State) (c : Nat) : Nat := if (s.core c).mode = .running then 4 else 0

/-- Register addresses of the TT_, CM_, LB_, MC_ and FL_ blocks of a field, in ascending order in each block. -/
def blockRegs (f : Nat) : List Nat :=
  let run (base lo hi : Nat) : List Nat := (List.range ((hi - lo) / 8 + 1)).map (fun i => base + lo + 8 * i)
  run (ttBase f) 0 0x58 ++ run (cmBase f) 0 0x78 ++ run (lbBase f) 0 0x18 ++ run (lbBase f) 0x100 0x150 ++ run (lbBase f) 0x1000 0x1F98 ++
    run (mcBase f) 0 0x40 ++ (linksOfField f).flatMap (fun l => run (flBase l) 0 0x58 ++ run (flBase l) 0x100 0x188)

/-- Bytes of registers in a list of addresses; an address without a register gives zero. -/
def State.regBytes (s : State) (l : List Nat) : List Byte := l.flatMap (fun a => leBytes 8 ((s.readReg a).getD 0).toNat)

/-- Logs of the partition of a field, and for the default recipe its register blocks. -/
def State.logBytes (s : State) (f : Nat) (blocks : Bool) : List Byte :=
  (if f = s.seatIx f then (s.seat f).vlog.flatMap VEntry.bytes ++ (s.seat f).numlog.flatMap (fun e => e.2.bytes) else []) ++
    (if blocks then s.regBytes (blockRegs f) else [])

/-- Address of entries 5 and 8: bits [47:32] come from OFFSET of the entry that follows. -/
def wideAddr (l : List RecipeEntry) (i : Nat) : Nat :=
  (l.getD i { kind := 0 }).offset.toNat + fieldAt ((l.getD (i + 1) { kind := 0 }).offset.toNat % 65536) 32

/-- An accumulator as a dump shows it: the 4,096 elements, then its check state, which only dumps show (R120): checksum and magnitude row, checksum
and magnitude column, 64 words each (DESIGN CHOICE, log 27: the manual gives no layout). -/
def Acc.dumpBytes (x : Acc) : List Byte :=
  let words (n : Nat) (t : Tab (BitVec 32)) : List Byte := (List.range n).flatMap (fun j => leBytes 4 (Tab.get (fun _ => 0) t j).toNat)
  words 4096 x.elems ++ words 64 x.rowS ++ words 64 x.rowM ++ words 64 x.colS ++ words 64 x.colM

/-- Runs of a register range that belong to a field, the module's own blocks to field 0: (first address, registers). -/
def ownRuns (f x : Nat) : Nat → List (Nat × Nat)
  | 0 => []
  | n + 1 =>
    let l := ownRuns f x n
    let a := x + 8 * n
    let own := match regAddr a with
      | some r => r.field == f || (r.field == 4 && f == 0)
      | none => false
    if !own then l
    else match l.getLast? with
      | some w => if w.1 + 8 * w.2 = a then l.dropLast ++ [(w.1, w.2 + 1)] else l ++ [(a, 1)]
      | none => [(a, 1)]

/-- One entry of a recipe in field `f`: the field reads its own part of the entry. -/
def State.dumpEntry (s : State) (f : Nat) (hung : List Nat) (l : List RecipeEntry) (i : Nat) (a : DumpAcc) : DumpAcc :=
  let e := l.getD i { kind := 0 }
  let n := e.len.toNat
  match e.kind.toNat with
  | 1 => (recipeCores e f).foldl (fun a c =>
      let p := a.open s.free n
      p.1.unit hung (64 * c) { kind := 1, flags := s.runFlag c, unitNo := c, entry := i, addr := 0, data := p.2, read := 0 } n n) a
  | 2 => (recipeCores e f).foldl (fun a c => (s.recipeWindows e c).foldl (fun a w =>
      a.unit hung (64 * c + 1 + w.1) { kind := 2, flags := s.runFlag c, unitNo := c, bank := w.1, entry := i, addr := w.2.1, data := s.debugRead w.2.1 w.2.2, read := 0 } w.2.2 64) a) a
  | 3 => (recipeCores e f).foldl (fun a c => (s.recipeWindows e c).foldl (fun a w =>
      a.unit hung (64 * c + 5 + w.1) { kind := 3, flags := s.runFlag c, unitNo := c, bank := w.1, entry := i, addr := w.2.1, data := s.debugRead w.2.1 w.2.2, read := 0 } w.2.2 64) a) a
  | 4 => (recipeCores e f).foldl (fun a c =>
      let x := Tab.get (fun _ => {}) (s.core c).acc e.arg.toNat
      let d := (x.dumpBytes.drop e.offset.toNat).take n
      a.unit hung (64 * c + 16 + e.arg.toNat) { kind := 4, flags := s.runFlag c, unitNo := c, bank := e.arg.toNat, entry := i, addr := e.offset.toNat, data := d, read := 0 } n n) a
  | 5 =>
    (ownRuns f (wideAddr l i) (n / 8)).foldl (fun a w =>
      a.add { kind := 5, unitNo := f, entry := i, addr := w.1, data := s.regBytes ((List.range w.2).map (fun j => w.1 + 8 * j)), read := 8 * w.2 }) a
  | 6 => if e.first ≤ f ∧ f ≤ e.last then
      (if e.arg = 0 then [1, 2, 3, 4] else [e.arg.toNat]).foldl (fun a p =>
        let q := a.open s.free (if n = 0 then 0x18000 else n)
        q.1.unit hung (128000 + 16 * f + p) { kind := 6, unitNo := p, entry := i, addr := 0, data := q.2, read := 0 } (if n = 0 then 0x18000 else n) (if n = 0 then 0x18000 else n)) a
    else a
  | 7 => if e.first ≤ f ∧ f ≤ e.last then
      let d := s.logBytes f (e.arg == 0xFF)
      a.add { kind := 7, unitNo := f, entry := i, addr := 0, data := d, read := d.length }
    else a
  | 8 =>
    let lo := Nat.max (wideAddr l i) (lpField * f)
    let hi := Nat.min (wideAddr l i + n) (lpField * (f + 1))
    if lo < hi then
      let d := s.debugRead lo (hi - lo)
      a.filled { kind := 8, unitNo := f, entry := i, addr := lo, data := d, read := 0 } d.length (hi - lo) 0
    else a
  | _ => a

/-- The share header (Table 13-6) with a given CRC; COLLECTION time is open. -/
def State.shareHeader (s : State) (f : Nat) (d : Dump) (a : DumpAcc) (hash : BitVec 256) (crc : Nat) : List Byte :=
  leBytes 4 0x504D5544 ++ leBytes 2 1 ++ leBytes 1 f ++ leBytes 1 d.cause.toNat ++ leBytes 4 d.id ++ leBytes 1 d.part.toNat ++ leBytes 3 0 ++
    leBytes 8 d.bell.toNat ++ leBytes 8 d.committed.toNat ++ leBytes 8 d.live.toNat ++ leBytes 2 d.planVer.toNat ++
    leBytes 2 a.seen.length ++ leBytes 4 a.recs.length ++ leBytes 8 a.size ++
    leBytes 32 (match s.px.manifest with | some m => m.fwDigest.toNat | none => 0) ++ leBytes 32 hash.toNat ++
    leBytes 4 (Config.freeWord s.free).toNat ++ leBytes 4 crc

/-- The finished share of field `f`, and the free bytes it drew: every entry runs, in list order (R393). -/
def State.dumpShare (s : State) (f : Nat) (hung : List Nat) (d : Dump) : List Byte × Nat :=
  let a := (List.range d.recipe.length).foldl (fun a i => s.dumpEntry f hung d.recipe i a) {}
  let hash := Config.sha256 (recipeBytes d.recipe)
  let body := a.recs.flatMap DumpRec.bytes
  let crc := crc32c (s.shareHeader f d a hash 0 ++ body)
  (s.shareHeader f d a hash crc.toNat ++ body, a.free + 1)

/-- Drop the oldest dumps until the rest fit the buffer with `n` more bytes (R392). -/
def fitDumps (n : Nat) : List Dump → List Dump
  | [] => []
  | d :: r => if n + ((d :: r).map (fun x => x.data.length)).sum ≤ dumpBuffer then d :: r else fitDumps n r

/-- Field `f` finishes its share of the dump it collects. -/
def State.keepDump (s : State) (hung : List Nat) (f : Nat) : State :=
  match (s.field f).hm.collecting with
  | none => s
  | some d =>
    let x := s.dumpShare f hung d
    (s.modHm f (fun h =>
      { h with collecting := none, dumps := fitDumps x.1.length h.dumps ++ [{ d with data := x.1, hung := hung, req := none }] })).burn x.2

/-! ### Resets that wait for their dumps (R387, R391) -/

/-- Cause code of a reset's dump (Table 13-6). -/
def rungCause (g : Rung) : BitVec 8 := BitVec.ofNat 8 (rungCode g + 1)

/-- Fields whose Principals collect a reset's dump. -/
def ResetJob.fields (w : ResetJob) : List Nat := if w.part = 7 then [0, 1, 2, 3] else partFields w.part.toNat

/-- Resets whose dump has not begun start it when their fields are free of other dumps, oldest first. -/
def State.startResetDumps (s : State) : State :=
  s.px.resets.foldl (fun t w =>
    if w.dumpId.isSome || t.collecting w.fields then t
    else
      let id := t.nextDump
      let t := t.startDump w.fields w.part (rungCause w.rung) (defaultRecipe w.fields) none
      { t with px := { t.px with resets := t.px.resets.map (fun x => if x = w then { w with dumpId := some id } else x) } }) s

end Sys2Proof.Machine
end

