-- ==== Sys2Proof/Machine/Sessions.lean ====
section
/-! DEFINITION. The Session and Partition classes (R338 to R341, R346, R407, R412, R413, R417): handshakes, the end of sessions, the layout
of partitions and grants. -/

namespace Sys2Proof.Machine

/-! ### Attestation (R412, Table 14-5) -/

/-- The LIFECYCLE byte. -/
def State.lifecycle (s : State) : Nat :=
  b2n s.px.factoryOpened + fieldAt (b2n s.store.sealed) 1 + fieldAt (b2n s.px.service) 2 + fieldAt (b2n s.store.owner.isSome) 3 +
    fieldAt (b2n s.store.wipePending) 4

/-- An attestation report of 248 bytes. -/
def State.reportBytes (s : State) (host dev : BitVec 256) (part : BitVec 3) : List Byte :=
  let f := (partFields part.toNat).headD 0
  leBytes 4 0x54415A53 ++ leBytes 2 1 ++ leBytes 1 0xA1 ++ leBytes 1 s.lifecycle ++ leBytes 16 s.store.serial.toNat ++
    leBytes 32 host.toNat ++ leBytes 32 dev.toNat ++ leBytes 48 s.fwDigest.toNat ++
    leBytes 1 (match s.px.manifest with | some m => m.svn | none => 0) ++ leBytes 1 s.px.minSvn ++ leBytes 1 part.toNat ++
    leBytes 2 s.host.layout.toNat ++ leBytes 3 0 ++ leBytes 4 (if s.store.owner.isSome then s.store.ownerGen.toNat else 0) ++
    leBytes 4 s.store.bootCount.toNat ++ leBytes 48 (s.store.owner.getD 0).toNat ++ leBytes 32 s.px.challenge.toNat ++
    leBytes 1 (if part = 7 then 0 else (s.field f).mc.epoch.toNat) ++ leBytes 7 0 ++ leBytes 8 (s.seat f).tt.bell.toNat

/-! ### Handshake -/

/-- A session id is in use. -/
def State.idTaken (s : State) (id : BitVec 32) : Bool :=
  id == 0 || (s.session id).isSome || s.host.pending.any (fun h => h.id == id)

/-- Id of a new session: a free value, or the least unused one where that is taken (log 4). -/
def State.newId (s : State) : BitVec 32 :=
  let x : BitVec 32 := s.freshWord.setWidth 32
  if s.idTaken x then (((List.range 9).map (BitVec.ofNat 32)).find? (fun i => !s.idTaken i)).getD x else x

/-- An answer to a frame without a session: a CLEAR frame of session 0 (R337). -/
def State.refuseHello (s : State) (r : Req) (small : Bool) (st : BitVec 16) (detail : BitVec 64 := 0) : State :=
  let x := s.respOf { r with sess := 0 } st detail .empty
  s.send (.slate x) (x.clearFrames small []) [r.src] r.vlan

/-- Payload offset of the field of a HELLO that is out of range or reserved (Table 11-4, R13). -/
def helloBad (role options : BitVec 8) (rsv : BitVec 48) : Option (BitVec 64) :=
  if role ≠ 1 ∧ role ≠ 2 then some 0x20 else if 4 ≤ options.toNat then some 0x21 else if rsv ≠ 0 then some 0x22 else none

/-- The ATTEST response (Table 11-5): the HELLO's header under the new session id. -/
def State.attestResp (s : State) (r : Req) (id : BitVec 32) : Resp := s.respOf { r with sess := id, cls := 1, cmd := 2 } stOk 0 .empty

/-- SESSION_HELLO: starts a handshake; the module answers ATTEST with a new session id, a fresh nonce, its shares of both exchanges, its report
and the signatures over the transcript up to it, and derives the session's keys (R338, R339; log 27). A module whose identity certificates do
not match completes none (R403). -/
def execSessionHello (r : Req) (role options : BitVec 8) (rsv : BitVec 48) (nonce share : BitVec 256) (kem : List Byte) (s : State) : State :=
  let small := options.getLsbD 1
  if s.px.stage ≠ 6 ∨ s.wipingTarget r.part ∨ !s.px.certsOk then s
  else if !s.tagOk r.vlan then s.bump (prBase (reqField r) + 0x40)
  else if (helloBad role options rsv).isSome then s.refuseHello r small stBadField ((helloBad role options rsv).getD 0)
  else if 4 ≤ s.host.pending.length then s.refuseHello r small stSessionLimit
  else
    let id := s.newId
    let dev := s.freshBits
    let scalar := Config.freeBits (s.free + 1)
    let seed := Config.freeBits (s.free + 2)
    let report := s.reportBytes nonce dev r.part
    let x := s.attestResp r id
    let unsigned := leBytes 32 dev.toNat ++ leBytes 32 (Config.x25519 scalar 9).toNat ++ fit 1088 (Config.mlkemCt kem seed) ++ report
    let signed := reportHash (helloPayload role options nonce share kem ++ x.payload unsigned)
    let fields := unsigned ++ idSignatures signed
    let h : Handshake := { id := id, owner := role == 1, part := r.part, small := small,
                           keys := slateKeys (helloPayload role options nonce share kem ++ x.payload fields) (Config.x25519 scalar share)
                             (Config.mlkemKey kem seed) }
    let certs := if options.getLsbD 0 then Config.certChains s.store.serial else []
    let s := { s with host := { s.host with pending := s.host.pending ++ [h] } }
    (s.send (.attest id report (idSignature signed) (options.getLsbD 0)) (x.clearFrames small (fields ++ certs)) [r.src] r.vlan).burn 3

/-- Slot of the session that holds the owner's role. -/
def State.ownerSlot (s : State) : Option Nat :=
  (List.range 4).find? (fun i => match s.slot i with | some k => k.owner | none => false)

/-- Slot of the session bound to a partition. -/
def State.boundSlot (s : State) (p : BitVec 3) : Option Nat :=
  (List.range 4).find? (fun i => match s.slot i with | some k => k.bound && k.part == p | none => false)

/-- The first free session slot. -/
def State.freeSlot (s : State) : Option Nat := (List.range 4).find? (fun i => (s.slot i).isNone)

/-- The credential is accepted (R340): the owner's keys, or the keys of the partition's grant; a partition not in force is refused. -/
def State.credOk (s : State) (h : Handshake) (cred : Cred) : Bool :=
  cred.sigsOk && (h.part == 7 && h.owner || s.partLive h.part.toNat) &&
    (if h.owner then s.store.owner == some cred.keyHash
     else s.host.grants.any (fun g => g.part == h.part && g.keyHash == cred.keyHash))

/-- MIN_SVN rises to the running manifest's SVN at an owner FINISH if its COMMIT is set (R407); there are 64 fuses. -/
def State.commitSvn (s : State) : State :=
  match s.px.manifest with
  | some m => if m.commit ∧ s.px.minSvn < m.svn then { s with px := { s.px with minSvn := Nat.min m.svn 64 } } else s
  | none => s

/-- Status of a FINISH and its DETAIL: AUTH_FAILED, ROLE_TAKEN with the holder's slot, SESSION_LIMIT or OK (R24, R340, R417). -/
def State.finishStatus (s : State) (h : Handshake) (ok : Bool) : BitVec 16 × BitVec 64 :=
  let taken := if h.owner then s.ownerSlot else if s.px.service then some (s.ownerSlot.getD 0) else none
  let bound := if h.part = 7 then none else s.boundSlot h.part
  if !h.owner && s.px.service then (stRoleTaken, BitVec.ofNat 64 (taken.getD 0))
  else if !ok then (stAuthFailed, 0)
  else match taken, bound, s.freeSlot with
    | some i, _, _ => (stRoleTaken, BitVec.ofNat 64 i)
    | none, some i, _ => (stRoleTaken, BitVec.ofNat 64 i)
    | none, none, none => (stSessionLimit, 0)
    | none, none, some _ => (stOk, 0)

/-- The session a handshake opens; FINISH was its request 1. -/
def sessionOf (h : Handshake) : Session :=
  { id := h.id, owner := h.owner, part := h.part, bound := h.part != 7, small := h.small, keys := h.keys, h := 1, seen := [1], busy := [1] }

/-- An answer under a handshake's keys, with no session open (log 15). -/
def State.sendHandshake (s : State) (r : Req) (h : Handshake) (st : BitVec 16) (detail : BitVec 64) : State :=
  s.send (.slate (s.respOf r st detail .empty)) ((s.respOf r st detail .empty).frames h.keys h.small) [r.src] r.vlan

/-- A handshake is discarded. -/
def State.dropHandshake (s : State) (h : Handshake) : State :=
  { s with host := { s.host with pending := s.host.pending.filter (fun x => x.id != h.id) } }

/-- A handshake ends with its FINISH: the session opens and answers OK, or the refusal goes out under the handshake's keys (log 15). -/
def State.finish (s : State) (r : Req) (h : Handshake) (ok : Bool) : State :=
  let st := s.finishStatus h ok
  let s := s.dropHandshake h
  if st.1 = stOk then
    match s.freeSlot with
    | some i =>
      let s := s.setSlot i (some (sessionOf h))
      (if h.owner then s.commitSvn else s).respond r stOk
    | none => s
  else s.sendHandshake r h st.1 st.2

/-- A FINISH under an open handshake; one that is not SEQ 1 is BAD_FRAME and ends the handshake. Under an open session it is a copy of
the FINISH, or an unknown command. -/
def State.finishFrame (s : State) (r : Req) (go : Handshake → State → State) : State :=
  if s.px.stage ≠ 6 then s
  else if !s.tagOk r.vlan then s.bump (prBase (reqField r) + 0x40)
  else match s.session r.sess with
    | some _ => s.request r 1 3 .any (fun s => s.respond r stBadCommand)
    | none =>
      match s.host.pending.find? (fun h => h.id == r.sess) with
      | none => s.bump (prBase (reqField r) + 0x38)
      | some h =>
        if s.wipingTarget h.part then s
        else if r.seq ≠ 1 then (s.dropHandshake h).sendHandshake r h stBadFrame 0
        else go h s

/-- SESSION_FINISH: the credential is verified and the session opens (R340). -/
def execSessionFinish (r : Req) (cred : Cred) (s : State) : State :=
  s.finishFrame r (fun h s => s.finish r h (s.credOk h cred))

/-- SESSION_CLOSE: answered, then the session ends (R341). -/
def doSessionClose (r : Req) (s : State) : State := (s.respond r stOk).endSession r.sess

/-- The command with its rights (Table 11-5). -/
def execSessionClose (r : Req) (s : State) : State := s.request r 1 4 .any (doSessionClose r)

/-- The words of Session STATUS: layout, sessions, CM_SEAT, CM_STEP_COMMITTED, CM_STEP_LIVE, TT_BELL_COUNT, PX_WIPE; the module as a whole
has no seat, and gives no seat words. -/
def State.statusWords (s : State) (p : BitVec 3) : List (BitVec 64) :=
  let f := (partFields p.toNat).headD 0
  let m := (s.seat f).cm
  let read (a : Nat) : BitVec 64 := (s.readReg a).getD 0
  [read (prBase 0 + 0x10), read (prBase 0 + 0x18)] ++
    (if p = 7 then [] else [BitVec.ofNat 64 m.seatWord, m.committed, m.live]) ++ [(s.seat f).tt.bell, read (pxBase + 0x20)]

/-- SESSION_STATUS: WIPING with the percentage during a wipe of the target (R346, R351). -/
def doSessionStatus (r : Req) (s : State) : State :=
    if s.wipingTarget r.part then s.respond r stWiping (s.px.wPercent.setWidth 64)
    else s.respond r stOk 0 (.words (s.statusWords r.part))

/-- The command with its rights (Table 11-5). -/
def execSessionStatus (r : Req) (s : State) : State := s.request r 1 5 .any (doSessionStatus r)

/-- HANDSHAKE_TIMEOUT: a handshake without its FINISH in 5 s is discarded (R341). -/
def execHandshakeTimeout (sess : BitVec 32) (s : State) : State :=
  { s with host := { s.host with pending := s.host.pending.filter (fun h => h.id != sess) } }

/-- SESSION_IDLE_TIMEOUT: 30 s without an authenticated request end a session (R341). -/
def execSessionIdleTimeout (sess : BitVec 32) (s : State) : State := s.endSession sess

/-! ### Partitions (R22, R25, R413) -/

/-- A layout names for every field a partition that holds it, and the same one for all its fields. -/
def layoutOk (codes : BitVec 12) : Bool :=
  (List.range 4).all (fun f =>
    let p := bits codes.toNat (3 * f + 2) (3 * f)
    (partFields p).contains f && (partFields p).all (fun g => bits codes.toNat (3 * g + 2) (3 * g) == p))

/-- Fields whose partition a layout changes. -/
def State.changed (s : State) (codes : BitVec 12) : List Nat :=
  (List.range 4).filter (fun f => bits codes.toNat (3 * f + 2) (3 * f) != s.partOf f)

/-- The partition code of a set of changed fields: changes come in halves of the module. -/
def scopeOf (fs : List Nat) : BitVec 3 :=
  if fs.all (fun f => decide (f < 2)) then 4 else if fs.all (fun f => decide (2 ≤ f)) then 5 else 6

/-- Fields of a wipe's scope. -/
def scopeFields (p : BitVec 3) : List Nat := if p = 7 then [0, 1, 2, 3] else partFields p.toNat

/-- The wipe pass, entry 33: in every field of the scope, or of the coordinator for the whole module (R377). -/
def State.wipePass (s : State) (p : BitVec 3) (byHost : Bool) : State :=
  let x (f : Nat) : Pass := { code := 10, resource := p.setWidth 32, byHost := byHost, granted := (s.seat f).tt.bell.setWidth 27 }
  if p = 7 then { s with coord := { s.coord with passes := Tab.put s.coord.passes 33 (x 0) } }
  else eachOf (scopeFields p) (fun f t => t.modHm f (fun h => { h with passes := Tab.put h.passes 33 (x f) })) s

/-- The wipe pass is returned. -/
def State.endWipePass (s : State) (p : BitVec 3) : State :=
  if p = 7 then { s with coord := { s.coord with passes := Tab.erase s.coord.passes 33 } }
  else eachOf (scopeFields p) (fun f t => t.modHm f (fun h => { h with passes := Tab.erase h.passes 33 })) s

/-- A wipe is asked for; one that overlaps a wipe that waits or runs is refused with BUSY (R379, R418). -/
def State.askWipe (s : State) (r : Req) (p : BitVec 3) (why : WipeWhy) (go : State → State) : State :=
  match s.px.wipes.find? (fun w => (scopeFields w.scope).any (fun f => (scopeFields p).contains f)) with
  | some w => (s.noteBusy ((scopeFields w.scope).headD 0) 10).respond r stBusy (busyDetail 33 { code := 10, resource := w.scope.setWidth 32 })
  | none =>
    go { s with px := { s.px with wipes := s.px.wipes ++ [{ scope := p, why := why }] } }

/-- PARTITION_LAYOUT: refused while a changed partition holds a plan; every field that changes partition is wiped before the answer
(R413). -/
def execPartitionLayout (r : Req) (codes : BitVec 12) (s : State) : State :=
  s.request r 2 1 .owner (fun s =>
    if !layoutOk codes then s.badField r
    else
      let fs := s.changed codes
      match fs.find? (fun f => (s.seat f).plan.isSome) with
      | some f => s.respond r stWrongState (s.wrongDetail f)
      | none => if fs = [] then s.respond r stOk else s.askWipe r (scopeOf fs) (.layout codes r) id)

/-- PARTITION_GRANT: a tenant's key hash and grant number for a partition (R340). -/
def execPartitionGrant (r : Req) (p : BitVec 3) (keyHash : BitVec 384) (number : BitVec 32) (s : State) : State :=
  s.request r 2 2 .owner (fun s =>
    if p = 7 then s.badField r
    else
      let g : Grant := { part := p, keyHash := keyHash, number := number }
      ({ s with host := { s.host with grants := s.host.grants.filter (fun (x : Grant) => x.part != p) ++ [g] } }).respond r stOk)

/-- PARTITION_REVOKE: the grant goes and the partition's tenant session ends (R341, R346). -/
def execPartitionRevoke (r : Req) (p : BitVec 3) (s : State) : State :=
  s.request r 2 3 .owner (fun s =>
    if p = 7 then s.badField r
    else
      (({ s with host := { s.host with grants := s.host.grants.filter (fun (x : Grant) => x.part != p) } }).endTenants p).respond r stOk)

end Sys2Proof.Machine
end

