-- ==== Sys2Proof/Machine/Load.lean ====
section
/-! DEFINITION. The Load class (R86, R115, R247 to R251, R346 to R348): plans, deliveries, initial shards, unloading. -/

namespace Sys2Proof.Machine

/-- No Run in progress, and HOLD or no plan (R347). -/
def State.atRest (s : State) (f : Nat) : Bool := s.idleSeat f && !(s.seat f).running

/-- A command that only a seat at rest takes: else WRONG_STATE. -/
def State.atRestOnly (s : State) (r : Req) (go : State → State) : State :=
  s.need r (s.atRest (reqField r)) stWrongState (s.wrongDetail (reqField r)) go

/-- A command that needs a plan: else NO_PLAN. -/
def State.planned (s : State) (r : Req) (go : Plan → State → State) : State :=
  match (s.seat (reqField r)).plan with
  | none => s.respond r stNoPlan
  | some p => go p s

/-! ### Plan transfer (R347) -/

/-- A range lies in the LPDDR of a partition, in one of its fields or across them. -/
def inLpddr (fs : List Nat) (a n : Nat) : Bool :=
  fs.contains (a / lpField) && (List.range ((a + n + lpField - 1) / lpField - a / lpField)).all (fun i => fs.contains (a / lpField + i))

/-- A seat at rest that is not in STANDBY, which holds no plan (R268, R347): else WRONG_STATE. -/
def State.planOnly (s : State) (r : Req) (go : State → State) : State :=
  s.need r (s.atRest (reqField r) && (s.seat (reqField r)).cm.seatState != 1) stWrongState (s.wrongDetail (reqField r)) go

/-- PLAN_BEGIN: the plan header and total length; the expert form names the staging address. A basic form's plan is staged in the staging region that
it lays out itself (Table 01-2; log 15). -/
def doPlanBegin (r : Req) (plan : Plan) (len : Nat) (staging : Addr) (s : State) : State := s.expertOnly r (staging != 0) (fun s => s.planOnly r (fun s =>
    if r.expert && !inLpddr (s.seatFields (reqField r)) staging.toNat len then s.badField r
    else (s.modSeat (reqField r) (fun k =>
      { k with staging := some { plan := plan, len := len, addr := if r.expert then some staging.toNat else plan.regions.staging } })).respond r stOk))

/-- The command with its rights (Table 11-5). -/
def execPlanBegin (r : Req) (plan : Plan) (len : Nat) (staging : Addr) (s : State) : State := s.request r 3 1 .bound (doPlanBegin r plan len staging)

/-- PLAN_DATA: one piece of the plan, which goes to its staging range. -/
def doPlanData (r : Req) (off : Nat) (data : List Byte) (s : State) : State := s.planOnly r (fun s =>
    let f := reqField r
    match (s.seat f).staging with
    | none => s.respond r stWrongState (s.wrongDetail f)
    | some x =>
      if x.len < off + data.length then s.badField r
      else
        let s := s.modSeat f (fun k => { k with staging := some { x with arrived := addSpan x.arrived off (off + data.length) } })
        (match x.addr with
         | some a => s.libWrite f (a + off) data
         | none => s).respond r stOk)

/-- The command with its rights (Table 11-5). -/
def execPlanData (r : Req) (off : Nat) (data : List Byte) (s : State) : State := s.request r 3 2 .bound (doPlanData r off data)

/-- First byte not covered by spans that start at 0. -/
def firstMissing (l : List (Nat × Nat)) : Nat := match l.find? (fun x => x.1 == 0) with | some x => x.2 | none => 0

/-! ### Checks of a plan (R63, R64, R67, R86, R115) -/

/-- The image header names one block for every field, none above 32,768 entries (R63, reason 11). DEDUCED (log 26): no check names the header's
P, Λ, ABORT_LIMIT and RESEND_SLOTS (R47, R54), so a plan that carries one outside its stated range is loaded with it as it is. -/
def headerFault (p : Plan) (n : Nat) : Option (Nat × Nat) :=
  if p.hdr.blockLens.length ≠ n ∨ p.blocks.length ≠ n then some (11, 2 ^ 33 - 1)
  else match (List.range n).find? (fun i => decide (32768 < p.hdr.blockLens.getD i 0) || (p.blocks.getD i []).length != p.hdr.blockLens.getD i 0) with
    | some i => some (11, i)
    | none => none

/-- First fault of the blocks in ascending order (reasons 1 to 9), then of the skeletons (10). -/
def imageFault (p : Plan) : Option (Nat × Nat) :=
  let b0 := p.blocks.getD 0 []
  (p.blocks.findSome? (fun b => blockFault (slotsOf p.hdr.period) p.hdr.resendSlots b (b0.getD 0 0))) <|>
  ((p.blocks.drop 1).findSome? (fun b => (sameSkeleton b0 b).map (fun i => (10, i))))

/-- The fields of a lesson image (Table 03-3). Its reserved fields are ignored (R13). -/
def lessonOf (img : List Byte) : Lesson :=
  let w (o n : Nat) : Nat := ofLe ((img.drop o).take n)
  let es := w 0x0A 2
  let cl := w 0x0C 4
  let code := 0x20 + 8 * es
  let data := code + 8 * cl
  { magic := BitVec.ofNat 32 (w 0 4), format := BitVec.ofNat 16 (w 4 2), planVer := BitVec.ofNat 16 (w 6 2), core := w 8 2, nEntries := es,
    codeLen := cl, entries := (List.range es).map (fun i => BitVec.ofNat 64 (w (0x20 + 8 * i) 8)),
    code := (List.range cl).map (fun i => BitVec.ofNat 64 (w (code + 8 * i) 8)), slateLen := w 0x10 4, deskLen := w 0x14 4,
    slateInit := (img.drop data).take (w 0x10 4), deskInit := (img.drop (data + w 0x10 4)).take (w 0x14 4) }

/-- The lessons of a plan. -/
def lessonsOf (p : Plan) : List Lesson := p.lessons.map lessonOf

/-- Bytes that a lesson image has by its own header. -/
def lessonSize (x : Lesson) : Nat := 0x20 + 8 * x.nEntries + 8 * x.codeLen + x.slateLen + x.deskLen

/-- Slate offset of a lesson's slate data (Table 03-3). -/
def slateDataOff (x : Lesson) : Nat := (8 * x.codeLen + 4095) / 4096 * 4096

/-- Entry records name distinct PERIOD entries and PCs inside the code (R86). -/
def entriesOk (blk : List Entry) (x : Lesson) : Bool :=
  let es := x.entries.map (fun r => r.toNat % 131072)
  es.all (fun e => decide (e < blk.length) && etype (blk.getD e 0) == 1) &&
  x.entries.all (fun r => decide (r.toNat / 131072 % 16384 < x.codeLen)) && decide es.Nodup

/-- The case of R86 (16 to 20) or R115 (21) that a lesson fails; `before` are the lessons listed above it, `size` its image's length. DESIGN
CHOICE (log 27): an image whose length is not what its header says fails the first case. -/
def lessonFault (p : Plan) (fs : List Nat) (before : List Lesson) (x : Lesson) (size : Nat) : Option Nat :=
  if x.magic ≠ 0x4B4C4843 ∨ x.format ≠ 1 ∨ x.planVer ≠ p.hdr.version ∨ x.nEntries = 0 ∨ 256 < x.nEntries ∨
      x.codeLen = 0 ∨ 16384 < x.codeLen ∨ size ≠ lessonSize x then some 16
  else if !fs.contains (fieldOfCore x.core) || before.any (fun y => y.core == x.core) then some 17
  else if !entriesOk (p.blocks.getD (blockIx fs (fieldOfCore x.core)) []) x then some 18
  else if !(List.range x.codeLen).all (fun i => wordLegal (x.code.getD i 0) i x.codeLen) then some 19
  else if 524288 < slateDataOff x + x.slateLen ∨ 0x800000 < x.deskLen then some 20
  else if !x.code.all raiseLegal then some 21 else none

/-- First fault of the lessons, with the core concerned. -/
def lessonsFault (p : Plan) (fs : List Nat) : List Lesson → List (List Byte) → Option (Nat × Nat)
  | _, [] => none
  | before, img :: rest =>
    let x := lessonOf img
    match lessonFault p fs before x img.length with
    | some n => some (n, x.core)
    | none => lessonsFault p fs (before ++ [x]) rest

/-- Reason and index of a rejected plan. DEDUCED (log 26): no check names the header period, so one outside 2,048 to 131,072, or no multiple of 4, is
accepted; TT_PERIOD takes its low 18 bits. -/
def planFault (p : Plan) (fs : List Nat) : Option (Nat × Nat) :=
  headerFault p fs.length <|> imageFault p <|> lessonsFault p fs [] p.lessons

/-! ### Loading (R86, R244, R371) -/

/-- A lesson is written to its core, which rests until a redirect (R88). -/
def State.placeLesson (s : State) (x : Lesson) : State :=
  let s := s.storeBytes (slateBase x.core) (x.code.flatMap (fun w => leBytes 8 w.toNat))
  let s := if x.slateInit = [] then s else s.storeBytes (slateBase x.core + slateDataOff x) x.slateInit
  let s := if x.deskInit = [] then s else s.storeBytes (deskBase x.core) x.deskInit
  s.modCore x.core (fun k => { k with codeLen := x.codeLen, entries := x.entries, mode := .resting })

/-- Smallest MARGIN of the plan's PERIOD entries. -/
def marginMin (p : Plan) : Nat :=
  match ((p.blocks.getD 0 []).filter (fun e => etype e == 1)).map (fun e => efield e 74 68) with
  | [] => 0
  | m :: r => r.foldl Nat.min m

/-- Lowest clock that margin allows (R62): 12.00 % and 6.00 % in units of 0.25 %. -/
def lowestClock (m : Nat) : BitVec 2 := if 48 ≤ m then 2 else if 24 ≤ m then 1 else 0

/-- Links that the plan's runs or its tree use in a field's block. -/
def planLinks (blk : List Entry) (f : Nat) : List Nat :=
  let rs := (List.range blk.length).flatMap (fun i => if etype (blk.getD i 0) = 1 then templateRuns blk i else [])
  let e := blk.getD 0 0
  (linksOfField f).filter (fun l => rs.any (fun r => r.link == l % 6) || bit (efield e 116 93) l ||
    (efield e 123 122 != 2 && efield e 121 117 == l))

/-- Cubby layout of a field (R244): the registers, and RING_OFF, RING_SIZE and WATER in every core's CCB (Table 07-9). -/
def State.placeCubby (s : State) (f : Nat) (c : CubbyPlan) : State :=
  let lent := ((s.field f).mc.borrowed.filter (fun p => decide (c.base.toNat / 65536 ≤ p) && decide (p < c.base.toNat / 65536 + c.pages.toNat))).length
  let s := s.modLb f (fun b =>
    { b with region := c.base, pages := c.pages, usable := c.pages - BitVec.ofNat 24 lent, ccb := c.ccbOff, enable := c.enable, segs := c.segs,
             redirect := false, turned := [], failed := [] })
  if c.enable then
    c.segs.foldl (fun t g => t.libWrite f (slateBase (500 * f + g.core) + c.ccbOff.toNat + 0x28)
      (leBytes 4 g.ringOff.toNat ++ leBytes 4 g.ringSize.toNat ++ leBytes 4 g.water.toNat)) s
  else s

/-- The seat's registers under a new plan; the bell count, the sync state and the committed state stay. -/
def Seat.withPlan (k : Seat) (p : Plan) : Seat :=
  let e := (p.blocks.getD 0 []).getD 0 0
  let root := efield e 123 122 == 2
  let m := marginMin p
  { k with
    plan := some p, staging := none, start := none, stop := none, running := false, bulkOut := [],
    tt := { bell := k.tt.bell, opened := k.tt.opened, sel := { k.tt.sel with aborts := 0 }, win := k.tt.win, syncOffset := k.tt.syncOffset, syncState := k.tt.syncState, outOfTol := k.tt.outOfTol,
            statusLast := k.tt.statusLast, cur := k.tt.cur, curLayer := k.tt.curLayer, recent := k.tt.recent,
            period := BitVec.ofNat 18 p.hdr.period, slots := BitVec.ofNat 17 (slotsOf p.hdr.period), lag := p.hdr.lag,
            abortLimit := p.hdr.abortLimit, entry := p.hdr.holdTemplate.getD 0, marginMin := BitVec.ofNat 7 m, lowest := lowestClock m,
            isRoot := root, parent := BitVec.ofNat 5 (efield e 121 117), counted := k.tt.counted || root },
    cm := { k.cm.quiet with deadline := p.hdr.applyDeadline, share := p.hdr.applyShare, applyStep := none, xfers := [],
                            handReq := none, serving := false, clipDue := false, ownFixDue := [], hist := [] },
    ck := { k.ck with genSize := p.hdr.genSize } }

/-- What waits for the regions of the plan that goes is answered WRONG_STATE (log 17). -/
def State.refuseWaiting (s : State) (f : Nat) : State :=
  let d := s.wrongDetail f
  let rs := (s.seat f).cm.handReq.toList ++ (s.seat f).cm.xfers.filterMap (·.req)
  rs.foldl (fun t r => t.respond r stWrongState d) s

/-- The COUNT word of every core's norm table (R203). -/
def State.placeNorm (s : State) (f : Nat) (p : Plan) : State :=
  if p.hdr.normCount = 0 then s
  else eachOf (coresOf (s.seatFields f)) (fun c t => t.storeBytes (slateBase c + p.hdr.normTable) (leBytes 8 p.hdr.normCount)) s

/-- A plan that has passed its checks is loaded. A partner that has been named is told again, since no earlier plan may have carried the message (R252;
log 14). -/
def State.loadPlan (s : State) (f : Nat) (p : Plan) : State :=
  let fs := s.seatFields f
  let s := (s.refuseWaiting f).stopCores fs
  let s := eachOf fs (fun g t => t.zeroSram g) s
  let s := ((lessonsOf p).foldl State.placeLesson s).modSeat f (fun k => k.withPlan p)
  let s := s.placeNorm f p
  let s := eachOf fs (fun g t => t.modLb g (fun b =>
    { b with mState := if b.mState = 3 ∨ b.mState = 4 ∨ b.mState = 5 then 0 else b.mState })) s
  let s := eachOf fs (fun g t => t.placeCubby g (p.cubby.getD (blockIx fs g) {})) s
  let s := eachOf fs (fun g t =>
    let used := planLinks (t.block g) g
    eachOf (linksOfField g) (fun l t => t.modLink l (fun k =>
      { k with resendMax := p.hdr.resendMax, resendAge := p.hdr.resendAge,
               st := if k.st = .off ∧ used.contains l then .dark else k.st })) t) s
  let s := eachOf fs (fun g t => t.modHm g (fun h => h.planClocks (s.seat f).tt.lowest.toNat)) s
  if (s.seat f).cm.named then s.tell f (.named (s.seat f).cm.partner (s.seat f).cm.moduleId) else s

/-- PLAN_COMMIT: checks and loads the plan, or rejects it with a reason; the loaded plan then stays in force (R347). -/
def doPlanCommit (r : Req) (s : State) : State := s.planOnly r (fun s =>
    let f := reqField r
    match (s.seat f).staging with
    | none => s.respond r stWrongState (s.wrongDetail f)
    | some x =>
      if !spansCover x.arrived x.len then s.respond r stIncomplete (BitVec.ofNat 64 (firstMissing x.arrived))
      else match planFault x.plan (s.seatFields f) with
        | some (n, i) =>
          (s.modSeat f (fun k => { k with staging := none })).respond r stPlanRejected (BitVec.ofNat 64 (n + fieldAt (i % 2 ^ 33) 8))
        | none => (s.loadPlan f x.plan).respond r stOk)

/-- The command with its rights (Table 11-5). -/
def execPlanCommit (r : Req) (s : State) : State := s.request r 3 3 .bound (doPlanCommit r)

/-- UNLOAD: the plan goes and the cores go to NOLESSON; links that no job uses go OFF (R346, Table 09-4). -/
def execUnload (r : Req) (s : State) : State :=
  s.request r 3 8 .bound (fun s => s.atRestOnly r (fun s =>
    let f := reqField r
    let fs := s.seatFields f
    let s := (s.refuseWaiting f).stopCores fs
    let s := s.modSeat f (fun k =>
      { k with plan := none, staging := none, start := none, stop := none, bulkOut := [],
               tt := { k.tt with counted := false, hold := true, left := 0, stack := [], entry := 0, lastPeriod := false, pendingAttempt := none, marginMin := 0,
                                 lowest := 0, isRoot := false, parent := 0 },
               cm := { k.cm.quiet with applyStep := none, xfers := [], handReq := none, serving := false } })
    let s := eachOf fs (fun g t => t.placeCubby g {}) s
    let s := eachOf (s.seatLinks f) (fun l t => t.modLink l (fun k => if k.nodeOk || k.st = .failed then k else { k with st := .off })) s
    s.respond r stOk))

/-! ### Deliveries (R248, R249, R348) -/

/-- A slot takes on a header: it is FILLING, its header goes to memory and to the partner's copy, and with it the histories that wait for the
slot (R250). -/
def State.beginSlot (s : State) (f : Nat) (h : SatHeader) : State :=
  let i := h.step.toNat % 3
  let again : Bool := (s.seat f).cm.hist.any (fun e => e.1 == h.step)
  let s := s.modCm f (fun m => let m := m.setOwn i { st := .filling, hdr := some h }; if again then m.noteHist h.step false else m)
  (s.writeHeader f i).copyHistory f h.step

/-- Field of a header that a delivery may not carry, by its offset (R13, R348): PLAN_VER, JOB_EPOCH, LONG or a reserved flag, SEQ_LEN. -/
def State.headerBad (s : State) (f : Nat) (expert : Bool) (p : Plan) (h : SatHeader) : Option Nat :=
  if h.planVer ≠ p.hdr.version then some 0x14
  else if h.jobEpoch ≠ (s.seat f).cm.epoch then some 0x10
  else if h.rsv ≠ 0 ∨ (!expert && h.long) then some 0x16
  else if !expert && p.hdr.seqLen < h.seqLen then some 0x18 else none

/-- The last byte of a slot has arrived (R348): COMPLETE in DETAIL[0], or INPUT_CRC with the CRC found and the slot FREE; bytes that cannot be read
back have no CRC, and DETAIL is then a free value (log 27). -/
def State.finishSlot (s : State) (r : Req) (f i : Nat) : State :=
  let x := (s.seat f).cm.ownSlot i
  match s.checkSlot f ((s.seat f).satchelBase i) x with
  | (s, .part) => s.respond r stOk
  | (s, .good) => ((s.modCm f (fun m => m.setOwn i { x with st := .complete })).writeHeader f i).respond r stOk 1
  | (s, .bad crc) => (s.modCm f (fun m => m.setOwn i {})).respond r stInputCrc (crc.setWidth 64)
  | (s, .unread) => ((s.modCm f (fun m => m.setOwn i {})).respond r stInputCrc s.freshWord).burn

/-- DELIVER_BEGIN: opens satchel slot s mod 3 (R251, R348). -/
def doDeliverBegin (r : Req) (h : SatHeader) (s : State) : State := s.planned r (fun p s =>
    let f := reqField r
    let x := (s.seat f).cm.ownSlot (h.step.toNat % 3)
    match s.headerBad f r.expert p h with
    | some o => s.respond r stBadField (BitVec.ofNat 64 o)
    | none =>
      if x.holds h.step ∧ (x.st = .live ∨ x.st = .held) then s.respond r stSlotRefused (BitVec.ofNat 64 x.st.code)
      else if x.st ≠ .free ∧ !x.holds h.step then s.respond r stBusy (match x.hdr with | some y => y.step | none => 0)
      else (s.beginSlot f h).finishSlot r f (h.step.toNat % 3))

/-- The command with its rights (Table 11-5). -/
def execDeliverBegin (r : Req) (h : SatHeader) (s : State) : State := s.request r 3 4 .bound (doDeliverBegin r h)

/-- DELIVER_DATA: a piece of a step's inputs, written and forwarded to the partner's copy (R249, R348). -/
def doDeliverData (r : Req) (step : BitVec 64) (off : Nat) (data : List Byte) (s : State) : State := s.planned r (fun _ s =>
    let f := reqField r
    let i := step.toNat % 3
    let k := s.seat f
    let x := k.cm.ownSlot i
    if x.holds step ∧ (x.st = .live ∨ x.st = .held) then s.respond r stSlotRefused (BitVec.ofNat 64 x.st.code)
    else if x.st ≠ .free ∧ !x.holds step then s.respond r stBusy (match x.hdr with | some y => y.step | none => 0)
    else if x.st ≠ .filling then s.respond r stWrongState (s.wrongDetail f)
    else if (match x.hdr with | some h => h.inputLen | none => 0) < off + data.length then s.badField r
    else
      let a := k.satchelBase i
      let s := s.libWrite (s.seatIx f) (a + 64 + off) data
      let s := s.modCm f (fun m => m.setOwn i { x with arrived := addSpan x.arrived off (off + data.length) })
      let s := if k.cm.partnerOk && data != [] then s.forward f .satchelCopy a (64 + off) (64 + off + data.length) else s
      s.finishSlot r f i)

/-- The command with its rights (Table 11-5). -/
def execDeliverData (r : Req) (step : BitVec 64) (off : Nat) (data : List Byte) (s : State) : State := s.request r 3 5 .bound (doDeliverData r step off data)

/-! ### Initial shards (R346) -/

/-- SHARD_DATA: unit data of an initial shard, into the committed buffer, which holds no step until SHARD_COMMIT: reads of it wait, and start again
(R44; log 18). -/
def doShardData (r : Req) (off : Nat) (data : List Byte) (s : State) : State := s.planned r (fun _ s => s.atRestOnly r (fun s =>
    let f := reqField r
    let k := s.seat f
    if k.shardLen < off + data.length then s.badField r
    else ((s.libWrite (s.seatIx f) (k.committedBase + off) data).modSeat f (fun k =>
      { k.restartReads k.cm.committed with noShard := true, shardVer := none })).respond r stOk))

/-- The command with its rights (Table 11-5). -/
def execShardData (r : Req) (off : Nat) (data : List Byte) (s : State) : State := s.request r 3 6 .bound (doShardData r off data)

/-- SHARD_COMMIT: the initial shard is committed with its step; the first step has no earlier mirror to confirm (R40). -/
def doShardCommit (r : Req) (step : BitVec 64) (s : State) : State := s.planned r (fun p s => s.atRestOnly r (fun s =>
    (s.modSeat (reqField r) (fun k =>
      { k.restartReads step with shardVer := some p.hdr.version, noShard := false,
                                 cm := { k.cm with committed := step, live := step, firstStep := true, partnerStep := some step } })).respond r stOk))

/-- The command with its rights (Table 11-5). -/
def execShardCommit (r : Req) (step : BitVec 64) (s : State) : State := s.request r 3 7 .bound (doShardCommit r step)

end Sys2Proof.Machine
end

