-- ==== Sys2Proof/Machine/Run.lean ====
section
/-! DEFINITION. The Run class (R77, R191, R253, R349): where a Run starts and where it stops. -/

namespace Sys2Proof.Machine

/-- The histories of the committed shard are empty (R190, R349): it was written under another plan version, or a record's COUNT, at
0x40 of its 80 bytes, is below 16, or they cannot be read. -/
def State.historiesEmpty (s : State) (f : Nat) (p : Plan) : State × Bool :=
  let k := s.seat f
  if k.shardVer != some p.hdr.version then (s, true)
  else match s.libRead (s.seatIx f) (k.committedBase + k.regions.histOff) k.regions.histLen with
    | (s, some bs) => (s, (List.range (k.regions.histLen / 80)).any (fun i => decide ((bs.getD (80 * i + 0x40) 0).toNat < 16)))
    | (s, none) => (s, true)

/-- Bell of a basic start: the first multiple of 4,096 at least 4,096 bells ahead (R349). -/
def basicBell (now : BitVec 64) : BitVec 64 := BitVec.ofNat 64 ((now.toNat + 4096 + 4095) / 4096 * 4096)

/-- Entry of a basic start: the just-in-time variant while the histories are empty (R191, R349). -/
def State.basicEntry (s : State) (f : Nat) (p : Plan) : State × Nat :=
  match p.hdr.jitEntry with
  | some e => let r := s.historiesEmpty f p; (r.1, if r.2 then e else p.hdr.mainEntry)
  | none => (s, p.hdr.mainEntry)

/-- A start waits for its bell. -/
def State.placeStart (s : State) (f : Nat) (x : StartAt) : State := s.modSeat f (fun k => { k with start := some x })

/-- The mirror does not hold the partner's committed step, as far as the seat knows it, in every field (R253, log 14). -/
def State.mirrorStale (s : State) (f : Nat) : Bool :=
  let m := (s.seat f).cm
  (s.seatFields f).any (fun g => (s.field g).lb.mirrorFor != m.partnerStep.getD m.committed)

/-- Checks that both forms of START make: a shard that a restore left invalid starts no Run (R326: WRONG_STATE, a DESIGN CHOICE of log 26); a seat with a valid partner needs the expert form, its seat and a current mirror (R253,
R349; MIRROR_BEHIND names the partner's CM_MIRROR_FOR as its latest summary told it, log 14). -/
def State.startable (s : State) (r : Req) (go : State → State) : State :=
  let f := reqField r
  let m := (s.seat f).cm
  if (s.seat f).noShard then s.respond r stWrongState (s.wrongDetail f)
  else if !m.partnerOk then go s
  else if !r.expert then s.respond r stForm
  else if m.seatState ≠ 4 then s.respond r stNotSeated (m.seatState.setWidth 64)
  else if s.mirrorStale f then s.respond r stMirrorBehind m.partnerFor
  else go s

/-- RUN_START: places a start at a bell and entry (R349). -/
def doRunStart (r : Req) (bell : BitVec 64) (entry : Nat) (setCount : Bool) (step : BitVec 64) (s : State) : State := s.expertOnly r (bell != 0 || entry != 0 || setCount || step != 0) (fun s =>
    s.planned r (fun p s => s.startable r (fun s =>
      let f := reqField r
      let k := s.seat f
      if !r.expert then
        let e := s.basicEntry f p
        (e.1.placeStart f { bell := basicBell k.tt.bell, entry := e.2 }).respond r stOk
      else if step ≠ 0xFFFFFFFFFFFFFFFF#64 ∧ step ≠ k.cm.committed then s.respond r stStepMismatch k.cm.committed
      else
        let blk := s.block (s.seatIx f)
        if blk.length ≤ entry ∨ etype (blk.getD entry 0) ≠ 1 then s.badField r
        else if bell.toNat < k.tt.bell.toNat + 16 then s.respond r stTooLate k.tt.bell
        else (s.placeStart f { bell := bell, entry := entry, setCount := setCount }).respond r stOk)))

/-- The command with its rights (Table 11-5). -/
def execRunStart (r : Req) (bell : BitVec 64) (entry : Nat) (setCount : Bool) (step : BitVec 64) (s : State) : State := s.request r 4 1 .bound (doRunStart r bell entry setCount step)

/-- RUN_STOP: places a HOLD at a bell, in basic form at the next bell that judges a step (R349). -/
def doRunStop (r : Req) (bell : BitVec 64) (s : State) : State := s.expertOnly r (bell != 0) (fun s => s.planned r (fun _ s =>
    let f := reqField r
    let now := (s.seat f).tt.bell
    if r.expert ∧ bell ≤ now then s.respond r stTooLate now
    else (s.modSeat f (fun k => { k with stop := some (if r.expert then .atBell bell else .nextVerdict) })).respond r stOk))

/-- The command with its rights (Table 11-5). -/
def execRunStop (r : Req) (bell : BitVec 64) (s : State) : State := s.request r 4 2 .bound (doRunStop r bell)

end Sys2Proof.Machine
end

