-- ==== Sys2Proof/Machine/Read.lean ====
section
/-! DEFINITION. The Read class (R273 to R276, R350, R354, R355, R363): committed and mirror reads, registers, logs. -/

namespace Sys2Proof.Machine

/-! ### Committed reads -/

/-- Open reads and waiting opens of a session, over all seats. -/
def State.readsOf (s : State) (id : BitVec 32) : Nat :=
  (((List.range 4).filter (fun f => s.seatIx f == f)).map (fun f =>
    ((s.seat f).reads.filter (fun x => x.sess == id)).length + ((s.seat f).waits.filter (fun w => w.req.sess == id)).length)).sum

/-- Units of a read with their offsets in it: unit order (R245, R273). -/
def withStarts : Nat → List ShardUnit → List (ShardUnit × Nat)
  | _, [] => []
  | p, u :: r => (u, p) :: withStarts (p + unitLen u) r

/-- Where the history block that a read serves lies: in the committed buffer, or for a mirror read in the satchel copy of the next step
(R189); none where no copy slot holds it. -/
def Seat.historyAt (k : Seat) (mirror : Bool) (step : BitVec 64) : Option Nat :=
  if mirror then
    let i := (step + 1).toNat % 3
    match (k.cm.copySlot i).hdr with
    | some h => if h.step = step + 1 then some (k.copyBase i + histSlotOff h) else none
    | none => none
  else some (k.committedBase + k.regions.histOff)

/-- Units that a read serves: the seat's own, or the partner's from the mirror (R275). -/
def Seat.readUnits (k : Seat) (mirror : Bool) : List ShardUnit := if mirror then k.mirrorUnits else k.units

/-- Length of a read. -/
def Seat.readLen (k : Seat) (mirror history : Bool) : Nat := if history then k.regions.histLen else ((k.readUnits mirror).map unitLen).sum

/-- A read opens and its OPEN is answered: READ_ID, step, length, SELF_CHECKED (R350). -/
def State.openRead (s : State) (f : Nat) (r : Req) (immediate mirror history : Bool) (step : BitVec 64) : State :=
  let k := s.seat f
  let x : OpenRead := { id := k.nextRead, sess := r.sess, immediate := immediate, mirror := mirror, history := history, step := step }
  let self := mirror && (s.seatFields f).any (fun g => (s.field g).lb.selfChecked)
  (s.setSeat f { k with reads := k.reads ++ [x], nextRead := k.nextRead + 1 }).respond r stOk 0
    (.words [BitVec.ofNat 64 x.id, step, BitVec.ofNat 64 (k.readLen mirror history), BitVec.ofNat 64 (b2n self)])

/-- The mirror can be read: it has been filled and belongs to a valid partner. -/
def State.mirrorHeld (s : State) (f : Nat) : Bool :=
  (s.seat f).cm.partnerOk && (s.seatFields f).all (fun g => decide (2 ≤ (s.field g).lb.mState.toNat))

/-- READ_OPEN: basic form waits for the next commit; expert forms read the mirror, or start at once (R274 to R276, R350). -/
def doReadOpen (r : Req) (immediate mirror history : Bool) (s : State) : State := s.expertOnly r (immediate || mirror || history) (fun s => s.planned r (fun _ s =>
    let f := reqField r
    let m := (s.seat f).cm
    let mf := (s.field f).lb.mirrorFor
    if m.seatState ≠ 4 then s.respond r stNotSeated (m.seatState.setWidth 64)
    else if 8 ≤ s.readsOf r.sess then s.respond r stBusy
    else if r.expert ∧ m.clipDue then s.respond r stHeld m.committed
    else if mirror then
      (if !s.mirrorHeld f ∨ (history ∧ ((s.seat f).historyAt true mf).isNone) then s.respond r stWrongState (s.wrongDetail f)
       else s.openRead f r false true history mf)
    else if immediate then
      (if (s.seat f).noShard then s.respond r stWrongState (s.wrongDetail f) else s.openRead f r true false history m.committed)
    else s.modSeat f (fun k => { k with waits := k.waits ++ [{ req := r, history := history }] })))

/-- The command with its rights (Table 11-5). -/
def execReadOpen (r : Req) (immediate mirror history : Bool) (s : State) : State := s.request r 5 1 .bound (doReadOpen r immediate mirror history)

/-- A unit may be read: no pull or OWNER_FIX is to replace it (R276), the committed buffer holds a step (R44), and every pushed unit of a clip
correction has landed (R266, R267); a mirror unit waits until its field's mirror is whole and no apply runs in it (R44, R275). -/
def State.unitReady (s : State) (f : Nat) (mirror : Bool) (u : ShardUnit) : Bool :=
  let k := s.seat f
  let p := (u.core, u.record)
  let due (kinds : List XferKind) : Bool := k.cm.xfers.any (fun x => kinds.contains x.kind && x.due.contains p)
  if mirror then
    let st := (s.field (s.holderField f u)).lb.mState
    decide (2 ≤ st.toNat) && st != 3 && st != 4 && !due [.fill, .pullMirror]
  else
    !k.cm.ownFixDue.contains p && !due [.pullShard] && !k.cm.clipDue && !k.noShard

/-- Units of a read that a piece touches. -/
def Seat.pieceUnits (k : Seat) (mirror : Bool) (off n : Nat) : List (ShardUnit × Nat) :=
  (withStarts 0 (k.readUnits mirror)).filter (fun x => decide (x.2 < off + n) && decide (off < x.2 + unitLen x.1))

/-- Bytes of a piece, read by the Librarian of the field that holds each unit; none when a block cannot be read (R221). -/
def State.pieceBytes (s : State) (f : Nat) (x : OpenRead) (off n : Nat) : State × Option (List Byte) :=
  let k := s.seat f
  if x.history then
    (match k.historyAt x.mirror x.step with
     | some a => s.libRead (s.seatIx f) (a + off) n
     | none => (s, none))
  else
    let base := if x.mirror then k.regions.mirror else k.committedBase
    (k.pieceUnits x.mirror off n).foldl (fun (p : State × Option (List Byte)) u =>
      match p.2 with
      | none => p
      | some bs =>
        let lo := Nat.max off u.2
        let hi := Nat.min (off + n) (u.2 + unitLen u.1)
        match p.1.libRead (if x.mirror then p.1.holderField f u.1 else u.1.core / 500) (base + u.1.offset + (lo - u.2)) (hi - lo) with
        | (t, some cs) => (t, some (bs ++ cs))
        | (t, none) => (t, none)) (s, some [])

/-- An open read as of now: a mirror read follows CM_MIRROR_FOR, and counts its restarts (R274, R275). -/
def OpenRead.now (x : OpenRead) (mirrorFor : BitVec 64) : OpenRead :=
  if x.mirror && x.step != mirrorFor then { x with step := mirrorFor, restarts := x.restarts + 1 } else x

/-- Replace an open read, or close it. -/
def State.putRead (s : State) (f : Nat) (x : OpenRead) (close : Bool) : State :=
  s.modSeat f (fun k => { k with reads := k.reads.flatMap (fun y => if y.id = x.id then (if close then [] else [x]) else [y]) })

/-- A piece may be served now: a basic read needs the proof of its step (R274). -/
def State.pieceReady (s : State) (f : Nat) (x : OpenRead) (off n : Nat) : Bool :=
  (x.mirror || x.immediate || s.stepProven f x.step) &&
    (if x.history then x.mirror || (!(s.seat f).cm.clipDue && !(s.seat f).noShard)
     else ((s.seat f).pieceUnits x.mirror off n).all (fun u => s.unitReady f x.mirror u.1))

/-- Serve a piece of `n` bytes: UNRESOLVED units of the mirror are refused (R275); DETAIL[0] of an immediate read says that the step was
proven (R350). A block that cannot be read is answered INTERNAL with its dump, for want of a status of its own (R391, log 18). -/
def State.servePiece (s : State) (f : Nat) (r : Req) (x : OpenRead) (off n : Nat) : State :=
  let k := s.seat f
  let us := if x.history then [] else k.pieceUnits x.mirror off n
  match (if x.mirror then us.find? (fun u => (k.cm.res u.1).outcome == 6) else none) with
  | some u => s.respond r stUnresolved (BitVec.ofNat 64 (u.1.core + fieldAt u.1.record 16))
  | none =>
    match s.pieceBytes f x off n with
    | (s, none) => let d := s.internalDump f; d.1.respond r stInternal (BitVec.ofNat 64 d.2)
    | (s, some bs) =>
      s.respond r stOk (if x.immediate && s.stepProven f x.step then 1 else 0)
        (.piece x.step (x.mirror && us.any (fun u => (k.cm.res u.1).outcome == 5)) bs)

/-- A PIECE: refused on a seat that is not SEATED (R276), and of a mirror that is held no more (log 18); RESTARTED after a flip, MOVED at the third (R274, R350); it waits while its units do. -/
def State.piece (s : State) (f : Nat) (r : Req) (id off len : Nat) : State :=
  let k := s.seat f
  if k.cm.seatState ≠ 4 then s.respond r stNotSeated (k.cm.seatState.setWidth 64)
  else match k.reads.find? (fun x => x.id == id && x.sess == r.sess) with
  | none => s.badField r
  | some x =>
    let x := x.now (s.field f).lb.mirrorFor
    if x.told < x.restarts then
      (if 3 ≤ x.restarts then (s.putRead f x true).respond r stMoved x.step
       else (s.putRead f { x with told := x.restarts } false).respond r stRestarted (BitVec.ofNat 64 x.restarts) (.words [x.step]))
    else if x.mirror ∧ (s.seatFields f).any (fun g => (s.field g).lb.mState == 0) then s.respond r stWrongState (s.wrongDetail f)
    else if k.readLen x.mirror x.history < off ∨ 0x100000 < len then s.badField r
    else
      let n := Nat.min len (k.readLen x.mirror x.history - off)
      if s.pieceReady f x off n then s.servePiece f r x off n
      else s.modSeat f (fun k => { k with pieces := k.pieces ++ [{ req := r, id := id, off := off, len := len }] })

/-- READ_PIECE (R350). -/
def doReadPiece (r : Req) (id off len : Nat) (s : State) : State := s.planned r (fun _ s => s.piece (reqField r) r id off len)

/-- The command with its rights (Table 11-5). -/
def execReadPiece (r : Req) (id off len : Nat) (s : State) : State := s.request r 5 2 .bound (doReadPiece r id off len)

/-- READ_CLOSE (R346). -/
def execReadClose (r : Req) (id : Nat) (s : State) : State :=
  s.request r 5 3 .bound (fun s =>
    let f := reqField r
    match (s.seat f).reads.find? (fun x => x.id == id && x.sess == r.sess) with
    | none => s.badField r
    | some x => (s.putRead f x true).respond r stOk)

/-- READ_OPEN_ANSWER: opens that wait are answered once a commit has come and its step is proven; they name the step then committed.
Pieces that wait are served with them (R274 to R276; log 18). On a seat no longer SEATED both are refused. -/
def execReadOpenAnswer (f : Nat) (s : State) : State :=
  if 4 ≤ f then s else
  let k := s.seat f
  if k.cm.seatState ≠ 4 then
    (k.waits.map (·.req) ++ k.pieces.map (·.req)).foldl (fun t r => t.respond r stNotSeated (k.cm.seatState.setWidth 64))
      (s.modSeat f (fun k => { k with waits := [], pieces := [] }))
  else
  let ready := if s.stepProven f k.cm.committed then k.waits.filter (fun w => w.step.isSome) else []
  let s := s.modSeat f (fun k => { k with waits := k.waits.filter (fun w => !ready.contains w), pieces := [] })
  let s := ready.foldl (fun t w => t.openRead f w.req false false w.history k.cm.committed) s
  k.pieces.foldl (fun t w => t.piece f w.req w.id w.off w.len) s

/-- READ_WAIT_TIMEOUT: the oldest open that waits is answered WAIT_TIMEOUT after 60 s (R350). -/
def execReadWaitTimeout (f : Nat) (s : State) : State :=
  match (s.seat f).waits with
  | w :: _ => if 4 ≤ f then s else (s.modSeat f (fun k => { k with waits := k.waits.drop 1 })).respond w.req stWaitTimeout
  | [] => s

/-! ### Registers and logs -/

/-- Refuse an access to a register, with its log entry (R345, R414). -/
def State.denyAddr (s : State) (r : Req) (cls cmd : Nat) (a : Addr) : State :=
  match s.session r.sess with
  | none => s
  | some (i, k) =>
    let e : VEntry := { addr := a.setWidth 64, source := 6, code := 0x20, unitId := BitVec.ofNat 16 i, loc := BitVec.ofNat 32 (cls + 256 * cmd) }
    (if r.part ≠ 7 then s.vlog (reqField r) e
     else if k.bound then s.vlog ((partFields k.part.toNat).headD 0) e
     else s.modVlog e).respond r stDenied (a.setWidth 64)

/-- READ_REGS: up to 128 registers at the session's grade (R363, R414, R416). -/
def doReadRegs (r : Req) (addrs : List Addr) (s : State) : State :=
    match s.session r.sess with
    | none => s
    | some (_, k) =>
      if addrs = [] ∨ 128 < addrs.length then s.badField r
      else
        let may (a : Addr) : Bool := match regAddr a.toNat with
          | some x => k.mayRead x && (s.sessionRead k a.toNat).isSome
          | none => false
        match addrs.find? (fun a => !may a) with
        | some a => s.denyAddr r 5 4 a
        | none => s.respond r stOk 0 (.words (addrs.map (fun a => (s.sessionRead k a.toNat).getD 0)))

/-- The command with its rights (Table 11-5). -/
def execReadRegs (r : Req) (addrs : List Addr) (s : State) : State := s.request r 5 4 .boundOwner (doReadRegs r addrs)

/-- HEALTH_CLEAR: zero to named counters, all of them or, where one is refused, none (R346, R360, R414). -/
def execHealthClear (r : Req) (addrs : List Addr) (s : State) : State :=
  s.request r 7 3 .boundOwner (fun s =>
    match s.session r.sess with
    | none => s
    | some (_, k) =>
      if addrs = [] ∨ 128 < addrs.length then s.badField r
      else
        let may (a : Addr) : Bool := match regAddr a.toNat with
          | some x => k.mayClear x
          | none => false
        match addrs.find? (fun a => !may a) with
        | some a => s.denyAddr r 7 3 a
        | none =>
          (addrs.foldl (fun t a => match regAddr a.toNat with
            | some x => t.clearCounter x a.toNat
            | none => t) s).respond r stOk)

/-- Entries of a numerics log from the oldest on (R197). -/
def Seat.numEntries (k : Seat) : List NumEntry :=
  let n := k.numHead.toNat
  let new := (k.numlog.filter (fun e => decide (e.1 < n))).map (·.2)
  if k.numWrap then (k.numlog.filter (fun e => decide (n ≤ e.1))).map (·.2) ++ new else new

/-- READ_LOG: a partition's numerics or violation log from an index, or with PART 7 the module's violation log with the count it
dropped; CLEAR empties the log read (R354, R355). -/
def execReadLog (r : Req) (numerics : Bool) (start : Nat) (clear : Bool) (s : State) : State :=
  s.request r 5 5 .bound7 (fun s => s.expertOnly r (start != 0 || clear) (fun s =>
    let f := reqField r
    if r.part = 7 then
      (if numerics then s.badField r
       else
         let es := s.host.modVlog.drop start
         let n := s.host.modVdrop
         (if clear then { s with host := { s.host with modVlog := [], modVdrop := 0 } } else s).respond r stOk (BitVec.ofNat 64 n) (.vlog es))
    else if numerics then
      let es := (s.seat f).numEntries.drop start
      (if clear then s.modSeat f (fun k => { k with numlog := [], numHead := 0, numWrap := false }) else s).respond r stOk 0 (.numlog es)
    else
      let es := (s.seat f).vlog.drop start
      (if clear then (s.modSeat f (fun k => { k with vlog := [] })).setCounter (prBase (s.seatIx f) + 0x30) {} else s).respond r stOk 0 (.vlog es)))

end Sys2Proof.Machine
end

