-- ==== Sys2Proof/Machine/Resets.lean ====
section
/-! DEFINITION. The reset ladder (R117 to R119, R385 to R391) and the Dump class (R391 to R396). -/

namespace Sys2Proof.Machine

/-! ### Asking for a rung (R387) -/

/-- Scope of a rung: a unit, a partition's lessons, a partition, the module. A rung is inside another of the same or wider scope. -/
def ResetJob.inside (w x : ResetJob) : Bool :=
  match x.rung with
  | .chip _ => true
  | .partition => w.part == x.part && decide (rungCode w.rung ≤ 3)
  | .context => w.part == x.part && decide (rungCode w.rung ≤ 2)
  | g => w.rung == g

/-- The core, link or channel under an engine reset may work again. -/
def State.endEngine (s : State) (g : Rung) : State :=
  match g with
  | .engineCore c => s.modCore c (fun k => { k with resetting := false })
  | .engineLink l => s.modLink l (fun k => { k with resetting := false })
  | .engineChannel f ch => s.modLb f (fun b => { b with resetting := b.resetting.filter (fun c => c != ch) })
  | _ => s

/-- A narrower reset is abandoned by a wider one: a request still waiting is answered WRONG_STATE (log 19). -/
def State.abandonReset (s : State) (w : ResetJob) : State :=
  let s := (s.endEngine w.rung).modSeat (reqField w.req) (fun k => if w.rung = .context then { k with ctxReset := false } else k)
  if w.dumped then s else s.respond w.req stWrongState (s.wrongDetail (reqField w.req))

/-- Take on a rung: WRONG_STATE inside a reset of the same or a wider rung; narrower ones are abandoned; its dump starts (R387, R391). -/
def State.askReset (s : State) (r : Req) (g : Rung) : State :=
  let w : ResetJob := { rung := g, part := r.part, req := r }
  if s.px.resets.any (fun x => w.inside x) then s.respond r stWrongState (s.wrongDetail (reqField r))
  else
    let s := (s.px.resets.filter (fun x => x.inside w)).foldl State.abandonReset s
    ({ s with px := { s.px with resets := s.px.resets.filter (fun (x : ResetJob) => !x.inside w) ++ [w] } }).startResetDumps

/-- A rung of a partition: PART 7 names none. -/
def State.partRung (s : State) (r : Req) (ok : Bool) (g : Rung) : State :=
  if r.part = 7 ∨ !ok then s.badField r else s.askReset r g

/-- Field `f` belongs to the target of a request. -/
def inTarget (r : Req) (f : Nat) : Bool := (partFields r.part.toNat).contains f

/-- RESET_ENGINE_CORE (R118, R385): expert form only. -/
def execResetEngineCore (r : Req) (c : Nat) (s : State) : State :=
  s.request r 8 4 .bound7 (fun s => s.expertOnly r true (fun s =>
    s.partRung r (decide (c < 2000) && inTarget r (fieldOfCore c)) (.engineCore c)))

/-- RESET_ENGINE_LINK (R390). -/
def execResetEngineLink (r : Req) (l : Nat) (s : State) : State :=
  s.request r 8 4 .bound7 (fun s => s.expertOnly r true (fun s =>
    s.partRung r (decide (l < 24) && inTarget r (fieldOfLink l)) (.engineLink l)))

/-- RESET_ENGINE_CHANNEL (R390): one of a field's 32 LPDDR channels, served by its Librarian. -/
def execResetEngineChannel (r : Req) (f ch : Nat) (s : State) : State :=
  s.request r 8 4 .bound7 (fun s => s.expertOnly r true (fun s => s.partRung r (inTarget r f && decide (ch < 32)) (.engineChannel f ch)))

/-- RESET_CONTEXT (R389). -/
def doResetContext (r : Req) (s : State) : State := s.partRung r true .context

/-- The command with its rights (Table 11-5). -/
def execResetContext (r : Req) (s : State) : State := s.request r 8 4 .bound7 (doResetContext r)

/-- RESET_PARTITION (R386). -/
def doResetPartition (r : Req) (s : State) : State := s.partRung r true .partition

/-- The command with its rights (Table 11-5). -/
def execResetPartition (r : Req) (s : State) : State := s.request r 8 4 .bound7 (doResetPartition r)

/-- RESET_CHIP: by the owner, PART 7; the expert form sets the wait of 0 to 300 s for the fetch of the dump, 30 s otherwise (R391). -/
def doResetChip (r : Req) (waitS : Nat) (s : State) : State := s.expertOnly r (waitS != 0) (fun s =>
    if r.part ≠ 7 ∨ 300 < waitS then s.badField r else s.askReset r (.chip (if r.expert then waitS else 30)))

/-- The command with its rights (Table 11-5). -/
def execResetChip (r : Req) (waitS : Nat) (s : State) : State := s.request r 8 4 .bound7 (doResetChip r waitS)

/-! ### A rung acts -/

/-- A service of core `c` that is cancelled ends its requester's sequence unresolved (R145). -/
def State.cancelService (s : State) (c : Nat) : State :=
  let r := buddyOf c
  match (s.core r).mxst with
  | some x => if x.stage = .buddyAsked ∨ x.stage = .buddyPassed then s.endSequence r x 3 else s
  | none => s

/-- Engine reset of a core (R118): as a context reset of that core, with TAINT during a running step; a buddy service in progress is cancelled
(R153), and every VX_ register resets (R180). -/
def State.engineCore (s : State) (c : Nat) : State :=
  let f := fieldOfCore c
  let s := ((s.cancelService c).cancelCore c).modCore c (fun k => { k with resetting := true })
  let s := (s.setCounter (vxBase c + 0x30) {}).setCounter (vxBase c + 0x38) {}
  if (s.seat f).tt.hold then s else s.taint f

/-- Engine reset of a link (R390): the resend queue and the receive buffers clear; what they held is lost under R288. -/
def Link.engineReset (k : Link) : Link :=
  { k with kept := [], answer := none, lctl := [], arrivals := k.arrivals.map (fun a => { a with got := false }), resetting := true }

/-- The blocks, of the unit at the head of a channel's queue, that have gone out already: it starts again from its first byte (R390). -/
def State.sentBlocks (s : State) (f ch : Nat) : State × List BulkUnit :=
  match (s.seat f).bulkOut.find? (fun x => x.field == f && x.chan == ch && (bulkRegion x.kind).isSome) with
  | none => (s, [])
  | some x => (List.range (x.off - x.first)).foldl (fun p i =>
      match p.1.libRead f (x.base + 256 * (x.first + i)) 256 with
      | (t, some bs) => (t, p.2 ++ [{ x with off := x.first + i, data := bs }])
      | (t, none) => (t, p.2)) (s, [])

/-- Engine reset of a Librarian channel (R390): its queued transfers are abandoned, but a unit that is pulled or pushed starts again; its open pool
operations end TIMEOUT and are reissued, and its slots carry IDLE until the reset ends. -/
def State.engineChannel (s : State) (f ch : Nat) : State :=
  let r := s.sentBlocks f ch
  let s := (r.1.modSeat f (fun k =>
    { k with bulkOut := r.2 ++ k.bulkOut.filter (fun x => !(x.field == f && x.chan == ch) || (bulkRegion x.kind).isSome) })).modLb f (fun b =>
    { b with resetting := b.resetting ++ [ch] })
  eachOf (linksOfField f) (fun l t => ((t.link l).ops.filter (fun o => o.chan == ch)).foldl (fun t o => t.endOp l o.tag 9) t) s

/-- A reset starts when its dump ends (R391): a context reset waits for the next bell, a chip reset for the fetch. -/
def State.rungActs (s : State) (w : ResetJob) : State :=
  match w.rung with
  | .engineCore c => s.engineCore c
  | .engineLink l => s.modLink l Link.engineReset
  | .engineChannel f ch => s.engineChannel f ch
  | .context => s.modSeat (reqField w.req) (fun k => { k with ctxReset := true })
  | .partition => s.partitionReset (reqField w.req)
  | .chip n => if n = 0 then s.chipReset 2 else s

/-- The dump of a reset has ended: the request is answered with the dump's id and the rung acts. -/
def State.resetDumped (s : State) (id : Nat) : State :=
  match s.px.resets.find? (fun w => w.dumpId == some id && !w.dumped) with
  | none => s
  | some w =>
    let s := { s with px := { s.px with resets := s.px.resets.map (fun x => if x = w then { w with dumped := true } else x) } }
    (s.respond w.req stOk (BitVec.ofNat 64 id)).rungActs w

/-- DUMP_COLLECT_DONE: the dump that field `f` collects ends in every field it covers; `hung` are the banks and units that timed out, each with the reads it
answered before. The
COLLECT is answered, a reset that waited for this dump starts, and one that waited for its fields begins its own (R387, R391). -/
def execDumpCollectDone (f : Nat) (hung : List Nat) (s : State) : State :=
  if 4 ≤ f then s else
  match (s.field f).hm.collecting with
  | none => s
  | some d =>
    let fs := (List.range 4).filter (fun g => match (s.field g).hm.collecting with | some x => x.id == d.id | none => false)
    let s := fs.foldl (fun t g => t.keepDump hung g) s
    ((s.respondTo d.req stOk (BitVec.ofNat 64 d.id)).resetDumped d.id).startResetDumps

/-- CONTEXT_RESET_EFFECT: at its bell the cores rest, the timetable holds and, in a running job, the seat reports TAINT until its next Run
start (R117, R389). -/
def execContextResetEffect (f : Nat) (s : State) : State :=
  if 4 ≤ f ∨ !(s.seat f).ctxReset then s
  else
    let was := (s.seat f).running || (s.seat f).ctxHeld
    let s := eachOf (s.listedCores (s.seatFields f)) (fun c t => t.cancelCore c) s
    let cut := if (s.seat f).tt.hold then (s.seat f).lateEntry else some (s.seat f).tt.entry
    let s := (s.enterHold f).modSeat f (fun k => { k with stop := none, ctxReset := false, ctxHeld := was, lateEntry := cut })
    { s with px := { s.px with resets := s.px.resets.filter (fun w => !(w.rung == .context && w.dumped && inTarget w.req f)) } }

/-- RESET_RUNG_COMPLETE: the oldest engine or partition reset of the field's partition is complete (R385). -/
def execResetRungComplete (f : Nat) (s : State) : State :=
  match s.px.resets.find? (fun w => w.dumped && (rungCode w.rung == 1 || rungCode w.rung == 3) && inTarget w.req f) with
  | none => s
  | some w => ({ s with px := { s.px with resets := s.px.resets.filter (fun x => x != w) } }).endEngine w.rung

/-- CHIP_RESET_WAIT_EXPIRY: the wait for the fetch is over and the module resets (R391). -/
def execChipResetWaitExpiry (s : State) : State := if s.px.resets.any ResetJob.waits then s.chipReset 2 else s

/-! ### The Dump class -/

/-- Fields that a dump of a target covers. -/
def dumpFields (p : BitVec 3) : List Nat := if p = 7 then [0, 1, 2, 3] else partFields p.toNat

/-- DUMP_COLLECT: with the default recipe, or an expert's, a bad field of which is named by its payload offset (Table 11-6); one dump at a time in a
field. -/
def doDumpCollect (r : Req) (recipe : List RecipeEntry) (s : State) : State := s.expertOnly r (!recipe.isEmpty) (fun s =>
    let fs := dumpFields r.part
    match (if r.expert then recipeBad recipe else none) with
    | some o => s.respond r stBadField (BitVec.ofNat 64 o)
    | none =>
    if s.collecting fs then s.respond r stBusy
    else s.startDump fs r.part 1 (if r.expert then recipe else defaultRecipe fs) (some r))

/-- The command with its rights (Table 11-5). -/
def execDumpCollect (r : Req) (recipe : List RecipeEntry) (s : State) : State := s.request r 9 1 .bound7 (doDumpCollect r recipe)

/-- Shares of a dump of the target, in ascending field order. -/
def State.shares (s : State) (p : BitVec 3) (id : Nat) : List Dump :=
  (List.range 4).filterMap (fun f => (s.field f).hm.dumps.find? (fun d => d.id == id && d.part == p))

/-- DUMP_LIST: id, cause and length of every dump held of the target. -/
def execDumpList (r : Req) (s : State) : State :=
  s.request r 9 2 .bound7 (fun s =>
    let ids := ((List.range 4).flatMap (fun f => ((s.field f).hm.dumps.filter (fun d => d.part == r.part)).map (·.id))).eraseDups
    s.respond r stOk 0 (.words (ids.flatMap (fun i =>
      let ds := s.shares r.part i
      [BitVec.ofNat 64 i, ((ds.map (fun (d : Dump) => d.cause)).headD 0).setWidth 64, BitVec.ofNat 64 ((ds.map (fun (d : Dump) => d.data.length)).sum)]))))

/-- DUMP_FETCH: a piece of at most 1 MiB of the shares laid end to end; the last piece of the dump of a chip reset that waits lets it go on
(R391, R396). -/
def doDumpFetch (r : Req) (id off : Nat) (s : State) : State :=
    let bytes := (s.shares r.part id).flatMap (·.data)
    if bytes.length ≤ off then s.badField r
    else
      let s := s.respond r stOk 0 (.bytes ((bytes.drop off).take 0x100000))
      if bytes.length ≤ off + 0x100000 then
        let s := eachOf (List.range 4) (fun f t => t.modHm f (fun h =>
          { h with dumps := h.dumps.map (fun d => if d.id = id ∧ d.part = r.part then { d with fetched := true } else d) })) s
        if s.px.resets.any (fun w => w.waits && w.dumpId == some id) then s.chipReset 2 else s
      else s

/-- The command with its rights (Table 11-5). -/
def execDumpFetch (r : Req) (id off : Nat) (s : State) : State := s.request r 9 3 .bound7 (doDumpFetch r id off)

/-- DUMP_DELETE: frees a dump. -/
def execDumpDelete (r : Req) (id : Nat) (s : State) : State :=
  s.request r 9 4 .bound7 (fun s =>
    if s.shares r.part id = [] then s.badField r
    else (eachOf (List.range 4) (fun f t => t.modHm f (fun h =>
      { h with dumps := h.dumps.filter (fun d => !(d.id == id && d.part == r.part)) })) s).respond r stOk)

end Sys2Proof.Machine
end

