-- ==== Sys2Proof/Machine/Job.lean ====
section
/-! DEFINITION. The Job class (R252, R253, R268 to R271, R293, R294, R311, R312, R316, R325 to R327): seats, partners, fills, substitutes,
the pool. -/

namespace Sys2Proof.Machine

/-! ### Seats and link keys (R29, R294) -/

/-- Every link named lies in the target's fields. -/
def peersOk (r : Req) (peers : List PeerSpec) : Bool := peers.all (fun p => decide (p.link < 24) && inTarget r (fieldOfLink p.link))

/-- What changes what links do takes effect at once on a seat at rest, else at the next bell (R28). -/
def State.atBellOr (s : State) (f : Nat) (x : BellCmd) (now : State → State) : State :=
  if s.atRest f then now s else s.modSeat f (fun k => { k with atBell := k.atBell ++ [x] })

/-- JOB_SEAT: module id, job epoch and peers; link keys are derived (R294). A module leaves STANDBY only by ASSUME (R268). -/
def execJobSeat (r : Req) (moduleId : BitVec 14) (epoch : BitVec 32) (peers : List PeerSpec) (s : State) : State :=
  s.request r 6 1 .bound (fun s =>
    let f := reqField r
    if s.px.factoryOpened then s.deny r 6 1
    else if !peersOk r peers then s.badField r
    else if (s.seat f).cm.seatState = 1 then s.respond r stWrongState (s.wrongDetail f)
    else (s.atBellOr f (.seat moduleId epoch peers) (fun s => s.takeSeat f moduleId epoch peers)).respond r stOk)

/-- JOB_PARTNER: names the partner seat, while no Run is in progress; the pairing holds once both have named each other (R252): `both` says that the
partner has already, and its Librarian is told. -/
def execJobPartner (r : Req) (partner : BitVec 14) (both : Bool) (s : State) : State :=
  s.request r 6 2 .bound (fun s => s.atRestOnly r (fun s =>
    let f := reqField r
    let s := s.modCm f (fun m => { m with partner := partner, named := true, partnerOk := both || m.namedBy == some partner })
    (s.tell f (.named partner (s.seat f).cm.moduleId)).respond r stOk))

/-- Units of a fill: all, or the expert's range of unit order. -/
def Seat.fillUnits (k : Seat) (expert : Bool) (first last : Nat) : List (Nat × Nat) :=
  ((if expert then (k.mirrorUnits.drop first).take (last + 1 - first) else k.mirrorUnits)).map (fun u => (u.core, u.record))

/-- JOB_FILL: the mirror is filled from the partner's committed buffer of a step; a partner whose firmware digest or stepping is not the module's own is
refused (R252, R253). The answer waits for the last unit. -/
def execJobFill (r : Req) (first last : Nat) (digest : BitVec 384) (stepping : BitVec 8) (step : BitVec 64) (s : State) : State :=
  s.request r 6 3 .bound (fun s => s.expertOnly r (first != 0 || last != 0) (fun s => s.planned r (fun _ s =>
    let f := reqField r
    let k := s.seat f
    if !k.cm.partnerOk ∨ k.xfer.isSome ∨ !s.appliesEnded f ∨ k.cm.serving then s.respond r stWrongState (s.wrongDetail f)
    else if r.expert ∧ (last < first ∨ k.mirrorUnits.length ≤ last) then s.badField r
    else if digest ≠ s.fwDigest ∨ stepping ≠ 0xA1 then s.respond r stPairing
    else
      let x : Xfer := { kind := .fill, step := step, req := some r, due := k.fillUnits r.expert first last }
      let s := (s.modLbs f (fun b => { b with mState := 1 })).modCm f (fun m => { m with xfers := m.xfers ++ [x] })
      let s := s.tell f (.fillAsk first (if r.expert then last else k.mirrorUnits.length - 1) s.fwDigest 0xA1)
      if x.due = [] then s.xferDone f x else s)))

/-- The partition that a STANDBY or ASSUME names; PART 7 names the whole-module partition where that is in force. -/
def State.seatOfReq (s : State) (r : Req) : Option Nat :=
  if r.part ≠ 7 then some (reqField r) else if s.partLive 6 then some 0 else none

/-- JOB_STANDBY: no seat, no plan, no keys of a job epoch; the links idle on their presets (R268). -/
def execJobStandby (r : Req) (s : State) : State :=
  s.request r 6 4 .owner (fun s =>
    match s.seatOfReq r with
    | none => s.badField r
    | some f =>
      let k := s.seat f
      if s.px.factoryOpened then s.deny r 6 4
      else if k.plan.isSome ∨ 1 < k.cm.seatState then s.respond r stWrongState (s.wrongDetail f)
      else
        let s := s.modSeat f (fun k => { k with cm := { k.cm with seatState := 1 }, tt := { k.tt with counted := false } })
        (eachOf (s.seatLinks f) (fun l t => t.modLink l (fun k => { k.unkeyed with st := if k.st = .off then .dark else k.st })) s).respond r stOk)

/-- JOB_ASSUME: a module in STANDBY takes a lost seat's identity, keys and committed step C (R269). The plan version is the plan's to
match: no refusal is named for another (log 17). -/
def execJobAssume (r : Req) (moduleId partner : BitVec 14) (epoch : BitVec 32) (_planVer : BitVec 16) (committed : BitVec 64)
    (peers : List PeerSpec) (s : State) : State :=
  s.request r 6 5 .owner (fun s =>
    match s.seatOfReq r with
    | none => s.badField r
    | some f =>
      if s.px.factoryOpened then s.deny r 6 5
      else if !peers.all (fun p => decide (p.link < 24) && (s.seatLinks f).contains p.link) then s.badField r
      else if (s.seat f).cm.seatState ≠ 1 then s.respond r stWrongState (s.wrongDetail f)
      else
        let s := s.modSeat f (fun k =>
          let k := (k.takeId moduleId epoch 2).uncounted
          { k with cm := { k.cm with partner := partner, partnerOk := true, named := true, namedBy := some partner, committed := committed,
                                     live := committed, partnerStep := some committed } })
        (s.givePeers peers epoch).respond r stOk)

/-- JOB_HANDOVER: the partner serves a substitute's pulls (R267, R270, R271): refused while the mirror is being corrected or a pushed unit
is unacknowledged; a running apply ends first. -/
def execJobHandover (r : Req) (committed : BitVec 64) (s : State) : State :=
  s.request r 6 6 .bound (fun s => s.planned r (fun _ s =>
    let f := reqField r
    let m := (s.seat f).cm
    if !m.partnerOk ∨ m.serving ∨ (s.seatFields f).any (fun g => (s.field g).lb.mState == 4) ∨ m.units.any (fun e => e.2.unacked) then
      s.respond r stWrongState (s.wrongDetail f)
    else
      let s := s.modCm f (fun m => { m with serving := true, handReq := some r, handStep := committed })
      if s.appliesEnded f then s.handGo f else s))

/-- JOB_PEERS: replaces the serials of link peers; their keys follow (R293, R346). A module without a seat, wiped, opened or in STANDBY, holds no
keys of a job epoch until SEAT or ASSUME gives them (R268, R420, R422): NOT_SEATED. -/
def execJobPeers (r : Req) (peers : List PeerSpec) (s : State) : State :=
  s.request r 6 7 .bound (fun s =>
    let f := reqField r
    let m := (s.seat f).cm
    if !peersOk r peers then s.badField r
    else if m.seatState < 2 then s.respond r stNotSeated (m.seatState.setWidth 64)
    else (s.atBellOr f (.peers peers) (fun s => s.givePeers peers (s.seat f).cm.epoch)).respond r stOk)

/-- JOB_LEAVE: the seat and its link keys are given up (R346): at once by a seat at rest, else at the next bell (R28). A module leaves STANDBY only by
ASSUME (R268). -/
def execJobLeave (r : Req) (s : State) : State :=
  s.request r 6 13 .bound (fun s =>
    let f := reqField r
    if (s.seat f).cm.seatState = 1 then s.respond r stWrongState (s.wrongDetail f)
    else (s.atBellOr f .leave (fun s => s.leaveSeat f)).respond r stOk)

/-! ### The pool (R311, R312, R316, R325 to R327) -/

/-- JOB_POOL: the region granted on a pool node; seal records of another region are forgotten. -/
def execJobPool (r : Req) (node : BitVec 16) (region : BitVec 32) (s : State) : State :=
  s.request r 6 8 .bound (fun s =>
    (s.modCk (reqField r) (fun k =>
      { k with node := node, region := region, regionOk := true, held := false, recA := none, recB := none, stateA := 0, stateB := 0,
               genA := 0, genB := 0, sealedStep := none })).respond r stOk)

/-- JOB_CKPT_SECRET: the checkpoint secret and KEY_ID; the keys are derived under the module id (R311). -/
def execJobCkptSecret (r : Req) (secret : BitVec 256) (keyId : BitVec 32) (s : State) : State :=
  s.request r 6 9 .bound (fun s =>
    let m := (s.seat (reqField r)).cm.moduleId
    (s.modCk (reqField r) (fun k =>
      { k with secret := secret, keyId := keyId, keyOk := true, keys := ckptKeys secret m keyId })).respond r stOk)

/-- JOB_CHECKPOINT: arms a checkpoint for the first commit at or after a bell, in expert form for the commit of a step; one whose
verdict has passed ends TOO_LATE (R316, R329). The answer waits for the checkpoint's end. -/
def execJobCheckpoint (r : Req) (bell step : BitVec 64) (s : State) : State :=
  s.request r 6 10 .bound (fun s => s.expertOnly r (step != 0) (fun s => s.planned r (fun _ s =>
    let f := reqField r
    let k := s.seat f
    let late := if r.expert then decide (step ≤ k.cm.committed) else match k.ck.lastCommit with
      | some b => decide (bell ≤ b)
      | none => false
    if late then s.ckNote f 0x0A [r]
    else s.modCk f (fun k => { k with arms := k.arms ++ [(if r.expert then .step step else .bell bell, r)] }))))

/-- JOB_SCAN: reads the region's seal records (R325). -/
def execJobScan (r : Req) (s : State) : State :=
  s.request r 6 11 .bound (fun s =>
    let f := reqField r
    let k := (s.seat f).ck
    if k.state ≠ 0 then s.respond r stBusy (busyDetail 32 { code := 9, resource := BitVec.ofNat 32 (s.partOf f) })
    else if !k.regionOk then s.ckAnswer f 5 [r]
    else (s.modCk f (fun k => { k with trigger := 0, reqs := [r], done := [], total := [], next := [] })).issueScan f)

/-- JOB_RESTORE: restores a named step into shard buffer 0; all ones says that the seats share none, and leaves the shard buffers invalid
(R326, R327). -/
def execJobRestore (r : Req) (step : BitVec 64) (s : State) : State :=
  s.request r 6 12 .bound (fun s => s.planned r (fun _ s => s.atRestOnly r (fun s =>
    let f := reqField r
    let k := (s.seat f).ck
    if step = 0xFFFFFFFFFFFFFFFF#64 then (s.modSeat f (fun k => { k with noShard := true, shardVer := none })).ckNote f 9 [r]
    else if k.state ≠ 0 then s.respond r stBusy (busyDetail 32 { code := 9, resource := BitVec.ofNat 32 (s.partOf f) })
    else if !k.regionOk || !k.keyOk then s.ckNote f 5 [r]
    else
      let s := s.modCk f (fun k => { k with trigger := 3, step := step, reqs := [r], state := 7, done := [], next := [], total := [], rewrites := [] })
      if k.held then s.restoreGo f else s.issueScan f)))

end Sys2Proof.Machine
end

