-- ==== Sys2Proof/Machine/Upkeep.lean ====
section
/-! DEFINITION. The Health and Maintenance classes (R228, R296, R346, R357, R373, R377 to R381, R418, R423): cards, passes, rotations, retrains,
wipes asked for, margins, the network, the return state. -/

namespace Sys2Proof.Machine

/-! ### Health (R381, Tables 12-2, 12-20) -/

/-- A card record (Table 12-20). -/
def cardBytes (h : Hm) (f kind index : Nat) : List Byte :=
  let k := h.card kind index
  leBytes 1 kind ++ leBytes 1 f ++ leBytes 2 index ++ leBytes 1 (k.state h).code ++ leBytes 1 k.step ++ leBytes 2 (Nat.min k.score 0xFFFF) ++
    leBytes 2 k.level ++ leBytes 2 (match k.margin with | some m => Nat.min m 0xFFFF | none => 0xFFFF) ++ leBytes 4 k.last.toNat

/-- Fields of a target that a session sees: a tenant those of its own partition. -/
def Session.view (k : Session) (p : BitVec 3) : List Nat :=
  (if p = 7 then [0, 1, 2, 3] else partFields p.toNat).filter (fun f => k.owner || k.ownsField f)

/-- Card records of a field that pass a filter: kind (0 any), state (0 any, else Table 12-4 plus one), least score. -/
def State.cardRecords (s : State) (f kind state minScore : Nat) : List Byte :=
  let h := (s.field f).hm
  ((List.range 7).map (· + 1)).flatMap (fun n =>
    if kind ≠ 0 ∧ kind ≠ n then []
    else ((List.range (cardCount n)).filter (fun i =>
      let k := h.card n i
      (state == 0 || (k.state h).code + 1 == state) && decide (minScore ≤ k.score))).flatMap (fun i => cardBytes h f n i))

/-- The power readings that follow the cards of a Health response: PW_INPUT, PW_FIELD_POWER and PW_FINE at the session's grade (R416; log 27). -/
def State.powerBytes (s : State) (k : Session) : List Byte :=
  [0x08, 0x10, 0x38].flatMap (fun o => leBytes 8 ((s.pwAt (if k.owner then 2 else 0) o).getD 0).toNat)

/-- HEALTH_CARDS: the report cards of the target, and power telemetry at the session's grade (R416); the owner in service mode also chooses the reading of PW_FINE (R381, Table 15-15). -/
def doHealthCards (r : Req) (kind state minScore : Nat) (fine : Option (BitVec 8)) (s : State) : State := s.expertOnly r (kind != 0 || state != 0 || minScore != 0) (fun s =>
    match s.session r.sess with
    | none => s
    | some (_, k) =>
      let bad : Bool := match fine with
        | some x => decide (139 < x.toNat)
        | none => false
      if bad then s.badField r
      else if fine.isSome && !(k.owner && s.px.service) then s.deny r 7 1
      else
        let s := match fine with
          | some x => { s with pw := { s.pw with fineSel := x } }
          | none => s
        s.respond r stOk 0 (.bytes ((k.view r.part).flatMap (fun f => s.cardRecords f kind state minScore) ++ s.powerBytes k)))

/-- The command with its rights (Table 11-5). -/
def execHealthCards (r : Req) (kind state minScore : Nat) (fine : Option (BitVec 8)) (s : State) : State := s.request r 7 1 .any (doHealthCards r kind state minScore fine)

/-- HEALTH_PASSES: HM_PASS and the 34 entries of each field seen, and of the coordinator for the owner under PART 7 (R346, R380). -/
def execHealthPasses (r : Req) (s : State) : State :=
  s.request r 7 2 .any (fun s =>
    match s.session r.sess with
    | none => s
    | some (_, k) =>
      let bases := (k.view r.part).map hmBase ++ (if r.part = 7 ∧ k.owner then [hmCoordBase] else [])
      s.respond r stOk 0 (.words (bases.flatMap (fun b =>
        ([8] ++ (List.range 34).map (fun i => 0x100 + 8 * i)).map (fun o => (s.readReg (b + o)).getD 0)))))

/-! ### Maintenance -/

/-- BUSY over a pass, noted in the field (R379). -/
def State.busyPass (s : State) (r : Req) (f : Nat) (e : BitVec 64 × BitVec 4) : State := (s.noteBusy f e.2).respond r stBusy e.1

/-- DETAIL of the BUSY over the key-sweep pass that field `g` holds while its old epoch lives (R228, R379). -/
def State.sweepHolder (s : State) (f g : Nat) : BitVec 64 :=
  match (s.field g).hm.passes.find? (fun e => e.2.code == 2) with
  | some (i, p) => busyDetail i p
  | none => busyDetail 0 { code := 2, resource := BitVec.ofNat 32 (s.partOf f) }

/-- MAINT_ROTATE: a key rotation of the partition at a bell; BUSY while an old epoch is live or a key-sweep pass is held (R228). -/
def execMaintRotate (r : Req) (bell : BitVec 64) (rate : BitVec 4) (s : State) : State :=
  s.request r 8 1 .boundOwner (fun s => s.expertOnly r (bell != 0 || rate != 0) (fun s =>
    let f := reqField r
    let now := (s.seat f).tt.bell
    let fs := s.seatFields f
    if r.part = 7 ∨ (r.expert ∧ rate = 0) then s.badField r
    else if r.expert ∧ bell ≤ now then s.respond r stTooLate now
    else match fs.find? (fun g => (s.field g).mc.oldLive) with
    | some g => s.busyPass r g (s.sweepHolder f g, 2)
    | none => match s.takePasses fs 2 (s.partOf f) with
      | .error e => s.busyPass r e.1 e.2
      | .ok s => (s.modSeat f (fun k => { k with rotateAt := some (if r.expert then (bell, rate) else (now + 1, 1)) })).respond r stOk))

/-- MAINT_RETRAIN: a FAILED link, or one darkened with its cartridge, starts again from DARK with full training, under its pass, at the next bell
(R28, R296, R298, R438). -/
def execMaintRetrain (r : Req) (l : Nat) (s : State) : State :=
  s.request r 8 2 .bound (fun s =>
    let k := s.link l
    if 24 ≤ l ∨ !inTarget r (fieldOfLink l) then s.badField r
    else if k.st ≠ .failed ∧ !k.combDark then s.respond r stWrongState (s.wrongDetail (reqField r))
    else match s.takePass (fieldOfLink l) 3 (l % 6) with
      | .error e => s.busyPass r (fieldOfLink l) e
      | .ok s => (s.modSeat (fieldOfLink l) (fun k => { k with atBell := k.atBell ++ [.retrain l] })).respond r stOk)

/-- MAINT_WIPE: a blackboard wipe of the partition, or by the owner of the module; it begins at the next bell, which the answer names (R418, Table
14-9). -/
def execMaintWipe (r : Req) (s : State) : State :=
  s.request r 8 3 .boundOwner (fun s => s.askWipe r r.part .request (fun s => s.respond r stOk ((s.seat (reqField r)).tt.bell + 1)))

/-- MAINT_MARGIN: a clock margin of a tile or a voltage margin of an LDO group, under its pass (R373); limits are expert-only (Table 11-5), and where
the measurement ends within them is what its result says (log 15). -/
def execMaintMargin (r : Req) (clock : Bool) (f unit : Nat) (limits : BitVec 64) (s : State) : State :=
  s.request r 8 5 .owner (fun s => s.expertOnly r (limits != 0) (fun s =>
    let ts := if clock then [unit] else (List.range 16).map (fun i => 16 * unit + i)
    if 4 ≤ f ∨ (if clock then 528 else 33) ≤ unit ∨ (r.part ≠ 7 ∧ !inTarget r f) then s.badField r
    else if !s.measurable f ts then s.respond r stWrongState (s.wrongDetail f)
    else match s.takePass f (if clock then 6 else 5) unit with
      | .error e => s.busyPass r f e
      | .ok s => (s.modHm f (fun h => { h with measuring := h.measuring ++ [(if clock then 6 else 5, unit)] })).respond r stOk))

/-- MAINT_NETCFG: the VLAN accepted, and whether generation 2 is (R331, R357). -/
def execMaintNetcfg (r : Req) (vlan : BitVec 12) (gen2 : Bool) (s : State) : State :=
  s.request r 8 6 .owner (fun s => ({ s with host := { s.host with vlan := vlan, gen2En := gen2 } }).respond r stOk)

/-- MAINT_RETURN: the sealed-for-return state, after a wipe of the module; refused while any partition holds a plan (R423). -/
def execMaintReturn (r : Req) (s : State) : State :=
  s.request r 8 8 .owner (fun s =>
    if s.store.sealed then s.deny r 8 8
    else match (List.range 4).find? (fun f => (s.seat f).plan.isSome) with
      | some f => s.respond r stWrongState (s.wrongDetail f)
      | none => s.askWipe r 7 .sealing (fun s => s.respond r stOk))

/-- RETURN_CANCEL: the owner's RETURN in expert form with CANCEL leaves the state (R423). -/
def execReturnCancel (r : Req) (s : State) : State :=
  s.request r 8 8 .owner (fun s => s.expertOnly r true (fun s =>
    if s.store.sealed then (s.keep (fun x => { x with sealed := false })).respond r stOk
    else s.respond r stWrongState (s.wrongDetail (reqField r))))

end Sys2Proof.Machine
end

