-- ==== Sys2Proof/Machine/Tokens.lean ====
section
/-! DEFINITION. Tokens, service mode and the Attest class (R402, R408 to R412, R417, R422, R423). The verdicts of signatures are operands
(log 10). -/

namespace Sys2Proof.Machine

/-! ### Presenting a token (R410, R411, Table 14-16) -/

/-- RESULT of a token of a kind: 7 format or kind, 2 serial, 3 challenge, 4 signature, 5 generation, 6 state, 1 accepted. -/
def State.tokenResult (s : State) (t : Token) (kind : BitVec 8) (stateOk : Bool) : BitVec 4 :=
  let bound := kind = 2 ∨ kind = 3 ∨ kind = 4
  if !t.formatOk ∨ t.kind ≠ kind ∨ t.signer ≠ (if kind = 5 then 1 else 0) ∨ 86400 < t.duration ∨ (kind ≠ 2 ∧ t.duration ≠ 0) then 7
  else if t.serial ≠ s.store.serial then 2
  else if t.challenge ≠ (if bound then s.px.challenge else 0) then 3
  else if !t.sigsOk then 4
  else if !bound ∧ t.ownerGen ≤ s.store.ownerGen then 5
  else if !stateOk then 6 else 1

/-- PX_TOKEN_LAST, and a fresh challenge after a token of kind 2, 3 or 4. -/
def State.noteToken (s : State) (t : Token) (result : BitVec 4) : State :=
  let s := { s with px := { s.px with tokKind := t.kind.setWidth 3, tokResult := result } }
  if t.kind = 2 ∨ t.kind = 3 ∨ t.kind = 4 then ({ s with px := { s.px with challenge := s.freshBits } }).burn else s

/-- A refused token is counted and logged with the status AUTH_FAILED, in the log that R345 names for a request with PART `p` (R411). -/
def State.tokenFail (s : State) (slot : Nat) (k : Option Session) (p : BitVec 3) (cls cmd : Nat) : State :=
  (s.bump (pxBase + 0x50)).logAt k p
    { source := 6, code := 0x21, unitId := BitVec.ofNat 16 slot, loc := BitVec.ofNat 32 (cls + 256 * cmd) }

/-- Maintenance TOKEN with a token of a kind: `go` is what an accepted one does. -/
def State.present (s : State) (r : Req) (t : Token) (kind : BitVec 8) (stateOk : State → Bool) (go : State → State) : State :=
  s.request r 8 7 .owner (fun s =>
    match s.session r.sess with
    | none => s
    | some (i, k) =>
      let x := s.tokenResult t kind (stateOk s)
      let s := s.noteToken t x
      if x = 1 then go s else (s.tokenFail i (some k) r.part 8 7).respond r stAuthFailed)

/-- Service mode is over. -/
def State.endService (s : State) : State := { s with px := { s.px with service := false, serviceLeft := 0 } }

/-- TOKEN_SERVICE_MODE: a kind-2 token starts service mode, or with DURATION 0 ends it; refused while a partition is bound to a tenant
(R417). -/
def execTokenServiceMode (r : Req) (t : Token) (s : State) : State :=
  s.present r t 2 (fun s => (s.sessionsWith (fun k => !k.owner && k.bound)).isEmpty) (fun s =>
    (if t.duration = 0 then s.endService
     else { s with px := { s.px with service := true, serviceLeft := BitVec.ofNat 17 t.duration, serviceFrom := s.hmClk } }).respond r stOk)

/-- SERVICE_MODE_EXPIRY: DURATION seconds after entry (R417). -/
def execServiceModeExpiry (s : State) : State := if s.px.service then s.endService else s

/-- A wipe that overlaps the module waits or runs. -/
def State.wipeBusy (s : State) : Bool := !s.px.wipes.isEmpty

/-- TOKEN_FACTORY_UNLOCK: a kind-3 token wipes the module, then opens it for the factory (R422). -/
def execTokenFactoryUnlock (r : Req) (t : Token) (s : State) : State :=
  s.present r t 3 (fun s => !s.wipeBusy) (fun s => s.askWipe r 7 .unlock (fun s => s.respond r stOk))

/-- TOKEN_REINSTATEMENT: a kind-4 token leaves the sealed-for-return state (R423). -/
def execTokenReinstatement (r : Req) (t : Token) (s : State) : State :=
  s.present r t 4 (fun s => s.store.sealed) (fun s => (s.keep (fun x => { x with sealed := false })).respond r stOk)

/-- The keys that a token names become the owner's: the store holds both, and their hash (R408). -/
def State.installOwner (s : State) (t : Token) : State :=
  s.keep (fun x => { x with owner := some t.keyHash, ownerKeys := t.ownerKeys, ownerGen := t.ownerGen })

/-- TOKEN_OWNER_TRANSFER: a kind-5 token signed by the owner replaces the owner keys; no session ends (R411). -/
def execTokenOwnerTransfer (r : Req) (t : Token) (s : State) : State :=
  s.present r t 5 (fun s => s.store.owner.isSome) (fun s => (s.installOwner t).respond r stOk)

/-- OWNERSHIP_TOKEN: an owner FINISH that carries a kind-1 token installs the keys it names and completes under them (R408). -/
def execOwnershipToken (r : Req) (t : Token) (cred : Cred) (s : State) : State :=
  s.finishFrame r (fun h s =>
    let x := s.tokenResult t 1 h.owner
    let s := s.noteToken t x
    if x = 1 then
      let s := s.installOwner t
      s.finish r h (s.credOk h cred)
    else (s.tokenFail 0 none h.part 1 3).finish r h false)

/-! ### Attest (R409, R412) -/

/-- ATTEST_REPORT: a fresh report over the host's nonce with both identity signatures. -/
def execAttestReport (r : Req) (nonce : BitVec 256) (s : State) : State :=
  s.request r 10 1 .any (fun s =>
    let b := s.reportBytes nonce s.freshBits r.part
    s.burn.respond r stOk 0 (.report b (idSignature (reportHash b))))

/-- ATTEST_CERTS: both certificate chains. -/
def execAttestCerts (r : Req) (s : State) : State :=
  s.request r 10 2 .any (fun s => s.respond r stOk 0 (.bytes (Config.certChains s.store.serial)))

end Sys2Proof.Machine
end

