-- ==== Sys2Proof/Machine/Wipe.lean ====
section
/-! DEFINITION. The blackboard wipe and the boot (R356, R403 to R405, R413, R418 to R423). -/

namespace Sys2Proof.Machine

/-! ### Scope of a wipe -/

/-- Lowest fields of the partitions in force that a list of fields holds. -/
def State.heads (s : State) (fs : List Nat) : List Nat := fs.filter (fun f => s.seatIx f == f)

/-- The partitions that a wipe leaves behind, as lists of fields: a layout's new ones, else those in force. -/
def State.wipeParts (s : State) (w : WipeJob) : List (List Nat) :=
  let code (f : Nat) : Nat := match w.why with
    | .layout codes _ => bits codes.toNat (3 * f + 2) (3 * f)
    | _ => s.partOf f
  ((scopeFields w.scope).map (fun f => partFields (code f))).eraseDups

/-- Fresh memory keys for the partitions of a wipe: epoch (CURRENT + 1) mod 256 with OLD_LIVE clear (Table 14-8, R401). -/
def State.wipeKeys (s : State) (w : WipeJob) : State :=
  (s.wipeParts w).foldl (fun t fs =>
    let e := (t.field (fs.headD 0)).mc.epoch + 1
    t.newKeys fs (fun n _ m => m.fresh e n)) s

/-- A dump under collection in a field of the scope is given up; its COLLECT is answered WRONG_STATE (log 17). -/
def State.dropDump (s : State) (f : Nat) : State :=
  match (s.field f).hm.collecting with
  | none => s
  | some d =>
    let s := eachOf (List.range 4) (fun g t => t.modHm g (fun h =>
      { h with collecting := if (match h.collecting with | some x => x.id == d.id | none => false) then none else h.collecting })) s
    match d.req with
    | some r => s.respond r stWrongState (s.wrongDetail f)
    | none => s

/-- PX_WIPE while a wipe runs; its percentage of stage 4 is open (log 4). -/
def State.showWipe (s : State) (scope : BitVec 3) (boot : Bool) : State :=
  (({ s with px := { s.px with wStage := 4, wScope := scope, wPercent := BitVec.ofNat 7 (s.freshWord.toNat % 101), wBoot := boot } }).keep
    (fun x => { x with wipePending := true })).burn

/-- Resets that reach into the scope of a wipe are dropped with it, and what they held is released; a chip reset lives on unless the wipe is the
module's, its dump to be collected again if the wipe has given it up (R351, R391). -/
def State.dropResets (s : State) (w : WipeJob) : State :=
  let out (x : ResetJob) : Bool := w.scope == 7 || (x.part != 7 && (dumpFields x.part).any (fun f => (scopeFields w.scope).contains f))
  let lost (x : ResetJob) : Bool := !x.dumped && x.fields.all (fun f =>
    match (s.field f).hm.collecting with
    | some d => x.dumpId != some d.id
    | none => true)
  let s := (s.px.resets.filter out).foldl (fun t x => t.endEngine x.rung) s
  { s with px := { s.px with resets := (s.px.resets.filter (fun x => !out x)).map (fun x => if lost x then { x with dumpId := none } else x) } }

/-- Stages 1 to 3 in the scope of a wipe: cores, plans, seats and links, keys, SRAM. -/
def State.beginWipe (s : State) (w : WipeJob) : State :=
  let fs := scopeFields w.scope
  let s := eachOf (s.heads fs) (fun f t => ((t.stopCores (t.seatFields f)).dropSeat f).modSeat f (fun k => { k with wiping := true })) s
  let s := eachOf fs (fun f t => ((t.wipeLinks f).dropDump f).modHm f Hm.stopWork) s
  eachOf fs (fun f t => t.zeroSram f) ((s.dropResets w).wipeKeys w)

/-- WIPE_START: a wipe asked for begins at a bell, where it takes its pass (R418, R419, Table 14-9). -/
def execWipeStart (p : BitVec 3) (s : State) : State :=
  match s.px.wipes.find? (fun w => w.scope == p && !w.started) with
  | none => s
  | some w =>
    let s := { s with px := { s.px with wipes := s.px.wipes.map (fun x => if x = w then { w with started := true } else x) } }
    ((s.beginWipe w).wipePass p true).showWipe p false

/-! ### The end of a wipe -/

/-- Stages 4 and 5 in one field: LPDDR zero under the fresh epoch, counters and dumps gone. -/
def State.clearField (s : State) (f : Nat) : State :=
  let s := s.zeroLpddr f
  { s with counters := s.counters.filter (fun e => counterOwner e.1 != f), latched := s.latched.filter (fun e => counterOwner e.1 != f) }.modHm f
    (fun h => { h with dumps := [] })

/-- Stages 5 and 6 of a partition: logs, PR_SEALED_BELL, its tenant session. -/
def State.clearPart (s : State) (f : Nat) : State :=
  ((s.clearLogs f).modSeat f (fun k => { k with sealedBell := 0, wiping := false })).endTenants (BitVec.ofNat 3 (s.partOf f))

/-- The end of a wipe: PX_WIPE idle, WIPE_PENDING clear once no other wipe runs, the pass returned. -/
def State.finishWipe (s : State) (p : BitVec 3) (left : List WipeJob) : State :=
  let run := left.any (fun w => w.started)
  (({ s with px := { s.px with wipes := left, wStage := if run then s.px.wStage else 0, wPercent := if run then s.px.wPercent else 100 } }).keep
    (fun x => { x with wipePending := run })).endWipePass p

/-- A layout in which the fields of a list take their codes from another (Table 11-13): a wipe moves the fields of its scope only (R25). -/
def mergeLayout (old new : BitVec 12) (fs : List Nat) : BitVec 12 :=
  BitVec.ofNat 12 ((List.range 4).foldl (fun n f =>
    n + fieldAt (bits (if fs.contains f then new else old).toNat (3 * f + 2) (3 * f)) (3 * f)) 0)

/-- What follows a wipe: its new layout, answered before the sessions of the changed partitions end (R413), the sealed state (R423), factory mode
(R422). -/
def State.afterWipe (s : State) (w : WipeJob) : State :=
  match w.why with
  | .request => s
  | .layout codes r =>
    let codes := mergeLayout s.host.layout codes (scopeFields w.scope)
    let ps := (s.heads (s.changed codes)).map (fun f => BitVec.ofNat 3 (s.partOf f))
    ps.foldl State.endPartition (({ s with host := { s.host with layout := codes } }).respond r stOk)
  | .sealing => (s.keep (fun x => { x with sealed := true })).endAllTenants
  | .unlock =>
    ({ s with px := { s.px with factoryOpened := true, secrets := false, rootGens := s.px.gens.toNat, factory := true },
              host := { s.host with grants := [] } }).keep
      (fun x => { x with owner := none, ownerKeys := [], ownerGen := 0, sealed := false })

/-- WIPE_LPDDR_DONE: zeroing of LPDDR ends, and with it the wipe (R419). -/
def execWipeLpddrDone (p : BitVec 3) (s : State) : State :=
  match s.px.wipes.find? (fun w => w.scope == p && w.started) with
  | none => s
  | some w =>
    let fs := scopeFields p
    let s := eachOf fs (fun f t => t.clearField f) s
    let s := eachOf (s.heads fs) (fun f t => t.clearPart f) s
    let s := if p = 7 then { s with host := { s.host with modVlog := [], modVdrop := 0 } } else s
    ((s.finishWipe p (s.px.wipes.filter (fun x => x != w))).afterWipe w).startResetDumps

/-! ### Boot (R356, R403) -/

/-- Bytes of a boot frame: the header of Table 11-2 with CLASS 0x0B, SESSION 0 and CLEAR, the module being the requester, then its payload (R356). The
manual gives neither SEQ, here 1, nor PART, here 7, nor the payloads' layout (log 27). -/
def bootFrame (cmd : BitVec 8) (payload : List Byte) : List Byte :=
  [3, 0x0B, cmd, 16] ++ leBytes 4 0 ++ leBytes 8 1 ++ List.replicate 4 0 ++ leBytes 4 7 ++ leBytes 4 payload.length ++ leBytes 4 0 ++ payload

/-- SOLICIT, to the boot group and to IPv4 broadcast (R356). -/
def State.solicit (s : State) : State :=
  s.send (.bootSolicit s.store.serial s.px.minSvn) [bootFrame 1 (leBytes 16 s.store.serial.toNat ++ leBytes 1 s.px.minSvn)]
    [udpTo bootGroup 49301, udpTo (mapped4 0xFFFFFFFF#32) 49301]

/-- READ of the manifest, or of the image, from an offset on: up to 8,192 bytes of what it still lacks (R356). -/
def State.bootRead (s : State) (manifest : Bool) (off : Nat) : State :=
  let n := Nat.min 8192 ((if manifest then 5445 else s.px.imageLen) - off)
  s.send (.bootRead manifest off n) [bootFrame 3 (leBytes 8 off ++ leBytes 4 n ++ leBytes 4 (b2n manifest))]

/-- BOOT_SOLICIT: every 250 ms the ROM solicits, once its first checks are made (R356); a certificate mismatch is recorded (R403). -/
def execBootSolicit (s : State) : State :=
  if !s.romRuns ∨ 1 < s.px.stage then s
  else
    let s := { s with px := { s.px with stage := 1, reason := if s.px.stage = 0 ∧ !s.px.certsOk then 9 else s.px.reason } }
    s.solicit

/-- A stage of the boot fails: what was fetched is discarded, REASON recorded; the ROM waits in stage 4 for its retry (R403; log 20). -/
def State.bootFail (s : State) (reason : BitVec 5) : State :=
  { s with px := { s.px with stage := 4, reason := reason, manifest := none, buf := [], tries := 0, imageLen := 0 } }

/-- BOOT_ADVERTISE: the first answer names the lengths; the manifest is fetched (R356). A manifest is 5,445 bytes long (R404). -/
def execBootAdvertise (imageLen manifestLen : Nat) (s : State) : State :=
  if !s.romRuns ∨ s.px.stage ≠ 1 then s
  else if manifestLen ≠ 5445 then s.bootFail 1
  else ({ s with px := { s.px with stage := 2, imageLen := imageLen, buf := [], tries := 0 } }).bootRead true 0

/-- Reason to refuse a manifest (R404, R405); none where it is accepted. `rom` is the key digest that the ROM holds. -/
def manifestFault (m : Manifest) (rom : BitVec 384) (minSvn : Nat) : Option (BitVec 5) :=
  if !m.magicOk ∨ !m.reservedOk ∨ 64 < m.svn then some 1
  else if m.stepping ≠ 0xA1 then some 2
  else if m.keyDigest ≠ rom then some 3
  else if !m.edOk then some 4
  else if !m.mldsaOk then some 5
  else if m.svn < minSvn then some 6 else none

/-- Bytes of the manifest or image that have arrived. -/
def Proctor.got (p : Proctor) : Nat := p.buf.length

/-- A piece has arrived: the next is asked for. -/
def State.bootNext (s : State) (manifest : Bool) (b : List Byte) : State :=
  ({ s with px := { s.px with buf := b, tries := 0 } }).bootRead manifest b.length

/-- The whole manifest has arrived: it is checked, and the image is asked for (R403 to R405). -/
def State.bootManifest (s : State) (m : Manifest) : State :=
  match manifestFault m s.px.romKeys s.px.minSvn with
  | some e => s.bootFail e
  | none => ({ s with px := { s.px with stage := 3, manifest := some m, buf := [], tries := 0 } }).bootRead false 0

/-- The whole image has arrived: the firmware runs and begins the boot wipe, under the wipe pass, only if it matches its manifest (R403, R418,
R421). -/
def State.bootImage (s : State) (m : Manifest) (b : List Byte) : State :=
  if Config.sha384 b ≠ m.imageDigest then s.bootFail 7
  else if b.length ≠ m.imageLen then s.bootFail 8
  else (({ s with px := { s.px with stage := 5, buf := b, tries := 0 } }).wipePass 7 false).showWipe 7 true

/-- BOOT_READ_RESPONSE: a piece of the manifest, the last with the verdicts of its signatures, or of the image that the ADVERTISE named (R356,
R403). -/
def execBootReadResponse (data : List Byte) (edOk mldsaOk : Bool) (s : State) : State :=
  let b := s.px.buf ++ data
  if !s.romRuns then s
  else match s.px.stage.toNat, s.px.manifest with
    | 2, _ => if b.length < 5445 then s.bootNext true b else s.bootManifest { bytes := b.take 5445, edOk := edOk, mldsaOk := mldsaOk }
    | 3, some m => if b.length < s.px.imageLen then s.bootNext false b else s.bootImage m b
    | _, _ => s

/-- BOOT_READ_RETRY: a READ unanswered for 50 ms is sent again; after 8 failed tries the ROM solicits again (R356). -/
def execBootReadRetry (s : State) : State :=
  if !s.romRuns ∨ (s.px.stage ≠ 2 ∧ s.px.stage ≠ 3) then s
  else if 8 ≤ s.px.tries + 1 then
    { s with px := { s.px with stage := 1, manifest := none, buf := [], tries := 0, imageLen := 0 } }
  else ({ s with px := { s.px with tries := s.px.tries + 1 } }).bootRead (s.px.stage == 2) s.px.got

/-- BOOT_RETRY_TIMER: one second after a failed verification the ROM solicits again (R403). -/
def execBootRetryTimer (s : State) : State :=
  if s.romRuns ∧ s.px.stage = 4 then ({ s with px := { s.px with stage := 1 } }).solicit else s

/-- BOOT_WIPE_DONE: the boot wipe of the whole module ends and port 49,300 opens (R403, R421). -/
def execBootWipeDone (s : State) : State :=
  if s.px.stage ≠ 5 then s
  else
    let w : WipeJob := { scope := 7 }
    let s := (eachOf [0, 1, 2, 3] (fun f t => t.zeroSram f) s).wipeKeys w
    let s := eachOf [0, 1, 2, 3] (fun f t => t.clearField f) s
    let s := s.finishWipe 7 []
    { s with px := { s.px with stage := 6 } }

end Sys2Proof.Machine
end

