-- ==== Sys2Proof/Machine/Gen2.lean ====
section
/-! DEFINITION. Generation 2 of the host protocol (R357, R358, Table 11-8): its session and the commands that stand for generation 3
ones. -/

namespace Sys2Proof.Machine

/-- SEQ of a generation 2 request, unwrapped in serial arithmetic modulo 2^32 about h; 0 below the start. -/
def seq2 (h : BitVec 64) (q : BitVec 32) : BitVec 64 :=
  let v := (h.toNat : Int) + (q - h.setWidth 32).toInt
  if v ≤ 0 then 0 else BitVec.ofNat 64 v.toNat

/-- A generation 2 request, on port 49,200: the same path as generation 3, in basic form, on the partition {0,1,2,3}. -/
def State.request2 (s : State) (q : Req2) (cls cmd : Nat) (x : Rights) (go : Req → State → State) : State :=
  if s.px.stage ≠ 6 ∨ !s.host.gen2En then s
  else if !s.tagOk q.vlan then s.bump (prBase 0 + 0x40)
  else match s.session q.sess with
    | none => s.bump (prBase 0 + 0x38)
    | some (_, k) =>
      if !k.gen2 then s.bump (prBase 0 + 0x38)
      else
        let r : Req := { sess := q.sess, seq := seq2 k.h q.seq, part := 6, cmd := q.op, vlan := q.vlan, src := q.src }
        s.serve r cls cmd x (go r)

/-- An answer to OPEN, under the keys that its exchange gives (R358; log 27). -/
def State.answer2 (s : State) (q : Req2) (keys : BitVec 512) (id : BitVec 32) (st : BitVec 16) : State :=
  s.send (.gen2 id 0 (status2 st) .empty) (frames2 keys 1 (status2 st) id 0 .empty) [q.src] q.vlan

/-- A refusal of OPEN. -/
def State.refuse2 (s : State) (q : Req2) (keys : BitVec 512) (st : BitVec 16) : State := s.answer2 q keys 0 st

/-- The job of a generation 2 session (R357): one seat, SEATED under module id 0, with no partner; no pool and no checkpoint. -/
def State.seat2 (s : State) : State :=
  (s.ckInterrupt 0).modSeat 0 (fun k =>
    { k with cm := { k.cm with moduleId := 0, seatState := 4, partner := 0, partnerOk := false },
             ck := { genSize := k.ck.genSize, off := true } })

/-- The credential is accepted for the partition: the owner's keys, or those of its grant (R340). -/
def State.cred2 (s : State) (c : Cred) : Bool :=
  c.sigsOk && (s.store.owner == some c.keyHash || s.host.grants.any (fun (g : Grant) => g.part == 6 && g.keyHash == c.keyHash))

/-- GEN2_OPEN: a session by X25519 and Ed25519 alone, bound to {0,1,2,3} where that partition is in force and free; its job is one seat,
SEATED under module id 0, with no partner (R357, R358). -/
def execGen2Open (q : Req2) (cred : Cred) (nonce share : BitVec 256) (s : State) : State :=
  if s.px.stage ≠ 6 ∨ !s.host.gen2En ∨ !s.px.certsOk ∨ s.wipingTarget 6 then s
  else if !s.tagOk q.vlan then s.bump (prBase 0 + 0x40)
  else
  let keys := Config.sessionKeys nonce share s.freshBits
  if !s.partLive 6 then s.refuse2 q keys stWrongState
  else if (s.boundSlot 6).isSome ∨ s.px.service then s.refuse2 q keys stRoleTaken
  else if !s.cred2 cred then s.refuse2 q keys stAuthFailed
  else match s.freeSlot with
    | none => s.refuse2 q keys stSessionLimit
    | some i =>
      let id := s.newId
      let k : Session := { id := id, owner := false, part := 6, bound := true, gen2 := true, keys := keys }
      (((s.burn).setSlot i (some k)).seat2).answer2 q keys id stOk

/-- GEN2_CLOSE. -/
def execGen2Close (q : Req2) (s : State) : State := s.request2 q 1 4 .any doSessionClose

/-- GEN2_INFO: as Session STATUS. -/
def execGen2Info (q : Req2) (s : State) : State := s.request2 q 1 5 .any doSessionStatus

/-- GEN2_LOAD: a plan by sub-type. -/
def execGen2Load (q : Req2) (x : Gen2Load) (s : State) : State :=
  match x with
  | .start p n => s.request2 q 3 1 .bound (fun r => doPlanBegin r p n 0)
  | .data o n => s.request2 q 3 2 .bound (fun r => doPlanData r o n)
  | .commit => s.request2 q 3 3 .bound doPlanCommit

/-- GEN2_WEIGHTS: an initial shard. -/
def execGen2Weights (q : Req2) (x : Gen2Weights) (s : State) : State :=
  match x with
  | .data o b => s.request2 q 3 6 .bound (fun r => doShardData r o b)
  | .commit step => s.request2 q 3 7 .bound (fun r => doShardCommit r step)

/-- GEN2_FEED: a step's inputs. -/
def execGen2Feed (q : Req2) (x : Gen2Feed) (s : State) : State :=
  match x with
  | .start h => s.request2 q 3 4 .bound (fun r => doDeliverBegin r h)
  | .data step o b => s.request2 q 3 5 .bound (fun r => doDeliverData r step o b)

/-- GEN2_GO. -/
def execGen2Go (q : Req2) (s : State) : State := s.request2 q 4 1 .bound (fun r => doRunStart r 0 0 false 0)

/-- GEN2_HALT. -/
def execGen2Halt (q : Req2) (s : State) : State := s.request2 q 4 2 .bound (fun r => doRunStop r 0)

/-- FETCH: offset 0 opens a read of the committed step in place of the session's earlier one and serves its first piece; any other offset
serves a piece of it. Every FETCH returns the last committed step (R357). -/
def State.fetch2 (s : State) (r : Req) (id off len : Nat) : State :=
  let f := reqField r
  let k := s.seat f
  if k.plan.isNone then s.respond r stNoPlan
  else if k.cm.seatState ≠ 4 then s.respond r stNotSeated (k.cm.seatState.setWidth 64)
  else if off ≠ 0 then
    s.piece f r (match k.reads.find? (fun x => x.sess == r.sess) with | some x => x.id | none => id) off len
  else
    let x : OpenRead := { id := k.nextRead, sess := r.sess, immediate := true, step := k.cm.committed }
    (s.setSeat f { k with reads := k.reads.filter (fun y => y.sess != r.sess) ++ [x], nextRead := k.nextRead + 1 }).piece f r x.id 0 len

/-- GEN2_FETCH. -/
def execGen2Fetch (q : Req2) (id off len : Nat) (s : State) : State := s.request2 q 5 1 .bound (fun r s => s.fetch2 r id off len)

/-- GEN2_REGS. -/
def execGen2Regs (q : Req2) (addrs : List Addr) (s : State) : State := s.request2 q 5 4 .boundOwner (fun r => doReadRegs r addrs)

/-- GEN2_HEALTH. -/
def execGen2Health (q : Req2) (s : State) : State := s.request2 q 7 1 .any (fun r => doHealthCards r 0 0 0 none)

/-- GEN2_RESET: the rungs of the basic form; an engine target is expert-only, and the chip is the owner's (R346, R385). -/
def execGen2Reset (q : Req2) (g : Rung) (s : State) : State :=
  match g with
  | .context => s.request2 q 8 4 .bound7 doResetContext
  | .partition => s.request2 q 8 4 .bound7 doResetPartition
  | .chip _ => s.request2 q 8 4 .owner (fun r s => s.deny r 8 4)
  | _ => s.request2 q 8 4 .bound7 (fun r s => s.badField r)

/-- GEN2_DUMP: offset 0 with id 0 collects a dump, whose answer names it; else a piece of a dump is fetched. -/
def execGen2Dump (q : Req2) (id off : Nat) (s : State) : State :=
  if id = 0 then s.request2 q 9 1 .bound7 (fun r => doDumpCollect r [])
  else s.request2 q 9 3 .bound7 (fun r => doDumpFetch r id off)

/-! ### Frames that no command fits (R13, R352, Table 11-6) -/

/-- A malformed frame of no session: a HELLO is answered without a session, a generation 2 OPEN (no CLASS) with status 2; under an open handshake it
is a FINISH, answered under its keys, and ends it (log 15). Any other fails its tag. -/
def State.unknownFrame (s : State) (r : Req) (st : BitVec 16) : State :=
  let q : Req2 := { sess := r.sess, seq := r.seq.setWidth 32, op := r.cmd, vlan := r.vlan, src := r.src }
  if s.px.stage ≠ 6 then s
  else if !s.tagOk r.vlan then s.bump (prBase (reqField r) + 0x40)
  else if r.sess = 0 ∧ r.cls = 1 ∧ r.cmd = 1 then (if s.wipingTarget r.part then s else s.refuseHello r false st)
  else if r.sess = 0 ∧ r.cls = 0 ∧ r.cmd = 1 then
    (if !s.host.gen2En ∨ s.wipingTarget 6 then s else (s.refuse2 q (Config.sessionKeys 0 0 s.freshBits) st).burn)
  else match s.host.pending.find? (fun h => h.id == r.sess) with
    | some h => if s.wipingTarget h.part then s else (s.dropHandshake h).sendHandshake r h st 0
    | none => s.bump (prBase (reqField r) + 0x38)

/-- UNKNOWN_COMMAND: an authenticated frame with a wrong VER or LEN or a reserved header field that is not zero, or an unknown class or command (R13,
R352, Table 11-6); a generation 2 session's carries its OPCODE in CMD and is answered status 2 (R358). -/
def execUnknownCommand (r : Req) (badFrame : Bool) (s : State) : State :=
  let st := if badFrame then stBadFrame else stBadCommand
  match s.session r.sess with
  | none => s.unknownFrame r st
  | some (_, k) =>
    if k.gen2 then
      s.request2 { sess := r.sess, seq := r.seq.setWidth 32, op := r.cmd, vlan := r.vlan, src := r.src } 0 0 .any (fun q s => s.respond q st)
    else s.request r 0 0 .any (fun s => s.respond r st)

end Sys2Proof.Machine
end

