-- ==== Sys2Proof/Machine/Network.lean ====
section
/-! DEFINITION. The host port's link and its network features (R331, R332, Table 11-1). -/

namespace Sys2Proof.Machine

/-! ### Addresses -/

/-- Modified EUI-64 of a MAC address: the universal bit inverted, 0xFFFE in the middle (R332). -/
def eui64 (mac : BitVec 48) : BitVec 64 :=
  (mac.extractLsb' 24 24 ^^^ 0x020000#24) ++ 0xFFFE#16 ++ mac.extractLsb' 0 24

/-- The port's IPv6 addresses: link-local, and one under each prefix that SLAAC gave (R332). -/
def HostPort.own6 (h : HostPort) : List (BitVec 128) :=
  (0xFE80000000000000#64 :: h.prefixes).map (fun p => p ++ eui64 h.mac)

/-- The groups the port listens to: all-nodes, while booting the boot group, and solicited-node of each own address (R332, R356). -/
def HostPort.groups (h : HostPort) (booting : Bool) : List (BitVec 128) :=
  0xFF020000000000000000000000000001#128 :: (if booting then [bootGroup] else []) ++
    h.own6.map (fun a => 0xFF0200000000000000000001FF#104 ++ a.extractLsb' 0 24)

/-- The port carries frames: the module is out of reset and its link is up. -/
def State.portServes (s : State) : Bool := s.romRuns && s.host.up

/-! ### Answers -/

/-- ICMP_ECHO: an echo request to an address of the port is answered with its own data (R332). -/
def execIcmpEcho (q : EchoFrom) (dst : BitVec 128) (data : List Byte) (s : State) : State :=
  let mine : Bool :=
    if q.v6 then (s.host.own6 ++ s.host.groups (s.px.stage != 6)).contains dst else s.host.ipv4 == some (dst.setWidth 32)
  if !s.portServes then s
  else if !s.tagOk q.vlan then s.bump (prBase 0 + 0x40)
  else if mine then s.send (.echo q.v6 data) [] [q.src.setWidth 144] q.vlan else s

/-- NDP_MESSAGE: a solicitation of an own address is answered with the MAC address; a router's prefix gives one global address (R332). -/
def execNdpMessage (m : Ndp) (s : State) : State :=
  if !s.portServes then s
  else match m with
    | .solicit target v =>
      if !s.tagOk v then s.bump (prBase 0 + 0x40)
      else if s.host.own6.contains target then s.send (.advert target s.host.mac) [] [] v else s
    | .routerAdvert hi =>
      if s.host.prefixes.contains hi then s else { s with host := { s.host with prefixes := s.host.prefixes ++ [hi] } }

/-- ARP_REQUEST: a request for the port's IPv4 address is answered with the MAC address (R332). -/
def execArpRequest (q : ArpReq) (s : State) : State :=
  if !s.portServes then s
  else if !s.tagOk q.vlan then s.bump (prBase 0 + 0x40)
  else if s.host.ipv4 = some q.target then s.send (.arp q.target s.host.mac) [] [] q.vlan else s

/-- DHCPV4_REPLY: the port takes the IPv4 address (R332). -/
def execDhcpv4Reply (addr : BitVec 32) (s : State) : State :=
  if s.portServes then { s with host := { s.host with ipv4 := some addr } } else s

/-! ### The port's link (R331, Table 11-11) -/

/-- PORT_MODE_TIMEOUT: after 2 s without a link the port tries its other mode (R331). -/
def execPortModeTimeout (s : State) : State :=
  if s.romRuns && !s.host.up then { s with host := { s.host with tryDr8 := !s.host.tryDr8 } } else s

/-- PORT_LINK_UP: PR_PORT shows the link and its mode, and the search ends (R331). A port without an IPv4 address asks for one by DHCPv4 (R332); when it
asks is the model's choice (log 27). -/
def execPortLinkUp (dr8 : Bool) (s : State) : State :=
  if s.romRuns then
    let s := { s with host := { s.host with up := true, mode := if dr8 then 2 else 1, tryDr8 := dr8 } }
    if s.host.ipv4.isNone then s.send (.dhcp s.host.mac) [] [udpTo (mapped4 0xFFFFFFFF#32) 67] else s
  else s

/-- PORT_LINK_DOWN: PR_PORT reads down (Table 11-11). -/
def execPortLinkDown (s : State) : State := { s with host := { s.host with up := false, mode := 0 } }

end Sys2Proof.Machine
end

