-- ==== Sys2Proof/Machine/Power.lean ====
section
/-! DEFINITION. Power, resets by pin, thermal trip, alerts, telemetry and the I3C target (R416, R425 to R440). -/

namespace Sys2Proof.Machine

/-! ### Alerts (R428, R436, R439, R440) -/

/-- A condition begins while the module is powered: its alert is set, and the condition lasts until its end is reported. -/
def State.beginAlert (s : State) (i : Nat) : State :=
  if s.pw.powered then
    ({ s with pw := { s.pw with cond := s.pw.cond ||| BitVec.ofNat 10 (2 ^ i) } }).setAlert (BitVec.ofNat 10 (2 ^ i))
  else s

/-- An event without a lasting condition sets its alert. -/
def State.raiseAlert (s : State) (i : Nat) : State :=
  if s.pw.powered then s.setAlert (BitVec.ofNat 10 (2 ^ i)) else s

/-- UNDERVOLT: below 37.0 V for 1 ms (Table 15-2). -/
def execUndervolt (s : State) : State := s.beginAlert 0

/-- OVERVOLT: above 43.0 V for 1 ms (Table 15-2). -/
def execOvervolt (s : State) : State := s.beginAlert 1

/-- OVERCURRENT: above 160 A averaged over 10 ms (Table 15-2). -/
def execOvercurrent (s : State) : State := s.beginAlert 2

/-- CAP: input power above PW_CAP over 100 ms (Table 15-13). -/
def execCap (s : State) : State := s.beginAlert 3

/-- DIE_HOT: a die at 95 °C (Table 15-7). -/
def execDieHot (s : State) : State := s.beginAlert 4

/-- INLET_HOT: an inlet above 40 °C (Table 15-7). -/
def execInletHot (s : State) : State := s.beginAlert 5

/-- LPDDR_HOT: a package case at 90 °C (Table 15-7). -/
def execLpddrHot (s : State) : State := s.beginAlert 6

/-- ALERT_CONDITION_END: the condition ends; its bit stays until it is cleared (R440). -/
def execAlertConditionEnd (bit : Nat) (s : State) : State :=
  if bit ≤ 6 then { s with pw := { s.pw with cond := s.pw.cond &&& ~~~(BitVec.ofNat 10 (2 ^ bit)) } } else s

/-- PHASE: the alert is set, the phase's card takes 64 points, and its load moves at the next boundary (Tables 15-2, 12-3). -/
def execPhase (f ph : Nat) (s : State) : State :=
  if s.pw.powered ∧ f < 4 ∧ ph < 22 then
    ((s.raiseAlert 7).demerit f 6 ph 64).modHm f (fun h => { h with phaseDue := h.phaseDue ++ [ph] })
  else s

/-! ### Cartridge latches (R438) -/

/-- CART_LATCH: while powered, a latch that opens darkens the field's links; the latch is shown either way. A cartridge is removed only without power
(R438), so that one unlatched then is sensed as gone, and as present again once latched (R440; log 28). -/
def execCartLatch (f : Nat) (s : State) : State :=
  if 4 ≤ f then s
  else
    let m := ~~~(BitVec.ofNat 4 (2 ^ f))
    let s := { s with pw := { s.pw with latch := s.pw.latch &&& m, present := if s.pw.powered then s.pw.present else s.pw.present &&& m } }
    if !s.pw.powered then s
    else eachOf ((List.range 6).map (fun i => 6 * f + i))
      (fun l t => (t.linkMove l .dark).modLink l (fun k => { k with combDark := true })) (s.raiseAlert 8)

/-- CARTRIDGE_LATCHED: the cartridge and its latch are shown; the links wait for a RETRAIN. -/
def execCartridgeLatched (f : Nat) (s : State) : State :=
  if 4 ≤ f then s
  else { s with pw := { s.pw with latch := s.pw.latch ||| BitVec.ofNat 4 (2 ^ f), present := s.pw.present ||| BitVec.ofNat 4 (2 ^ f) } }

/-! ### Power-on and power loss (R428, R430, R431) -/

/-- The PW_ block at power-on: every register at its reset value, pins and sensed bits as they are (R440). -/
def Power.powerOn (p : Power) : Power :=
  { powered := true, pwrEn := true, rstN := p.rstN, pg := false, vio := p.vio, slot := p.slot, present := p.present, latch := p.latch }

/-- PWR_EN_RISE: soft-start and the rails (Table 15-3). A rise counts only after PWR_EN has been low (R430), and without VIO the pin reads low (R434). Combs of latched cartridges
light again. -/
def execPwrEnRise (s : State) : State :=
  if s.pw.pwrEn || !s.pw.vio then s
  else { s with pw := s.pw.powerOn, counters := s.counters.filter (fun e => e.1 / 0x1000000000 != 0xF0B),
                latched := s.latched.filter (fun e => e.1 / 0x1000000000 != 0xF0B),
                links := Tab.each (fun _ => {}) (s.links.map (fun e =>
                  (e.1, { e.2 with combDark := e.2.combDark && !s.pw.latch.getLsbD (fieldOfLink e.1) }))) (fun k => k) }

/-- POWER_GOOD: PG rises, and the boot ROM is released unless RST_N is low (R430, R432). -/
def execPowerGood (s : State) : State :=
  if s.pw.powered ∧ !s.pw.pg then ({ s with pw := { s.pw with pg := true } }).bootStarts else s

/-- The module loses power: chip reset, PG low, rails down. The trip latch, the sideband address and the alerts' conditions go with it
(R431, R433, R435). The information store returns the newer valid copy of each record (R429). The next boot reports cause 1 (R428). -/
def State.powerLoss (s : State) : State :=
  if s.pw.powered then
    ({ s with store := s.nv.get, pw := { s.pw with powered := false, pg := false, trip := false, cond := 0, i3cAddr := none, i3cAnswer := none } }).chipReset 1
  else s

/-- PWR_EN_FALL (R431). -/
def execPwrEnFall (s : State) : State := State.powerLoss { s with pw := { s.pw with pwrEn := false } }

/-- UNDERVOLT_SHUTDOWN: acts as PWR_EN falling; only a new rise of PWR_EN ends it (Table 15-2). -/
def execUndervoltShutdown (s : State) : State := s.powerLoss

/-- INPUT_OVERVOLT_CUTOFF: the hot-swap opens (Table 15-2). -/
def execInputOvervoltCutoff (s : State) : State := s.powerLoss

/-- HOT_SWAP_TRIP: the hot-swap opens (Table 15-2). -/
def execHotSwapTrip (s : State) : State := s.powerLoss

/-! ### RST_N and the thermal trip (R432, R433) -/

/-- RST_N_ASSERT: a chip reset by RST_N, held while the pin is low. While the trip is latched the module is in reset already, and
without power the pin has no effect. -/
def execRstNAssert (s : State) : State :=
  if !s.pw.rstN then s
  else
    let s := { s with pw := { s.pw with rstN := false } }
    if s.pw.powered && s.pw.pg && !s.pw.trip then s.chipReset 3 else s

/-- RST_N_RELEASE: the module boots. A latched trip is released if every die sensor reads below 100 °C, else the pulse is ignored. -/
def execRstNRelease (s : State) : State :=
  if s.pw.rstN then s
  else
    let free : Bool := s.pw.trip && decide (s.pw.die.toNat < 100)
    (({ s with pw := { s.pw with rstN := true, trip := s.pw.trip && !free } }) : State).bootStarts

/-- THERMTRIP: a die sensor at 115 °C latches the trip and resets the module (R433). -/
def execThermtrip (s : State) : State :=
  if !s.pw.powered || s.pw.trip then s
  else
    let s := (({ s with pw := { s.pw with trip := true, die := if s.pw.die.toNat < 115 then 115 else s.pw.die } }).raiseAlert 9).bump (pwBase + 0x48)
    s.chipReset 4

/-! ### Telemetry (R416, Table 14-7) -/

/-- The nearest multiple of a step; a value half way between two takes the upper one if `up`. -/
def nearest (step n : Nat) (up : Bool) : Nat :=
  let low := n / step * step
  if n % step * 2 < step ∨ (n % step * 2 = step ∧ !up) then low else low + step

/-- Each 16-bit field power to the nearest 5 W. -/
def fieldSteps (v : BitVec 64) : BitVec 64 :=
  BitVec.ofNat 64 ((List.range 4).foldl (fun n f => n + fieldAt (nearest 5 (v.extractLsb' (16 * f) 16).toNat false % 65536) (16 * f)) 0)

/-- The readings of one wavelength (R308, Table 09-17). -/
def State.takeOptic (s : State) (x : Optic) : State :=
  if x.link < 24 ∧ x.k < 9 then
    s.modLink x.link (fun k => { k with opt := Tab.set (fun _ => {}) k.opt x.k { rx := x.rx, tx := x.tx, eye := x.eye } })
  else s

/-- TELEMETRY_WINDOW: the readings of one grade change at the end of its window: 1 s, 100 ms or 1 ms. Measurements of the level inputs of
R365 (timing sensors, wavelengths, combs, phases) and optical readings arrive with it (log 2). -/
def execTelemetryWindow (t : Telemetry) (s0 : State) : State :=
  let s := t.optics.foldl (fun s x => s.takeOptic x) (t.levels.foldl (fun s x => s.takeLevel x) s0)
  if !s0.pw.powered then s0
  else match t.grade with
    | 0 => (({ s with pw := { s.pw with
        wattsTen := BitVec.ofNat 16 (nearest 50 t.watts.toNat (s.freshWord.getLsbD 0)), temps := t.temps, die := t.temps.setWidth 8 } }) : State).burn
    | 1 => { s with pw := { s.pw with watts := BitVec.ofNat 16 (nearest 5 t.watts.toNat false), fieldPower := fieldSteps t.fields } }
    | 2 => { s with pw := { s.pw with wattsSvc := t.watts, volts := t.volts, amps := t.amps, fine := t.fine } }
    | _ => s

/-! ### The sideband target (R435) -/

/-- What the target sends for a read addressed to it. -/
def State.i3cSend (s : State) (v : BitVec 64) : State :=
  if s.i3cHeard then { s with pw := { s.pw with i3cAnswer := some v } } else s

/-- ENTDAA: a target without an address takes the one assigned. -/
def execEntdaa (addr : BitVec 7) (s : State) : State :=
  if s.i3cUp && s.pw.i3cAddr.isNone then { s with pw := { s.pw with i3cAddr := some addr } } else s

/-- RSTDAA: the address is dropped. -/
def execRstdaa (s : State) : State := if s.i3cUp then { s with pw := { s.pw with i3cAddr := none } } else s

/-- GETPID: the manufacturer code above the low 32 bits of the serial. -/
def execGetpid (s : State) : State :=
  s.i3cSend (Config.i3cMaker.setWidth 64 <<< 32 ||| (s.store.serial.setWidth 32).setWidth 64)

/-- GETBCR. -/
def execGetbcr (s : State) : State := s.i3cSend (Config.i3cBcr.setWidth 64)

/-- GETDCR. -/
def execGetdcr (s : State) : State := s.i3cSend (Config.i3cDcr.setWidth 64)

end Sys2Proof.Machine
end

