-- ==== Sys2Proof/Machine/Scalar.lean ====
section
/-! DEFINITION. Scalar, predicate and address instructions, branches and loops (R98 to R100, Tables 03-6 and 03-7). -/

namespace Sys2Proof.Machine

/-- Shift count: bits [5:0] (R98). -/
def shCount (v : BitVec 64) : Nat := v.toNat % 64

/-- High 64 bits of the unsigned 128-bit product. -/
def mulHigh (a b : BitVec 64) : BitVec 64 := BitVec.ofNat 64 (a.toNat * b.toNat / 2 ^ 64)

/-- Unsigned quotient; all ones when the divisor is 0. -/
def divU (a b : BitVec 64) : BitVec 64 := if b = 0 then BitVec.allOnes 64 else a / b

/-- Unsigned remainder; the dividend when the divisor is 0. -/
def remU (a b : BitVec 64) : BitVec 64 := if b = 0 then a else a % b

/-- PLOG functions (Table 03-6). -/
def plogFn (sc : BitVec 5) (a b : Bool) : Bool :=
  match sc.toNat % 4 with
  | 0 => a && b
  | 1 => a || b
  | 2 => a != b
  | _ => a && !b

/-- NOP (0x00). -/
def execNop (c : Nat) (i : Ins) (s : State) : State := issueK c 0x00 i id s

/-- ADD (0x01): sD := sA + sB, modulo 2^64. -/
def execAdd (c : Nat) (i : Ins) (s : State) : State :=
  issueK c 0x01 i (fun k => k.setS i.dst (k.sreg i.sa + k.sreg i.sb)) s

/-- SUB (0x02): sD := sA - sB. -/
def execSub (c : Nat) (i : Ins) (s : State) : State :=
  issueK c 0x02 i (fun k => k.setS i.dst (k.sreg i.sa - k.sreg i.sb)) s

/-- AND (0x03): sD := sA AND sB. -/
def execAnd (c : Nat) (i : Ins) (s : State) : State :=
  issueK c 0x03 i (fun k => k.setS i.dst (k.sreg i.sa &&& k.sreg i.sb)) s

/-- OR (0x04): sD := sA OR sB. -/
def execOr (c : Nat) (i : Ins) (s : State) : State :=
  issueK c 0x04 i (fun k => k.setS i.dst (k.sreg i.sa ||| k.sreg i.sb)) s

/-- XOR (0x05): sD := sA XOR sB. -/
def execXor (c : Nat) (i : Ins) (s : State) : State :=
  issueK c 0x05 i (fun k => k.setS i.dst (k.sreg i.sa ^^^ k.sreg i.sb)) s

/-- SLL (0x06): sD := sA shifted left by sB[5:0]. -/
def execSll (c : Nat) (i : Ins) (s : State) : State :=
  issueK c 0x06 i (fun k => k.setS i.dst (k.sreg i.sa <<< shCount (k.sreg i.sb))) s

/-- SRL (0x07): sD := sA shifted right, logical, by sB[5:0]. -/
def execSrl (c : Nat) (i : Ins) (s : State) : State :=
  issueK c 0x07 i (fun k => k.setS i.dst (k.sreg i.sa >>> shCount (k.sreg i.sb))) s

/-- SRA (0x08): sD := sA shifted right, arithmetic, by sB[5:0]. -/
def execSra (c : Nat) (i : Ins) (s : State) : State :=
  issueK c 0x08 i (fun k => k.setS i.dst ((k.sreg i.sa).sshiftRight (shCount (k.sreg i.sb)))) s

/-- MUL (0x09): sD := low 64 bits of the product. -/
def execMul (c : Nat) (i : Ins) (s : State) : State :=
  issueK c 0x09 i (fun k => k.setS i.dst (k.sreg i.sa * k.sreg i.sb)) s

/-- MULHU (0x0A): sD := high 64 bits of the unsigned product. -/
def execMulhu (c : Nat) (i : Ins) (s : State) : State :=
  issueK c 0x0A i (fun k => k.setS i.dst (mulHigh (k.sreg i.sa) (k.sreg i.sb))) s

/-- MIN (0x0B): signed minimum. -/
def execMin (c : Nat) (i : Ins) (s : State) : State :=
  issueK c 0x0B i (fun k => k.setS i.dst (if (k.sreg i.sb).slt (k.sreg i.sa) then k.sreg i.sb else k.sreg i.sa)) s

/-- MAX (0x0C): signed maximum. -/
def execMax (c : Nat) (i : Ins) (s : State) : State :=
  issueK c 0x0C i (fun k => k.setS i.dst (if (k.sreg i.sa).slt (k.sreg i.sb) then k.sreg i.sb else k.sreg i.sa)) s

/-- DIVU (0x0D): unsigned quotient; all ones when sB = 0. -/
def execDivu (c : Nat) (i : Ins) (s : State) : State :=
  issueK c 0x0D i (fun k => k.setS i.dst (divU (k.sreg i.sa) (k.sreg i.sb))) s

/-- REMU (0x0E): unsigned remainder; sA when sB = 0. -/
def execRemu (c : Nat) (i : Ins) (s : State) : State :=
  issueK c 0x0E i (fun k => k.setS i.dst (remU (k.sreg i.sa) (k.sreg i.sb))) s

/-- ADDI (0x10): sD := sA + imm. -/
def execAddi (c : Nat) (i : Ins) (s : State) : State :=
  issueK c 0x10 i (fun k => k.setS i.dst (k.sreg i.sa + imm64 i)) s

/-- ANDI (0x11): sD := sA AND imm. -/
def execAndi (c : Nat) (i : Ins) (s : State) : State :=
  issueK c 0x11 i (fun k => k.setS i.dst (k.sreg i.sa &&& imm64 i)) s

/-- ORI (0x12): sD := sA OR imm. -/
def execOri (c : Nat) (i : Ins) (s : State) : State :=
  issueK c 0x12 i (fun k => k.setS i.dst (k.sreg i.sa ||| imm64 i)) s

/-- XORI (0x13): sD := sA XOR imm. -/
def execXori (c : Nat) (i : Ins) (s : State) : State :=
  issueK c 0x13 i (fun k => k.setS i.dst (k.sreg i.sa ^^^ imm64 i)) s

/-- SLLI (0x14): sD := sA shifted left by imm[5:0]. -/
def execSlli (c : Nat) (i : Ins) (s : State) : State :=
  issueK c 0x14 i (fun k => k.setS i.dst (k.sreg i.sa <<< shCount (imm64 i))) s

/-- SRLI (0x15): sD := sA shifted right, logical, by imm[5:0]. -/
def execSrli (c : Nat) (i : Ins) (s : State) : State :=
  issueK c 0x15 i (fun k => k.setS i.dst (k.sreg i.sa >>> shCount (imm64 i))) s

/-- SRAI (0x16): sD := sA shifted right, arithmetic, by imm[5:0]. -/
def execSrai (c : Nat) (i : Ins) (s : State) : State :=
  issueK c 0x16 i (fun k => k.setS i.dst ((k.sreg i.sa).sshiftRight (shCount (imm64 i)))) s

/-- LI (0x17): sD := imm, sign-extended. -/
def execLi (c : Nat) (i : Ins) (s : State) : State :=
  issueK c 0x17 i (fun k => k.setS i.dst (imm64 i)) s

/-- LIH (0x18): sD[63:32] := imm; sD[31:0] kept. -/
def execLih (c : Nat) (i : Ins) (s : State) : State :=
  issueK c 0x18 i (fun k => k.setS i.dst (i.imm ++ (k.sreg i.dst).extractLsb' 0 32)) s

/-- CMPEQ (0x20): pD := (sA = sB). -/
def execCmpeq (c : Nat) (i : Ins) (s : State) : State :=
  issueK c 0x20 i (fun k => k.setP i.dst.toNat (k.sreg i.sa == k.sreg i.sb)) s

/-- CMPLT (0x21): pD := sA < sB, signed. -/
def execCmplt (c : Nat) (i : Ins) (s : State) : State :=
  issueK c 0x21 i (fun k => k.setP i.dst.toNat ((k.sreg i.sa).slt (k.sreg i.sb))) s

/-- CMPLTU (0x22): pD := sA < sB, unsigned. -/
def execCmpltu (c : Nat) (i : Ins) (s : State) : State :=
  issueK c 0x22 i (fun k => k.setP i.dst.toNat ((k.sreg i.sa).ult (k.sreg i.sb))) s

/-- CMPEQI (0x23): pD := (sA = imm). -/
def execCmpeqi (c : Nat) (i : Ins) (s : State) : State :=
  issueK c 0x23 i (fun k => k.setP i.dst.toNat (k.sreg i.sa == imm64 i)) s

/-- CMPLTI (0x24): pD := sA < imm, signed. -/
def execCmplti (c : Nat) (i : Ins) (s : State) : State :=
  issueK c 0x24 i (fun k => k.setP i.dst.toNat ((k.sreg i.sa).slt (imm64 i))) s

/-- CMPLTUI (0x25): pD := sA < imm, unsigned. -/
def execCmpltui (c : Nat) (i : Ins) (s : State) : State :=
  issueK c 0x25 i (fun k => k.setP i.dst.toNat ((k.sreg i.sa).ult (imm64 i))) s

/-- PLOG (0x26): pD := pA fn pB, fn in SC[1:0]. -/
def execPlog (c : Nat) (i : Ins) (s : State) : State :=
  issueK c 0x26 i (fun k => k.setP i.dst.toNat (plogFn i.sc (k.preg i.sa.toNat) (k.preg i.sb.toNat))) s

/-- ADDA (0x30): aD := aA + sB[47:0], modulo 2^48. -/
def execAdda (c : Nat) (i : Ins) (s : State) : State :=
  issueK c 0x30 i (fun k => k.setA i.dst (k.areg i.sa + (k.sreg i.sb).setWidth 48)) s

/-- ADDAI (0x31): aD := aA + imm, modulo 2^48. -/
def execAddai (c : Nat) (i : Ins) (s : State) : State :=
  issueK c 0x31 i (fun k => k.setA i.dst (k.areg i.sa + i.imm.signExtend 48)) s

/-- MVSA (0x32): aD := sA[47:0]. -/
def execMvsa (c : Nat) (i : Ins) (s : State) : State :=
  issueK c 0x32 i (fun k => k.setA i.dst ((k.sreg i.sa).setWidth 48)) s

/-- MVAS (0x33): sD := aA, zero-extended. -/
def execMvas (c : Nat) (i : Ins) (s : State) : State :=
  issueK c 0x33 i (fun k => k.setS i.dst ((k.areg i.sa).setWidth 64)) s

/-- A taken branch to an index; outside the code region it records fault 0x08 and stops the core (R100; plan load keeps
BR and CALL inside, R91). -/
def State.branchTo (s : State) (c op : Nat) (x : Int) : State :=
  if 0 ≤ x ∧ x < ((s.core c).codeLen : Int) then s.modCore c (fun k => k.jumpTo x.toNat)
  else (s.modCore c (fun k => { k with mode := .faulted })).recordFaultOpen c 8 (s.core c).pc.toNat op 1

/-- BR (0x40): PC := PC + imm. -/
def execBr (c : Nat) (i : Ins) (s : State) : State :=
  issue c 0x40 i (fun s => s.branchTo c 0x40 ((s.core c).pc.toNat + i.imm.toInt)) s

/-- CALL (0x41): s31 := PC + 1; PC := PC + imm. -/
def execCall (c : Nat) (i : Ins) (s : State) : State :=
  issue c 0x41 i (fun s =>
    (s.modCore c (fun k => k.setS 31 (BitVec.ofNat 64 (k.pc.toNat + 1)))).branchTo c 0x41 ((s.core c).pc.toNat + i.imm.toInt)) s

/-- JR (0x42): PC := sA[13:0]; fault 0x08 when sA[63:14] is not zero or the index is outside the code region. -/
def execJr (c : Nat) (i : Ins) (s : State) : State :=
  issue c 0x42 i (fun s => s.branchTo c 0x42 ((s.core c).sreg i.sa).toNat) s

/-- LOOP (0x43): run the next imm instructions sA times; skip them when sA = 0; a third nesting records fault 0x06 (R100). -/
def execLoop (c : Nat) (i : Ins) (s : State) : State :=
  issue c 0x43 i (fun s =>
    let k := s.core c
    let n := k.sreg i.sa
    let r : LoopReg := { count := n, start := BitVec.ofNat 14 (k.pc.toNat + 1), last := BitVec.ofNat 14 (k.pc.toNat + i.imm.toNat) }
    if k.lc0.isSome ∧ k.lc1.isSome then (s.recordFaultOpen c 6 k.pc.toNat 0x43 1).advance c 0x43
    else if n = 0 then s.advanceFrom c 0x43 (k.pc.toNat + i.imm.toNat)
    else if k.lc0.isNone then (s.setCore c { k with lc0 := some r }).advance c 0x43
    else (s.setCore c { k with lc1 := some r }).advance c 0x43) s

end Sys2Proof.Machine
end

