-- ==== Sys2Proof/Machine/Meanings.lean ====
section
/-! DEFINITION. The meaning of each command as an outcome of `exec`: every command is total and answers a next state; a
command that names a unit not able to act leaves the state as it is (log 2). -/

namespace Sys2Proof.Machine

/-- NOP (R98). -/
def runNop (c : Nat) (i : Ins) (s : State) : Host.Outcome State Fault Refusal := .next (execNop c i s)

/-- ADD (R98). -/
def runAdd (c : Nat) (i : Ins) (s : State) : Host.Outcome State Fault Refusal := .next (execAdd c i s)

/-- SUB (R98). -/
def runSub (c : Nat) (i : Ins) (s : State) : Host.Outcome State Fault Refusal := .next (execSub c i s)

/-- AND (R98). -/
def runAnd (c : Nat) (i : Ins) (s : State) : Host.Outcome State Fault Refusal := .next (execAnd c i s)

/-- OR (R98). -/
def runOr (c : Nat) (i : Ins) (s : State) : Host.Outcome State Fault Refusal := .next (execOr c i s)

/-- XOR (R98). -/
def runXor (c : Nat) (i : Ins) (s : State) : Host.Outcome State Fault Refusal := .next (execXor c i s)

/-- SLL (R98). -/
def runSll (c : Nat) (i : Ins) (s : State) : Host.Outcome State Fault Refusal := .next (execSll c i s)

/-- SRL (R98). -/
def runSrl (c : Nat) (i : Ins) (s : State) : Host.Outcome State Fault Refusal := .next (execSrl c i s)

/-- SRA (R98). -/
def runSra (c : Nat) (i : Ins) (s : State) : Host.Outcome State Fault Refusal := .next (execSra c i s)

/-- MUL (R98). -/
def runMul (c : Nat) (i : Ins) (s : State) : Host.Outcome State Fault Refusal := .next (execMul c i s)

/-- MULHU (R98). -/
def runMulhu (c : Nat) (i : Ins) (s : State) : Host.Outcome State Fault Refusal := .next (execMulhu c i s)

/-- MIN (R98). -/
def runMin (c : Nat) (i : Ins) (s : State) : Host.Outcome State Fault Refusal := .next (execMin c i s)

/-- MAX (R98). -/
def runMax (c : Nat) (i : Ins) (s : State) : Host.Outcome State Fault Refusal := .next (execMax c i s)

/-- DIVU (R98). -/
def runDivu (c : Nat) (i : Ins) (s : State) : Host.Outcome State Fault Refusal := .next (execDivu c i s)

/-- REMU (R98). -/
def runRemu (c : Nat) (i : Ins) (s : State) : Host.Outcome State Fault Refusal := .next (execRemu c i s)

/-- ADDI (R98). -/
def runAddi (c : Nat) (i : Ins) (s : State) : Host.Outcome State Fault Refusal := .next (execAddi c i s)

/-- ANDI (R98). -/
def runAndi (c : Nat) (i : Ins) (s : State) : Host.Outcome State Fault Refusal := .next (execAndi c i s)

/-- ORI (R98). -/
def runOri (c : Nat) (i : Ins) (s : State) : Host.Outcome State Fault Refusal := .next (execOri c i s)

/-- XORI (R98). -/
def runXori (c : Nat) (i : Ins) (s : State) : Host.Outcome State Fault Refusal := .next (execXori c i s)

/-- SLLI (R98). -/
def runSlli (c : Nat) (i : Ins) (s : State) : Host.Outcome State Fault Refusal := .next (execSlli c i s)

/-- SRLI (R98). -/
def runSrli (c : Nat) (i : Ins) (s : State) : Host.Outcome State Fault Refusal := .next (execSrli c i s)

/-- SRAI (R98). -/
def runSrai (c : Nat) (i : Ins) (s : State) : Host.Outcome State Fault Refusal := .next (execSrai c i s)

/-- LI (R98). -/
def runLi (c : Nat) (i : Ins) (s : State) : Host.Outcome State Fault Refusal := .next (execLi c i s)

/-- LIH (R98). -/
def runLih (c : Nat) (i : Ins) (s : State) : Host.Outcome State Fault Refusal := .next (execLih c i s)

/-- CMPEQ (R98). -/
def runCmpeq (c : Nat) (i : Ins) (s : State) : Host.Outcome State Fault Refusal := .next (execCmpeq c i s)

/-- CMPLT (R98). -/
def runCmplt (c : Nat) (i : Ins) (s : State) : Host.Outcome State Fault Refusal := .next (execCmplt c i s)

/-- CMPLTU (R98). -/
def runCmpltu (c : Nat) (i : Ins) (s : State) : Host.Outcome State Fault Refusal := .next (execCmpltu c i s)

/-- CMPEQI (R98). -/
def runCmpeqi (c : Nat) (i : Ins) (s : State) : Host.Outcome State Fault Refusal := .next (execCmpeqi c i s)

/-- CMPLTI (R98). -/
def runCmplti (c : Nat) (i : Ins) (s : State) : Host.Outcome State Fault Refusal := .next (execCmplti c i s)

/-- CMPLTUI (R98). -/
def runCmpltui (c : Nat) (i : Ins) (s : State) : Host.Outcome State Fault Refusal := .next (execCmpltui c i s)

/-- PLOG (R98). -/
def runPlog (c : Nat) (i : Ins) (s : State) : Host.Outcome State Fault Refusal := .next (execPlog c i s)

/-- ADDA (R98). -/
def runAdda (c : Nat) (i : Ins) (s : State) : Host.Outcome State Fault Refusal := .next (execAdda c i s)

/-- ADDAI (R98). -/
def runAddai (c : Nat) (i : Ins) (s : State) : Host.Outcome State Fault Refusal := .next (execAddai c i s)

/-- MVSA (R98). -/
def runMvsa (c : Nat) (i : Ins) (s : State) : Host.Outcome State Fault Refusal := .next (execMvsa c i s)

/-- MVAS (R98). -/
def runMvas (c : Nat) (i : Ins) (s : State) : Host.Outcome State Fault Refusal := .next (execMvas c i s)

/-- BR (R99). -/
def runBr (c : Nat) (i : Ins) (s : State) : Host.Outcome State Fault Refusal := .next (execBr c i s)

/-- CALL (R99). -/
def runCall (c : Nat) (i : Ins) (s : State) : Host.Outcome State Fault Refusal := .next (execCall c i s)

/-- JR (R100). -/
def runJr (c : Nat) (i : Ins) (s : State) : Host.Outcome State Fault Refusal := .next (execJr c i s)

/-- LOOP (R100). -/
def runLoop (c : Nat) (i : Ins) (s : State) : Host.Outcome State Fault Refusal := .next (execLoop c i s)

/-- LD (R102). -/
def runLd (c : Nat) (i : Ins) (s : State) : Host.Outcome State Fault Refusal := .next (execLd c i s)

/-- ST (R102). -/
def runSt (c : Nat) (i : Ins) (s : State) : Host.Outcome State Fault Refusal := .next (execSt c i s)

/-- LDD (R101). -/
def runLdd (c : Nat) (i : Ins) (s : State) : Host.Outcome State Fault Refusal := .next (execLdd c i s)

/-- STD (R101). -/
def runStd (c : Nat) (i : Ins) (s : State) : Host.Outcome State Fault Refusal := .next (execStd c i s)

/-- DMA (R104). -/
def runDma (c : Nat) (i : Ins) (s : State) : Host.Outcome State Fault Refusal := .next (execDma c i s)

/-- DMAD (R104). -/
def runDmad (c : Nat) (i : Ins) (s : State) : Host.Outcome State Fault Refusal := .next (execDmad c i s)

/-- MMA (R133). -/
def runMma (c : Nat) (i : Ins) (s : State) : Host.Outcome State Fault Refusal := .next (execMma c i s)

/-- MXZ (R123). -/
def runMxz (c : Nat) (i : Ins) (s : State) : Host.Outcome State Fault Refusal := .next (execMxz c i s)

/-- MXLD (R123). -/
def runMxld (c : Nat) (i : Ins) (s : State) : Host.Outcome State Fault Refusal := .next (execMxld c i s)

/-- MXST (R134). -/
def runMxst (c : Nat) (i : Ins) (s : State) : Host.Outcome State Fault Refusal := .next (execMxst c i s)

/-- VOP_CVT (R169). -/
def runVopCvt (c : Nat) (i : Ins) (s : State) : Host.Outcome State Fault Refusal := .next (execVopCvt c i s)

/-- VOP_ADD (R165). -/
def runVopAdd (c : Nat) (i : Ins) (s : State) : Host.Outcome State Fault Refusal := .next (execVopAdd c i s)

/-- VOP_SUB (R165). -/
def runVopSub (c : Nat) (i : Ins) (s : State) : Host.Outcome State Fault Refusal := .next (execVopSub c i s)

/-- VOP_MUL (R165). -/
def runVopMul (c : Nat) (i : Ins) (s : State) : Host.Outcome State Fault Refusal := .next (execVopMul c i s)

/-- VOP_DIV (R168). -/
def runVopDiv (c : Nat) (i : Ins) (s : State) : Host.Outcome State Fault Refusal := .next (execVopDiv c i s)

/-- VOP_MIN (R165). -/
def runVopMin (c : Nat) (i : Ins) (s : State) : Host.Outcome State Fault Refusal := .next (execVopMin c i s)

/-- VOP_MAX (R165). -/
def runVopMax (c : Nat) (i : Ins) (s : State) : Host.Outcome State Fault Refusal := .next (execVopMax c i s)

/-- VOP_FMA (R165). -/
def runVopFma (c : Nat) (i : Ins) (s : State) : Host.Outcome State Fault Refusal := .next (execVopFma c i s)

/-- VOP_ABS (R165). -/
def runVopAbs (c : Nat) (i : Ins) (s : State) : Host.Outcome State Fault Refusal := .next (execVopAbs c i s)

/-- VOP_NEG (R165). -/
def runVopNeg (c : Nat) (i : Ins) (s : State) : Host.Outcome State Fault Refusal := .next (execVopNeg c i s)

/-- VOP_SQRT (R168). -/
def runVopSqrt (c : Nat) (i : Ins) (s : State) : Host.Outcome State Fault Refusal := .next (execVopSqrt c i s)

/-- VOP_RSQRT (R168). -/
def runVopRsqrt (c : Nat) (i : Ins) (s : State) : Host.Outcome State Fault Refusal := .next (execVopRsqrt c i s)

/-- VOP_RECIP (R168). -/
def runVopRecip (c : Nat) (i : Ins) (s : State) : Host.Outcome State Fault Refusal := .next (execVopRecip c i s)

/-- VOP_EXP (R168). -/
def runVopExp (c : Nat) (i : Ins) (s : State) : Host.Outcome State Fault Refusal := .next (execVopExp c i s)

/-- VOP_LOG (R168). -/
def runVopLog (c : Nat) (i : Ins) (s : State) : Host.Outcome State Fault Refusal := .next (execVopLog c i s)

/-- VOP_TANH (R168). -/
def runVopTanh (c : Nat) (i : Ins) (s : State) : Host.Outcome State Fault Refusal := .next (execVopTanh c i s)

/-- VOP_SIGMOID (R168). -/
def runVopSigmoid (c : Nat) (i : Ins) (s : State) : Host.Outcome State Fault Refusal := .next (execVopSigmoid c i s)

/-- VOP_SILU (R165). -/
def runVopSilu (c : Nat) (i : Ins) (s : State) : Host.Outcome State Fault Refusal := .next (execVopSilu c i s)

/-- VOP_RSUM (R164). -/
def runVopRsum (c : Nat) (i : Ins) (s : State) : Host.Outcome State Fault Refusal := .next (execVopRsum c i s)

/-- VOP_RMAX (R164). -/
def runVopRmax (c : Nat) (i : Ins) (s : State) : Host.Outcome State Fault Refusal := .next (execVopRmax c i s)

/-- VOP_AMAX (R167). -/
def runVopAmax (c : Nat) (i : Ins) (s : State) : Host.Outcome State Fault Refusal := .next (execVopAmax c i s)

/-- VOP_SUMSQ (R167). -/
def runVopSumsq (c : Nat) (i : Ins) (s : State) : Host.Outcome State Fault Refusal := .next (execVopSumsq c i s)

/-- VOP_SUM (R167). -/
def runVopSum (c : Nat) (i : Ins) (s : State) : Host.Outcome State Fault Refusal := .next (execVopSum c i s)

/-- VOP_SOFTMAX (R166). -/
def runVopSoftmax (c : Nat) (i : Ins) (s : State) : Host.Outcome State Fault Refusal := .next (execVopSoftmax c i s)

/-- VOP_LSE (R166). -/
def runVopLse (c : Nat) (i : Ins) (s : State) : Host.Outcome State Fault Refusal := .next (execVopLse c i s)

/-- VOP_RMSNORM (R166). -/
def runVopRmsnorm (c : Nat) (i : Ins) (s : State) : Host.Outcome State Fault Refusal := .next (execVopRmsnorm c i s)

/-- VOP_LAYERNORM (R166). -/
def runVopLayernorm (c : Nat) (i : Ins) (s : State) : Host.Outcome State Fault Refusal := .next (execVopLayernorm c i s)

/-- VOP_XENT (R166). -/
def runVopXent (c : Nat) (i : Ins) (s : State) : Host.Outcome State Fault Refusal := .next (execVopXent c i s)

/-- VOP_XGRAD (R166). -/
def runVopXgrad (c : Nat) (i : Ins) (s : State) : Host.Outcome State Fault Refusal := .next (execVopXgrad c i s)

/-- VOP_QROW (R173). -/
def runVopQrow (c : Nat) (i : Ins) (s : State) : Host.Outcome State Fault Refusal := .next (execVopQrow c i s)

/-- VOP_QTENSOR (R174). -/
def runVopQtensor (c : Nat) (i : Ins) (s : State) : Host.Outcome State Fault Refusal := .next (execVopQtensor c i s)

/-- VOP_MXQ (R175). -/
def runVopMxq (c : Nat) (i : Ins) (s : State) : Host.Outcome State Fault Refusal := .next (execVopMxq c i s)

/-- VOP_DEQ (R165). -/
def runVopDeq (c : Nat) (i : Ins) (s : State) : Host.Outcome State Fault Refusal := .next (execVopDeq c i s)

/-- VOP_RESCALE (R176). -/
def runVopRescale (c : Nat) (i : Ins) (s : State) : Host.Outcome State Fault Refusal := .next (execVopRescale c i s)

/-- VOP_HIST (R172). -/
def runVopHist (c : Nat) (i : Ins) (s : State) : Host.Outcome State Fault Refusal := .next (execVopHist c i s)

/-- FUPD (R200). -/
def runFupd (c : Nat) (i : Ins) (s : State) : Host.Outcome State Fault Refusal := .next (execFupd c i s)

/-- CRC (R106). -/
def runCrc (c : Nat) (i : Ins) (s : State) : Host.Outcome State Fault Refusal := .next (execCrc c i s)

/-- VGET (R167). -/
def runVget (c : Nat) (i : Ins) (s : State) : Host.Outcome State Fault Refusal := .next (execVget c i s)

/-- VFLG (R106). -/
def runVflg (c : Nat) (i : Ins) (s : State) : Host.Outcome State Fault Refusal := .next (execVflg c i s)

/-- BELLWAIT (R110). -/
def runBellwait (c : Nat) (i : Ins) (s : State) : Host.Outcome State Fault Refusal := .next (execBellwait c i s)

/-- BELLWAITS (R110). -/
def runBellwaits (c : Nat) (i : Ins) (s : State) : Host.Outcome State Fault Refusal := .next (execBellwaits c i s)

/-- SEAL (R112). -/
def runSeal (c : Nat) (i : Ins) (s : State) : Host.Outcome State Fault Refusal := .next (execSeal c i s)

/-- REST (R113). -/
def runRest (c : Nat) (i : Ins) (s : State) : Host.Outcome State Fault Refusal := .next (execRest c i s)

/-- RDCR (R109). -/
def runRdcr (c : Nat) (i : Ins) (s : State) : Host.Outcome State Fault Refusal := .next (execRdcr c i s)

/-- WRCR (R109). -/
def runWrcr (c : Nat) (i : Ins) (s : State) : Host.Outcome State Fault Refusal := .next (execWrcr c i s)

/-- RNGK (R108). -/
def runRngk (c : Nat) (i : Ins) (s : State) : Host.Outcome State Fault Refusal := .next (execRngk c i s)

/-- RNG (R108). -/
def runRng (c : Nat) (i : Ins) (s : State) : Host.Outcome State Fault Refusal := .next (execRng c i s)

/-- FENCE (R114). -/
def runFence (c : Nat) (i : Ins) (s : State) : Host.Outcome State Fault Refusal := .next (execFence c i s)

/-- WAIT (R114). -/
def runWait (c : Nat) (i : Ins) (s : State) : Host.Outcome State Fault Refusal := .next (execWait c i s)

/-- CHECK (R114). -/
def runCheck (c : Nat) (i : Ins) (s : State) : Host.Outcome State Fault Refusal := .next (execCheck c i s)

/-- RAISE (R114). -/
def runRaise (c : Nat) (i : Ins) (s : State) : Host.Outcome State Fault Refusal := .next (execRaise c i s)

/-- RDFLT (R114). -/
def runRdflt (c : Nat) (i : Ins) (s : State) : Host.Outcome State Fault Refusal := .next (execRdflt c i s)

/-- SEAL_DRAIN_DONE (R112). -/
def runSealDrainDone (c : Nat) (s : State) : Host.Outcome State Fault Refusal := .next (execSealDrainDone c s)

/-- FENCE_DRAIN_DONE (R114). -/
def runFenceDrainDone (c : Nat) (s : State) : Host.Outcome State Fault Refusal := .next (execFenceDrainDone c s)

/-- TAG_WAIT_DONE (R94). -/
def runTagWaitDone (c : Nat) (s : State) : Host.Outcome State Fault Refusal := .next (execTagWaitDone c s)

/-- SEALED_WRITE_RELEASE (R58). -/
def runSealedWriteRelease (c : Nat) (s : State) : Host.Outcome State Fault Refusal := .next (execSealedWriteRelease c s)

/-- MMA_START (R140). -/
def runMmaStart (c : Nat) (s : State) : Host.Outcome State Fault Refusal := .next (execMmaStart c s)

/-- MMA_RESULT_READY (R139). -/
def runMmaResultReady (c : Nat) (disturb : List (Nat × BitVec 32)) (s : State) : Host.Outcome State Fault Refusal := .next (execMmaResultReady c disturb s)

/-- MXZ_DONE (R140). -/
def runMxzDone (c : Nat) (s : State) : Host.Outcome State Fault Refusal := .next (execMxzDone c s)

/-- MXLD_DONE (R140). -/
def runMxldDone (c : Nat) (s : State) : Host.Outcome State Fault Refusal := .next (execMxldDone c s)

/-- MXST_START (R140). -/
def runMxstStart (c : Nat) (s : State) : Host.Outcome State Fault Refusal := .next (execMxstStart c s)

/-- ABFT_CHECK_VERDICT (R141). -/
def runAbftCheckVerdict (c : Nat) (s : State) : Host.Outcome State Fault Refusal := .next (execAbftCheckVerdict c s)

/-- LOCAL_RECOMPUTE_START (R144). -/
def runLocalRecomputeStart (c : Nat) (s : State) : Host.Outcome State Fault Refusal := .next (execLocalRecomputeStart c s)

/-- LOCAL_RECOMPUTE_DONE (R143). -/
def runLocalRecomputeDone (c : Nat) (disturb : List (Nat × BitVec 32)) (s : State) : Host.Outcome State Fault Refusal := .next (execLocalRecomputeDone c disturb s)

/-- BUDDY_SERVICE_REQUEST (R145). -/
def runBuddyServiceRequest (c : Nat) (s : State) : Host.Outcome State Fault Refusal := .next (execBuddyServiceRequest c s)

/-- BUDDY_SERVICE_START (R145). -/
def runBuddyServiceStart (c : Nat) (s : State) : Host.Outcome State Fault Refusal := .next (execBuddyServiceStart c s)

/-- BUDDY_SERVICE_DONE (R143). -/
def runBuddyServiceDone (c : Nat) (disturb : List (Nat × BitVec 32)) (s : State) : Host.Outcome State Fault Refusal := .next (execBuddyServiceDone c disturb s)

/-- BUDDY_TILE_RETURN (R143). -/
def runBuddyTileReturn (c : Nat) (s : State) : Host.Outcome State Fault Refusal := .next (execBuddyTileReturn c s)

/-- MXST_WRITE_DONE (R143). -/
def runMxstWriteDone (c : Nat) (s : State) : Host.Outcome State Fault Refusal := .next (execMxstWriteDone c s)

/-- DMA_DONE (R103). -/
def runDmaDone (c : Nat) (n : Nat) (s : State) : Host.Outcome State Fault Refusal := .next (execDmaDone c n s)

/-- VECTOR_OP_START (R156). -/
def runVectorOpStart (c : Nat) (s : State) : Host.Outcome State Fault Refusal := .next (execVectorOpStart c s)

/-- VECTOR_OP_DONE (R171). -/
def runVectorOpDone (c : Nat) (s : State) : Host.Outcome State Fault Refusal := .next (execVectorOpDone c s)

/-- BELL (R68). -/
def runBell (f : Nat) (offset : BitVec 32) (s : State) : Host.Outcome State Fault Refusal := .next (execBell f offset s)

/-- PARENT_SILENCE_UNLOCK (R52). -/
def runParentSilenceUnlock (f : Nat) (s : State) : Host.Outcome State Fault Refusal := .next (execParentSilenceUnlock f s)

/-- TX_SLOT (R281). -/
def runTxSlot (l : Nat) (slot : Nat) (s : State) : Host.Outcome State Fault Refusal := .next (execTxSlot l slot s)

/-- SEAL_DEADLINE (R57). -/
def runSealDeadline (l : Nat) (slot : Nat) (s : State) : Host.Outcome State Fault Refusal := .next (execSealDeadline l slot s)

/-- FLIT_RECEIVE (R285). -/
def runFlitReceive (l : Nat) (bell : BitVec 64) (slot : Nat) (rx : Rx) (ce : List (Nat × Nat)) (s : State) : Host.Outcome State Fault Refusal := .next (execFlitReceive l bell slot rx ce s)

/-- ACK_TIMEOUT (R287). -/
def runAckTimeout (l : Nat) (bell : BitVec 64) (slot : Nat) (s : State) : Host.Outcome State Fault Refusal := .next (execAckTimeout l bell slot s)

/-- STATUS_FLIT_RECEIVE (R289). -/
def runStatusFlitReceive (l : Nat) (sf : Option StatusFlit) (s : State) : Host.Outcome State Fault Refusal := .next (execStatusFlitReceive l sf s)

/-- STATUS_CHILD_MISSING (R71). -/
def runStatusChildMissing (f : Nat) (l : Nat) (s : State) : Host.Outcome State Fault Refusal := .next (execStatusChildMissing f l s)

/-- ABSENT_RECEIVED (R284). -/
def runAbsentReceived (l : Nat) (s : State) : Host.Outcome State Fault Refusal := .next (execAbsentReceived l s)

/-- WIPE_RECEIVED (R284). -/
def runWipeReceived (l : Nat) (s : State) : Host.Outcome State Fault Refusal := .next (execWipeReceived l s)

/-- ABSENT_PATTERN_END (R296). -/
def runAbsentPatternEnd (l : Nat) (light : Bool) (s : State) : Host.Outcome State Fault Refusal := .next (execAbsentPatternEnd l light s)

/-- WIPE_PATTERN_END (R296). -/
def runWipePatternEnd (l : Nat) (s : State) : Host.Outcome State Fault Refusal := .next (execWipePatternEnd l s)

/-- LIGHT_DETECTED (R300). -/
def runLightDetected (l : Nat) (mask : BitVec 9) (s : State) : Host.Outcome State Fault Refusal := .next (execLightDetected l mask s)

/-- SIGNAL_TRAINED (R298). -/
def runSignalTrained (l : Nat) (ok : Bool) (preset : Bool) (s : State) : Host.Outcome State Fault Refusal := .next (execSignalTrained l ok preset s)

/-- FEC_ALIGNED (R296). -/
def runFecAligned (l : Nat) (s : State) : Host.Outcome State Fault Refusal := .next (execFecAligned l s)

/-- FEC_LOCK_LOST (R297). -/
def runFecLockLost (l : Nat) (s : State) : Host.Outcome State Fault Refusal := .next (execFecLockLost l s)

/-- IDENT_RECEIVE (R295). -/
def runIdentReceive (l : Nat) (tagOk : Bool) (d : Ident) (tripPs : BitVec 32) (s : State) : Host.Outcome State Fault Refusal := .next (execIdentReceive l tagOk d tripPs s)

/-- SWAP_REQ (R299). -/
def runSwapReq (l : Nat) (fromPeer : Bool) (lane : Nat) (bell : BitVec 64) (s : State) : Host.Outcome State Fault Refusal := .next (execSwapReq l fromPeer lane bell s)

/-- SWAP_ACK (R299). -/
def runSwapAck (l : Nat) (s : State) : Host.Outcome State Fault Refusal := .next (execSwapAck l s)

/-- SWAP_NAK (R299). -/
def runSwapNak (l : Nat) (s : State) : Host.Outcome State Fault Refusal := .next (execSwapNak l s)

/-- LANE_SWAP_EFFECT (R299). -/
def runLaneSwapEffect (l : Nat) (s : State) : Host.Outcome State Fault Refusal := .next (execLaneSwapEffect l s)

/-- POOL_RESPONSE (R305). -/
def runPoolResponse (l : Nat) (tag : BitVec 7) (status : BitVec 8) (delivered : Nat) (s : State) : Host.Outcome State Fault Refusal := .next (execPoolResponse l tag status delivered s)

/-- POOL_TIMEOUT (R302). -/
def runPoolTimeout (l : Nat) (tag : BitVec 7) (s : State) : Host.Outcome State Fault Refusal := .next (execPoolTimeout l tag s)

/-- SCHEDULED_START (R349). -/
def runScheduledStart (f : Nat) (s : State) : Host.Outcome State Fault Refusal := .next (execScheduledStart f s)

/-- SCHEDULED_STOP (R349). -/
def runScheduledStop (f : Nat) (s : State) : Host.Outcome State Fault Refusal := .next (execScheduledStop f s)

/-- KEY_ROTATION_EFFECT (R228). -/
def runKeyRotationEffect (f : Nat) (s : State) : Host.Outcome State Fault Refusal := .next (execKeyRotationEffect f s)

/-- SWEEP_BLOCK (R229). -/
def runSweepBlock (f : Nat) (s : State) : Host.Outcome State Fault Refusal := .next (execSweepBlock f s)

/-- OLD_EPOCH_ERASE (R231). -/
def runOldEpochErase (f : Nat) (s : State) : Host.Outcome State Fault Refusal := .next (execOldEpochErase f s)

/-- PAGE_COPY_COMPLETE (R214). -/
def runPageCopyComplete (f : Nat) (page : Nat) (s : State) : Host.Outcome State Fault Refusal := .next (execPageCopyComplete f page s)

/-- PATROL_SCRUB_PASS (R210). -/
def runPatrolScrubPass (f : Nat) (words : List Nat) (margins : List (Nat × Nat)) (s : State) : Host.Outcome State Fault Refusal := .next (execPatrolScrubPass f words margins s)

/-- CUBBY_SAMPLE (R237). -/
def runCubbySample (c : Nat) (s : State) : Host.Outcome State Fault Refusal := .next (execCubbySample c s)

/-- CUBBY_READY (R239). -/
def runCubbyReady (f : Nat) (s : State) : Host.Outcome State Fault Refusal := .next (execCubbyReady f s)

/-- OWNER_CRC_RECEIVE (R258). -/
def runOwnerCrcReceive (f : Nat) (core record : Nat) (crc : BitVec 32) (s : State) : Host.Outcome State Fault Refusal := .next (execOwnerCrcReceive f core record crc s)

/-- UNIT_APPLY_DONE (R259). -/
def runUnitApplyDone (f : Nat) (core record : Nat) (disturb : List Bool) (s : State) : Host.Outcome State Fault Refusal := .next (execUnitApplyDone f core record disturb s)

/-- RECOMPUTE_REQUEST (R260). -/
def runRecomputeRequest (f : Nat) (core record : Nat) (tray : List Byte) (s : State) : Host.Outcome State Fault Refusal := .next (execRecomputeRequest f core record tray s)

/-- RECOMPUTE_REPLY (R259). -/
def runRecomputeReply (f : Nat) (core record : Nat) (crc : Option (BitVec 32)) (bytes : List Byte) (s : State) : Host.Outcome State Fault Refusal := .next (execRecomputeReply f core record crc bytes s)

/-- APPLY_COMPLETE (R261). -/
def runApplyComplete (f : Nat) (s : State) : Host.Outcome State Fault Refusal := .next (execApplyComplete f s)

/-- SUMMARY_RECEIVE (R274). -/
def runSummaryReceive (f : Nat) (sm : Summary) (s : State) : Host.Outcome State Fault Refusal := .next (execSummaryReceive f sm s)

/-- UNIT_TRANSFER_RECEIVE (R264). -/
def runUnitTransferReceive (f : Nat) (core record : Nat) (bytes : List Byte) (crc : BitVec 32) (s : State) : Host.Outcome State Fault Refusal := .next (execUnitTransferReceive f core record bytes crc s)

/-- HANDOVER_PULLS_DONE (R272). -/
def runHandoverPullsDone (f : Nat) (s : State) : Host.Outcome State Fault Refusal := .next (execHandoverPullsDone f s)

/-- CARD_DECAY_TICK (R365). -/
def runCardDecayTick (f : Nat) (s : State) : Host.Outcome State Fault Refusal := .next (execCardDecayTick f s)

/-- CARD_STORE_TIMER (R368). -/
def runCardStoreTimer (f : Nat) (s : State) : Host.Outcome State Fault Refusal := .next (execCardStoreTimer f s)

/-- REMEDY_RELAX_TIMER (R370). -/
def runRemedyRelaxTimer (f : Nat) (kind index : Nat) (s : State) : Host.Outcome State Fault Refusal := .next (execRemedyRelaxTimer f kind index s)

/-- POP_QUIZ_START (R372). -/
def runPopQuizStart (f : Nat) (tileA tileB : Nat) (s : State) : Host.Outcome State Fault Refusal := .next (execPopQuizStart f tileA tileB s)

/-- POP_QUIZ_RESULT (R372). -/
def runPopQuizResult (f : Nat) (crcA crcB : BitVec 32) (third : Option (Nat × BitVec 32)) (s : State) : Host.Outcome State Fault Refusal := .next (execPopQuizResult f crcA crcB third s)

/-- SPARE_MARGIN_TIMER (R373). -/
def runSpareMarginTimer (f : Nat) (s : State) : Host.Outcome State Fault Refusal := .next (execSpareMarginTimer f s)

/-- MARGIN_MEASURE_DONE (R373). -/
def runMarginMeasureDone (f : Nat) (kind index : Nat) (steps : Nat) (s : State) : Host.Outcome State Fault Refusal := .next (execMarginMeasureDone f kind index steps s)

/-- TILE_COPY_COMPLETE (R375). -/
def runTileCopyComplete (f : Nat) (s : State) : Host.Outcome State Fault Refusal := .next (execTileCopyComplete f s)

/-- PASS_GRANT (R377). -/
def runPassGrant (f : Nat) (s : State) : Host.Outcome State Fault Refusal := .next (execPassGrant f s)

/-- COMB_CHANGEOVER (R301). -/
def runCombChangeover (f : Nat) (s : State) : Host.Outcome State Fault Refusal := .next (execCombChangeover f s)

/-- COUNTER_CLEAR (R360). -/
def runCounterClear (w : Writer) (addr : Addr) (v : BitVec 64) (s : State) : Host.Outcome State Fault Refusal := .next (execCounterClear w addr v s)

/-- MX_FLAGS_CLEAR (R138). -/
def runMxFlagsClear (c : Nat) (v : BitVec 64) (s : State) : Host.Outcome State Fault Refusal := .next (execMxFlagsClear c v s)

/-- VX_FLAGS_CLEAR (R181). -/
def runVxFlagsClear (c : Nat) (v : BitVec 64) (s : State) : Host.Outcome State Fault Refusal := .next (execVxFlagsClear c v s)

/-- OUT_OF_TOL_CLEAR (R52). -/
def runOutOfTolClear (f : Nat) (v : BitVec 64) (s : State) : Host.Outcome State Fault Refusal := .next (execOutOfTolClear f v s)

/-- PW_ALERT_CLEAR (R440). -/
def runPwAlertClear (v : BitVec 64) (s : State) : Host.Outcome State Fault Refusal := .next (execPwAlertClear v s)

/-- REGISTER_WRITE (R12). -/
def runRegisterWrite (w : Writer) (addr : Addr) (v : BitVec 64) (s : State) : Host.Outcome State Fault Refusal := .next (execRegisterWrite w addr v s)

/-- SESSION_HELLO (R338). -/
def runSessionHello (r : Req) (h : HelloFields) (nonce share : BitVec 256) (kem : List Byte) (s : State) : Host.Outcome State Fault Refusal := .next (execSessionHello r h.role h.options h.rsv nonce share kem s)

/-- SESSION_FINISH (R340). -/
def runSessionFinish (r : Req) (cred : Cred) (s : State) : Host.Outcome State Fault Refusal := .next (execSessionFinish r cred s)

/-- SESSION_CLOSE (R341). -/
def runSessionClose (r : Req) (s : State) : Host.Outcome State Fault Refusal := .next (execSessionClose r s)

/-- SESSION_STATUS (R346). -/
def runSessionStatus (r : Req) (s : State) : Host.Outcome State Fault Refusal := .next (execSessionStatus r s)

/-- HANDSHAKE_TIMEOUT (R341). -/
def runHandshakeTimeout (sess : BitVec 32) (s : State) : Host.Outcome State Fault Refusal := .next (execHandshakeTimeout sess s)

/-- SESSION_IDLE_TIMEOUT (R341). -/
def runSessionIdleTimeout (sess : BitVec 32) (s : State) : Host.Outcome State Fault Refusal := .next (execSessionIdleTimeout sess s)

/-- PARTITION_LAYOUT (R413). -/
def runPartitionLayout (r : Req) (codes : BitVec 12) (s : State) : Host.Outcome State Fault Refusal := .next (execPartitionLayout r codes s)

/-- PARTITION_GRANT (R340). -/
def runPartitionGrant (r : Req) (p : BitVec 3) (keyHash : BitVec 384) (number : BitVec 32) (s : State) : Host.Outcome State Fault Refusal := .next (execPartitionGrant r p keyHash number s)

/-- PARTITION_REVOKE (R346). -/
def runPartitionRevoke (r : Req) (p : BitVec 3) (s : State) : Host.Outcome State Fault Refusal := .next (execPartitionRevoke r p s)

/-- PLAN_BEGIN (R347). -/
def runPlanBegin (r : Req) (plan : Plan) (len : Nat) (staging : Addr) (s : State) : Host.Outcome State Fault Refusal := .next (execPlanBegin r plan len staging s)

/-- PLAN_DATA (R347). -/
def runPlanData (r : Req) (off : Nat) (data : List Byte) (s : State) : Host.Outcome State Fault Refusal := .next (execPlanData r off data s)

/-- PLAN_COMMIT (R347). -/
def runPlanCommit (r : Req) (s : State) : Host.Outcome State Fault Refusal := .next (execPlanCommit r s)

/-- DELIVER_BEGIN (R348). -/
def runDeliverBegin (r : Req) (h : SatHeader) (s : State) : Host.Outcome State Fault Refusal := .next (execDeliverBegin r h s)

/-- DELIVER_DATA (R348). -/
def runDeliverData (r : Req) (step : BitVec 64) (off : Nat) (data : List Byte) (s : State) : Host.Outcome State Fault Refusal := .next (execDeliverData r step off data s)

/-- SHARD_DATA (R346). -/
def runShardData (r : Req) (off : Nat) (data : List Byte) (s : State) : Host.Outcome State Fault Refusal := .next (execShardData r off data s)

/-- SHARD_COMMIT (R346). -/
def runShardCommit (r : Req) (step : BitVec 64) (s : State) : Host.Outcome State Fault Refusal := .next (execShardCommit r step s)

/-- UNLOAD (R346). -/
def runUnload (r : Req) (s : State) : Host.Outcome State Fault Refusal := .next (execUnload r s)

/-- RUN_START (R349). -/
def runRunStart (r : Req) (bell : BitVec 64) (entry : Nat) (setCount : Bool) (step : BitVec 64) (s : State) : Host.Outcome State Fault Refusal := .next (execRunStart r bell entry setCount step s)

/-- RUN_STOP (R349). -/
def runRunStop (r : Req) (bell : BitVec 64) (s : State) : Host.Outcome State Fault Refusal := .next (execRunStop r bell s)

/-- READ_OPEN (R350). -/
def runReadOpen (r : Req) (immediate mirror history : Bool) (s : State) : Host.Outcome State Fault Refusal := .next (execReadOpen r immediate mirror history s)

/-- READ_OPEN_ANSWER (R274). -/
def runReadOpenAnswer (f : Nat) (s : State) : Host.Outcome State Fault Refusal := .next (execReadOpenAnswer f s)

/-- READ_WAIT_TIMEOUT (R350). -/
def runReadWaitTimeout (f : Nat) (s : State) : Host.Outcome State Fault Refusal := .next (execReadWaitTimeout f s)

/-- READ_PIECE (R350). -/
def runReadPiece (r : Req) (id off len : Nat) (s : State) : Host.Outcome State Fault Refusal := .next (execReadPiece r id off len s)

/-- READ_CLOSE (R346). -/
def runReadClose (r : Req) (id : Nat) (s : State) : Host.Outcome State Fault Refusal := .next (execReadClose r id s)

/-- READ_REGS (R363). -/
def runReadRegs (r : Req) (addrs : List Addr) (s : State) : Host.Outcome State Fault Refusal := .next (execReadRegs r addrs s)

/-- READ_LOG (R354). -/
def runReadLog (r : Req) (numerics : Bool) (start : Nat) (clear : Bool) (s : State) : Host.Outcome State Fault Refusal := .next (execReadLog r numerics start clear s)

/-- JOB_SEAT (R294). -/
def runJobSeat (r : Req) (moduleId : BitVec 14) (epoch : BitVec 32) (peers : List PeerSpec) (s : State) : Host.Outcome State Fault Refusal := .next (execJobSeat r moduleId epoch peers s)

/-- JOB_PARTNER (R252). -/
def runJobPartner (r : Req) (partner : BitVec 14) (both : Bool) (s : State) : Host.Outcome State Fault Refusal := .next (execJobPartner r partner both s)

/-- JOB_FILL (R253). -/
def runJobFill (r : Req) (first last : Nat) (tag : FillTag) (step : BitVec 64) (s : State) : Host.Outcome State Fault Refusal := .next (execJobFill r first last tag.digest tag.stepping step s)

/-- JOB_STANDBY (R268). -/
def runJobStandby (r : Req) (s : State) : Host.Outcome State Fault Refusal := .next (execJobStandby r s)

/-- JOB_ASSUME (R269). -/
def runJobAssume (r : Req) (moduleId partner : BitVec 14) (epoch : BitVec 32) (planVer : BitVec 16) (committed : BitVec 64) (peers : List PeerSpec) (s : State) : Host.Outcome State Fault Refusal := .next (execJobAssume r moduleId partner epoch planVer committed peers s)

/-- JOB_HANDOVER (R270). -/
def runJobHandover (r : Req) (committed : BitVec 64) (s : State) : Host.Outcome State Fault Refusal := .next (execJobHandover r committed s)

/-- JOB_PEERS (R346). -/
def runJobPeers (r : Req) (peers : List PeerSpec) (s : State) : Host.Outcome State Fault Refusal := .next (execJobPeers r peers s)

/-- JOB_POOL (R312). -/
def runJobPool (r : Req) (node : BitVec 16) (region : BitVec 32) (s : State) : Host.Outcome State Fault Refusal := .next (execJobPool r node region s)

/-- JOB_CKPT_SECRET (R311). -/
def runJobCkptSecret (r : Req) (secret : BitVec 256) (keyId : BitVec 32) (s : State) : Host.Outcome State Fault Refusal := .next (execJobCkptSecret r secret keyId s)

/-- JOB_CHECKPOINT (R316). -/
def runJobCheckpoint (r : Req) (bell step : BitVec 64) (s : State) : Host.Outcome State Fault Refusal := .next (execJobCheckpoint r bell step s)

/-- JOB_SCAN (R325). -/
def runJobScan (r : Req) (s : State) : Host.Outcome State Fault Refusal := .next (execJobScan r s)

/-- JOB_RESTORE (R327). -/
def runJobRestore (r : Req) (step : BitVec 64) (s : State) : Host.Outcome State Fault Refusal := .next (execJobRestore r step s)

/-- JOB_LEAVE (R346). -/
def runJobLeave (r : Req) (s : State) : Host.Outcome State Fault Refusal := .next (execJobLeave r s)

/-- HEALTH_CARDS (R381). -/
def runHealthCards (r : Req) (kind state minScore : Nat) (fine : Option (BitVec 8)) (s : State) : Host.Outcome State Fault Refusal := .next (execHealthCards r kind state minScore fine s)

/-- HEALTH_PASSES (R346). -/
def runHealthPasses (r : Req) (s : State) : Host.Outcome State Fault Refusal := .next (execHealthPasses r s)

/-- HEALTH_CLEAR (R346). -/
def runHealthClear (r : Req) (addrs : List Addr) (s : State) : Host.Outcome State Fault Refusal := .next (execHealthClear r addrs s)

/-- MAINT_ROTATE (R228). -/
def runMaintRotate (r : Req) (bell : BitVec 64) (rate : BitVec 4) (s : State) : Host.Outcome State Fault Refusal := .next (execMaintRotate r bell rate s)

/-- MAINT_RETRAIN (R296). -/
def runMaintRetrain (r : Req) (l : Nat) (s : State) : Host.Outcome State Fault Refusal := .next (execMaintRetrain r l s)

/-- MAINT_WIPE (R418). -/
def runMaintWipe (r : Req) (s : State) : Host.Outcome State Fault Refusal := .next (execMaintWipe r s)

/-- RESET_ENGINE_CORE (R118). -/
def runResetEngineCore (r : Req) (c : Nat) (s : State) : Host.Outcome State Fault Refusal := .next (execResetEngineCore r c s)

/-- RESET_ENGINE_LINK (R390). -/
def runResetEngineLink (r : Req) (l : Nat) (s : State) : Host.Outcome State Fault Refusal := .next (execResetEngineLink r l s)

/-- RESET_ENGINE_CHANNEL (R390). -/
def runResetEngineChannel (r : Req) (f ch : Nat) (s : State) : Host.Outcome State Fault Refusal := .next (execResetEngineChannel r f ch s)

/-- RESET_CONTEXT (R389). -/
def runResetContext (r : Req) (s : State) : Host.Outcome State Fault Refusal := .next (execResetContext r s)

/-- CONTEXT_RESET_EFFECT (R117). -/
def runContextResetEffect (f : Nat) (s : State) : Host.Outcome State Fault Refusal := .next (execContextResetEffect f s)

/-- RESET_PARTITION (R386). -/
def runResetPartition (r : Req) (s : State) : Host.Outcome State Fault Refusal := .next (execResetPartition r s)

/-- RESET_CHIP (R385). -/
def runResetChip (r : Req) (waitS : Nat) (s : State) : Host.Outcome State Fault Refusal := .next (execResetChip r waitS s)

/-- CHIP_RESET_WAIT_EXPIRY (R391). -/
def runChipResetWaitExpiry (s : State) : Host.Outcome State Fault Refusal := .next (execChipResetWaitExpiry s)

/-- MAINT_MARGIN (R373). -/
def runMaintMargin (r : Req) (clock : Bool) (f : Nat) (m : MarginArgs) (s : State) : Host.Outcome State Fault Refusal := .next (execMaintMargin r clock f m.unit m.limits s)

/-- MAINT_NETCFG (R357). -/
def runMaintNetcfg (r : Req) (vlan : BitVec 12) (gen2 : Bool) (s : State) : Host.Outcome State Fault Refusal := .next (execMaintNetcfg r vlan gen2 s)

/-- MAINT_RETURN (R423). -/
def runMaintReturn (r : Req) (s : State) : Host.Outcome State Fault Refusal := .next (execMaintReturn r s)

/-- RETURN_CANCEL (R423). -/
def runReturnCancel (r : Req) (s : State) : Host.Outcome State Fault Refusal := .next (execReturnCancel r s)

/-- OWNERSHIP_TOKEN (R408). -/
def runOwnershipToken (r : Req) (t : Token) (cred : Cred) (s : State) : Host.Outcome State Fault Refusal := .next (execOwnershipToken r t cred s)

/-- TOKEN_SERVICE_MODE (R417). -/
def runTokenServiceMode (r : Req) (t : Token) (s : State) : Host.Outcome State Fault Refusal := .next (execTokenServiceMode r t s)

/-- TOKEN_FACTORY_UNLOCK (R422). -/
def runTokenFactoryUnlock (r : Req) (t : Token) (s : State) : Host.Outcome State Fault Refusal := .next (execTokenFactoryUnlock r t s)

/-- TOKEN_REINSTATEMENT (R423). -/
def runTokenReinstatement (r : Req) (t : Token) (s : State) : Host.Outcome State Fault Refusal := .next (execTokenReinstatement r t s)

/-- TOKEN_OWNER_TRANSFER (R411). -/
def runTokenOwnerTransfer (r : Req) (t : Token) (s : State) : Host.Outcome State Fault Refusal := .next (execTokenOwnerTransfer r t s)

/-- SERVICE_MODE_EXPIRY (R417). -/
def runServiceModeExpiry (s : State) : Host.Outcome State Fault Refusal := .next (execServiceModeExpiry s)

/-- DUMP_COLLECT (R393). -/
def runDumpCollect (r : Req) (recipe : List RecipeEntry) (s : State) : Host.Outcome State Fault Refusal := .next (execDumpCollect r recipe s)

/-- DUMP_COLLECT_DONE (R391). -/
def runDumpCollectDone (f : Nat) (hung : List Nat) (s : State) : Host.Outcome State Fault Refusal := .next (execDumpCollectDone f hung s)

/-- DUMP_LIST (R346). -/
def runDumpList (r : Req) (s : State) : Host.Outcome State Fault Refusal := .next (execDumpList r s)

/-- DUMP_FETCH (R396). -/
def runDumpFetch (r : Req) (id off : Nat) (s : State) : Host.Outcome State Fault Refusal := .next (execDumpFetch r id off s)

/-- DUMP_DELETE (R346). -/
def runDumpDelete (r : Req) (id : Nat) (s : State) : Host.Outcome State Fault Refusal := .next (execDumpDelete r id s)

/-- ATTEST_REPORT (R412). -/
def runAttestReport (r : Req) (nonce : BitVec 256) (s : State) : Host.Outcome State Fault Refusal := .next (execAttestReport r nonce s)

/-- ATTEST_CERTS (R409). -/
def runAttestCerts (r : Req) (s : State) : Host.Outcome State Fault Refusal := .next (execAttestCerts r s)

/-- GEN2_OPEN (R358). -/
def runGen2Open (q : Req2) (cred : Cred) (k : KeyOffer) (s : State) : Host.Outcome State Fault Refusal := .next (execGen2Open q cred k.nonce k.share s)

/-- GEN2_CLOSE (R358). -/
def runGen2Close (q : Req2) (s : State) : Host.Outcome State Fault Refusal := .next (execGen2Close q s)

/-- GEN2_INFO (R358). -/
def runGen2Info (q : Req2) (s : State) : Host.Outcome State Fault Refusal := .next (execGen2Info q s)

/-- GEN2_LOAD (R358). -/
def runGen2Load (q : Req2) (x : Gen2Load) (s : State) : Host.Outcome State Fault Refusal := .next (execGen2Load q x s)

/-- GEN2_WEIGHTS (R358). -/
def runGen2Weights (q : Req2) (x : Gen2Weights) (s : State) : Host.Outcome State Fault Refusal := .next (execGen2Weights q x s)

/-- GEN2_FEED (R358). -/
def runGen2Feed (q : Req2) (x : Gen2Feed) (s : State) : Host.Outcome State Fault Refusal := .next (execGen2Feed q x s)

/-- GEN2_GO (R358). -/
def runGen2Go (q : Req2) (s : State) : Host.Outcome State Fault Refusal := .next (execGen2Go q s)

/-- GEN2_HALT (R358). -/
def runGen2Halt (q : Req2) (s : State) : Host.Outcome State Fault Refusal := .next (execGen2Halt q s)

/-- GEN2_FETCH (R358). -/
def runGen2Fetch (q : Req2) (id off len : Nat) (s : State) : Host.Outcome State Fault Refusal := .next (execGen2Fetch q id off len s)

/-- GEN2_REGS (R358). -/
def runGen2Regs (q : Req2) (addrs : List Addr) (s : State) : Host.Outcome State Fault Refusal := .next (execGen2Regs q addrs s)

/-- GEN2_HEALTH (R358). -/
def runGen2Health (q : Req2) (s : State) : Host.Outcome State Fault Refusal := .next (execGen2Health q s)

/-- GEN2_RESET (R358). -/
def runGen2Reset (q : Req2) (g : Rung) (s : State) : Host.Outcome State Fault Refusal := .next (execGen2Reset q g s)

/-- GEN2_DUMP (R358). -/
def runGen2Dump (q : Req2) (id off : Nat) (s : State) : Host.Outcome State Fault Refusal := .next (execGen2Dump q id off s)

/-- ICMP_ECHO (R332). -/
def runIcmpEcho (q : EchoFrom) (dst : BitVec 128) (data : List Byte) (s : State) : Host.Outcome State Fault Refusal := .next (execIcmpEcho q dst data s)

/-- NDP_MESSAGE (R332). -/
def runNdpMessage (m : Ndp) (s : State) : Host.Outcome State Fault Refusal := .next (execNdpMessage m s)

/-- ARP_REQUEST (R332). -/
def runArpRequest (q : ArpReq) (s : State) : Host.Outcome State Fault Refusal := .next (execArpRequest q s)

/-- DHCPV4_REPLY (R332). -/
def runDhcpv4Reply (addr : BitVec 32) (s : State) : Host.Outcome State Fault Refusal := .next (execDhcpv4Reply addr s)

/-- PORT_MODE_TIMEOUT (R331). -/
def runPortModeTimeout (s : State) : Host.Outcome State Fault Refusal := .next (execPortModeTimeout s)

/-- BOOT_SOLICIT (R356). -/
def runBootSolicit (s : State) : Host.Outcome State Fault Refusal := .next (execBootSolicit s)

/-- BOOT_ADVERTISE (R356). -/
def runBootAdvertise (imageLen manifestLen : Nat) (s : State) : Host.Outcome State Fault Refusal := .next (execBootAdvertise imageLen manifestLen s)

/-- BOOT_READ_RESPONSE (R403). -/
def runBootReadResponse (p : BootPiece) (s : State) : Host.Outcome State Fault Refusal := .next (execBootReadResponse p.data p.edOk p.mldsaOk s)

/-- BOOT_READ_RETRY (R356). -/
def runBootReadRetry (s : State) : Host.Outcome State Fault Refusal := .next (execBootReadRetry s)

/-- BOOT_RETRY_TIMER (R403). -/
def runBootRetryTimer (s : State) : Host.Outcome State Fault Refusal := .next (execBootRetryTimer s)

/-- BOOT_WIPE_DONE (R421). -/
def runBootWipeDone (s : State) : Host.Outcome State Fault Refusal := .next (execBootWipeDone s)

/-- WIPE_START (R419). -/
def runWipeStart (p : BitVec 3) (s : State) : Host.Outcome State Fault Refusal := .next (execWipeStart p s)

/-- WIPE_LPDDR_DONE (R419). -/
def runWipeLpddrDone (p : BitVec 3) (s : State) : Host.Outcome State Fault Refusal := .next (execWipeLpddrDone p s)

/-- ENTDAA (R435). -/
def runEntdaa (addr : BitVec 7) (s : State) : Host.Outcome State Fault Refusal := .next (execEntdaa addr s)

/-- RSTDAA (R435). -/
def runRstdaa (s : State) : Host.Outcome State Fault Refusal := .next (execRstdaa s)

/-- GETPID (R435). -/
def runGetpid (s : State) : Host.Outcome State Fault Refusal := .next (execGetpid s)

/-- GETBCR (R435). -/
def runGetbcr (s : State) : Host.Outcome State Fault Refusal := .next (execGetbcr s)

/-- GETDCR (R435). -/
def runGetdcr (s : State) : Host.Outcome State Fault Refusal := .next (execGetdcr s)

/-- TELEMETRY_WINDOW (R416). -/
def runTelemetryWindow (t : Telemetry) (s : State) : Host.Outcome State Fault Refusal := .next (execTelemetryWindow t s)

/-- PWR_EN_RISE (R430). -/
def runPwrEnRise (s : State) : Host.Outcome State Fault Refusal := .next (execPwrEnRise s)

/-- POWER_GOOD (R430). -/
def runPowerGood (s : State) : Host.Outcome State Fault Refusal := .next (execPowerGood s)

/-- PWR_EN_FALL (R431). -/
def runPwrEnFall (s : State) : Host.Outcome State Fault Refusal := .next (execPwrEnFall s)

/-- RST_N_ASSERT (R432). -/
def runRstNAssert (s : State) : Host.Outcome State Fault Refusal := .next (execRstNAssert s)

/-- RST_N_RELEASE (R432). -/
def runRstNRelease (s : State) : Host.Outcome State Fault Refusal := .next (execRstNRelease s)

/-- THERMTRIP (R433). -/
def runThermtrip (s : State) : Host.Outcome State Fault Refusal := .next (execThermtrip s)

/-- UNDERVOLT (R428). -/
def runUndervolt (s : State) : Host.Outcome State Fault Refusal := .next (execUndervolt s)

/-- UNDERVOLT_SHUTDOWN (R428). -/
def runUndervoltShutdown (s : State) : Host.Outcome State Fault Refusal := .next (execUndervoltShutdown s)

/-- OVERVOLT (R428). -/
def runOvervolt (s : State) : Host.Outcome State Fault Refusal := .next (execOvervolt s)

/-- INPUT_OVERVOLT_CUTOFF (R428). -/
def runInputOvervoltCutoff (s : State) : Host.Outcome State Fault Refusal := .next (execInputOvervoltCutoff s)

/-- OVERCURRENT (R428). -/
def runOvercurrent (s : State) : Host.Outcome State Fault Refusal := .next (execOvercurrent s)

/-- HOT_SWAP_TRIP (R428). -/
def runHotSwapTrip (s : State) : Host.Outcome State Fault Refusal := .next (execHotSwapTrip s)

/-- PHASE (R428). -/
def runPhase (f ph : Nat) (s : State) : Host.Outcome State Fault Refusal := .next (execPhase f ph s)

/-- CART_LATCH (R438). -/
def runCartLatch (f : Nat) (s : State) : Host.Outcome State Fault Refusal := .next (execCartLatch f s)

/-- CAP (R440). -/
def runCap (s : State) : Host.Outcome State Fault Refusal := .next (execCap s)

/-- DIE_HOT (R439). -/
def runDieHot (s : State) : Host.Outcome State Fault Refusal := .next (execDieHot s)

/-- INLET_HOT (R439). -/
def runInletHot (s : State) : Host.Outcome State Fault Refusal := .next (execInletHot s)

/-- LPDDR_HOT (R439). -/
def runLpddrHot (s : State) : Host.Outcome State Fault Refusal := .next (execLpddrHot s)

/-- LIGHT_LOST (R296). -/
def runLightLost (l : Nat) (s : State) : Host.Outcome State Fault Refusal := .next (execLightLost l s)

/-- CARTRIDGE_LATCHED (R438). -/
def runCartridgeLatched (f : Nat) (s : State) : Host.Outcome State Fault Refusal := .next (execCartridgeLatched f s)

/-- ALERT_CONDITION_END (R440). -/
def runAlertConditionEnd (bit : Nat) (s : State) : Host.Outcome State Fault Refusal := .next (execAlertConditionEnd bit s)

/-- PORT_LINK_UP (R331). -/
def runPortLinkUp (dr8 : Bool) (s : State) : Host.Outcome State Fault Refusal := .next (execPortLinkUp dr8 s)

/-- PORT_LINK_DOWN (R331). -/
def runPortLinkDown (s : State) : Host.Outcome State Fault Refusal := .next (execPortLinkDown s)

/-- RESET_RUNG_COMPLETE (R385). -/
def runResetRungComplete (f : Nat) (s : State) : Host.Outcome State Fault Refusal := .next (execResetRungComplete f s)

/-- UNIT_TRANSFER_ACK (R266). -/
def runUnitTransferAck (f core : Nat) (a : UnitAck) (s : State) : Host.Outcome State Fault Refusal := .next (execUnitTransferAck f core a.record a.own a.ok s)

/-- FRAME_DROPPED (R331). -/
def runFrameDropped (f : Nat) (why : DropReason) (s : State) : Host.Outcome State Fault Refusal := .next (execFrameDropped f why s)

/-- UNKNOWN_COMMAND (R352). -/
def runUnknownCommand (r : Req) (badFrame : Bool) (s : State) : Host.Outcome State Fault Refusal := .next (execUnknownCommand r badFrame s)

end Sys2Proof.Machine
end

