-- ==== Sys2Proof/Machine/Dispatch.lean ====
section
/-! DEFINITION. One arm per command, in the order of spec/opcode_table.json. -/

namespace Sys2Proof.Machine

def exec (i : Instr) (s : State) : Host.Outcome State Fault Refusal :=
  match i with
  | .nop c w => Sys2Proof.Machine.runNop c w s
  | .add c w => Sys2Proof.Machine.runAdd c w s
  | .sub c w => Sys2Proof.Machine.runSub c w s
  | .and c w => Sys2Proof.Machine.runAnd c w s
  | .or c w => Sys2Proof.Machine.runOr c w s
  | .xor c w => Sys2Proof.Machine.runXor c w s
  | .sll c w => Sys2Proof.Machine.runSll c w s
  | .srl c w => Sys2Proof.Machine.runSrl c w s
  | .sra c w => Sys2Proof.Machine.runSra c w s
  | .mul c w => Sys2Proof.Machine.runMul c w s
  | .mulhu c w => Sys2Proof.Machine.runMulhu c w s
  | .min c w => Sys2Proof.Machine.runMin c w s
  | .max c w => Sys2Proof.Machine.runMax c w s
  | .divu c w => Sys2Proof.Machine.runDivu c w s
  | .remu c w => Sys2Proof.Machine.runRemu c w s
  | .addi c w => Sys2Proof.Machine.runAddi c w s
  | .andi c w => Sys2Proof.Machine.runAndi c w s
  | .ori c w => Sys2Proof.Machine.runOri c w s
  | .xori c w => Sys2Proof.Machine.runXori c w s
  | .slli c w => Sys2Proof.Machine.runSlli c w s
  | .srli c w => Sys2Proof.Machine.runSrli c w s
  | .srai c w => Sys2Proof.Machine.runSrai c w s
  | .li c w => Sys2Proof.Machine.runLi c w s
  | .lih c w => Sys2Proof.Machine.runLih c w s
  | .cmpeq c w => Sys2Proof.Machine.runCmpeq c w s
  | .cmplt c w => Sys2Proof.Machine.runCmplt c w s
  | .cmpltu c w => Sys2Proof.Machine.runCmpltu c w s
  | .cmpeqi c w => Sys2Proof.Machine.runCmpeqi c w s
  | .cmplti c w => Sys2Proof.Machine.runCmplti c w s
  | .cmpltui c w => Sys2Proof.Machine.runCmpltui c w s
  | .plog c w => Sys2Proof.Machine.runPlog c w s
  | .adda c w => Sys2Proof.Machine.runAdda c w s
  | .addai c w => Sys2Proof.Machine.runAddai c w s
  | .mvsa c w => Sys2Proof.Machine.runMvsa c w s
  | .mvas c w => Sys2Proof.Machine.runMvas c w s
  | .br c w => Sys2Proof.Machine.runBr c w s
  | .call c w => Sys2Proof.Machine.runCall c w s
  | .jr c w => Sys2Proof.Machine.runJr c w s
  | .loop c w => Sys2Proof.Machine.runLoop c w s
  | .ld c w => Sys2Proof.Machine.runLd c w s
  | .st c w => Sys2Proof.Machine.runSt c w s
  | .ldd c w => Sys2Proof.Machine.runLdd c w s
  | .std c w => Sys2Proof.Machine.runStd c w s
  | .dma c w => Sys2Proof.Machine.runDma c w s
  | .dmad c w => Sys2Proof.Machine.runDmad c w s
  | .mma c w => Sys2Proof.Machine.runMma c w s
  | .mxz c w => Sys2Proof.Machine.runMxz c w s
  | .mxld c w => Sys2Proof.Machine.runMxld c w s
  | .mxst c w => Sys2Proof.Machine.runMxst c w s
  | .vopCvt c w => Sys2Proof.Machine.runVopCvt c w s
  | .vopAdd c w => Sys2Proof.Machine.runVopAdd c w s
  | .vopSub c w => Sys2Proof.Machine.runVopSub c w s
  | .vopMul c w => Sys2Proof.Machine.runVopMul c w s
  | .vopDiv c w => Sys2Proof.Machine.runVopDiv c w s
  | .vopMin c w => Sys2Proof.Machine.runVopMin c w s
  | .vopMax c w => Sys2Proof.Machine.runVopMax c w s
  | .vopFma c w => Sys2Proof.Machine.runVopFma c w s
  | .vopAbs c w => Sys2Proof.Machine.runVopAbs c w s
  | .vopNeg c w => Sys2Proof.Machine.runVopNeg c w s
  | .vopSqrt c w => Sys2Proof.Machine.runVopSqrt c w s
  | .vopRsqrt c w => Sys2Proof.Machine.runVopRsqrt c w s
  | .vopRecip c w => Sys2Proof.Machine.runVopRecip c w s
  | .vopExp c w => Sys2Proof.Machine.runVopExp c w s
  | .vopLog c w => Sys2Proof.Machine.runVopLog c w s
  | .vopTanh c w => Sys2Proof.Machine.runVopTanh c w s
  | .vopSigmoid c w => Sys2Proof.Machine.runVopSigmoid c w s
  | .vopSilu c w => Sys2Proof.Machine.runVopSilu c w s
  | .vopRsum c w => Sys2Proof.Machine.runVopRsum c w s
  | .vopRmax c w => Sys2Proof.Machine.runVopRmax c w s
  | .vopAmax c w => Sys2Proof.Machine.runVopAmax c w s
  | .vopSumsq c w => Sys2Proof.Machine.runVopSumsq c w s
  | .vopSum c w => Sys2Proof.Machine.runVopSum c w s
  | .vopSoftmax c w => Sys2Proof.Machine.runVopSoftmax c w s
  | .vopLse c w => Sys2Proof.Machine.runVopLse c w s
  | .vopRmsnorm c w => Sys2Proof.Machine.runVopRmsnorm c w s
  | .vopLayernorm c w => Sys2Proof.Machine.runVopLayernorm c w s
  | .vopXent c w => Sys2Proof.Machine.runVopXent c w s
  | .vopXgrad c w => Sys2Proof.Machine.runVopXgrad c w s
  | .vopQrow c w => Sys2Proof.Machine.runVopQrow c w s
  | .vopQtensor c w => Sys2Proof.Machine.runVopQtensor c w s
  | .vopMxq c w => Sys2Proof.Machine.runVopMxq c w s
  | .vopDeq c w => Sys2Proof.Machine.runVopDeq c w s
  | .vopRescale c w => Sys2Proof.Machine.runVopRescale c w s
  | .vopHist c w => Sys2Proof.Machine.runVopHist c w s
  | .fupd c w => Sys2Proof.Machine.runFupd c w s
  | .crc c w => Sys2Proof.Machine.runCrc c w s
  | .vget c w => Sys2Proof.Machine.runVget c w s
  | .vflg c w => Sys2Proof.Machine.runVflg c w s
  | .bellwait c w => Sys2Proof.Machine.runBellwait c w s
  | .bellwaits c w => Sys2Proof.Machine.runBellwaits c w s
  | .seal c w => Sys2Proof.Machine.runSeal c w s
  | .rest c w => Sys2Proof.Machine.runRest c w s
  | .rdcr c w => Sys2Proof.Machine.runRdcr c w s
  | .wrcr c w => Sys2Proof.Machine.runWrcr c w s
  | .rngk c w => Sys2Proof.Machine.runRngk c w s
  | .rng c w => Sys2Proof.Machine.runRng c w s
  | .fence c w => Sys2Proof.Machine.runFence c w s
  | .wait c w => Sys2Proof.Machine.runWait c w s
  | .check c w => Sys2Proof.Machine.runCheck c w s
  | .raise c w => Sys2Proof.Machine.runRaise c w s
  | .rdflt c w => Sys2Proof.Machine.runRdflt c w s
  | .sealDrainDone c => Sys2Proof.Machine.runSealDrainDone c s
  | .fenceDrainDone c => Sys2Proof.Machine.runFenceDrainDone c s
  | .tagWaitDone c => Sys2Proof.Machine.runTagWaitDone c s
  | .sealedWriteRelease c => Sys2Proof.Machine.runSealedWriteRelease c s
  | .mmaStart c => Sys2Proof.Machine.runMmaStart c s
  | .mmaResultReady c disturb => Sys2Proof.Machine.runMmaResultReady c disturb s
  | .mxzDone c => Sys2Proof.Machine.runMxzDone c s
  | .mxldDone c => Sys2Proof.Machine.runMxldDone c s
  | .mxstStart c => Sys2Proof.Machine.runMxstStart c s
  | .abftCheckVerdict c => Sys2Proof.Machine.runAbftCheckVerdict c s
  | .localRecomputeStart c => Sys2Proof.Machine.runLocalRecomputeStart c s
  | .localRecomputeDone c disturb => Sys2Proof.Machine.runLocalRecomputeDone c disturb s
  | .buddyServiceRequest c => Sys2Proof.Machine.runBuddyServiceRequest c s
  | .buddyServiceStart c => Sys2Proof.Machine.runBuddyServiceStart c s
  | .buddyServiceDone c disturb => Sys2Proof.Machine.runBuddyServiceDone c disturb s
  | .buddyTileReturn c => Sys2Proof.Machine.runBuddyTileReturn c s
  | .mxstWriteDone c => Sys2Proof.Machine.runMxstWriteDone c s
  | .dmaDone c n => Sys2Proof.Machine.runDmaDone c n s
  | .vectorOpStart c => Sys2Proof.Machine.runVectorOpStart c s
  | .vectorOpDone c => Sys2Proof.Machine.runVectorOpDone c s
  | .bell f offset => Sys2Proof.Machine.runBell f offset s
  | .parentSilenceUnlock f => Sys2Proof.Machine.runParentSilenceUnlock f s
  | .txSlot l slot => Sys2Proof.Machine.runTxSlot l slot s
  | .sealDeadline l slot => Sys2Proof.Machine.runSealDeadline l slot s
  | .flitReceive l bell slot rx ce => Sys2Proof.Machine.runFlitReceive l bell slot rx ce s
  | .ackTimeout l bell slot => Sys2Proof.Machine.runAckTimeout l bell slot s
  | .statusFlitReceive l sf => Sys2Proof.Machine.runStatusFlitReceive l sf s
  | .statusChildMissing f l => Sys2Proof.Machine.runStatusChildMissing f l s
  | .absentReceived l => Sys2Proof.Machine.runAbsentReceived l s
  | .wipeReceived l => Sys2Proof.Machine.runWipeReceived l s
  | .absentPatternEnd l light => Sys2Proof.Machine.runAbsentPatternEnd l light s
  | .wipePatternEnd l => Sys2Proof.Machine.runWipePatternEnd l s
  | .lightDetected l mask => Sys2Proof.Machine.runLightDetected l mask s
  | .signalTrained l ok preset => Sys2Proof.Machine.runSignalTrained l ok preset s
  | .fecAligned l => Sys2Proof.Machine.runFecAligned l s
  | .fecLockLost l => Sys2Proof.Machine.runFecLockLost l s
  | .identReceive l tagOk d tripPs => Sys2Proof.Machine.runIdentReceive l tagOk d tripPs s
  | .swapReq l fromPeer lane bell => Sys2Proof.Machine.runSwapReq l fromPeer lane bell s
  | .swapAck l => Sys2Proof.Machine.runSwapAck l s
  | .swapNak l => Sys2Proof.Machine.runSwapNak l s
  | .laneSwapEffect l => Sys2Proof.Machine.runLaneSwapEffect l s
  | .poolResponse l tag status delivered => Sys2Proof.Machine.runPoolResponse l tag status delivered s
  | .poolTimeout l tag => Sys2Proof.Machine.runPoolTimeout l tag s
  | .scheduledStart f => Sys2Proof.Machine.runScheduledStart f s
  | .scheduledStop f => Sys2Proof.Machine.runScheduledStop f s
  | .keyRotationEffect f => Sys2Proof.Machine.runKeyRotationEffect f s
  | .sweepBlock f => Sys2Proof.Machine.runSweepBlock f s
  | .oldEpochErase f => Sys2Proof.Machine.runOldEpochErase f s
  | .pageCopyComplete f page => Sys2Proof.Machine.runPageCopyComplete f page s
  | .patrolScrubPass f words margins => Sys2Proof.Machine.runPatrolScrubPass f words margins s
  | .cubbySample c => Sys2Proof.Machine.runCubbySample c s
  | .cubbyReady f => Sys2Proof.Machine.runCubbyReady f s
  | .ownerCrcReceive f core record crc => Sys2Proof.Machine.runOwnerCrcReceive f core record crc s
  | .unitApplyDone f core record disturb => Sys2Proof.Machine.runUnitApplyDone f core record disturb s
  | .recomputeRequest f core record tray => Sys2Proof.Machine.runRecomputeRequest f core record tray s
  | .recomputeReply f core record crc bytes => Sys2Proof.Machine.runRecomputeReply f core record crc bytes s
  | .applyComplete f => Sys2Proof.Machine.runApplyComplete f s
  | .summaryReceive f sm => Sys2Proof.Machine.runSummaryReceive f sm s
  | .unitTransferReceive f core record bytes crc => Sys2Proof.Machine.runUnitTransferReceive f core record bytes crc s
  | .handoverPullsDone f => Sys2Proof.Machine.runHandoverPullsDone f s
  | .cardDecayTick f => Sys2Proof.Machine.runCardDecayTick f s
  | .cardStoreTimer f => Sys2Proof.Machine.runCardStoreTimer f s
  | .remedyRelaxTimer f kind index => Sys2Proof.Machine.runRemedyRelaxTimer f kind index s
  | .popQuizStart f tileA tileB => Sys2Proof.Machine.runPopQuizStart f tileA tileB s
  | .popQuizResult f crcA crcB third => Sys2Proof.Machine.runPopQuizResult f crcA crcB third s
  | .spareMarginTimer f => Sys2Proof.Machine.runSpareMarginTimer f s
  | .marginMeasureDone f kind index steps => Sys2Proof.Machine.runMarginMeasureDone f kind index steps s
  | .tileCopyComplete f => Sys2Proof.Machine.runTileCopyComplete f s
  | .passGrant f => Sys2Proof.Machine.runPassGrant f s
  | .combChangeover f => Sys2Proof.Machine.runCombChangeover f s
  | .counterClear w addr v => Sys2Proof.Machine.runCounterClear w addr v s
  | .mxFlagsClear c v => Sys2Proof.Machine.runMxFlagsClear c v s
  | .vxFlagsClear c v => Sys2Proof.Machine.runVxFlagsClear c v s
  | .outOfTolClear f v => Sys2Proof.Machine.runOutOfTolClear f v s
  | .pwAlertClear v => Sys2Proof.Machine.runPwAlertClear v s
  | .registerWrite w addr v => Sys2Proof.Machine.runRegisterWrite w addr v s
  | .sessionHello r h nonce share kem => Sys2Proof.Machine.runSessionHello r h nonce share kem s
  | .sessionFinish r cred => Sys2Proof.Machine.runSessionFinish r cred s
  | .sessionClose r => Sys2Proof.Machine.runSessionClose r s
  | .sessionStatus r => Sys2Proof.Machine.runSessionStatus r s
  | .handshakeTimeout sess => Sys2Proof.Machine.runHandshakeTimeout sess s
  | .sessionIdleTimeout sess => Sys2Proof.Machine.runSessionIdleTimeout sess s
  | .partitionLayout r codes => Sys2Proof.Machine.runPartitionLayout r codes s
  | .partitionGrant r p keyHash number => Sys2Proof.Machine.runPartitionGrant r p keyHash number s
  | .partitionRevoke r p => Sys2Proof.Machine.runPartitionRevoke r p s
  | .planBegin r plan len staging => Sys2Proof.Machine.runPlanBegin r plan len staging s
  | .planData r off data => Sys2Proof.Machine.runPlanData r off data s
  | .planCommit r => Sys2Proof.Machine.runPlanCommit r s
  | .deliverBegin r h => Sys2Proof.Machine.runDeliverBegin r h s
  | .deliverData r step off data => Sys2Proof.Machine.runDeliverData r step off data s
  | .shardData r off data => Sys2Proof.Machine.runShardData r off data s
  | .shardCommit r step => Sys2Proof.Machine.runShardCommit r step s
  | .unload r => Sys2Proof.Machine.runUnload r s
  | .runStart r bell entry setCount step => Sys2Proof.Machine.runRunStart r bell entry setCount step s
  | .runStop r bell => Sys2Proof.Machine.runRunStop r bell s
  | .readOpen r immediate mirror history => Sys2Proof.Machine.runReadOpen r immediate mirror history s
  | .readOpenAnswer f => Sys2Proof.Machine.runReadOpenAnswer f s
  | .readWaitTimeout f => Sys2Proof.Machine.runReadWaitTimeout f s
  | .readPiece r id off len => Sys2Proof.Machine.runReadPiece r id off len s
  | .readClose r id => Sys2Proof.Machine.runReadClose r id s
  | .readRegs r addrs => Sys2Proof.Machine.runReadRegs r addrs s
  | .readLog r numerics start clear => Sys2Proof.Machine.runReadLog r numerics start clear s
  | .jobSeat r moduleId epoch peers => Sys2Proof.Machine.runJobSeat r moduleId epoch peers s
  | .jobPartner r partner both => Sys2Proof.Machine.runJobPartner r partner both s
  | .jobFill r first last tag step => Sys2Proof.Machine.runJobFill r first last tag step s
  | .jobStandby r => Sys2Proof.Machine.runJobStandby r s
  | .jobAssume r moduleId partner epoch planVer committed peers => Sys2Proof.Machine.runJobAssume r moduleId partner epoch planVer committed peers s
  | .jobHandover r committed => Sys2Proof.Machine.runJobHandover r committed s
  | .jobPeers r peers => Sys2Proof.Machine.runJobPeers r peers s
  | .jobPool r node region => Sys2Proof.Machine.runJobPool r node region s
  | .jobCkptSecret r secret keyId => Sys2Proof.Machine.runJobCkptSecret r secret keyId s
  | .jobCheckpoint r bell step => Sys2Proof.Machine.runJobCheckpoint r bell step s
  | .jobScan r => Sys2Proof.Machine.runJobScan r s
  | .jobRestore r step => Sys2Proof.Machine.runJobRestore r step s
  | .jobLeave r => Sys2Proof.Machine.runJobLeave r s
  | .healthCards r kind state minScore fine => Sys2Proof.Machine.runHealthCards r kind state minScore fine s
  | .healthPasses r => Sys2Proof.Machine.runHealthPasses r s
  | .healthClear r addrs => Sys2Proof.Machine.runHealthClear r addrs s
  | .maintRotate r bell rate => Sys2Proof.Machine.runMaintRotate r bell rate s
  | .maintRetrain r l => Sys2Proof.Machine.runMaintRetrain r l s
  | .maintWipe r => Sys2Proof.Machine.runMaintWipe r s
  | .resetEngineCore r c => Sys2Proof.Machine.runResetEngineCore r c s
  | .resetEngineLink r l => Sys2Proof.Machine.runResetEngineLink r l s
  | .resetEngineChannel r f ch => Sys2Proof.Machine.runResetEngineChannel r f ch s
  | .resetContext r => Sys2Proof.Machine.runResetContext r s
  | .contextResetEffect f => Sys2Proof.Machine.runContextResetEffect f s
  | .resetPartition r => Sys2Proof.Machine.runResetPartition r s
  | .resetChip r waitS => Sys2Proof.Machine.runResetChip r waitS s
  | .chipResetWaitExpiry => Sys2Proof.Machine.runChipResetWaitExpiry s
  | .maintMargin r clock f m => Sys2Proof.Machine.runMaintMargin r clock f m s
  | .maintNetcfg r vlan gen2 => Sys2Proof.Machine.runMaintNetcfg r vlan gen2 s
  | .maintReturn r => Sys2Proof.Machine.runMaintReturn r s
  | .returnCancel r => Sys2Proof.Machine.runReturnCancel r s
  | .ownershipToken r t cred => Sys2Proof.Machine.runOwnershipToken r t cred s
  | .tokenServiceMode r t => Sys2Proof.Machine.runTokenServiceMode r t s
  | .tokenFactoryUnlock r t => Sys2Proof.Machine.runTokenFactoryUnlock r t s
  | .tokenReinstatement r t => Sys2Proof.Machine.runTokenReinstatement r t s
  | .tokenOwnerTransfer r t => Sys2Proof.Machine.runTokenOwnerTransfer r t s
  | .serviceModeExpiry => Sys2Proof.Machine.runServiceModeExpiry s
  | .dumpCollect r recipe => Sys2Proof.Machine.runDumpCollect r recipe s
  | .dumpCollectDone f hung => Sys2Proof.Machine.runDumpCollectDone f hung s
  | .dumpList r => Sys2Proof.Machine.runDumpList r s
  | .dumpFetch r id off => Sys2Proof.Machine.runDumpFetch r id off s
  | .dumpDelete r id => Sys2Proof.Machine.runDumpDelete r id s
  | .attestReport r nonce => Sys2Proof.Machine.runAttestReport r nonce s
  | .attestCerts r => Sys2Proof.Machine.runAttestCerts r s
  | .gen2Open q cred k => Sys2Proof.Machine.runGen2Open q cred k s
  | .gen2Close q => Sys2Proof.Machine.runGen2Close q s
  | .gen2Info q => Sys2Proof.Machine.runGen2Info q s
  | .gen2Load q x => Sys2Proof.Machine.runGen2Load q x s
  | .gen2Weights q x => Sys2Proof.Machine.runGen2Weights q x s
  | .gen2Feed q x => Sys2Proof.Machine.runGen2Feed q x s
  | .gen2Go q => Sys2Proof.Machine.runGen2Go q s
  | .gen2Halt q => Sys2Proof.Machine.runGen2Halt q s
  | .gen2Fetch q id off len => Sys2Proof.Machine.runGen2Fetch q id off len s
  | .gen2Regs q addrs => Sys2Proof.Machine.runGen2Regs q addrs s
  | .gen2Health q => Sys2Proof.Machine.runGen2Health q s
  | .gen2Reset q g => Sys2Proof.Machine.runGen2Reset q g s
  | .gen2Dump q id off => Sys2Proof.Machine.runGen2Dump q id off s
  | .icmpEcho q dst data => Sys2Proof.Machine.runIcmpEcho q dst data s
  | .ndpMessage m => Sys2Proof.Machine.runNdpMessage m s
  | .arpRequest q => Sys2Proof.Machine.runArpRequest q s
  | .dhcpv4Reply addr => Sys2Proof.Machine.runDhcpv4Reply addr s
  | .portModeTimeout => Sys2Proof.Machine.runPortModeTimeout s
  | .bootSolicit => Sys2Proof.Machine.runBootSolicit s
  | .bootAdvertise imageLen manifestLen => Sys2Proof.Machine.runBootAdvertise imageLen manifestLen s
  | .bootReadResponse p => Sys2Proof.Machine.runBootReadResponse p s
  | .bootReadRetry => Sys2Proof.Machine.runBootReadRetry s
  | .bootRetryTimer => Sys2Proof.Machine.runBootRetryTimer s
  | .bootWipeDone => Sys2Proof.Machine.runBootWipeDone s
  | .wipeStart p => Sys2Proof.Machine.runWipeStart p s
  | .wipeLpddrDone p => Sys2Proof.Machine.runWipeLpddrDone p s
  | .entdaa addr => Sys2Proof.Machine.runEntdaa addr s
  | .rstdaa => Sys2Proof.Machine.runRstdaa s
  | .getpid => Sys2Proof.Machine.runGetpid s
  | .getbcr => Sys2Proof.Machine.runGetbcr s
  | .getdcr => Sys2Proof.Machine.runGetdcr s
  | .telemetryWindow t => Sys2Proof.Machine.runTelemetryWindow t s
  | .pwrEnRise => Sys2Proof.Machine.runPwrEnRise s
  | .powerGood => Sys2Proof.Machine.runPowerGood s
  | .pwrEnFall => Sys2Proof.Machine.runPwrEnFall s
  | .rstNAssert => Sys2Proof.Machine.runRstNAssert s
  | .rstNRelease => Sys2Proof.Machine.runRstNRelease s
  | .thermtrip => Sys2Proof.Machine.runThermtrip s
  | .undervolt => Sys2Proof.Machine.runUndervolt s
  | .undervoltShutdown => Sys2Proof.Machine.runUndervoltShutdown s
  | .overvolt => Sys2Proof.Machine.runOvervolt s
  | .inputOvervoltCutoff => Sys2Proof.Machine.runInputOvervoltCutoff s
  | .overcurrent => Sys2Proof.Machine.runOvercurrent s
  | .hotSwapTrip => Sys2Proof.Machine.runHotSwapTrip s
  | .phase f ph => Sys2Proof.Machine.runPhase f ph s
  | .cartLatch f => Sys2Proof.Machine.runCartLatch f s
  | .cap => Sys2Proof.Machine.runCap s
  | .dieHot => Sys2Proof.Machine.runDieHot s
  | .inletHot => Sys2Proof.Machine.runInletHot s
  | .lpddrHot => Sys2Proof.Machine.runLpddrHot s
  | .lightLost l => Sys2Proof.Machine.runLightLost l s
  | .cartridgeLatched f => Sys2Proof.Machine.runCartridgeLatched f s
  | .alertConditionEnd bit => Sys2Proof.Machine.runAlertConditionEnd bit s
  | .portLinkUp dr8 => Sys2Proof.Machine.runPortLinkUp dr8 s
  | .portLinkDown => Sys2Proof.Machine.runPortLinkDown s
  | .resetRungComplete f => Sys2Proof.Machine.runResetRungComplete f s
  | .unitTransferAck f core a => Sys2Proof.Machine.runUnitTransferAck f core a s
  | .frameDropped f why => Sys2Proof.Machine.runFrameDropped f why s
  | .unknownCommand r badFrame => Sys2Proof.Machine.runUnknownCommand r badFrame s

end Sys2Proof.Machine
end

