-- ==== Sys2Proof/Machine/Tick.lean ====
section
/-! DEFINITION. The clock tick of an idle block. -/

namespace Sys2Proof.Machine

/-- One clk with no command: the bell reference and HM_CLK of every Hall Monitor advance (R7, R364) (log 3). -/
def idleTick (s : State) : State := { s with hmClk := s.hmClk + 1 }

end Sys2Proof.Machine
end

