-- ==== Sys2Proof/Safety.lean ====
section
/-! DEFINITION. The terms in which statements about the block are made: outcomes that go on, what a core must meet to issue, where it goes
next, which units may differ between two states, and the invariants. -/

namespace Sys2Proof.Machine

/-- An outcome that goes on. -/
def Goes (o : Host.Outcome State Fault Refusal) : Prop := ∃ t, o = .next t

/-- Core `c` issues instruction `i` and its guard holds: it runs and is not held, and its code word reads well and without a correction (R91
to R94, R210). -/
abbrev Able (s : State) (c : Nat) (i : Ins) : Prop :=
  c < 2000 ∧ (s.core c).ready = true ∧ s.bad.contains (fetchAddr c (s.core c)) = false ∧
    s.ce.contains (fetchAddr c (s.core c)) = false ∧ (s.core c).guardOk i = true

/-- The index after the instruction at the PC, the two hardware loops taken into account, lies in the code region (R100). -/
abbrev Core.inside (k : Core) : Prop := (k.seqNext k.pc.toNat).2 < k.codeLen

/-- The core after its instruction: its loops stepped, its PC at the next index. -/
def Core.goesOn (k : Core) : Core := { (k.seqNext k.pc.toNat).1 with pc := BitVec.ofNat 14 (k.seqNext k.pc.toNat).2 }

/-- Two states differ in core `c` at most. -/
def OnlyCore (c : Nat) (s t : State) : Prop := t = s.setCore c (t.core c)

/-- Every byte of memory outside the `n` bytes from `a` on reads as before. -/
def BytesKept (a n : Nat) (s t : State) : Prop := ∀ x, x < a ∨ a + n ≤ x → Memory.read t.mem x = Memory.read s.mem x

/-- Memory, cores, links and fields are as before: a command of the host port, the Proctor or the power logic alone. Of a Hall Monitor only
HM_SAT_LAST may move, where the count of requests or of log entries lost saturates (R360). -/
def UnitsKept (s t : State) : Prop :=
  t.mem = s.mem ∧ t.cores = s.cores ∧ t.links = s.links ∧
    ∀ f, t.field f = { s.field f with hm := { (s.field f).hm with satAddr := (t.field f).hm.satAddr } }

/-- Every partition's seat is as before. -/
def SeatsKept (s t : State) : Prop := ∀ f, t.seat f = s.seat f

/-- The seat of field `f` reads `k`, and every other partition's seat is as before. -/
def OnlySeat (f : Nat) (k : Seat) (s t : State) : Prop := t.seat f = k ∧ ∀ g, s.seatIx g ≠ s.seatIx f → t.seat g = s.seat g

/-! ### Slate -/

/-- A request passes what every request meets but the wipe of its target: the firmware runs, the port takes its tag, its session is open and of generation 3, its
number is new and inside the window, its rights and the sealed state allow it (R333, R337, R342, R345, R423). -/
abbrev Heard (s : State) (r : Req) (i : Nat) (k : Session) (cls cmd : Nat) (x : Rights) : Prop :=
  s.px.stage = 6 ∧ s.tagOk r.vlan = true ∧ s.session r.sess = some (i, k) ∧ k.gen2 = false ∧ r.seq ≠ 0 ∧ k.h.toNat < r.seq.toNat + 4096 ∧
    k.seen.contains r.seq = false ∧ s.allowed k r.part x = true ∧ (s.store.sealed = false ∨ sealedServes cls cmd = true)

/-- A request reaches its command: its target is not under a wipe either (R351). -/
abbrev Admitted (s : State) (r : Req) (i : Nat) (k : Session) (cls cmd : Nat) (x : Rights) : Prop :=
  Heard s r i k cls cmd x ∧ s.wipingTarget r.part = false

/-- What an admitted request has done before its command acts: its session remembers it and it is counted (R27, R342). -/
def State.admitted (s : State) (r : Req) (k : Session) : State := (s.modSession r.sess (fun x => x.accept r.seq)).countReq k r.part

/-- The latest frame out answers request `r`. -/
def Answered (t : State) (r : Req) (st : BitVec 16) (d : BitVec 64) (b : Body) : Prop :=
  ∃ y rest, t.host.sent = .slate y :: rest ∧ y.sess = r.sess ∧ y.seq = r.seq ∧ y.part = r.part ∧ y.status = st ∧ y.detail = d ∧ y.body = b

/-- A command answers its request and has an effect. -/
def Does (c : Instr) (s : State) (r : Req) (st : BitVec 16) (d : BitVec 64) (b : Body) (p : State → Prop) : Prop :=
  ∃ t, exec c s = .next t ∧ Answered t r st d b ∧ p t

/-- A command answers its request and changes no unit and no seat. -/
def Replies (c : Instr) (s : State) (r : Req) (st : BitVec 16) (d : BitVec 64) (b : Body) : Prop :=
  Does c s r st d b (fun t => UnitsKept s t ∧ SeatsKept s t)

/-- A command has an effect, and its request is not answered yet. -/
def Waits (c : Instr) (s : State) (p : State → Prop) : Prop := ∃ t, exec c s = .next t ∧ t.host.sent = s.host.sent ∧ p t

/-- The request that a command carries, with its class, its code and the rights it needs (Table 11-5). -/
def slateOf : Instr → Option (Req × Nat × Nat × Rights)
  | .sessionClose r => some (r, 1, 4, .any)
  | .sessionStatus r => some (r, 1, 5, .any)
  | .partitionLayout r _ => some (r, 2, 1, .owner)
  | .partitionGrant r _ _ _ => some (r, 2, 2, .owner)
  | .partitionRevoke r _ => some (r, 2, 3, .owner)
  | .planBegin r _ _ _ => some (r, 3, 1, .bound)
  | .planData r _ _ => some (r, 3, 2, .bound)
  | .planCommit r => some (r, 3, 3, .bound)
  | .deliverBegin r _ => some (r, 3, 4, .bound)
  | .deliverData r _ _ _ => some (r, 3, 5, .bound)
  | .shardData r _ _ => some (r, 3, 6, .bound)
  | .shardCommit r _ => some (r, 3, 7, .bound)
  | .unload r => some (r, 3, 8, .bound)
  | .runStart r _ _ _ _ => some (r, 4, 1, .bound)
  | .runStop r _ => some (r, 4, 2, .bound)
  | .readOpen r _ _ _ => some (r, 5, 1, .bound)
  | .readPiece r _ _ _ => some (r, 5, 2, .bound)
  | .readClose r _ => some (r, 5, 3, .bound)
  | .readRegs r _ => some (r, 5, 4, .boundOwner)
  | .readLog r _ _ _ => some (r, 5, 5, .bound7)
  | .jobSeat r _ _ _ => some (r, 6, 1, .bound)
  | .jobPartner r _ _ => some (r, 6, 2, .bound)
  | .jobFill r _ _ _ _ => some (r, 6, 3, .bound)
  | .jobStandby r => some (r, 6, 4, .owner)
  | .jobAssume r _ _ _ _ _ _ => some (r, 6, 5, .owner)
  | .jobHandover r _ => some (r, 6, 6, .bound)
  | .jobPeers r _ => some (r, 6, 7, .bound)
  | .jobPool r _ _ => some (r, 6, 8, .bound)
  | .jobCkptSecret r _ _ => some (r, 6, 9, .bound)
  | .jobCheckpoint r _ _ => some (r, 6, 10, .bound)
  | .jobScan r => some (r, 6, 11, .bound)
  | .jobRestore r _ => some (r, 6, 12, .bound)
  | .jobLeave r => some (r, 6, 13, .bound)
  | .healthCards r _ _ _ _ => some (r, 7, 1, .any)
  | .healthPasses r => some (r, 7, 2, .any)
  | .healthClear r _ => some (r, 7, 3, .boundOwner)
  | .maintRotate r _ _ => some (r, 8, 1, .boundOwner)
  | .maintRetrain r _ => some (r, 8, 2, .bound)
  | .maintWipe r => some (r, 8, 3, .boundOwner)
  | .resetEngineCore r _ => some (r, 8, 4, .bound7)
  | .resetEngineLink r _ => some (r, 8, 4, .bound7)
  | .resetEngineChannel r _ _ => some (r, 8, 4, .bound7)
  | .resetContext r => some (r, 8, 4, .bound7)
  | .resetPartition r => some (r, 8, 4, .bound7)
  | .resetChip r _ => some (r, 8, 4, .bound7)
  | .maintMargin r _ _ _ => some (r, 8, 5, .owner)
  | .maintNetcfg r _ _ => some (r, 8, 6, .owner)
  | .tokenServiceMode r _ => some (r, 8, 7, .owner)
  | .tokenFactoryUnlock r _ => some (r, 8, 7, .owner)
  | .tokenReinstatement r _ => some (r, 8, 7, .owner)
  | .tokenOwnerTransfer r _ => some (r, 8, 7, .owner)
  | .maintReturn r => some (r, 8, 8, .owner)
  | .returnCancel r => some (r, 8, 8, .owner)
  | .dumpCollect r _ => some (r, 9, 1, .bound7)
  | .dumpList r => some (r, 9, 2, .bound7)
  | .dumpFetch r _ _ => some (r, 9, 3, .bound7)
  | .dumpDelete r _ => some (r, 9, 4, .bound7)
  | .attestReport r _ => some (r, 10, 1, .any)
  | .attestCerts r => some (r, 10, 2, .any)
  | .unknownCommand r _ => some (r, 0, 0, .any)
  | _ => none

/-- The request that a generation 2 command carries. -/
def gen2Of : Instr → Option Req2
  | .gen2Close q => some q
  | .gen2Info q => some q
  | .gen2Load q _ => some q
  | .gen2Weights q _ => some q
  | .gen2Feed q _ => some q
  | .gen2Go q => some q
  | .gen2Halt q => some q
  | .gen2Fetch q _ _ _ => some q
  | .gen2Regs q _ => some q
  | .gen2Health q => some q
  | .gen2Reset q _ => some q
  | .gen2Dump q _ _ => some q
  | _ => none

/-- A generation 2 request reaches its command (R345, R357, R358): its session is of generation 2, its number unwrapped is new and inside the
window, and its rights on {0,1,2,3} allow it. -/
abbrev Admitted2 (s : State) (q : Req2) (i : Nat) (k : Session) (cls cmd : Nat) (x : Rights) : Prop :=
  s.px.stage = 6 ∧ s.host.gen2En = true ∧ s.tagOk q.vlan = true ∧ s.session q.sess = some (i, k) ∧ k.gen2 = true ∧ s.wipingTarget 6 = false ∧
    seq2 k.h q.seq ≠ 0 ∧ k.h.toNat < (seq2 k.h q.seq).toNat + 4096 ∧ k.seen.contains (seq2 k.h q.seq) = false ∧
    s.allowed k 6 x = true ∧ (s.store.sealed = false ∨ sealedServes cls cmd = true)

/-- The latest frame out answers a generation 2 request. -/
def Answered2 (t : State) (q : Req2) (st : BitVec 8) (p : Body → Prop) : Prop :=
  ∃ b rest, t.host.sent = .gen2 q.sess q.seq st b :: rest ∧ p b

/-- The clock of a seat: its bell count, and HM_CLK when its period opened. -/
abbrev Seat.clockOf (k : Seat) : BitVec 64 × BitVec 64 := (k.tt.bell, k.tt.opened)

/-- The place of a seat's walk: its placed start and stop, whether a Run is in progress, its plan, the template, HOLD, the periods left, and
its state of synchronisation. -/
abbrev Seat.walkOf (k : Seat) : Option StartAt × Option StopAt × Bool × Option Plan × Nat × Bool × Nat × BitVec 2 :=
  (k.start, k.stop, k.running, k.plan, k.tt.entry, k.tt.hold, k.tt.left, k.tt.syncState)

/-- The sparse tables of memory, cores, fields, links, seats and counters are in their canonical form, so that equal tables are equal data:
they list their entries in rising order, list nothing equal to what an unlisted index reads as, and list no core, field or link that the module does
not have. -/
structure State.canonical (s : State) : Prop where
  mem : Memory.wf s.mem = true
  cores : Tab.wf Core.reset s.cores = true
  fields : Tab.wf (fun _ => ({} : Field)) s.fields = true
  links : Tab.wf (fun _ => ({} : Link)) s.links = true
  seats : Tab.wf (fun _ => ({} : Seat)) s.seats = true
  counters : Tab.wf (fun _ => ({} : Counter)) s.counters = true
  coreIx : ∀ e ∈ s.cores, e.1 < 2000
  fieldIx : ∀ e ∈ s.fields, e.1 < 4
  linkIx : ∀ e ∈ s.links, e.1 < 24

end Sys2Proof.Machine
end

