-- ==== Sys2Proof/WellFormed.lean ====
section
/-! DEFINITION. Well-formed commands: every unit a command names exists, and every operand is one the manual admits. A command that is
not well-formed still has a meaning; what it names does not exist, so it leaves the block as it is (log 2). -/

namespace Sys2Proof.WellFormed

/-- Core identifiers 0 to 1,999 (R17). -/
def coreNo (c : Nat) : Bool := decide (c < 2000)

/-- Fields 0 to 3 (R16). -/
def field (f : Nat) : Bool := decide (f < 4)

/-- Links 0 to 23 (R18). -/
def link (l : Nat) : Bool := decide (l < 24)

/-- A slot number of a flit header (Table 09-1). -/
def slotNo (n : Nat) : Bool := decide (n < 2 ^ 17)

/-- Places of a disturbed accumulator: 64 × 64 words (R120). -/
def tileWords (d : List (Nat × BitVec 32)) : Bool := d.all (fun e => decide (e.1 < 4096))

/-- A scored unit of a field (Table 12-2). -/
def cardUnit (kind index : Nat) : Bool :=
  match kind with
  | 1 => decide (index < 528)
  | 2 => decide (index < 4224)
  | 3 => decide (index < 32)
  | 4 => decide (index < 54)
  | 5 => decide (index < 2)
  | 6 => decide (index < 22)
  | 7 => decide (index < 1)
  | _ => false

/-- Peers name links of the module (R346). -/
def peersOk (p : List PeerSpec) : Bool := p.all (fun x => link x.link)

/-- A request's header names the class and command of its row (Tables 11-2, 11-5). -/
def reqOk (r : Req) (cls cmd : Nat) : Bool := r.cls.toNat == cls && r.cmd.toNat == cmd

/-- A legal Chalk word whose constructor is the one its code names (R91, Table 05-4). -/
def wfIns (x : Instr) : Bool :=
  match opOf x with
  | some (op, c, i) => coreNo c && insLegal op i && decide (instrOf op c i = some x)
  | none => false

end Sys2Proof.WellFormed

namespace Sys2Proof

/-- An intact flit carries 256 bytes and a slot of its period (R281, R282). -/
def Rx.wf (x : Rx) : Bool :=
  match x with
  | .damaged _ => true
  | .intact f cipher => decide (f.payload.length = 256) && decide (cipher.length = 272) && WellFormed.slotNo f.slot && WellFormed.slotNo f.ackSlot

/-- A plan's layouts name fields (R244, R443). -/
def Plan.wf (p : Plan) : Bool :=
  decide (p.cubby.length ≤ 4) && p.bulk.all (fun b => WellFormed.field b.field)

open WellFormed in
/-- Well-formed commands. -/
def Instr.wf (x : Instr) : Bool :=
  match x with
  | .nop c i => wfIns (.nop c i)
  | .add c i => wfIns (.add c i)
  | .sub c i => wfIns (.sub c i)
  | .and c i => wfIns (.and c i)
  | .or c i => wfIns (.or c i)
  | .xor c i => wfIns (.xor c i)
  | .sll c i => wfIns (.sll c i)
  | .srl c i => wfIns (.srl c i)
  | .sra c i => wfIns (.sra c i)
  | .mul c i => wfIns (.mul c i)
  | .mulhu c i => wfIns (.mulhu c i)
  | .min c i => wfIns (.min c i)
  | .max c i => wfIns (.max c i)
  | .divu c i => wfIns (.divu c i)
  | .remu c i => wfIns (.remu c i)
  | .addi c i => wfIns (.addi c i)
  | .andi c i => wfIns (.andi c i)
  | .ori c i => wfIns (.ori c i)
  | .xori c i => wfIns (.xori c i)
  | .slli c i => wfIns (.slli c i)
  | .srli c i => wfIns (.srli c i)
  | .srai c i => wfIns (.srai c i)
  | .li c i => wfIns (.li c i)
  | .lih c i => wfIns (.lih c i)
  | .cmpeq c i => wfIns (.cmpeq c i)
  | .cmplt c i => wfIns (.cmplt c i)
  | .cmpltu c i => wfIns (.cmpltu c i)
  | .cmpeqi c i => wfIns (.cmpeqi c i)
  | .cmplti c i => wfIns (.cmplti c i)
  | .cmpltui c i => wfIns (.cmpltui c i)
  | .plog c i => wfIns (.plog c i)
  | .adda c i => wfIns (.adda c i)
  | .addai c i => wfIns (.addai c i)
  | .mvsa c i => wfIns (.mvsa c i)
  | .mvas c i => wfIns (.mvas c i)
  | .br c i => wfIns (.br c i)
  | .call c i => wfIns (.call c i)
  | .jr c i => wfIns (.jr c i)
  | .loop c i => wfIns (.loop c i)
  | .ld c i => wfIns (.ld c i)
  | .st c i => wfIns (.st c i)
  | .ldd c i => wfIns (.ldd c i)
  | .std c i => wfIns (.std c i)
  | .dma c i => wfIns (.dma c i)
  | .dmad c i => wfIns (.dmad c i)
  | .mma c i => wfIns (.mma c i)
  | .mxz c i => wfIns (.mxz c i)
  | .mxld c i => wfIns (.mxld c i)
  | .mxst c i => wfIns (.mxst c i)
  | .vopCvt c i => wfIns (.vopCvt c i)
  | .vopAdd c i => wfIns (.vopAdd c i)
  | .vopSub c i => wfIns (.vopSub c i)
  | .vopMul c i => wfIns (.vopMul c i)
  | .vopDiv c i => wfIns (.vopDiv c i)
  | .vopMin c i => wfIns (.vopMin c i)
  | .vopMax c i => wfIns (.vopMax c i)
  | .vopFma c i => wfIns (.vopFma c i)
  | .vopAbs c i => wfIns (.vopAbs c i)
  | .vopNeg c i => wfIns (.vopNeg c i)
  | .vopSqrt c i => wfIns (.vopSqrt c i)
  | .vopRsqrt c i => wfIns (.vopRsqrt c i)
  | .vopRecip c i => wfIns (.vopRecip c i)
  | .vopExp c i => wfIns (.vopExp c i)
  | .vopLog c i => wfIns (.vopLog c i)
  | .vopTanh c i => wfIns (.vopTanh c i)
  | .vopSigmoid c i => wfIns (.vopSigmoid c i)
  | .vopSilu c i => wfIns (.vopSilu c i)
  | .vopRsum c i => wfIns (.vopRsum c i)
  | .vopRmax c i => wfIns (.vopRmax c i)
  | .vopAmax c i => wfIns (.vopAmax c i)
  | .vopSumsq c i => wfIns (.vopSumsq c i)
  | .vopSum c i => wfIns (.vopSum c i)
  | .vopSoftmax c i => wfIns (.vopSoftmax c i)
  | .vopLse c i => wfIns (.vopLse c i)
  | .vopRmsnorm c i => wfIns (.vopRmsnorm c i)
  | .vopLayernorm c i => wfIns (.vopLayernorm c i)
  | .vopXent c i => wfIns (.vopXent c i)
  | .vopXgrad c i => wfIns (.vopXgrad c i)
  | .vopQrow c i => wfIns (.vopQrow c i)
  | .vopQtensor c i => wfIns (.vopQtensor c i)
  | .vopMxq c i => wfIns (.vopMxq c i)
  | .vopDeq c i => wfIns (.vopDeq c i)
  | .vopRescale c i => wfIns (.vopRescale c i)
  | .vopHist c i => wfIns (.vopHist c i)
  | .fupd c i => wfIns (.fupd c i)
  | .crc c i => wfIns (.crc c i)
  | .vget c i => wfIns (.vget c i)
  | .vflg c i => wfIns (.vflg c i)
  | .bellwait c i => wfIns (.bellwait c i)
  | .bellwaits c i => wfIns (.bellwaits c i)
  | .seal c i => wfIns (.seal c i)
  | .rest c i => wfIns (.rest c i)
  | .rdcr c i => wfIns (.rdcr c i)
  | .wrcr c i => wfIns (.wrcr c i)
  | .rngk c i => wfIns (.rngk c i)
  | .rng c i => wfIns (.rng c i)
  | .fence c i => wfIns (.fence c i)
  | .wait c i => wfIns (.wait c i)
  | .check c i => wfIns (.check c i)
  | .raise c i => wfIns (.raise c i)
  | .rdflt c i => wfIns (.rdflt c i)
  | .sealDrainDone c => coreNo c
  | .fenceDrainDone c => coreNo c
  | .tagWaitDone c => coreNo c
  | .sealedWriteRelease c => coreNo c
  | .mmaStart c => coreNo c
  | .mmaResultReady c disturb => coreNo c && tileWords disturb
  | .mxzDone c => coreNo c
  | .mxldDone c => coreNo c
  | .mxstStart c => coreNo c
  | .abftCheckVerdict c => coreNo c
  | .localRecomputeStart c => coreNo c
  | .localRecomputeDone c disturb => coreNo c && tileWords disturb
  | .buddyServiceRequest c => coreNo c
  | .buddyServiceStart c => coreNo c
  | .buddyServiceDone c disturb => coreNo c && tileWords disturb
  | .buddyTileReturn c => coreNo c
  | .mxstWriteDone c => coreNo c
  | .dmaDone c n => coreNo c && decide (n < 16)
  | .vectorOpStart c => coreNo c
  | .vectorOpDone c => coreNo c
  | .bell f _ => field f
  | .parentSilenceUnlock f => field f
  | .txSlot l slot => link l && slotNo slot
  | .sealDeadline l slot => link l && slotNo slot
  | .flitReceive l _ slot rx ce => link l && slotNo slot && rx.wf && ce.all (fun e => decide (e.1 < 9))
  | .ackTimeout l _ slot => link l && slotNo slot
  | .statusFlitReceive l sf => link l && (match sf with | some x => decide (x.words.length = 8) | none => true)
  | .statusChildMissing f l => field f && link l
  | .absentReceived l => link l
  | .wipeReceived l => link l
  | .absentPatternEnd l _ => link l
  | .wipePatternEnd l => link l
  | .lightDetected l _ => link l
  | .signalTrained l _ _ => link l
  | .fecAligned l => link l
  | .fecLockLost l => link l
  | .identReceive l _ d _ => link l && decide (d.link.toNat < 256)
  | .swapReq l _ lane _ => link l && decide (lane < 8)
  | .swapAck l => link l
  | .swapNak l => link l
  | .laneSwapEffect l => link l
  | .poolResponse l _ _ _ => link l
  | .poolTimeout l _ => link l
  | .scheduledStart f => field f
  | .scheduledStop f => field f
  | .keyRotationEffect f => field f
  | .sweepBlock f => field f
  | .oldEpochErase f => field f
  | .pageCopyComplete f page => field f && decide (page < 2 ^ 24)
  | .patrolScrubPass f _ m => field f && m.all (fun x => cardUnit 3 x.1)
  | .cubbySample c => coreNo c
  | .cubbyReady f => field f
  | .ownerCrcReceive f core _ _ => field f && coreNo core
  | .unitApplyDone f core _ _ => field f && coreNo core
  | .recomputeRequest f core _ _ => field f && coreNo core
  | .recomputeReply f core _ _ _ => field f && coreNo core
  | .applyComplete f => field f
  | .summaryReceive f _ => field f
  | .unitTransferReceive f core _ _ _ => field f && coreNo core
  | .handoverPullsDone f => field f
  | .cardDecayTick f => field f
  | .cardStoreTimer f => field f
  | .remedyRelaxTimer f kind index => field f && cardUnit kind index
  | .popQuizStart f tileA tileB => field f && decide (tileA < 528) && decide (tileB < 528) && decide (tileA ≠ tileB)
  | .popQuizResult f _ _ third => field f && (match third with | some x => decide (x.1 < 528) | none => true)
  | .spareMarginTimer f => field f
  | .marginMeasureDone f kind index _ => field f && decide (kind = 5 ∨ kind = 6) && decide (index < (if kind = 6 then 528 else 33))
  | .tileCopyComplete f => field f
  | .passGrant f => field f
  | .combChangeover f => field f
  | .counterClear _ _ _ => true
  | .mxFlagsClear c _ => coreNo c
  | .vxFlagsClear c _ => coreNo c
  | .outOfTolClear f _ => field f
  | .pwAlertClear _ => true
  | .registerWrite _ _ _ => true
  | .sessionHello r _ _ _ kem => reqOk r 1 1 && decide (kem.length = 1184)
  | .sessionFinish r _ => reqOk r 1 3
  | .sessionClose r => reqOk r 1 4
  | .sessionStatus r => reqOk r 1 5
  | .handshakeTimeout _ => true
  | .sessionIdleTimeout _ => true
  | .partitionLayout r _ => reqOk r 2 1
  | .partitionGrant r _ _ _ => reqOk r 2 2
  | .partitionRevoke r _ => reqOk r 2 3
  | .planBegin r plan _ _ => reqOk r 3 1 && plan.wf
  | .planData r _ _ => reqOk r 3 2
  | .planCommit r => reqOk r 3 3
  | .deliverBegin r _ => reqOk r 3 4
  | .deliverData r _ _ _ => reqOk r 3 5
  | .shardData r _ _ => reqOk r 3 6
  | .shardCommit r _ => reqOk r 3 7
  | .unload r => reqOk r 3 8
  | .runStart r _ _ _ _ => reqOk r 4 1
  | .runStop r _ => reqOk r 4 2
  | .readOpen r _ _ _ => reqOk r 5 1
  | .readOpenAnswer f => field f
  | .readWaitTimeout f => field f
  | .readPiece r _ _ _ => reqOk r 5 2
  | .readClose r _ => reqOk r 5 3
  | .readRegs r _ => reqOk r 5 4
  | .readLog r _ _ _ => reqOk r 5 5
  | .jobSeat r _ _ peers => reqOk r 6 1 && peersOk peers
  | .jobPartner r _ _ => reqOk r 6 2
  | .jobFill r first last _ _ => reqOk r 6 3 && decide (first ≤ last)
  | .jobStandby r => reqOk r 6 4
  | .jobAssume r _ _ _ _ _ peers => reqOk r 6 5 && peersOk peers
  | .jobHandover r _ => reqOk r 6 6
  | .jobPeers r peers => reqOk r 6 7 && peersOk peers
  | .jobPool r _ _ => reqOk r 6 8
  | .jobCkptSecret r _ _ => reqOk r 6 9
  | .jobCheckpoint r _ _ => reqOk r 6 10
  | .jobScan r => reqOk r 6 11
  | .jobRestore r _ => reqOk r 6 12
  | .jobLeave r => reqOk r 6 13
  | .healthCards r kind _ _ fine => reqOk r 7 1 && decide (kind ≤ 7) && (match fine with | some x => decide (x.toNat ≤ 139) | none => true)
  | .healthPasses r => reqOk r 7 2
  | .healthClear r _ => reqOk r 7 3
  | .maintRotate r _ _ => reqOk r 8 1
  | .maintRetrain r l => reqOk r 8 2 && link l
  | .maintWipe r => reqOk r 8 3
  | .resetEngineCore r c => reqOk r 8 4 && coreNo c
  | .resetEngineLink r l => reqOk r 8 4 && link l
  | .resetEngineChannel r f ch => reqOk r 8 4 && field f && decide (ch < 32)
  | .resetContext r => reqOk r 8 4
  | .contextResetEffect f => field f
  | .resetPartition r => reqOk r 8 4
  | .resetChip r waitS => reqOk r 8 4 && decide (waitS ≤ 600)
  | .chipResetWaitExpiry => true
  | .maintMargin r clock f m => reqOk r 8 5 && field f && decide (m.unit < (if clock then 528 else 33))
  | .maintNetcfg r _ _ => reqOk r 8 6
  | .maintReturn r => reqOk r 8 8
  | .returnCancel r => reqOk r 8 8
  | .ownershipToken r _ _ => reqOk r 1 3
  | .tokenServiceMode r _ => reqOk r 8 7
  | .tokenFactoryUnlock r _ => reqOk r 8 7
  | .tokenReinstatement r _ => reqOk r 8 7
  | .tokenOwnerTransfer r _ => reqOk r 8 7
  | .serviceModeExpiry => true
  | .dumpCollect r _ => reqOk r 9 1
  | .dumpCollectDone f hung => field f && hung.all (fun v => decide (v % 2 ^ 18 < 128068))
  | .dumpList r => reqOk r 9 2
  | .dumpFetch r _ _ => reqOk r 9 3
  | .dumpDelete r _ => reqOk r 9 4
  | .attestReport r _ => reqOk r 10 1
  | .attestCerts r => reqOk r 10 2
  | .gen2Open q _ _ => decide (q.op = 0x01)
  | .gen2Close q => decide (q.op = 0x02)
  | .gen2Info q => decide (q.op = 0x03)
  | .gen2Load q x => decide (q.op = 0x10) && (match x with | .start p _ => p.wf | _ => true)
  | .gen2Weights q _ => decide (q.op = 0x11)
  | .gen2Feed q _ => decide (q.op = 0x20)
  | .gen2Go q => decide (q.op = 0x21)
  | .gen2Halt q => decide (q.op = 0x22)
  | .gen2Fetch q _ _ _ => decide (q.op = 0x30)
  | .gen2Regs q _ => decide (q.op = 0x31)
  | .gen2Health q => decide (q.op = 0x40)
  | .gen2Reset q _ => decide (q.op = 0x50)
  | .gen2Dump q _ _ => decide (q.op = 0x60)
  | .icmpEcho _ _ data => decide (data.length ≤ 9190)
  | .ndpMessage _ => true
  | .arpRequest _ => true
  | .dhcpv4Reply _ => true
  | .portModeTimeout => true
  | .bootSolicit => true
  | .bootAdvertise _ _ => true
  | .bootReadResponse p => decide (p.data.length ≤ 8192)
  | .bootReadRetry => true
  | .bootRetryTimer => true
  | .bootWipeDone => true
  | .wipeStart _ => true
  | .wipeLpddrDone _ => true
  | .entdaa _ => true
  | .rstdaa => true
  | .getpid => true
  | .getbcr => true
  | .getdcr => true
  | .telemetryWindow t => t.levels.all (fun x => field x.field && cardUnit x.kind x.index) && t.optics.all (fun x => link x.link && decide (x.k < 9))
  | .pwrEnRise => true
  | .powerGood => true
  | .pwrEnFall => true
  | .rstNAssert => true
  | .rstNRelease => true
  | .thermtrip => true
  | .undervolt => true
  | .undervoltShutdown => true
  | .overvolt => true
  | .inputOvervoltCutoff => true
  | .overcurrent => true
  | .hotSwapTrip => true
  | .phase f ph => field f && decide (ph < 22)
  | .cartLatch f => field f
  | .cap => true
  | .dieHot => true
  | .inletHot => true
  | .lpddrHot => true
  | .lightLost l => link l
  | .cartridgeLatched f => field f
  | .alertConditionEnd bit => decide (bit ≤ 6)
  | .portLinkUp _ => true
  | .portLinkDown => true
  | .resetRungComplete f => field f
  | .unitTransferAck f core _ => field f && coreNo core
  | .frameDropped f _ => field f
  | .unknownCommand _ _ => true

end Sys2Proof
end

