-- ==== Sys2Proof/Certificates/Slice0/Obligations.lean ====
section
/-! DEFINITION. The statements for the provers. -/

open Sys2Proof Sys2Proof.Machine

/-! ### Chalk: scalar registers, predicates, addresses, control flow -/

/-- R84, R98, Table 03-6: NOP, the scalar instructions, the comparisons and PLOG, and the address moves. Each next state differs from the one
before in its core alone: sD (a write to s0 is discarded), pD (p0 keeps its value) or aD modulo 2^48 takes the value named, and the PC and the
loops step on. -/
def Obligations.RegisterInstructionsWriteTheirResult : Prop :=
  (∀ (s : State) (c : Nat) (i : Ins), Able s c i → (s.core c).inside →
     let k := s.core c
     let a := k.sreg i.sa
     let b := k.sreg i.sb
     let gives (x : Instr) (v : BitVec 64) : Prop := exec x s = .next (s.setCore c (k.setS i.dst v).goesOn)
     exec (.nop c i) s = .next (s.setCore c k.goesOn) ∧
     gives (.add c i) (a + b) ∧ gives (.sub c i) (a - b) ∧ gives (.and c i) (a &&& b) ∧ gives (.or c i) (a ||| b) ∧
     gives (.xor c i) (a ^^^ b) ∧ gives (.sll c i) (a <<< (b.toNat % 64)) ∧ gives (.srl c i) (a >>> (b.toNat % 64)) ∧
     gives (.sra c i) (a.sshiftRight (b.toNat % 64)) ∧ gives (.mul c i) (a * b) ∧
     gives (.mulhu c i) (BitVec.ofNat 64 (a.toNat * b.toNat / 2 ^ 64)) ∧
     gives (.min c i) (if b.toInt < a.toInt then b else a) ∧ gives (.max c i) (if a.toInt < b.toInt then b else a) ∧
     gives (.divu c i) (if b = 0 then BitVec.allOnes 64 else a / b) ∧ gives (.remu c i) (if b = 0 then a else a % b) ∧
     gives (.addi c i) (a + i.imm.signExtend 64) ∧ gives (.andi c i) (a &&& i.imm.signExtend 64) ∧
     gives (.ori c i) (a ||| i.imm.signExtend 64) ∧ gives (.xori c i) (a ^^^ i.imm.signExtend 64) ∧
     gives (.slli c i) (a <<< (i.imm.toNat % 64)) ∧ gives (.srli c i) (a >>> (i.imm.toNat % 64)) ∧
     gives (.srai c i) (a.sshiftRight (i.imm.toNat % 64)) ∧ gives (.li c i) (i.imm.signExtend 64) ∧
     gives (.lih c i) (i.imm ++ (k.sreg i.dst).extractLsb' 0 32) ∧
     gives (.mvas c i) ((k.areg i.sa).setWidth 64)) ∧
  (∀ (s : State) (c : Nat) (i : Ins), Able s c i → (s.core c).inside →
     let k := s.core c
     let a := k.sreg i.sa
     let b := k.sreg i.sb
     let m := i.imm.signExtend 64
     let p := k.preg i.sa.toNat
     let q := k.preg i.sb.toNat
     let gives (x : Instr) (v : Bool) : Prop := exec x s = .next (s.setCore c (k.setP i.dst.toNat v).goesOn)
     gives (.cmpeq c i) (decide (a = b)) ∧ gives (.cmplt c i) (decide (a.toInt < b.toInt)) ∧
     gives (.cmpltu c i) (decide (a.toNat < b.toNat)) ∧ gives (.cmpeqi c i) (decide (a = m)) ∧
     gives (.cmplti c i) (decide (a.toInt < m.toInt)) ∧ gives (.cmpltui c i) (decide (a.toNat < m.toNat)) ∧
     gives (.plog c i) (if i.sc.toNat % 4 = 0 then p && q else if i.sc.toNat % 4 = 1 then p || q
       else if i.sc.toNat % 4 = 2 then p ^^ q else p && !q)) ∧
  (∀ (s : State) (c : Nat) (i : Ins), Able s c i → (s.core c).inside →
     let k := s.core c
     let gives (x : Instr) (n : Nat) : Prop := exec x s = .next (s.setCore c (k.setA i.dst (BitVec.ofNat 48 n)).goesOn)
     gives (.adda c i) ((k.areg i.sa).toNat + (k.sreg i.sb).toNat) ∧
     gives (.addai c i) ((k.areg i.sa).toNat + (i.imm.signExtend 48).toNat) ∧ gives (.mvsa c i) (k.sreg i.sa).toNat)

/-- R84: s0 reads as zero and discards writes; p0 reads as 1 and discards writes; every other scalar register, predicate, address and
descriptor register reads back what was written and leaves the others. -/
def Obligations.RegisterFilesReadBack : Prop :=
  ∀ (k : Core) (r q : BitVec 5) (v : BitVec 64) (b : Bool) (a : BitVec 48) (d : BitVec 512),
    (k.setS r v).sreg q = (if q = 0 then 0 else if q = r then v else k.sreg q) ∧
    (k.setP r.toNat b).preg q.toNat =
      (if q.toNat % 8 = 0 then true else if q.toNat % 8 = r.toNat % 8 then b else k.preg q.toNat) ∧
    (k.setA r a).areg q = (if q.toNat % 16 = r.toNat % 16 then a else k.areg q) ∧
    (k.setD r d).dreg q = (if q.toNat % 16 = r.toNat % 16 then d else k.dreg q)

/-- R92, R94, R97, R210: an instruction whose guard is false only takes its issue slot: of every Chalk instruction, whatever its operands; a code
word with a single-bit error is corrected first, and counted. A core that does not run, or that an instruction holds, issues nothing; and a code
word that fails its ECC records fault 0x01 as the core's first fault, stops the core, and changes no memory. Counting the words and blocks that a
read corrected changes neither memory nor a core, a link or a seat, and where there are none it changes nothing. -/
def Obligations.IssueNeedsCoreGuardAndWord : Prop :=
  (∀ (x : Instr) (op : BitVec 8) (c : Nat) (i : Ins) (s : State), opOf x = some (op, c, i) → c < 2000 →
     (s.core c).ready = true → s.bad.contains (fetchAddr c (s.core c)) = false → (s.core c).guardOk i = false → (s.core c).inside →
     (s.ce.contains (fetchAddr c (s.core c)) = false → exec x s = .next (s.setCore c (s.core c).goesOn)) ∧
     (s.ce.contains (fetchAddr c (s.core c)) = true →
       exec x s = .next ((s.correctedWord (fetchAddr c (s.core c))).setCore c (s.core c).goesOn))) ∧
  (∀ (x : Instr) (op : BitVec 8) (c : Nat) (i : Ins) (s : State), opOf x = some (op, c, i) →
     (((s.core c).ready = false ∨ 2000 ≤ c) → exec x s = .next s) ∧
     (c < 2000 → (s.core c).ready = true → s.bad.contains (fetchAddr c (s.core c)) = true → (s.core c).fault.toNat % 256 = 0 →
       ∃ t, exec x s = .next t ∧ (t.core c).mode = .faulted ∧ (t.core c).fault.toNat % 256 = 1 ∧
         (t.core c).faultAddr.toNat = fetchAddr c (s.core c) ∧ t.mem = s.mem)) ∧
  (∀ (s : State) (l : List (Nat × Nat)),
     let t := s.noteCorrected l
     (t.mem = s.mem ∧ t.cores = s.cores ∧ t.links = s.links ∧ t.seats = s.seats) ∧
     ((∀ w ∈ s.ce, touches l w 8 = false) → (∀ e ∈ s.flaws, touches l (512 * (e.1 / 544)) 512 = false) → t = s)) ∧
  (∀ (s : State) (c a : Nat), regionOf a = .slate c →
     let n := hmBase (fieldOfCore c) + 0x48
     (s.counter n).sat = false → (s.counter n).count ≠ 0xFFFFFFFF#32 → ((s.correctedWord a).counter n).count = (s.counter n).count + 1)

/-- R99, R100: a branch, a CALL or a JR inside the code region sets the PC; CALL leaves the return index in s31; a loop whose body does
not hold the target ends. LOOP with a free level sets lc0, or lc1 inside an active lc0; a count of 0 skips the body; a third nesting records fault 0x06 and
goes on. At the last instruction of a loop's body a pass that is left goes back to the body's start with one pass less; the last pass ends the
loop and goes on; an inner loop that ends at the outer one's last instruction ends first; and an instruction that would leave the code region
records fault 0x08 and stops the core.
Where the manual leaves a point open its clauses follow log 22 and 26. -/
def Obligations.BranchesAndLoopsReachTheirTarget : Prop :=
  (∀ (s : State) (c : Nat) (i : Ins), Able s c i →
    let k := s.core c
    let pc : Int := k.pc.toNat + i.imm.toInt
    (0 ≤ pc → pc < k.codeLen →
      exec (.br c i) s = .next (s.setCore c (k.jumpTo pc.toNat)) ∧
      exec (.call c i) s = .next (s.setCore c ((k.setS 31 (BitVec.ofNat 64 (k.pc.toNat + 1))).jumpTo pc.toNat))) ∧
    ((k.sreg i.sa).toNat < k.codeLen → exec (.jr c i) s = .next (s.setCore c (k.jumpTo (k.sreg i.sa).toNat))) ∧
    (k.codeLen ≤ (k.sreg i.sa).toNat → k.fault.toNat % 256 = 0 →
      ∃ t, exec (.jr c i) s = .next t ∧ (t.core c).mode = .faulted ∧ (t.core c).fault.toNat % 256 = 8 ∧ t.mem = s.mem)) ∧
  (∀ (s : State) (c : Nat) (i : Ins), Able s c i →
     let k := s.core c
     let n := k.sreg i.sa
     let r : LoopReg := { count := n, start := BitVec.ofNat 14 (k.pc.toNat + 1), last := BitVec.ofNat 14 (k.pc.toNat + i.imm.toNat) }
     (n ≠ 0 → k.lc0 = none → k.lc1 = none → k.pc.toNat + 1 < k.codeLen → 0 < i.imm.toNat → k.pc.toNat + i.imm.toNat < 2 ^ 14 →
       exec (.loop c i) s = .next (s.setCore c { k with lc0 := some r, pc := BitVec.ofNat 14 (k.pc.toNat + 1) })) ∧
     (n ≠ 0 → k.lc0.isSome = true → k.lc1 = none → k.pc.toNat + 1 < k.codeLen → 0 < i.imm.toNat → k.pc.toNat + i.imm.toNat < 2 ^ 14 →
       exec (.loop c i) s = .next (s.setCore c { k with lc1 := some r, pc := BitVec.ofNat 14 (k.pc.toNat + 1) })) ∧
     (n = 0 → k.lc0 = none → k.lc1 = none → k.pc.toNat + i.imm.toNat + 1 < k.codeLen →
       exec (.loop c i) s = .next (s.setCore c { k with pc := BitVec.ofNat 14 (k.pc.toNat + i.imm.toNat + 1) })) ∧
     (k.lc0.isSome = true → k.lc1.isSome = true → k.inside → k.fault.toNat % 256 = 0 →
       ∃ t, exec (.loop c i) s = .next t ∧ (t.core c).fault.toNat % 256 = 6 ∧ (t.core c).pc = k.goesOn.pc ∧ t.mem = s.mem)) ∧
  (∀ (k : Core) (l m : LoopReg) (x : Nat),
     (k.lc1 = none → k.lc0 = some l → l.last.toNat = x →
       k.seqNext x = if 1 < l.count.toNat then ({ k with lc0 := some { l with count := l.count - 1 } }, l.start.toNat)
         else ({ k with lc0 := none }, x + 1)) ∧
     (k.lc1 = some m → m.last.toNat = x → 1 < m.count.toNat →
       k.seqNext x = ({ k with lc1 := some { m with count := m.count - 1 } }, m.start.toNat)) ∧
     (k.lc1 = some m → m.last.toNat = x → m.count.toNat ≤ 1 → k.seqNext x = ({ k with lc1 := none } : Core).seqNext x) ∧
     ((∀ r, k.lc0 = some r → r.last.toNat ≠ x) → (∀ r, k.lc1 = some r → r.last.toNat ≠ x) → k.seqNext x = (k, x + 1)) ∧
     (∀ (s : State) (c op : Nat), c < 2000 → (s.core c).fault.toNat % 256 = 0 → ¬ (s.core c).inside →
       ((s.advance c op).core c).mode = .faulted ∧ ((s.advance c op).core c).fault.toNat % 256 = 8))
/-! ### Chalk: loads, stores, DMA -/

/-- R101, R102, R210, Table 03-8: LD and LDD of bytes that lie in the core's own slate or desk, aligned, and read well. LD extends them to sD
and, with SC[3], reads at aA and then increments it; LDD loads dD. Nothing but the core changes, and the words corrected are counted. ST and STD
of such bytes outside every code region and every sealed buffer, which may be written: the bytes stored read back, every other byte of memory is
kept, and of the cores only this one changes. -/
def Obligations.LoadsAndStoresReachOwnMemory : Prop :=
  (∀ (s : State) (c : Nat) (i : Ins), Able s c i → (s.core c).inside →
    let k := s.core c
    let fs := s.seatFields (fieldOfCore c)
    let own (a n : Nat) : Prop :=
      ((slateBase c ≤ a ∧ a + n ≤ slateBase c + 0x80000) ∨ (deskBase c ≤ a ∧ a + n ≤ deskBase c + 0x800000)) ∧ a % n = 0 ∧
        ∀ x, a ≤ x → x < a + n → s.readErr fs x = none
    let n := 2 ^ (i.sc.toNat % 4)
    let a := if i.sc.getLsbD 3 then (k.areg i.sa).toNat else k.effAddr i
    let v := ofLe (Memory.readN s.mem a n)
    let k' := if i.sc.getLsbD 3 then k.setA i.sa (k.areg i.sa + i.imm.signExtend 48) else k
    (own a n → exec (.ld c i) s = .next ((s.noteCorrected [(a, n)]).setCore c
      (k'.setS i.dst (if i.sc.getLsbD 2 then (BitVec.ofNat (8 * n) v).signExtend 64 else BitVec.ofNat 64 v)).goesOn)) ∧
    (own (k.effAddr i) 64 → exec (.ldd c i) s = .next ((s.noteCorrected [(k.effAddr i, 64)]).setCore c
      (k.setD i.dst (BitVec.ofNat 512 (ofLe (Memory.readN s.mem (k.effAddr i) 64)))).goesOn))) ∧
  (∀ (s : State) (c : Nat) (i : Ins), Able s c i → (s.core c).inside →
    let k := s.core c
    let fs := s.seatFields (fieldOfCore c)
    let own (a n : Nat) : Prop :=
      ((slateBase c ≤ a ∧ a + n ≤ slateBase c + 0x80000) ∨ (deskBase c ≤ a ∧ a + n ≤ deskBase c + 0x800000)) ∧ a % n = 0 ∧
        s.hitsCode a n = false ∧ s.meetsSeal a n = false ∧ ∀ x, a ≤ x → x < a + n → s.writeErr fs a n x = none
    let n := 2 ^ (i.sc.toNat % 4)
    let a := if i.sc.getLsbD 3 then (k.areg i.sa).toNat else k.effAddr i
    let k' := if i.sc.getLsbD 3 then k.setA i.sa (k.areg i.sa + i.imm.signExtend 48) else k
    let lands (x : Instr) (a n v : Nat) (k : Core) : Prop :=
      ∃ t, exec x s = .next t ∧ Memory.readN t.mem a n = leBytes n v ∧ BytesKept a n s t ∧ t.core c = k.goesOn ∧
        (∀ e, e ≠ c → t.core e = s.core e) ∧ t.links = s.links ∧ t.seats = s.seats ∧
        t.fields = (s.noteCorrected (edges a n)).fields ∧ t.counters = (s.noteCorrected (edges a n)).counters
    (own a n → lands (.st c i) a n (k.sreg i.sb).toNat k') ∧
    (own (k.effAddr i) 64 → lands (.std c i) (k.effAddr i) 64 (k.dreg i.sb).toNat k))

/-- R58, R71, R87, R97, R101, R102: an LD, LDD, ST or STD outside the core's windows records fault 0x02, a misaligned one 0x09, and a store
into the core's code region 0x03 at its first byte there: FAULT and FAULT_ADDR as Table 03-15 has them for a first fault, MORE for a later one,
TAINT in the period, and for codes 0x02 and 0x03 an entry of SOURCE 1 in the violation log. A load returns zero, a store is discarded, an
access with SC[3] still steps its address, the core goes on, and no byte of memory changes. A store that meets a sealed buffer holds the core and
changes no memory; SEALED_WRITE_RELEASE makes it once the seal has cleared, and the core goes on.
Where the manual leaves a point open its clauses follow log 22. -/
def Obligations.RefusedAndHeldAccesses : Prop :=
  (∀ (s : State) (c : Nat) (i : Ins), Able s c i → (s.core c).inside →
     let k := s.core c
     let f := fieldOfCore c
     let n := 2 ^ (i.sc.toNat % 4)
     let a := if i.sc.getLsbD 3 then (k.areg i.sa).toNat else k.effAddr i
     let k' := if i.sc.getLsbD 3 then k.setA i.sa (k.areg i.sa + i.imm.signExtend 48) else k
     let e := k.effAddr i
     let out (a n : Nat) : Prop := ¬ (slateBase c ≤ a ∧ a + n ≤ slateBase c + 0x80000) ∧ ¬ (deskBase c ≤ a ∧ a + n ≤ deskBase c + 0x800000)
     let code (a n : Nat) : Prop := slateBase c ≤ a ∧ a + n ≤ slateBase c + 0x80000 ∧ a % n = 0 ∧ a < slateBase c + 8 * k.codeLen
     let entry (v a : Nat) : VEntry :=
       { addr := BitVec.ofNat 64 a, bell := (s.seat f).tt.bell, source := 1, code := BitVec.ofNat 8 v, unitId := BitVec.ofNat 16 c }
     let faults (x : Instr) (v a : Nat) (m : Core) : Prop :=
       ∃ t, exec x s = .next t ∧ t.core c = m.goesOn ∧ t.mem = s.mem ∧ (t.seat f).tt.cur.getLsbD 0 = true ∧
         (t.seat f).vlog = (if v = 9 then (s.seat f).vlog else (vlogAdd (s.seat f).vlog (entry v a)).1)
     let loads (m : Core) (op v a : Nat) : Core := m.recordFault v k.pc.toNat op a
     (out a n → faults (.ld c i) 2 a ((loads k' 0x50 2 a).setS i.dst 0) ∧ faults (.st c i) 2 a (loads k' 0x51 2 a)) ∧
     (¬ out a n → a % n ≠ 0 → faults (.ld c i) 9 a ((loads k' 0x50 9 a).setS i.dst 0) ∧ faults (.st c i) 9 a (loads k' 0x51 9 a)) ∧
     (out e 64 → faults (.ldd c i) 2 e ((loads k 0x52 2 e).setD i.dst 0) ∧ faults (.std c i) 2 e (loads k 0x53 2 e)) ∧
     (¬ out e 64 → e % 64 ≠ 0 → faults (.ldd c i) 9 e ((loads k 0x52 9 e).setD i.dst 0) ∧ faults (.std c i) 9 e (loads k 0x53 9 e)) ∧
     (code a n → faults (.st c i) 3 a (loads k' 0x51 3 a)) ∧ (code e 64 → faults (.std c i) 3 e (loads k 0x53 3 e))) ∧
  (∀ (k : Core) (v pc op a : Nat), 0 < v → v < 256 → pc < 16384 → op < 256 → a < 2 ^ 48 →
     (k.fault.toNat % 256 = 0 →
       let r := k.recordFault v pc op a
       r.fault.toNat % 256 = v ∧ r.fault.toNat / 512 % 16384 = pc ∧ r.fault.toNat / 2 ^ 23 % 256 = op ∧ r.fault.getLsbD 8 = false ∧
         r.faultAddr.toNat = a) ∧
     (k.fault.toNat % 256 ≠ 0 → k.recordFault v pc op a = { k with fault := k.fault ||| 0x100#64 })) ∧
  (∀ (s : State) (c : Nat) (i : Ins) (bs : List Byte) (a : Nat),
     (Able s c i →
       let k := s.core c
       let n := 2 ^ (i.sc.toNat % 4)
       let a := if i.sc.getLsbD 3 then (k.areg i.sa).toNat else k.effAddr i
       let k' := if i.sc.getLsbD 3 then k.setA i.sa (k.areg i.sa + i.imm.signExtend 48) else k
       let e := k.effAddr i
       (accessFault c a n = none → s.hitsCode a n = false → s.meetsSeal a n = true →
         exec (.st c i) s = .next (s.setCore c { k' with stall := some (.store a (leBytes n (k.sreg i.sb).toNat)) })) ∧
       (accessFault c e 64 = none → s.hitsCode e 64 = false → s.meetsSeal e 64 = true →
         exec (.std c i) s = .next (s.setCore c { k with stall := some (.store e (leBytes 64 (k.dreg i.sb).toNat)) }))) ∧
     (c < 2000 → (s.core c).mode = .running → (s.core c).inside → (s.core c).stall = some (.store a bs) →
       s.meetsSeal a bs.length = true → exec (.sealedWriteRelease c) s = .next s) ∧
     (c < 2000 → (s.core c).mode = .running → (s.core c).inside → (s.core c).stall = some (.store a bs) →
       s.meetsSeal a bs.length = false →
       (∀ x, a ≤ x → x < a + bs.length → s.writeErr (s.seatFields (fieldOfCore c)) a bs.length x = none) →
       ∃ t, exec (.sealedWriteRelease c) s = .next t ∧ Memory.readN t.mem a bs.length = bs ∧ BytesKept a bs.length s t ∧
         t.core c = ({ s.core c with stall := none } : Core).goesOn))

/-- R94, R95, R97, R103, R104, R231: DMA and DMAD join the queue of at most 16 under their tag and the core goes on, their reads of fields whose
key sweep runs counted in MC_INFLIGHT_OLD. A length or an alignment outside Table 03-9, and descriptors that are illegal or do not match in
format and element count, record fault 0x0A, queue nothing and move nothing. The DMA at any place of the queue may finish: whether it completes or
meets an error, its tag counts one less, it leaves the queue, and no byte outside its destination changes. A DMA copies 64-byte units in
ascending order, each read before it is written: where all its bytes read and write well, each destination byte takes the source byte of its
place, or, where the destination begins inside the source, the one that this order has put there; an unreadable byte of the first unit records
fault 0x04 at its address and moves nothing. A DMAD whose tensors read and write well and do not meet gives the k-th element of its destination
the bits of the k-th of its source.
Where the manual leaves a point open its clauses follow log 22. -/
def Obligations.DmaJoinsAndMoves : Prop :=
  (∀ (s : State) (c : Nat) (i : Ins), Able s c i → (s.core c).inside →
     let k := s.core c
     let dst := (k.areg i.dst).toNat
     let src := (k.areg i.sa).toNat
     let n := (k.sreg i.sb).toNat
     let d := descOf (k.dreg i.dst)
     let a := descOf (k.dreg i.sa)
     let ok : Prop := dst % 64 = 0 ∧ src % 64 = 0 ∧ n % 64 = 0 ∧ 64 ≤ n ∧ n ≤ 0x1000000
     let okd : Prop := d.legal allFmts allKinds true = true ∧ a.legal allFmts allKinds false = true ∧ d.fmt = a.fmt ∧ d.count = a.count
     let joins (x : Instr) (op : BitVec 8) (kind : DmaKind) : Prop :=
       let old := s.oldReads (s.seatFields (fieldOfCore c)) kind.sources
       exec x s = .next ((old.foldl (fun t e => t.modMc e.1 (fun m => { m with inflight := m.inflight + e.2 })) s).setCore c
         ({ k.tagAdd (tagOf i) with dmaQ := k.dmaQ ++ [{ kind := kind, tag := tagOf i, pc := k.pc, op := op, old := old }] } : Core).goesOn)
     let refused (x : Instr) : Prop :=
       ∃ t, exec x s = .next t ∧ (t.core c).fault.toNat % 256 = 10 ∧ (t.core c).dmaQ = k.dmaQ ∧ (t.core c).tags = k.tags ∧ t.mem = s.mem
     (ok → s.hitsCode dst n = false → k.dmaQ.length < 16 → joins (.dma c i) 0x60 (.copy dst src n)) ∧
     (okd → s.codeHit d.ranges = none → k.dmaQ.length < 16 → joins (.dmad c i) 0x61 (.elements (k.dreg i.dst) (k.dreg i.sa))) ∧
     (¬ ok → k.fault.toNat % 256 = 0 → refused (.dma c i)) ∧ (¬ okd → k.fault.toNat % 256 = 0 → refused (.dmad c i))) ∧
  (∀ (s : State) (c n : Nat) (o : DmaOp) (dst src len : Nat), c < 2000 → (s.core c).dmaQ[n]? = some o → o.kind = .copy dst src len →
     dst % 64 = 0 → src % 64 = 0 → len % 64 = 0 → s.meetsSeal dst len = false →
     let fs := s.seatFields (fieldOfCore c)
     ∃ t, exec (.dmaDone c n) s = .next t ∧ (t.core c).tag o.tag = (s.core c).tag o.tag - 1 ∧
       (t.core c).dmaQ = (s.core c).dmaQ.eraseIdx n ∧ BytesKept dst len s t ∧
       ((∀ x, src ≤ x → x < src + len → s.readErr fs x = none) → src + len ≤ dst ∨ dst + len ≤ src →
         (∀ x, dst ≤ x → x < dst + len → s.writeErr fs dst len x = none) →
         Memory.readN t.mem dst len = Memory.readN s.mem src len ∧ (t.core c).fault = (s.core c).fault) ∧
       ((∀ x, src ≤ x → x < src + len → s.readErr fs x = none) → (∀ x, dst ≤ x → x < dst + len → s.writeErr fs x 1 x = none) →
         ∀ j, j < len → Memory.read t.mem (dst + j) = Memory.read s.mem (if src < dst then src + j % (dst - src) else src + j)) ∧
       (∀ x e, 0 < len → src ≤ x → x < src + 64 → s.readErr fs x = some e → (∀ y, src ≤ y → y < x → s.readErr fs y = none) →
         t.mem = s.mem ∧ (t.core c).fault = ((s.core c).recordFault 4 o.pc.toNat o.op.toNat x).fault ∧
         (t.core c).faultAddr = ((s.core c).recordFault 4 o.pc.toNat o.op.toNat x).faultAddr)) ∧
  (∀ (s : State) (c n : Nat) (o : DmaOp) (db ab : BitVec 512), c < 2000 → (s.core c).dmaQ[n]? = some o → o.kind = .elements db ab →
     let d := descOf db
     let a := descOf ab
     let fs := s.seatFields (fieldOfCore c)
     d.legal allFmts allKinds true = true → a.legal allFmts allKinds false = true → d.fmt = a.fmt → d.count = a.count → s.anySeal d.ranges = false →
     ∃ t, exec (.dmaDone c n) s = .next t ∧ (t.core c).tag o.tag = (s.core c).tag o.tag - 1 ∧
       (t.core c).dmaQ = (s.core c).dmaQ.eraseIdx n ∧
       (∀ x, (∀ r ∈ d.ranges, x < r.1 ∨ r.1 + r.2 ≤ x) → Memory.read t.mem x = Memory.read s.mem x) ∧
       ((∀ r ∈ a.ranges, ∀ x, r.1 ≤ x → x < r.1 + r.2 → s.readErr fs x = none) →
         (∀ r ∈ d.ranges, ∀ x, r.1 ≤ x → x < r.1 + r.2 → s.writeErr fs x 1 x = none) →
         (∀ r ∈ d.ranges, ∀ q ∈ a.ranges, r.1 + r.2 ≤ q.1 ∨ q.1 + q.2 ≤ r.1) →
         ∀ j, j < d.count → d.raw t.mem j = a.raw s.mem j))
/-! ### Chalk: array, vector engine, synchronisation -/

/-- R94, R105, R106, R133, R134, R198: a legal MMA, MXZ, MXLD or MXST joins the array's queue of at most 8 under its tag with the random key
of its issue, and abandons a quiz on its tile; a legal FUPD and a legal CRC join the vector queue of at most 8 in the same way. The core goes on.
Where the manual leaves a point open its clauses follow log 2 and 23. -/
def Obligations.ArrayAndUpdateInstructionsQueue : Prop :=
  (∀ (s : State) (c : Nat) (i : Ins), Able s c i → (s.core c).inside → (s.core c).arrQ.length < 8 →
     let k := s.core c
     let da := descOf (k.dreg i.sa)
     let dd := descOf (k.dreg i.dst)
     let joins (x : Instr) (op : BitVec 8) (kind : ArrKind) : Prop :=
       exec x s = .next ((s.setCore c ({ k.tagAdd (tagOf i) with
         arrQ := k.arrQ ++ [{ kind := kind, tag := tagOf i, pc := k.pc, op := op, key := s.rngKey c }] } : Core).goesOn).quizAbandon c)
     (mmaLegal c i.imm da (descOf (k.dreg i.sb)) = true → chainTakes (k.clsAt (i.dst.toNat % 8)) i.imm = true →
       joins (.mma c i) 0x70 (.mma (BitVec.ofNat 3 i.dst.toNat) (k.dreg i.sa) (k.dreg i.sb) i.imm)) ∧
     joins (.mxz c i) 0x71 (.mxz (BitVec.ofNat 3 i.dst.toNat)) ∧
     (da.ok c [7, 8] [0, 2, 3, 4] false = true → da.d0 = 64 → da.d1 = 64 → da.d2 = 1 → da.d3 = 1 →
       joins (.mxld c i) 0x72 (.mxld (BitVec.ofNat 3 i.dst.toNat) (k.dreg i.sa))) ∧
     (mxstLegal c i.imm dd (k.clsAt (i.sa.toNat % 8)) = true → (dd.ranges.find? (fun r => s.hitsCode r.1 r.2)) = none →
       joins (.mxst c i) 0x73 (.mxst (BitVec.ofNat 3 i.sa.toNat) (k.dreg i.dst) i.imm))) ∧
  (∀ (s : State) (c : Nat) (i : Ins), Able s c i → (s.core c).inside → (s.core c).vecQ.length < 8 →
     let k := s.core c
     let layer : BitVec 16 := i.imm.extractLsb' 4 16
     let e := k.dreg ((i.imm.extractLsb' 0 4).setWidth 5)
     let da := descOf (k.dreg i.sa)
     let dd := descOf (k.dreg i.dst)
     let free (l : List (Nat × Nat)) : Prop := l.find? (fun r => s.hitsCode r.1 r.2) = none
     (fupdLegal c dd da (descOf (k.dreg i.sb)) (descOf e) = true → i.imm.toNat < 2 ^ 20 →
       (updRecOf (Memory.readN s.mem dd.aux 64)).layer = layer.toNat → free (fupdRanges c dd (descOf (k.dreg i.sb)) (descOf e)) →
       let o : VecOp := { kind := .fupd layer, d := k.dreg i.dst, a := k.dreg i.sa, b := k.dreg i.sb, c := e, mods := 0, tag := tagOf i,
                          pc := k.pc, op := 0x81, key := s.rngKey c, step := k.sreg 3 }
       exec (.fupd c i) s = .next (s.setCore c ({ k.tagAdd (tagOf i) with vecQ := k.vecQ ++ [o] } : Core).goesOn)) ∧
     (da.ok c allFmts allKinds false = true → free (homeRanges c da false) →
       let o : VecOp := { kind := .crc, a := k.dreg i.sa, tag := tagOf i, pc := k.pc, op := 0x82, key := s.rngKey c }
       exec (.crc c i) s = .next (s.setCore c ({ k.tagAdd (tagOf i) with vecQ := k.vecQ ++ [o] } : Core).goesOn)))

/-- The VOP commands with their codes (Table 05-4). -/
def vopCodes : List ((Nat → Ins → Instr) × Nat) :=
  [(.vopCvt, 0x01), (.vopAdd, 0x02), (.vopSub, 0x03), (.vopMul, 0x04), (.vopDiv, 0x05), (.vopMin, 0x06), (.vopMax, 0x07),
   (.vopFma, 0x08), (.vopAbs, 0x09), (.vopNeg, 0x0A), (.vopSqrt, 0x0B), (.vopRsqrt, 0x0C), (.vopRecip, 0x0D), (.vopExp, 0x0E),
   (.vopLog, 0x0F), (.vopTanh, 0x10), (.vopSigmoid, 0x11), (.vopSilu, 0x12), (.vopRsum, 0x20), (.vopRmax, 0x21), (.vopAmax, 0x22),
   (.vopSumsq, 0x23), (.vopSum, 0x24), (.vopSoftmax, 0x30), (.vopLse, 0x31), (.vopRmsnorm, 0x32), (.vopLayernorm, 0x33),
   (.vopXent, 0x34), (.vopXgrad, 0x35), (.vopQrow, 0x40), (.vopQtensor, 0x41), (.vopMxq, 0x42), (.vopDeq, 0x43),
   (.vopRescale, 0x44), (.vopHist, 0x48)]

/-- R106, R165, R177, R94, R97: each of the 35 VOPs, its code in IMM[15:0] and legal in its descriptors and modifiers, joins the vector queue of at most 8 under
its tag with the four descriptors and the random key of its issue, and the core goes on; an illegal one records fault 0x0A, queues
nothing and changes no memory. -/
def Obligations.VectorInstructionsQueue : Prop :=
  ∀ p ∈ vopCodes, ∀ (s : State) (c : Nat) (i : Ins), Able s c i → (s.core c).inside →
    let k := s.core c
    let mods : BitVec 12 := i.imm.extractLsb' 20 12
    let e := k.dreg ((i.imm.extractLsb' 16 4).setWidth 5)
    let legal := (i.imm.toNat % 65536 == p.2) && vopLegal c p.2 mods (descOf (k.dreg i.dst)) (descOf (k.dreg i.sa)) (descOf (k.dreg i.sb)) (descOf e)
    let o : VecOp := { kind := .vop (BitVec.ofNat 16 p.2), d := k.dreg i.dst, a := k.dreg i.sa, b := k.dreg i.sb, c := e, mods := mods,
                       tag := tagOf i, pc := k.pc, op := 0x80, key := s.rngKey c, step := k.sreg 3 }
    (legal = true → ((vopRanges c p.2 mods (descOf (k.dreg i.dst)) (descOf (k.dreg i.sa))).find? (fun r => s.hitsCode r.1 r.2)) = none →
      k.vecQ.length < 8 →
      exec (p.1 c i) s = .next (s.setCore c ({ k.tagAdd (tagOf i) with vecQ := k.vecQ ++ [o] } : Core).goesOn)) ∧
    (legal = false → k.fault.toNat % 256 = 0 →
      ∃ t, exec (p.1 c i) s = .next t ∧ (t.core c).fault.toNat % 256 = 10 ∧ (t.core c).vecQ = k.vecQ ∧ t.mem = s.mem)

/-- R94, R106, R112, R114: VGET, VFLG, WAIT, FENCE and SEAL have their effect at once when what they wait for is complete, and the core goes on.
Each holds the core while it is not. SEAL_DRAIN_DONE ends a held SEAL, FENCE_DRAIN_DONE a held FENCE, and TAG_WAIT_DONE a held WAIT, VGET or
VFLG, with the instruction's effect, once what it waits for is complete; until then they change nothing. -/
def Obligations.WaitingInstructionsHoldAndComplete : Prop :=
  (∀ (s : State) (c : Nat) (i : Ins), Able s c i → (s.core c).inside →
     let k := s.core c
     let t := tagOf i
     let m4 : BitVec 4 := i.imm.setWidth 4
     let m16 : BitVec 16 := i.imm.setWidth 16
     let id : BitVec 8 := i.imm.setWidth 8
     let flags : Core := { k.setS i.dst (k.flagsOf t) with tagFlags := Tab.set (fun _ => 0) k.tagFlags t.toNat 0 }
     let goes (x : Instr) (m : Core) : Prop := exec x s = .next (s.setCore c m.goesOn)
     (k.tag t = 0 → goes (.vget c i) (k.setS i.dst (k.scalarOf t)) ∧ goes (.vflg c i) flags) ∧
     ((∀ j : Nat, j < 16 → m16.getLsbD j = true → k.tag (BitVec.ofNat 4 j) = 0) → goes (.wait c i) k) ∧
     (k.fenceDone m4 = true → goes (.fence c i) k) ∧
     (k.writesDone = true → goes (.seal c i) { k with seals := k.seals ||| (1#256 <<< id.toNat) })) ∧
  (∀ (s : State) (c : Nat) (i : Ins), Able s c i →
     let k := s.core c
     let t := tagOf i
     let m4 : BitVec 4 := i.imm.setWidth 4
     let m16 : BitVec 16 := i.imm.setWidth 16
     let holds (x : Instr) (w : Stall) : Prop := exec x s = .next (s.setCore c { k with stall := some w })
     (k.tag t ≠ 0 → holds (.vget c i) (.vget i.dst t) ∧ holds (.vflg c i) (.vflg i.dst t)) ∧
     (∀ j : Nat, j < 16 → m16.getLsbD j = true → k.tag (BitVec.ofNat 4 j) ≠ 0 → holds (.wait c i) (.tags m16)) ∧
     (k.fenceDone m4 = false → holds (.fence c i) (.fence m4)) ∧
     (k.writesDone = false → holds (.seal c i) (.sealing (i.imm.setWidth 8)))) ∧
  (∀ (s : State) (c : Nat), c < 2000 → (s.core c).mode = .running → (s.core c).inside →
     let k := s.core c
     let k' : Core := { k with stall := none }
     let ends (x : Instr) (m : Core) : Prop := exec x s = .next (s.setCore c m.goesOn)
     (∀ id : BitVec 8, k.stall = some (.sealing id) →
       (k.writesDone = true → ends (.sealDrainDone c) { k' with seals := k.seals ||| (1#256 <<< id.toNat) }) ∧
       (k.writesDone = false → exec (.sealDrainDone c) s = .next s)) ∧
     (∀ m : BitVec 4, k.stall = some (.fence m) →
       (k.fenceDone m = true → ends (.fenceDrainDone c) k') ∧ (k.fenceDone m = false → exec (.fenceDrainDone c) s = .next s)) ∧
     (∀ m : BitVec 16, k.stall = some (.tags m) →
       ((∀ j : Nat, j < 16 → m.getLsbD j = true → k.tag (BitVec.ofNat 4 j) = 0) → ends (.tagWaitDone c) k') ∧
       (∀ j : Nat, j < 16 → m.getLsbD j = true → k.tag (BitVec.ofNat 4 j) ≠ 0 → exec (.tagWaitDone c) s = .next s)) ∧
     (∀ (d : BitVec 5) (t : BitVec 4), k.stall = some (.vget d t) →
       (k.tag t = 0 → ends (.tagWaitDone c) (k'.setS d (k.scalarOf t))) ∧ (k.tag t ≠ 0 → exec (.tagWaitDone c) s = .next s)) ∧
     (∀ (d : BitVec 5) (t : BitVec 4), k.stall = some (.vflg d t) →
       (k.tag t = 0 → ends (.tagWaitDone c) { k'.setS d (k.flagsOf t) with tagFlags := Tab.set (fun _ => 0) k.tagFlags t.toNat 0 }) ∧
       (k.tag t ≠ 0 → exec (.tagWaitDone c) s = .next s)))

/-- R69, R108 to R111, R113, R115: the control instructions. BELLWAIT and BELLWAITS park the core until their step period unless it has come;
REST rests it; RDCR and WRCR reach a register a lesson may reach, and record fault 0x05 for another; RNGK and RNG set the layer of the key and
draw the words of an element; CHECK records fault 0x07 with its number; RDFLT reads FAULT or FAULT_ADDR. RAISE sets the status bits it names that
a lesson may raise in the word of the running period, and no other; with OVERFLOW it folds sA[15:0] into OVF_LAYER by minimum. -/
def Obligations.ControlInstructionsHaveTheirEffect : Prop :=
  (∀ (s : State) (c : Nat) (i : Ins), Able s c i → (s.core c).inside →
     let k := s.core c
     let now := (s.seat (fieldOfCore c)).tt.stepPeriod
     let a := k.effAddr i
     (i.imm ≤ now → exec (.bellwait c i) s = .next (s.setCore c k.goesOn)) ∧
     ((k.sreg i.sa).setWidth 32 ≤ now → exec (.bellwaits c i) s = .next (s.setCore c k.goesOn)) ∧
     exec (.rest c i) s = .next (s.setCore c { k with mode := .resting }) ∧
     (∀ v, s.lessonRead c a = some v → exec (.rdcr c i) s = .next (s.setCore c (k.setS i.dst v).goesOn)) ∧
     (∀ w, k.lessonWrite c a (k.sreg i.sb) = some w → exec (.wrcr c i) s = .next (s.setCore c w.goesOn)) ∧
     (s.lessonRead c a = none → k.fault.toNat % 256 = 0 → ∃ t, exec (.rdcr c i) s = .next t ∧ (t.core c).sreg i.dst = 0 ∧
       (t.core c).fault.toNat % 256 = 5 ∧ (t.core c).faultAddr.toNat = a ∧ t.mem = s.mem) ∧
     (k.lessonWrite c a (k.sreg i.sb) = none → k.fault.toNat % 256 = 0 → ∃ t, exec (.wrcr c i) s = .next t ∧
       (t.core c).fault.toNat % 256 = 5 ∧ (t.core c).faultAddr.toNat = a ∧ t.mem = s.mem) ∧
     exec (.rngk c i) s = .next (s.setCore c ({ k with rngLayer := (k.sreg i.sa).setWidth 16 } : Core).goesOn) ∧
     (let x := philoxIn (s.rngKey c).seed.toNat (s.rngKey c).step.toNat k.rngLayer.toNat c ((k.sreg i.sa).toNat % 2 ^ 40);
       exec (.rng c i) s = .next (s.setCore c (k.setS i.dst (x.2.1 ++ x.1)).goesOn)) ∧
     (k.fault.toNat % 256 = 0 → ∃ t, exec (.check c i) s = .next t ∧ (t.core c).fault.toNat % 256 = 7 ∧
       (t.core c).faultAddr.toNat = i.imm.toNat % 65536 ∧ (t.core c).pc = k.goesOn.pc ∧ t.mem = s.mem) ∧
     exec (.rdflt c i) s = .next (s.setCore c (k.setS i.dst (if i.imm = 0 then k.fault else k.faultAddr)).goesOn)) ∧
  (∀ (s : State) (c : Nat) (i : Ins), Able s c i →
     let k := s.core c
     let now := (s.seat (fieldOfCore c)).tt.stepPeriod
     let parks (t : BitVec 32) (op : BitVec 8) : Core := { k with mode := .parked, waitFor := t, waitOp := op }
     (now < i.imm → exec (.bellwait c i) s = .next (s.setCore c (parks i.imm 0x90))) ∧
     (now < (k.sreg i.sa).setWidth 32 → exec (.bellwaits c i) s = .next (s.setCore c (parks ((k.sreg i.sa).setWidth 32) 0x91)))) ∧
  (∀ (s : State) (c : Nat) (i : Ins), Able s c i → (s.core c).inside →
     let k := s.core c
     let f := fieldOfCore c
     let m : BitVec 9 := i.imm.setWidth 9 &&& 0x139#9
     let layer : BitVec 16 := (k.sreg i.sa).setWidth 16
     ∃ t, exec (.raise c i) s = .next t ∧ (t.seat f).tt.cur = (s.seat f).tt.cur ||| m ∧
       (t.seat f).tt.curLayer = (if m.getLsbD 3 = true ∧ layer < (s.seat f).tt.curLayer then layer else (s.seat f).tt.curLayer) ∧
       t.core c = k.goesOn ∧ t.mem = s.mem ∧ t.links = s.links ∧ t.fields = s.fields ∧ t.counters = s.counters)
/-! ### Engines of a core -/

/-- R95, R121, R123, R133, R140, R145, R152, R210: the oldest waiting MMA takes the cells, unless a buddy service is to take them first; a running MMA's result replaces its accumulator and its tag completes with
its flag word, CAD_BREAK when the cadence is broken; MXZ and MXLD begin a chain anew; an MXST takes the accumulator port. Each leaves the
array queue; nothing but the core changes, and the words corrected are counted. The operation is the first of the queue and its operands read well.
Where the manual leaves a point open its clauses follow log 2 and 23. -/
def Obligations.ArrayOperationsComplete : Prop :=
  ∀ (s : State) (c : Nat) (o : ArrOp) (r : List ArrOp) (acc : BitVec 3) (a b : BitVec 512) (imm : BitVec 32) (d : List (Nat × BitVec 32)),
    c < 2000 → (s.core c).arrQ = o :: r → (s.core c).mxst = none →
    let k := s.core c
    let fl := if k.cadence = true ∧ (mmaSet imm = true ∨ (k.accreg acc.toNat).hasMma = false) ∧ k.lastWg = some (mmaWg imm) then 256 else 0
    (o.kind = .mma acc a b imm → o.started = false → (∀ v, k.svc = some v → v.started = true) →
      exec (.mmaStart c) s = .next (s.setCore c { k with arrQ := { o with started := true } :: r, cellsEnd := s.cellsTo c o.kind.occ })) ∧
    (∀ v, o.kind = .mma acc a b imm → o.started = false → k.svc = some v → v.started = false → exec (.mmaStart c) s = .next s) ∧
    (o.kind = .mma acc a b imm → o.started = true → s.tensorErr c (descOf a) = none → s.tensorErr c (descOf b) = none →
      exec (.mmaResultReady c d) s = .next ((s.noteCorrected ((descOf a).readRanges ++ (descOf b).readRanges)).setCore c (({ (k.tagDone o.tag fl none).stickMx fl with
        arrQ := r, lastWg := if mmaSet imm = true ∨ (k.accreg acc.toNat).hasMma = false then some (mmaWg imm) else k.lastWg } : Core).setAcc acc.toNat
          (((k.accreg acc.toNat).mma s.mem a b imm).disturbed d)))) ∧
    (o.kind = .mxz acc → exec (.mxzDone c) s = .next (s.setCore c { (k.tagDone o.tag 0 none).setAcc acc.toNat {} with arrQ := r })) ∧
    (o.kind = .mxld acc a → s.tensorErr c (descOf a) = none →
      exec (.mxldDone c) s = .next ((s.noteCorrected (descOf a).readRanges).setCore c
        (({ k.tagDone o.tag 0 none with arrQ := r } : Core).setAcc acc.toNat (Acc.load s.mem a)))) ∧
    (o.kind = .mxst acc a imm → ∃ x : Mxst, exec (.mxstStart c) s = .next (s.setCore c { k with arrQ := r, mxst := some x }) ∧
      x.acc = acc ∧ x.d = a ∧ x.imm = imm ∧ x.tag = o.tag ∧ x.stage = .checking)

/-- R142 to R147: the ABFT sequence. A tile that passes its check goes on to its write. A mismatch runs the chain again on the
same core if it fits; a chain that passes then ends the sequence as cured locally; one that fails asks the buddy. A chain longer than was
recorded, or one that does not fit, ends the sequence unresolved. A request that fits, with what is left of the operation on its cells, is taken
by the requester's buddy; its start holds the buddy's cells; a result that passes its check goes back, replaces the requester's tile and ends the
sequence as cured by the buddy; one that fails ends it unresolved. No command of the sequence changes memory before the write.
Where the manual leaves a point open its clauses follow log 2, 23 and 27. -/
def Obligations.AbftSequenceAndBuddyServiceRun : Prop :=
  (∀ (s : State) (c : Nat) (x : Mxst) (d : List (Nat × BitVec 32)), c < 2000 → (s.core c).mxst = some x →
    let k := s.core c
    let a := k.accreg x.acc.toNat
    let again := (Acc.replay s.mem a.chain).disturbed d
    let now (t : State) (g : MxStage) : Prop := (∃ y, (t.core c).mxst = some y ∧ y.stage = g) ∧ t.mem = s.mem
    let unresolved (t : State) : Prop := (∃ y, (t.core c).mxst = some y ∧ y.stage = .writing ∧ y.unresolved = true) ∧ t.mem = s.mem
    (x.stage = .checking → a.check = none → ∃ t, exec (.abftCheckVerdict c) s = .next t ∧ now t .writing) ∧
    (x.stage = .checking → a.check.isSome = true → a.chain.length ≤ 16 →
      ∃ t, exec (.abftCheckVerdict c) s = .next t ∧ now t .failedFirst) ∧
    (x.stage = .checking → a.check.isSome = true → 16 < a.chain.length → ∃ t, exec (.abftCheckVerdict c) s = .next t ∧ unresolved t) ∧
    (x.stage = .failedFirst → s.fits c (chainReload a.chain + chainOcc a.chain false + 72 + 16 + (mxWrite x.imm - 16)) = true →
      ∃ t, exec (.localRecomputeStart c) s = .next t ∧ now t .recomputing) ∧
    (x.stage = .failedFirst → s.fits c (chainReload a.chain + chainOcc a.chain false + 72 + 16 + (mxWrite x.imm - 16)) = false →
      ∃ t, exec (.localRecomputeStart c) s = .next t ∧ unresolved t) ∧
    (x.stage = .recomputing → s.chainErr c a.chain = none → again.check = none →
      ∃ t, exec (.localRecomputeDone c d) s = .next t ∧
        (∃ y, (t.core c).mxst = some y ∧ y.stage = .writing ∧ y.recomp = true) ∧ (t.core c).accreg x.acc.toNat = again ∧ t.mem = s.mem) ∧
    (x.stage = .recomputing → s.chainErr c a.chain = none → again.check.isSome = true →
      ∃ t, exec (.localRecomputeDone c d) s = .next t ∧ now t .failedSecond)) ∧
  (∀ (s : State) (c : Nat) (x : Mxst) (d : List (Nat × BitVec 32)), c < 2000 → (s.core (buddyOf c)).mxst = some x →
    let r := buddyOf c
    let a := (s.core r).accreg x.acc.toNat
    let again := (Acc.replay s.mem a.chain).disturbed d
    let need := s.cellsLeft c + chainOcc a.chain true + 72 + 16 + 64 + mxWrite x.imm
    (x.stage = .failedSecond → (s.core c).resetting = true ∨ s.fits c need = false →
      ∃ t, exec (.buddyServiceRequest c) s = .next t ∧ (∃ y, (t.core r).mxst = some y ∧ y.stage = .writing ∧ y.unresolved = true) ∧
        t.mem = s.mem) ∧
    (x.stage = .failedSecond → (s.core c).resetting = false → s.fits c need = true →
      ∃ t, exec (.buddyServiceRequest c) s = .next t ∧ (t.core c).svc = some { requester := r } ∧
        (t.core r).mxst = some { x with stage := .buddyAsked } ∧ t.mem = s.mem) ∧
    (∀ v, (s.core c).svc = some v → v.requester = r →
      let held : Core := { s.core c with svc := some { v with started := true }, cellsEnd := s.cellsTo c (chainOcc a.chain true) }
      exec (.buddyServiceStart c) s = .next (s.setCore c held)) ∧
    (x.stage = .buddyAsked → (s.core c).svc = some { requester := r, started := true } → s.chainErr r a.chain = none → again.check = none →
      ∃ t, exec (.buddyServiceDone c d) s = .next t ∧ (t.core c).svc = none ∧ (t.core c).svcResult = some (again.skips, again.elems) ∧
        (t.core r).mxst = some { x with stage := .buddyPassed } ∧ t.mem = s.mem) ∧
    (x.stage = .buddyAsked → (s.core c).svc = some { requester := r, started := true } → s.chainErr r a.chain = none →
      again.check.isSome = true → ∃ t, exec (.buddyServiceDone c d) s = .next t ∧
        (∃ y, (t.core r).mxst = some y ∧ y.stage = .writing ∧ y.unresolved = true ∧ y.buddyFail = true) ∧ t.mem = s.mem) ∧
    (∀ res, x.stage = .buddyPassed → (s.core c).svcResult = some res → ∃ t, exec (.buddyTileReturn r) s = .next t ∧
      (∃ y, (t.core r).mxst = some y ∧ y.stage = .writing ∧ y.buddy = true) ∧
      ((t.core r).accreg x.acc.toNat).elems = res.2 ∧ (t.core c).svcResult = none ∧ t.mem = s.mem))

/-- R135 to R138, R143, R147, R58: MXST_WRITE_DONE writes the converted tile to its descriptor, every byte outside the descriptor kept, frees the
accumulator port, and its tag completes; a write into a sealed buffer waits. A sequence that began with a mismatch ends in MX_ABFT_LAST, and an
unresolved one sets ABFT_UNRESOLVED in the period of the write. -/
def Obligations.MxstWritesItsTile : Prop :=
  ∀ (s : State) (c : Nat) (x : Mxst), c < 2000 → (s.core c).mxst = some x → x.stage = .writing →
    let k := s.core c
    let d := descOf x.d
    let outs := (List.range 4096).map ((k.accreg x.acc.toNat).outElem x.imm k.oscale x.key d)
    (s.anySeal d.ranges = true → exec (.mxstWriteDone c) s = .next s) ∧
    (s.anySeal d.ranges = false → s.rangesErr c d.ranges = none →
      ∃ t, exec (.mxstWriteDone c) s = .next t ∧ (t.core c).mxst = none ∧ (t.core c).tag x.tag = k.tag x.tag - 1 ∧
        t.mem = (s.putAll d (outs.map (·.1))).mem ∧
        (x.outcome ≠ 0 → (t.core c).abftLast = abftLastWord x x.outcome) ∧
        (x.outcome = 3 → (t.seat (fieldOfCore c)).tt.cur.getLsbD 2 = true) ∧
        (∀ y, (∀ r ∈ d.ranges, y < r.1 ∨ r.1 + r.2 ≤ y) → Memory.read t.mem y = Memory.read s.mem y))

/-- R156, R162, R165 to R167, R171, R180: the vector engine takes the next operation of its queue; when it is done its tag counts one less and it
leaves the queue. An operation on no elements delivers EMPTY alone and changes no memory. An operation that meets no error makes every byte of
the ranges it writes what its run over the memory it found makes it, with its flags put into the flag word at FLAGOFF of its home descriptor; it
changes no other byte, sets its flags in VX_FLAGS, and delivers them and its scalar, if it has one, to its tag. The run of ADD,
SUB, MUL, DIV, MIN or MAX on FP32 tensors of one shape that lie apart from its destination gives each element the operation's result on the
elements of its place. A write into a sealed buffer waits.
Where the manual leaves a point open its clauses follow log 12. -/
def Obligations.VectorEngineRuns : Prop :=
  ∀ (s : State) (c : Nat) (o : VecOp) (r : List VecOp), c < 2000 → (s.core c).vecQ = o :: r →
    let k := s.core c
    let w := o.writes c
    let run := o.run c (f32Of k.vxEps.toNat) s.mem
    (k.vecBusy = false → exec (.vectorOpStart c) s = .next (s.setCore c { k with vecBusy := true })) ∧
    (k.vecBusy = true → s.anySeal w = true → exec (.vectorOpDone c) s = .next s) ∧
    (k.vecBusy = true → s.anySeal w = false → ∃ t, exec (.vectorOpDone c) s = .next t ∧ (t.core c).vecBusy = false ∧
      (t.core c).vecQ = r ∧ (t.core c).tag o.tag = k.tag o.tag - 1 ∧
      (o.empty = true → t.mem = s.mem ∧ (t.core c).flagsOf o.tag = k.flagsOf o.tag ||| 0x4000#64) ∧
      (o.empty = false → s.vecErr c o = none →
        (t.core c).flagsOf o.tag = k.flagsOf o.tag ||| BitVec.ofNat 64 run.flags ∧
        (∀ v, run.scalar = some v → (t.core c).scalarOf o.tag = v) ∧
        (t.core c).vxFlags = k.vxFlags ||| (BitVec.ofNat 15 run.flags &&& 0x7E0F#15) ∧
        (∀ p ∈ w, ∀ y, p.1 ≤ y → y < p.1 + p.2 → Memory.read t.mem y = Memory.read (orHome c o.home run.flags run.mem) y) ∧
        (∀ y, (∀ p ∈ w, y < p.1 ∨ p.1 + p.2 ≤ y) → Memory.read t.mem y = Memory.read s.mem y))) ∧
    (∀ code ∈ [0x02, 0x03, 0x04, 0x05, 0x06, 0x07], ∀ j,
      let d := descOf o.d
      let a := descOf o.a
      let b := descOf o.b
      o.kind = .vop (BitVec.ofNat 16 code) → o.mods = 0 → vopLegal c code 0 d a b (descOf o.c) = true → d.fmt = 7 → a.fmt = 7 → b.fmt = 7 →
      d.count = a.count → b.count = a.count → d.histoff = 0 → d.flagoff = 0 →
      (∀ r ∈ d.ranges, ∀ q ∈ a.ranges ++ b.ranges, r.1 + r.2 ≤ q.1 ∨ q.1 + q.2 ≤ r.1) → j < d.count →
      d.raw run.mem j = (convFmt 7 .rne (elemFlt code 7 (a.val s.mem j) (b.val s.mem j) Fv.zero).1).1)

/-- R168, Table 05-6: the corners of division, square root and the transcendental functions that have a stated result, with their flags:
DIVZ for a finite non-zero dividend over zero, DOMAIN where operands that are no NaN give a NaN. -/
def Obligations.VectorFunctionCorners : Prop :=
  ∀ (n : Bool) (m : Nat) (e : Int), m ≠ 0 →
    let z : Fv := .fin false 0 0
    let x : Fv := .fin n m e
    divF z z = (.nan, flDomain) ∧ divF (.inf n) (.inf false) = (.nan, flDomain) ∧
    (divF x z).2 = flDivz ∧ divF .nan x = (.nan, 0) ∧
    (n = true → sqrtF x = (.nan, flDomain) ∧ logF x = (.nan, flDomain) ∧ rsqrtF x = (.nan, flDomain)) ∧
    logF z = (.inf true, flDivz) ∧ rsqrtF z = (.inf false, flDivz) ∧ recipF z = (.inf false, flDivz) ∧
    recipF (.fin true 0 0) = (.inf true, flDivz) ∧ expF (.inf true) = (z, 0) ∧ sigmoidF (.inf true) = (z, 0) ∧
    expF .nan = (.nan, 0) ∧ logF .nan = (.nan, 0) ∧ tanhF .nan = (.nan, 0) ∧ sigmoidF .nan = (.nan, 0) ∧
    logF (.inf true) = (.nan, flDomain) ∧ rsqrtF (.inf true) = (.nan, flDomain) ∧ rsqrtF (.inf false) = (z, 0)
/-! ### Bells and the timetable -/

/-- R28, R39, R41, R43, R46, R48, R75, R88, R111, R256, R349, R363: what a bell does to its seat. The count goes up by one modulo 2^64, or to
BELL − 1 on a root whose placed start carries SETCOUNT; the period opens at HM_CLK, which goes on; the counters latched are those that the closed
period left, of the partition's own fields and of none; what was accepted for this bell has been done; and no other seat's clock moves. A core that
runs or has faulted at the bell has overrun: LATE joins the closing period, which is then not sealed; with none, and with no missed seal, it
is. The roll call of a pending step sets CM_ROLL_STATUS, CM_VERDICT and CM_VERDICT_STEP from the step's accumulator, TAINT standing for an empty
one; a commit makes the step committed, flips the shard buffers, clears the count of aborts and turns the step's LIVE slots HELD; an abort keeps
the step and the buffers, discards the step's tray and counts; either frees the HELD slots of the step before where the word carries MIRROR_OK. At a
redirect every core with a lesson drops its operations and starts anew with s3 and s4: at the record of the entry that opens it runs, and
with none it rests.
Where the manual leaves a point open its clauses follow log 3 and 14. -/
def Obligations.BellAdvancesTheCount : Prop :=
  (∀ (s : State) (f : Nat) (offset : BitVec 32), f < 4 →
    ∃ t, exec (.bell f offset) s = .next t ∧ (t.seat f).tt.opened = s.hmClk ∧ t.hmClk = s.hmClk ∧ (t.seat f).atBell = [] ∧
      t.latched = (((((s.closeHistory f).closeCores f).closeRx f).closeWord f).latch f).latched ∧
      (t.seat f).tt.bell = (match (s.seat f).start with
        | some x => if x.setCount = true ∧ (s.seat f).tt.isRoot = true then x.bell - 1 else (s.seat f).tt.bell + 1
        | none => (s.seat f).tt.bell + 1) ∧
      ∀ g, s.seatIx g ≠ s.seatIx f → (t.seat g).clockOf = (s.seat g).clockOf) ∧
  (∀ (s : State) (f a : Nat), Tab.wf (fun _ => ({} : Counter)) s.counters = true → Tab.wf (fun _ => ({} : Counter)) s.latched = true →
     Tab.get (fun _ => ({} : Counter)) (s.latch f).latched a =
       if counterOwner a = 4 ∨ counterOwner a ∈ s.seatFields f then s.counter a else Tab.get (fun _ => ({} : Counter)) s.latched a) ∧
  (∀ (s : State) (f : Nat), f < 4 → s.partLive (s.partOf f) = true → (s.seat f).plan.isSome = true → (s.seat f).tt.hold = false →
     let k := s.seat f
     let runs (c : Nat) : Prop := fieldOfCore c ∈ s.seatFields f ∧ ((s.core c).mode = .running ∨ (s.core c).mode = .faulted)
     let t := s.closeCores f
     ((∃ c, runs c) → (t.seat f).tt.cur.getLsbD 1 = true ∧ (t.seat f).sealedBell = k.sealedBell) ∧
     ((∀ c, ¬ runs c) → k.sealMissed = false → (t.seat f).sealedBell = k.tt.bell + 1 ∧ (t.seat f).tt.cur = k.tt.cur)) ∧
  (∀ (s : State) (f : Nat) (p : Nat × BitVec 64), f < 4 → Tab.wf (fun _ => ({} : Slot)) (s.seat f).cm.own = true →
     Tab.wf (fun _ => ({} : Slot)) (s.seat f).cm.copy = true →
     let k := s.seat f
     let w := (Tab.find k.tt.accs p.1).getD (emptyWord k.planVer ||| 1)
     let v := judgeWord w (k.tt.abortedStep == some p.2) k.tt.sel.aborts.toNat k.tt.abortLimit.toNat
     let t := (s.rollCall f p).1.seat f
     let slots (m : Cm) (i : Nat) : List Slot := [m.ownSlot i, m.copySlot i]
     (s.rollCall f p).2 = v ∧ t.cm.roll = w ∧ t.cm.verdict = v ∧ t.cm.verdictStep = p.2 ∧ t.tt.pendingAttempt = none ∧
     (v.commit = true → t.cm.committed = p.2 ∧ t.cm.buffer = !k.cm.buffer ∧ t.tt.sel.aborts = 0 ∧ t.cm.firstStep = false ∧
       ∀ i, ∀ e ∈ (slots k.cm i).zip (slots t.cm i), e.1.holds p.2 = true → e.1.st = .live → e.2.st = .held) ∧
     (v.commit = false → t.cm.committed = k.cm.committed ∧ t.cm.buffer = k.cm.buffer ∧ t.tt.sel.aborts = nextAborts k.tt.sel.aborts ∧
       t.tt.abortedStep = some p.2 ∧ Tab.get (fun _ => none) t.cm.tray (p.2.toNat % 2) = none ∧
       ∀ i, ∀ e ∈ (slots k.cm i).zip (slots t.cm i), e.1.holds p.2 = true → e.1.st = .live → e.2.st = .live) ∧
     (wordMirror w = true → ∀ i, ∀ e ∈ (slots k.cm i).zip (slots t.cm i), e.1.holds (p.2 - 1) = true → e.1.st = .held → e.2.st = .free)) ∧
  (∀ (s : State) (f c : Nat) (entry : Option Nat) (first : Bool), fieldOfCore c ∈ s.seatFields f → (s.core c).codeLen ≠ 0 →
     let k := (s.redirect f entry first).core c
     let rec' := entry.bind (fun e => (s.core c).entries.find? (fun r => r.toNat % 131072 == e))
     k.sreg 3 = (s.seat f).cm.live ∧ k.sreg 4 = BitVec.ofNat 64 (s.seat f).tt.sel.word ∧ k.dmaQ = [] ∧ k.arrQ = [] ∧ k.vecQ = [] ∧ k.mxst = none ∧
     k.stall = none ∧ k.seals = 0 ∧ k.fault = 0 ∧
     (∀ r, rec' = some r → k.mode = .running ∧ k.pc = r.extractLsb' 17 14 ∧ k.sreg 1 = (r.extractLsb' 32 16).setWidth 64) ∧
     (rec' = none → k.mode = .resting))

/-- R21, R48, R361, R363: a whole-machine rule over every command. HM_CLK, the latched counters, every bell count and the clock at which every
period opened stand still but at a bell, at an IDENT flit that hands over the count, where a seat in HOLD follows the count of its parent's flits, at
a command that ends in a chip reset or a loss of power, when the combs come back with the power, and at the end of a wipe.
Where the manual leaves a point open its clauses follow log 3 and 26. -/
def Obligations.OnlyBellsAndResetsMoveTime : Prop :=
  ∀ (c : Instr) (s t : State), exec c s = .next t →
    match c with
    | .bell _ _ | .identReceive _ _ _ _ | .wipeLpddrDone _ | .bootWipeDone | .dumpFetch _ _ _ | .gen2Dump _ _ _ | .dumpCollectDone _ _
    | .chipResetWaitExpiry | .rstNAssert | .pwrEnRise | .pwrEnFall | .hotSwapTrip | .thermtrip | .inputOvervoltCutoff
    | .undervoltShutdown => True
    | .flitReceive l _ _ _ _ => t.hmClk = s.hmClk ∧ t.latched = s.latched ∧ ∀ f, (t.seat f).tt.opened = (s.seat f).tt.opened ∧
        ((t.seat f).tt.bell = (s.seat f).tt.bell ∨ (s.isParentLink l = true ∧ (s.seat f).tt.hold = true ∧ s.seatIx f = s.seatIx (fieldOfLink l)))
    | _ => t.hmClk = s.hmClk ∧ t.latched = s.latched ∧ ∀ f, (t.seat f).clockOf = (s.seat f).clockOf

/-- R68, R346, R349: a whole-machine rule over every command. Where a seat's walk stands (its placed start and stop, whether a Run is in progress,
its plan, the template, HOLD, the periods left and its synchronisation) is moved only by a bell, by the starts and stops, by the loss of the parent, by the plan and
Run requests, and by what takes the seat away: a context reset, a reset, a departure, a wipe, the loss of power.
Where the manual leaves a point open its clauses follow log 14 and 17. -/
def Obligations.OnlyTheTimetableMovesTheWalk : Prop :=
  ∀ (c : Instr) (s t : State), exec c s = .next t →
    match c with
    | .bell _ _ | .parentSilenceUnlock _ | .scheduledStart _ | .scheduledStop _ | .contextResetEffect _ | .planCommit _ | .unload _
    | .runStart _ _ _ _ _ | .runStop _ _ | .gen2Halt _ | .jobLeave _ | .gen2Load _ _ | .gen2Go _ | .wipeStart _ | .wipeLpddrDone _ | .dumpFetch _ _ _ | .gen2Dump _ _ _
    | .dumpCollectDone _ _ | .chipResetWaitExpiry | .rstNAssert | .pwrEnFall | .hotSwapTrip | .thermtrip
    | .inputOvervoltCutoff | .undervoltShutdown => True
    | _ => ∀ f, (t.seat f).walkOf = (s.seat f).walkOf

/-- R68, R77, R349, Table 02-1: the placed Run start takes effect at its bell and not before: the start is used up, and the walk begins at its
entry. A PERIOD entry there runs as the first template, out of HOLD; an END entry puts the seat back into HOLD. A stop placed at this bell puts
the running seat in HOLD; sixteen periods without a flit from the parent unlock the seat and put it in HOLD; neither happens earlier. The bell
count does not move. At a bell a seat with a plan takes the state of its filtered offset: within ±10 ns it is locked; a locked one within ±100 ns is
out of tolerance, with OUT_OF_TOL and TAINT; beyond that it is unlocked and holds, and its links that were up send the absent pattern; the root is
always locked.
Where the manual leaves a point open its clauses follow log 14. -/
def Obligations.StartsStopsAndSilence : Prop :=
  (∀ (s : State) (f : Nat) (x : StartAt), f < 4 → (s.seat f).start = some x → (s.seat f).plan.isSome = true →
     let b := s.block (s.seatIx f)
     (x.bell ≠ (s.seat f).tt.bell → exec (.scheduledStart f) s = .next s) ∧
     (x.bell = (s.seat f).tt.bell → x.entry < b.length → ∃ t, exec (.scheduledStart f) s = .next t ∧ (t.seat f).start = none ∧
       (t.seat f).tt.bell = (s.seat f).tt.bell ∧
       (etype (b.getD x.entry 0) = 1 → (t.seat f).running = true ∧ (t.seat f).tt.hold = false ∧ (t.seat f).tt.entry = x.entry ∧
         (t.seat f).tt.left = efield (b.getD x.entry 0) 106 75 - 1) ∧
       (etype (b.getD x.entry 0) = 7 → (t.seat f).running = false ∧ (t.seat f).tt.hold = true))) ∧
  (∀ (s : State) (f : Nat), f < 4 → (s.seat f).plan.isSome = true →
     let k := s.seat f
     let holds (t : State) : Prop := (t.seat f).tt.hold = true ∧ (t.seat f).running = false ∧ (t.seat f).tt.bell = k.tt.bell
     (∀ b, k.stop = some (.atBell b) → k.tt.hold = false → b = k.tt.bell → ∃ t, exec (.scheduledStop f) s = .next t ∧ holds t ∧ (t.seat f).stop = none) ∧
     (∀ b, k.stop = some (.atBell b) → b ≠ k.tt.bell → exec (.scheduledStop f) s = .next s) ∧
     (k.tt.isRoot = false → 16 ≤ k.tt.silent → ∃ t, exec (.parentSilenceUnlock f) s = .next t ∧ holds t ∧ (t.seat f).tt.syncState = 0) ∧
     (k.tt.isRoot = false → k.tt.silent < 16 → exec (.parentSilenceUnlock f) s = .next s)) ∧
  (∀ (s : State) (f : Nat) (offset : BitVec 32), f < 4 → (s.seat f).plan.isSome = true →
     let k := s.seat f
     let t := s.syncBell f offset
     let u := t.seat f
     let d := offset.toInt.natAbs
     let was : Prop := k.tt.syncState = 2 ∨ k.tt.syncState = 3
     (k.tt.isRoot = true → u.tt.syncState = 2 ∧ u.tt.syncOffset = 0 ∧ u.tt.hold = k.tt.hold) ∧
     (k.tt.isRoot = false → u.tt.syncOffset = offset ∧
       (k.tt.syncState ≠ 0 → d ≤ 10000 → u.tt.syncState = 2 ∧ u.tt.hold = k.tt.hold ∧ u.tt.cur = k.tt.cur) ∧
       (was → 10000 < d → d ≤ 100000 → u.tt.syncState = 3 ∧ u.tt.outOfTol = true ∧ u.tt.cur.getLsbD 0 = true ∧ u.tt.hold = k.tt.hold) ∧
       (was → 100000 < d → u.tt.syncState = 0 ∧ u.tt.outOfTol = true ∧ u.tt.hold = true ∧ u.running = false ∧
         ∀ l ∈ s.seatLinks f, (s.link l).st = .locked ∨ (s.link l).st = .ranging → (t.link l).st = .dark ∧ (t.link l).absent = true)))

/-! ### The status tree -/

/-- R39, R69, R71, R72, R74, R75, R289: the first word of a child for the period just closed joins the node's; a damaged flit, or a word still
missing at the node's sending slot, joins as the missing word, with TAINT; a reduced word from the parent waits with its N² for its bell. Each
changes the timetable's record of words alone. The reduced word of period b − 1 − Λ takes effect at bell b: it becomes TT_STATUS_LAST and folds
into the window and into the accumulator of its attempt, flags by OR, MIRROR_OK by AND, OVF_LAYER by minimum, FLAG_COUNT by maximum; a seat that lacks it
is unlocked and holds. A verdict follows Tables 01-3 and 02-11. A mid-step branch empties the window and takes the lowest continuation whose mask
meets the condition word, else T0; with IDX1 the JUMP of the lowest overflowed layer, or T0 where the table has none.
Where the manual leaves a point open its clauses follow log 14 and 26. -/
def Obligations.StatusWordsCombine : Prop :=
  (∀ (s : State) (l : Nat) (a : BitVec 64), l < 24 → (s.seat (fieldOfLink l)).plan.isSome = true →
    let g := fieldOfLink l
    let t0 := (s.seat g).tt
    let p := t0.bell - 1
    let miss := missingWord (s.seat g).planVer
    let joined (w n : BitVec 64) (t : State) : Prop := t = s.modTt g (fun x =>
      { x with combined := Tab.put x.combined p.toNat (joinWord a w), childGot := x.childGot ++ [(l, p, w, n)] })
    (wordFlags miss = 1 ∧ wordLayer miss = 0xFFFF) ∧
    ((s.treeChildren g).contains l = true → Tab.find t0.combined p.toNat = some a → t0.childGot = [] →
      ((s.link l).st = .locked → ∀ x w r, x.down = false → x.words = w :: r →
        ∃ t, exec (.statusFlitReceive l (some x)) s = .next t ∧ joined w x.norm0 t) ∧
      ((s.link l).st = .locked → ∃ t, exec (.statusFlitReceive l none) s = .next t ∧ joined miss 0 t) ∧
      (∃ t, exec (.statusChildMissing g l) s = .next t ∧ joined miss 0 t)) ∧
    ((s.treeChildren g).contains l = false → s.isParentLink l = true → (s.link l).st = .locked → t0.reduced = [] →
      ∀ x w, x.down = true → x.words = [w] → ∃ t, exec (.statusFlitReceive l (some x)) s = .next t ∧ (t.seat g).tt.heard = true ∧
        (t.seat g).tt.reduced = [{ period := p, word := w, norm := some x.norm0 }] ∧ t.mem = s.mem ∧ t.links = s.links)) ∧
  (∀ (s : State) (f : Nat), f < 4 →
     let t := (s.seat f).tt
     let q := t.bell - 1 - t.lag.setWidth 64
     let u := ((s.foldWords f).seat f).tt
     let into (a : Option (BitVec 64)) (w : BitVec 64) : BitVec 64 := match a with | some x => foldWord x w | none => w
     (∀ w n, s.effective f q = some (w, n) → u.statusLast = w ∧ u.win = some (into t.win w) ∧
       ∀ a, Tab.find t.periodOf q.toNat = some a → Tab.find u.accs a = some (into (Tab.find t.accs a) w)) ∧
     (s.effective f q = none → (Tab.find t.periodOf q.toNat).isSome = true → u.hold = true ∧ u.syncState = 0) ∧
     (s.effective f q = none → Tab.find t.periodOf q.toNat = none → s.foldWords f = s)) ∧
  (∀ a w : BitVec 64,
     let r := foldWord a w
     wordFlags r = (wordFlags a ||| wordFlags w ||| if wordVer a = wordVer w then 0 else 1) ∧ wordMirror r = (wordMirror a && wordMirror w) ∧
     wordLayer r = (if wordLayer w < wordLayer a then wordLayer w else wordLayer a) ∧
     wordCount r = (if wordCount a < wordCount w then wordCount w else wordCount a) ∧ wordVer r = wordVer a) ∧
  (∀ (w : BitVec 64) (replay : Bool) (aborts limit : Nat),
     let v := judgeWord w replay aborts limit
     let fl := wordFlags w
     let fault : Prop := fl.getLsbD 0 = true ∨ fl.getLsbD 1 = true ∨ fl.getLsbD 2 = true ∨ wordMirror w = false
     let nonfinite : Prop := fl.getLsbD 8 = true
     (¬ fault → ¬ nonfinite → v.commit = true ∧ v.abort = false ∧ v.clip = fl.getLsbD 5 ∧ v.ckpt = fl.getLsbD 6 ∧ v.subst = fl.getLsbD 7 ∧
       v.cont = if fl.getLsbD 7 then 3 else if fl.getLsbD 5 then 2 else 0) ∧
     (nonfinite → (replay = true ∨ ¬ fault) → v.commit = false ∧ v.abort = true ∧ v.nonfinite = true ∧ v.cont = 3) ∧
     (fault → ¬ (nonfinite ∧ replay = true) → v.commit = false ∧ v.abort = true ∧ v.nonfinite = false ∧
       v.cont = if aborts + 1 < limit then 1 else 3)) ∧
  (∀ (w : Walk) (f i : Nat) (blk : List Entry), f < 4 →
     let e := blk.getD i 0
     let k := w.s.seat f
     let word := (if efield e 123 123 = 1 then Tab.find k.tt.accs k.tt.attempt else k.tt.win).getD (emptyWord k.planVer)
     let v := (condWord word).toNat
     let r := w.branch f blk i
     let t := (r.1.s.seat f).tt
     let jump := efield e 104 88 + ((wordLayer word).toNat - efield e 23 8)
     let inTable : Prop := efield e 23 8 ≤ (wordLayer word).toNat ∧ jump < jumpTableEnd blk blk.length (efield e 104 88)
     let takes (n target : Nat) : Prop := r.2 = target ∧ t.sel.sel = BitVec.ofNat 2 n ∧ r.1.redirect = (w.redirect || n != 0)
     t.win = none ∧ t.sel.entry = BitVec.ofNat 17 i ∧ t.sel.verdict = false ∧
     (v &&& efield e 53 44 = 0 → v &&& efield e 43 34 = 0 → v &&& efield e 33 24 = 0 → takes 0 (efield e 121 105)) ∧
     (v &&& efield e 53 44 = 0 → v &&& efield e 43 34 = 0 → v &&& efield e 33 24 ≠ 0 → takes 3 (efield e 70 54)) ∧
     (v &&& efield e 53 44 = 0 → v &&& efield e 43 34 ≠ 0 → takes 2 (efield e 87 71)) ∧
     (v &&& efield e 53 44 ≠ 0 → efield e 122 122 = 0 → takes 1 (efield e 104 88)) ∧
     (v &&& efield e 53 44 ≠ 0 → efield e 122 122 = 1 → inTable → takes 1 jump ∧ t.sel.indexed = true ∧ t.sel.layer = wordLayer word) ∧
     (v &&& efield e 53 44 ≠ 0 → efield e 122 122 = 1 → ¬ inTable → takes 0 (efield e 121 105)))

/-! ### Slots and flits -/

/-- R56, R57, R112: at a seal deadline a run whose seal the core has set is pulled, and nothing else changes; any other run sends late
markers, and its seat records LATE and a missed seal. In HOLD nothing is asked of a run. -/
def Obligations.SealDeadlineDecidesTheRun : Prop :=
  ∀ (s : State) (l slot : Nat) (r : Run), l < 24 →
    let g := fieldOfLink l
    let k := s.link l
    (s.runs g).find? (fun r => r.link == l % 6 && !r.rx && r.kind == 0 && r.start == slot) = some r →
    k.pulled.contains slot = false → k.lateRuns.contains slot = false →
      ((s.seat g).tt.hold = true → exec (.sealDeadline l slot) s = .next s) ∧
      ((s.seat g).tt.hold = false → (s.core (500 * g + r.core)).sealed r.sealId = true →
        exec (.sealDeadline l slot) s = .next (s.setLink l { k with pulled := k.pulled ++ [slot] })) ∧
      ((s.seat g).tt.hold = false → (s.core (500 * g + r.core)).sealed r.sealId = false →
        ∃ t, exec (.sealDeadline l slot) s = .next t ∧ t.link l = { k with lateRuns := k.lateRuns ++ [slot] } ∧
          (t.seat g).tt.cur = (s.seat g).tt.cur ||| 2 ∧ (t.seat g).sealMissed = true ∧ t.mem = s.mem ∧ t.cores = s.cores)

/-- R57, R77, R281, R284, R289, R372, R389: what a slot of the transmit direction carries. While the seat is wiped every enabled link sends WIPE, a link that
announces a loss sends ABSENT, and a link that is not up sends nothing, nor does any link beyond its last slot. On a LOCKED link a slot without a run and without a waiting link
message is IDLE, a slot of a pulled core-data run carries its 256 bytes of the buffer with the period and slot in its header, and a slot
of one that was not pulled carries a late marker of zeros; so does, after a context reset, a slot of a core-data run of the interrupted template. A
status slot carries the words of the latest periods, a quiz slot its pattern. No slot changes memory but by the writes that waited for its seal.
Where the manual leaves a point open its clauses follow log 14. -/
def Obligations.TxSlotSendsItsFlit : Prop :=
  ∀ (s : State) (l slot : Nat), l < 24 →
    let g := fieldOfLink l
    let k := s.link l
    let fill := List.replicate 256 (0x5A : Byte)
    let last := (s.seat g).tt.slots.toNat
    let up := (s.seat g).wiping = false ∧ k.absent = false ∧ k.st = .locked ∧ slot < last
    let run := runOn (s.runs g) l false slot
    ∃ t, exec (.txSlot l slot) s = .next t ∧ (s.held = [] → t.mem = s.mem) ∧
      ((s.seat g).wiping = false → k.absent = false → k.st = .locked → last ≤ slot → (t.link l).sent = none ∧ t.mem = s.mem) ∧
      ((s.seat g).wiping = true → k.st ≠ .off → ∃ x, (t.link l).sent = some x ∧ x.kind = 0xF ∧ x.payload = fill) ∧
      ((s.seat g).wiping = false → k.absent = true → ∃ x, (t.link l).sent = some x ∧ x.kind = 0xE ∧ x.payload = fill) ∧
      ((s.seat g).wiping = false → k.absent = false → k.st ≠ .locked → k.st ≠ .ident → k.st ≠ .ranging → (t.link l).sent = none) ∧
      (up → run = none → s.lateRun l slot = none → k.lctl = [] → ∃ x, (t.link l).sent = some x ∧ x.kind = 0) ∧
      (∀ r, up → run = none → s.lateRun l slot = some r → ∃ x, (t.link l).sent = some x ∧ x.kind = 6 ∧ x.payload = List.replicate 256 0) ∧
      (∀ r, up → run = some r → r.kind = 2 → ∃ x, (t.link l).sent = some x ∧ x.kind = 3 ∧ x.payload = s.statusPayload l) ∧
      (∀ r, up → run = some r → r.kind = 4 → ∃ x, (t.link l).sent = some x ∧ x.kind = 4 ∧
        x.payload = quizPattern (s.seat g).cm.live (s.seat g).tt.stepPeriod slot) ∧
      (∀ r, up → run = some r → r.kind = 0 → (s.seat g).tt.hold = false → k.pulled.contains r.start = true →
        ∀ bs, s.readRange (s.seatFields g) (r.bufAddr g + 256 * (slot - r.start)) 256 = .ok bs →
          ∃ x, (t.link l).sent = some x ∧ x.kind = 1 ∧ x.payload = bs ∧ x.slot = slot ∧ x.bell = (s.seat g).tt.bell.setWidth 16) ∧
      (∀ r, up → run = some r → r.kind = 0 → (s.seat g).tt.hold = false → k.pulled.contains r.start = false →
        ∃ x, (t.link l).sent = some x ∧ x.kind = 6 ∧ x.payload = List.replicate 256 0)

/-- R53, R55, R285 to R288, R290, R292: a slot beyond the last carries nothing. A flit arrives damaged, or opens under the key of its direction and
the nonce of its period and slot; one that does not open counts as damaged. A damaged flit in a core-data slot is answered with a request to
send it again and changes no memory. An intact flit that breaks a rule of its slot is discarded, answered with its error code and changes no
memory. An intact DATA flit that breaks none and comes before its delivery bell, the first of its slot, is acknowledged and written at its place in
the receiving buffer, or in the tray of the step that ran in its period where the plan has its run for the tray, and changes no other memory;
one that comes later is discarded. A core-data slot whose flit has not come by its delivery bell is lost: it is counted and sets TAINT. At the
sender, a flit without an answer in its time is queued for the resend region, and a link message is dropped; nothing else changes as long as
every kept flit may still be resent.
Where the manual leaves a point open its clauses follow log 14 and 26. -/
def Obligations.FlitsAreTakenRefusedOrKept : Prop :=
  (∀ (s : State) (l slot : Nat) (b : BitVec 64) (r : Run), l < 24 → (s.link l).st = .locked → (s.link l).resetting = false →
     let g := fieldOfLink l
     let sched := s.runsAt g b
     let opens (x : Flit) (cipher : List Byte) : Prop :=
       (Config.gcm (s.link l).keyRx (flitNonce b slot) (flitHeader x) x.payload).take 272 = cipher
     let again (rx : Rx) : Prop :=
       ∃ t, exec (.flitReceive l b slot rx []) s = .next t ∧ (t.link l).answer = some (2, slot, b.getLsbD 0, 0) ∧ t.mem = s.mem
     ((s.seat g).tt.slots.toNat ≤ slot → ∀ x ce, exec (.flitReceive l b slot x ce) s = .next s) ∧
     (slot < (s.seat g).tt.slots.toNat → runOn sched.1 l true slot = some r → r.kind = 0 →
       (∀ tag, again (.damaged tag)) ∧
       (∀ x cipher, ¬ opens x cipher → again (.intact x cipher)) ∧
       (∀ x cipher, opens x cipher → x.resend = false →
         let h := if s.isParentLink l then (s.followCount l b).modTt g (fun t => { t with heard := true }) else s
         let code := h.flitErr l b slot x (some r) (runOn (h.runsAt g b).1 l true x.slot) b sched.2 ((h.link l).accepted b x.slot)
         let due := b + BitVec.ofNat 64 (r.deliver + 1)
         (code ≠ 0 → ∃ t, exec (.flitReceive l b slot (.intact x cipher) []) s = .next t ∧
           (t.link l).answer = some (3, slot, b.getLsbD 0, BitVec.ofNat 4 code) ∧ (t.seat g).tt.cur.getLsbD 0 = true ∧ t.mem = s.mem) ∧
         (code = 0 → x.kind = 1 → x.ackCode = 0 → (s.link l).arrivals = [] →
           ∃ t, exec (.flitReceive l b slot (.intact x cipher) []) s = .next t ∧ (t.link l).answer = some (1, slot, b.getLsbD 0, 0) ∧
             (due ≤ (h.seat g).tt.bell → t.mem = s.mem) ∧
             ((h.seat g).tt.bell < due → (h.seat g).trayRun g r = none → t.mem = (h.libWrite g (rxAddr g r slot) x.payload).mem) ∧
             (∀ y n, (h.seat g).tt.bell < due → (h.seat g).trayRun g r = some y → (h.seat g).stepAt b = some n →
               t.mem = (h.libWrite g ((h.seat g).trayBase n + y.base + 256 * (r.offset + (slot - r.start))) x.payload).mem ∧
               Tab.get (fun _ => none) (t.seat g).cm.tray (n.toNat % 2) = some n))))) ∧
  (∀ (s : State) (l : Nat) (a : Arrival), l ∈ s.seatLinks (fieldOfLink l) → (s.link l).arrivals = [a] →
     (∀ j, (s.link j).kept = []) → (∀ j, j ≠ l → (s.link j).arrivals = []) → a.deliver = (s.seat (fieldOfLink l)).tt.bell →
     let t := s.deliver (fieldOfLink l)
     let n := s.counter (flBase l + 0x38)
     (t.link l).arrivals = [] ∧
     (a.got = false → a.pool = none → (t.seat (fieldOfLink l)).tt.cur.getLsbD 0 = true) ∧
     (a.got = false → a.pool = none → n.sat = false → n.count ≠ 0xFFFFFFFF#32 → (t.counter (flBase l + 0x38)).count = n.count + 1) ∧
     (a.got = true → (t.seat (fieldOfLink l)).tt.cur = (s.seat (fieldOfLink l)).tt.cur)) ∧
  (∀ (s : State) (l slot : Nat) (b : BitVec 64), l < 24 →
     let k := s.link l
     (∀ x ∈ k.kept, k.spent (s.seat (fieldOfLink l)).tt.bell x = false) →
       exec (.ackTimeout l b slot) s = .next (s.setLink l { k with kept :=
         (k.kept.filter (fun z => !(z.sentBell == b && z.sentSlot == slot && z.flit.kind == 7))).map (fun z =>
           if z.sentBell = b ∧ z.sentSlot = slot then { z with queued := true } else z) }))

/-! ### Links -/

/-- R284, R296, R297, R438, Table 09-4: the moves of a link between its states, with the reason it shows; a link that its cartridge darkened stays
DARK, and goes back there when a pattern that it received ends. Where no pool operation is open on the
link no memory and no other link changes.
Where the manual leaves a point open its clauses follow log 14. -/
def Obligations.LinksFollowTheirStates : Prop :=
  ∀ (s : State) (l : Nat), l < 24 →
    let k := s.link l
    let goes (c : Instr) (st : LinkState) (why : BitVec 4) : Prop := ∃ t, exec c s = .next t ∧ (t.link l).st = st ∧
      (t.link l).reason = why ∧ (k.ops = [] → t.mem = s.mem ∧ ∀ j, j ≠ l → t.link j = s.link j)
    (k.st ≠ .off → k.st ≠ .failed → ¬ (k.st = .dark ∧ k.combDark = true) →
      goes (.absentReceived l) .absent 0 ∧ goes (.wipeReceived l) .wipe 0 ∧ goes (.lightLost l) .dark 1) ∧
    (k.st = .dark → k.combDark = true → exec (.absentReceived l) s = .next s ∧ exec (.wipeReceived l) s = .next s ∧
      exec (.lightLost l) s = .next s ∧ ∀ m, exec (.lightDetected l m) s = .next s) ∧
    (k.st = .absent → goes (.absentPatternEnd l true) (if k.combDark then .dark else .signal) 0 ∧ goes (.absentPatternEnd l false) .dark 0) ∧
    (k.st = .wipe → goes (.wipePatternEnd l) (if k.combDark then .dark else .ident) 0) ∧
    (k.st = .dark → k.combDark = false → k.resetting = false → ∀ m, 8 ≤ (waves m).length → goes (.lightDetected l m) .signal 0) ∧
    (∀ m, (waves m).length < 8 → exec (.lightDetected l m) s = .next s) ∧
    (k.st = .signal → ∀ p, goes (.signalTrained l true p) .aligned 0 ∧ goes (.signalTrained l false p) .failed 2) ∧
    (k.st = .aligned → goes (.fecAligned l) .ident 0) ∧
    (k.st = .locked → ∃ t, exec (.fecLockLost l) s = .next t ∧ (t.link l).st = .failed ∧ (t.link l).reason = 3) ∧
    (k.st = .locked → k.ops = [] → ∃ t, exec (.lightLost l) s = .next t ∧ (t.seat (fieldOfLink l)).tt.cur.getLsbD 0 = true)

/-- R295, R300: an IDENT flit is discarded without keys or an expected peer; a bad tag ends bring-up with reason 4, a peer other than the
one expected with reason 5; a flit that agrees begins ranging, and an echo in ranging sets FL_DELAY to half the round trip less the time
held.
Where the manual leaves a point open its clauses follow log 10 and 14. -/
def Obligations.IdentReceiveChecksItsPeer : Prop :=
  ∀ (s : State) (l : Nat) (d : Ident) (trip : BitVec 32), l < 24 →
    let k := s.link l
    let agrees (e : BitVec 32) : Prop := d.serial = k.serial ∧ d.node = k.node ∧ d.pool = k.pool ∧ d.link.toNat = k.wantLink ∧ d.jobEpoch = e
    let fails (ok : Bool) (why : BitVec 4) : Prop := ∃ t, exec (.identReceive l ok d trip) s = .next t ∧ (t.link l).st = .failed ∧
      (t.link l).reason = why
    (k.keyEpoch = none ∨ k.nodeOk = false → ∀ ok, exec (.identReceive l ok d trip) s = .next s) ∧
    (∀ e, k.st = .ident ∨ k.st = .ranging → k.keyEpoch = some e → k.nodeOk = true →
      fails false 4 ∧ (¬ agrees e → fails true 5) ∧
      (agrees e → k.st = .ident → k.retired = 0 → d.retired = 0 → k.map = laneMap 0 → d.map = laneMap 0 →
        ∃ t, exec (.identReceive l true d trip) s = .next t ∧ (t.link l).st = .ranging ∧ (t.link l).confirmed = true) ∧
      (agrees e → k.st = .ranging → d.echo = true → ∃ t, exec (.identReceive l true d trip) s = .next t ∧ (t.link l).ranged = true ∧
        (t.link l).delay = BitVec.ofNat 32 ((trip.toNat - d.holdPs.toNat) / 2)))

/-- R299, R374: the swap of a lane to the spare wavelength. The end whose Hall Monitor holds the pass asks, at least two periods ahead; the
answer is noted if it has come by the bell before; a refusal ends the swap; at its bell, a verdict bell, or any bell of a seat in HOLD or with no plan (R374), once both ends have
answered, the lane goes to wavelength 8 and the old wavelength
is retired at the end that asked; without the answer, or at a bell of another kind, the lane map stays.
Where the manual leaves a point open its clauses follow log 14. -/
def Obligations.LaneSwapsInStep : Prop :=
  ∀ (s : State) (l lane : Nat) (bell : BitVec 64), l < 24 → lane < 8 →
    let g := fieldOfLink l
    let k := s.link l
    let now := (s.seat g).tt.bell
    (k.st = .locked → s.swapPass l = true → k.swap = none → k.spareUsed = false → now + 2 ≤ bell →
      ∃ t, exec (.swapReq l false lane bell) s = .next t ∧ (t.link l).swap = some { lane := lane, bell := bell } ∧
        (t.link l).lctl = k.lctl ++ [lctlFlit 1 lane bell] ∧ (t.link l).map = k.map) ∧
    (∀ i, k.st = .locked → k.swap = none → (s.blocker g { code := 4, resource := BitVec.ofNat 32 (l % 6) }).isSome = false →
      (s.field g).hm.freePass = some i → ∃ t, exec (.swapReq l true lane bell) s = .next t ∧
        (t.link l).swap = some { lane := lane, bell := bell, fromPeer := true } ∧ (t.link l).lctl = k.lctl ++ [lctlFlit 2 lane bell]) ∧
    (∀ w, k.swap = some w → k.st = .locked → ∃ t, exec (.swapReq l true lane bell) s = .next t ∧ t.link l = { k with lctl := k.lctl ++ [lctlFlit 3 lane bell] }) ∧
    (∀ w, k.swap = some w → w.fromPeer = false → now + 1 < w.bell →
      exec (.swapAck l) s = .next (s.setLink l { k with swap := some { w with acked := true } })) ∧
    (∀ w, k.swap = some w → w.bell ≤ now + 1 → exec (.swapAck l) s = .next s) ∧
    (∀ w, k.swap = some w → w.fromPeer = false → ∃ t, exec (.swapNak l) s = .next t ∧ (t.link l).swap = none ∧ (t.link l).map = k.map) ∧
    (∀ w, k.swap = some w → w.bell = now → w.lane < 8 → k.spareUsed = false → ∃ t, exec (.laneSwapEffect l) s = .next t ∧ (t.link l).swap = none ∧
      (w.acked = false ∨ ((s.seat g).tt.judgedAt ≠ some w.bell ∧ s.idleSeat g = false) → (t.link l).map = k.map ∧ (t.link l).spareUsed = false ∧ (t.link l).retired = k.retired) ∧
      (w.acked = true → (s.seat g).tt.judgedAt = some w.bell ∨ s.idleSeat g = true → (t.link l).spareUsed = true ∧ bits (t.link l).map.toNat (4 * w.lane + 3) (4 * w.lane) = 8 ∧
        (∀ j, j < 8 → j ≠ w.lane → bits (t.link l).map.toNat (4 * j + 3) (4 * j) = bits k.map.toNat (4 * j + 3) (4 * j)) ∧
        (w.fromPeer = true → (t.link l).retired = k.retired) ∧
        (w.fromPeer = false → (t.link l).retired = k.retired ||| (1#9 <<< bits k.map.toNat (4 * w.lane + 3) (4 * w.lane)))))

/-! ### The pool, memory upkeep, the cubby -/

/-- R302, R304 to R306, R323: a response or a timeout ends the operation of its tag; a response that comes before the data it names waits for
it. An operation without an answer in its time is reissued up to
three times, what it writes staged again in the plan's staging region, and then ends the checkpoint or restore with POOL_ERROR; a SEAL that completes the last stage ends it OK and makes the
generation the one last sealed; a chunk of a restore that fails its check for the fourth time ends it INTEGRITY. A tag that is not open changes nothing.
Where the manual leaves a point open its clauses follow log 10 and 13. -/
def Obligations.PoolOperationsEnd : Prop :=
  ∀ (s : State) (l : Nat) (tag : BitVec 7), l < 24 →
    let f := fieldOfLink l
    let k := (s.seat f).ck
    let ended (c : Instr) (code : BitVec 8) : Prop := ∃ t, exec c s = .next t ∧ (t.seat f).ck.state = 0 ∧ (t.seat f).ck.outcome = code ∧
      (t.seat f).ck.reqs = [] ∧ t.mem = s.mem
    ((s.link l).op tag = none → exec (.poolTimeout l tag) s = .next s ∧ ∀ st n, exec (.poolResponse l tag st n) s = .next s) ∧
    (∀ o n, (s.link l).op tag = some o → o.whole n = false → exec (.poolResponse l tag 0 n) s =
      .next (s.setLink l ((s.link l).modOp tag (fun o => { o with answer := some n })))) ∧
    (∀ o n, (s.link l).op tag = some o → 3 ≤ o.retries → ended (.poolTimeout l tag) 2 ∧ ended (.poolResponse l tag 5 n) 2) ∧
    (∀ o j, (s.link l).op tag = some o → o.retries < 3 → s.poolLink f o.field = some j → j < 24 → ∃ t, exec (.poolTimeout l tag) s = .next t ∧
      t.mem = (match (s.seat f).regions.staging with
        | some a => (s.libWrite o.field (a + chunkSize * blockIx (s.seatFields f) o.field) o.bytes).mem
        | none => s.mem) ∧ ∃ x ∈ (t.link j).ops, x.op = o.op ∧ x.addr = o.addr ∧ x.len = o.len ∧ x.retries = o.retries + 1 ∧ x.sent = false) ∧
    (∀ o n, (s.link l).op tag = some o → o.op = 3 → k.state = 5 → ended (.poolResponse l tag 0 n) 0 ∧
      ∃ t, exec (.poolResponse l tag 0 n) s = .next t ∧ (t.seat f).ck.sealedStep = some (k.gen, k.step)) ∧
    (∀ o n j, (s.link l).op tag = some o → o.op = 2 → o.chunk = some j → o.whole n = true → 3 ≤ o.retries →
      Config.sha256 (o.data' o.len) ≠ Tab.get (fun _ => 0) k.leaves j → ended (.poolResponse l tag 0 n) 7)

/-- R214, R227 to R231: memory upkeep never changes what memory holds. A key rotation at its bell moves every field of the seat to the next
epoch, keeps the old one live and starts the sweep at the field's first block; the sweep goes block by block to the end of the field; the
old keys go once it has ended and no read is in flight; a page copied waits for the verdict bell. -/
def Obligations.MemoryUpkeepKeepsData : Prop :=
  ∀ (s : State) (f : Nat), f < 4 →
    let m := (s.field f).mc
    (∀ b rate, (s.seat f).rotateAt = some (b, rate) → (s.seat f).tt.bell < b → exec (.keyRotationEffect f) s = .next s) ∧
    (∀ b rate, (s.seat f).rotateAt = some (b, rate) → b ≤ (s.seat f).tt.bell → m.oldLive = false →
      ∃ t, exec (.keyRotationEffect f) s = .next t ∧ t.mem = s.mem ∧ (t.seat f).rotateAt = none ∧ t.px.gens = s.px.gens + 1 ∧
        ∀ g ∈ s.seatFields f, (t.field g).mc.epoch = (s.field g).mc.epoch + 1 ∧ (t.field g).mc.old = (s.field g).mc.epoch ∧
          (t.field g).mc.oldLive = true ∧ (t.field g).mc.sweeping = true ∧ (t.field g).mc.next = g * lpField ∧ (t.field g).mc.rate = rate) ∧
    (m.sweeping = false → exec (.sweepBlock f) s = .next s) ∧
    (m.sweeping = true → ∃ t, exec (.sweepBlock f) s = .next t ∧ t.mem = s.mem ∧ (t.field f).mc.next = m.next + 512 ∧
      (t.field f).mc.sweeping = decide (m.next + 512 < (f + 1) * lpField) ∧
      (s.readErr [f] m.next = none → (t.field f).mc.epoch = m.epoch ∧ (t.field f).mc.errKind = m.errKind)) ∧
    (m.sweeping = false → m.oldLive = true → m.inflight = 0 → ∃ t, exec (.oldEpochErase f) s = .next t ∧ t.mem = s.mem ∧
      (t.field f).mc = { m with oldLive := false, oldGen := none }) ∧
    (m.sweeping = true ∨ m.inflight ≠ 0 → exec (.oldEpochErase f) s = .next s) ∧
    (∀ p, m.copying.contains p = true → ∃ t, exec (.pageCopyComplete f p) s = .next t ∧ t.mem = s.mem ∧
      (t.field f).mc.pending = m.pending ++ [p] ∧ (t.field f).mc.copying = m.copying.filter (fun q => q != p)) ∧
    (∀ ws ms, ∃ t, exec (.patrolScrubPass f ws ms) s = .next t ∧ t.mem = s.mem ∧ (t.field f).mc.epoch = m.epoch ∧ (t.field f).mc.sweeping = m.sweeping)

/-- R235, R237 to R239, R244: the Librarian samples a cubby control block. Forward, a SPILL above HEAD comes back to it; with no more than WATER
unspilled nothing moves; with more, the oldest whole record goes from its ring position to its offset in the segment, and SPILL follows only once
it has been written. One that turns backward is remembered, LOW and RELEASE becoming the lowest record boundary at or above HEAD − R; after that the next
older record comes back to its ring position where the buffer has the room, and LOW follows; a record for which RELEASE − q would exceed R stays. While a redirect waits
for READY nothing moves. Once the moves have
ended, the control block of every core of the field is made ready: at a FIRST redirect its stream pointers are zero and LIMIT is what the segment can hold; READY is set,
and the redirect is over.
Where the manual leaves a point open its clauses follow log 16. -/
def Obligations.CubbyServesItsBlocks : Prop :=
  ∀ (s : State) (c : Nat) (g : CubbySeg) (k : Ccb), c < 2000 →
    let f := fieldOfCore c
    let b := (s.field f).lb
    let seg := b.region.toNat + 65536 * g.offset.toNat
    let ready (v : State) (x : CubbySeg) : State :=
      let a := slateBase (500 * f + x.core) + (v.field f).lb.ccb.toNat
      let v' := if b.redirectFirst = true then
          (v.libWrite f a (List.replicate 32 0)).libWrite f (a + 0x20)
            (leBytes 8 (65536 * segUsable (v.field f).lb.region.toNat (v.field f).mc.borrowed x))
        else v
      match v'.libRead f (a + 0x34) 1 with
      | (w, some bs) => w.libWrite f (a + 0x34) (leBytes 1 (if b.redirectFirst = true then 1 else ofLe bs / 2 * 2 + 1))
      | (w, none) => w
    ∀ u, b.segs.find? (fun x => x.core == c % 500) = some g → b.enable = true → s.readCcb f (c % 500) = (u, some k) → k.failed = false →
      (b.redirect = true → exec (.cubbySample c) s = .next u) ∧
      (b.redirect = false → k.size ≠ 0 → k.turn = false → k.head < k.spill →
        ∃ t, exec (.cubbySample c) s = .next t ∧ t.mem = (u.setCcb f k 8 k.head).mem) ∧
      (b.redirect = false → k.size ≠ 0 → k.turn = false → k.spill ≤ k.head → k.head - k.spill ≤ k.water →
        ∃ t, exec (.cubbySample c) s = .next t ∧ t.mem = s.mem) ∧
      (∀ w q rest, b.redirect = false → k.size ≠ 0 → k.turn = false → k.spill ≤ k.head → k.water < k.head - k.spill →
        (u.modLb f (fun b => { b with turned := b.turned.filter (fun j => j != c % 500) })).boundaries f k k.spill (k.head / 64 + 1) k.head [] =
          (w, k.spill :: q :: rest) → (q :: rest).contains k.spill = false →
        let dst := seg + k.spill
        let n := q - k.spill
        (w.meetsSeal dst n = true → ∃ t, exec (.cubbySample c) s = .next t ∧ t.mem = (w.setCcb f k 8 k.spill).mem) ∧
        ∀ x bs, w.meetsSeal dst n = false → w.libRead f (k.ring + k.spill % k.size) n = (x, some bs) →
          (x.libOk f dst bs = true → k.head - q ≤ k.water → ∃ t, exec (.cubbySample c) s = .next t ∧
            t.mem = ((x.libWrite f dst bs).setCcb f k 8 q).mem) ∧
          (x.libOk f dst bs = false → ∃ t, exec (.cubbySample c) s = .next t ∧ t.mem = ((x.libWrite f dst bs).setCcb f k 8 k.spill).mem)) ∧
      (b.redirect = false → k.size ≠ 0 → k.turn = true → b.turned.contains (c % 500) = false →
        let (w, bs) := u.boundaries f k (k.head - k.size) (k.head / 64 + 1) k.head []
        let q := bs.headD k.head
        ∃ t, exec (.cubbySample c) s = .next t ∧ (t.field f).lb.turned.contains (c % 500) = true ∧
          t.mem = ((w.setCcb f k 16 q).setCcb f k 24 q).mem) ∧
      (b.redirect = false → k.size ≠ 0 → k.turn = true → b.turned.contains (c % 500) = true →
        (k.low < 64 → exec (.cubbySample c) s = .next u) ∧
        ∀ w bs m, 64 ≤ k.low → u.libRead f (seg + k.low - 64) 4 = (w, some bs) → recLen k.low (ofLe bs) = some m →
          let q := k.low - m
          (k.size < k.release - q → exec (.cubbySample c) s = .next w) ∧
          ∀ x xs, k.release - q ≤ k.size → w.meetsSeal (k.ring + q % k.size) m = false → w.libRead f (seg + q) m = (x, some xs) →
            x.libOk f (k.ring + q % k.size) xs = true →
              let r := (x.libWrite f (k.ring + q % k.size) xs).prefetch f seg k (k.low / 64) q
              ∃ t, exec (.cubbySample c) s = .next t ∧ t.mem = (r.1.setCcb f k 16 r.2).mem) ∧
      (b.redirect = false → exec (.cubbyReady f) s = .next s) ∧
      (b.redirect = true → ∃ t, exec (.cubbyReady f) s = .next t ∧ (t.field f).lb.redirect = false ∧
        (b.redirectFirst = true → (t.field f).lb.turned = []) ∧ t.mem = (b.segs.foldl ready s).mem)

/-! ### The mirror and its cross-check -/

/-- R258, R259, R270, Table 08-4: the vote on one unit. The owner's CRC is kept; a run that agrees with it is written to the mirror as MATCH; two
first run that does not is run again, and a second run that agrees is written as MATCH_2; two
runs that do not ask the owner to recompute; with its owner lost a unit is decided by the holder's runs alone; one whose bytes cannot be read is UNRESOLVED. The owner's answer then decides: its first CRC again copies its bytes (MIRROR_FIX), those that bulk
flits brought where they brought the whole unit, which are asked
for once more where they do not match it, the holder's second CRC writes the holder's bytes and pushes the unit back (OWNER_FIX), and anything else, or no answer, leaves it
UNRESOLVED with the mirror untouched.
Where the manual leaves a point open its clauses follow log 4 and 14. -/
def Obligations.CrossCheckVotes : Prop :=
  ∀ (s : State) (f core record : Nat) (u : ShardUnit) (step : BitVec 64), f < 4 →
    let k := s.seat f
    let m := k.cm
    let g := s.holderField f u
    let r := m.res u
    let a := k.regions.mirror + u.offset
    let good (p : List Byte × List Byte) := applyUnit u p.1 p.2 m.applyC (applyKey u step (seedOf (m.copySlot (step.toNat % 3)) step))
    let decided (t : State) (n : BitVec 3) : Prop := ((t.seat f).cm.res u).outcome = n
    k.mirrorUnit core record = some u → m.applyStep = some step →
      (r.outcome = 0 → ∀ v, exec (.ownerCrcReceive f core record v) s = .next (s.setRes f u { r with ownerCrc := some v })) ∧
      ((s.field g).lb.mState = 3 → m.applyClip = false → r.outcome = 0 → r.asked = false → r.ownerCrc = none → m.serving = false →
        exec (.unitApplyDone f core record []) s = .next s) ∧
      (∀ p co w, (s.field g).lb.mState = 3 → m.applyClip = false → r.outcome = 0 → r.asked = false → r.ownerCrc = some co →
        s.applyInput f u step = (w, some p) →
          (crc32c (good p) = co → ∃ t, exec (.unitApplyDone f core record []) s = .next t ∧ decided t 1 ∧ t.mem = (w.libWrite g a (good p)).mem) ∧
          (crc32c (good p) = co → crc32c (freeBytes w.free (good p).length) ≠ co →
            ∃ t, exec (.unitApplyDone f core record [true]) s = .next t ∧ decided t 2 ∧ t.mem = (w.libWrite g a (good p)).mem) ∧
          (crc32c (good p) ≠ co → ∃ t, exec (.unitApplyDone f core record []) s = .next t ∧ ((t.seat f).cm.res u).asked = true ∧
            (t.seat f).cm.outbox = .ask u.core u.record p.2 :: m.outbox ∧ t.mem = s.mem)) ∧
      (∀ p w, (s.field g).lb.mState = 3 → m.applyClip = false → r.outcome = 0 → r.asked = false → r.ownerCrc = none → m.serving = true →
        s.applyInput f u step = (w, some p) →
          ∃ t, exec (.unitApplyDone f core record []) s = .next t ∧ decided t 5 ∧ t.mem = (w.libWrite g a (good p)).mem) ∧
      (∀ w, (s.field g).lb.mState = 3 → m.applyClip = false → r.outcome = 0 → r.asked = false → r.ownerCrc ≠ none → s.applyInput f u step = (w, none) →
        ∃ t, exec (.unitApplyDone f core record []) s = .next t ∧ decided t 6 ∧ t.mem = s.mem) ∧
      (r.asked = true →
        let came (bs : List Byte) : List Byte := (m.landed 0 u.offset (unitLen u)).getD bs
        (∀ bs, ∃ t, exec (.recomputeReply f core record none bs) s = .next t ∧ decided t 6 ∧ t.mem = s.mem) ∧
        (∀ v bs, r.ownerCrc = some v → crc32c (came bs) = v → (came bs).length = unitLen u →
          ∃ t, exec (.recomputeReply f core record (some v) bs) s = .next t ∧ decided t 3 ∧ t.mem = (s.libWrite g a (came bs)).mem) ∧
        (∀ v bs, r.ownerCrc = some v → crc32c (came bs) ≠ v ∨ (came bs).length ≠ unitLen u →
          ∃ t, exec (.recomputeReply f core record (some v) bs) s = .next t ∧ t.mem = s.mem ∧ (r.again = true → decided t 6) ∧
            (r.again = false → ((t.seat f).cm.res u).again = true ∧ (t.seat f).cm.outbox = .ack core record true false :: m.outbox)) ∧
        (∀ v bs, r.ownerCrc ≠ some v → v = crc32c r.second →
          ∃ t, exec (.recomputeReply f core record (some v) bs) s = .next t ∧ decided t 4 ∧ ((t.seat f).cm.res u).unacked = true ∧
            t.mem = (s.libWrite g a r.second).mem) ∧
        (∀ v bs, r.ownerCrc ≠ some v → v ≠ crc32c r.second →
          ∃ t, exec (.recomputeReply f core record (some v) bs) s = .next t ∧ decided t 6 ∧ t.mem = s.mem))

/-- R259, R260, R264, R443: asked to recompute a unit, the owner answers with the CRC of its own run, from its other shard buffer and the tray sent with
the request, and sends its committed unit after it if and only if the committed buffer reads back and its unit's CRC is that of the run; after the apply deadline, with a tray of
another length, or where its other buffer cannot be read, it answers that it cannot and sends nothing; either way no memory changes. A unit of a transfer is what bulk flits have brought, where they brought all of it, and leaves the landing
buffer; it is written only if its CRC
agrees and its length is right; the first failure asks for it again and a second ends the transfer; no failure changes memory.
Where the manual leaves a point open its clauses follow log 14. -/
def Obligations.OwnerRecomputesAndTransfersCheck : Prop :=
  (∀ (s : State) (f core record : Nat) (u : ShardUnit) (tray : List Byte), f < 4 → (s.seat f).unit core record = some u →
     (s.seat f).cm.partnerOk = true → s.seatFields (core / 500) = s.seatFields f →
     let k := s.seat f
     let replies (t : State) (v : Option (BitVec 32)) (l : List XMsg) : Prop :=
       (t.seat f).cm.outbox = l ++ .reply core record v :: k.cm.outbox ∧ t.mem = s.mem
     (k.beforeDeadline = false ∨ tray.length ≠ trayUnitLen u →
       ∃ t, exec (.recomputeRequest f core record tray) s = .next t ∧ replies t none []) ∧
     (∀ w, k.beforeDeadline = true → tray.length = trayUnitLen u →
       s.libRead (core / 500) (k.workingBase + u.offset) (unitLen u) = (w, none) →
         ∃ t, exec (.recomputeRequest f core record tray) s = .next t ∧ replies t none []) ∧
     (∀ old w, k.beforeDeadline = true → tray.length = trayUnitLen u →
       s.libRead (core / 500) (k.workingBase + u.offset) (unitLen u) = (w, some old) →
         let v := crc32c (applyUnit u old tray k.cm.applyC
           (applyKey u k.cm.committed (seedOf (k.cm.ownSlot (k.cm.committed.toNat % 3)) k.cm.committed)))
         let same : Prop := ∃ bs, (s.libRead (core / 500) (k.committedBase + u.offset) (unitLen u)).2 = some bs ∧ crc32c bs = v
         ∃ t, exec (.recomputeRequest f core record tray) s = .next t ∧
           (same → replies t (some v) [.unit u.core u.record v]) ∧ (¬ same → replies t (some v) []))) ∧
  (∀ (s : State) (f core record : Nat) (u : ShardUnit) (x : Xfer) (bs : List Byte) (v : BitVec 32), f < 4 →
     let k := s.seat f
     let came := (k.cm.landed 0 u.offset (unitLen u)).getD bs
     k.cm.seatState ≠ 2 → k.mirrorUnit core record = some u → k.xfer = some x → x.kind = .fill → x.due.contains (core, record) = true →
       (crc32c came = v → came.length = unitLen u → ∃ t, exec (.unitTransferReceive f core record bs v) s = .next t ∧
         t.mem = (s.libWrite (s.holderField f u) (k.regions.mirror + u.offset) came).mem ∧
         t.held = (s.libWrite (s.holderField f u) (k.regions.mirror + u.offset) came).held ∧
         (t.seat f).cm.landing = (k.cm.unland 0 u.offset (unitLen u)).landing ∧ (t.seat f).cm.outbox = .ack core record true true :: k.cm.outbox) ∧
       (crc32c came ≠ v ∨ came.length ≠ unitLen u →
         ∃ t, exec (.unitTransferReceive f core record bs v) s = .next t ∧
         t.mem = s.mem ∧ (t.seat f).cm.outbox = .ack core record true false :: k.cm.outbox ∧
         (t.seat f).cm.landing = (k.cm.unland 0 u.offset (unitLen u)).landing ∧
         (x.failed.contains (core, record) = false →
           (t.seat f).cm.xfers = k.cm.xfers.flatMap (fun y => if y = x then [{ x with failed := x.failed ++ [(core, record)] }] else [y])) ∧
         (x.failed.contains (core, record) = true → (t.seat f).cm.xfers = k.cm.xfers.filter (fun y => y != x))))

/-- R261, R262, R264, R266, R272, R277: an apply ends when every unit is decided: every field's mirror stands at its step, verified unless one of the
units it applied is unresolved or was decided by the holder alone, and the summary goes to the owner; the owner keeps the summary of its committed step, and
notes for any step how far its partner's mirror has come. An
acknowledged unit waits no more; one whose CRC failed is sent once more, and a second failure ends a service. A substitute whose pulls have ended is SEATED, and the partner that served them ends its service.
Where the manual leaves a point open its clauses follow log 14. -/
def Obligations.AppliesAndPullsEnd : Prop :=
  ∀ (s : State) (f : Nat), f < 4 →
    let k := s.seat f
    let has (g : Nat) (o : BitVec 3) : Bool := (k.unitsWith o).any (fun u => s.holderField f u == g)
    (∀ step, k.cm.applyStep = some step → k.cm.handReq = none → (∀ u ∈ k.mirrorUnits, (k.cm.res u).outcome ≠ 0) →
      (∀ g ∈ s.seatFields f, 2 ≤ (s.field g).lb.mState.toNat) → ∃ t, exec (.applyComplete f) s = .next t ∧ t.mem = s.mem ∧
        (t.seat f).cm.applyStep = none ∧
        (t.seat f).cm.outbox = .summary { step := step, unresolved := !(k.unitsWith 6).isEmpty,
                                          ownerFix := (k.unitsWith 4).map (fun u => (u.core, u.record)) } :: k.cm.outbox ∧
        ∀ g ∈ s.seatFields f, (t.field g).lb.mirrorFor = step ∧ (t.field g).lb.verified = (!has g 6 && !has g 5) ∧
          (t.field g).lb.selfChecked = has g 5) ∧
    (k.cm.partnerOk = true → k.ck.state = 0 → k.ck.waitLand = false → ∀ sm,
      (sm.step = k.cm.committed → exec (.summaryReceive f sm) s = .next (s.modCm f (fun m =>
        { m with partnerFor := sm.step, summary := some sm, ownFixDue := sm.ownerFix.filter (fun p => !m.fixLanded.contains p) }))) ∧
      (sm.step ≠ k.cm.committed → exec (.summaryReceive f sm) s = .next (s.modCm f (fun m => { m with partnerFor := sm.step })))) ∧
    (k.cm.partnerOk = false → ∀ sm, exec (.summaryReceive f sm) s = .next s) ∧
    (∀ core record own,
      let e := (own, core, record)
      let rest := k.cm.resent.filter (fun x => x != e)
      (∀ u, own = false → k.mirrorUnit core record = some u → exec (.unitTransferAck f core ⟨record, own, true⟩) s =
        .next ((s.modCm f (fun m => { m with resent := rest })).setRes f u { k.cm.res u with unacked := false })) ∧
      (own = true → exec (.unitTransferAck f core ⟨record, own, true⟩) s = .next (s.modCm f (fun m => { m with resent := rest }))) ∧
      ∃ t, exec (.unitTransferAck f core ⟨record, own, false⟩) s = .next t ∧ t.mem = s.mem ∧
        (k.cm.resent.contains e = false → (t.seat f).cm.resent = k.cm.resent ++ [e]) ∧
        (k.cm.resent.contains e = true → (t.seat f).cm.resent = rest ∧ (t.seat f).cm.serving = false)) ∧
    (k.cm.seatState = 3 → k.cm.xfers = [] → exec (.handoverPullsDone f) s = .next (s.modCm f (fun m => { m with seatState := 4 }))) ∧
    (k.cm.seatState ≠ 3 → k.cm.serving = true → ∃ t, exec (.handoverPullsDone f) s = .next t ∧ (t.seat f).cm.serving = false ∧
      (t.seat f).cm.handReq = none ∧ t.mem = s.mem ∧ ∀ g ∈ s.seatFields f, (t.field g).lb.mState ≠ 5)

/-! ### Slate: requests, sessions, partitions -/

/-- R332, R333, R337, R342, R345, R351, R423: what every generation 3 request meets before its command acts, whichever command it is. Before the
firmware runs it is dropped; a frame of another VLAN is counted in PR_RX_DROP_COUNT; a request of a known command under no session, or under a generation 2 one, is counted in
PR_AUTH_FAIL_COUNT and changes nothing else (SessionsAndPartitions says it of the others);
during a wipe of its target only STATUS is served; an old number is STALE with the highest accepted; a copy of a request is answered
IN_PROGRESS, with the response kept, or DUP_EXPIRED with its status, and is not executed again; a request outside its rights is DENIED, and
only the violation log changes.
Where the manual leaves a point open its clauses follow log 15. -/
def Obligations.SlateAdmitsRequests : Prop :=
  ∀ (c : Instr) (r : Req) (cls cmd : Nat) (x : Rights) (s : State), slateOf c = some (r, cls, cmd, x) →
    let uncounted : Prop := exec c s = .next (s.bump (prBase (reqField r) + 0x38))
    (s.px.stage ≠ 6 → exec c s = .next s) ∧
    (s.px.stage = 6 → s.tagOk r.vlan = false → exec c s = .next (s.bump (prBase (reqField r) + 0x40))) ∧
    let known : Prop := ∀ b, c ≠ .unknownCommand r b
    (known → s.px.stage = 6 → s.tagOk r.vlan = true → s.session r.sess = none → uncounted) ∧
    ∀ i k, s.px.stage = 6 → s.tagOk r.vlan = true → s.session r.sess = some (i, k) →
      (known → k.gen2 = true → uncounted) ∧
      (k.gen2 = false → s.wipingTarget r.part = true → ¬ (cls = 1 ∧ cmd = 5) → exec c s = .next s) ∧
      (k.gen2 = false → s.wipingTarget r.part = false ∨ (cls = 1 ∧ cmd = 5) →
        let new : Prop := r.seq ≠ 0 ∧ k.h.toNat < r.seq.toNat + 4096
        (¬ new → Replies c s r stStale k.h .empty) ∧
        (new → k.seen.contains r.seq = true →
          (k.busy.contains r.seq = true → Replies c s r stInProgress 0 .empty) ∧
          (∀ y, k.busy.contains r.seq = false → k.kept.find? (fun z => z.seq == r.seq) = some y →
            exec c s = .next (s.sendTo k { y with replay := true, vlan := r.vlan, dst := r.src })) ∧
          (∀ e, k.busy.contains r.seq = false → k.kept.find? (fun z => z.seq == r.seq) = none → k.done.find? (fun z => z.1 == r.seq) = some e →
            Replies c s r stDupExpired (e.2.setWidth 64) .empty)) ∧
        (new → k.seen.contains r.seq = false → s.allowed k r.part x = false ∨ (s.store.sealed = true ∧ sealedServes cls cmd = false) →
          Does c s r stDenied (opDetail cls cmd) .empty (fun t => UnitsKept s t ∧ ∀ f, t.seat f = { s.seat f with vlog := (t.seat f).vlog })))

/-- R13, R25, R332, R338, R340, R341, R346, R351, R413: HELLO opens a handshake under an id that is not in use and is answered with the module's report; a bad role
or option or a reserved byte that is not zero, with its offset, or a fifth handshake, is refused under session 0. FINISH opens the session in a free slot with its role and partition, or answers
AUTH_FAILED or ROLE_TAKEN with the holder's slot, a tenant's in service mode among them, and opens none; one that is not request 1 is BAD_FRAME and ends the handshake. CLOSE and the idle timer end a session and its reads; a handshake that has
timed out is gone; STATUS reports the seat, and WIPING during a wipe; an unknown command and a frame of a wrong form are refused, BAD_FRAME or BAD_COMMAND: under session 0 where it
is a HELLO, under the keys of the handshake that it ends where it is a FINISH; any other without a session fails its tag.
LAYOUT is refused for a layout that no partition fits and while a changed partition holds a plan, and BUSY where a wipe that waits or runs meets its fields; one that
changes nothing is answered at once; any other waits for the wipe of the fields it changes and leaves the layout and memory as they are. GRANT
replaces the grant of its partition alone. REVOKE takes it away and ends the partition's tenant sessions.
Where the manual leaves a point open its clauses follow log 10 and 15. -/
def Obligations.SessionsAndPartitions : Prop :=
  ∀ (s : State),
    let gone (t : State) (id : BitVec 32) : Prop := UnitsKept s t ∧ ∀ f, f < 4 → ∀ x ∈ (t.seat f).reads, x.sess ≠ id
    (∀ (r : Req) (role options : BitVec 8) (rsv : BitVec 48) (nonce share : BitVec 256) (kem : List Byte),
      s.px.stage = 6 → s.wipingTarget r.part = false → s.px.certsOk = true →
      let c : Instr := .sessionHello r ⟨role, options, rsv⟩ nonce share kem
      let fails (st : BitVec 16) (d : BitVec 64) : Prop := ∃ t y, exec c s = .next t ∧ t.host.sent = .slate y :: s.host.sent ∧
        y.sess = 0 ∧ y.status = st ∧ y.detail = d ∧ t.host.pending = s.host.pending ∧ UnitsKept s t ∧ SeatsKept s t
      let roleOk : Prop := role = 1 ∨ role = 2
      let good : Prop := roleOk ∧ options.toNat < 4 ∧ rsv = 0
      (s.tagOk r.vlan = false → exec c s = .next (s.bump (prBase (reqField r) + 0x40))) ∧
      (s.tagOk r.vlan = true →
        (¬ roleOk → fails stBadField 0x20) ∧
        (roleOk → 4 ≤ options.toNat → fails stBadField 0x21) ∧
        (roleOk → options.toNat < 4 → rsv ≠ 0 → fails stBadField 0x22) ∧
        (good → 4 ≤ s.host.pending.length → fails stSessionLimit 0) ∧
        (good → s.host.pending.length < 4 → ∃ t id h sig, exec c s = .next t ∧ s.idTaken id = false ∧
          t.host.pending = s.host.pending ++ [h] ∧ h.id = id ∧ h.owner = (role == 1) ∧ h.part = r.part ∧ h.small = options.getLsbD 1 ∧
          t.host.sent = .attest id (s.reportBytes nonce s.freshBits r.part) sig (options.getLsbD 0) :: s.host.sent ∧
          UnitsKept s t ∧ SeatsKept s t))) ∧
    (∀ (r : Req) (cred : Cred) (h : Handshake), s.px.stage = 6 → s.tagOk r.vlan = true → s.session r.sess = none →
      s.host.pending.find? (fun x => x.id == r.sess) = some h → s.wipingTarget h.part = false → r.seq = 1 →
      let c : Instr := .sessionFinish r cred
      let fails (st : BitVec 16) (d : BitVec 64) : Prop := Does c s r st d .empty (fun t =>
        t.host.sessions = s.host.sessions ∧ t.host.pending = s.host.pending.filter (fun x => x.id != h.id) ∧ UnitsKept s t ∧ SeatsKept s t)
      let free : Prop := (h.owner = true → s.ownerSlot = none) ∧ (h.part = 7 ∨ s.boundSlot h.part = none) ∧
        (h.owner = false → s.px.service = false)
      (h.owner = true ∨ s.px.service = false → s.credOk h cred = false → fails stAuthFailed 0) ∧
      (∀ j, s.credOk h cred = true → h.owner = true → s.ownerSlot = some j → fails stRoleTaken (BitVec.ofNat 64 j)) ∧
      (∀ j, s.credOk h cred = true → (h.owner = true → s.ownerSlot = none) → (h.owner = false → s.px.service = false) → h.part ≠ 7 →
        s.boundSlot h.part = some j → fails stRoleTaken (BitVec.ofNat 64 j)) ∧
      (∀ j, h.owner = false → s.px.service = true → s.ownerSlot = some j → fails stRoleTaken (BitVec.ofNat 64 j)) ∧
      (s.credOk h cred = true → free → s.freeSlot = none → fails stSessionLimit 0) ∧
      (∀ j, s.credOk h cred = true → free → s.freeSlot = some j → Does c s r stOk 0 .empty (fun t => UnitsKept s t ∧ SeatsKept s t ∧
        ∃ k, t.slot j = some k ∧ k.id = h.id ∧ k.owner = h.owner ∧ k.part = h.part ∧ k.bound = (h.part != 7) ∧ k.gen2 = false ∧ k.h = 1 ∧
          ∀ n, n ≠ j → t.slot n = s.slot n))) ∧
    (∀ (r : Req) (cred : Cred) (h : Handshake), s.px.stage = 6 → s.tagOk r.vlan = true → s.session r.sess = none →
      s.host.pending.find? (fun x => x.id == r.sess) = some h → s.wipingTarget h.part = false → r.seq ≠ 1 →
      Does (.sessionFinish r cred) s r stBadFrame 0 .empty (fun t => t.host.sessions = s.host.sessions ∧
        t.host.pending = s.host.pending.filter (fun x => x.id != h.id) ∧ UnitsKept s t ∧ SeatsKept s t)) ∧
    (∀ r i k, Admitted s r i k 1 4 .any → ∃ t y, exec (.sessionClose r) s = .next t ∧ t.slot i = none ∧ gone t r.sess ∧
      t.host.sent = .slate y :: s.host.sent ∧ y.seq = r.seq ∧ y.status = stOk) ∧
    (∀ id i k, s.session id = some (i, k) → ∃ t, exec (.sessionIdleTimeout id) s = .next t ∧ t.slot i = none ∧ gone t id ∧
      ∀ j, j ≠ i → t.slot j = s.slot j) ∧
    (∀ id, ∃ t, exec (.handshakeTimeout id) s = .next t ∧ (∀ h ∈ t.host.pending, h.id ≠ id ∧ h ∈ s.host.pending) ∧ UnitsKept s t ∧ SeatsKept s t) ∧
    (∀ r i k, Heard s r i k 1 5 .any →
      (s.wipingTarget r.part = true → Replies (.sessionStatus r) s r stWiping (s.px.wPercent.setWidth 64) .empty) ∧
      (s.wipingTarget r.part = false → Replies (.sessionStatus r) s r stOk 0 (.words ((s.admitted r k).statusWords r.part)))) ∧
    (∀ r i k, Admitted s r i k 0 0 .any → Replies (.unknownCommand r true) s r stBadFrame 0 .empty ∧
      Replies (.unknownCommand r false) s r stBadCommand 0 .empty) ∧
    (∀ (r : Req) (bad : Bool), s.px.stage = 6 → s.tagOk r.vlan = true → s.session r.sess = none →
      let c : Instr := .unknownCommand r bad
      let st := if bad then stBadFrame else stBadCommand
      let hello : Prop := r.sess = 0 ∧ r.cls = 1 ∧ r.cmd = 1
      let opens : Prop := r.sess = 0 ∧ r.cls = 0 ∧ r.cmd = 1
      (hello → s.wipingTarget r.part = false → ∃ t y, exec c s = .next t ∧ t.host.sent = .slate y :: s.host.sent ∧ y.sess = 0 ∧ y.status = st ∧
        t.host.pending = s.host.pending ∧ UnitsKept s t ∧ SeatsKept s t) ∧
      (∀ h, ¬ hello → ¬ opens → s.host.pending.find? (fun x => x.id == r.sess) = some h → s.wipingTarget h.part = false →
        Does c s r st 0 .empty (fun t => t.host.sessions = s.host.sessions ∧ t.host.pending = s.host.pending.filter (fun x => x.id != h.id) ∧
          UnitsKept s t ∧ SeatsKept s t)) ∧
      (¬ hello → ¬ opens → s.host.pending.find? (fun x => x.id == r.sess) = none → exec c s = .next (s.bump (prBase (reqField r) + 0x38)))) ∧
    (∀ f, f < 4 → exec (.frameDropped f .authFail) s = .next (s.bump (prBase f + 0x38)) ∧ exec (.frameDropped f .badPort) s = .next s ∧
      ∀ w, w ≠ .authFail → w ≠ .badPort → exec (.frameDropped f w) s = .next (s.bump (prBase f + 0x40))) ∧
    (∀ (r : Req) (i : Nat) (k : Session),
      (∀ codes, Admitted s r i k 2 1 .owner →
        let c : Instr := .partitionLayout r codes
        let fs := s.changed codes
        (layoutOk codes = false → Replies c s r stBadField s.freshWord .empty) ∧
        (∀ f, layoutOk codes = true → fs.find? (fun f => (s.seat f).plan.isSome) = some f → Replies c s r stWrongState (s.wrongDetail f) .empty) ∧
        (layoutOk codes = true → fs = [] → Replies c s r stOk 0 .empty) ∧
        let meets (w : WipeJob) : Bool := (scopeFields w.scope).any (fun f => (scopeFields (scopeOf fs)).contains f)
        (∀ w, layoutOk codes = true → fs ≠ [] → (∀ f ∈ fs, (s.seat f).plan = none) → s.px.wipes.find? meets = some w →
          Does c s r stBusy (busyDetail 33 { code := 10, resource := w.scope.setWidth 32 }) .empty (fun t => t.mem = s.mem ∧
            t.host.layout = s.host.layout ∧ t.px.wipes = s.px.wipes ∧ SeatsKept s t)) ∧
        (layoutOk codes = true → fs ≠ [] → (∀ f ∈ fs, (s.seat f).plan = none) → s.px.wipes.find? meets = none → Waits c s (fun t => t.mem = s.mem ∧
          t.host.layout = s.host.layout ∧ t.px.wipes = s.px.wipes ++ [{ scope := scopeOf fs, why := .layout codes r }] ∧ SeatsKept s t))) ∧
      (∀ p keyHash number, Admitted s r i k 2 2 .owner →
        (p = 7 → Replies (.partitionGrant r p keyHash number) s r stBadField s.freshWord .empty) ∧
        (p ≠ 7 → Does (.partitionGrant r p keyHash number) s r stOk 0 .empty (fun t => UnitsKept s t ∧ SeatsKept s t ∧
          ∀ g : Grant, g ∈ t.host.grants ↔ (g.part = p ∧ g.keyHash = keyHash ∧ g.number = number) ∨ (g.part ≠ p ∧ g ∈ s.host.grants)))) ∧
      (∀ p, Admitted s r i k 2 3 .owner →
        (p = 7 → Replies (.partitionRevoke r p) s r stBadField s.freshWord .empty) ∧
        (p ≠ 7 →
          let tenant (x : Session) : Prop := x.owner = false ∧ x.bound = true ∧ x.part = p
          (∀ j x, s.slot j = some x → j < 4 → tenant x → s.session x.id = some (j, x)) →
            Does (.partitionRevoke r p) s r stOk 0 .empty (fun t => UnitsKept s t ∧
              (∀ g : Grant, g ∈ t.host.grants ↔ g.part ≠ p ∧ g ∈ s.host.grants) ∧
              ∀ j x, s.slot j = some x → j < 4 → tenant x → t.slot j = none))))

/-! ### Slate: load, run, read -/

/-- R268, R347: a plan is staged piece by piece while its seat is at rest and not in STANDBY, and the plan in force stays until COMMIT: a basic form stages in the
staging region that the plan lays out, where it has one, an expert form in the range it names. COMMIT answers INCOMPLETE with the first byte missing, or PLAN_REJECTED with reason and index,
the plan in force unchanged; a plan without a fault is loaded, holds, and nothing is placed to start or stop. UNLOAD takes the plan away, sends
every core to NOLESSON and turns off the links that no job uses. A seat that runs refuses all four.
Where the manual leaves a point open its clauses follow log 15. -/
def Obligations.PlansAreStagedAndLoaded : Prop :=
  ∀ (s : State) (r : Req) (i : Nat) (k : Session),
    let f := reqField r
    let q := s.seat f
    let rests : Prop := s.atRest f = true ∧ q.cm.seatState ≠ 1
    (∀ p n a, Admitted s r i k 3 1 .bound →
      let c : Instr := .planBegin r p n a
      let staged (x : Option Nat) : Prop := Does c s r stOk 0 .empty (fun t => UnitsKept s t ∧
        OnlySeat f { q with staging := some { plan := p, len := n, addr := x } } s t)
      (r.expert = false → a ≠ 0 → Replies c s r stBadField s.freshWord .empty) ∧
      (r.expert = true ∨ a = 0 → ¬ rests → Replies c s r stWrongState (s.wrongDetail f) .empty) ∧
      (r.expert = false → a = 0 → rests → staged p.regions.staging) ∧
      (r.expert = true → rests → inLpddr (s.seatFields f) a.toNat n = true → staged (some a.toNat)) ∧
      (r.expert = true → rests → inLpddr (s.seatFields f) a.toNat n = false → Replies c s r stBadField s.freshWord .empty)) ∧
    (∀ o data, Admitted s r i k 3 2 .bound →
      let c : Instr := .planData r o data
      let n := data.length
      (¬ rests ∨ q.staging = none → Replies c s r stWrongState (s.wrongDetail f) .empty) ∧
      (∀ x, rests → q.staging = some x → x.len < o + n → Replies c s r stBadField s.freshWord .empty) ∧
      (∀ x, rests → q.staging = some x → o + n ≤ x.len → Does c s r stOk 0 .empty (fun t =>
        (t.seat f).staging = some { x with arrived := addSpan x.arrived o (o + n) } ∧ (t.seat f).plan = q.plan ∧
        t.mem = (match x.addr with | some a => (s.libWrite f (a + o) data).mem | none => s.mem)))) ∧
    (Admitted s r i k 3 3 .bound →
      let c : Instr := .planCommit r
      (¬ rests ∨ q.staging = none → Replies c s r stWrongState (s.wrongDetail f) .empty) ∧
      ∀ x, rests → q.staging = some x →
        (spansCover x.arrived x.len = false → Replies c s r stIncomplete (BitVec.ofNat 64 (firstMissing x.arrived)) .empty) ∧
        (∀ n j, spansCover x.arrived x.len = true → planFault x.plan (s.seatFields f) = some (n, j) →
          Does c s r stPlanRejected (BitVec.ofNat 64 (n + fieldAt (j % 2 ^ 33) 8)) .empty (fun t => UnitsKept s t ∧
            OnlySeat f { q with staging := none } s t)) ∧
        (spansCover x.arrived x.len = true → planFault x.plan (s.seatFields f) = none → ∃ t, exec c s = .next t ∧
          (t.seat f).plan = some x.plan ∧ (t.seat f).tt.hold = true ∧ (t.seat f).running = false ∧ (t.seat f).start = none ∧
          (t.seat f).stop = none ∧ (t.seat f).tt.bell = q.tt.bell)) ∧
    (Admitted s r i k 3 8 .bound →
      (s.atRest f = false → Replies (.unload r) s r stWrongState (s.wrongDetail f) .empty) ∧
      (s.atRest f = true → Does (.unload r) s r stOk 0 .empty (fun t => (t.seat f).plan = none ∧ (t.seat f).tt.hold = true ∧
        (t.seat f).start = none ∧ (t.seat f).stop = none ∧ (t.seat f).tt.bell = q.tt.bell ∧
        (∀ c, c < 2000 → fieldOfCore c ∈ s.seatFields f → (t.core c).mode = .noLesson) ∧
        ∀ l ∈ s.seatLinks f, t.link l = if (s.link l).nodeOk = true ∨ (s.link l).st = .failed then s.link l else { s.link l with st := .off })))

/-- R247, R248, R346, R348: a delivery opens satchel slot s mod 3 under its header, refused for a field it may not carry, for a step whose slot
is LIVE or HELD, and BUSY while the slot holds another step. Each piece is written at its place; the last makes the slot COMPLETE where the CRC
of the inputs agrees, and frees it with INPUT_CRC where not, or where they cannot be read back; a piece for such a slot is refused likewise. An initial shard is written to the committed buffer of a seat at rest, whose reads start again, and then
committed with its step. Without a plan each is refused.
Where the manual leaves a point open its clauses follow log 15 and 27. -/
def Obligations.DeliveriesAndShardsLand : Prop :=
  ∀ (s : State) (r : Req) (i : Nat) (k : Session),
    let f := reqField r
    let q := s.seat f
    (∀ h, Admitted s r i k 3 4 .bound →
      let c : Instr := .deliverBegin r h
      let n := h.step.toNat % 3
      let x := q.cm.ownSlot n
      (q.plan = none → Replies c s r stNoPlan 0 .empty) ∧
      (∀ p o, q.plan = some p → s.headerBad f r.expert p h = some o → Replies c s r stBadField (BitVec.ofNat 64 o) .empty) ∧
      (∀ p, q.plan = some p → s.headerBad f r.expert p h = none →
        (x.holds h.step = true → x.st = .live ∨ x.st = .held → Replies c s r stSlotRefused (BitVec.ofNat 64 x.st.code) .empty) ∧
        (∀ y, x.hdr = some y → x.holds h.step = false → x.st ≠ .free → Replies c s r stBusy y.step .empty) ∧
        (x.st = .free ∨ (x.holds h.step = true ∧ x.st ≠ .live ∧ x.st ≠ .held) → h.inputLen ≠ 0 → Does c s r stOk 0 .empty (fun t =>
          ((t.seat f).cm.ownSlot n).st = .filling ∧ ((t.seat f).cm.ownSlot n).hdr = some h ∧ ((t.seat f).cm.ownSlot n).arrived = [] ∧
          ((∀ z ∈ q.cm.hist, z.1 ≠ h.step) →
            (t.seat f).cm.ownSlot n = { st := .filling, hdr := some h } ∧ (∀ j, j ≠ n → (t.seat f).cm.ownSlot j = q.cm.ownSlot j) ∧
            t.mem = (s.libWrite (s.seatIx f) (q.satchelBase n) (satHeaderBytes h false 0 0)).mem))))) ∧
    (∀ step o data, Admitted s r i k 3 5 .bound →
      let c : Instr := .deliverData r step o data
      let n := step.toNat % 3
      let x := q.cm.ownSlot n
      let a := q.satchelBase n
      let w := s.libWrite (s.seatIx f) (a + 64 + o) data
      let m := w.mem
      let spans := addSpan x.arrived o (o + data.length)
      (q.plan = none → Replies c s r stNoPlan 0 .empty) ∧
      (q.plan.isSome = true →
        (x.holds step = true → x.st = .live ∨ x.st = .held → Replies c s r stSlotRefused (BitVec.ofNat 64 x.st.code) .empty) ∧
        (∀ y, x.hdr = some y → x.holds step = false → x.st ≠ .free → Replies c s r stBusy y.step .empty) ∧
        (x.st = .free ∨ (x.holds step = true ∧ x.st = .complete) → Replies c s r stWrongState (s.wrongDetail f) .empty) ∧
        (∀ h, x.holds step = true → x.st = .filling → x.hdr = some h →
          (h.inputLen < o + data.length → Replies c s r stBadField s.freshWord .empty) ∧
          (o + data.length ≤ h.inputLen → spansCover spans h.inputLen = false → Does c s r stOk 0 .empty (fun t => t.mem = m ∧
            (t.seat f).cm.ownSlot n = { x with arrived := spans })) ∧
          (o + data.length ≤ h.inputLen → spansCover spans h.inputLen = true →
            firstErr (w.readErr (s.seatFields (s.seatIx f))) (a + 64) h.inputLen ≠ none →
              Does c s r stInputCrc s.freshWord .empty (fun t => t.mem = m ∧ (t.seat f).cm.ownSlot n = {})) ∧
          (o + data.length ≤ h.inputLen → spansCover spans h.inputLen = true →
            firstErr (w.readErr (s.seatFields (s.seatIx f))) (a + 64) h.inputLen = none →
            (crc32c (Memory.readN m (a + 64) h.inputLen) = h.inputCrc → Does c s r stOk 1 .empty (fun t =>
              ((t.seat f).cm.ownSlot n).st = .complete)) ∧
            (crc32c (Memory.readN m (a + 64) h.inputLen) ≠ h.inputCrc →
              Does c s r stInputCrc ((crc32c (Memory.readN m (a + 64) h.inputLen)).setWidth 64) .empty (fun t => t.mem = m ∧
                (t.seat f).cm.ownSlot n = {})))))) ∧
    (∀ o data, Admitted s r i k 3 6 .bound →
      let c : Instr := .shardData r o data
      (q.plan = none → Replies c s r stNoPlan 0 .empty) ∧
      (q.plan.isSome = true → s.atRest f = false → Replies c s r stWrongState (s.wrongDetail f) .empty) ∧
      (q.plan.isSome = true → s.atRest f = true → q.shardLen < o + data.length → Replies c s r stBadField s.freshWord .empty) ∧
      (q.plan.isSome = true → s.atRest f = true → o + data.length ≤ q.shardLen → Does c s r stOk 0 .empty (fun t =>
        t.mem = (s.libWrite (s.seatIx f) (q.committedBase + o) data).mem ∧ t.cores = s.cores ∧ t.links = s.links ∧
        (t.seat f).noShard = true ∧ (t.seat f).shardVer = none ∧ (t.seat f).reads = (q.restartReads q.cm.committed).reads))) ∧
    (∀ step, Admitted s r i k 3 7 .bound →
      let c : Instr := .shardCommit r step
      (q.plan = none → Replies c s r stNoPlan 0 .empty) ∧
      (q.plan.isSome = true → s.atRest f = false → Replies c s r stWrongState (s.wrongDetail f) .empty) ∧
      (∀ p, q.plan = some p → s.atRest f = true → Does c s r stOk 0 .empty (fun t => UnitsKept s t ∧
        OnlySeat f { q with reads := (q.restartReads step).reads, shardVer := some p.hdr.version, noShard := false,
                            cm := { q.cm with committed := step, live := step, firstStep := true, partnerStep := some step } } s t)))

/-- R191, R253, R326, R349: a basic START of a seat without a partner is placed at the first multiple of 4,096 at least 4,096 bells ahead, at the just-in-time entry while the
histories are empty, as they are for a shard written under another plan version; a shard that a
restore without a cut has left invalid starts no Run (log 26); a seat with a partner needs the expert form, its seat and a current mirror, MIRROR_BEHIND
naming how far the partner's mirror has come. An expert START is refused for another step, an entry that is no PERIOD, or a bell
less than 16 ahead. STOP is placed at the next bell that judges a step, or at the bell the expert form names, which must be ahead. Each places
its bell and changes nothing else. -/
def Obligations.StartsAndStopsArePlaced : Prop :=
  (∀ now : BitVec 64, now.toNat + 8192 ≤ 2 ^ 64 → (basicBell now).toNat % 4096 = 0 ∧ now.toNat + 4096 ≤ (basicBell now).toNat ∧
    (basicBell now).toNat < now.toNat + 8192) ∧
  ∀ (s : State) (r : Req) (i : Nat) (k : Session),
    let f := reqField r
    let q := s.seat f
    let now := q.tt.bell
    let b := s.block (s.seatIx f)
    (∀ bell entry setCount step, Admitted s r i k 4 1 .bound →
      let c : Instr := .runStart r bell entry setCount step
      let plain : Prop := bell = 0 ∧ entry = 0 ∧ setCount = false ∧ step = 0
      let ready : Prop := q.noShard = false ∧ (q.cm.partnerOk = false ∨ (q.cm.seatState = 4 ∧ s.mirrorStale f = false))
      let placed (x : StartAt) : Prop := Does c s r stOk 0 .empty (fun t => UnitsKept s t ∧ OnlySeat f { q with start := some x } s t)
      (r.expert = false → ¬ plain → Replies c s r stBadField s.freshWord .empty) ∧
      (r.expert = true ∨ plain → q.plan = none → Replies c s r stNoPlan 0 .empty) ∧
      (r.expert = true ∨ plain → q.plan.isSome = true → q.noShard = true → Replies c s r stWrongState (s.wrongDetail f) .empty) ∧
      (∀ p, r.expert = false → plain → q.plan = some p → q.noShard = false → q.cm.partnerOk = false →
        let e := (s.admitted r k).basicEntry f p
        Does c s r stOk 0 .empty (fun t => t.mem = s.mem ∧ t.cores = s.cores ∧ t.links = s.links ∧
          t.seat f = { e.1.seat f with start := some { bell := basicBell now, entry := e.2 } } ∧
          (p.hdr.jitEntry = none ∨ q.shardVer ≠ some p.hdr.version → UnitsKept s t ∧
            OnlySeat f { q with start := some { bell := basicBell now, entry := p.hdr.jitEntry.getD p.hdr.mainEntry } } s t))) ∧
      (r.expert = false → plain → q.plan.isSome = true → q.noShard = false → q.cm.partnerOk = true → Replies c s r stForm 0 .empty) ∧
      (r.expert = true → q.plan.isSome = true → q.noShard = false → q.cm.partnerOk = true → q.cm.seatState ≠ 4 →
        Replies c s r stNotSeated (q.cm.seatState.setWidth 64) .empty) ∧
      (r.expert = true → q.plan.isSome = true → q.noShard = false → q.cm.partnerOk = true → q.cm.seatState = 4 → s.mirrorStale f = true →
        Replies c s r stMirrorBehind q.cm.partnerFor .empty) ∧
      (r.expert = true → q.plan.isSome = true → ready →
        (step ≠ 0xFFFFFFFFFFFFFFFF#64 → step ≠ q.cm.committed → Replies c s r stStepMismatch q.cm.committed .empty) ∧
        (step = 0xFFFFFFFFFFFFFFFF#64 ∨ step = q.cm.committed →
          (b.length ≤ entry ∨ etype (b.getD entry 0) ≠ 1 → Replies c s r stBadField s.freshWord .empty) ∧
          (entry < b.length → etype (b.getD entry 0) = 1 → bell.toNat < now.toNat + 16 → Replies c s r stTooLate now .empty) ∧
          (entry < b.length → etype (b.getD entry 0) = 1 → now.toNat + 16 ≤ bell.toNat →
            placed { bell := bell, entry := entry, setCount := setCount })))) ∧
    (∀ bell, Admitted s r i k 4 2 .bound →
      let c : Instr := .runStop r bell
      let placed (x : StopAt) : Prop := Does c s r stOk 0 .empty (fun t => UnitsKept s t ∧ OnlySeat f { q with stop := some x } s t)
      (r.expert = false → bell ≠ 0 → Replies c s r stBadField s.freshWord .empty) ∧
      (r.expert = true ∨ bell = 0 → q.plan = none → Replies c s r stNoPlan 0 .empty) ∧
      (r.expert = false → bell = 0 → q.plan.isSome = true → placed .nextVerdict) ∧
      (r.expert = true → q.plan.isSome = true → bell ≤ now → Replies c s r stTooLate now .empty) ∧
      (r.expert = true → q.plan.isSome = true → now < bell → placed (.atBell bell)))

/-- R44, R266, R267, R274 to R276, R350, R391: a basic OPEN waits for a commit and is answered, once its step is proven, with a new READ_ID and the step then
committed; an expert OPEN reads the mirror, or the committed step at once; any expert OPEN is HELD while corrected units have still to land. Nine reads of one
session, a seat that is not SEATED, a mirror that is not held and a committed buffer that holds no step are refused. A piece is served from exactly one step's units, RESTARTED once after each
flip and MOVED at the third, and waits while its units do; an unresolved unit of a mirror, and a mirror held no more, is refused, and a block that cannot be read is INTERNAL with its dump; CLOSE ends the read; 60 s without a commit answer WAIT_TIMEOUT. Only the reads of
the seat change.
Where the manual leaves a point open its clauses follow log 18. -/
def Obligations.ReadsFollowTheCommit : Prop :=
  ∀ (s : State) (r : Req) (i : Nat) (k : Session),
    let f := reqField r
    let q := s.seat f
    let opened (u : State) (r : Req) (g : Nat) (imm mir hist : Bool) (step : BitVec 64) (t : State) : Prop :=
      (t.seat g).nextRead = (u.seat g).nextRead + 1 ∧ (t.seat g).reads = (u.seat g).reads ++
        [{ id := (u.seat g).nextRead, sess := r.sess, immediate := imm, mirror := mir, history := hist, step := step }]
    let words (g : Nat) (mir hist : Bool) (step : BitVec 64) : Body := .words [BitVec.ofNat 64 (s.seat g).nextRead, step,
      BitVec.ofNat 64 ((s.seat g).readLen mir hist), BitVec.ofNat 64 (b2n (mir && (s.seatFields g).any (fun x => (s.field x).lb.selfChecked)))]
    (∀ imm mir hist, Admitted s r i k 5 1 .bound →
      let c : Instr := .readOpen r imm mir hist
      let mf := (s.field f).lb.mirrorFor
      let room : Prop := q.cm.seatState = 4 ∧ s.readsOf r.sess < 8
      (r.expert = false → imm = true ∨ mir = true ∨ hist = true → Replies c s r stBadField s.freshWord .empty) ∧
      (r.expert = true ∨ (imm = false ∧ mir = false ∧ hist = false) →
        (q.plan = none → Replies c s r stNoPlan 0 .empty) ∧
        (q.plan.isSome = true → q.cm.seatState ≠ 4 → Replies c s r stNotSeated (q.cm.seatState.setWidth 64) .empty) ∧
        (q.plan.isSome = true → q.cm.seatState = 4 → 8 ≤ s.readsOf r.sess → Replies c s r stBusy 0 .empty) ∧
        let open' : Prop := r.expert = false ∨ q.cm.clipDue = false
        (q.plan.isSome = true → room → r.expert = true → q.cm.clipDue = true → Replies c s r stHeld q.cm.committed .empty) ∧
        (q.plan.isSome = true → room → open' → mir = false → imm = false →
          Waits c s (fun t => UnitsKept s t ∧ OnlySeat f { q with waits := q.waits ++ [{ req := r, history := hist }] } s t)) ∧
        (q.plan.isSome = true → room → open' → mir = false → imm = true → q.noShard = true → Replies c s r stWrongState (s.wrongDetail f) .empty) ∧
        (q.plan.isSome = true → room → open' → mir = false → imm = true → q.noShard = false →
          Does c s r stOk 0 (words f false hist q.cm.committed) (fun t => UnitsKept s t ∧ opened s r f true false hist q.cm.committed t)) ∧
        (q.plan.isSome = true → room → open' → mir = true → s.mirrorHeld f = false ∨ (hist = true ∧ q.historyAt true mf = none) →
          Replies c s r stWrongState (s.wrongDetail f) .empty) ∧
        (q.plan.isSome = true → room → open' → mir = true → s.mirrorHeld f = true → hist = false ∨ (q.historyAt true mf).isSome = true →
          Does c s r stOk 0 (words f true hist mf) (fun t => UnitsKept s t ∧ opened s r f false true hist mf t)))) ∧
    (∀ g w, g < 4 → (s.seat g).waits = [w] → (s.seat g).pieces = [] →
      ((s.seat g).cm.seatState ≠ 4 → s.session w.req.sess = some (i, k) → k.gen2 = false →
        Does (.readOpenAnswer g) s w.req stNotSeated ((s.seat g).cm.seatState.setWidth 64) .empty (fun t => UnitsKept s t ∧
          OnlySeat g { s.seat g with waits := [] } s t)) ∧
      ((s.seat g).cm.seatState = 4 → s.stepProven g (s.seat g).cm.committed = true → w.step.isSome = true → s.session w.req.sess = some (i, k) → k.gen2 = false →
        Does (.readOpenAnswer g) s w.req stOk 0 (words g false w.history (s.seat g).cm.committed) (fun t => UnitsKept s t ∧
          (t.seat g).waits = [] ∧ opened s w.req g false false w.history (s.seat g).cm.committed t)) ∧
      ((s.seat g).cm.seatState = 4 → s.stepProven g (s.seat g).cm.committed = false ∨ w.step = none → ∃ t, exec (.readOpenAnswer g) s = .next t ∧ t.host = s.host ∧
        UnitsKept s t ∧ SeatsKept s t) ∧
      (s.session w.req.sess = some (i, k) → k.gen2 = false → Does (.readWaitTimeout g) s w.req stWaitTimeout 0 .empty (fun t =>
        UnitsKept s t ∧ OnlySeat g { s.seat g with waits := [] } s t))) ∧
    (∀ id off len, Admitted s r i k 5 2 .bound →
      let c : Instr := .readPiece r id off len
      let u := s.admitted r k
      let found := q.reads.find? (fun x => x.id == id && x.sess == r.sess)
      (q.plan = none → Replies c s r stNoPlan 0 .empty) ∧
      (q.plan.isSome = true → q.cm.seatState ≠ 4 → Replies c s r stNotSeated (q.cm.seatState.setWidth 64) .empty) ∧
      (q.plan.isSome = true → q.cm.seatState = 4 → found = none → Replies c s r stBadField s.freshWord .empty) ∧
      ∀ x, q.plan.isSome = true → q.cm.seatState = 4 → found = some x →
        let y := x.now (s.field f).lb.mirrorFor
        let total := q.readLen x.mirror x.history
        let n := Nat.min len (total - off)
        let us := if x.history then [] else q.pieceUnits x.mirror off n
        let bad := if x.mirror then us.find? (fun z => (q.cm.res z.1).outcome == 6) else none
        let lost : Prop := x.mirror = true ∧ ∃ g ∈ s.seatFields f, (s.field g).lb.mState = 0
        let serves : Prop := y.restarts ≤ y.told ∧ ¬ lost ∧ off ≤ total ∧ len ≤ 0x100000 ∧ s.pieceReady f y off n = true
        (y.told < y.restarts → y.restarts < 3 → Does c s r stRestarted (BitVec.ofNat 64 y.restarts) (.words [y.step]) (fun t => UnitsKept s t)) ∧
        (y.told < y.restarts → 3 ≤ y.restarts → Does c s r stMoved y.step .empty (fun t => UnitsKept s t ∧
          ∀ z ∈ (t.seat f).reads, z.id ≠ x.id)) ∧
        (y.restarts ≤ y.told → lost → Replies c s r stWrongState (s.wrongDetail f) .empty) ∧
        (y.restarts ≤ y.told → ¬ lost → total < off ∨ 0x100000 < len → Replies c s r stBadField s.freshWord .empty) ∧
        (y.restarts ≤ y.told → ¬ lost → off ≤ total → len ≤ 0x100000 → s.pieceReady f y off n = false →
          Waits c s (fun t => UnitsKept s t ∧ OnlySeat f { q with pieces := q.pieces ++ [{ req := r, id := id, off := off, len := len }] } s t)) ∧
        (∀ z, serves → bad = some z → Replies c s r stUnresolved (BitVec.ofNat 64 (z.1.core + fieldAt z.1.record 16)) .empty) ∧
        (∀ bs w, serves → bad = none → u.pieceBytes f y off n = (w, some bs) →
          Does c s r stOk (if y.immediate = true ∧ s.stepProven f y.step = true then 1 else 0)
            (.piece y.step (x.mirror && us.any (fun z => (q.cm.res z.1).outcome == 5)) bs)
            (fun t => t.mem = s.mem ∧ t.cores = s.cores ∧ t.links = s.links ∧ SeatsKept s t)) ∧
        (∀ w, serves → bad = none → u.pieceBytes f y off n = (w, none) →
          Does c s r stInternal (BitVec.ofNat 64 (w.internalDump f).2) .empty (fun t => t.mem = s.mem ∧ t.cores = s.cores ∧ t.links = s.links))) ∧
    (∀ id, Admitted s r i k 5 3 .bound →
      let c : Instr := .readClose r id
      let found := q.reads.find? (fun x => x.id == id && x.sess == r.sess)
      (found = none → Replies c s r stBadField s.freshWord .empty) ∧
      (found.isSome = true → Does c s r stOk 0 .empty (fun t => UnitsKept s t ∧ (∀ z ∈ (t.seat f).reads, z.id ≠ id ∧ z ∈ q.reads) ∧
        (t.seat f).cm = q.cm ∧ (t.seat f).tt = q.tt)))

/-- R11, R12, R109, R345, R354, R355, R360, R363, R414, R416, R435, R436: REGS answers what each register reads as at the session's grade, or nothing and DENIED with the first
address refused; LOG answers the entries from an index on and, with CLEAR, empties that log; the module's own log belongs to the owner and comes
with the count of entries lost. Health CLEAR zeroes every counter named or, where one is refused, none. A core's writes reach its own MX_ and VX_ fields alone, the
sideband's, where the target answers, PW_ALERT_MASK and PW_CAP; a session's are DENIED and logged, and a core's elsewhere is fault 0x05. -/
def Obligations.RegistersAndLogsAreReadAndWritten : Prop :=
  ∀ (s : State) (r : Req) (i : Nat) (k : Session) (addrs : List Addr),
    let u := s.admitted r k
    let counted : Prop := addrs ≠ [] ∧ addrs.length ≤ 128
    (Admitted s r i k 5 4 .boundOwner →
      let c : Instr := .readRegs r addrs
      let may (a : Addr) : Bool := match regAddr a.toNat with
        | some x => k.mayRead x && (u.sessionRead k a.toNat).isSome
        | none => false
      (¬ counted → Replies c s r stBadField s.freshWord .empty) ∧
      (counted → (∀ a ∈ addrs, may a = true) → Replies c s r stOk 0 (.words (addrs.map (fun a => (u.sessionRead k a.toNat).getD 0)))) ∧
      (∀ a, counted → addrs.find? (fun a => !may a) = some a → Does c s r stDenied (a.setWidth 64) .empty (fun t => UnitsKept s t ∧
        ∀ f, t.seat f = { s.seat f with vlog := (t.seat f).vlog }))) ∧
    (Admitted s r i k 7 3 .boundOwner →
      let c : Instr := .healthClear r addrs
      let may (a : Addr) : Bool := match regAddr a.toNat with
        | some x => k.mayClear x
        | none => false
      (¬ counted → Replies c s r stBadField s.freshWord .empty) ∧
      (counted → (∀ a ∈ addrs, may a = true) → Does c s r stOk 0 .empty (fun t => UnitsKept s t ∧ SeatsKept s t ∧
        (∀ a ∈ addrs, ∀ x, regAddr a.toNat = some x → t.counter (s.counterHome x a.toNat) = {}) ∧
        ∀ n, (∀ a ∈ addrs, ∀ x, regAddr a.toNat = some x → n ≠ s.counterHome x a.toNat) → t.counter n = u.counter n)) ∧
      (∀ a, counted → addrs.find? (fun a => !may a) = some a → Does c s r stDenied (a.setWidth 64) .empty (fun t => UnitsKept s t))) ∧
    (∀ numerics start clear, Admitted s r i k 5 5 .bound7 →
      let c : Instr := .readLog r numerics start clear
      let q := s.seat (reqField r)
      (r.expert = false → start ≠ 0 ∨ clear = true → Replies c s r stBadField s.freshWord .empty) ∧
      (r.expert = true ∨ (start = 0 ∧ clear = false) →
        (r.part = 7 → numerics = true → Replies c s r stBadField s.freshWord .empty) ∧
        (r.part = 7 → numerics = false → Does c s r stOk (BitVec.ofNat 64 s.host.modVdrop) (.vlog (s.host.modVlog.drop start)) (fun t =>
          UnitsKept s t ∧ SeatsKept s t ∧ t.host.modVlog = (if clear then [] else s.host.modVlog) ∧
            t.host.modVdrop = (if clear then 0 else s.host.modVdrop))) ∧
        (r.part ≠ 7 → numerics = true → Does c s r stOk 0 (.numlog (q.numEntries.drop start)) (fun t => UnitsKept s t ∧
          OnlySeat (reqField r) (if clear then { q with numlog := [], numHead := 0, numWrap := false } else q) s t)) ∧
        (r.part ≠ 7 → numerics = false → Does c s r stOk 0 (.vlog (q.vlog.drop start)) (fun t => UnitsKept s t ∧
          OnlySeat (reqField r) (if clear then { q with vlog := [] } else q) s t ∧
            (clear = true → t.counter (prBase (s.seatIx (reqField r)) + 0x30) = {}))))) ∧
    (∀ c v, c < 2000 → (∃ t, exec (.mxFlagsClear c v) s = .next t ∧ OnlyCore c s t ∧
        t.core c = { s.core c with mxFlags := (s.core c).mxFlags &&& ~~~(v.setWidth 9) }) ∧
      ∃ t, exec (.vxFlagsClear c v) s = .next t ∧ OnlyCore c s t ∧ t.core c = { s.core c with vxFlags := (s.core c).vxFlags &&& ~~~(v.setWidth 15) }) ∧
    (∀ f v, f < 4 → (v.getLsbD 8 = false → exec (.outOfTolClear f v) s = .next s) ∧
      (v.getLsbD 8 = true → ∃ t, exec (.outOfTolClear f v) s = .next t ∧ UnitsKept s t ∧
        OnlySeat f { s.seat f with tt := { (s.seat f).tt with outOfTol := false } } s t)) ∧
    (∀ a v, exec (.registerWrite .sideband a v) s = .next (
      if s.i3cHeard = false then s
      else if a.toNat = pwBase + 0x28 then { s with pw := { s.pw with mask := v.setWidth 10 } }
      else if a.toNat = pwBase + 0x30 then { s with pw := { s.pw with cap := v.setWidth 16 } } else s)) ∧
    (∀ id n x a v, s.session id = some (n, x) → x.gen2 = false → ∃ t y, exec (.registerWrite (.session id) a v) s = .next t ∧
      t.host.sent = .slate y :: s.host.sent ∧ y.status = stDenied ∧ y.detail = a.setWidth 64 ∧
      let e : VEntry := { addr := a.setWidth 64, source := 6, code := 0x20, unitId := BitVec.ofNat 16 n, loc := 0 }
      (x.bound = true → ∀ f, t.seat f = (s.vlog ((partFields x.part.toNat).headD 0) e).seat f) ∧
      (x.bound = false → SeatsKept s t ∧ t.host.modVlog = (s.modVlog e).host.modVlog)) ∧
    (∀ id a v, ∃ t, exec (.registerWrite (.session id) a v) s = .next t ∧ UnitsKept s t ∧ t.pw = s.pw ∧
      (∀ f, t.seat f = { s.seat f with vlog := (t.seat f).vlog }) ∧ (s.session id = none → t = s)) ∧
    (∀ c a v, c < 2000 →
      let w : Instr := .registerWrite (.core c) a v
      let u := s.core c
      (∀ off g, regAddr a.toNat = some ⟨2, c, off⟩ → (off, g) ∈ [(0, { u with oscale := v.setWidth 32 }), (8, { u with cadence := v.getLsbD 0 }),
          (0x10, { u with mxFlags := u.mxFlags &&& ~~~(v.setWidth 9) }), (0x18, { u with mxNorm := v })] → exec w s = .next (s.setCore c g)) ∧
      (∀ off g, regAddr a.toNat = some ⟨3, c, off⟩ → (off, g) ∈ [(0, { u with vxEps := v.setWidth 32 }), (8, { u with vxNorm := v }),
          (0x10, { u with vxFlags := u.vxFlags &&& ~~~(v.setWidth 15) })] → exec w s = .next (s.setCore c g)) ∧
      ((∀ b off, regAddr a.toNat = some ⟨b, c, off⟩ → (b = 2 → 0x18 < off) ∧ (b = 3 → 0x10 < off)) →
        exec w s = .next (s.recordFault c 5 u.pc.toNat 0xA1 a.toNat 1)))

/-! ### Slate: the job, health and maintenance -/

/-- R28, R252, R253, R267 to R271, R293, R294, R346, R420, R422: SEAT gives the seat its id and job epoch and the links named their peers and keys; PARTNER names
the partner while no Run is in progress; FILL asks the partner for every unit of the mirror; STANDBY takes an empty seat out of the job and its
links' keys; ASSUME takes a lost seat's identity at its committed step; HANDOVER serves the pulls once no apply runs, and is refused while the
mirror is being corrected, behind or unresolved; PEERS replaces peers of a seat that is taken; LEAVE gives seat, partner and keys up, and is no way out of STANDBY. SEAT, PEERS and LEAVE act at
once on a seat at rest and else at the next bell; a module opened for the factory takes no seat.
Where the manual leaves a point open its clauses follow log 17. -/
def Obligations.SeatsArePairedAndHandedOver : Prop :=
  ∀ (s : State) (r : Req) (i : Nat) (k : Session),
    let f := reqField r
    let q := s.seat f
    let wrong (c : Instr) : Prop := Replies c s r stWrongState (s.wrongDetail f) .empty
    let linked (peers : List PeerSpec) (epoch : BitVec 32) (t : State) : Prop :=
      (∀ l, (∀ p ∈ peers, p.link ≠ l) → t.link l = s.link l) ∧
      ((peers.map (fun p => p.link)).Nodup → ∀ p ∈ peers, t.link p.link =
        let g := (s.link p.link).given s.store.serial p epoch
        if g.st = .ident then { g with reason := 0, bringup := (t.link p.link).bringup, seq := 0, echoDue := none, confirmed := false,
                                       ranged := false, absent := false }
        else g)
    (∀ m e peers, Admitted s r i k 6 1 .bound →
      let c : Instr := .jobSeat r m e peers
      (s.px.factoryOpened = true → ∃ t y rest, exec c s = .next t ∧ t.host.sent = .slate y :: rest ∧ y.seq = r.seq ∧ y.status = stDenied ∧ UnitsKept s t) ∧
      (s.px.factoryOpened = false → peersOk r peers = false → Replies c s r stBadField s.freshWord .empty) ∧
      (s.px.factoryOpened = false → peersOk r peers = true → q.cm.seatState = 1 → wrong c) ∧
      (s.px.factoryOpened = false → peersOk r peers = true → q.cm.seatState ≠ 1 → s.atRest f = false → Does c s r stOk 0 .empty (fun t =>
        UnitsKept s t ∧ OnlySeat f { q with atBell := q.atBell ++ [.seat m e peers] } s t)) ∧
      (s.px.factoryOpened = false → peersOk r peers = true → q.cm.seatState ≠ 1 → s.atRest f = true → Does c s r stOk 0 .empty (fun t => t.mem = s.mem ∧
        t.cores = s.cores ∧ linked peers e t ∧ (t.seat f).ck.lastCommit = none ∧ (t.seat f).cm = { q.cm with moduleId := m, epoch := e, seatState := 4 } ∧
        (t.seat f).tt = { q.tt with counted := q.plan.isSome && q.tt.isRoot } ∧ (t.seat f).plan = q.plan))) ∧
    (∀ p both, Admitted s r i k 6 2 .bound →
      (s.atRest f = false → wrong (.jobPartner r p both)) ∧
      (s.atRest f = true → Does (.jobPartner r p both) s r stOk 0 .empty (fun t => UnitsKept s t ∧
        OnlySeat f { q with bulkOut := (t.seat f).bulkOut,
                            cm := { q.cm with partner := p, named := true, partnerOk := both || q.cm.namedBy == some p,
                                              outbox := .named p q.cm.moduleId :: q.cm.outbox } } s t))) ∧
    (∀ a b digest stepping step, Admitted s r i k 6 3 .bound → r.expert = true ∨ (a = 0 ∧ b = 0) →
      let c : Instr := .jobFill r a b ⟨digest, stepping⟩ step
      let may : Prop := q.cm.partnerOk = true ∧ q.xfer = none ∧ s.appliesEnded f = true ∧ q.cm.serving = false
      let range : Prop := r.expert = false ∨ (a ≤ b ∧ b < q.mirrorUnits.length)
      let same : Prop := digest = s.fwDigest ∧ stepping = 0xA1
      let due := q.fillUnits r.expert a b
      (q.plan = none → Replies c s r stNoPlan 0 .empty) ∧
      (q.plan.isSome = true → ¬ may → wrong c) ∧
      (q.plan.isSome = true → may → ¬ range → Replies c s r stBadField s.freshWord .empty) ∧
      (q.plan.isSome = true → may → range → ¬ same → Replies c s r stPairing 0 .empty) ∧
      (q.plan.isSome = true → may → range → same → due = [] → Does c s r stOk 0 .empty (fun t => t.mem = s.mem ∧
        (t.seat f).cm.xfers = q.cm.xfers ∧ ∀ g ∈ s.seatFields f, (t.field g).lb.mState = 2 ∧ (t.field g).lb.mirrorFor = step)) ∧
      (q.plan.isSome = true → may → range → same → due ≠ [] → Waits c s (fun t => t.mem = s.mem ∧
        (t.seat f).cm.xfers = q.cm.xfers ++ [{ kind := .fill, step := step, req := some r, due := due }] ∧
        (t.seat f).cm.outbox = .fillAsk a (if r.expert then b else q.mirrorUnits.length - 1) s.fwDigest 0xA1 :: q.cm.outbox ∧
        ∀ g ∈ s.seatFields f, (t.field g).lb.mState = 1))) ∧
    (Admitted s r i k 6 4 .owner → ∀ g, s.seatOfReq r = some g → s.px.factoryOpened = true →
      Does (.jobStandby r) s r stDenied (opDetail 6 4) .empty (fun t => UnitsKept s t ∧ ∀ f, t.seat f = { s.seat f with vlog := (t.seat f).vlog })) ∧
    (∀ m p e v n peers g, Admitted s r i k 6 5 .owner → s.seatOfReq r = some g → s.px.factoryOpened = true →
      Does (.jobAssume r m p e v n peers) s r stDenied (opDetail 6 5) .empty (fun t => UnitsKept s t ∧
        ∀ f, t.seat f = { s.seat f with vlog := (t.seat f).vlog })) ∧
    (Admitted s r i k 6 4 .owner → s.px.factoryOpened = false →
      let c : Instr := .jobStandby r
      (s.seatOfReq r = none → Replies c s r stBadField s.freshWord .empty) ∧
      ∀ g, s.seatOfReq r = some g →
        ((s.seat g).plan.isSome = true ∨ 1 < (s.seat g).cm.seatState → Replies c s r stWrongState (s.wrongDetail g) .empty) ∧
        ((s.seat g).plan = none → (s.seat g).cm.seatState ≤ 1 → Does c s r stOk 0 .empty (fun t => t.mem = s.mem ∧ t.cores = s.cores ∧
          OnlySeat g { s.seat g with cm := { (s.seat g).cm with seatState := 1 }, tt := { (s.seat g).tt with counted := false } } s t ∧
          ∀ l ∈ s.seatLinks g, (t.link l).keyEpoch = none ∧ (t.link l).nodeOk = false ∧
            (t.link l).st = (if (s.link l).st = .off then .dark else (s.link l).st)))) ∧
    (∀ m p e v n peers, Admitted s r i k 6 5 .owner → s.px.factoryOpened = false →
      let c : Instr := .jobAssume r m p e v n peers
      (s.seatOfReq r = none → Replies c s r stBadField s.freshWord .empty) ∧
      ∀ g, s.seatOfReq r = some g → (∀ x ∈ peers, x.link ∈ s.seatLinks g) →
        ((s.seat g).cm.seatState ≠ 1 → Replies c s r stWrongState (s.wrongDetail g) .empty) ∧
        ((s.seat g).cm.seatState = 1 → Does c s r stOk 0 .empty (fun t => t.mem = s.mem ∧ t.cores = s.cores ∧ linked peers e t ∧
          (t.seat g).cm = { (s.seat g).cm with moduleId := m, epoch := e, seatState := 2, partner := p, partnerOk := true, named := true,
                                                   namedBy := some p, committed := n, live := n, partnerStep := some n }))) ∧
    (∀ n, Admitted s r i k 6 6 .bound →
      let c : Instr := .jobHandover r n
      let may : Prop := q.cm.partnerOk = true ∧ q.cm.serving = false ∧ (∀ g ∈ s.seatFields f, (s.field g).lb.mState ≠ 4) ∧
        ∀ e ∈ q.cm.units, e.2.unacked = false
      let current : Prop := ∀ g ∈ s.seatFields f, 2 ≤ (s.field g).lb.mState ∧ n ≤ (s.field g).lb.mirrorFor
      let resolved : Prop := ∀ g ∈ s.seatFields f, (s.field g).lb.unresolved = false
      let voted : Prop := ∀ g ∈ s.seatFields f, (s.field g).lb.selfChecked = false
      let reads (base : Nat) (u : ShardUnit) : Prop := firstErr (s.readErr (s.seatFields f)) (base + u.offset) (unitLen u) = none
      (q.plan = none → Replies c s r stNoPlan 0 .empty) ∧
      (q.plan.isSome = true → ¬ may → wrong c) ∧
      (q.plan.isSome = true → may → s.appliesEnded f = false → Waits c s (fun t => UnitsKept s t ∧
        OnlySeat f { q with cm := { q.cm with serving := true, handReq := some r, handStep := n } } s t)) ∧
      (q.plan.isSome = true → may → s.appliesEnded f = true → ¬ current → Does c s r stMirrorBehind (s.field f).lb.mirrorFor .empty (fun t =>
        UnitsKept s t ∧ (t.seat f).cm.serving = false)) ∧
      (∀ u us, q.plan.isSome = true → may → s.appliesEnded f = true → current → ¬ resolved → q.unitsWith 6 = u :: us →
        Does c s r stUnresolved (BitVec.ofNat 64 (u.core + fieldAt u.record 16)) .empty (fun t => UnitsKept s t ∧ (t.seat f).cm.serving = false)) ∧
      (q.plan.isSome = true → may → s.appliesEnded f = true → current → resolved → r.expert = true → ¬ voted →
        Does c s r stSelfChecked (BitVec.ofNat 64 (q.unitsWith 5).length) .empty (fun t => UnitsKept s t ∧ (t.seat f).cm.serving = false)) ∧
      (q.plan.isSome = true → may → s.appliesEnded f = true → current → resolved → r.expert = false ∨ voted →
        Waits c s (fun t => t.mem = s.mem ∧ (t.seat f).cm.serving = true ∧ (∀ g ∈ s.seatFields f, (t.field g).lb.mState = 5) ∧
          (∀ u ∈ q.mirrorUnits, reads q.regions.mirror u → .unit u.core u.record (crc32c (s.unitBytes q.regions.mirror u)) ∈ (t.seat f).cm.outbox) ∧
          ∀ u ∈ q.units, reads q.committedBase u → .unit u.core u.record (crc32c (s.unitBytes q.committedBase u)) ∈ (t.seat f).cm.outbox))) ∧
    (∀ peers, Admitted s r i k 6 7 .bound →
      (peersOk r peers = false → Replies (.jobPeers r peers) s r stBadField s.freshWord .empty) ∧
      (peersOk r peers = true → q.cm.seatState < 2 → Replies (.jobPeers r peers) s r stNotSeated (q.cm.seatState.setWidth 64) .empty) ∧
      (peersOk r peers = true → 2 ≤ q.cm.seatState → s.atRest f = false → Does (.jobPeers r peers) s r stOk 0 .empty (fun t => UnitsKept s t ∧
        OnlySeat f { q with atBell := q.atBell ++ [.peers peers] } s t)) ∧
      (peersOk r peers = true → 2 ≤ q.cm.seatState → s.atRest f = true → Does (.jobPeers r peers) s r stOk 0 .empty (fun t => t.mem = s.mem ∧
        t.cores = s.cores ∧ SeatsKept s t ∧ linked peers q.cm.epoch t))) ∧
    (Admitted s r i k 6 13 .bound →
      (q.cm.seatState = 1 → wrong (.jobLeave r)) ∧
      (q.cm.seatState ≠ 1 → s.atRest f = false → Does (.jobLeave r) s r stOk 0 .empty (fun t => UnitsKept s t ∧
        OnlySeat f { q with atBell := q.atBell ++ [.leave] } s t)) ∧
      (q.cm.seatState ≠ 1 → s.atRest f = true → q.ck.state = 0 → Does (.jobLeave r) s r stOk 0 .empty (fun t => (t.seat f).cm.moduleId = 0 ∧ (t.seat f).cm.epoch = 0 ∧ (t.seat f).cm.seatState = 0 ∧ (t.seat f).cm.partnerOk = false ∧
        (∀ l ∈ s.seatLinks f, (t.link l).keyEpoch = none ∧ (t.link l).nodeOk = false) ∧
        ((∀ l ∈ s.seatLinks f, (s.link l).ops = []) → t.mem = s.mem ∧ ∀ l ∈ s.seatLinks f, (t.link l).st =
          (if q.plan = none ∧ (s.link l).st ≠ .failed then .off
           else if (s.link l).st = .locked ∨ (s.link l).st = .ranging then .ident else (s.link l).st)))))

/-- R311, R312, R316, R325 to R327, R329: POOL and CKPT_SECRET place the region and the keys, derived under the module id. CHECKPOINT is armed for
a commit still to come and TOO_LATE for one that has passed. SCAN and RESTORE are BUSY while another operation runs, end NO_REGION without a region
or, for a restore, a secret, and NO_COMMON_CUT where the seats share no step; else a SCAN of the region or a READ of the header is opened on the
link to the pool node, and the answer waits for its end. A restore of no common step leaves the shard buffers invalid.
Where the manual leaves a point open its clauses follow log 10 and 13. -/
def Obligations.CheckpointsAreCommanded : Prop :=
  ∀ (s : State) (r : Req) (i : Nat) (k : Session),
    let f := reqField r
    let q := s.seat f
    let busy := busyDetail 32 { code := 9, resource := BitVec.ofNat 32 (s.partOf f) }
    let ended (c : Instr) (code : BitVec 8) : Prop := Does c s r stCkpt (code.setWidth 64) .empty (fun t => t.mem = s.mem ∧ t.cores = s.cores ∧
      (t.seat f).ck.outcome = code ∧ (t.seat f).tt = q.tt ∧ (t.seat f).cm = q.cm)
    let opens (c : Instr) (state : BitVec 4) (op : BitVec 8) (addr : Nat) : Prop := ∀ l, s.poolLink f (s.seatIx f) = some l →
      Waits c s (fun t => t.mem = s.mem ∧ (t.seat f).ck.state = state ∧ (t.seat f).ck.reqs = [r] ∧
        ∃ x ∈ (t.link l).ops, x.op = op ∧ x.addr = addr ∧ x.sent = false)
    (∀ node region, Admitted s r i k 6 8 .bound → Does (.jobPool r node region) s r stOk 0 .empty (fun t => UnitsKept s t ∧
      OnlySeat f { q with ck := { q.ck with node := node, region := region, regionOk := true, held := false, recA := none, recB := none,
                                            stateA := 0, stateB := 0, genA := 0, genB := 0, sealedStep := none } } s t)) ∧
    (∀ secret id, Admitted s r i k 6 9 .bound → Does (.jobCkptSecret r secret id) s r stOk 0 .empty (fun t => UnitsKept s t ∧
      OnlySeat f { q with ck := { q.ck with secret := secret, keyId := id, keyOk := true,
                                            keys := ckptKeys secret q.cm.moduleId id } } s t)) ∧
    (∀ bell step, Admitted s r i k 6 10 .bound → r.expert = true ∨ step = 0 → q.plan.isSome = true →
      let c : Instr := .jobCheckpoint r bell step
      let late : Prop := if r.expert then step ≤ q.cm.committed else ∃ b, q.ck.lastCommit = some b ∧ bell ≤ b
      (late → ended c 0x0A) ∧
      (¬ late → Waits c s (fun t => UnitsKept s t ∧
        OnlySeat f { q with ck := { q.ck with arms := q.ck.arms ++ [(if r.expert then .step step else .bell bell, r)] } } s t))) ∧
    (Admitted s r i k 6 11 .bound →
      (q.ck.state ≠ 0 → Replies (.jobScan r) s r stBusy busy .empty) ∧
      (q.ck.state = 0 → q.ck.regionOk = false → ended (.jobScan r) 5) ∧
      (q.ck.state = 0 → q.ck.regionOk = true → opens (.jobScan r) 6 4 0 ∧ (s.poolLink f (s.seatIx f) = none → ended (.jobScan r) 2))) ∧
    (∀ step, Admitted s r i k 6 12 .bound →
      let c : Instr := .jobRestore r step
      let ready : Prop := q.plan.isSome = true ∧ s.atRest f = true ∧ step ≠ 0xFFFFFFFFFFFFFFFF#64
      (q.plan = none → Replies c s r stNoPlan 0 .empty) ∧
      (q.plan.isSome = true → s.atRest f = false → Replies c s r stWrongState (s.wrongDetail f) .empty) ∧
      (q.plan.isSome = true → s.atRest f = true → step = 0xFFFFFFFFFFFFFFFF#64 → ended c 9 ∧
        ∃ t, exec c s = .next t ∧ (t.seat f).noShard = true ∧ (t.seat f).shardVer = none) ∧
      (ready → q.ck.state ≠ 0 → Replies c s r stBusy busy .empty) ∧
      (ready → q.ck.state = 0 → q.ck.regionOk = false ∨ q.ck.keyOk = false → ended c 5) ∧
      (ready → q.ck.state = 0 → q.ck.regionOk = true → q.ck.keyOk = true →
        (q.ck.held = false → opens c 6 4 0) ∧
        (q.ck.held = true → recordOf q.ck q.cm.moduleId step = none → ended c 6) ∧
        (∀ x, q.ck.held = true → recordOf q.ck q.cm.moduleId step = some x → opens c 7 2 (headerAddr x.gen))))

/-- R28, R228, R298, R331, R357, R373, R377, R379, R381, R416, R418, R423, R438: CARDS, with the power readings at the session's grade, and PASSES report what a session sees. ROTATE places a rotation of
every field of its partition under a pass of each; RETRAIN takes a pass and, at the next bell, starts a FAILED or darkened link again from DARK; WIPE, whose answer names the bell at which it begins, and RETURN ask for a wipe, RETURN
only without a plan; MARGIN measures a tile or group that seats no running core; NETCFG sets the VLAN and whether generation 2 is served; CANCEL
leaves the sealed state. What an activity holds is BUSY.
Where the manual leaves a point open its clauses follow log 17. -/
def Obligations.HealthAndMaintenanceAct : Prop :=
  ∀ (s : State) (r : Req) (i : Nat) (k : Session),
    let f := reqField r
    let q := s.seat f
    let wrong (c : Instr) : Prop := Replies c s r stWrongState (s.wrongDetail f) .empty
    (∀ kind st low, Admitted s r i k 7 1 .any → r.expert = true ∨ (kind = 0 ∧ st = 0 ∧ low = 0) →
      let cards (u : State) : Body := .bytes ((k.view r.part).flatMap (fun g => s.cardRecords g kind st low) ++ u.powerBytes k)
      Replies (.healthCards r kind st low none) s r stOk 0 (cards s) ∧
      ∀ x : BitVec 8, (139 < x.toNat → Replies (.healthCards r kind st low (some x)) s r stBadField s.freshWord .empty) ∧
        (x.toNat ≤ 139 → k.owner = true → s.px.service = true → Does (.healthCards r kind st low (some x)) s r stOk 0 (cards { s with pw := { s.pw with fineSel := x } }) (fun t =>
          UnitsKept s t ∧ SeatsKept s t ∧ t.pw = { s.pw with fineSel := x })) ∧
        (x.toNat ≤ 139 → k.owner = false ∨ s.px.service = false → Does (.healthCards r kind st low (some x)) s r stDenied (opDetail 7 1) .empty (fun t =>
          UnitsKept s t ∧ t.pw = s.pw))) ∧
    (Admitted s r i k 7 2 .any → Replies (.healthPasses r) s r stOk 0
      (.words (((k.view r.part).map hmBase ++ (if r.part = 7 ∧ k.owner = true then [hmCoordBase] else [])).flatMap (fun b =>
        ([8] ++ (List.range 34).map (fun n => 0x100 + 8 * n)).map (fun o => ((s.admitted r k).readReg (b + o)).getD 0))))) ∧
    (∀ bell rate, Admitted s r i k 8 1 .boundOwner → r.expert = true ∨ (bell = 0 ∧ rate = 0) →
      let c : Instr := .maintRotate r bell rate
      let fs := s.seatFields f
      (r.part = 7 ∨ (r.expert = true ∧ rate = 0) → Replies c s r stBadField s.freshWord .empty) ∧
      (r.part ≠ 7 → r.expert = true → rate ≠ 0 → bell ≤ q.tt.bell → Replies c s r stTooLate q.tt.bell .empty) ∧
      (∀ g, r.part ≠ 7 → r.expert = false ∨ (rate ≠ 0 ∧ q.tt.bell < bell) → fs.find? (fun g => (s.field g).mc.oldLive) = some g →
        Does c s r stBusy (s.sweepHolder f g) .empty (fun t => t.mem = s.mem ∧ SeatsKept s t ∧ (g < 4 → (t.field g).hm.lastBusy = 2) ∧
          ∀ n p, (s.field g).hm.passes.find? (fun e => e.2.code == 2) = some (n, p) → s.sweepHolder f g = busyDetail n p)) ∧
      (r.part ≠ 7 → r.expert = false ∨ (rate ≠ 0 ∧ q.tt.bell < bell) → (∀ g ∈ fs, (s.field g).mc.oldLive = false) →
        (∀ g ∈ fs, (s.field g).hm.passes = []) → s.coord.passes = [] → s.coord.more = [] →
        Does c s r stOk 0 .empty (fun t => t.mem = s.mem ∧ t.cores = s.cores ∧ t.links = s.links ∧
          OnlySeat f { q with rotateAt := some (if r.expert then (bell, rate) else (q.tt.bell + 1, 1)) } s t ∧
          ∀ g ∈ fs, ∃ p, (t.field g).hm.passes = [(0, p)] ∧ p.code = 2 ∧ p.byHost = true))) ∧
    (∀ l, Admitted s r i k 8 2 .bound →
      let c : Instr := .maintRetrain r l
      let g := fieldOfLink l
      (24 ≤ l ∨ inTarget r g = false → Replies c s r stBadField s.freshWord .empty) ∧
      (l < 24 → inTarget r g = true → (s.link l).st ≠ .failed → (s.link l).combDark = false → wrong c) ∧
      (l < 24 → inTarget r g = true → (s.link l).st = .failed ∨ (s.link l).combDark = true →
        (s.field g).hm.passes = [] → s.coord.passes = [] → s.coord.more = [] → Does c s r stOk 0 .empty (fun t => t.mem = s.mem ∧
          t.cores = s.cores ∧ t.links = s.links ∧ OnlySeat g { s.seat g with atBell := (s.seat g).atBell ++ [.retrain l] } s t ∧
          ∃ p, (t.field g).hm.passes = [(0, p)] ∧ p.code = 3 ∧ p.resource = BitVec.ofNat 32 (l % 6)))) ∧
    (∀ l, l < 24 → (s.link l).st = .failed ∨ (s.link l).combDark = true → (s.link l).ops = [] →
      let t := s.retrainLink l
      (t.link l).st = .dark ∧ (t.link l).preset = false ∧
        (t.link l).combDark = ((s.link l).combDark && !s.pw.latch.getLsbD (fieldOfLink l)) ∧ (∀ j, j ≠ l → t.link j = s.link j)) ∧
    (Admitted s r i k 8 3 .boundOwner →
      (s.px.wipes = [] → Does (.maintWipe r) s r stOk (q.tt.bell + 1) .empty (fun t => t.mem = s.mem ∧ SeatsKept s t ∧ t.px.wipes = [{ scope := r.part }])) ∧
      (∀ w, s.px.wipes = [w] → w.scope = r.part → scopeFields w.scope ≠ [] → Does (.maintWipe r) s r stBusy
        (busyDetail 33 { code := 10, resource := w.scope.setWidth 32 }) .empty (fun t => t.mem = s.mem ∧ SeatsKept s t ∧ t.px = s.px))) ∧
    (∀ clock g u limits, Admitted s r i k 8 5 .owner → r.expert = true ∨ limits = 0 →
      let c : Instr := .maintMargin r clock g ⟨u, limits⟩
      let ts := if clock then [u] else (List.range 16).map (fun j => 16 * u + j)
      let n := if clock then 6 else 5
      let ok : Prop := g < 4 ∧ u < (if clock then 528 else 33) ∧ (r.part = 7 ∨ inTarget r g = true)
      (¬ ok → Replies c s r stBadField s.freshWord .empty) ∧
      (ok → s.measurable g ts = false → Replies c s r stWrongState (s.wrongDetail g) .empty) ∧
      (ok → s.measurable g ts = true → (s.field g).hm.passes = [] → s.coord.passes = [] → s.coord.more = [] → Does c s r stOk 0 .empty (fun t => t.mem = s.mem ∧ SeatsKept s t ∧
        (t.field g).hm.measuring = (s.field g).hm.measuring ++ [(n, u)] ∧
        ∃ p, (t.field g).hm.passes = [(0, p)] ∧ p.code = BitVec.ofNat 4 n ∧ p.resource = BitVec.ofNat 32 u))) ∧
    (∀ vlan gen2, Admitted s r i k 8 6 .owner → Does (.maintNetcfg r vlan gen2) s r stOk 0 .empty (fun t => UnitsKept s t ∧ SeatsKept s t ∧
      t.host.vlan = vlan ∧ t.host.gen2En = gen2)) ∧
    (Admitted s r i k 8 8 .owner → s.store.sealed = false →
      (∀ g, (List.range 4).find? (fun g => (s.seat g).plan.isSome) = some g → Replies (.maintReturn r) s r stWrongState (s.wrongDetail g) .empty) ∧
      ((∀ g, g < 4 → (s.seat g).plan = none) → s.px.wipes = [] → Does (.maintReturn r) s r stOk 0 .empty (fun t => t.mem = s.mem ∧ SeatsKept s t ∧
        t.px.wipes = [{ scope := 7, why := .sealing }] ∧ t.store = s.store))) ∧
    (Admitted s r i k 8 8 .owner → s.store.sealed = true → Does (.maintReturn r) s r stDenied (opDetail 8 8) .empty (fun t => UnitsKept s t)) ∧
    (Admitted s r i k 8 8 .owner →
      (r.expert = false → Replies (.returnCancel r) s r stBadField s.freshWord .empty) ∧
      (r.expert = true → s.store.sealed = false → wrong (.returnCancel r)) ∧
      (r.expert = true → s.store.sealed = true → Does (.returnCancel r) s r stOk 0 .empty (fun t => UnitsKept s t ∧ SeatsKept s t ∧
        t.store = { s.store with sealed := false })))

/-! ### Resets, dumps, wipes, boot -/

/-- R117, R118, R385 to R387, R389 to R391, R401: a rung asked for first has the dump of its fields collected, and is answered when that dump ends; inside a
reset of the same or a wider rung it is WRONG_STATE; an engine is an expert's to name. The end of the dump answers with its id and the rung acts: an
engine reset cancels its core's work, a link's clears its queues, a partition reset takes the plan away and gives the memory new keys, a context
reset waits for its bell, where the cores rest, the seat holds and the entry whose runs it cuts off is noted. A chip reset waits for the fetch or the end of its wait, and draws a fresh nonce.
Where the manual leaves a point open its clauses follow log 19. -/
def Obligations.ResetsCollectThenAct : Prop :=
  ∀ (s : State),
    (∀ (r : Req) (i : Nat) (k : Session), Admitted s r i k 8 4 .bound7 →
      let fs := if r.part = 7 then [0, 1, 2, 3] else partFields r.part.toNat
      let refused (c : Instr) : Prop := Replies c s r stBadField s.freshWord .empty
      let begins (c : Instr) (g : Rung) : Prop :=
        (∀ w, s.px.resets = [w] → (⟨g, r.part, r, none, false⟩ : ResetJob).inside w = true → Replies c s r stWrongState (s.wrongDetail (reqField r)) .empty) ∧
        (s.px.resets = [] → s.collecting fs = false → Waits c s (fun t => t.mem = s.mem ∧ t.cores = s.cores ∧ t.links = s.links ∧ SeatsKept s t ∧
          t.px.resets = [⟨g, r.part, r, some s.nextDump, false⟩] ∧
          ∀ f ∈ fs, ∃ d, (t.field f).hm.collecting = some d ∧ d.id = s.nextDump ∧ d.cause = rungCause g ∧ d.part = r.part))
      let engine (c : Instr) (ok : Prop) (g : Rung) : Prop := (r.expert = false ∨ r.part = 7 ∨ ¬ ok → refused c) ∧
        (r.expert = true → r.part ≠ 7 → ok → begins c g)
      (∀ c, engine (.resetEngineCore r c) (c < 2000 ∧ inTarget r (fieldOfCore c) = true) (.engineCore c)) ∧
      (∀ l, engine (.resetEngineLink r l) (l < 24 ∧ inTarget r (fieldOfLink l) = true) (.engineLink l)) ∧
      (∀ f ch, engine (.resetEngineChannel r f ch) (inTarget r f = true ∧ ch < 32) (.engineChannel f ch)) ∧
      (r.part = 7 → refused (.resetContext r) ∧ refused (.resetPartition r)) ∧
      (r.part ≠ 7 → begins (.resetContext r) .context ∧ begins (.resetPartition r) .partition ∧ refused (.resetChip r 0)) ∧
      (∀ n, r.expert = false → n ≠ 0 → refused (.resetChip r n)) ∧
      (∀ n, r.expert = true → 300 < n → refused (.resetChip r n)) ∧
      (∀ n, r.part = 7 → r.expert = true → n ≤ 300 → begins (.resetChip r n) (.chip n)) ∧
      (r.part = 7 → r.expert = false → begins (.resetChip r 0) (.chip 30))) ∧
    (∀ (f : Nat) (d : Dump) (hung : List Nat) (w : ResetJob) (i : Nat) (k : Session), f < 4 → (s.field f).hm.collecting = some d → d.req = none →
      s.px.resets = [w] → w.dumpId = some d.id → w.dumped = false → s.session w.req.sess = some (i, k) → k.gen2 = false →
      let acts (p : State → Prop) : Prop := Does (.dumpCollectDone f hung) s w.req stOk (BitVec.ofNat 64 d.id) .empty (fun t =>
        t.px.resets = [{ w with dumped := true }] ∧ p t)
      let g := reqField w.req
      (∀ c, c < 2000 → w.rung = .engineCore c → acts (fun t => (t.core c).resetting = true ∧
        (t.core c).mode = (if (s.core c).codeLen = 0 then .noLesson else .resting) ∧
        (t.core c).arrQ = [] ∧ (t.core c).vecQ = [] ∧ (t.core c).dmaQ = [] ∧ ((s.seat (fieldOfCore c)).tt.hold = false →
          (t.seat (fieldOfCore c)).tt.cur.getLsbD 0 = true))) ∧
      (∀ l, l < 24 → w.rung = .engineLink l → acts (fun t => (t.link l).kept = [] ∧ (t.link l).lctl = [] ∧ (t.link l).answer = none ∧
        (t.link l).resetting = true ∧ (∀ a ∈ (t.link l).arrivals, a.got = false) ∧ t.mem = s.mem ∧ ∀ j, j ≠ l → t.link j = s.link j)) ∧
      (∀ h ch, w.rung = .engineChannel h ch → (∀ l ∈ linksOfField h, (s.link l).ops = []) → acts (fun t => t.mem = s.mem ∧ t.cores = s.cores)) ∧
      (w.rung = .context → acts (fun t => t.mem = s.mem ∧ t.cores = s.cores ∧ (g < 4 → (t.seat g).ctxReset = true))) ∧
      (g < 4 → w.rung = .partition → ∃ t, exec (.dumpCollectDone f hung) s = .next t ∧ (t.seat g).plan = none ∧ (t.seat g).running = false ∧
        (t.seat g).tt.bell = (s.seat g).tt.bell ∧ ∀ x ∈ s.seatFields g, (t.field x).mc.gen = some (s.px.gens + 1).toNat) ∧
      (∀ n, n ≠ 0 → w.rung = .chip n → acts (fun t => t.mem = s.mem ∧ t.cores = s.cores)) ∧
      (w.rung = .chip 0 → ∃ t, exec (.dumpCollectDone f hung) s = .next t ∧ t.mem = [] ∧ t.px.stage = 0 ∧ t.px.cause = 2)) ∧
    (∀ f, f < 4 →
      ((s.seat f).ctxReset = false → exec (.contextResetEffect f) s = .next s) ∧
      ((s.seat f).ctxReset = true → ∃ t, exec (.contextResetEffect f) s = .next t ∧ (t.seat f).tt.hold = true ∧ (t.seat f).running = false ∧
        (t.seat f).stop = none ∧ (t.seat f).ctxReset = false ∧ (t.seat f).ctxHeld = ((s.seat f).running || (s.seat f).ctxHeld) ∧ (t.seat f).plan = (s.seat f).plan ∧
        (t.seat f).lateEntry = (if (s.seat f).tt.hold then (s.seat f).lateEntry else some (s.seat f).tt.entry) ∧
        (t.seat f).tt.bell = (s.seat f).tt.bell)) ∧
    (∀ (f : Nat) (w : ResetJob), s.px.resets = [w] → w.dumped = true → inTarget w.req f = true →
      (w.rung = .partition → ∃ t, exec (.resetRungComplete f) s = .next t ∧ t.px.resets = [] ∧ UnitsKept s t ∧ SeatsKept s t) ∧
      (∀ l, w.rung = .engineLink l → l < 24 → ∃ t, exec (.resetRungComplete f) s = .next t ∧ t.px.resets = [] ∧
        t.link l = { s.link l with resetting := false } ∧ t.mem = s.mem) ∧
      (w.rung = .context → exec (.resetRungComplete f) s = .next s)) ∧
    (s.px.resets = [] → exec .chipResetWaitExpiry s = .next s) ∧
    (∀ w ∈ s.px.resets, w.waits = true → ∃ t, exec .chipResetWaitExpiry s = .next t ∧ t.mem = [] ∧ t.cores = [] ∧ t.seats = [] ∧ t.px.stage = 0 ∧
      t.px.cause = 2 ∧ t.px.resets = [] ∧ t.host.sessions = [] ∧ t.store.serial = s.store.serial ∧ t.store.owner = s.store.owner ∧
      t.px.minSvn = s.px.minSvn ∧ t.pw = s.pw ∧ t.hmClk = 0 ∧ t.px.nonce = s.freshBits)

/-- R391 to R393, R396: COLLECT starts a dump of its fields, each share under its own seat's counts, BUSY while one of them collects, with a checked recipe in expert form, whose first
bad field is named by its payload offset; its end is answered
with its id, and every field that collected it keeps a share within its buffer. LIST names the dumps held, FETCH gives a piece of the shares laid
end to end, DELETE frees a dump.
Where the manual leaves a point open its clauses follow log 19. -/
def Obligations.DumpsAreKeptAndFetched : Prop :=
  ∀ (s : State) (r : Req) (i : Nat) (k : Session),
    (∀ recipe, Admitted s r i k 9 1 .bound7 → r.expert = true ∨ recipe = [] →
      let c : Instr := .dumpCollect r recipe
      let fs := dumpFields r.part
      (∀ o, r.expert = true → recipeBad recipe = some o → Replies c s r stBadField (BitVec.ofNat 64 o) .empty) ∧
      (r.expert = false ∨ recipeOk recipe = true → s.collecting fs = true → Replies c s r stBusy 0 .empty) ∧
      (r.expert = false ∨ recipeOk recipe = true → s.collecting fs = false → Waits c s (fun t => t.mem = s.mem ∧ t.cores = s.cores ∧
        t.links = s.links ∧ SeatsKept s t ∧ ∀ f ∈ fs, ∃ d, (t.field f).hm.collecting = some d ∧ d.id = s.nextDump ∧ d.cause = 1 ∧ d.req = some r ∧
          d.bell = (s.seat f).tt.bell ∧ d.committed = (s.seat f).cm.committed ∧ d.live = (s.seat f).cm.live ∧ (r.expert = true → d.recipe = recipe)))) ∧
    (∀ (f : Nat) (d : Dump) (hung : List Nat), f < 4 → (s.field f).hm.collecting = some d → d.req = some r → s.px.resets = [] →
      s.session r.sess = some (i, k) → k.gen2 = false → Does (.dumpCollectDone f hung) s r stOk (BitVec.ofNat 64 d.id) .empty (fun t =>
        t.mem = s.mem ∧ t.cores = s.cores ∧ t.links = s.links ∧ SeatsKept s t ∧ (t.field f).hm.collecting = none ∧
        ∃ x rest, (t.field f).hm.dumps = rest ++ [x] ∧ x.id = d.id ∧ x.hung = hung ∧
          x.data.length + (rest.map (fun y => y.data.length)).sum ≤ Nat.max dumpBuffer x.data.length)) ∧
    (Admitted s r i k 9 2 .bound7 → ∃ ids : List Nat, ids.Nodup ∧
      (∀ n, n ∈ ids ↔ ∃ f, f < 4 ∧ ∃ d ∈ (s.field f).hm.dumps, d.part = r.part ∧ d.id = n) ∧
      Replies (.dumpList r) s r stOk 0 (.words (ids.flatMap (fun n => [BitVec.ofNat 64 n,
        (((s.shares r.part n).map (fun (d : Dump) => d.cause)).headD 0).setWidth 64, BitVec.ofNat 64 ((s.shares r.part n).map (fun (d : Dump) => d.data.length)).sum])))) ∧
    (∀ id off, Admitted s r i k 9 3 .bound7 →
      let bytes := (s.shares r.part id).flatMap (fun (d : Dump) => d.data)
      (bytes.length ≤ off → Replies (.dumpFetch r id off) s r stBadField s.freshWord .empty) ∧
      (off < bytes.length → off + 0x100000 < bytes.length → Replies (.dumpFetch r id off) s r stOk 0 (.bytes ((bytes.drop off).take 0x100000))) ∧
      (off < bytes.length → bytes.length ≤ off + 0x100000 → (∀ w ∈ s.px.resets, w.waits = false) →
        Does (.dumpFetch r id off) s r stOk 0 (.bytes (bytes.drop off)) (fun t => t.mem = s.mem ∧ SeatsKept s t ∧
          ∀ f, f < 4 → ∀ d ∈ (t.field f).hm.dumps, d.id = id → d.part = r.part → d.fetched = true)) ∧
      (∀ w ∈ s.px.resets, off < bytes.length → bytes.length ≤ off + 0x100000 → w.waits = true → w.dumpId = some id →
        ∃ t, exec (.dumpFetch r id off) s = .next t ∧ t.mem = [] ∧ t.px.stage = 0 ∧ t.px.cause = 2)) ∧
    (∀ id, Admitted s r i k 9 4 .bound7 →
      (s.shares r.part id = [] → Replies (.dumpDelete r id) s r stBadField s.freshWord .empty) ∧
      (s.shares r.part id ≠ [] → Does (.dumpDelete r id) s r stOk 0 .empty (fun t => t.mem = s.mem ∧ SeatsKept s t ∧
        ∀ f, f < 4 → (t.field f).hm.dumps = (s.field f).hm.dumps.filter (fun d => !(d.id == id && d.part == r.part)))))

/-- R25, R341, R377, R401, R413, R418 to R420, R422, R423: a wipe asked for starts at a bell, where it takes its pass: its cores' memory reads zero, its plans go, its bell counts stay, its
partition takes a fresh epoch with no old one, and PX_WIPE shows stage 4. At its end every byte of LPDDR in its scope reads zero, its counters and
dumps are gone, its pass is returned, and what follows is done: a new layout of its fields, with every session bound to a changed partition ended, the sealed state with no tenant session left, or factory mode without an owner. A wipe that
was not asked for does nothing.
Where the manual leaves a point open its clauses follow log 4 and 17. -/
def Obligations.WipesClearTheirScope : Prop :=
  ∀ (s : State) (p : BitVec 3) (w : WipeJob),
    (s.px.wipes.find? (fun x => x.scope == p && !x.started) = none → exec (.wipeStart p) s = .next s) ∧
    (s.px.wipes.find? (fun x => x.scope == p && x.started) = none → exec (.wipeLpddrDone p) s = .next s) ∧
    (s.px.wipes.find? (fun x => x.scope == p && !x.started) = some w → ∃ t, exec (.wipeStart p) s = .next t ∧
      t.px.wStage = 4 ∧ t.px.wScope = p ∧ t.px.wBoot = false ∧ t.px.wPercent.toNat ≤ 100 ∧ t.store.wipePending = true ∧
      t.px.wipes = s.px.wipes.map (fun x => if x = w then { w with started := true } else x) ∧
      (∀ f ∈ scopeFields p, ∀ x, (deskBase (500 * f) ≤ x ∧ x < deskBase (500 * f) + 500 * 0x800000) ∨
        (slateBase (500 * f) ≤ x ∧ x < slateBase (500 * f) + 500 * 0x80000) → Memory.read t.mem x = 0) ∧
      (∀ f ∈ scopeFields p, s.seatIx f = f → (t.seat f).plan = none ∧ (t.seat f).running = false ∧ (t.seat f).wiping = true ∧
        (t.seat f).tt.bell = (s.seat f).tt.bell) ∧
      (p ≠ 7 → s.partLive p.toNat = true → w.why = .request → ∀ f ∈ scopeFields p, (t.field f).mc.oldLive = false ∧
        (t.field f).mc.sweeping = false ∧ (t.field f).mc.epoch = (s.field ((scopeFields p).headD 0)).mc.epoch + 1) ∧
      (p ≠ 7 → ∀ f ∈ scopeFields p, ∃ x, Tab.find (t.field f).hm.passes 33 = some x ∧ x.code = 10) ∧
      (p = 7 → ∃ x, Tab.find t.coord.passes 33 = some x ∧ x.code = 10)) ∧
    (s.px.wipes.find? (fun x => x.scope == p && x.started) = some w → ∃ t, exec (.wipeLpddrDone p) s = .next t ∧
      (∀ f ∈ scopeFields p, (∀ x, f * lpField ≤ x → x < (f + 1) * lpField → Memory.read t.mem x = 0) ∧ (t.field f).hm.dumps = [] ∧
        ∀ a, counterOwner a = f → t.counter a = {}) ∧
      t.px.wipes = s.px.wipes.filter (fun x => x != w) ∧
      ((∀ x ∈ s.px.wipes, x ≠ w → x.started = false) → t.px.wStage = 0 ∧ t.store.wipePending = false) ∧
      (w.why = .request → t.host.layout = s.host.layout ∧ ∀ f ∈ scopeFields p, s.seatIx f = f → (t.seat f).wiping = false ∧ (t.seat f).vlog = []) ∧
      (w.why = .sealing → t.store.sealed = true ∧ ((∀ j x, j < 4 → s.slot j = some x → s.session x.id = some (j, x)) →
        ∀ j x, j < 4 → t.slot j = some x → x.owner = true)) ∧
      (w.why = .unlock → t.px.factoryOpened = true ∧ t.px.secrets = false ∧ t.store.owner = none ∧ t.store.sealed = false ∧ t.host.grants = []) ∧
      (p ≠ 7 → ∀ f ∈ scopeFields p, Tab.find (t.field f).hm.passes 33 = none) ∧ (p = 7 → Tab.find t.coord.passes 33 = none) ∧
      (∀ codes r, w.why = .layout codes r → (∀ j x, j < 4 → s.slot j = some x → s.session x.id = some (j, x)) →
        ∀ j x, j < 4 → t.slot j = some x → x.bound = true →
          ∀ f ∈ s.changed (mergeLayout s.host.layout codes (scopeFields p)), s.seatIx f = f → x.part ≠ BitVec.ofNat 3 (s.partOf f)) ∧
      (∀ codes r i k, w.why = .layout codes r → t.host.layout = mergeLayout s.host.layout codes (scopeFields p) ∧ (s.session r.sess = some (i, k) → k.owner = true → k.gen2 = false →
        (∀ j x, j < 4 → s.slot j = some x → s.session x.id = some (j, x)) → Answered t r stOk 0 .empty)))

/-- R356, R403 to R405, R421: the boot ROM solicits the boot group and IPv4 broadcast, reads the manifest and then the image in pieces of at most 8,192 bytes, and each failed check takes it to stage 4 with its reason
until its retry; a manifest is accepted only if it meets every check of R405; an image that matches its digest and length starts the boot wipe, and
the end of that wipe leaves memory zero and starts to serve Slate. A READ unanswered is sent again, eight tries in all. Nothing of this happens in
another stage.
Where the manual leaves a point open its clauses follow log 10 and 20. -/
def Obligations.BootRunsItsStages : Prop :=
  ∀ (s : State), s.romRuns = true →
    let at' (c : Instr) (n : BitVec 3) (x : OutFrame) (p : State → Prop) : Prop := ∃ t, exec c s = .next t ∧ t.px.stage = n ∧
      t.host.sent = x :: s.host.sent ∧ t.mem = s.mem ∧ t.store = s.store ∧ p t
    let fails (c : Instr) (why : BitVec 5) : Prop := ∃ t, exec c s = .next t ∧ t.px.stage = 4 ∧ t.px.reason = why ∧ t.px.manifest = none ∧
      t.host = s.host ∧ t.mem = s.mem
    let st := s.px.stage
    (∀ m rom low, manifestFault m rom low = none ↔ m.magicOk = true ∧ m.reservedOk = true ∧ m.svn ≤ 64 ∧ m.stepping = 0xA1 ∧ m.keyDigest = rom ∧
      m.edOk = true ∧ m.mldsaOk = true ∧ low ≤ m.svn) ∧
    let asked (t : State) : Prop := t.host.dests = [udpTo 0xFF020000000000000000000000005A32#128 49301, udpTo 0xFFFFFFFFFFFF#128 49301]
    let piece (manifest : Bool) (off : Nat) : OutFrame := .bootRead manifest off (Nat.min 8192 ((if manifest then 5445 else s.px.imageLen) - off))
    (st ≤ 1 → at' .bootSolicit 1 (.bootSolicit s.store.serial s.px.minSvn) (fun t => asked t ∧ (st = 0 → s.px.certsOk = false → t.px.reason = 9))) ∧
    (1 < st → exec .bootSolicit s = .next s) ∧
    (∀ n m, (st ≠ 1 → exec (.bootAdvertise n m) s = .next s) ∧ (st = 1 → m ≠ 5445 → fails (.bootAdvertise n m) 1) ∧
      (st = 1 → m = 5445 → at' (.bootAdvertise n m) 2 (piece true 0) (fun t => t.px.imageLen = n ∧ t.px.got = 0))) ∧
    (∀ data ed ml,
      let c : Instr := .bootReadResponse ⟨data, ed, ml⟩
      let b := s.px.buf ++ data
      let x : Manifest := { bytes := b.take 5445, edOk := ed, mldsaOk := ml }
      (st = 2 → b.length < 5445 → at' c 2 (piece true b.length) (fun t => t.px.buf = b)) ∧
      (st = 2 → 5445 ≤ b.length → manifestFault x s.px.romKeys s.px.minSvn = none →
        at' c 3 (piece false 0) (fun t => t.px.manifest = some x ∧ t.px.buf = [])) ∧
      (∀ e, st = 2 → 5445 ≤ b.length → manifestFault x s.px.romKeys s.px.minSvn = some e → fails c e) ∧
      (∀ m, st = 3 → s.px.manifest = some m →
        (b.length < s.px.imageLen → at' c 3 (piece false b.length) (fun t => t.px.buf = b)) ∧
        (s.px.imageLen ≤ b.length → Config.sha384 b ≠ m.imageDigest → fails c 7) ∧
        (s.px.imageLen ≤ b.length → Config.sha384 b = m.imageDigest → b.length ≠ m.imageLen → fails c 8) ∧
        (s.px.imageLen ≤ b.length → Config.sha384 b = m.imageDigest → b.length = m.imageLen → ∃ t, exec c s = .next t ∧ t.px.stage = 5 ∧
          t.px.wStage = 4 ∧ t.px.wScope = 7 ∧ t.px.wBoot = true ∧ t.store.wipePending = true ∧ t.mem = s.mem)) ∧
      (st ≠ 2 → st ≠ 3 ∨ s.px.manifest = none → exec c s = .next s)) ∧
    (st = 2 ∨ st = 3 → s.px.tries < 7 → at' .bootReadRetry st (piece (st == 2) s.px.got) (fun t => t.px.tries = s.px.tries + 1)) ∧
    (st = 2 ∨ st = 3 → 7 ≤ s.px.tries → ∃ t, exec .bootReadRetry s = .next t ∧ t.px.stage = 1 ∧ t.px.manifest = none ∧ t.host = s.host) ∧
    (st ≠ 2 → st ≠ 3 → exec .bootReadRetry s = .next s) ∧
    (st = 4 → at' .bootRetryTimer 1 (.bootSolicit s.store.serial s.px.minSvn) asked) ∧
    (st ≠ 4 → exec .bootRetryTimer s = .next s) ∧
    (st ≠ 5 → exec .bootWipeDone s = .next s) ∧
    (st = 5 → ∃ t, exec .bootWipeDone s = .next t ∧ t.px.stage = 6 ∧ t.px.wStage = 0 ∧ t.store.wipePending = false ∧
      ∀ f, f < 4 → ∀ x, (f * lpField ≤ x ∧ x < (f + 1) * lpField) ∨ (deskBase (500 * f) ≤ x ∧ x < deskBase (500 * f) + 500 * 0x800000) ∨
        (slateBase (500 * f) ≤ x ∧ x < slateBase (500 * f) + 500 * 0x80000) → Memory.read t.mem x = 0)

/-! ### Tokens, attestation, generation 2 -/

/-- R408, R410 to R412, R417, R422, R423: a token is accepted only if its format, kind, signer, duration, serial, challenge, signatures, generation and
the module's state allow it; else it is answered AUTH_FAILED with its RESULT shown and no owner, mode or state changes. An accepted one starts or
ends service mode, asks for the wipe that opens the module to the factory, leaves the sealed state, or installs the owner it names, both public keys and their hash, at an owner's
FINISH with the session under the new keys. A token of kind 2, 3 or 4 draws a fresh challenge either way. Reports and certificates answer any
session.
Where the manual leaves a point open its clauses follow log 10 and 20. -/
def Obligations.TokensAndReports : Prop :=
  ∀ (s : State),
    (∀ (t : Token) (kind : BitVec 8) (ok : Bool), s.tokenResult t kind ok = 1 ↔
      t.formatOk = true ∧ t.kind = kind ∧ t.signer = (if kind = 5 then 1 else 0) ∧ t.duration ≤ 86400 ∧ (kind = 2 ∨ t.duration = 0) ∧
        t.serial = s.store.serial ∧ t.challenge = (if kind = 2 ∨ kind = 3 ∨ kind = 4 then s.px.challenge else 0) ∧ t.sigsOk = true ∧
        ((kind = 2 ∨ kind = 3 ∨ kind = 4) ∨ s.store.ownerGen < t.ownerGen) ∧ ok = true) ∧
    (∀ (r : Req) (i : Nat) (k : Session) (x : Token), Admitted s r i k 8 7 .owner →
      let noTenant : Bool := (s.sessionsWith (fun k => !k.owner && k.bound)).isEmpty
      let drawn (t : State) (n : BitVec 4) : Prop := t.px.tokKind = x.kind.setWidth 3 ∧ t.px.tokResult = n ∧ UnitsKept s t ∧
        t.px.challenge = (if x.kind = 2 ∨ x.kind = 3 ∨ x.kind = 4 then s.freshBits else s.px.challenge)
      let refused (c : Instr) (kind : BitVec 8) (ok : Bool) : Prop := s.tokenResult x kind ok ≠ 1 →
        Does c s r stAuthFailed 0 .empty (fun t => drawn t (s.tokenResult x kind ok) ∧ t.store = s.store ∧ t.px.service = s.px.service ∧ t.px.wipes = s.px.wipes)
      let taken (c : Instr) (kind : BitVec 8) (ok : Bool) (p : State → Prop) : Prop := s.tokenResult x kind ok = 1 →
        Does c s r stOk 0 .empty (fun t => t.px.tokResult = 1 ∧ t.mem = s.mem ∧ SeatsKept s t ∧ p t)
      refused (.tokenServiceMode r x) 2 noTenant ∧
      taken (.tokenServiceMode r x) 2 noTenant (fun t => drawn t 1 ∧ t.px.service = decide (x.duration ≠ 0) ∧ t.px.serviceLeft.toNat = x.duration) ∧
      refused (.tokenFactoryUnlock r x) 3 s.px.wipes.isEmpty ∧
      taken (.tokenFactoryUnlock r x) 3 s.px.wipes.isEmpty (fun t => t.px.wipes = [{ scope := 7, why := .unlock }] ∧ t.store = s.store) ∧
      refused (.tokenReinstatement r x) 4 s.store.sealed ∧
      taken (.tokenReinstatement r x) 4 s.store.sealed (fun t => drawn t 1 ∧ t.store = { s.store with sealed := false }) ∧
      refused (.tokenOwnerTransfer r x) 5 s.store.owner.isSome ∧
      taken (.tokenOwnerTransfer r x) 5 s.store.owner.isSome (fun t => drawn t 1 ∧ t.host.grants = s.host.grants ∧
        t.store = { s.store with owner := some x.keyHash, ownerKeys := x.ownerKeys, ownerGen := x.ownerGen })) ∧
    (∀ (r : Req) (x : Token) (cred : Cred) (h : Handshake), s.px.stage = 6 → s.tagOk r.vlan = true → s.session r.sess = none →
      s.host.pending.find? (fun x => x.id == r.sess) = some h → s.wipingTarget h.part = false → r.seq = 1 → h.owner = true →
      let c : Instr := .ownershipToken r x cred
      (s.tokenResult x 1 true ≠ 1 → Does c s r stAuthFailed 0 .empty (fun t => t.store = s.store ∧ t.host.sessions = s.host.sessions ∧
        t.px.tokResult = s.tokenResult x 1 true ∧ UnitsKept s t)) ∧
      (∀ j, s.tokenResult x 1 true = 1 → cred.sigsOk = true → cred.keyHash = x.keyHash → h.part = 7 ∨ s.partLive h.part.toNat = true →
        s.ownerSlot = none → h.part = 7 ∨ s.boundSlot h.part = none → s.freeSlot = some j → Does c s r stOk 0 .empty (fun t =>
          t.store = { s.store with owner := some x.keyHash, ownerKeys := x.ownerKeys, ownerGen := x.ownerGen } ∧ UnitsKept s t ∧ SeatsKept s t ∧
          ∃ k, t.slot j = some k ∧ k.id = h.id ∧ k.owner = true))) ∧
    (s.px.service = true → ∃ t, exec .serviceModeExpiry s = .next t ∧ t.px.service = false ∧ t.px.serviceLeft = 0 ∧ t.host = s.host ∧ t.store = s.store) ∧
    (s.px.service = false → exec .serviceModeExpiry s = .next s) ∧
    (∀ (r : Req) (i : Nat) (k : Session) (nonce : BitVec 256), Admitted s r i k 10 1 .any →
      let b := s.reportBytes nonce s.freshBits r.part
      Replies (.attestReport r nonce) s r stOk 0 (.report b (idSignature (reportHash b)))) ∧
    (∀ (r : Req) (i : Nat) (k : Session), Admitted s r i k 10 2 .any → Replies (.attestCerts r) s r stOk 0 (.bytes (Config.certChains s.store.serial)))

/-- R357, R358, Table 11-8: generation 2 is served only while NETCFG allows it; OPEN gives a session bound to {0,1,2,3} and seats it as module 0
without a partner, a pool region or a checkpoint. Each of its commands stands for a generation 3 one in basic form on that partition, and is answered under its own numbers with
the status of Table 11-8: 0 done, 2 for a target it cannot name, an unknown opcode and a malformed frame, 3 for the chip, 4 otherwise refused.
Every answer goes to the request's source.
Where the manual leaves a point open its clauses follow log 10 and 15. -/
def Obligations.Generation2StandsForGeneration3 : Prop :=
  ∀ (s : State) (q : Req2) (i : Nat) (k : Session),
    let f := s.seat 0
    let r : Req := { sess := q.sess, seq := seq2 k.h q.seq, part := 6, cmd := q.op, vlan := q.vlan, src := q.src }
    let says' (c : Instr) (st : BitVec 8) (b : Body → Prop) (p : State → Prop) : Prop := ∃ t, exec c s = .next t ∧ Answered2 t q st b ∧ p t
    let none' (b : Body) : Prop := b = .empty
    let quiet (t : State) : Prop := UnitsKept s t ∧ SeatsKept s t
    let rests : Prop := s.atRest 0 = true ∧ f.cm.seatState ≠ 1
    (∀ c, gen2Of c = some q →
      (s.px.stage ≠ 6 ∨ s.host.gen2En = false → exec c s = .next s) ∧
      (s.px.stage = 6 → s.host.gen2En = true → s.tagOk q.vlan = false → exec c s = .next (s.bump (prBase 0 + 0x40))) ∧
      (s.px.stage = 6 → s.host.gen2En = true → s.tagOk q.vlan = true → s.session q.sess = none ∨ (s.session q.sess = some (i, k) ∧ k.gen2 = false) →
        exec c s = .next (s.bump (prBase 0 + 0x38)))) ∧
    (∀ cred nonce share j, s.px.stage = 6 → s.host.gen2En = true → s.px.certsOk = true → s.wipingTarget 6 = false → s.tagOk q.vlan = true →
      let c : Instr := .gen2Open q cred ⟨nonce, share⟩
      let keys := Config.sessionKeys nonce share s.freshBits
      let fails (st : BitVec 16) : Prop := status2 st = 4 ∧ exec c s = .next (s.refuse2 q keys st) ∧
        (s.refuse2 q keys st).host.sent = .gen2 0 0 4 .empty :: s.host.sent ∧ (s.refuse2 q keys st).host.dests = [q.src] ∧ quiet (s.refuse2 q keys st)
      (s.partLive 6 = false → fails stWrongState) ∧
      (s.partLive 6 = true → (s.boundSlot 6).isSome = true ∨ s.px.service = true → fails stRoleTaken) ∧
      (s.partLive 6 = true → s.boundSlot 6 = none → s.px.service = false → s.cred2 cred = false → fails stAuthFailed) ∧
      (s.partLive 6 = true → s.boundSlot 6 = none → s.px.service = false → s.cred2 cred = true → s.freeSlot = none →
        fails stSessionLimit) ∧
      (s.partLive 6 = true → s.boundSlot 6 = none → s.px.service = false → s.cred2 cred = true → s.freeSlot = some j →
        s.host.pending.length ≤ 4 → f.ck.state = 0 → ∃ t x, exec c s = .next t ∧ t.slot j = some x ∧ x.gen2 = true ∧ x.bound = true ∧ x.part = 6 ∧ x.owner = false ∧ s.idTaken x.id = false ∧
          t.host.sent = .gen2 x.id 0 0 .empty :: s.host.sent ∧ UnitsKept s t ∧
          OnlySeat 0 { f with cm := { f.cm with moduleId := 0, seatState := 4, partner := 0, partnerOk := false },
                              ck := { genSize := f.ck.genSize, off := true } } s t)) ∧
    (Admitted2 s q i k 1 4 .any → says' (.gen2Close q) 0 none' (fun t => t.slot i = none ∧ UnitsKept s t)) ∧
    (Admitted2 s q i k 1 5 .any → says' (.gen2Info q) 0 (fun b => b = .words ((s.admitted r k).statusWords 6)) quiet) ∧
    (∀ p n, Admitted2 s q i k 3 1 .bound →
      (¬ rests → says' (.gen2Load q (.start p n)) 4 none' quiet) ∧
      (rests → says' (.gen2Load q (.start p n)) 0 none' (fun t => UnitsKept s t ∧
        OnlySeat 0 { f with staging := some { plan := p, len := n, addr := p.regions.staging } } s t))) ∧
    (∀ x o bs, Admitted2 s q i k 3 2 .bound → rests → f.staging = some x → o + bs.length ≤ x.len →
      says' (.gen2Load q (.data o bs)) 0 none' (fun t => (t.seat 0).plan = f.plan ∧
        (t.seat 0).staging = some { x with arrived := addSpan x.arrived o (o + bs.length) } ∧
        t.mem = (match x.addr with | some a => (s.libWrite 0 (a + o) bs).mem | none => s.mem))) ∧
    (∀ x, Admitted2 s q i k 3 3 .bound → rests → f.staging = some x → spansCover x.arrived x.len = true →
      (planFault x.plan (s.seatFields 0) = none → ∃ t, exec (.gen2Load q .commit) s = .next t ∧ (t.seat 0).plan = some x.plan ∧
        (t.seat 0).tt.hold = true ∧ (t.seat 0).tt.bell = f.tt.bell) ∧
      (∀ e, planFault x.plan (s.seatFields 0) = some e → says' (.gen2Load q .commit) 2 none' (fun t => UnitsKept s t ∧ (t.seat 0).plan = f.plan))) ∧
    (∀ o bs, Admitted2 s q i k 3 6 .bound → f.plan.isSome = true → s.atRest 0 = true → o + bs.length ≤ f.shardLen →
      says' (.gen2Weights q (.data o bs)) 0 none' (fun t => t.mem = (s.libWrite 0 (f.committedBase + o) bs).mem)) ∧
    (∀ p step, Admitted2 s q i k 3 7 .bound → f.plan = some p → s.atRest 0 = true →
      says' (.gen2Weights q (.commit step)) 0 none' (fun t => UnitsKept s t ∧ (t.seat 0).cm.committed = step ∧ (t.seat 0).cm.firstStep = true)) ∧
    (∀ p h, Admitted2 s q i k 3 4 .bound → f.plan = some p → s.headerBad 0 false p h = none → h.inputLen ≠ 0 →
      (f.cm.ownSlot (h.step.toNat % 3)).st = .free → (∀ z ∈ f.cm.hist, z.1 ≠ h.step) → says' (.gen2Feed q (.start h)) 0 none' (fun t =>
        (t.seat 0).cm.ownSlot (h.step.toNat % 3) = { st := .filling, hdr := some h })) ∧
    (∀ step o bs h, Admitted2 s q i k 3 5 .bound → f.plan.isSome = true →
      let x := f.cm.ownSlot (step.toNat % 3)
      let spans := addSpan x.arrived o (o + bs.length)
      x.holds step = true → x.st = .filling → x.hdr = some h → o + bs.length ≤ h.inputLen → spansCover spans h.inputLen = false →
        says' (.gen2Feed q (.data step o bs)) 0 none' (fun t => (t.seat 0).cm.ownSlot (step.toNat % 3) = { x with arrived := spans } ∧
          t.mem = (s.libWrite 0 (f.satchelBase (step.toNat % 3) + 64 + o) bs).mem)) ∧
    (∀ p, Admitted2 s q i k 4 1 .bound → f.plan = some p →
      (f.noShard = true → says' (.gen2Go q) 4 none' quiet) ∧
      (f.cm.partnerOk = true → says' (.gen2Go q) 4 none' quiet) ∧
      (f.noShard = false → f.cm.partnerOk = false →
        let e := (s.admitted r k).basicEntry 0 p
        says' (.gen2Go q) 0 none' (fun t => t.mem = s.mem ∧ t.cores = s.cores ∧ t.links = s.links ∧
          t.seat 0 = { e.1.seat 0 with start := some { bell := basicBell f.tt.bell, entry := e.2 } }))) ∧
    (Admitted2 s q i k 4 2 .bound → f.plan.isSome = true → says' (.gen2Halt q) 0 none' (fun t => UnitsKept s t ∧
      OnlySeat 0 { f with stop := some .nextVerdict } s t)) ∧
    (∀ id off len, Admitted2 s q i k 5 1 .bound →
      (f.plan = none → says' (.gen2Fetch q id off len) 4 none' quiet) ∧
      (f.plan.isSome = true → f.cm.seatState ≠ 4 → says' (.gen2Fetch q id off len) 4 none' quiet) ∧
      (f.plan.isSome = true → f.cm.seatState = 4 → off = 0 → ∃ t, exec (.gen2Fetch q id off len) s = .next t ∧ t.mem = s.mem ∧
        (t.seat 0).reads = f.reads.filter (fun y => y.sess != q.sess) ++ [{ id := f.nextRead, sess := q.sess, immediate := true, step := f.cm.committed }] ∧
        (0x100000 < len → Answered2 t q 2 none'))) ∧
    (∀ addrs, Admitted2 s q i k 5 4 .boundOwner → addrs ≠ [] → addrs.length ≤ 128 →
      (∀ a ∈ addrs, ∃ x, regAddr a.toNat = some x ∧ k.mayRead x = true ∧ ((s.admitted r k).sessionRead k a.toNat).isSome = true) →
      says' (.gen2Regs q addrs) 0 (fun b => b = .words (addrs.map (fun a => ((s.admitted r k).sessionRead k a.toNat).getD 0))) quiet) ∧
    (Admitted2 s q i k 7 1 .any → says' (.gen2Health q) 0 (fun b => b = .bytes ((k.view 6).flatMap (fun g => s.cardRecords g 0 0 0) ++ s.powerBytes k)) quiet) ∧
    (∀ (r' : Req) bad, r'.sess = q.sess → r'.seq.setWidth 32 = q.seq → r'.cmd = q.op → r'.vlan = q.vlan → r'.src = q.src →
      (Admitted2 s q i k 0 0 .any → says' (.unknownCommand r' bad) 2 none' quiet) ∧
      (s.px.stage = 6 → s.host.gen2En = true → s.tagOk q.vlan = true → s.wipingTarget 6 = false → s.session q.sess = none → q.sess = 0 → r'.cls = 0 →
        q.op = 1 → ∃ t, exec (.unknownCommand r' bad) s = .next t ∧ t.host.sent = .gen2 0 0 2 .empty :: s.host.sent ∧ quiet t)) ∧
    (Admitted2 s q i k 8 4 .bound7 → s.px.resets = [] → s.collecting [0, 1, 2, 3] = false →
      (∃ t, exec (.gen2Reset q .context) s = .next t ∧ t.px.resets = [⟨.context, 6, r, some s.nextDump, false⟩] ∧ t.mem = s.mem) ∧
      (∃ t, exec (.gen2Reset q .partition) s = .next t ∧ t.px.resets = [⟨.partition, 6, r, some s.nextDump, false⟩] ∧ t.mem = s.mem)) ∧
    (∀ c, Admitted2 s q i k 8 4 .bound7 → says' (.gen2Reset q (.engineCore c)) 2 none' quiet ∧ says' (.gen2Reset q (.engineLink c)) 2 none' quiet) ∧
    (∀ n, k.owner = true → Admitted2 s q i k 8 4 .owner → says' (.gen2Reset q (.chip n)) 3 none' (fun t => UnitsKept s t)) ∧
    (∀ off, Admitted2 s q i k 9 1 .bound7 → s.collecting [0, 1, 2, 3] = false → ∃ t, exec (.gen2Dump q 0 off) s = .next t ∧ t.mem = s.mem ∧
      t.host.sent = s.host.sent ∧ ∀ g, g < 4 → ∃ d, (t.field g).hm.collecting = some d ∧ d.id = s.nextDump ∧ d.req = some r) ∧
    (∀ id off, Admitted2 s q i k 9 3 .bound7 → id ≠ 0 → off + 0x100000 < ((s.shares 6 id).flatMap (fun (d : Dump) => d.data)).length →
      says' (.gen2Dump q id off) 0 (fun b => b = .bytes ((((s.shares 6 id).flatMap (fun (d : Dump) => d.data)).drop off).take 0x100000)) quiet)

/-! ### The host port's network, power, the sideband -/

/-- R308, R331, R332, R428 to R436, R438, R440: while the ROM or the firmware runs and the port is up, echoes, solicitations and
ARP requests for an address of the port are answered, and only those; one with a wrong tag is counted as dropped, and the answer carries the request's.
A port that comes up without an IPv4 address asks for one. An alert condition sets its bit, counts it if it is new and lasts until its end is
reported; clearing a bit, over a sideband that answers, whose condition lasts sets it again. A cartridge unlatched without power is sensed as gone. Loss of power
resets the module, drops trip, address and conditions, and leaves the store its newest valid records; a rise of
PWR_EN brings the rails up only after it was low, and with VIO. A die at 115 °C latches the trip. The sideband target answers from the rise of PG until power goes, and
takes an address only while it has none. Optical readings reach FL_WL_OPT of their wavelength. RST_N low starts a chip
reset by RST_N, with BOOT_COUNT as it was, since the ROM is held: while the pin stays low the rails stay up, a link that was in use sends ABSENT,
and no boot command acts. The module boots when the pin rises, and BOOT_COUNT counts it; if RST_N is low when PG rises, the ROM is held until it
rises. Without power the pin changes nothing but itself. None of the network and alert commands touches memory, cores or seats.
Where the manual leaves a point open its clauses follow log 4, 21, 27 and 28. -/
def Obligations.PortPowerResetAndSidebandAct : Prop :=
  (∀ (s : State),
    let quiet (c : Instr) (p : State → Prop) : Prop := ∃ t, exec c s = .next t ∧ t.mem = s.mem ∧ t.cores = s.cores ∧ t.seats = s.seats ∧ p t
    let sends (c : Instr) (tag : Option (BitVec 16)) (ok : Bool) (x : OutFrame) (dst : List (BitVec 144)) : Prop :=
      exec c s = .next (if s.romRuns = true ∧ s.host.up = true then
        (if s.tagOk tag = false then s.bump (prBase 0 + 0x40) else if ok = true then s.send x [] dst tag else s) else s)
    let port (c : Instr) (h : HostPort) : Prop := exec c s = .next { s with host := h }
    -- the network
    (∀ (q : EchoFrom) dst data, sends (.icmpEcho q dst data) q.vlan
      (if q.v6 = true then (s.host.own6 ++ s.host.groups (s.px.stage != 6)).contains dst else s.host.ipv4 == some (dst.setWidth 32))
      (.echo q.v6 data) [q.src.setWidth 144]) ∧
    (∀ a v, sends (.ndpMessage (.solicit a v)) v (s.host.own6.contains a) (.advert a s.host.mac) []) ∧
    (∀ (q : ArpReq), sends (.arpRequest q) q.vlan (s.host.ipv4 == some q.target) (.arp q.target s.host.mac) []) ∧
    (s.host.groups true).contains bootGroup = true ∧
    (∀ hi, s.romRuns = true → s.host.up = true → ∃ t, exec (.ndpMessage (.routerAdvert hi)) s = .next t ∧
      (∀ x, x ∈ t.host.prefixes ↔ x = hi ∨ x ∈ s.host.prefixes) ∧ t = { s with host := { s.host with prefixes := t.host.prefixes } }) ∧
    (∀ a, s.romRuns = true → s.host.up = true → port (.dhcpv4Reply a) { s.host with ipv4 := some a }) ∧
    (s.romRuns = true → s.host.up = false → port .portModeTimeout { s.host with tryDr8 := !s.host.tryDr8 }) ∧
    (∀ dr8, s.romRuns = true → ∃ t, exec (.portLinkUp dr8) s = .next t ∧ t.host.up = true ∧ t.host.mode = (if dr8 = true then 2 else 1) ∧
      t.host.sent = (if s.host.ipv4 = none then [.dhcp s.host.mac] else []) ++ s.host.sent) ∧
    port .portLinkDown { s.host with up := false, mode := 0 } ∧
    -- alerts
    (∀ c n, (c, n) ∈ [(Instr.undervolt, 0), (.overvolt, 1), (.overcurrent, 2), (.cap, 3), (.dieHot, 4), (.inletHot, 5), (.lpddrHot, 6)] →
      (s.pw.powered = false → exec c s = .next s) ∧
      (s.pw.powered = true → quiet c (fun t => t.pw.cond = s.pw.cond ||| BitVec.ofNat 10 (2 ^ n) ∧ t.pw.alert = s.pw.alert ||| BitVec.ofNat 10 (2 ^ n) ∧
        ((s.counter (pwBase + 0x40)).count.toNat < 0xFFFFFFFF → (t.counter (pwBase + 0x40)).count.toNat =
          (s.counter (pwBase + 0x40)).count.toNat + (if s.pw.alert.getLsbD n = true ∨ (s.counter (pwBase + 0x40)).sat = true then 0 else 1))))) ∧
    (∀ n, n < 7 → exec (.alertConditionEnd n) s = .next { s with pw := { s.pw with cond := s.pw.cond &&& ~~~(BitVec.ofNat 10 (2 ^ n)) } }) ∧
    (∀ v, s.i3cHeard = false → exec (.pwAlertClear v) s = .next s) ∧
    (∀ v, s.i3cHeard = true → quiet (.pwAlertClear v) (fun t => t.pw.alert = s.pw.alert &&& (~~~(v.setWidth 10) ||| s.pw.cond) ∧ t.pw.cond = s.pw.cond)) ∧
    (∀ f ph, s.pw.powered = true → f < 4 → ph < 22 → quiet (.phase f ph) (fun t => t.pw.alert = s.pw.alert ||| 0x80 ∧ t.pw.cond = s.pw.cond ∧
      ph ∈ (t.field f).hm.phaseDue)) ∧
    (∀ f, f < 4 → s.pw.powered = true → ∃ t, exec (.cartLatch f) s = .next t ∧ t.pw.latch.getLsbD f = false ∧ t.pw.present = s.pw.present ∧
      t.pw.alert = s.pw.alert ||| 0x100 ∧
      ∀ l, l < 24 → fieldOfLink l = f → (t.link l).combDark = true ∧ (t.link l).st ≠ .locked) ∧
    (∀ f, f < 4 → s.pw.powered = false → exec (.cartLatch f) s = .next { s with pw := { s.pw with
      latch := s.pw.latch &&& ~~~(BitVec.ofNat 4 (2 ^ f)), present := s.pw.present &&& ~~~(BitVec.ofNat 4 (2 ^ f)) } }) ∧
    (∀ f, f < 4 → exec (.cartridgeLatched f) s = .next { s with pw := { s.pw with
      latch := s.pw.latch ||| BitVec.ofNat 4 (2 ^ f), present := s.pw.present ||| BitVec.ofNat 4 (2 ^ f) } }) ∧
    -- power
    (∀ c ∈ [Instr.pwrEnFall, .undervoltShutdown, .inputOvervoltCutoff, .hotSwapTrip], s.pw.powered = true → ∃ t, exec c s = .next t ∧
      t.pw.powered = false ∧ t.pw.pg = false ∧ t.pw.trip = false ∧ t.pw.cond = 0 ∧ t.pw.i3cAddr = none ∧ t.px.stage = 0 ∧ t.px.cause = 1 ∧ t.mem = [] ∧
        t.cores = [] ∧ t.seats = [] ∧ t.store = s.nv.get ∧ t.pw.pwrEn = (if c = .pwrEnFall then false else s.pw.pwrEn) ∧ t.romRuns = false) ∧
    (s.pw.pwrEn = true ∨ s.pw.vio = false → exec .pwrEnRise s = .next s) ∧
    (s.pw.pwrEn = false → s.pw.vio = true → quiet .pwrEnRise (fun t => t.pw.powered = true ∧ t.pw.pwrEn = true ∧ t.pw.pg = false ∧ t.pw.cap = 5600 ∧ t.pw.alert = 0 ∧
      t.pw.rstN = s.pw.rstN ∧ t.pw.latch = s.pw.latch ∧ t.pw.present = s.pw.present)) ∧
    (s.pw.powered = true → s.pw.trip = false → ∃ t, exec .thermtrip s = .next t ∧ t.pw.trip = true ∧ t.romRuns = false ∧ t.pw.powered = true ∧
      t.pw.alert = s.pw.alert ||| 0x200 ∧ t.px.cause = 4 ∧ t.px.stage = 0 ∧ t.mem = [] ∧ t.store = s.store ∧ 115 ≤ t.pw.die.toNat) ∧
    (s.pw.trip = true → s.pw.rstN = false → s.pw.powered = true → s.pw.pg = true → ∃ t, exec .rstNRelease s = .next t ∧ t.pw.rstN = true ∧
      (s.pw.die.toNat < 100 → t.pw.trip = false ∧ t.romRuns = true) ∧ (100 ≤ s.pw.die.toNat → t.pw.trip = true ∧ t.romRuns = false ∧ t.store = s.store)) ∧
    -- telemetry
    (∀ x, s.pw.powered = true → quiet (.telemetryWindow x) (fun t => t.counters = s.counters ∧
      (x.grade = 0 → t.pw.temps = x.temps ∧ t.pw.die = x.temps.setWidth 8 ∧ t.pw.watts = s.pw.watts) ∧
      (x.grade = 1 → t.pw.watts.toNat % 5 = 0 ∧ t.pw.watts.toNat ≤ x.watts.toNat + 2 ∧ x.watts.toNat ≤ t.pw.watts.toNat + 2) ∧
      (x.grade = 2 → t.pw = { s.pw with wattsSvc := x.watts, volts := x.volts, amps := x.amps, fine := x.fine }))) ∧
    (∀ o : Optic, s.pw.powered = true → o.link < 24 → o.k < 9 → quiet (.telemetryWindow { grade := 3, watts := 0, optics := [o] }) (fun t => t.pw = s.pw ∧
      Tab.get (fun _ => {}) (t.link o.link).opt o.k = { rx := o.rx, tx := o.tx, eye := o.eye } ∧ ∀ l, l ≠ o.link → t.link l = s.link l)) ∧
    -- the sideband target
    (let up : Prop := s.pw.powered = true ∧ s.pw.pg = true ∧ s.pw.vio = true
     let answers (c : Instr) (v : BitVec 64) : Prop := (up → s.pw.i3cAddr.isSome = true → exec c s = .next { s with pw := { s.pw with i3cAnswer := some v } }) ∧
       (¬ up ∨ s.pw.i3cAddr = none → exec c s = .next s)
     (∀ a, (up → s.pw.i3cAddr = none → exec (.entdaa a) s = .next { s with pw := { s.pw with i3cAddr := some a } }) ∧
       (¬ up ∨ s.pw.i3cAddr.isSome = true → exec (.entdaa a) s = .next s)) ∧
     (up → exec .rstdaa s = .next { s with pw := { s.pw with i3cAddr := none } }) ∧ (¬ up → exec .rstdaa s = .next s) ∧
     answers .getpid (Config.i3cMaker.setWidth 64 <<< 32 ||| (s.store.serial.setWidth 32).setWidth 64) ∧
     answers .getbcr (Config.i3cBcr.setWidth 64) ∧ answers .getdcr (Config.i3cDcr.setWidth 64))) ∧
  -- RST_N
  (∀ (s : State), s.romRuns = true → ∃ t, exec .rstNAssert s = .next t ∧ t = ({ s with pw := { s.pw with rstN := false } } : State).chipReset 3 ∧
    t.pw = { s.pw with rstN := false } ∧ t.romRuns = false ∧ t.px.stage = 0 ∧ t.px.cause = 3 ∧ t.mem = [] ∧ t.cores = [] ∧ t.seats = [] ∧
    t.host.sessions = [] ∧ t.store = s.store ∧ (Tab.wf (fun _ => ({} : Link)) s.links = true → ∀ l, (s.link l).st.active = true → (t.link l).absent = true)) ∧
  (∀ (s : State), s.romRuns = false → (∀ c ∈ [Instr.bootSolicit, .bootReadRetry, .bootRetryTimer], exec c s = .next s) ∧
    (∀ n m, exec (.bootAdvertise n m) s = .next s) ∧ ∀ data ed ml, exec (.bootReadResponse ⟨data, ed, ml⟩) s = .next s) ∧
  (∀ (s : State), s.pw.powered = true → s.pw.pg = true → s.pw.trip = false → s.pw.rstN = false → ∃ t, exec .rstNRelease s = .next t ∧ t.romRuns = true ∧
    t.px = s.px ∧ t.store = { s.store with bootCount := s.store.bootCount + 1 }) ∧
  (∀ (s : State), s.pw.powered = true → s.pw.pg = false → ∃ t, exec .powerGood s = .next t ∧ t.pw = { s.pw with pg := true } ∧
    (s.pw.rstN = false → t.romRuns = false ∧ t.store = s.store) ∧
    (s.pw.rstN = true → s.pw.trip = false → t.romRuns = true ∧ t.store = { s.store with bootCount := s.store.bootCount + 1 })) ∧
  (∀ (s : State), s.pw.powered = false → exec .rstNAssert s = .next { s with pw := { s.pw with rstN := false } } ∧
    (s.pw.trip = false → exec .rstNRelease s = .next { s with pw := { s.pw with rstN := true } }))

/-! ### The Hall Monitor's own commands -/

/-- R301, R365 to R368, R370, R372, R373, R375, R377, R379: the decay tick takes D to D − (D >> 8) on every card; the store timer keeps the cards as they are; a
REMEDIAL card below 200 loses its step at its next boundary; a quiz needs two tiles that may compute it and a pass on each, for which it waits; on a mismatch a third tile computes it under a
pass of its own and its CRC names
the loser, which takes 128 points and goes to DETENTION if it was SUBSTITUTED, and where none does the quiz counts as failed only; the margin timer asks for a measurement of each spare; a measurement that ends, or
a reading of a level input, reaches its cards, whose level is the highest of their inputs' against their references; the
oldest copy completes; a waiting pass is granted and its activity starts; a comb changes over only at rest, its links dark under their passes. None of them touches memory, a core or
another field.
Where the manual leaves a point open its clauses follow log 2, 11 and 27. -/
def Obligations.HallMonitorActs : Prop :=
  ∀ (s : State) (f : Nat), f < 4 →
    let x := s.field f
    let h := x.hm
    let bell := (s.seat f).tt.bell.setWidth 27
    let acts (c : Instr) (p : State → Field → Prop) : Prop := ∃ t, exec c s = .next t ∧ t.mem = s.mem ∧ t.cores = s.cores ∧
      (∀ g, g ≠ f → t.field g = s.field g) ∧ p t (t.field f)
    let quiet (t : State) : Prop := t.seats = s.seats ∧ t.links = s.links ∧ t.host = s.host
    let free : Prop := h.passes = [] ∧ s.coord.passes = [] ∧ s.coord.more = []
    let judged (k : Card) (i input v : Nat) : Prop := Tab.find k.meas input = some v ∧ k.margin.isSome = true ∧
      k.level = k.meas.foldl (fun n e => Nat.max n (levelOf e.2 (k.ref f i e.1))) 0
    (Tab.wf (fun _ => ({} : Card)) h.cards = true → acts (.cardDecayTick f) (fun t y => quiet t ∧ y.mc = { x.mc with corrected := [] } ∧
      ∀ i, y.hm.cardAt i = { h.cardAt i with d := (h.cardAt i).d - (h.cardAt i).d >>> 8 })) ∧
    acts (.cardStoreTimer f) (fun t y => quiet t ∧ y = { x with hm := { h with
      stored := h.cards.foldl (fun z e => putCard z e.1 e.2) h.stored, storedPeriods := h.periods } }) ∧
    (∀ kind index, acts (.remedyRelaxTimer f kind index) (fun t y => quiet t ∧ y =
      (if (h.card kind index).st = CardState.remedial ∧ (h.card kind index).score < 200 ∧ index < 8192 ∧ h.relaxDue.contains (cardIx kind index) = false
       then { x with hm := { h with relaxDue := h.relaxDue ++ [cardIx kind index] } } else x))) ∧
    (∀ a b,
      let barred : Prop := h.quiz.isSome = true ∨ h.quizAsked.isSome = true ∨ a = b ∨ s.quizReady f a = false ∨ s.quizReady f b = false
      (barred → exec (.popQuizStart f a b) s = .next s) ∧
      (¬ barred → a < 528 → b < 528 →
        (free → acts (.popQuizStart f a b) (fun t y => quiet t ∧ y = { x with hm := { h with
          quiz := some ⟨a, b, none⟩, passes := [(0, { code := 7, resource := BitVec.ofNat 32 a, granted := bell }), (1, { code := 7, resource := BitVec.ofNat 32 b, granted := bell })] } })) ∧
        ((s.blocker f { code := 7, resource := BitVec.ofNat 32 a }).isSome = true ∨ h.freePass = none →
          acts (.popQuizStart f a b) (fun t y => quiet t ∧ y = { x with hm := { h with quizAsked := some ⟨a, b, none⟩, waiting := y.hm.waiting } } ∧
            ∀ u ∈ [a, b], (∃ p ∈ y.hm.waiting, p.code = 7 ∧ p.resource.toNat = u) ∨ ∃ e ∈ h.passes, e.2.code = 7 ∧ e.2.resource.toNat = u)))) ∧
    (∀ a b crcA crcB third before, h.quiz = some ⟨a, b, before⟩ → a ≠ b →
      let c : Instr := .popQuizResult f crcA crcB third
      let one (t : State) (n : Nat) : Prop := (s.counter n).sat = false → (s.counter n).count ≠ 0xFFFFFFFF → (t.counter n).count = (s.counter n).count + 1
      let lost (y : Field) (u : Nat) : Prop := (y.hm.card 1 u).d.toNat = Nat.min ((h.card 1 u).d.toNat + 256 * 128) 0xFFFFFFFF ∧
        ((h.card 1 u).st = .substituted → (y.hm.card 1 u).st = .detention)
      let passed (y : Field) (u : Nat) : Prop := (y.hm.card 1 u).d = (h.card 1 u).d ∧
        ((h.card 1 u).st = .substituted → (if 1000 ≤ (h.card 1 u).quizzes + 1 ∧ (h.card 1 u).score < 100
          then (y.hm.card 1 u).st = .probation ∧ (y.hm.card 1 u).quizzes = 0
          else (y.hm.card 1 u).st = .substituted ∧ (y.hm.card 1 u).quizzes = (h.card 1 u).quizzes + 1)) ∧
        ((h.card 1 u).st ≠ .substituted → y.hm.card 1 u = h.card 1 u)
      let ends (p : State → Field → Prop) : Prop := acts c (fun t y => y.hm.quiz = none ∧ quiet t ∧ p t y ∧
        ∀ e ∈ y.hm.passes, e ∈ h.passes ∧ ¬ (e.2.code = 7 ∧ e.2.onLink = false ∧
          (e.2.resource.toNat = a ∨ e.2.resource.toNat = b ∨ ∃ z, before = some z ∧ e.2.resource.toNat = z.1)))
      let failOnly : Prop := ends (fun t y => one t (hmBase f + 0x40) ∧ y.hm.cards = h.cards ∧ t.counter (hmBase f + 0x38) = s.counter (hmBase f + 0x38))
      let loses (y : Field) (u v w : Nat) : Prop := lost y u ∧ passed y v ∧ passed y w
      (before = none →
        (crcA = crcB → ends (fun t y => one t (hmBase f + 0x38) ∧ passed y a ∧ passed y b)) ∧
        (crcA ≠ crcB → third = none → failOnly) ∧
        (crcA ≠ crcB → ∀ u w, third = some (u, w) →
          let p : Pass := { code := 7, resource := BitVec.ofNat 32 u }
          (u = a ∨ u = b ∨ s.quizReady f u = false ∨ (s.blocker f p).isSome = true ∨ h.freePass = none → exec c s = .next s) ∧
          (u ≠ a → u ≠ b → s.quizReady f u = true → (s.blocker f p).isSome = false → ∀ i, h.freePass = some i →
            acts c (fun t y => quiet t ∧ y = { x with hm := { h with
              quiz := some ⟨a, b, some (u, crcA, crcB)⟩, passes := Tab.put h.passes i { p with granted := bell } } })))) ∧
      (∀ u ca cb, before = some (u, ca, cb) →
        (third = none → failOnly) ∧
        (∀ v w, third = some (v, w) → v ≠ u → exec c s = .next s) ∧
        (∀ w, third = some (u, w) → u ≠ a → u ≠ b → ca ≠ cb →
          (w = ca → ends (fun t y => one t (hmBase f + 0x38) ∧ one t (hmBase f + 0x40) ∧ loses y b a u)) ∧
          (w = cb → ends (fun t y => one t (hmBase f + 0x38) ∧ one t (hmBase f + 0x40) ∧ loses y a b u)) ∧
          (w ≠ ca → w ≠ cb → failOnly)))) ∧
    (h.quiz = none → ∀ a b u, exec (.popQuizResult f a b u) s = .next s) ∧
    acts (.spareMarginTimer f) (fun t y => quiet t ∧ y = { x with hm := { h with waiting := y.hm.waiting } } ∧
      let asked (n u : Nat) : Prop := (∃ p ∈ y.hm.waiting, p.code.toNat = n ∧ p.resource.toNat = u) ∨ ∃ e ∈ h.passes, e.2.code.toNat = n ∧ e.2.resource.toNat = u
      (∀ u, h.isSpare u = true → asked 6 u) ∧
      (∀ g, g < 33 → (∃ j, j < 16 ∧ h.isSpare (16 * g + j) = true) → s.measurable f ((List.range 16).map (fun j => 16 * g + j)) = true → asked 5 g)) ∧
    (∀ kind index steps, kind = 5 ∨ kind = 6 → index < 528 → h.measuring.contains (kind, index) = true →
      acts (.marginMeasureDone f kind index steps) (fun t y => quiet t ∧ (kind, index) ∉ y.hm.measuring ∧
      (∀ e ∈ y.hm.passes, e ∈ h.passes ∧ ¬ (e.2.code.toNat = kind ∧ e.2.onLink = false ∧ e.2.resource.toNat = index)) ∧
      ∀ u ∈ (if kind = 5 then (List.range 16).map (fun j => 16 * index + j) else [index]),
        judged (y.hm.card 1 u) (cardIx 1 u) (kind - 5) (h.marginOf kind index steps) ∧ (y.hm.card 1 u).d = (h.card 1 u).d)) ∧
    (∀ kind index input v, s.pw.powered = true → index < cardCount kind →
      acts (.telemetryWindow { grade := 3, watts := 0, levels := [⟨f, kind, index, input, v⟩] }) (fun t y => quiet t ∧
        judged (y.hm.card kind index) (cardIx kind index) (if kind = 1 then input + 2 else input) v ∧ (y.hm.card kind index).d = (h.card kind index).d)) ∧
    (∀ kind index ratio, h.measuring.contains (kind, index) = false → acts (.marginMeasureDone f kind index ratio) (fun t y => quiet t ∧ y = x)) ∧
    (∀ c, h.copies.find? (fun c => !c.done) = some c → acts (.tileCopyComplete f) (fun t y => quiet t ∧
      y = { x with hm := { h with copies := h.copies.map (fun z => if z.core = c.core then { z with done := true } else z) } })) ∧
    (h.waiting = [] → exec (.passGrant f) s = .next s) ∧
    (∀ p r, free → h.waiting = p :: r →
      let c : Instr := .passGrant f
      let n := p.resource.toNat
      let held : List (Nat × Pass) := [(0, { p with granted := bell })]
      (∀ z, p.code.toNat = z → z = 5 ∨ z = 6 → s.measurable f p.tiles = false → r = [] → exec c s = .next s) ∧
      (∀ q, p.code = 7 → h.quizAsked = some q → q.tileA ≠ q.tileB → acts c (fun t y => quiet t ∧ y = { x with hm := { h with waiting := r, passes := held } })) ∧
      (∀ z, p.code.toNat = z → z = 5 ∨ z = 6 → s.measurable f p.tiles = true → acts c (fun t y => quiet t ∧
        y = { x with hm := { h with waiting := r, passes := held, measuring := h.measuring ++ [(z, n)] } })) ∧
      (∀ j u, p.code = 8 → h.coreOn n = some j → h.bestSpare = some u → acts c (fun t y => quiet t ∧
        y = { x with hm := { h with waiting := r, passes := held, copies := h.copies ++ [{ core := j, old := n, spare := u }] } })) ∧
      (∀ q, p.code = 1 → x.mc.due.find? (fun q => q % 32 == n) = some q → acts c (fun t y => quiet t ∧
        y.hm = { h with waiting := r, passes := held } ∧ y.mc = { x.mc with due := x.mc.due.filter (fun z => z != q), copying := x.mc.copying ++ [q] })) ∧
      (p.code = 3 → n < 6 → (s.link (6 * f + n)).st = .locked → ∃ t, exec c s = .next t ∧ (t.link (6 * f + n)).st = .signal)) ∧
    (∀ p r e q, s.coord.passes = [] → s.coord.more = [] → h.waiting = p :: r → h.passes = [(0, e)] → h.quizAsked = some q → p.code = 7 → p.onLink = false →
      e.code = 7 → e.onLink = false → e.resource.toNat = q.tileA → p.resource.toNat = q.tileB → q.tileA ≠ q.tileB → s.quizReady f q.tileA = true →
      s.quizReady f q.tileB = true → acts (.passGrant f) (fun t y => quiet t ∧
        y = { x with hm := { h with waiting := r, passes := [(0, e), (1, { p with granted := bell })], quizAsked := none, quiz := some q } })) ∧
    (h.comb = false ∨ s.idleSeat f = false → exec (.combChangeover f) s = .next s) ∧
    (h.comb = true → s.idleSeat f = true → free → (∀ l, l / 6 = f → (s.link l).ops = []) → acts (.combChangeover f) (fun t y => t.host = s.host ∧
      y.hm.comb = false ∧ (y.hm.card 5 0).st = .detention ∧ (∀ l, l / 6 ≠ f → t.link l = s.link l) ∧
      ∀ j, j < 6 →
        let l := 6 * f + j
        (t.link l).comb = true ∧ ((s.link l).st = .off ∨ (s.link l).st = .failed → (t.link l).st = (s.link l).st) ∧
        ((s.link l).st ≠ .off → (s.link l).st ≠ .failed → (t.link l).st = .dark ∧ ∃ e ∈ y.hm.passes, e.2.code = 3 ∧ e.2.resource.toNat = j)))

/-! ### Counters -/

/-- R11, R345, R360: a counter of 32 bits goes up by one at an event; the event that would carry it past 0xFFFF_FFFF leaves it there and sets SAT, and the Hall
Monitor that owns its block (of its field; the coordinator for PX_ and PW_) counts one saturation event and names the counter in HM_SAT_LAST; a saturated counter
records nothing. Zero written to COUNT by a writer that may write it clears COUNT and SAT; any other value has no effect. A write that is refused, or
names no counter, gets its error response: DENIED with the address for a session, fault 0x05 for a core's lesson, nothing for the sideband (log 2). -/
def Obligations.CountersFollowR360 : Prop :=
  (∀ (s : State) (a : Nat),
    let k := s.counter a
    let o := counterOwner a
    let m := satCountAddr o
    (k.sat = true → s.bump a = s) ∧
    (k.sat = false → k.count ≠ 0xFFFFFFFF → s.bump a = s.setCounter a { count := k.count + 1, sat := false }) ∧
    (k.sat = false → k.count = 0xFFFFFFFF → (s.bump a).counter a = { count := 0xFFFFFFFF, sat := true } ∧
      (a ≠ m → (s.bump a).counter m = (if (s.counter m).count = 0xFFFFFFFF then { s.counter m with sat := true }
        else { s.counter m with count := (s.counter m).count + 1 })) ∧
      (∀ n, n ≠ a → n ≠ m → (s.bump a).counter n = s.counter n) ∧
      (if o < 4 then ((s.bump a).field o).hm = { (s.field o).hm with satAddr := BitVec.ofNat 48 a } ∧ (s.bump a).coord = s.coord
       else (s.bump a).coord = { s.coord with satAddr := BitVec.ofNat 48 a } ∧ (s.bump a).fields = s.fields) ∧
      (s.bump a).mem = s.mem ∧ (s.bump a).cores = s.cores ∧ (s.bump a).seats = s.seats ∧ (s.bump a).links = s.links)) ∧
  (∀ off, off < 0x1000 → (∀ c, c < 2000 → counterOwner (mxBase c + off) = fieldOfCore c ∧ counterOwner (vxBase c + off) = fieldOfCore c) ∧
    (∀ f, f < 4 → ∀ b ∈ [ttBase f, mcBase f, lbBase f, cmBase f, prBase f, hmBase f], counterOwner (b + off) = f) ∧
    (∀ l, l < 24 → counterOwner (flBase l + off) = fieldOfLink l) ∧ counterOwner (pxBase + off) = 4 ∧ counterOwner (pwBase + off) = 4) ∧
  (∀ (s : State) (w : Writer) (a : Addr) (v : BitVec 64) (x : RegAddr), regAddr a.toNat = some x → x.isCounter = true →
    let may : Prop := match w with
      | .session id => s.store.sealed = false ∧ ∃ i k, s.session id = some (i, k) ∧ k.mayClear x = true
      | .sideband => x.block = 11 ∧ s.i3cHeard = true
      | .core _ => False
    (may → v.extractLsb' 0 32 = (0 : BitVec 32) → exec (.counterClear w a v) s = .next (s.setCounter (s.counterHome x a.toNat) { count := 0, sat := false })) ∧
    (may → v.extractLsb' 0 32 ≠ (0 : BitVec 32) → exec (.counterClear w a v) s = .next s) ∧
    (¬ may → exec (.counterClear w a v) s = .next (s.refuseWrite w (7 + 256 * 3) a))) ∧
  (∀ (s : State) (w : Writer) (a : Addr) (v : BitVec 64), (∀ x, regAddr a.toNat = some x → x.isCounter = false) →
    exec (.counterClear w a v) s = .next (s.refuseWrite w (7 + 256 * 3) a)) ∧
  (∀ (s : State) (n : Nat) (a : Addr), s.refuseWrite .sideband n a = s ∧
    (∀ id i k, s.session id = some (i, k) →
      let t := s.refuseWrite (.session id) n a
      UnitsKept s t ∧ ∃ y, t.host.sent = frameOf k y :: s.host.sent ∧ y.sess = id ∧ y.seq = k.h ∧ y.status = stDenied ∧ y.detail = a.setWidth 64) ∧
    (∀ id, s.session id = none → s.refuseWrite (.session id) n a = s) ∧
    (∀ c, c < 2000 → (s.core c).fault.toNat % 256 = 0 →
      let t := s.refuseWrite (.core c) n a
      (t.core c).fault.toNat % 256 = 5 ∧ (t.core c).faultAddr.toNat = a.toNat ∧ t.mem = s.mem))

/-! ### Where these commands complete -/

/-- R52, R109, R138, R181, R346, R354, R360, R436: where each register and log command completes with its own effect. A counter that its writer may
clear reads zero; RW1C bits clear; a lesson's write reaches its core's register and the tray controller's PW_ALERT_MASK and PW_CAP; REGS and LOG
answer what is read, and Health CLEAR zeroes every counter it names. -/
def Obligations.RegisterAndLogCommandsComplete : Prop :=
  (∀ (s : State) (w : Writer) (a : Addr) (v : BitVec 64) (x : RegAddr), regAddr a.toNat = some x → s.mayClear w x = true →
    v.extractLsb' 0 32 = (0 : BitVec 32) → ∃ t, exec (.counterClear w a v) s = .next t ∧ UnitsKept s t ∧ t.counter (s.counterHome x a.toNat) = {} ∧
      ∀ n, n ≠ s.counterHome x a.toNat → t.counter n = s.counter n) ∧
  (∀ (s : State) (c : Nat) (v : BitVec 64), c < 2000 →
    (∃ t, exec (.mxFlagsClear c v) s = .next t ∧ (t.core c).mxFlags = (s.core c).mxFlags &&& ~~~(v.setWidth 9)) ∧
    ∃ t, exec (.vxFlagsClear c v) s = .next t ∧ (t.core c).vxFlags = (s.core c).vxFlags &&& ~~~(v.setWidth 15)) ∧
  (∀ (s : State) (f : Nat) (v : BitVec 64), f < 4 → v.getLsbD 8 = true → ∃ t, exec (.outOfTolClear f v) s = .next t ∧ (t.seat f).tt.outOfTol = false) ∧
  (∀ (s : State) (c : Nat) (a : Addr) (v : BitVec 64) (k : Core), c < 2000 → (s.core c).lessonWrite c a.toNat v = some k →
    ∃ t, exec (.registerWrite (.core c) a v) s = .next t ∧ t.core c = k) ∧
  (∀ (s : State) (v : BitVec 64), s.i3cHeard = true →
    (∃ t, exec (.registerWrite .sideband (BitVec.ofNat 48 (pwBase + 0x28)) v) s = .next t ∧ t.pw = { s.pw with mask := v.setWidth 10 }) ∧
    ∃ t, exec (.registerWrite .sideband (BitVec.ofNat 48 (pwBase + 0x30)) v) s = .next t ∧ t.pw = { s.pw with cap := v.setWidth 16 }) ∧
  (∀ (s : State) (r : Req) (i : Nat) (k : Session) (addrs : List Addr), addrs ≠ [] → addrs.length ≤ 128 →
    (Admitted s r i k 7 3 .boundOwner → (∀ a ∈ addrs, ∃ x, regAddr a.toNat = some x ∧ k.mayClear x = true) →
      ∃ t, exec (.healthClear r addrs) s = .next t ∧ Answered t r stOk 0 .empty ∧
        ∀ a ∈ addrs, ∀ x, regAddr a.toNat = some x → t.counter (s.counterHome x a.toNat) = {}) ∧
    (Admitted s r i k 5 4 .boundOwner →
      (∀ a ∈ addrs, ∃ x, regAddr a.toNat = some x ∧ k.mayRead x = true ∧ ((s.admitted r k).sessionRead k a.toNat).isSome = true) →
      ∃ t, exec (.readRegs r addrs) s = .next t ∧ Answered t r stOk 0 (.words (addrs.map (fun a => ((s.admitted r k).sessionRead k a.toNat).getD 0))))) ∧
  (∀ (s : State) (r : Req) (i : Nat) (k : Session) (numerics : Bool) (start : Nat) (clear : Bool), Admitted s r i k 5 5 .bound7 →
    r.expert = true ∨ (start = 0 ∧ clear = false) →
    let q := s.seat (reqField r)
    (r.part = 7 → numerics = false → ∃ t, exec (.readLog r numerics start clear) s = .next t ∧
      Answered t r stOk (BitVec.ofNat 64 s.host.modVdrop) (.vlog (s.host.modVlog.drop start)) ∧ t.host.modVlog = if clear then [] else s.host.modVlog) ∧
    (r.part ≠ 7 → ∃ t, exec (.readLog r numerics start clear) s = .next t ∧
      Answered t r stOk 0 (if numerics then .numlog (q.numEntries.drop start) else .vlog (q.vlog.drop start)) ∧
      (t.seat (reqField r)).vlog = if !numerics && clear then [] else q.vlog))

/-- R274 to R276, R349, R350: where each Run and Read command completes with its own effect. START and STOP are placed at their bells; an OPEN waits
for a commit, or opens the committed step or the mirror at once; the open that waits is answered, or times out; a PIECE is served whole, and CLOSE
ends its read.
Where the manual leaves a point open its clauses follow log 18 and 26. -/
def Obligations.RunAndReadCommandsComplete : Prop :=
  ∀ (s : State) (r : Req) (i : Nat) (k : Session),
    let f := reqField r
    let q := s.seat f
    (∀ p, Admitted s r i k 4 1 .bound → r.expert = false → q.plan = some p → q.noShard = false → q.cm.partnerOk = false →
      ∃ t, exec (.runStart r 0 0 false 0) s = .next t ∧ Answered t r stOk 0 .empty ∧
        (t.seat f).start = some { bell := basicBell q.tt.bell, entry := ((s.admitted r k).basicEntry f p).2 }) ∧
    (∀ bell entry setCount, Admitted s r i k 4 1 .bound → r.expert = true → q.plan.isSome = true → q.noShard = false →
      q.cm.partnerOk = false ∨ (q.cm.seatState = 4 ∧ s.mirrorStale f = false) → entry < (s.block (s.seatIx f)).length →
      etype ((s.block (s.seatIx f)).getD entry 0) = 1 → q.tt.bell.toNat + 16 ≤ bell.toNat →
      ∃ t, exec (.runStart r bell entry setCount q.cm.committed) s = .next t ∧ Answered t r stOk 0 .empty ∧
        (t.seat f).start = some { bell := bell, entry := entry, setCount := setCount }) ∧
    (Admitted s r i k 4 2 .bound → q.plan.isSome = true →
      (r.expert = false → ∃ t, exec (.runStop r 0) s = .next t ∧ Answered t r stOk 0 .empty ∧ (t.seat f).stop = some .nextVerdict) ∧
      ∀ bell, r.expert = true → q.tt.bell < bell → ∃ t, exec (.runStop r bell) s = .next t ∧ Answered t r stOk 0 .empty ∧ (t.seat f).stop = some (.atBell bell)) ∧
    (Admitted s r i k 5 1 .bound → q.plan.isSome = true → q.cm.seatState = 4 → s.readsOf r.sess < 8 →
      (r.expert = false ∨ q.cm.clipDue = false → ∃ t, exec (.readOpen r false false false) s = .next t ∧
        (t.seat f).waits = q.waits ++ [{ req := r, history := false }]) ∧
      (∀ hist, r.expert = true → q.cm.clipDue = false → q.noShard = false → ∃ t, exec (.readOpen r true false hist) s = .next t ∧
        (t.seat f).reads = q.reads ++ [{ id := q.nextRead, sess := r.sess, immediate := true, history := hist, step := q.cm.committed }]) ∧
      (r.expert = true → q.cm.clipDue = false → s.mirrorHeld f = true → ∃ t, exec (.readOpen r false true false) s = .next t ∧
        (t.seat f).reads = q.reads ++ [{ id := q.nextRead, sess := r.sess, mirror := true, step := (s.field f).lb.mirrorFor }])) ∧
    (∀ g w, g < 4 → (s.seat g).waits = [w] → (s.seat g).pieces = [] → s.session w.req.sess = some (i, k) → k.gen2 = false →
      ((s.seat g).cm.seatState = 4 → s.stepProven g (s.seat g).cm.committed = true → w.step.isSome = true →
        ∃ t, exec (.readOpenAnswer g) s = .next t ∧ (t.seat g).waits = [] ∧ (t.seat g).reads = (s.seat g).reads ++
          [{ id := (s.seat g).nextRead, sess := w.req.sess, history := w.history, step := (s.seat g).cm.committed }]) ∧
      ∃ t, exec (.readWaitTimeout g) s = .next t ∧ Answered t w.req stWaitTimeout 0 .empty ∧ (t.seat g).waits = []) ∧
    (∀ id off len x, q.reads.find? (fun x => x.id == id && x.sess == r.sess) = some x →
      (Admitted s r i k 5 3 .bound → ∃ t, exec (.readClose r id) s = .next t ∧ Answered t r stOk 0 .empty ∧ ∀ z ∈ (t.seat f).reads, z.id ≠ id) ∧
      (∀ bs w, Admitted s r i k 5 2 .bound → q.plan.isSome = true → q.cm.seatState = 4 → x.mirror = false → x.restarts ≤ x.told → len ≤ 0x100000 →
        off + len ≤ q.readLen false x.history → s.pieceReady f x off len = true → (s.admitted r k).pieceBytes f x off len = (w, some bs) →
        ∃ t, exec (.readPiece r id off len) s = .next t ∧
          Answered t r stOk (if x.immediate = true ∧ s.stepProven f x.step = true then 1 else 0) (.piece x.step false bs)))

/-- R356, R403 to R405, R418 to R421: where each boot and wipe command completes with its own effect. The ROM solicits, takes the ADVERTISE, takes the
pieces of manifest and image, asks again, and solicits again after a failure; the image that matches starts the boot wipe, and its end serves
Slate. A wipe asked for starts, and the end of its zeroing ends it.
Where the manual leaves a point open its clauses follow log 10 and 20. -/
def Obligations.BootAndWipeCommandsComplete : Prop :=
  (∀ (s : State), s.romRuns = true →
    (s.px.stage ≤ 1 → ∃ t, exec .bootSolicit s = .next t ∧ t.px.stage = 1 ∧ t.host.sent = .bootSolicit s.store.serial s.px.minSvn :: s.host.sent) ∧
    (∀ n, s.px.stage = 1 → ∃ t, exec (.bootAdvertise n 5445) s = .next t ∧ t.px.stage = 2 ∧ t.px.imageLen = n ∧
      t.host.sent = .bootRead true 0 5445 :: s.host.sent) ∧
    (∀ data ed ml, s.px.stage = 2 → (s.px.buf ++ data).length < 5445 →
      ∃ t, exec (.bootReadResponse ⟨data, ed, ml⟩) s = .next t ∧ t.px.stage = 2 ∧ t.px.buf = s.px.buf ++ data) ∧
    (∀ data ed ml, s.px.stage = 2 → 5445 ≤ (s.px.buf ++ data).length →
      let x : Manifest := { bytes := (s.px.buf ++ data).take 5445, edOk := ed, mldsaOk := ml }
      manifestFault x s.px.romKeys s.px.minSvn = none → ∃ t, exec (.bootReadResponse ⟨data, ed, ml⟩) s = .next t ∧ t.px.stage = 3 ∧ t.px.manifest = some x) ∧
    (∀ data ed ml m, s.px.stage = 3 → s.px.manifest = some m → s.px.imageLen ≤ (s.px.buf ++ data).length →
      Config.sha384 (s.px.buf ++ data) = m.imageDigest → (s.px.buf ++ data).length = m.imageLen →
      ∃ t, exec (.bootReadResponse ⟨data, ed, ml⟩) s = .next t ∧ t.px.stage = 5 ∧ t.px.wBoot = true) ∧
    (s.px.stage = 2 ∨ s.px.stage = 3 → s.px.tries < 7 → ∃ t, exec .bootReadRetry s = .next t ∧ t.px.tries = s.px.tries + 1 ∧
      t.host.sent = .bootRead (s.px.stage == 2) s.px.got (Nat.min 8192 ((if s.px.stage = 2 then 5445 else s.px.imageLen) - s.px.got)) :: s.host.sent) ∧
    (s.px.stage = 4 → ∃ t, exec .bootRetryTimer s = .next t ∧ t.px.stage = 1)) ∧
  (∀ (s : State), s.px.stage = 5 → ∃ t, exec .bootWipeDone s = .next t ∧ t.px.stage = 6 ∧ t.px.wStage = 0 ∧ t.store.wipePending = false) ∧
  (∀ (s : State) (p : BitVec 3) (w : WipeJob),
    (s.px.wipes.find? (fun x => x.scope == p && !x.started) = some w → ∃ t, exec (.wipeStart p) s = .next t ∧ t.px.wStage = 4 ∧ t.px.wScope = p ∧
      t.store.wipePending = true) ∧
    (s.px.wipes.find? (fun x => x.scope == p && x.started) = some w → ∃ t, exec (.wipeLpddrDone p) s = .next t ∧
      t.px.wipes = s.px.wipes.filter (fun x => x != w) ∧
      ∀ f ∈ scopeFields p, ∀ x, f * lpField ≤ x → x < (f + 1) * lpField → Memory.read t.mem x = 0))

/-- R357, R358, Table 11-8: where each generation 2 command completes with the effect of the generation 3 command that it stands for.
Where the manual leaves a point open its clauses follow log 10 and 15. -/
def Obligations.Generation2CommandsComplete : Prop :=
  ∀ (s : State) (q : Req2) (i : Nat) (k : Session),
    let f := s.seat 0
    let r : Req := { sess := q.sess, seq := seq2 k.h q.seq, part := 6, cmd := q.op, vlan := q.vlan, src := q.src }
    let rests : Prop := s.atRest 0 = true ∧ f.cm.seatState ≠ 1
    (∀ cred nonce share j, s.px.stage = 6 → s.host.gen2En = true → s.px.certsOk = true → s.wipingTarget 6 = false → s.tagOk q.vlan = true →
      s.partLive 6 = true → s.boundSlot 6 = none → s.px.service = false → s.cred2 cred = true → s.freeSlot = some j →
      ∃ t x, exec (.gen2Open q cred ⟨nonce, share⟩) s = .next t ∧ t.slot j = some x ∧ x.gen2 = true ∧ x.part = 6 ∧ (t.seat 0).cm.seatState = 4) ∧
    (Admitted2 s q i k 1 4 .any → ∃ t, exec (.gen2Close q) s = .next t ∧ Answered2 t q 0 (· = .empty) ∧ t.slot i = none) ∧
    (Admitted2 s q i k 1 5 .any → ∃ t, exec (.gen2Info q) s = .next t ∧ Answered2 t q 0 (· = .words ((s.admitted r k).statusWords 6))) ∧
    (∀ p n, Admitted2 s q i k 3 1 .bound → rests →
      ∃ t, exec (.gen2Load q (.start p n)) s = .next t ∧ Answered2 t q 0 (· = .empty) ∧
        (t.seat 0).staging = some { plan := p, len := n, addr := p.regions.staging }) ∧
    (∀ x o bs, Admitted2 s q i k 3 2 .bound → rests → f.staging = some x → o + bs.length ≤ x.len →
      ∃ t, exec (.gen2Load q (.data o bs)) s = .next t ∧ Answered2 t q 0 (· = .empty) ∧
        (t.seat 0).staging = some { x with arrived := addSpan x.arrived o (o + bs.length) }) ∧
    (∀ x, Admitted2 s q i k 3 3 .bound → rests → f.staging = some x → spansCover x.arrived x.len = true →
      planFault x.plan (s.seatFields 0) = none → ∃ t, exec (.gen2Load q .commit) s = .next t ∧ (t.seat 0).plan = some x.plan) ∧
    (∀ o bs, Admitted2 s q i k 3 6 .bound → f.plan.isSome = true → s.atRest 0 = true → o + bs.length ≤ f.shardLen →
      ∃ t, exec (.gen2Weights q (.data o bs)) s = .next t ∧ Answered2 t q 0 (· = .empty) ∧ t.mem = (s.libWrite 0 (f.committedBase + o) bs).mem) ∧
    (∀ step, Admitted2 s q i k 3 7 .bound → f.plan.isSome = true → s.atRest 0 = true →
      ∃ t, exec (.gen2Weights q (.commit step)) s = .next t ∧ Answered2 t q 0 (· = .empty) ∧ (t.seat 0).cm.committed = step) ∧
    (∀ p h, Admitted2 s q i k 3 4 .bound → f.plan = some p → s.headerBad 0 false p h = none → h.inputLen ≠ 0 →
      (f.cm.ownSlot (h.step.toNat % 3)).st = .free → (∀ z ∈ f.cm.hist, z.1 ≠ h.step) →
      ∃ t, exec (.gen2Feed q (.start h)) s = .next t ∧ Answered2 t q 0 (· = .empty) ∧ ((t.seat 0).cm.ownSlot (h.step.toNat % 3)).hdr = some h) ∧
    (∀ step o bs h, Admitted2 s q i k 3 5 .bound → f.plan.isSome = true → (f.cm.ownSlot (step.toNat % 3)).holds step = true →
      (f.cm.ownSlot (step.toNat % 3)).st = .filling → (f.cm.ownSlot (step.toNat % 3)).hdr = some h → o + bs.length ≤ h.inputLen →
      spansCover (addSpan (f.cm.ownSlot (step.toNat % 3)).arrived o (o + bs.length)) h.inputLen = false →
      ∃ t, exec (.gen2Feed q (.data step o bs)) s = .next t ∧ Answered2 t q 0 (· = .empty) ∧
        ((t.seat 0).cm.ownSlot (step.toNat % 3)).arrived = addSpan (f.cm.ownSlot (step.toNat % 3)).arrived o (o + bs.length)) ∧
    (∀ p, Admitted2 s q i k 4 1 .bound → f.plan = some p → f.noShard = false → f.cm.partnerOk = false →
      ∃ t, exec (.gen2Go q) s = .next t ∧ Answered2 t q 0 (· = .empty) ∧ (t.seat 0).start = some { bell := basicBell f.tt.bell, entry := ((s.admitted r k).basicEntry 0 p).2 }) ∧
    (Admitted2 s q i k 4 2 .bound → f.plan.isSome = true →
      ∃ t, exec (.gen2Halt q) s = .next t ∧ Answered2 t q 0 (· = .empty) ∧ (t.seat 0).stop = some .nextVerdict) ∧
    (∀ id len, Admitted2 s q i k 5 1 .bound → f.plan.isSome = true → f.cm.seatState = 4 →
      ∃ t, exec (.gen2Fetch q id 0 len) s = .next t ∧ (t.seat 0).reads = f.reads.filter (fun y => y.sess != q.sess) ++
        [{ id := f.nextRead, sess := q.sess, immediate := true, step := f.cm.committed }]) ∧
    (∀ addrs, Admitted2 s q i k 5 4 .boundOwner → addrs ≠ [] → addrs.length ≤ 128 →
      (∀ a ∈ addrs, ∃ x, regAddr a.toNat = some x ∧ k.mayRead x = true ∧ ((s.admitted r k).sessionRead k a.toNat).isSome = true) →
      ∃ t, exec (.gen2Regs q addrs) s = .next t ∧
        Answered2 t q 0 (· = .words (addrs.map (fun a => ((s.admitted r k).sessionRead k a.toNat).getD 0)))) ∧
    (Admitted2 s q i k 7 1 .any → ∃ t, exec (.gen2Health q) s = .next t ∧ Answered2 t q 0 (· = .bytes ((k.view 6).flatMap (fun g => s.cardRecords g 0 0 0) ++ s.powerBytes k))) ∧
    (Admitted2 s q i k 8 4 .bound7 → s.px.resets = [] → s.collecting [0, 1, 2, 3] = false →
      (∃ t w, exec (.gen2Reset q .context) s = .next t ∧ t.px.resets = [w] ∧ w.rung = .context ∧ w.dumpId = some s.nextDump) ∧
      ∃ t w, exec (.gen2Reset q .partition) s = .next t ∧ t.px.resets = [w] ∧ w.rung = .partition ∧ w.dumpId = some s.nextDump) ∧
    (∀ off, Admitted2 s q i k 9 1 .bound7 → s.collecting [0, 1, 2, 3] = false →
      ∃ t, exec (.gen2Dump q 0 off) s = .next t ∧ ∀ g, g < 4 → ∃ d, (t.field g).hm.collecting = some d ∧ d.id = s.nextDump) ∧
    (∀ id off, Admitted2 s q i k 9 3 .bound7 → id ≠ 0 → off + 0x100000 < ((s.shares 6 id).flatMap (fun (d : Dump) => d.data)).length →
      ∃ t, exec (.gen2Dump q id off) s = .next t ∧
        Answered2 t q 0 (· = .bytes ((((s.shares 6 id).flatMap (fun (d : Dump) => d.data)).drop off).take 0x100000)))

/-! ### The whole block -/

/-- The model's step (log 1, log 3): every command has a next state in every state, and none is refused or faults. The command at the front of the queue is executed with the queue's rest; an empty queue is one tick of
the clock, which moves HM_CLK, the count of clk, and nothing else. No row of the opcode table has bits, so no word spells a command. -/
def Obligations.StepTakesTheFront : Prop :=
  (∀ (c : Instr) (s : State), ∃ t, exec c s = .next t) ∧
  (∀ (c : Instr) (r : List Instr) (s : State), s.pending = c :: r → step s = exec c { s with pending := r }) ∧
  (∀ (s : State), s.pending = [] → step s = .next { s with hmClk := s.hmClk + 1 }) ∧
  (∀ (s : State) (n w : Nat), decodeTableWord n w = none ∧ s.withFetchWord n w = s)

/-- R16 to R18, R84, R360, R413 and the tables they name: what every step keeps, from every state. The sparse tables stay in their one canonical form
and name no core, field or link that the module does not have; and the queue loses its front and nothing else, so that commands are taken in
their order. -/
def Obligations.EveryStepKeepsTheCanonicalForm : Prop :=
  ∀ (s t : State), step s = .next t → (s.canonical → t.canonical) ∧ t.pending = s.pending.tail

/-- R47, R52, R81, R83, R84, R121, R138, R181, R359, R403, R436, R440: the module right after reset. The boot ROM is at stage 0 with power good; no core has a lesson, s2
holds its number, a0 its slate's and a1 its desk's base; every timetable holds with the count at 0; links are OFF; no port, session or plan;
counters are zero; the tables are canonical. Memory lists nothing and reads zero, which is the model's choice for LPDDR (log 5). -/
def Obligations.ResetLeavesTheReset : Prop :=
  let s := State.reset
  s.canonical ∧ s.pending = [] ∧ s.px.stage = 0 ∧ s.romRuns = true ∧ s.px.wipes = [] ∧ s.px.resets = [] ∧ s.px.cause = 1 ∧ s.store.sealed = false ∧
  (∀ a, s.counter a = { count := 0, sat := false }) ∧ (∀ a, Memory.read s.mem a = 0) ∧ s.hmClk = 0 ∧
  (∀ c, c < 2000 → (s.core c).mode = .noLesson ∧ (s.core c).pc = 0 ∧ (s.core c).sreg 2 = BitVec.ofNat 64 c ∧
    (∀ r, r ≠ 2 → (s.core c).sreg r = 0) ∧ (s.core c).areg 0 = BitVec.ofNat 48 (slateBase c) ∧ (s.core c).areg 1 = BitVec.ofNat 48 (deskBase c) ∧
    (s.core c).oscale = 0x3F800000 ∧ (s.core c).vxEps = 0x35800000 ∧ (s.core c).mxFlags = 0 ∧ (s.core c).vxFlags = 0 ∧ (s.core c).fault = 0) ∧
  (∀ f, (s.seat f).tt.hold = true ∧ (s.seat f).tt.bell = 0 ∧ (s.seat f).tt.period = 8500 ∧ (s.seat f).tt.slots = 6944 ∧ (s.seat f).tt.lag = 2 ∧
    (s.seat f).tt.abortLimit = 2 ∧ (s.seat f).plan = none ∧ (s.seat f).running = false ∧ (s.seat f).vlog = []) ∧
  (∀ l, (s.link l).st = .off ∧ (s.link l).map = 0x76543210 ∧ (s.link l).resendMax = 2 ∧ (s.link l).resendAge = 1) ∧
  s.host.up = false ∧ s.host.mode = 0 ∧ s.host.layout = 0xDB6 ∧ (∀ i, s.slot i = none) ∧ s.host.gen2En = false ∧
  s.pw.cap = 5600 ∧ s.pw.mask = 0x3FF ∧ s.pw.alert = 0

/-- R90, R91, Tables 03-5, 05-4: the word of every legal Chalk instruction decodes to that instruction, with every operand at every value that the
encoding admits, and a word that decodes to an instruction is that instruction's one word. -/
def Obligations.ChalkWordsRoundTrip : Prop :=
  (∀ (x : Instr) (op : BitVec 8) (c : Nat) (i : Ins), WellFormed.wfIns x = true → opOf x = some (op, c, i) →
     encodeIns x = some (wordOf op i) ∧ decodeIns c (wordOf op i) = some x ∧ opOfWord (wordOf op i) = op ∧ insOfWord (wordOf op i) = i) ∧
  (∀ (c : Nat) (w : Word) (x : Instr), c < 2000 → decodeIns c w = some x → WellFormed.wfIns x = true ∧ encodeIns x = some w)
end

