-- ==== Sys2Proof/Laws/Table.lean ====
section
/-! SUPPORT. Laws of the sparse tables: what an index reads after a write, and that every table operation keeps the canonical form. -/

namespace Sys2Proof.Machine

variable {α : Type}

@[simp] theorem Tab.find_nil (i : Nat) : Tab.find ([] : Tab α) i = none := rfl

@[simp] theorem Tab.get_nil (d : Nat → α) (i : Nat) : Tab.get d [] i = d i := rfl

/-- A value put at an index is found there. -/
@[simp] theorem Tab.find_put_self (t : Tab α) (i : Nat) (v : α) : Tab.find (Tab.put t i v) i = some v := by
  induction t with
  | nil => simp [Tab.put, Tab.find]
  | cons e r ih =>
    obtain ⟨j, w⟩ := e
    simp only [Tab.put]
    split
    · simp [Tab.find]
    · split <;> simp_all [Tab.find]

/-- Putting a value leaves every other index as it was. -/
theorem Tab.find_put_ne (t : Tab α) {i j : Nat} (v : α) (h : j ≠ i) : Tab.find (Tab.put t i v) j = Tab.find t j := by
  induction t with
  | nil => simp [Tab.put, Tab.find, Ne.symm h]
  | cons e r ih =>
    obtain ⟨k, w⟩ := e
    simp only [Tab.put]
    split
    · simp [Tab.find, Ne.symm h]
    · split
      · rename_i hk; subst hk; simp [Tab.find, Ne.symm h]
      · simp [Tab.find, ih]

theorem Tab.find_erase_self (t : Tab α) (i : Nat) : Tab.find (Tab.erase t i) i = none := by
  induction t with
  | nil => rfl
  | cons e r ih =>
    obtain ⟨j, w⟩ := e
    by_cases hj : j = i
    · subst hj; simpa [Tab.erase] using ih
    · simpa [Tab.erase, Tab.find, hj] using ih

theorem Tab.find_erase_ne (t : Tab α) {i j : Nat} (h : j ≠ i) : Tab.find (Tab.erase t i) j = Tab.find t j := by
  induction t with
  | nil => rfl
  | cons e r ih =>
    obtain ⟨k, w⟩ := e
    by_cases hk : k = i
    · subst hk
      simpa [Tab.erase, Tab.find, Ne.symm h] using ih
    · simp only [Tab.erase, List.filter_cons, bne_iff_ne, ne_eq, hk, not_false_eq_true, if_true, Tab.find] at ih ⊢
      split <;> simp_all

/-- What was written at an index is read there. -/
@[simp] theorem Tab.get_set_self [DecidableEq α] (d : Nat → α) (t : Tab α) (i : Nat) (v : α) :
    Tab.get d (Tab.set d t i v) i = v := by
  unfold Tab.set Tab.get
  split
  · rename_i h; simp [Tab.find_erase_self, h]
  · simp

/-- A write leaves every other index as it was. -/
@[simp] theorem Tab.get_set_ne [DecidableEq α] (d : Nat → α) (t : Tab α) {i j : Nat} (v : α) (h : j ≠ i) :
    Tab.get d (Tab.set d t i v) j = Tab.get d t j := by
  unfold Tab.set Tab.get
  split
  · rw [Tab.find_erase_ne t h]
  · rw [Tab.find_put_ne t v h]

/-- A write read back anywhere. -/
theorem Tab.get_set [DecidableEq α] (d : Nat → α) (t : Tab α) (i j : Nat) (v : α) :
    Tab.get d (Tab.set d t i v) j = if j = i then v else Tab.get d t j := by
  split
  · rename_i h; subst h; simp
  · rename_i h; simp [h]

/-- The later of two puts at one index stands. -/
theorem Tab.put_put (t : Tab α) (i : Nat) (v w : α) : Tab.put (Tab.put t i v) i w = Tab.put t i w := by
  induction t with
  | nil => simp [Tab.put]
  | cons e r ih =>
    obtain ⟨j, x⟩ := e
    simp only [Tab.put]
    split
    · simp [Tab.put]
    · split
      · simp [Tab.put]
      · rename_i h1 h2; simp [Tab.put, h1, h2, ih]

theorem Tab.erase_put (t : Tab α) (i : Nat) (v : α) : Tab.erase (Tab.put t i v) i = Tab.erase t i := by
  induction t with
  | nil => simp [Tab.put, Tab.erase]
  | cons e r ih =>
    obtain ⟨j, x⟩ := e
    simp only [Tab.put]
    split
    · simp [Tab.erase]
    · split
      · rename_i h2; simp [Tab.erase, h2]
      · simp only [Tab.erase, List.filter_cons] at ih ⊢; rw [ih]

/-- The later of two writes at one index stands, where the first one listed its value. -/
theorem Tab.set_set [DecidableEq α] (d : Nat → α) (t : Tab α) (i : Nat) (v w : α) (h : v ≠ d i) :
    Tab.set d (Tab.set d t i v) i w = Tab.set d t i w := by
  simp only [Tab.set, h, if_false, Tab.put_put, Tab.erase_put]

/-! ### Canonical form -/

theorem Tab.sorted_cons (e : Nat × α) (r : Tab α) :
    Tab.sorted (e :: r) = true ↔ (∀ x ∈ r, e.1 < x.1) ∧ Tab.sorted r = true := by
  obtain ⟨i, v⟩ := e
  simp [Tab.sorted]

theorem Tab.mem_put {t : Tab α} {i : Nat} {v : α} {x : Nat × α} (h : x ∈ Tab.put t i v) : x = (i, v) ∨ x ∈ t := by
  induction t with
  | nil => simpa [Tab.put] using h
  | cons e r ih =>
    obtain ⟨j, w⟩ := e
    simp only [Tab.put] at h
    split at h
    · simpa using h
    · split at h
      · rename_i hj; subst hj
        rcases List.mem_cons.1 h with h | h
        · exact .inl h
        · exact .inr (List.mem_cons_of_mem _ h)
      · rcases List.mem_cons.1 h with h | h
        · exact .inr (h ▸ List.mem_cons_self ..)
        · exact (ih h).imp id (List.mem_cons_of_mem _)

theorem Tab.sorted_put {t : Tab α} (i : Nat) (v : α) (h : Tab.sorted t = true) : Tab.sorted (Tab.put t i v) = true := by
  induction t with
  | nil => rfl
  | cons e r ih =>
    obtain ⟨j, w⟩ := e
    rw [Tab.sorted_cons] at h
    simp only [Tab.put]
    split
    · rename_i hij
      rw [Tab.sorted_cons]
      refine ⟨fun x hx => ?_, ?_⟩
      · rcases List.mem_cons.1 hx with rfl | hx
        · exact hij
        · exact lt_trans hij (h.1 x hx)
      · rw [Tab.sorted_cons]; exact h
    · split
      · rename_i hj; subst hj
        rw [Tab.sorted_cons]; exact h
      · rename_i h1 h2
        rw [Tab.sorted_cons]
        refine ⟨fun x hx => ?_, ih h.2⟩
        rcases Tab.mem_put hx with rfl | hx
        · simp only; omega
        · exact h.1 x hx

theorem Tab.sorted_filter {t : Tab α} (p : Nat × α → Bool) (h : Tab.sorted t = true) : Tab.sorted (t.filter p) = true := by
  induction t with
  | nil => rfl
  | cons e r ih =>
    rw [Tab.sorted_cons] at h
    rw [List.filter_cons]
    split
    · rw [Tab.sorted_cons]
      exact ⟨fun x hx => h.1 x (List.mem_filter.1 hx).1, ih h.2⟩
    · exact ih h.2

/-- The canonical form, as what it says: indices rise, and no entry equals what an unlisted index reads as. -/
theorem Tab.wf_iff [DecidableEq α] (d : Nat → α) (t : Tab α) :
    Tab.wf d t = true ↔ Tab.sorted t = true ∧ ∀ e ∈ t, e.2 ≠ d e.1 := by
  simp [Tab.wf]

theorem Tab.wf_nil [DecidableEq α] (d : Nat → α) : Tab.wf d [] = true := rfl

/-- Unlisting entries keeps the form. -/
theorem Tab.wf_filter [DecidableEq α] (d : Nat → α) (t : Tab α) (p : Nat × α → Bool) (h : Tab.wf d t = true) :
    Tab.wf d (t.filter p) = true := by
  rw [Tab.wf_iff] at h ⊢
  exact ⟨Tab.sorted_filter p h.1, fun e he => h.2 e (List.mem_filter.1 he).1⟩

/-- A write keeps the form. -/
theorem Tab.wf_set [DecidableEq α] (d : Nat → α) (t : Tab α) (i : Nat) (v : α) (h : Tab.wf d t = true) :
    Tab.wf d (Tab.set d t i v) = true := by
  unfold Tab.set
  split
  · exact Tab.wf_filter d t _ h
  · rename_i hv
    rw [Tab.wf_iff] at h ⊢
    refine ⟨Tab.sorted_put i v h.1, fun e he => ?_⟩
    rcases Tab.mem_put he with rfl | he
    · exact hv
    · exact h.2 e he

theorem Tab.wf_clearRange [DecidableEq α] (d : Nat → α) (t : Tab α) (lo n : Nat) (h : Tab.wf d t = true) :
    Tab.wf d (Tab.clearRange t lo n) = true := Tab.wf_filter d t _ h

/-- A cleared range reads as unlisted, the rest as before. -/
theorem Tab.get_clearRange (d : Nat → α) (t : Tab α) (lo n j : Nat) :
    Tab.get d (Tab.clearRange t lo n) j = if lo ≤ j ∧ j < lo + n then d j else Tab.get d t j := by
  unfold Tab.get
  induction t with
  | nil => simp [Tab.clearRange]
  | cons e r ih =>
    obtain ⟨k, w⟩ := e
    by_cases hk : lo ≤ k ∧ k < lo + n
    · have : Tab.clearRange ((k, w) :: r) lo n = Tab.clearRange r lo n := by simp [Tab.clearRange, hk]
      rw [this, ih]
      split
      · rfl
      · rename_i hj
        have : k ≠ j := fun h => hj (h ▸ hk)
        simp [Tab.find, this]
    · have : Tab.clearRange ((k, w) :: r) lo n = (k, w) :: Tab.clearRange r lo n := by
        simp only [Tab.clearRange, List.filter_cons]; simp; omega
      rw [this]
      by_cases hkj : k = j
      · subst hkj; simp [Tab.find, hk]
      · simp only [Tab.find, hkj, if_false] at ih ⊢; exact ih

end Sys2Proof.Machine
end

