-- ==== Sys2Proof/Laws/State.lean ====
section
/-! SUPPORT. One lemma per field per update of the state, and what each unit reads as after an update of a unit. -/

namespace Sys2Proof.Machine

@[simp] theorem State.setCore_mem (s : State) (c : Nat) (k : Core) : (s.setCore c k).mem = s.mem := by
  unfold State.setCore; split <;> rfl
@[simp] theorem State.setCore_lpTags (s : State) (c : Nat) (k : Core) : (s.setCore c k).lpTags = s.lpTags := by
  unfold State.setCore; split <;> rfl
@[simp] theorem State.setCore_bad (s : State) (c : Nat) (k : Core) : (s.setCore c k).bad = s.bad := by
  unfold State.setCore; split <;> rfl
@[simp] theorem State.setCore_ce (s : State) (c : Nat) (k : Core) : (s.setCore c k).ce = s.ce := by
  unfold State.setCore; split <;> rfl
@[simp] theorem State.setCore_flaws (s : State) (c : Nat) (k : Core) : (s.setCore c k).flaws = s.flaws := by
  unfold State.setCore; split <;> rfl
@[simp] theorem State.setCore_held (s : State) (c : Nat) (k : Core) : (s.setCore c k).held = s.held := by
  unfold State.setCore; split <;> rfl
@[simp] theorem State.setCore_seats (s : State) (c : Nat) (k : Core) : (s.setCore c k).seats = s.seats := by
  unfold State.setCore; split <;> rfl
@[simp] theorem State.setCore_fields (s : State) (c : Nat) (k : Core) : (s.setCore c k).fields = s.fields := by
  unfold State.setCore; split <;> rfl
@[simp] theorem State.setCore_links (s : State) (c : Nat) (k : Core) : (s.setCore c k).links = s.links := by
  unfold State.setCore; split <;> rfl
@[simp] theorem State.setCore_counters (s : State) (c : Nat) (k : Core) : (s.setCore c k).counters = s.counters := by
  unfold State.setCore; split <;> rfl
@[simp] theorem State.setCore_latched (s : State) (c : Nat) (k : Core) : (s.setCore c k).latched = s.latched := by
  unfold State.setCore; split <;> rfl
@[simp] theorem State.setCore_host (s : State) (c : Nat) (k : Core) : (s.setCore c k).host = s.host := by
  unfold State.setCore; split <;> rfl
@[simp] theorem State.setCore_px (s : State) (c : Nat) (k : Core) : (s.setCore c k).px = s.px := by
  unfold State.setCore; split <;> rfl
@[simp] theorem State.setCore_store (s : State) (c : Nat) (k : Core) : (s.setCore c k).store = s.store := by
  unfold State.setCore; split <;> rfl
@[simp] theorem State.setCore_nv (s : State) (c : Nat) (k : Core) : (s.setCore c k).nv = s.nv := by
  unfold State.setCore; split <;> rfl
@[simp] theorem State.setCore_pw (s : State) (c : Nat) (k : Core) : (s.setCore c k).pw = s.pw := by
  unfold State.setCore; split <;> rfl
@[simp] theorem State.setCore_coord (s : State) (c : Nat) (k : Core) : (s.setCore c k).coord = s.coord := by
  unfold State.setCore; split <;> rfl
@[simp] theorem State.setCore_hmClk (s : State) (c : Nat) (k : Core) : (s.setCore c k).hmClk = s.hmClk := by
  unfold State.setCore; split <;> rfl
@[simp] theorem State.setCore_free (s : State) (c : Nat) (k : Core) : (s.setCore c k).free = s.free := by
  unfold State.setCore; split <;> rfl
@[simp] theorem State.setCore_pending (s : State) (c : Nat) (k : Core) : (s.setCore c k).pending = s.pending := by
  unfold State.setCore; split <;> rfl
@[simp] theorem State.setField_mem (s : State) (f : Nat) (k : Field) : (s.setField f k).mem = s.mem := by
  unfold State.setField; split <;> rfl
@[simp] theorem State.setField_lpTags (s : State) (f : Nat) (k : Field) : (s.setField f k).lpTags = s.lpTags := by
  unfold State.setField; split <;> rfl
@[simp] theorem State.setField_bad (s : State) (f : Nat) (k : Field) : (s.setField f k).bad = s.bad := by
  unfold State.setField; split <;> rfl
@[simp] theorem State.setField_ce (s : State) (f : Nat) (k : Field) : (s.setField f k).ce = s.ce := by
  unfold State.setField; split <;> rfl
@[simp] theorem State.setField_flaws (s : State) (f : Nat) (k : Field) : (s.setField f k).flaws = s.flaws := by
  unfold State.setField; split <;> rfl
@[simp] theorem State.setField_held (s : State) (f : Nat) (k : Field) : (s.setField f k).held = s.held := by
  unfold State.setField; split <;> rfl
@[simp] theorem State.setField_cores (s : State) (f : Nat) (k : Field) : (s.setField f k).cores = s.cores := by
  unfold State.setField; split <;> rfl
@[simp] theorem State.setField_seats (s : State) (f : Nat) (k : Field) : (s.setField f k).seats = s.seats := by
  unfold State.setField; split <;> rfl
@[simp] theorem State.setField_links (s : State) (f : Nat) (k : Field) : (s.setField f k).links = s.links := by
  unfold State.setField; split <;> rfl
@[simp] theorem State.setField_counters (s : State) (f : Nat) (k : Field) : (s.setField f k).counters = s.counters := by
  unfold State.setField; split <;> rfl
@[simp] theorem State.setField_latched (s : State) (f : Nat) (k : Field) : (s.setField f k).latched = s.latched := by
  unfold State.setField; split <;> rfl
@[simp] theorem State.setField_host (s : State) (f : Nat) (k : Field) : (s.setField f k).host = s.host := by
  unfold State.setField; split <;> rfl
@[simp] theorem State.setField_px (s : State) (f : Nat) (k : Field) : (s.setField f k).px = s.px := by
  unfold State.setField; split <;> rfl
@[simp] theorem State.setField_store (s : State) (f : Nat) (k : Field) : (s.setField f k).store = s.store := by
  unfold State.setField; split <;> rfl
@[simp] theorem State.setField_nv (s : State) (f : Nat) (k : Field) : (s.setField f k).nv = s.nv := by
  unfold State.setField; split <;> rfl
@[simp] theorem State.setField_pw (s : State) (f : Nat) (k : Field) : (s.setField f k).pw = s.pw := by
  unfold State.setField; split <;> rfl
@[simp] theorem State.setField_coord (s : State) (f : Nat) (k : Field) : (s.setField f k).coord = s.coord := by
  unfold State.setField; split <;> rfl
@[simp] theorem State.setField_hmClk (s : State) (f : Nat) (k : Field) : (s.setField f k).hmClk = s.hmClk := by
  unfold State.setField; split <;> rfl
@[simp] theorem State.setField_free (s : State) (f : Nat) (k : Field) : (s.setField f k).free = s.free := by
  unfold State.setField; split <;> rfl
@[simp] theorem State.setField_pending (s : State) (f : Nat) (k : Field) : (s.setField f k).pending = s.pending := by
  unfold State.setField; split <;> rfl
@[simp] theorem State.setLink_mem (s : State) (l : Nat) (k : Link) : (s.setLink l k).mem = s.mem := by
  unfold State.setLink; split <;> rfl
@[simp] theorem State.setLink_lpTags (s : State) (l : Nat) (k : Link) : (s.setLink l k).lpTags = s.lpTags := by
  unfold State.setLink; split <;> rfl
@[simp] theorem State.setLink_bad (s : State) (l : Nat) (k : Link) : (s.setLink l k).bad = s.bad := by
  unfold State.setLink; split <;> rfl
@[simp] theorem State.setLink_ce (s : State) (l : Nat) (k : Link) : (s.setLink l k).ce = s.ce := by
  unfold State.setLink; split <;> rfl
@[simp] theorem State.setLink_flaws (s : State) (l : Nat) (k : Link) : (s.setLink l k).flaws = s.flaws := by
  unfold State.setLink; split <;> rfl
@[simp] theorem State.setLink_held (s : State) (l : Nat) (k : Link) : (s.setLink l k).held = s.held := by
  unfold State.setLink; split <;> rfl
@[simp] theorem State.setLink_cores (s : State) (l : Nat) (k : Link) : (s.setLink l k).cores = s.cores := by
  unfold State.setLink; split <;> rfl
@[simp] theorem State.setLink_seats (s : State) (l : Nat) (k : Link) : (s.setLink l k).seats = s.seats := by
  unfold State.setLink; split <;> rfl
@[simp] theorem State.setLink_fields (s : State) (l : Nat) (k : Link) : (s.setLink l k).fields = s.fields := by
  unfold State.setLink; split <;> rfl
@[simp] theorem State.setLink_counters (s : State) (l : Nat) (k : Link) : (s.setLink l k).counters = s.counters := by
  unfold State.setLink; split <;> rfl
@[simp] theorem State.setLink_latched (s : State) (l : Nat) (k : Link) : (s.setLink l k).latched = s.latched := by
  unfold State.setLink; split <;> rfl
@[simp] theorem State.setLink_host (s : State) (l : Nat) (k : Link) : (s.setLink l k).host = s.host := by
  unfold State.setLink; split <;> rfl
@[simp] theorem State.setLink_px (s : State) (l : Nat) (k : Link) : (s.setLink l k).px = s.px := by
  unfold State.setLink; split <;> rfl
@[simp] theorem State.setLink_store (s : State) (l : Nat) (k : Link) : (s.setLink l k).store = s.store := by
  unfold State.setLink; split <;> rfl
@[simp] theorem State.setLink_nv (s : State) (l : Nat) (k : Link) : (s.setLink l k).nv = s.nv := by
  unfold State.setLink; split <;> rfl
@[simp] theorem State.setLink_pw (s : State) (l : Nat) (k : Link) : (s.setLink l k).pw = s.pw := by
  unfold State.setLink; split <;> rfl
@[simp] theorem State.setLink_coord (s : State) (l : Nat) (k : Link) : (s.setLink l k).coord = s.coord := by
  unfold State.setLink; split <;> rfl
@[simp] theorem State.setLink_hmClk (s : State) (l : Nat) (k : Link) : (s.setLink l k).hmClk = s.hmClk := by
  unfold State.setLink; split <;> rfl
@[simp] theorem State.setLink_free (s : State) (l : Nat) (k : Link) : (s.setLink l k).free = s.free := by
  unfold State.setLink; split <;> rfl
@[simp] theorem State.setLink_pending (s : State) (l : Nat) (k : Link) : (s.setLink l k).pending = s.pending := by
  unfold State.setLink; split <;> rfl
@[simp] theorem State.setSeat_mem (s : State) (f : Nat) (k : Seat) : (s.setSeat f k).mem = s.mem := by
  unfold State.setSeat; split <;> rfl
@[simp] theorem State.setSeat_lpTags (s : State) (f : Nat) (k : Seat) : (s.setSeat f k).lpTags = s.lpTags := by
  unfold State.setSeat; split <;> rfl
@[simp] theorem State.setSeat_bad (s : State) (f : Nat) (k : Seat) : (s.setSeat f k).bad = s.bad := by
  unfold State.setSeat; split <;> rfl
@[simp] theorem State.setSeat_ce (s : State) (f : Nat) (k : Seat) : (s.setSeat f k).ce = s.ce := by
  unfold State.setSeat; split <;> rfl
@[simp] theorem State.setSeat_flaws (s : State) (f : Nat) (k : Seat) : (s.setSeat f k).flaws = s.flaws := by
  unfold State.setSeat; split <;> rfl
@[simp] theorem State.setSeat_held (s : State) (f : Nat) (k : Seat) : (s.setSeat f k).held = s.held := by
  unfold State.setSeat; split <;> rfl
@[simp] theorem State.setSeat_cores (s : State) (f : Nat) (k : Seat) : (s.setSeat f k).cores = s.cores := by
  unfold State.setSeat; split <;> rfl
@[simp] theorem State.setSeat_fields (s : State) (f : Nat) (k : Seat) : (s.setSeat f k).fields = s.fields := by
  unfold State.setSeat; split <;> rfl
@[simp] theorem State.setSeat_links (s : State) (f : Nat) (k : Seat) : (s.setSeat f k).links = s.links := by
  unfold State.setSeat; split <;> rfl
@[simp] theorem State.setSeat_counters (s : State) (f : Nat) (k : Seat) : (s.setSeat f k).counters = s.counters := by
  unfold State.setSeat; split <;> rfl
@[simp] theorem State.setSeat_latched (s : State) (f : Nat) (k : Seat) : (s.setSeat f k).latched = s.latched := by
  unfold State.setSeat; split <;> rfl
@[simp] theorem State.setSeat_host (s : State) (f : Nat) (k : Seat) : (s.setSeat f k).host = s.host := by
  unfold State.setSeat; split <;> rfl
@[simp] theorem State.setSeat_px (s : State) (f : Nat) (k : Seat) : (s.setSeat f k).px = s.px := by
  unfold State.setSeat; split <;> rfl
@[simp] theorem State.setSeat_store (s : State) (f : Nat) (k : Seat) : (s.setSeat f k).store = s.store := by
  unfold State.setSeat; split <;> rfl
@[simp] theorem State.setSeat_nv (s : State) (f : Nat) (k : Seat) : (s.setSeat f k).nv = s.nv := by
  unfold State.setSeat; split <;> rfl
@[simp] theorem State.setSeat_pw (s : State) (f : Nat) (k : Seat) : (s.setSeat f k).pw = s.pw := by
  unfold State.setSeat; split <;> rfl
@[simp] theorem State.setSeat_coord (s : State) (f : Nat) (k : Seat) : (s.setSeat f k).coord = s.coord := by
  unfold State.setSeat; split <;> rfl
@[simp] theorem State.setSeat_hmClk (s : State) (f : Nat) (k : Seat) : (s.setSeat f k).hmClk = s.hmClk := by
  unfold State.setSeat; split <;> rfl
@[simp] theorem State.setSeat_free (s : State) (f : Nat) (k : Seat) : (s.setSeat f k).free = s.free := by
  unfold State.setSeat; split <;> rfl
@[simp] theorem State.setSeat_pending (s : State) (f : Nat) (k : Seat) : (s.setSeat f k).pending = s.pending := by
  unfold State.setSeat; split <;> rfl
@[simp] theorem State.setCounter_mem (s : State) (a : Nat) (k : Counter) : (s.setCounter a k).mem = s.mem := rfl
@[simp] theorem State.setCounter_lpTags (s : State) (a : Nat) (k : Counter) : (s.setCounter a k).lpTags = s.lpTags := rfl
@[simp] theorem State.setCounter_bad (s : State) (a : Nat) (k : Counter) : (s.setCounter a k).bad = s.bad := rfl
@[simp] theorem State.setCounter_ce (s : State) (a : Nat) (k : Counter) : (s.setCounter a k).ce = s.ce := rfl
@[simp] theorem State.setCounter_flaws (s : State) (a : Nat) (k : Counter) : (s.setCounter a k).flaws = s.flaws := rfl
@[simp] theorem State.setCounter_held (s : State) (a : Nat) (k : Counter) : (s.setCounter a k).held = s.held := rfl
@[simp] theorem State.setCounter_cores (s : State) (a : Nat) (k : Counter) : (s.setCounter a k).cores = s.cores := rfl
@[simp] theorem State.setCounter_seats (s : State) (a : Nat) (k : Counter) : (s.setCounter a k).seats = s.seats := rfl
@[simp] theorem State.setCounter_fields (s : State) (a : Nat) (k : Counter) : (s.setCounter a k).fields = s.fields := rfl
@[simp] theorem State.setCounter_links (s : State) (a : Nat) (k : Counter) : (s.setCounter a k).links = s.links := rfl
@[simp] theorem State.setCounter_latched (s : State) (a : Nat) (k : Counter) : (s.setCounter a k).latched = s.latched := rfl
@[simp] theorem State.setCounter_host (s : State) (a : Nat) (k : Counter) : (s.setCounter a k).host = s.host := rfl
@[simp] theorem State.setCounter_px (s : State) (a : Nat) (k : Counter) : (s.setCounter a k).px = s.px := rfl
@[simp] theorem State.setCounter_store (s : State) (a : Nat) (k : Counter) : (s.setCounter a k).store = s.store := rfl
@[simp] theorem State.setCounter_nv (s : State) (a : Nat) (k : Counter) : (s.setCounter a k).nv = s.nv := rfl
@[simp] theorem State.setCounter_pw (s : State) (a : Nat) (k : Counter) : (s.setCounter a k).pw = s.pw := rfl
@[simp] theorem State.setCounter_coord (s : State) (a : Nat) (k : Counter) : (s.setCounter a k).coord = s.coord := rfl
@[simp] theorem State.setCounter_hmClk (s : State) (a : Nat) (k : Counter) : (s.setCounter a k).hmClk = s.hmClk := rfl
@[simp] theorem State.setCounter_free (s : State) (a : Nat) (k : Counter) : (s.setCounter a k).free = s.free := rfl
@[simp] theorem State.setCounter_pending (s : State) (a : Nat) (k : Counter) : (s.setCounter a k).pending = s.pending := rfl
@[simp] theorem State.burn_mem (s : State) (n : Nat) : (s.burn n).mem = s.mem := rfl
@[simp] theorem State.burn_lpTags (s : State) (n : Nat) : (s.burn n).lpTags = s.lpTags := rfl
@[simp] theorem State.burn_bad (s : State) (n : Nat) : (s.burn n).bad = s.bad := rfl
@[simp] theorem State.burn_ce (s : State) (n : Nat) : (s.burn n).ce = s.ce := rfl
@[simp] theorem State.burn_flaws (s : State) (n : Nat) : (s.burn n).flaws = s.flaws := rfl
@[simp] theorem State.burn_held (s : State) (n : Nat) : (s.burn n).held = s.held := rfl
@[simp] theorem State.burn_cores (s : State) (n : Nat) : (s.burn n).cores = s.cores := rfl
@[simp] theorem State.burn_seats (s : State) (n : Nat) : (s.burn n).seats = s.seats := rfl
@[simp] theorem State.burn_fields (s : State) (n : Nat) : (s.burn n).fields = s.fields := rfl
@[simp] theorem State.burn_links (s : State) (n : Nat) : (s.burn n).links = s.links := rfl
@[simp] theorem State.burn_counters (s : State) (n : Nat) : (s.burn n).counters = s.counters := rfl
@[simp] theorem State.burn_latched (s : State) (n : Nat) : (s.burn n).latched = s.latched := rfl
@[simp] theorem State.burn_host (s : State) (n : Nat) : (s.burn n).host = s.host := rfl
@[simp] theorem State.burn_px (s : State) (n : Nat) : (s.burn n).px = s.px := rfl
@[simp] theorem State.burn_store (s : State) (n : Nat) : (s.burn n).store = s.store := rfl
@[simp] theorem State.burn_nv (s : State) (n : Nat) : (s.burn n).nv = s.nv := rfl
@[simp] theorem State.burn_pw (s : State) (n : Nat) : (s.burn n).pw = s.pw := rfl
@[simp] theorem State.burn_coord (s : State) (n : Nat) : (s.burn n).coord = s.coord := rfl
@[simp] theorem State.burn_hmClk (s : State) (n : Nat) : (s.burn n).hmClk = s.hmClk := rfl
@[simp] theorem State.burn_pending (s : State) (n : Nat) : (s.burn n).pending = s.pending := rfl
@[simp] theorem State.modMc_mem (s : State) (n : Nat) (g : Mc → Mc) : (s.modMc n g).mem = s.mem := by
  simp [State.modMc]
@[simp] theorem State.modMc_lpTags (s : State) (n : Nat) (g : Mc → Mc) : (s.modMc n g).lpTags = s.lpTags := by
  simp [State.modMc]
@[simp] theorem State.modMc_bad (s : State) (n : Nat) (g : Mc → Mc) : (s.modMc n g).bad = s.bad := by
  simp [State.modMc]
@[simp] theorem State.modMc_ce (s : State) (n : Nat) (g : Mc → Mc) : (s.modMc n g).ce = s.ce := by
  simp [State.modMc]
@[simp] theorem State.modMc_flaws (s : State) (n : Nat) (g : Mc → Mc) : (s.modMc n g).flaws = s.flaws := by
  simp [State.modMc]
@[simp] theorem State.modMc_held (s : State) (n : Nat) (g : Mc → Mc) : (s.modMc n g).held = s.held := by
  simp [State.modMc]
@[simp] theorem State.modMc_cores (s : State) (n : Nat) (g : Mc → Mc) : (s.modMc n g).cores = s.cores := by
  simp [State.modMc]
@[simp] theorem State.modMc_seats (s : State) (n : Nat) (g : Mc → Mc) : (s.modMc n g).seats = s.seats := by
  simp [State.modMc]
@[simp] theorem State.modMc_links (s : State) (n : Nat) (g : Mc → Mc) : (s.modMc n g).links = s.links := by
  simp [State.modMc]
@[simp] theorem State.modMc_counters (s : State) (n : Nat) (g : Mc → Mc) : (s.modMc n g).counters = s.counters := by
  simp [State.modMc]
@[simp] theorem State.modMc_latched (s : State) (n : Nat) (g : Mc → Mc) : (s.modMc n g).latched = s.latched := by
  simp [State.modMc]
@[simp] theorem State.modMc_host (s : State) (n : Nat) (g : Mc → Mc) : (s.modMc n g).host = s.host := by
  simp [State.modMc]
@[simp] theorem State.modMc_px (s : State) (n : Nat) (g : Mc → Mc) : (s.modMc n g).px = s.px := by
  simp [State.modMc]
@[simp] theorem State.modMc_store (s : State) (n : Nat) (g : Mc → Mc) : (s.modMc n g).store = s.store := by
  simp [State.modMc]
@[simp] theorem State.modMc_nv (s : State) (n : Nat) (g : Mc → Mc) : (s.modMc n g).nv = s.nv := by
  simp [State.modMc]
@[simp] theorem State.modMc_pw (s : State) (n : Nat) (g : Mc → Mc) : (s.modMc n g).pw = s.pw := by
  simp [State.modMc]
@[simp] theorem State.modMc_coord (s : State) (n : Nat) (g : Mc → Mc) : (s.modMc n g).coord = s.coord := by
  simp [State.modMc]
@[simp] theorem State.modMc_hmClk (s : State) (n : Nat) (g : Mc → Mc) : (s.modMc n g).hmClk = s.hmClk := by
  simp [State.modMc]
@[simp] theorem State.modMc_free (s : State) (n : Nat) (g : Mc → Mc) : (s.modMc n g).free = s.free := by
  simp [State.modMc]
@[simp] theorem State.modMc_pending (s : State) (n : Nat) (g : Mc → Mc) : (s.modMc n g).pending = s.pending := by
  simp [State.modMc]
@[simp] theorem State.modLb_mem (s : State) (n : Nat) (g : Lb → Lb) : (s.modLb n g).mem = s.mem := by
  simp [State.modLb]
@[simp] theorem State.modLb_lpTags (s : State) (n : Nat) (g : Lb → Lb) : (s.modLb n g).lpTags = s.lpTags := by
  simp [State.modLb]
@[simp] theorem State.modLb_bad (s : State) (n : Nat) (g : Lb → Lb) : (s.modLb n g).bad = s.bad := by
  simp [State.modLb]
@[simp] theorem State.modLb_ce (s : State) (n : Nat) (g : Lb → Lb) : (s.modLb n g).ce = s.ce := by
  simp [State.modLb]
@[simp] theorem State.modLb_flaws (s : State) (n : Nat) (g : Lb → Lb) : (s.modLb n g).flaws = s.flaws := by
  simp [State.modLb]
@[simp] theorem State.modLb_held (s : State) (n : Nat) (g : Lb → Lb) : (s.modLb n g).held = s.held := by
  simp [State.modLb]
@[simp] theorem State.modLb_cores (s : State) (n : Nat) (g : Lb → Lb) : (s.modLb n g).cores = s.cores := by
  simp [State.modLb]
@[simp] theorem State.modLb_seats (s : State) (n : Nat) (g : Lb → Lb) : (s.modLb n g).seats = s.seats := by
  simp [State.modLb]
@[simp] theorem State.modLb_links (s : State) (n : Nat) (g : Lb → Lb) : (s.modLb n g).links = s.links := by
  simp [State.modLb]
@[simp] theorem State.modLb_counters (s : State) (n : Nat) (g : Lb → Lb) : (s.modLb n g).counters = s.counters := by
  simp [State.modLb]
@[simp] theorem State.modLb_latched (s : State) (n : Nat) (g : Lb → Lb) : (s.modLb n g).latched = s.latched := by
  simp [State.modLb]
@[simp] theorem State.modLb_host (s : State) (n : Nat) (g : Lb → Lb) : (s.modLb n g).host = s.host := by
  simp [State.modLb]
@[simp] theorem State.modLb_px (s : State) (n : Nat) (g : Lb → Lb) : (s.modLb n g).px = s.px := by
  simp [State.modLb]
@[simp] theorem State.modLb_store (s : State) (n : Nat) (g : Lb → Lb) : (s.modLb n g).store = s.store := by
  simp [State.modLb]
@[simp] theorem State.modLb_nv (s : State) (n : Nat) (g : Lb → Lb) : (s.modLb n g).nv = s.nv := by
  simp [State.modLb]
@[simp] theorem State.modLb_pw (s : State) (n : Nat) (g : Lb → Lb) : (s.modLb n g).pw = s.pw := by
  simp [State.modLb]
@[simp] theorem State.modLb_coord (s : State) (n : Nat) (g : Lb → Lb) : (s.modLb n g).coord = s.coord := by
  simp [State.modLb]
@[simp] theorem State.modLb_hmClk (s : State) (n : Nat) (g : Lb → Lb) : (s.modLb n g).hmClk = s.hmClk := by
  simp [State.modLb]
@[simp] theorem State.modLb_free (s : State) (n : Nat) (g : Lb → Lb) : (s.modLb n g).free = s.free := by
  simp [State.modLb]
@[simp] theorem State.modLb_pending (s : State) (n : Nat) (g : Lb → Lb) : (s.modLb n g).pending = s.pending := by
  simp [State.modLb]
@[simp] theorem State.modHm_mem (s : State) (n : Nat) (g : Hm → Hm) : (s.modHm n g).mem = s.mem := by
  simp [State.modHm]
@[simp] theorem State.modHm_lpTags (s : State) (n : Nat) (g : Hm → Hm) : (s.modHm n g).lpTags = s.lpTags := by
  simp [State.modHm]
@[simp] theorem State.modHm_bad (s : State) (n : Nat) (g : Hm → Hm) : (s.modHm n g).bad = s.bad := by
  simp [State.modHm]
@[simp] theorem State.modHm_ce (s : State) (n : Nat) (g : Hm → Hm) : (s.modHm n g).ce = s.ce := by
  simp [State.modHm]
@[simp] theorem State.modHm_flaws (s : State) (n : Nat) (g : Hm → Hm) : (s.modHm n g).flaws = s.flaws := by
  simp [State.modHm]
@[simp] theorem State.modHm_held (s : State) (n : Nat) (g : Hm → Hm) : (s.modHm n g).held = s.held := by
  simp [State.modHm]
@[simp] theorem State.modHm_cores (s : State) (n : Nat) (g : Hm → Hm) : (s.modHm n g).cores = s.cores := by
  simp [State.modHm]
@[simp] theorem State.modHm_seats (s : State) (n : Nat) (g : Hm → Hm) : (s.modHm n g).seats = s.seats := by
  simp [State.modHm]
@[simp] theorem State.modHm_links (s : State) (n : Nat) (g : Hm → Hm) : (s.modHm n g).links = s.links := by
  simp [State.modHm]
@[simp] theorem State.modHm_counters (s : State) (n : Nat) (g : Hm → Hm) : (s.modHm n g).counters = s.counters := by
  simp [State.modHm]
@[simp] theorem State.modHm_latched (s : State) (n : Nat) (g : Hm → Hm) : (s.modHm n g).latched = s.latched := by
  simp [State.modHm]
@[simp] theorem State.modHm_host (s : State) (n : Nat) (g : Hm → Hm) : (s.modHm n g).host = s.host := by
  simp [State.modHm]
@[simp] theorem State.modHm_px (s : State) (n : Nat) (g : Hm → Hm) : (s.modHm n g).px = s.px := by
  simp [State.modHm]
@[simp] theorem State.modHm_store (s : State) (n : Nat) (g : Hm → Hm) : (s.modHm n g).store = s.store := by
  simp [State.modHm]
@[simp] theorem State.modHm_nv (s : State) (n : Nat) (g : Hm → Hm) : (s.modHm n g).nv = s.nv := by
  simp [State.modHm]
@[simp] theorem State.modHm_pw (s : State) (n : Nat) (g : Hm → Hm) : (s.modHm n g).pw = s.pw := by
  simp [State.modHm]
@[simp] theorem State.modHm_coord (s : State) (n : Nat) (g : Hm → Hm) : (s.modHm n g).coord = s.coord := by
  simp [State.modHm]
@[simp] theorem State.modHm_hmClk (s : State) (n : Nat) (g : Hm → Hm) : (s.modHm n g).hmClk = s.hmClk := by
  simp [State.modHm]
@[simp] theorem State.modHm_free (s : State) (n : Nat) (g : Hm → Hm) : (s.modHm n g).free = s.free := by
  simp [State.modHm]
@[simp] theorem State.modHm_pending (s : State) (n : Nat) (g : Hm → Hm) : (s.modHm n g).pending = s.pending := by
  simp [State.modHm]
@[simp] theorem State.modLink_mem (s : State) (n : Nat) (g : Link → Link) : (s.modLink n g).mem = s.mem := by
  simp [State.modLink]
@[simp] theorem State.modLink_lpTags (s : State) (n : Nat) (g : Link → Link) : (s.modLink n g).lpTags = s.lpTags := by
  simp [State.modLink]
@[simp] theorem State.modLink_bad (s : State) (n : Nat) (g : Link → Link) : (s.modLink n g).bad = s.bad := by
  simp [State.modLink]
@[simp] theorem State.modLink_ce (s : State) (n : Nat) (g : Link → Link) : (s.modLink n g).ce = s.ce := by
  simp [State.modLink]
@[simp] theorem State.modLink_flaws (s : State) (n : Nat) (g : Link → Link) : (s.modLink n g).flaws = s.flaws := by
  simp [State.modLink]
@[simp] theorem State.modLink_held (s : State) (n : Nat) (g : Link → Link) : (s.modLink n g).held = s.held := by
  simp [State.modLink]
@[simp] theorem State.modLink_cores (s : State) (n : Nat) (g : Link → Link) : (s.modLink n g).cores = s.cores := by
  simp [State.modLink]
@[simp] theorem State.modLink_seats (s : State) (n : Nat) (g : Link → Link) : (s.modLink n g).seats = s.seats := by
  simp [State.modLink]
@[simp] theorem State.modLink_fields (s : State) (n : Nat) (g : Link → Link) : (s.modLink n g).fields = s.fields := by
  simp [State.modLink]
@[simp] theorem State.modLink_counters (s : State) (n : Nat) (g : Link → Link) : (s.modLink n g).counters = s.counters := by
  simp [State.modLink]
@[simp] theorem State.modLink_latched (s : State) (n : Nat) (g : Link → Link) : (s.modLink n g).latched = s.latched := by
  simp [State.modLink]
@[simp] theorem State.modLink_host (s : State) (n : Nat) (g : Link → Link) : (s.modLink n g).host = s.host := by
  simp [State.modLink]
@[simp] theorem State.modLink_px (s : State) (n : Nat) (g : Link → Link) : (s.modLink n g).px = s.px := by
  simp [State.modLink]
@[simp] theorem State.modLink_store (s : State) (n : Nat) (g : Link → Link) : (s.modLink n g).store = s.store := by
  simp [State.modLink]
@[simp] theorem State.modLink_nv (s : State) (n : Nat) (g : Link → Link) : (s.modLink n g).nv = s.nv := by
  simp [State.modLink]
@[simp] theorem State.modLink_pw (s : State) (n : Nat) (g : Link → Link) : (s.modLink n g).pw = s.pw := by
  simp [State.modLink]
@[simp] theorem State.modLink_coord (s : State) (n : Nat) (g : Link → Link) : (s.modLink n g).coord = s.coord := by
  simp [State.modLink]
@[simp] theorem State.modLink_hmClk (s : State) (n : Nat) (g : Link → Link) : (s.modLink n g).hmClk = s.hmClk := by
  simp [State.modLink]
@[simp] theorem State.modLink_free (s : State) (n : Nat) (g : Link → Link) : (s.modLink n g).free = s.free := by
  simp [State.modLink]
@[simp] theorem State.modLink_pending (s : State) (n : Nat) (g : Link → Link) : (s.modLink n g).pending = s.pending := by
  simp [State.modLink]
@[simp] theorem State.modCore_mem (s : State) (n : Nat) (g : Core → Core) : (s.modCore n g).mem = s.mem := by
  simp [State.modCore]
@[simp] theorem State.modCore_lpTags (s : State) (n : Nat) (g : Core → Core) : (s.modCore n g).lpTags = s.lpTags := by
  simp [State.modCore]
@[simp] theorem State.modCore_bad (s : State) (n : Nat) (g : Core → Core) : (s.modCore n g).bad = s.bad := by
  simp [State.modCore]
@[simp] theorem State.modCore_ce (s : State) (n : Nat) (g : Core → Core) : (s.modCore n g).ce = s.ce := by
  simp [State.modCore]
@[simp] theorem State.modCore_flaws (s : State) (n : Nat) (g : Core → Core) : (s.modCore n g).flaws = s.flaws := by
  simp [State.modCore]
@[simp] theorem State.modCore_held (s : State) (n : Nat) (g : Core → Core) : (s.modCore n g).held = s.held := by
  simp [State.modCore]
@[simp] theorem State.modCore_seats (s : State) (n : Nat) (g : Core → Core) : (s.modCore n g).seats = s.seats := by
  simp [State.modCore]
@[simp] theorem State.modCore_fields (s : State) (n : Nat) (g : Core → Core) : (s.modCore n g).fields = s.fields := by
  simp [State.modCore]
@[simp] theorem State.modCore_links (s : State) (n : Nat) (g : Core → Core) : (s.modCore n g).links = s.links := by
  simp [State.modCore]
@[simp] theorem State.modCore_counters (s : State) (n : Nat) (g : Core → Core) : (s.modCore n g).counters = s.counters := by
  simp [State.modCore]
@[simp] theorem State.modCore_latched (s : State) (n : Nat) (g : Core → Core) : (s.modCore n g).latched = s.latched := by
  simp [State.modCore]
@[simp] theorem State.modCore_host (s : State) (n : Nat) (g : Core → Core) : (s.modCore n g).host = s.host := by
  simp [State.modCore]
@[simp] theorem State.modCore_px (s : State) (n : Nat) (g : Core → Core) : (s.modCore n g).px = s.px := by
  simp [State.modCore]
@[simp] theorem State.modCore_store (s : State) (n : Nat) (g : Core → Core) : (s.modCore n g).store = s.store := by
  simp [State.modCore]
@[simp] theorem State.modCore_nv (s : State) (n : Nat) (g : Core → Core) : (s.modCore n g).nv = s.nv := by
  simp [State.modCore]
@[simp] theorem State.modCore_pw (s : State) (n : Nat) (g : Core → Core) : (s.modCore n g).pw = s.pw := by
  simp [State.modCore]
@[simp] theorem State.modCore_coord (s : State) (n : Nat) (g : Core → Core) : (s.modCore n g).coord = s.coord := by
  simp [State.modCore]
@[simp] theorem State.modCore_hmClk (s : State) (n : Nat) (g : Core → Core) : (s.modCore n g).hmClk = s.hmClk := by
  simp [State.modCore]
@[simp] theorem State.modCore_free (s : State) (n : Nat) (g : Core → Core) : (s.modCore n g).free = s.free := by
  simp [State.modCore]
@[simp] theorem State.modCore_pending (s : State) (n : Nat) (g : Core → Core) : (s.modCore n g).pending = s.pending := by
  simp [State.modCore]
@[simp] theorem State.modSeat_mem (s : State) (n : Nat) (g : Seat → Seat) : (s.modSeat n g).mem = s.mem := by
  simp [State.modSeat]
@[simp] theorem State.modSeat_lpTags (s : State) (n : Nat) (g : Seat → Seat) : (s.modSeat n g).lpTags = s.lpTags := by
  simp [State.modSeat]
@[simp] theorem State.modSeat_bad (s : State) (n : Nat) (g : Seat → Seat) : (s.modSeat n g).bad = s.bad := by
  simp [State.modSeat]
@[simp] theorem State.modSeat_ce (s : State) (n : Nat) (g : Seat → Seat) : (s.modSeat n g).ce = s.ce := by
  simp [State.modSeat]
@[simp] theorem State.modSeat_flaws (s : State) (n : Nat) (g : Seat → Seat) : (s.modSeat n g).flaws = s.flaws := by
  simp [State.modSeat]
@[simp] theorem State.modSeat_held (s : State) (n : Nat) (g : Seat → Seat) : (s.modSeat n g).held = s.held := by
  simp [State.modSeat]
@[simp] theorem State.modSeat_cores (s : State) (n : Nat) (g : Seat → Seat) : (s.modSeat n g).cores = s.cores := by
  simp [State.modSeat]
@[simp] theorem State.modSeat_fields (s : State) (n : Nat) (g : Seat → Seat) : (s.modSeat n g).fields = s.fields := by
  simp [State.modSeat]
@[simp] theorem State.modSeat_links (s : State) (n : Nat) (g : Seat → Seat) : (s.modSeat n g).links = s.links := by
  simp [State.modSeat]
@[simp] theorem State.modSeat_counters (s : State) (n : Nat) (g : Seat → Seat) : (s.modSeat n g).counters = s.counters := by
  simp [State.modSeat]
@[simp] theorem State.modSeat_latched (s : State) (n : Nat) (g : Seat → Seat) : (s.modSeat n g).latched = s.latched := by
  simp [State.modSeat]
@[simp] theorem State.modSeat_host (s : State) (n : Nat) (g : Seat → Seat) : (s.modSeat n g).host = s.host := by
  simp [State.modSeat]
@[simp] theorem State.modSeat_px (s : State) (n : Nat) (g : Seat → Seat) : (s.modSeat n g).px = s.px := by
  simp [State.modSeat]
@[simp] theorem State.modSeat_store (s : State) (n : Nat) (g : Seat → Seat) : (s.modSeat n g).store = s.store := by
  simp [State.modSeat]
@[simp] theorem State.modSeat_nv (s : State) (n : Nat) (g : Seat → Seat) : (s.modSeat n g).nv = s.nv := by
  simp [State.modSeat]
@[simp] theorem State.modSeat_pw (s : State) (n : Nat) (g : Seat → Seat) : (s.modSeat n g).pw = s.pw := by
  simp [State.modSeat]
@[simp] theorem State.modSeat_coord (s : State) (n : Nat) (g : Seat → Seat) : (s.modSeat n g).coord = s.coord := by
  simp [State.modSeat]
@[simp] theorem State.modSeat_hmClk (s : State) (n : Nat) (g : Seat → Seat) : (s.modSeat n g).hmClk = s.hmClk := by
  simp [State.modSeat]
@[simp] theorem State.modSeat_free (s : State) (n : Nat) (g : Seat → Seat) : (s.modSeat n g).free = s.free := by
  simp [State.modSeat]
@[simp] theorem State.modSeat_pending (s : State) (n : Nat) (g : Seat → Seat) : (s.modSeat n g).pending = s.pending := by
  simp [State.modSeat]
@[simp] theorem State.modTt_mem (s : State) (n : Nat) (g : Tt → Tt) : (s.modTt n g).mem = s.mem := by
  simp [State.modTt, State.modSeat]
@[simp] theorem State.modTt_lpTags (s : State) (n : Nat) (g : Tt → Tt) : (s.modTt n g).lpTags = s.lpTags := by
  simp [State.modTt, State.modSeat]
@[simp] theorem State.modTt_bad (s : State) (n : Nat) (g : Tt → Tt) : (s.modTt n g).bad = s.bad := by
  simp [State.modTt, State.modSeat]
@[simp] theorem State.modTt_ce (s : State) (n : Nat) (g : Tt → Tt) : (s.modTt n g).ce = s.ce := by
  simp [State.modTt, State.modSeat]
@[simp] theorem State.modTt_flaws (s : State) (n : Nat) (g : Tt → Tt) : (s.modTt n g).flaws = s.flaws := by
  simp [State.modTt, State.modSeat]
@[simp] theorem State.modTt_held (s : State) (n : Nat) (g : Tt → Tt) : (s.modTt n g).held = s.held := by
  simp [State.modTt, State.modSeat]
@[simp] theorem State.modTt_cores (s : State) (n : Nat) (g : Tt → Tt) : (s.modTt n g).cores = s.cores := by
  simp [State.modTt, State.modSeat]
@[simp] theorem State.modTt_fields (s : State) (n : Nat) (g : Tt → Tt) : (s.modTt n g).fields = s.fields := by
  simp [State.modTt, State.modSeat]
@[simp] theorem State.modTt_links (s : State) (n : Nat) (g : Tt → Tt) : (s.modTt n g).links = s.links := by
  simp [State.modTt, State.modSeat]
@[simp] theorem State.modTt_counters (s : State) (n : Nat) (g : Tt → Tt) : (s.modTt n g).counters = s.counters := by
  simp [State.modTt, State.modSeat]
@[simp] theorem State.modTt_latched (s : State) (n : Nat) (g : Tt → Tt) : (s.modTt n g).latched = s.latched := by
  simp [State.modTt, State.modSeat]
@[simp] theorem State.modTt_host (s : State) (n : Nat) (g : Tt → Tt) : (s.modTt n g).host = s.host := by
  simp [State.modTt, State.modSeat]
@[simp] theorem State.modTt_px (s : State) (n : Nat) (g : Tt → Tt) : (s.modTt n g).px = s.px := by
  simp [State.modTt, State.modSeat]
@[simp] theorem State.modTt_store (s : State) (n : Nat) (g : Tt → Tt) : (s.modTt n g).store = s.store := by
  simp [State.modTt, State.modSeat]
@[simp] theorem State.modTt_nv (s : State) (n : Nat) (g : Tt → Tt) : (s.modTt n g).nv = s.nv := by
  simp [State.modTt, State.modSeat]
@[simp] theorem State.modTt_pw (s : State) (n : Nat) (g : Tt → Tt) : (s.modTt n g).pw = s.pw := by
  simp [State.modTt, State.modSeat]
@[simp] theorem State.modTt_coord (s : State) (n : Nat) (g : Tt → Tt) : (s.modTt n g).coord = s.coord := by
  simp [State.modTt, State.modSeat]
@[simp] theorem State.modTt_hmClk (s : State) (n : Nat) (g : Tt → Tt) : (s.modTt n g).hmClk = s.hmClk := by
  simp [State.modTt, State.modSeat]
@[simp] theorem State.modTt_free (s : State) (n : Nat) (g : Tt → Tt) : (s.modTt n g).free = s.free := by
  simp [State.modTt, State.modSeat]
@[simp] theorem State.modTt_pending (s : State) (n : Nat) (g : Tt → Tt) : (s.modTt n g).pending = s.pending := by
  simp [State.modTt, State.modSeat]
@[simp] theorem State.modCm_mem (s : State) (n : Nat) (g : Cm → Cm) : (s.modCm n g).mem = s.mem := by
  simp [State.modCm, State.modSeat]
@[simp] theorem State.modCm_lpTags (s : State) (n : Nat) (g : Cm → Cm) : (s.modCm n g).lpTags = s.lpTags := by
  simp [State.modCm, State.modSeat]
@[simp] theorem State.modCm_bad (s : State) (n : Nat) (g : Cm → Cm) : (s.modCm n g).bad = s.bad := by
  simp [State.modCm, State.modSeat]
@[simp] theorem State.modCm_ce (s : State) (n : Nat) (g : Cm → Cm) : (s.modCm n g).ce = s.ce := by
  simp [State.modCm, State.modSeat]
@[simp] theorem State.modCm_flaws (s : State) (n : Nat) (g : Cm → Cm) : (s.modCm n g).flaws = s.flaws := by
  simp [State.modCm, State.modSeat]
@[simp] theorem State.modCm_held (s : State) (n : Nat) (g : Cm → Cm) : (s.modCm n g).held = s.held := by
  simp [State.modCm, State.modSeat]
@[simp] theorem State.modCm_cores (s : State) (n : Nat) (g : Cm → Cm) : (s.modCm n g).cores = s.cores := by
  simp [State.modCm, State.modSeat]
@[simp] theorem State.modCm_fields (s : State) (n : Nat) (g : Cm → Cm) : (s.modCm n g).fields = s.fields := by
  simp [State.modCm, State.modSeat]
@[simp] theorem State.modCm_links (s : State) (n : Nat) (g : Cm → Cm) : (s.modCm n g).links = s.links := by
  simp [State.modCm, State.modSeat]
@[simp] theorem State.modCm_counters (s : State) (n : Nat) (g : Cm → Cm) : (s.modCm n g).counters = s.counters := by
  simp [State.modCm, State.modSeat]
@[simp] theorem State.modCm_latched (s : State) (n : Nat) (g : Cm → Cm) : (s.modCm n g).latched = s.latched := by
  simp [State.modCm, State.modSeat]
@[simp] theorem State.modCm_host (s : State) (n : Nat) (g : Cm → Cm) : (s.modCm n g).host = s.host := by
  simp [State.modCm, State.modSeat]
@[simp] theorem State.modCm_px (s : State) (n : Nat) (g : Cm → Cm) : (s.modCm n g).px = s.px := by
  simp [State.modCm, State.modSeat]
@[simp] theorem State.modCm_store (s : State) (n : Nat) (g : Cm → Cm) : (s.modCm n g).store = s.store := by
  simp [State.modCm, State.modSeat]
@[simp] theorem State.modCm_nv (s : State) (n : Nat) (g : Cm → Cm) : (s.modCm n g).nv = s.nv := by
  simp [State.modCm, State.modSeat]
@[simp] theorem State.modCm_pw (s : State) (n : Nat) (g : Cm → Cm) : (s.modCm n g).pw = s.pw := by
  simp [State.modCm, State.modSeat]
@[simp] theorem State.modCm_coord (s : State) (n : Nat) (g : Cm → Cm) : (s.modCm n g).coord = s.coord := by
  simp [State.modCm, State.modSeat]
@[simp] theorem State.modCm_hmClk (s : State) (n : Nat) (g : Cm → Cm) : (s.modCm n g).hmClk = s.hmClk := by
  simp [State.modCm, State.modSeat]
@[simp] theorem State.modCm_free (s : State) (n : Nat) (g : Cm → Cm) : (s.modCm n g).free = s.free := by
  simp [State.modCm, State.modSeat]
@[simp] theorem State.modCm_pending (s : State) (n : Nat) (g : Cm → Cm) : (s.modCm n g).pending = s.pending := by
  simp [State.modCm, State.modSeat]
@[simp] theorem State.modCk_mem (s : State) (n : Nat) (g : Ckpt → Ckpt) : (s.modCk n g).mem = s.mem := by
  simp [State.modCk, State.modSeat]
@[simp] theorem State.modCk_lpTags (s : State) (n : Nat) (g : Ckpt → Ckpt) : (s.modCk n g).lpTags = s.lpTags := by
  simp [State.modCk, State.modSeat]
@[simp] theorem State.modCk_bad (s : State) (n : Nat) (g : Ckpt → Ckpt) : (s.modCk n g).bad = s.bad := by
  simp [State.modCk, State.modSeat]
@[simp] theorem State.modCk_ce (s : State) (n : Nat) (g : Ckpt → Ckpt) : (s.modCk n g).ce = s.ce := by
  simp [State.modCk, State.modSeat]
@[simp] theorem State.modCk_flaws (s : State) (n : Nat) (g : Ckpt → Ckpt) : (s.modCk n g).flaws = s.flaws := by
  simp [State.modCk, State.modSeat]
@[simp] theorem State.modCk_held (s : State) (n : Nat) (g : Ckpt → Ckpt) : (s.modCk n g).held = s.held := by
  simp [State.modCk, State.modSeat]
@[simp] theorem State.modCk_cores (s : State) (n : Nat) (g : Ckpt → Ckpt) : (s.modCk n g).cores = s.cores := by
  simp [State.modCk, State.modSeat]
@[simp] theorem State.modCk_fields (s : State) (n : Nat) (g : Ckpt → Ckpt) : (s.modCk n g).fields = s.fields := by
  simp [State.modCk, State.modSeat]
@[simp] theorem State.modCk_links (s : State) (n : Nat) (g : Ckpt → Ckpt) : (s.modCk n g).links = s.links := by
  simp [State.modCk, State.modSeat]
@[simp] theorem State.modCk_counters (s : State) (n : Nat) (g : Ckpt → Ckpt) : (s.modCk n g).counters = s.counters := by
  simp [State.modCk, State.modSeat]
@[simp] theorem State.modCk_latched (s : State) (n : Nat) (g : Ckpt → Ckpt) : (s.modCk n g).latched = s.latched := by
  simp [State.modCk, State.modSeat]
@[simp] theorem State.modCk_host (s : State) (n : Nat) (g : Ckpt → Ckpt) : (s.modCk n g).host = s.host := by
  simp [State.modCk, State.modSeat]
@[simp] theorem State.modCk_px (s : State) (n : Nat) (g : Ckpt → Ckpt) : (s.modCk n g).px = s.px := by
  simp [State.modCk, State.modSeat]
@[simp] theorem State.modCk_store (s : State) (n : Nat) (g : Ckpt → Ckpt) : (s.modCk n g).store = s.store := by
  simp [State.modCk, State.modSeat]
@[simp] theorem State.modCk_nv (s : State) (n : Nat) (g : Ckpt → Ckpt) : (s.modCk n g).nv = s.nv := by
  simp [State.modCk, State.modSeat]
@[simp] theorem State.modCk_pw (s : State) (n : Nat) (g : Ckpt → Ckpt) : (s.modCk n g).pw = s.pw := by
  simp [State.modCk, State.modSeat]
@[simp] theorem State.modCk_coord (s : State) (n : Nat) (g : Ckpt → Ckpt) : (s.modCk n g).coord = s.coord := by
  simp [State.modCk, State.modSeat]
@[simp] theorem State.modCk_hmClk (s : State) (n : Nat) (g : Ckpt → Ckpt) : (s.modCk n g).hmClk = s.hmClk := by
  simp [State.modCk, State.modSeat]
@[simp] theorem State.modCk_free (s : State) (n : Nat) (g : Ckpt → Ckpt) : (s.modCk n g).free = s.free := by
  simp [State.modCk, State.modSeat]
@[simp] theorem State.modCk_pending (s : State) (n : Nat) (g : Ckpt → Ckpt) : (s.modCk n g).pending = s.pending := by
  simp [State.modCk, State.modSeat]

/-! ### Units after an update of a unit -/

@[simp] theorem State.core_setCore_self (s : State) {c : Nat} (k : Core) (h : c < 2000) : (s.setCore c k).core c = k := by
  simp [State.setCore, State.core, h]

@[simp] theorem State.core_setCore_ne (s : State) {c e : Nat} (k : Core) (h : e ≠ c) : (s.setCore c k).core e = s.core e := by
  unfold State.setCore State.core
  split
  · simp [h]
  · rfl

@[simp] theorem State.core_modCore_self (s : State) {c : Nat} (g : Core → Core) (h : c < 2000) :
    (s.modCore c g).core c = g (s.core c) := by simp [State.modCore, h]

@[simp] theorem State.core_modCore_ne (s : State) {c e : Nat} (g : Core → Core) (h : e ≠ c) :
    (s.modCore c g).core e = s.core e := by simp [State.modCore, h]

@[simp] theorem State.field_setField_self (s : State) {f : Nat} (k : Field) (h : f < 4) : (s.setField f k).field f = k := by
  simp [State.setField, State.field, h]

@[simp] theorem State.field_setField_ne (s : State) {f g : Nat} (k : Field) (h : g ≠ f) : (s.setField f k).field g = s.field g := by
  unfold State.setField State.field
  split
  · simp [h]
  · rfl

@[simp] theorem State.link_setLink_self (s : State) {l : Nat} (k : Link) (h : l < 24) : (s.setLink l k).link l = k := by
  simp [State.setLink, State.link, h]

@[simp] theorem State.link_setLink_ne (s : State) {l m : Nat} (k : Link) (h : m ≠ l) : (s.setLink l k).link m = s.link m := by
  unfold State.setLink State.link
  split
  · simp [h]
  · rfl

@[simp] theorem State.link_modLink_self (s : State) {l : Nat} (g : Link → Link) (h : l < 24) :
    (s.modLink l g).link l = g (s.link l) := by simp [State.modLink, h]

@[simp] theorem State.link_modLink_ne (s : State) {l m : Nat} (g : Link → Link) (h : m ≠ l) :
    (s.modLink l g).link m = s.link m := by simp [State.modLink, h]

/-- Where a field's seat is kept depends on the layout alone. -/
theorem State.seatIx_congr {s t : State} (f : Nat) (h : t.host.layout = s.host.layout) : t.seatIx f = s.seatIx f := by
  simp [State.seatIx, State.partOf, h]

@[simp] theorem State.seatIx_setSeat (s : State) (f g : Nat) (k : Seat) : (s.setSeat f k).seatIx g = s.seatIx g :=
  State.seatIx_congr g (by simp)

@[simp] theorem State.seat_setSeat_self (s : State) {f : Nat} (k : Seat) (h : f < 4) : (s.setSeat f k).seat f = k := by
  unfold State.seat
  rw [State.seatIx_setSeat]
  simp [State.setSeat, h]

@[simp] theorem State.seat_modSeat_self (s : State) {f : Nat} (g : Seat → Seat) (h : f < 4) :
    (s.modSeat f g).seat f = g (s.seat f) := by simp [State.modSeat, h]

/-- A seat is untouched by an update of anything that leaves the seats and the layout. -/
theorem State.seat_congr {s t : State} (f : Nat) (hs : t.seats = s.seats) (h : t.host.layout = s.host.layout) : t.seat f = s.seat f := by
  simp [State.seat, State.seatIx_congr f h, hs]

theorem State.core_congr {s t : State} (c : Nat) (h : t.cores = s.cores) : t.core c = s.core c := by simp [State.core, h]
theorem State.field_congr {s t : State} (f : Nat) (h : t.fields = s.fields) : t.field f = s.field f := by simp [State.field, h]
theorem State.link_congr {s t : State} (l : Nat) (h : t.links = s.links) : t.link l = s.link l := by simp [State.link, h]

/-- An update of a core leaves fields, links and seats; and so for each kind of unit. -/
@[simp] theorem State.field_setCore (s : State) (c f : Nat) (k : Core) : (s.setCore c k).field f = s.field f := State.field_congr f (by simp)
@[simp] theorem State.link_setCore (s : State) (c l : Nat) (k : Core) : (s.setCore c k).link l = s.link l := State.link_congr l (by simp)
@[simp] theorem State.seat_setCore (s : State) (c f : Nat) (k : Core) : (s.setCore c k).seat f = s.seat f :=
  State.seat_congr f (by simp) (by simp)
@[simp] theorem State.core_setField (s : State) (f c : Nat) (k : Field) : (s.setField f k).core c = s.core c := State.core_congr c (by simp)
@[simp] theorem State.link_setField (s : State) (f l : Nat) (k : Field) : (s.setField f k).link l = s.link l := State.link_congr l (by simp)
@[simp] theorem State.seat_setField (s : State) (f g : Nat) (k : Field) : (s.setField f k).seat g = s.seat g :=
  State.seat_congr g (by simp) (by simp)
@[simp] theorem State.core_setLink (s : State) (l c : Nat) (k : Link) : (s.setLink l k).core c = s.core c := State.core_congr c (by simp)
@[simp] theorem State.field_setLink (s : State) (l f : Nat) (k : Link) : (s.setLink l k).field f = s.field f := State.field_congr f (by simp)
@[simp] theorem State.seat_setLink (s : State) (l f : Nat) (k : Link) : (s.setLink l k).seat f = s.seat f :=
  State.seat_congr f (by simp) (by simp)
@[simp] theorem State.core_setSeat (s : State) (f c : Nat) (k : Seat) : (s.setSeat f k).core c = s.core c := State.core_congr c (by simp)
@[simp] theorem State.field_setSeat (s : State) (f g : Nat) (k : Seat) : (s.setSeat f k).field g = s.field g := State.field_congr g (by simp)
@[simp] theorem State.link_setSeat (s : State) (f l : Nat) (k : Seat) : (s.setSeat f k).link l = s.link l := State.link_congr l (by simp)

/-- A sequence of unit actions keeps what each action keeps. -/
theorem eachOf_keeps (P : State → Prop) (l : List Nat) (g : Nat → State → State) (h : ∀ i t, P t → P (g i t)) (s : State) (hs : P s) :
    P (eachOf l g s) := by
  unfold eachOf
  induction l generalizing s with
  | nil => exact hs
  | cons i r ih => exact ih (g i s) (h i s hs)

end Sys2Proof.Machine
end

