-- ==== Sys2Proof/Laws/Memory.lean ====
section
/-! SUPPORT. Laws of memory: reads after writes, and that every memory operation keeps the canonical form. -/

namespace Sys2Proof.Machine

@[simp] theorem leBytes_length (n v : Nat) : (leBytes n v).length = n := by
  induction n generalizing v with
  | zero => rfl
  | succ n ih => simp [leBytes, ih]

/-- The bytes of a number give it back, modulo their width. -/
theorem ofLe_leBytes (n v : Nat) : ofLe (leBytes n v) = v % 256 ^ n := by
  induction n generalizing v with
  | zero => simp [leBytes, ofLe, Nat.mod_one]
  | succ n ih =>
    rw [leBytes, ofLe, ih, BitVec.toNat_ofNat, show 256 ^ (n + 1) = 256 * 256 ^ n from Nat.pow_succ', Nat.mod_mul]

@[simp] theorem Memory.read_write_self (m : Memory) (a : Nat) (b : Byte) : Memory.read (Memory.write m a b) a = b :=
  Tab.get_set_self memDefault m a b

@[simp] theorem Memory.read_write_ne (m : Memory) {a x : Nat} (b : Byte) (h : x ≠ a) :
    Memory.read (Memory.write m a b) x = Memory.read m x := Tab.get_set_ne memDefault m b h

/-- Bytes outside a written range stay. -/
theorem Memory.read_writeN_out (m : Memory) (a : Nat) (bs : List Byte) (x : Nat) (h : x < a ∨ a + bs.length ≤ x) :
    Memory.read (Memory.writeN m a bs) x = Memory.read m x := by
  induction bs generalizing m a with
  | nil => rfl
  | cons b r ih =>
    rw [List.length_cons] at h
    rw [Memory.writeN, ih _ _ (by omega), Memory.read_write_ne _ _ (by omega)]

/-- A written range reads back. -/
theorem Memory.readN_writeN (m : Memory) (a : Nat) (bs : List Byte) : Memory.readN (Memory.writeN m a bs) a bs.length = bs := by
  induction bs generalizing m a with
  | nil => rfl
  | cons b r ih =>
    rw [Memory.writeN, List.length_cons, Memory.readN, ih, Memory.read_writeN_out _ _ _ _ (by omega), Memory.read_write_self]

/-- One byte of a written range. -/
theorem Memory.read_writeN_in (m : Memory) (a : Nat) (bs : List Byte) (k : Nat) (h : k < bs.length) :
    Memory.read (Memory.writeN m a bs) (a + k) = bs[k] := by
  induction bs generalizing m a k with
  | nil => simp at h
  | cons b r ih =>
    cases k with
    | zero => simp [Memory.writeN, Memory.read_writeN_out]
    | succ k =>
      have := ih (Memory.write m a b) (a + 1) k (by simpa using h)
      simpa [Memory.writeN, Nat.add_assoc, Nat.add_comm 1 k] using this

theorem Memory.readN_length (m : Memory) (a n : Nat) : (Memory.readN m a n).length = n := by
  induction n generalizing a with
  | zero => rfl
  | succ n ih => simp [Memory.readN, ih]

/-- A range that two memories agree on reads the same. -/
theorem Memory.readN_congr (m w : Memory) (a n : Nat) (h : ∀ x, a ≤ x → x < a + n → Memory.read m x = Memory.read w x) :
    Memory.readN m a n = Memory.readN w a n := by
  induction n generalizing a with
  | zero => rfl
  | succ n ih => simp [Memory.readN, h a (by omega) (by omega), ih (a + 1) (fun x h1 h2 => h x (by omega) (by omega))]

theorem Memory.wf_nil : Memory.wf [] = true := rfl
theorem Memory.wf_write (m : Memory) (a : Nat) (b : Byte) (h : m.wf = true) : (m.write a b).wf = true := Tab.wf_set _ _ _ _ h
theorem Memory.wf_zero (m : Memory) (a n : Nat) (h : m.wf = true) : (m.zero a n).wf = true := Tab.wf_clearRange _ _ _ _ h
theorem Memory.wf_writeN (m : Memory) (a : Nat) (bs : List Byte) (h : m.wf = true) : (m.writeN a bs).wf = true := by
  induction bs generalizing m a with
  | nil => exact h
  | cons b r ih => exact ih _ _ (Memory.wf_write _ _ _ h)

/-- A zeroed range reads as zero, the rest as before. -/
theorem Memory.read_zero (m : Memory) (a n x : Nat) :
    Memory.read (Memory.zero m a n) x = if a ≤ x ∧ x < a + n then 0 else Memory.read m x := Tab.get_clearRange memDefault m a n x

theorem State.reset_mem_wf : Memory.wf State.reset.mem = true := rfl

/-! ### Stores -/

@[simp] theorem State.tagBlocks_mem (s : State) (bs : List Nat) : (s.tagBlocks bs).mem = s.mem := rfl

/-- Everything a store of checked bytes can do to memory. -/
theorem State.storeBytes_mem (s : State) (a : Nat) (bs : List Byte) : (s.storeBytes a bs).mem = Memory.writeN s.mem a bs := by
  unfold State.storeBytes; dsimp only; split <;> rfl

/-- An event counter that goes up leaves memory as it was. -/
@[simp] theorem State.bump_mem (s : State) (a : Nat) : (s.bump a).mem = s.mem := by
  unfold State.bump; dsimp only; split
  · rfl
  · split
    · unfold State.satEvent; dsimp only; split <;> simp [State.modHm]
    · rfl

@[simp] theorem State.correctedBlock_mem (s : State) (f a : Nat) : (s.correctedBlock f a).mem = s.mem := by
  unfold State.correctedBlock; dsimp only; split <;> simp [State.duePage, State.demerit]

@[simp] theorem State.correctedWord_mem (s : State) (a : Nat) : (s.correctedWord a).mem = s.mem := by
  unfold State.correctedWord; split <;> simp [State.demerit]

/-- Counting what a read corrected leaves memory as it was. -/
@[simp] theorem State.noteCorrected_mem (s : State) (l : List (Nat × Nat)) : (s.noteCorrected l).mem = s.mem := by
  have fold {α : Type} (g : State → α → State) (hg : ∀ t x, (g t x).mem = t.mem) (l : List α) : ∀ t : State, (l.foldl g t).mem = t.mem := by
    induction l with
    | nil => exact fun _ => rfl
    | cons x l ih => exact fun t => (ih (g t x)).trans (hg t x)
  unfold State.noteCorrected
  exact (fold _ (fun t b => State.correctedBlock_mem t _ _) _ _).trans (fold _ State.correctedWord_mem _ _)

/-- Everything a write of a range can do: it fails and nothing is written, or what it corrects is counted and its bytes are stored. -/
theorem State.writeRange_cases (s : State) (fs : List Nat) (a : Nat) (bs : List Byte) :
    (∃ e, s.writeRange fs a bs = .error e) ∨ s.writeRange fs a bs = .ok ((s.noteCorrected (edges a bs.length)).storeBytes a bs) := by
  unfold State.writeRange; split
  · exact .inl ⟨_, rfl⟩
  · exact .inr rfl

/-- A write of a range that succeeds leaves memory with its bytes written. -/
theorem State.writeRange_mem {s t : State} {fs : List Nat} {a : Nat} {bs : List Byte} (h : s.writeRange fs a bs = .ok t) :
    t.mem = Memory.writeN s.mem a bs := by
  rcases s.writeRange_cases fs a bs with ⟨e, he⟩ | he
  · rw [he] at h; cases h
  · rw [he] at h; cases h; simp [State.storeBytes_mem]

end Sys2Proof.Machine
end

