-- ==== Sys2Proof/Laws/Chalk.lean ====
section
/-! SUPPORT. What the shared operations of a core can do: issue, advance, fault. -/

namespace Sys2Proof.Machine

/-- The later of two updates of a core stands. -/
theorem State.setCore_setCore (s : State) (c : Nat) (k k' : Core) (h : k ≠ Core.reset c) :
    (s.setCore c k).setCore c k' = s.setCore c k' := by
  unfold State.setCore
  split
  · simp [Tab.set_set _ _ _ _ _ h]
  · rfl

/-- A running core is no core at reset. -/
theorem Core.ne_reset {k : Core} {c : Nat} (h : k.mode ≠ .noLesson) : k ≠ Core.reset c := fun e => h (by rw [e]; rfl)

theorem Core.ready_mode {k : Core} (h : k.ready = true) : k.mode = .running := by
  simp only [Core.ready, Bool.and_eq_true, beq_iff_eq] at h; exact h.1.1

/-- An able core's instruction has its effect. -/
theorem issue_able {s : State} {c op : Nat} {i : Ins} {eff : State → State} (h : Able s c i) : issue c op i eff s = eff s := by
  obtain ⟨hc, hr, hb, he, hg⟩ := h
  simp only [issue, hc, hr, hb, he, hg, and_self, if_true, Bool.false_eq_true, if_false]

/-- Everything an issue can do: nothing, a code-word fault, or, with a single-bit error of the code word counted, the effect or a step past a false
guard. -/
theorem issue_cases (s : State) (c op : Nat) (i : Ins) (eff : State → State) :
    let u := if s.ce.contains (fetchAddr c (s.core c)) then s.correctedWord (fetchAddr c (s.core c)) else s
    (¬ (c < 2000 ∧ (s.core c).ready = true) ∧ issue c op i eff s = s) ∨
    (c < 2000 ∧ (s.core c).ready = true ∧ s.bad.contains (fetchAddr c (s.core c)) = true ∧
      issue c op i eff s = (((s.modCore c (fun k => { k with mode := .faulted })).recordFault c 1 (s.core c).pc.toNat
        s.freshWord.toNat (fetchAddr c (s.core c)) 1).noteErr (fieldOfCore c) (fetchAddr c (s.core c)) .word).burn) ∨
    (c < 2000 ∧ (s.core c).ready = true ∧ (s.core c).guardOk i = true ∧ issue c op i eff s = eff u) ∨
    (c < 2000 ∧ (s.core c).ready = true ∧ (s.core c).guardOk i = false ∧ issue c op i eff s = u.advance c op) := by
  intro u
  by_cases h : c < 2000 ∧ (s.core c).ready = true
  · by_cases hb : s.bad.contains (fetchAddr c (s.core c)) = true
    · exact .inr (.inl ⟨h.1, h.2, hb, by simp only [issue, h.1, h.2, and_self, if_true, hb]⟩)
    · have hb' : s.bad.contains (fetchAddr c (s.core c)) = false := by simpa using hb
      by_cases hg : (s.core c).guardOk i = true
      · exact .inr (.inr (.inl ⟨h.1, h.2, hg, by
          simp only [issue, h.1, h.2, hb', hg, and_self, if_true, Bool.false_eq_true, if_false, u]⟩))
      · have hg' : (s.core c).guardOk i = false := by simpa using hg
        exact .inr (.inr (.inr ⟨h.1, h.2, hg', by
          simp only [issue, h.1, h.2, hb', hg', and_self, if_true, Bool.false_eq_true, if_false, u]⟩))
  · exact .inl ⟨h, by simp only [issue, h, if_false]⟩

/-- Advancing inside the code region only steps the core. -/
theorem State.advance_inside (s : State) (c op : Nat) (h : (s.core c).inside) :
    s.advance c op = s.setCore c (s.core c).goesOn := by
  have e : ((s.core c).seqNext (s.core c).pc.toNat).1.codeLen = (s.core c).codeLen := by
    unfold Core.seqNext; dsimp only; repeat' split
    all_goals rfl
  unfold State.advance State.advanceFrom
  exact if_pos (by rw [e]; exact h)

/-- Where a core steps to depends on its PC, its loops and its code length alone. -/
theorem Core.seqNext_frame (k : Core) (x : Nat) : (k.seqNext x).1 = { k with lc0 := (k.seqNext x).1.lc0, lc1 := (k.seqNext x).1.lc1 } := by
  cases k
  unfold Core.seqNext; dsimp only; repeat' split
  all_goals simp_all

theorem Core.seqNext_congr {k m : Core} (x : Nat) (h0 : m.lc0 = k.lc0) (h1 : m.lc1 = k.lc1) :
    (m.seqNext x).2 = (k.seqNext x).2 ∧ (m.seqNext x).1.lc0 = (k.seqNext x).1.lc0 ∧ (m.seqNext x).1.lc1 = (k.seqNext x).1.lc1 := by
  unfold Core.seqNext
  rw [h0, h1]
  cases hk0 : k.lc0 <;> cases hk1 : k.lc1 <;> simp only [Option.isNone_none, true_and]
  all_goals ((try (repeat' split)) <;> (try simp_all) <;> omega)

theorem Core.inside_congr {k m : Core} (h0 : m.lc0 = k.lc0) (h1 : m.lc1 = k.lc1) (hp : m.pc = k.pc) (hl : m.codeLen = k.codeLen)
    (h : k.inside) : m.inside := by
  unfold Core.inside at *
  rw [hp, hl, (Core.seqNext_congr _ h0 h1).1]
  exact h

/-- An instruction that only changes registers of its core: the next state, exactly. -/
theorem issueK_able {s : State} {c op : Nat} {i : Ins} {g : Core → Core} (h : Able s c i) (hm : (g (s.core c)).mode = .running)
    (hi : (g (s.core c)).inside) : issueK c op i g s = s.setCore c (g (s.core c)).goesOn := by
  have hc := h.1
  rw [issueK, issue_able h]
  rw [State.advance_inside _ _ _ (by rw [State.core_modCore_self _ _ hc]; exact hi), State.core_modCore_self _ _ hc]
  exact State.setCore_setCore _ _ _ _ (Core.ne_reset (by rw [hm]; decide))

@[simp] theorem Core.setS_mode (k : Core) (r : BitVec 5) (v : BitVec 64) : (k.setS r v).mode = k.mode := by unfold Core.setS; split <;> rfl
@[simp] theorem Core.setS_pc (k : Core) (r : BitVec 5) (v : BitVec 64) : (k.setS r v).pc = k.pc := by unfold Core.setS; split <;> rfl
@[simp] theorem Core.setS_lc0 (k : Core) (r : BitVec 5) (v : BitVec 64) : (k.setS r v).lc0 = k.lc0 := by unfold Core.setS; split <;> rfl
@[simp] theorem Core.setS_lc1 (k : Core) (r : BitVec 5) (v : BitVec 64) : (k.setS r v).lc1 = k.lc1 := by unfold Core.setS; split <;> rfl
@[simp] theorem Core.setS_codeLen (k : Core) (r : BitVec 5) (v : BitVec 64) : (k.setS r v).codeLen = k.codeLen := by unfold Core.setS; split <;> rfl
@[simp] theorem Core.setP_mode (k : Core) (r : Nat) (b : Bool) : (k.setP r b).mode = k.mode := by unfold Core.setP; split <;> rfl
@[simp] theorem Core.setP_pc (k : Core) (r : Nat) (b : Bool) : (k.setP r b).pc = k.pc := by unfold Core.setP; split <;> rfl
@[simp] theorem Core.setP_lc0 (k : Core) (r : Nat) (b : Bool) : (k.setP r b).lc0 = k.lc0 := by unfold Core.setP; split <;> rfl
@[simp] theorem Core.setP_lc1 (k : Core) (r : Nat) (b : Bool) : (k.setP r b).lc1 = k.lc1 := by unfold Core.setP; split <;> rfl
@[simp] theorem Core.setP_codeLen (k : Core) (r : Nat) (b : Bool) : (k.setP r b).codeLen = k.codeLen := by unfold Core.setP; split <;> rfl

/-- A write of sD leaves where the core goes. -/
theorem Core.setS_inside {k : Core} (r : BitVec 5) (v : BitVec 64) (h : k.inside) : (k.setS r v).inside :=
  Core.inside_congr (by simp) (by simp) (by simp) (by simp) h

theorem Core.setP_inside {k : Core} (r : Nat) (b : Bool) (h : k.inside) : (k.setP r b).inside :=
  Core.inside_congr (by simp) (by simp) (by simp) (by simp) h

theorem Core.setA_inside {k : Core} (r : BitVec 5) (v : BitVec 48) (h : k.inside) : (k.setA r v).inside :=
  Core.inside_congr (k := k) rfl rfl rfl rfl h

theorem Core.setD_inside {k : Core} (r : BitVec 5) (v : BitVec 512) (h : k.inside) : (k.setD r v).inside :=
  Core.inside_congr (k := k) rfl rfl rfl rfl h

end Sys2Proof.Machine
end

