-- ==== Sys2Proof/Laws/Keep.lean ====
section
/-! SUPPORT. What every operation of the block keeps: the queue of waiting commands, and the canonical form of the sparse tables. One
lemma per operation says it of that operation; the files Keep1 and on hold them. -/

namespace Sys2Proof.Machine

/-- The bell counts, the clocks, the latched counters and the layout of `t` are those of `s`. -/
structure SameTime (s t : State) : Prop where
  hmClk : t.hmClk = s.hmClk
  latched : t.latched = s.latched
  layout : t.host.layout = s.host.layout
  bell : ∀ j, (Tab.get (fun _ => ({} : Seat)) t.seats j).clockOf = (Tab.get (fun _ => ({} : Seat)) s.seats j).clockOf

/-- Every seat of `t` stands where it stood in `s`, under the same layout. -/
structure SameWalk (s t : State) : Prop where
  layout : t.host.layout = s.host.layout
  walk : ∀ j, (Tab.get (fun _ => ({} : Seat)) t.seats j).walkOf = (Tab.get (fun _ => ({} : Seat)) s.seats j).walkOf

/-- From `s` to `t` the queue is as it was, and the tables are canonical if they were; where `T` holds, no clock and no bell count has
moved; where `U` holds, no walk has. -/
structure Keep (T U : Prop) (s t : State) : Prop where
  pending : t.pending = s.pending
  canonical : s.canonical → t.canonical
  time : T → SameTime s t
  place : U → SameWalk s t

theorem Keep.refl (T U : Prop) (s : State) : Keep T U s s := ⟨rfl, id, fun _ => ⟨rfl, rfl, rfl, fun _ => rfl⟩, fun _ => ⟨rfl, fun _ => rfl⟩⟩

theorem Keep.trans {T U : Prop} {r s t : State} (h : Keep T U r s) (g : Keep T U s t) : Keep T U r t :=
  ⟨g.pending.trans h.pending, fun x => g.canonical (h.canonical x), fun x =>
    let a := h.time x
    let b := g.time x
    ⟨b.hmClk.trans a.hmClk, b.latched.trans a.latched, b.layout.trans a.layout, fun j => (b.bell j).trans (a.bell j)⟩, fun x =>
    let a := h.place x
    let b := g.place x
    ⟨b.layout.trans a.layout, fun j => (b.walk j).trans (a.walk j)⟩⟩

/-- The queue and the canonical form alone. -/
theorem Keep.weak {T U : Prop} {r t : State} (h : Keep T U r t) : Keep False False r t := ⟨h.pending, h.canonical, fun x => x.elim, fun x => x.elim⟩

/-- An update of parts that are no table keeps everything. -/
theorem Keep.upd {T U : Prop} {r t : State} {lpTags bad ce flaws held host px store nv pw coord free} (h : Keep T U r t)
    (hl : T → host.layout = t.host.layout) (hm : U → host.layout = t.host.layout) :
    Keep T U r { mem := t.mem, lpTags := lpTags, bad := bad, ce := ce, flaws := flaws, held := held, cores := t.cores, seats := t.seats, fields := t.fields, links := t.links,
                 counters := t.counters, latched := t.latched, host := host, px := px, store := store, nv := nv, pw := pw, coord := coord,
                 hmClk := t.hmClk, free := free, pending := t.pending } :=
  ⟨h.pending, fun x => let y := h.canonical x
    ⟨y.mem, y.cores, y.fields, y.links, y.seats, y.counters, y.coreIx, y.fieldIx, y.linkIx⟩,
    fun x => let y := h.time x; ⟨y.hmClk, y.latched, (hl x).trans y.layout, y.bell⟩,
    fun x => let y := h.place x; ⟨(hm x).trans y.layout, y.walk⟩⟩

/-- The clocks set anew. -/
theorem Keep.updClk {U : Prop} {r t : State} {latched hmClk} (h : Keep False U r t) :
    Keep False U r { mem := t.mem, lpTags := t.lpTags, bad := t.bad, ce := t.ce, flaws := t.flaws, held := t.held, cores := t.cores, seats := t.seats, fields := t.fields, links := t.links,
                     counters := t.counters, latched := latched, host := t.host, px := t.px, store := t.store, nv := t.nv, pw := t.pw, coord := t.coord,
                     hmClk := hmClk, free := t.free, pending := t.pending } :=
  ⟨h.pending, fun x => let y := h.canonical x
    ⟨y.mem, y.cores, y.fields, y.links, y.seats, y.counters, y.coreIx, y.fieldIx, y.linkIx⟩, fun x => x.elim,
    fun x => let y := h.place x; ⟨y.layout, y.walk⟩⟩

/-- An update of memory that keeps its form. -/
theorem Keep.updMem {T U : Prop} {r t : State} {m : Memory} {lpTags bad ce flaws held px store nv pw coord free} (h : Keep T U r t)
    (hm : Memory.wf t.mem = true → Memory.wf m = true) :
    Keep T U r { mem := m, lpTags := lpTags, bad := bad, ce := ce, flaws := flaws, held := held, cores := t.cores, seats := t.seats, fields := t.fields, links := t.links,
                 counters := t.counters, latched := t.latched, host := t.host, px := px, store := store, nv := nv, pw := pw, coord := coord,
                 hmClk := t.hmClk, free := free, pending := t.pending } :=
  ⟨h.pending, fun x => let y := h.canonical x
    ⟨hm y.mem, y.cores, y.fields, y.links, y.seats, y.counters, y.coreIx, y.fieldIx, y.linkIx⟩,
    fun x => let y := h.time x; ⟨y.hmClk, y.latched, y.layout, y.bell⟩, fun x => let y := h.place x; ⟨y.layout, y.walk⟩⟩

theorem Tab.mem_set {α : Type} [DecidableEq α] {d : Nat → α} {t : Tab α} {i : Nat} {v : α} {e : Nat × α}
    (h : e ∈ Tab.set d t i v) : e.1 = i ∨ e ∈ t := by
  unfold Tab.set at h
  split at h
  · exact .inr (List.mem_filter.1 h).1
  · exact (Tab.mem_put h).imp (fun x => by rw [x]) id

theorem State.setCore_keep {T U : Prop} {r s : State} (c : Nat) (k : Core) (h : Keep T U r s) : Keep T U r (s.setCore c k) := by
  unfold State.setCore
  split
  · rename_i hc
    refine ⟨h.pending, fun x => ?_, fun x => ⟨(h.time x).hmClk, (h.time x).latched, (h.time x).layout, (h.time x).bell⟩,
      fun x => ⟨(h.place x).layout, (h.place x).walk⟩⟩
    have y := h.canonical x
    exact ⟨y.mem, Tab.wf_set _ _ _ _ y.cores, y.fields, y.links, y.seats, y.counters,
      fun e he => (Tab.mem_set he).elim (fun q => q ▸ hc) (y.coreIx e), y.fieldIx, y.linkIx⟩
  · exact h

theorem State.setField_keep {T U : Prop} {r s : State} (f : Nat) (k : Field) (h : Keep T U r s) : Keep T U r (s.setField f k) := by
  unfold State.setField
  split
  · rename_i hc
    refine ⟨h.pending, fun x => ?_, fun x => ⟨(h.time x).hmClk, (h.time x).latched, (h.time x).layout, (h.time x).bell⟩,
      fun x => ⟨(h.place x).layout, (h.place x).walk⟩⟩
    have y := h.canonical x
    exact ⟨y.mem, y.cores, Tab.wf_set _ _ _ _ y.fields, y.links, y.seats, y.counters, y.coreIx,
      fun e he => (Tab.mem_set (d := fun _ => ({} : Field)) he).elim (fun q => q ▸ hc) (y.fieldIx e), y.linkIx⟩
  · exact h

theorem State.setLink_keep {T U : Prop} {r s : State} (l : Nat) (k : Link) (h : Keep T U r s) : Keep T U r (s.setLink l k) := by
  unfold State.setLink
  split
  · rename_i hc
    refine ⟨h.pending, fun x => ?_, fun x => ⟨(h.time x).hmClk, (h.time x).latched, (h.time x).layout, (h.time x).bell⟩,
      fun x => ⟨(h.place x).layout, (h.place x).walk⟩⟩
    have y := h.canonical x
    exact ⟨y.mem, y.cores, y.fields, Tab.wf_set _ _ _ _ y.links, y.seats, y.counters, y.coreIx, y.fieldIx,
      fun e he => (Tab.mem_set (d := fun _ => ({} : Link)) he).elim (fun q => q ▸ hc) (y.linkIx e)⟩
  · exact h

theorem State.setSeat_keep {T U : Prop} {r s : State} (f : Nat) (k : Seat) (h : Keep T U r s)
    (hk : T → k.clockOf = (s.seat f).clockOf) (hu : U → k.walkOf = (s.seat f).walkOf) : Keep T U r (s.setSeat f k) := by
  unfold State.setSeat
  split
  · refine ⟨h.pending, fun x => ?_, fun x => ⟨(h.time x).hmClk, (h.time x).latched, (h.time x).layout, fun j => ?_⟩,
      fun x => ⟨(h.place x).layout, fun j => ?_⟩⟩
    · have y := h.canonical x
      exact ⟨y.mem, y.cores, y.fields, y.links, Tab.wf_set _ _ _ _ y.seats, y.counters, y.coreIx, y.fieldIx, y.linkIx⟩
    · have q := (h.time x).bell j
      by_cases e : j = s.seatIx f
      · subst e
        rw [← q]
        simpa [State.seat] using hk x
      · simpa [Tab.get_set_ne, e] using q
    · have q := (h.place x).walk j
      by_cases e : j = s.seatIx f
      · subst e
        rw [← q, Tab.get_set_self]
        exact hu x
      · rw [Tab.get_set_ne _ _ _ e]
        exact q
  · exact h

theorem State.modSeat_keep {T U : Prop} {r s : State} {f : Nat} {g : Seat → Seat} (h : Keep T U r s)
    (hg : T → (g (s.seat f)).clockOf = (s.seat f).clockOf) (hu : U → (g (s.seat f)).walkOf = (s.seat f).walkOf) :
    Keep T U r (s.modSeat f g) := State.setSeat_keep _ _ h hg hu

theorem State.modTt_keep {T U : Prop} {r s : State} {f : Nat} {g : Tt → Tt} (h : Keep T U r s)
    (hg : T → ((g (s.seat f).tt).bell, (g (s.seat f).tt).opened) = ((s.seat f).tt.bell, (s.seat f).tt.opened))
    (hu : U → ((g (s.seat f).tt).entry, (g (s.seat f).tt).hold, (g (s.seat f).tt).left, (g (s.seat f).tt).syncState) =
      ((s.seat f).tt.entry, (s.seat f).tt.hold, (s.seat f).tt.left, (s.seat f).tt.syncState)) : Keep T U r (s.modTt f g) :=
  State.setSeat_keep _ _ h hg (fun u => congrArg (fun p => ((s.seat f).start, (s.seat f).stop, (s.seat f).running, (s.seat f).plan, p)) (hu u))

theorem State.setCounter_keep {T U : Prop} {r s : State} (a : Nat) (k : Counter) (h : Keep T U r s) : Keep T U r (s.setCounter a k) :=
  ⟨h.pending, fun x => let y := h.canonical x
    ⟨y.mem, y.cores, y.fields, y.links, y.seats, Tab.wf_set _ _ _ _ y.counters, y.coreIx, y.fieldIx, y.linkIx⟩, fun x => let y := h.time x; ⟨y.hmClk, y.latched, y.layout, y.bell⟩, fun x => let y := h.place x; ⟨y.layout, y.walk⟩⟩

theorem State.tagBlocks_keep {T U : Prop} {r s : State} (bs : List Nat) (h : Keep T U r s) : Keep T U r (s.tagBlocks bs) := Keep.upd h (fun _ => rfl) (fun _ => rfl)

theorem State.storeBytes_keep {T U : Prop} {r s : State} (a : Nat) (bs : List Byte) (h : Keep T U r s) : Keep T U r (s.storeBytes a bs) := by
  unfold State.storeBytes
  dsimp only
  split
  · exact Keep.upd (State.tagBlocks_keep _ (Keep.updMem h (Memory.wf_writeN _ _ _))) (fun _ => rfl) (fun _ => rfl)
  · exact Keep.updMem h (Memory.wf_writeN _ _ _)

/-- A sequence of actions keeps what each keeps. -/
theorem foldl_keep {α : Type} {T U : Prop} {r : State} (l : List α) (g : State → α → State) (s : State) (h : Keep T U r s)
    (hg : ∀ t x, Keep T U r t → Keep T U r (g t x)) : Keep T U r (l.foldl g s) := by
  induction l generalizing s with
  | nil => exact h
  | cons x l ih => exact ih _ (hg s x h)

theorem eachOf_keep {T U : Prop} {r : State} (l : List Nat) (g : Nat → State → State) (s : State) (h : Keep T U r s)
    (hg : ∀ x t, Keep T U r t → Keep T U r (g x t)) : Keep T U r (eachOf l g s) := foldl_keep l (fun t i => g i t) s h (fun t x => hg x t)

theorem foldl_keep_fst {α β : Type} {T U : Prop} {r : State} (l : List α) (g : State × β → α → State × β) (p : State × β) (h : Keep T U r p.1)
    (hg : ∀ q x, Keep T U r q.1 → Keep T U r (g q x).1) : Keep T U r (l.foldl g p).1 := by
  induction l generalizing p with
  | nil => exact h
  | cons x l ih => exact ih _ (hg p x h)

/-- The state of a pair written out; proofs cite it so that no pair need be evaluated. -/
theorem Keep.pair {α : Type} {T U : Prop} {r t : State} (x : α) (h : Keep T U r t) : Keep T U r (t, x).1 := h

theorem Keep.of_pair {α : Type} {T U : Prop} {r t : State} {e : State × α} {x : α} (he : e = (t, x)) (h : Keep T U r e.1) : Keep T U r t := by
  rw [he] at h; exact h

theorem Keep.of_ok {ε : Type} {T U : Prop} {r t : State} {e : Except ε State} (he : e = .ok t) (h : ∀ u, e = .ok u → Keep T U r u) : Keep T U r t := h t he

/-! ### Tables rebuilt entry by entry -/

theorem Tab.each_wf {α : Type} [DecidableEq α] (d : Nat → α) (t : Tab α) (g : α → α) : Tab.wf d (Tab.each d t g) = true := by
  unfold Tab.each
  suffices H : ∀ (t r : Tab α), Tab.wf d r = true → Tab.wf d (t.foldl (fun r e => Tab.set d r e.1 (g e.2)) r) = true from H t [] rfl
  intro t
  induction t with
  | nil => intro r h; exact h
  | cons e t ih => intro r h; exact ih _ (Tab.wf_set _ _ _ _ h)

theorem Tab.each_ix {α : Type} [DecidableEq α] (d : Nat → α) (t : Tab α) (g : α → α) (n : Nat) (h : ∀ e ∈ t, e.1 < n) :
    ∀ e ∈ Tab.each d t g, e.1 < n := by
  unfold Tab.each
  suffices H : ∀ (t r : Tab α), (∀ e ∈ t, e.1 < n) → (∀ e ∈ r, e.1 < n) →
      ∀ e ∈ t.foldl (fun r e => Tab.set d r e.1 (g e.2)) r, e.1 < n from H t [] h (by simp)
  intro t
  induction t with
  | nil => intro r _ hr; exact hr
  | cons x t ih =>
    intro r ht hr
    refine ih _ (fun e he => ht e (List.mem_cons_of_mem _ he)) (fun e he => ?_)
    rcases Tab.mem_set he with q | q
    · rw [q]; exact ht x (List.mem_cons_self ..)
    · exact hr e q

end Sys2Proof.Machine
end

