-- ==== Sys2Proof/Laws/Keep1.lean ====
section
/-! SUPPORT. What the model's operations keep (Keep: the queue and the canonical form), one lemma per operation, part 1. -/

set_option linter.unusedTactic false
set_option linter.unreachableTactic false

namespace Sys2Proof.Machine

theorem State.modMc_keep {T U : Prop} {r : State} {x0} {x1} {x2} (h : Keep T U r x0) : Keep T U r (@State.modMc x0 x1 x2) := by
  unfold State.modMc
  (try dsimp only)
  repeat' (first | (with_reducible assumption) | (with_reducible exact fun _ => rfl) | (with_reducible exact fun x => False.elim x) | (with_reducible apply State.setField_keep) | (with_reducible apply foldl_keep) | (with_reducible apply foldl_keep_fst) | split | (intro _) | (dsimp only [id]) | (with_reducible apply Keep.upd; first | (with_reducible assumption) | (with_reducible exact fun _ => rfl) | (with_reducible exact fun x => False.elim x) | (with_reducible apply State.setField_keep) | (with_reducible apply foldl_keep) | (with_reducible apply foldl_keep_fst) | split | (dsimp only [id])))

theorem State.modLb_keep {T U : Prop} {r : State} {x0} {x1} {x2} (h : Keep T U r x0) : Keep T U r (@State.modLb x0 x1 x2) := by
  unfold State.modLb
  (try dsimp only)
  repeat' (first | (with_reducible assumption) | (with_reducible exact fun _ => rfl) | (with_reducible exact fun x => False.elim x) | (with_reducible apply State.setField_keep) | (with_reducible apply foldl_keep) | (with_reducible apply foldl_keep_fst) | split | (intro _) | (dsimp only [id]) | (with_reducible apply Keep.upd; first | (with_reducible assumption) | (with_reducible exact fun _ => rfl) | (with_reducible exact fun x => False.elim x) | (with_reducible apply State.setField_keep) | (with_reducible apply foldl_keep) | (with_reducible apply foldl_keep_fst) | split | (dsimp only [id])))

theorem State.modHm_keep {T U : Prop} {r : State} {x0} {x1} {x2} (h : Keep T U r x0) : Keep T U r (@State.modHm x0 x1 x2) := by
  unfold State.modHm
  (try dsimp only)
  repeat' (first | (with_reducible assumption) | (with_reducible exact fun _ => rfl) | (with_reducible exact fun x => False.elim x) | (with_reducible apply State.setField_keep) | (with_reducible apply foldl_keep) | (with_reducible apply foldl_keep_fst) | split | (intro _) | (dsimp only [id]) | (with_reducible apply Keep.upd; first | (with_reducible assumption) | (with_reducible exact fun _ => rfl) | (with_reducible exact fun x => False.elim x) | (with_reducible apply State.setField_keep) | (with_reducible apply foldl_keep) | (with_reducible apply foldl_keep_fst) | split | (dsimp only [id])))

theorem State.modLink_keep {T U : Prop} {r : State} {x0} {x1} {x2} (h : Keep T U r x0) : Keep T U r (@State.modLink x0 x1 x2) := by
  unfold State.modLink
  (try dsimp only)
  repeat' (first | (with_reducible assumption) | (with_reducible exact fun _ => rfl) | (with_reducible exact fun x => False.elim x) | (with_reducible apply State.setLink_keep) | (with_reducible apply foldl_keep) | (with_reducible apply foldl_keep_fst) | split | (intro _) | (dsimp only [id]) | (with_reducible apply Keep.upd; first | (with_reducible assumption) | (with_reducible exact fun _ => rfl) | (with_reducible exact fun x => False.elim x) | (with_reducible apply State.setLink_keep) | (with_reducible apply foldl_keep) | (with_reducible apply foldl_keep_fst) | split | (dsimp only [id])))

theorem State.modCore_keep {T U : Prop} {r : State} {x0} {x1} {x2} (h : Keep T U r x0) : Keep T U r (@State.modCore x0 x1 x2) := by
  unfold State.modCore
  (try dsimp only)
  repeat' (first | (with_reducible assumption) | (with_reducible exact fun _ => rfl) | (with_reducible exact fun x => False.elim x) | (with_reducible apply State.setCore_keep) | (with_reducible apply foldl_keep) | (with_reducible apply foldl_keep_fst) | split | (intro _) | (dsimp only [id]) | (with_reducible apply Keep.upd; first | (with_reducible assumption) | (with_reducible exact fun _ => rfl) | (with_reducible exact fun x => False.elim x) | (with_reducible apply State.setCore_keep) | (with_reducible apply foldl_keep) | (with_reducible apply foldl_keep_fst) | split | (dsimp only [id])))

theorem State.modCm_keep {T U : Prop} {r : State} {x0} {x1} {x2} (h : Keep T U r x0) : Keep T U r (@State.modCm x0 x1 x2) := by
  unfold State.modCm
  (try dsimp only)
  repeat' (first | (with_reducible assumption) | (with_reducible exact fun _ => rfl) | (with_reducible exact fun x => False.elim x) | (with_reducible apply State.modSeat_keep) | (with_reducible apply foldl_keep) | (with_reducible apply foldl_keep_fst) | split | (intro _) | (dsimp only [id]) | (with_reducible apply Keep.upd; first | (with_reducible assumption) | (with_reducible exact fun _ => rfl) | (with_reducible exact fun x => False.elim x) | (with_reducible apply State.modSeat_keep) | (with_reducible apply foldl_keep) | (with_reducible apply foldl_keep_fst) | split | (dsimp only [id])))

theorem State.modCk_keep {T U : Prop} {r : State} {x0} {x1} {x2} (h : Keep T U r x0) : Keep T U r (@State.modCk x0 x1 x2) := by
  unfold State.modCk
  (try dsimp only)
  repeat' (first | (with_reducible assumption) | (with_reducible exact fun _ => rfl) | (with_reducible exact fun x => False.elim x) | (with_reducible apply State.modSeat_keep) | (with_reducible apply foldl_keep) | (with_reducible apply foldl_keep_fst) | split | (intro _) | (dsimp only [id]) | (with_reducible apply Keep.upd; first | (with_reducible assumption) | (with_reducible exact fun _ => rfl) | (with_reducible exact fun x => False.elim x) | (with_reducible apply State.modSeat_keep) | (with_reducible apply foldl_keep) | (with_reducible apply foldl_keep_fst) | split | (dsimp only [id])))

theorem State.burn_keep {T U : Prop} {r : State} {x0} {x1} (h : Keep T U r x0) : Keep T U r (@State.burn x0 x1) := by
  unfold State.burn
  (try dsimp only)
  repeat' (first | (with_reducible assumption) | (with_reducible exact fun _ => rfl) | (with_reducible exact fun x => False.elim x) | (with_reducible apply foldl_keep) | (with_reducible apply foldl_keep_fst) | split | (intro _) | (dsimp only [id]) | (with_reducible apply Keep.upd; first | (with_reducible assumption) | (with_reducible exact fun _ => rfl) | (with_reducible exact fun x => False.elim x) | (with_reducible apply foldl_keep) | (with_reducible apply foldl_keep_fst) | split | (dsimp only [id])))

theorem State.satEvent_keep {T U : Prop} {r : State} {x0} {x1} (h : Keep T U r x0) : Keep T U r (@State.satEvent x0 x1) := by
  unfold State.satEvent
  (try dsimp only)
  repeat' (first | (with_reducible assumption) | (with_reducible exact fun _ => rfl) | (with_reducible exact fun x => False.elim x) | (with_reducible apply State.setCounter_keep) | (with_reducible apply State.modHm_keep) | (with_reducible apply foldl_keep) | (with_reducible apply foldl_keep_fst) | split | (intro _) | (dsimp only [id]) | (with_reducible apply Keep.upd; first | (with_reducible assumption) | (with_reducible exact fun _ => rfl) | (with_reducible exact fun x => False.elim x) | (with_reducible apply State.setCounter_keep) | (with_reducible apply State.modHm_keep) | (with_reducible apply foldl_keep) | (with_reducible apply foldl_keep_fst) | split | (dsimp only [id])))

theorem State.bump_keep {T U : Prop} {r : State} {x0} {x1} (h : Keep T U r x0) : Keep T U r (@State.bump x0 x1) := by
  unfold State.bump
  (try dsimp only)
  repeat' (first | (with_reducible assumption) | (with_reducible exact fun _ => rfl) | (with_reducible exact fun x => False.elim x) | (with_reducible apply State.satEvent_keep) | (with_reducible apply State.setCounter_keep) | (with_reducible apply foldl_keep) | (with_reducible apply foldl_keep_fst) | split | (intro _) | (dsimp only [id]) | (with_reducible apply Keep.upd; first | (with_reducible assumption) | (with_reducible exact fun _ => rfl) | (with_reducible exact fun x => False.elim x) | (with_reducible apply State.satEvent_keep) | (with_reducible apply State.setCounter_keep) | (with_reducible apply foldl_keep) | (with_reducible apply foldl_keep_fst) | split | (dsimp only [id])))

theorem State.demerit_keep {T U : Prop} {r : State} {x0} {x1} {x2} {x3} {x4} (h : Keep T U r x0) : Keep T U r (@State.demerit x0 x1 x2 x3 x4) := by
  unfold State.demerit
  (try dsimp only)
  repeat' (first | (with_reducible assumption) | (with_reducible exact fun _ => rfl) | (with_reducible exact fun x => False.elim x) | (with_reducible apply State.modHm_keep) | (with_reducible apply foldl_keep) | (with_reducible apply foldl_keep_fst) | split | (intro _) | (dsimp only [id]) | (with_reducible apply Keep.upd; first | (with_reducible assumption) | (with_reducible exact fun _ => rfl) | (with_reducible exact fun x => False.elim x) | (with_reducible apply State.modHm_keep) | (with_reducible apply foldl_keep) | (with_reducible apply foldl_keep_fst) | split | (dsimp only [id])))

theorem State.quizAbandon_keep {T U : Prop} {r : State} {x0} {x1} (h : Keep T U r x0) : Keep T U r (@State.quizAbandon x0 x1) := by
  unfold State.quizAbandon
  (try dsimp only)
  repeat' (first | (with_reducible assumption) | (with_reducible exact fun _ => rfl) | (with_reducible exact fun x => False.elim x) | (with_reducible apply State.modHm_keep) | (with_reducible apply foldl_keep) | (with_reducible apply foldl_keep_fst) | split | (intro _) | (dsimp only [id]) | (with_reducible apply Keep.upd; first | (with_reducible assumption) | (with_reducible exact fun _ => rfl) | (with_reducible exact fun x => False.elim x) | (with_reducible apply State.modHm_keep) | (with_reducible apply foldl_keep) | (with_reducible apply foldl_keep_fst) | split | (dsimp only [id])))

theorem State.setStatus_keep {T U : Prop} {r : State} {x0} {x1} {x2} (h : Keep T U r x0) : Keep T U r (@State.setStatus x0 x1 x2) := by
  unfold State.setStatus
  (try dsimp only)
  repeat' (first | (with_reducible assumption) | (with_reducible exact fun _ => rfl) | (with_reducible exact fun x => False.elim x) | (with_reducible apply State.modTt_keep) | (with_reducible apply foldl_keep) | (with_reducible apply foldl_keep_fst) | split | (intro _) | (dsimp only [id]) | (with_reducible apply Keep.upd; first | (with_reducible assumption) | (with_reducible exact fun _ => rfl) | (with_reducible exact fun x => False.elim x) | (with_reducible apply State.modTt_keep) | (with_reducible apply foldl_keep) | (with_reducible apply foldl_keep_fst) | split | (dsimp only [id])))

theorem State.taint_keep {T U : Prop} {r : State} {x0} {x1} (h : Keep T U r x0) : Keep T U r (@State.taint x0 x1) := by
  unfold State.taint
  (try dsimp only)
  repeat' (first | (with_reducible assumption) | (with_reducible exact fun _ => rfl) | (with_reducible exact fun x => False.elim x) | (with_reducible apply State.setStatus_keep) | (with_reducible apply foldl_keep) | (with_reducible apply foldl_keep_fst) | split | (intro _) | (dsimp only [id]) | (with_reducible apply Keep.upd; first | (with_reducible assumption) | (with_reducible exact fun _ => rfl) | (with_reducible exact fun x => False.elim x) | (with_reducible apply State.setStatus_keep) | (with_reducible apply foldl_keep) | (with_reducible apply foldl_keep_fst) | split | (dsimp only [id])))

theorem State.late_keep {T U : Prop} {r : State} {x0} {x1} (h : Keep T U r x0) : Keep T U r (@State.late x0 x1) := by
  unfold State.late
  (try dsimp only)
  repeat' (first | (with_reducible assumption) | (with_reducible exact fun _ => rfl) | (with_reducible exact fun x => False.elim x) | (with_reducible apply State.setStatus_keep) | (with_reducible apply State.bump_keep) | (with_reducible apply State.setField_keep) | (with_reducible apply foldl_keep) | (with_reducible apply foldl_keep_fst) | split | (intro _) | (dsimp only [id]) | (with_reducible apply Keep.upd; first | (with_reducible assumption) | (with_reducible exact fun _ => rfl) | (with_reducible exact fun x => False.elim x) | (with_reducible apply State.setStatus_keep) | (with_reducible apply State.bump_keep) | (with_reducible apply State.setField_keep) | (with_reducible apply foldl_keep) | (with_reducible apply foldl_keep_fst) | split | (dsimp only [id])))

theorem State.overflow_keep {T U : Prop} {r : State} {x0} {x1} {x2} (h : Keep T U r x0) : Keep T U r (@State.overflow x0 x1 x2) := by
  unfold State.overflow
  (try dsimp only)
  repeat' (first | (with_reducible assumption) | (with_reducible exact fun _ => rfl) | (with_reducible exact fun x => False.elim x) | (with_reducible apply State.modTt_keep) | (with_reducible apply foldl_keep) | (with_reducible apply foldl_keep_fst) | split | (intro _) | (dsimp only [id]) | (with_reducible apply Keep.upd; first | (with_reducible assumption) | (with_reducible exact fun _ => rfl) | (with_reducible exact fun x => False.elim x) | (with_reducible apply State.modTt_keep) | (with_reducible apply foldl_keep) | (with_reducible apply foldl_keep_fst) | split | (dsimp only [id])))

theorem State.vlog_keep {T U : Prop} {r : State} {x0} {x1} {x2} (h : Keep T U r x0) : Keep T U r (@State.vlog x0 x1 x2) := by
  unfold State.vlog
  (try dsimp only)
  repeat' (first | (with_reducible assumption) | (with_reducible exact fun _ => rfl) | (with_reducible exact fun x => False.elim x) | (with_reducible apply State.setSeat_keep) | (with_reducible apply State.bump_keep) | (with_reducible apply foldl_keep) | (with_reducible apply foldl_keep_fst) | split | (intro _) | (dsimp only [id]) | (with_reducible apply Keep.upd; first | (with_reducible assumption) | (with_reducible exact fun _ => rfl) | (with_reducible exact fun x => False.elim x) | (with_reducible apply State.setSeat_keep) | (with_reducible apply State.bump_keep) | (with_reducible apply foldl_keep) | (with_reducible apply foldl_keep_fst) | split | (dsimp only [id])))

theorem State.modVlog_keep {T U : Prop} {r : State} {x0} {x1} (h : Keep T U r x0) : Keep T U r (@State.modVlog x0 x1) := by
  unfold State.modVlog
  (try dsimp only)
  repeat' (first | (with_reducible assumption) | (with_reducible exact fun _ => rfl) | (with_reducible exact fun x => False.elim x) | (with_reducible apply foldl_keep) | (with_reducible apply foldl_keep_fst) | split | (intro _) | (dsimp only [id]) | (with_reducible apply Keep.upd; first | (with_reducible assumption) | (with_reducible exact fun _ => rfl) | (with_reducible exact fun x => False.elim x) | (with_reducible apply foldl_keep) | (with_reducible apply foldl_keep_fst) | split | (dsimp only [id])))

theorem State.numLog_keep {T U : Prop} {r : State} {x0} {x1} {x2} (h : Keep T U r x0) : Keep T U r (@State.numLog x0 x1 x2) := by
  unfold State.numLog
  (try dsimp only)
  repeat' (first | (with_reducible assumption) | (with_reducible exact fun _ => rfl) | (with_reducible exact fun x => False.elim x) | (with_reducible apply State.modSeat_keep) | (with_reducible apply foldl_keep) | (with_reducible apply foldl_keep_fst) | split | (intro _) | (dsimp only [id]) | (with_reducible apply Keep.upd; first | (with_reducible assumption) | (with_reducible exact fun _ => rfl) | (with_reducible exact fun x => False.elim x) | (with_reducible apply State.modSeat_keep) | (with_reducible apply foldl_keep) | (with_reducible apply foldl_keep_fst) | split | (dsimp only [id])))

theorem State.duePage_keep {T U : Prop} {r : State} {x0} {x1} {x2} (h : Keep T U r x0) : Keep T U r (@State.duePage x0 x1 x2) := by
  unfold State.duePage
  (try dsimp only)
  repeat' (first | (with_reducible assumption) | (with_reducible exact fun _ => rfl) | (with_reducible exact fun x => False.elim x) | (with_reducible apply State.modMc_keep) | (with_reducible apply foldl_keep) | (with_reducible apply foldl_keep_fst) | split | (intro _) | (dsimp only [id]) | (with_reducible apply Keep.upd; first | (with_reducible assumption) | (with_reducible exact fun _ => rfl) | (with_reducible exact fun x => False.elim x) | (with_reducible apply State.modMc_keep) | (with_reducible apply foldl_keep) | (with_reducible apply foldl_keep_fst) | split | (dsimp only [id])))

theorem State.correctedBlock_keep {T U : Prop} {r : State} {x0} {x1} {x2} (h : Keep T U r x0) : Keep T U r (@State.correctedBlock x0 x1 x2) := by
  unfold State.correctedBlock
  (try dsimp only)
  repeat' (first | (with_reducible assumption) | (with_reducible exact fun _ => rfl) | (with_reducible exact fun x => False.elim x) | (with_reducible apply State.demerit_keep) | (with_reducible apply State.bump_keep) | (with_reducible apply State.modMc_keep) | (with_reducible apply State.duePage_keep) | (with_reducible apply foldl_keep) | (with_reducible apply foldl_keep_fst) | split | (intro _) | (dsimp only [id]) | (with_reducible apply Keep.upd; first | (with_reducible assumption) | (with_reducible exact fun _ => rfl) | (with_reducible exact fun x => False.elim x) | (with_reducible apply State.demerit_keep) | (with_reducible apply State.bump_keep) | (with_reducible apply State.modMc_keep) | (with_reducible apply State.duePage_keep) | (with_reducible apply foldl_keep) | (with_reducible apply foldl_keep_fst) | split | (dsimp only [id])))

theorem State.correctedWord_keep {T U : Prop} {r : State} {x0} {x1} (h : Keep T U r x0) : Keep T U r (@State.correctedWord x0 x1) := by
  unfold State.correctedWord
  (try dsimp only)
  repeat' (first | (with_reducible assumption) | (with_reducible exact fun _ => rfl) | (with_reducible exact fun x => False.elim x) | (with_reducible apply State.demerit_keep) | (with_reducible apply State.bump_keep) | (with_reducible apply foldl_keep) | (with_reducible apply foldl_keep_fst) | split | (intro _) | (dsimp only [id]) | (with_reducible apply Keep.upd; first | (with_reducible assumption) | (with_reducible exact fun _ => rfl) | (with_reducible exact fun x => False.elim x) | (with_reducible apply State.demerit_keep) | (with_reducible apply State.bump_keep) | (with_reducible apply foldl_keep) | (with_reducible apply foldl_keep_fst) | split | (dsimp only [id])))

theorem State.noteCorrected_keep {T U : Prop} {r : State} {x0} {x1} (h : Keep T U r x0) : Keep T U r (@State.noteCorrected x0 x1) := by
  unfold State.noteCorrected
  (try dsimp only)
  repeat' (first | (with_reducible assumption) | (with_reducible exact fun _ => rfl) | (with_reducible exact fun x => False.elim x) | (with_reducible apply State.correctedBlock_keep) | (with_reducible apply State.correctedWord_keep) | (with_reducible apply foldl_keep) | (with_reducible apply foldl_keep_fst) | split | (intro _) | (dsimp only [id]) | (with_reducible apply Keep.upd; first | (with_reducible assumption) | (with_reducible exact fun _ => rfl) | (with_reducible exact fun x => False.elim x) | (with_reducible apply State.correctedBlock_keep) | (with_reducible apply State.correctedWord_keep) | (with_reducible apply foldl_keep) | (with_reducible apply foldl_keep_fst) | split | (dsimp only [id])))

theorem State.writeRange_keep {T U : Prop} {r : State} {x0} {x1} {x2} {x3} (h : Keep T U r x0) : ∀ u, @State.writeRange x0 x1 x2 x3 = .ok u → Keep T U r u := by
  unfold State.writeRange
  (try dsimp only)
  repeat' (first | (intro u hu) | (cases hu) | (split at hu) | (with_reducible assumption) | (with_reducible exact fun _ => rfl) | (with_reducible exact fun x => False.elim x) | (with_reducible apply State.storeBytes_keep) | (with_reducible apply State.noteCorrected_keep) | (with_reducible apply foldl_keep) | (with_reducible apply foldl_keep_fst) | split | (intro _) | (dsimp only [id]) | (with_reducible apply Keep.upd; first | (intro u hu) | (cases hu) | (split at hu) | (with_reducible assumption) | (with_reducible exact fun _ => rfl) | (with_reducible exact fun x => False.elim x) | (with_reducible apply State.storeBytes_keep) | (with_reducible apply State.noteCorrected_keep) | (with_reducible apply foldl_keep) | (with_reducible apply foldl_keep_fst) | split | (dsimp only [id])))

theorem State.noteErr_keep {T U : Prop} {r : State} {x0} {x1} {x2} {x3} (h : Keep T U r x0) : Keep T U r (@State.noteErr x0 x1 x2 x3) := by
  unfold State.noteErr
  (try dsimp only)
  repeat' (first | (with_reducible assumption) | (with_reducible exact fun _ => rfl) | (with_reducible exact fun x => False.elim x) | (with_reducible apply State.modMc_keep) | (with_reducible apply State.taint_keep) | (with_reducible apply State.modHm_keep) | (with_reducible apply State.demerit_keep) | (with_reducible apply State.bump_keep) | (with_reducible apply State.duePage_keep) | (with_reducible apply foldl_keep) | (with_reducible apply foldl_keep_fst) | split | (intro _) | (dsimp only [id]) | (with_reducible apply Keep.upd; first | (with_reducible assumption) | (with_reducible exact fun _ => rfl) | (with_reducible exact fun x => False.elim x) | (with_reducible apply State.modMc_keep) | (with_reducible apply State.taint_keep) | (with_reducible apply State.modHm_keep) | (with_reducible apply State.demerit_keep) | (with_reducible apply State.bump_keep) | (with_reducible apply State.duePage_keep) | (with_reducible apply foldl_keep) | (with_reducible apply foldl_keep_fst) | split | (dsimp only [id])))

theorem State.recordFault_keep {T U : Prop} {r : State} {x0} {x1} {x2} {x3} {x4} {x5} {x6} (h : Keep T U r x0) : Keep T U r (@State.recordFault x0 x1 x2 x3 x4 x5 x6) := by
  unfold State.recordFault
  (try dsimp only)
  repeat' (first | (with_reducible assumption) | (with_reducible exact fun _ => rfl) | (with_reducible exact fun x => False.elim x) | (with_reducible apply State.taint_keep) | (with_reducible apply State.modCore_keep) | (with_reducible apply State.vlog_keep) | (with_reducible apply foldl_keep) | (with_reducible apply foldl_keep_fst) | split | (intro _) | (dsimp only [id]) | (with_reducible apply Keep.upd; first | (with_reducible assumption) | (with_reducible exact fun _ => rfl) | (with_reducible exact fun x => False.elim x) | (with_reducible apply State.taint_keep) | (with_reducible apply State.modCore_keep) | (with_reducible apply State.vlog_keep) | (with_reducible apply foldl_keep) | (with_reducible apply foldl_keep_fst) | split | (dsimp only [id])))

theorem State.recordFaultOpen_keep {T U : Prop} {r : State} {x0} {x1} {x2} {x3} {x4} {x5} (h : Keep T U r x0) : Keep T U r (@State.recordFaultOpen x0 x1 x2 x3 x4 x5) := by
  unfold State.recordFaultOpen
  (try dsimp only)
  repeat' (first | (with_reducible assumption) | (with_reducible exact fun _ => rfl) | (with_reducible exact fun x => False.elim x) | (with_reducible apply State.burn_keep) | (with_reducible apply State.recordFault_keep) | (with_reducible apply foldl_keep) | (with_reducible apply foldl_keep_fst) | split | (intro _) | (dsimp only [id]) | (with_reducible apply Keep.upd; first | (with_reducible assumption) | (with_reducible exact fun _ => rfl) | (with_reducible exact fun x => False.elim x) | (with_reducible apply State.burn_keep) | (with_reducible apply State.recordFault_keep) | (with_reducible apply foldl_keep) | (with_reducible apply foldl_keep_fst) | split | (dsimp only [id])))

theorem State.engineErr_keep {T U : Prop} {r : State} {x0} {x1} {x2} {x3} {x4} {x5} (h : Keep T U r x0) : Keep T U r (@State.engineErr x0 x1 x2 x3 x4 x5) := by
  unfold State.engineErr
  (try dsimp only)
  repeat' (first | (with_reducible assumption) | (with_reducible exact fun _ => rfl) | (with_reducible exact fun x => False.elim x) | (with_reducible apply State.noteErr_keep) | (with_reducible apply State.recordFault_keep) | (with_reducible apply foldl_keep) | (with_reducible apply foldl_keep_fst) | split | (intro _) | (dsimp only [id]) | (with_reducible apply Keep.upd; first | (with_reducible assumption) | (with_reducible exact fun _ => rfl) | (with_reducible exact fun x => False.elim x) | (with_reducible apply State.noteErr_keep) | (with_reducible apply State.recordFault_keep) | (with_reducible apply foldl_keep) | (with_reducible apply foldl_keep_fst) | split | (dsimp only [id])))

theorem State.advanceFrom_keep {T U : Prop} {r : State} {x0} {x1} {x2} {x3} (h : Keep T U r x0) : Keep T U r (@State.advanceFrom x0 x1 x2 x3) := by
  unfold State.advanceFrom
  (try dsimp only)
  repeat' (first | (with_reducible assumption) | (with_reducible exact fun _ => rfl) | (with_reducible exact fun x => False.elim x) | (with_reducible apply State.setCore_keep) | (with_reducible apply State.recordFaultOpen_keep) | (with_reducible apply foldl_keep) | (with_reducible apply foldl_keep_fst) | split | (intro _) | (dsimp only [id]) | (with_reducible apply Keep.upd; first | (with_reducible assumption) | (with_reducible exact fun _ => rfl) | (with_reducible exact fun x => False.elim x) | (with_reducible apply State.setCore_keep) | (with_reducible apply State.recordFaultOpen_keep) | (with_reducible apply foldl_keep) | (with_reducible apply foldl_keep_fst) | split | (dsimp only [id])))

theorem State.advance_keep {T U : Prop} {r : State} {x0} {x1} {x2} (h : Keep T U r x0) : Keep T U r (@State.advance x0 x1 x2) := by
  unfold State.advance
  (try dsimp only)
  repeat' (first | (with_reducible assumption) | (with_reducible exact fun _ => rfl) | (with_reducible exact fun x => False.elim x) | (with_reducible apply State.advanceFrom_keep) | (with_reducible apply foldl_keep) | (with_reducible apply foldl_keep_fst) | split | (intro _) | (dsimp only [id]) | (with_reducible apply Keep.upd; first | (with_reducible assumption) | (with_reducible exact fun _ => rfl) | (with_reducible exact fun x => False.elim x) | (with_reducible apply State.advanceFrom_keep) | (with_reducible apply foldl_keep) | (with_reducible apply foldl_keep_fst) | split | (dsimp only [id])))

theorem issue_keep {T U : Prop} {r : State} {x0} {x1} {x2} {x3} {x4} (h : Keep T U r x4) (g3 : ∀ y0, Keep T U r y0 → Keep T U r (x3 y0)) : Keep T U r (@issue x0 x1 x2 x3 x4) := by
  unfold issue
  (try dsimp only)
  repeat' (first | (with_reducible assumption) | (with_reducible exact fun _ => rfl) | (with_reducible exact fun x => False.elim x) | (with_reducible apply g3) | (with_reducible apply State.burn_keep) | (with_reducible apply State.noteErr_keep) | (with_reducible apply State.recordFault_keep) | (with_reducible apply State.modCore_keep) | (with_reducible apply State.correctedWord_keep) | (with_reducible apply State.advance_keep) | (with_reducible apply foldl_keep) | (with_reducible apply foldl_keep_fst) | split | (intro _) | (dsimp only [id]) | (with_reducible apply Keep.upd; first | (with_reducible assumption) | (with_reducible exact fun _ => rfl) | (with_reducible exact fun x => False.elim x) | (with_reducible apply g3) | (with_reducible apply State.burn_keep) | (with_reducible apply State.noteErr_keep) | (with_reducible apply State.recordFault_keep) | (with_reducible apply State.modCore_keep) | (with_reducible apply State.correctedWord_keep) | (with_reducible apply State.advance_keep) | (with_reducible apply foldl_keep) | (with_reducible apply foldl_keep_fst) | split | (dsimp only [id])))

theorem issueK_keep {T U : Prop} {r : State} {x0} {x1} {x2} {x3} {x4} (h : Keep T U r x4) : Keep T U r (@issueK x0 x1 x2 x3 x4) := by
  unfold issueK
  (try dsimp only)
  repeat' (first | (with_reducible assumption) | (with_reducible exact fun _ => rfl) | (with_reducible exact fun x => False.elim x) | (with_reducible apply issue_keep) | (with_reducible apply State.advance_keep) | (with_reducible apply State.modCore_keep) | (with_reducible apply foldl_keep) | (with_reducible apply foldl_keep_fst) | split | (intro _) | (dsimp only [id]) | (with_reducible apply Keep.upd; first | (with_reducible assumption) | (with_reducible exact fun _ => rfl) | (with_reducible exact fun x => False.elim x) | (with_reducible apply issue_keep) | (with_reducible apply State.advance_keep) | (with_reducible apply State.modCore_keep) | (with_reducible apply foldl_keep) | (with_reducible apply foldl_keep_fst) | split | (dsimp only [id])))

theorem State.landRanges_keep {T U : Prop} {r : State} {x0} {x1} {x2} (h : Keep T U r x0) : Keep T U r (@State.landRanges x0 x1 x2) := by
  unfold State.landRanges
  (try dsimp only)
  repeat' (first | (with_reducible assumption) | (with_reducible exact fun _ => rfl) | (with_reducible exact fun x => False.elim x) | (with_reducible apply State.storeBytes_keep) | (with_reducible apply State.noteCorrected_keep) | (with_reducible apply foldl_keep) | (with_reducible apply foldl_keep_fst) | split | (intro _) | (dsimp only [id]) | (with_reducible apply Keep.upd; first | (with_reducible assumption) | (with_reducible exact fun _ => rfl) | (with_reducible exact fun x => False.elim x) | (with_reducible apply State.storeBytes_keep) | (with_reducible apply State.noteCorrected_keep) | (with_reducible apply foldl_keep) | (with_reducible apply foldl_keep_fst) | split | (dsimp only [id])))

theorem State.putAll_keep {T U : Prop} {r : State} {x0} {x1} {x2} (h : Keep T U r x0) : Keep T U r (@State.putAll x0 x1 x2) := by
  unfold State.putAll
  (try dsimp only)
  repeat' (first | (with_reducible assumption) | (with_reducible exact fun _ => rfl) | (with_reducible exact fun x => False.elim x) | (with_reducible apply State.landRanges_keep) | (with_reducible apply foldl_keep) | (with_reducible apply foldl_keep_fst) | split | (intro _) | (dsimp only [id]) | (with_reducible apply Keep.upd; first | (with_reducible assumption) | (with_reducible exact fun _ => rfl) | (with_reducible exact fun x => False.elim x) | (with_reducible apply State.landRanges_keep) | (with_reducible apply foldl_keep) | (with_reducible apply foldl_keep_fst) | split | (dsimp only [id])))

theorem State.queueArr_keep {T U : Prop} {r : State} {x0} {x1} {x2} {x3} {x4} (h : Keep T U r x0) : Keep T U r (@State.queueArr x0 x1 x2 x3 x4) := by
  unfold State.queueArr
  (try dsimp only)
  repeat' (first | (with_reducible assumption) | (with_reducible exact fun _ => rfl) | (with_reducible exact fun x => False.elim x) | (with_reducible apply State.quizAbandon_keep) | (with_reducible apply State.advance_keep) | (with_reducible apply State.setCore_keep) | (with_reducible apply foldl_keep) | (with_reducible apply foldl_keep_fst) | split | (intro _) | (dsimp only [id]) | (with_reducible apply Keep.upd; first | (with_reducible assumption) | (with_reducible exact fun _ => rfl) | (with_reducible exact fun x => False.elim x) | (with_reducible apply State.quizAbandon_keep) | (with_reducible apply State.advance_keep) | (with_reducible apply State.setCore_keep) | (with_reducible apply foldl_keep) | (with_reducible apply foldl_keep_fst) | split | (dsimp only [id])))

theorem execMma_keep {T U : Prop} {r : State} {x0} {x1} {x2} (h : Keep T U r x2) : Keep T U r (@execMma x0 x1 x2) := by
  unfold execMma
  (try dsimp only)
  repeat' (first | (with_reducible assumption) | (with_reducible exact fun _ => rfl) | (with_reducible exact fun x => False.elim x) | (with_reducible apply issue_keep) | (with_reducible apply State.advance_keep) | (with_reducible apply State.recordFaultOpen_keep) | (with_reducible apply State.queueArr_keep) | (with_reducible apply foldl_keep) | (with_reducible apply foldl_keep_fst) | split | (intro _) | (dsimp only [id]) | (with_reducible apply Keep.upd; first | (with_reducible assumption) | (with_reducible exact fun _ => rfl) | (with_reducible exact fun x => False.elim x) | (with_reducible apply issue_keep) | (with_reducible apply State.advance_keep) | (with_reducible apply State.recordFaultOpen_keep) | (with_reducible apply State.queueArr_keep) | (with_reducible apply foldl_keep) | (with_reducible apply foldl_keep_fst) | split | (dsimp only [id])))

theorem execMxz_keep {T U : Prop} {r : State} {x0} {x1} {x2} (h : Keep T U r x2) : Keep T U r (@execMxz x0 x1 x2) := by
  unfold execMxz
  (try dsimp only)
  repeat' (first | (with_reducible assumption) | (with_reducible exact fun _ => rfl) | (with_reducible exact fun x => False.elim x) | (with_reducible apply issue_keep) | (with_reducible apply State.queueArr_keep) | (with_reducible apply foldl_keep) | (with_reducible apply foldl_keep_fst) | split | (intro _) | (dsimp only [id]) | (with_reducible apply Keep.upd; first | (with_reducible assumption) | (with_reducible exact fun _ => rfl) | (with_reducible exact fun x => False.elim x) | (with_reducible apply issue_keep) | (with_reducible apply State.queueArr_keep) | (with_reducible apply foldl_keep) | (with_reducible apply foldl_keep_fst) | split | (dsimp only [id])))

theorem execMxld_keep {T U : Prop} {r : State} {x0} {x1} {x2} (h : Keep T U r x2) : Keep T U r (@execMxld x0 x1 x2) := by
  unfold execMxld
  (try dsimp only)
  repeat' (first | (with_reducible assumption) | (with_reducible exact fun _ => rfl) | (with_reducible exact fun x => False.elim x) | (with_reducible apply issue_keep) | (with_reducible apply State.advance_keep) | (with_reducible apply State.recordFaultOpen_keep) | (with_reducible apply State.queueArr_keep) | (with_reducible apply foldl_keep) | (with_reducible apply foldl_keep_fst) | split | (intro _) | (dsimp only [id]) | (with_reducible apply Keep.upd; first | (with_reducible assumption) | (with_reducible exact fun _ => rfl) | (with_reducible exact fun x => False.elim x) | (with_reducible apply issue_keep) | (with_reducible apply State.advance_keep) | (with_reducible apply State.recordFaultOpen_keep) | (with_reducible apply State.queueArr_keep) | (with_reducible apply foldl_keep) | (with_reducible apply foldl_keep_fst) | split | (dsimp only [id])))

theorem execMxst_keep {T U : Prop} {r : State} {x0} {x1} {x2} (h : Keep T U r x2) : Keep T U r (@execMxst x0 x1 x2) := by
  unfold execMxst
  (try dsimp only)
  repeat' (first | (with_reducible assumption) | (with_reducible exact fun _ => rfl) | (with_reducible exact fun x => False.elim x) | (with_reducible apply issue_keep) | (with_reducible apply State.advance_keep) | (with_reducible apply State.recordFaultOpen_keep) | (with_reducible apply State.recordFault_keep) | (with_reducible apply State.queueArr_keep) | (with_reducible apply foldl_keep) | (with_reducible apply foldl_keep_fst) | split | (intro _) | (dsimp only [id]) | (with_reducible apply Keep.upd; first | (with_reducible assumption) | (with_reducible exact fun _ => rfl) | (with_reducible exact fun x => False.elim x) | (with_reducible apply issue_keep) | (with_reducible apply State.advance_keep) | (with_reducible apply State.recordFaultOpen_keep) | (with_reducible apply State.recordFault_keep) | (with_reducible apply State.queueArr_keep) | (with_reducible apply foldl_keep) | (with_reducible apply foldl_keep_fst) | split | (dsimp only [id])))

theorem execMmaStart_keep {T U : Prop} {r : State} {x0} {x1} (h : Keep T U r x1) : Keep T U r (@execMmaStart x0 x1) := by
  unfold execMmaStart
  (try dsimp only)
  repeat' (first | (with_reducible assumption) | (with_reducible exact fun _ => rfl) | (with_reducible exact fun x => False.elim x) | (with_reducible apply State.setCore_keep) | (with_reducible apply foldl_keep) | (with_reducible apply foldl_keep_fst) | split | (intro _) | (dsimp only [id]) | (with_reducible apply Keep.upd; first | (with_reducible assumption) | (with_reducible exact fun _ => rfl) | (with_reducible exact fun x => False.elim x) | (with_reducible apply State.setCore_keep) | (with_reducible apply foldl_keep) | (with_reducible apply foldl_keep_fst) | split | (dsimp only [id])))

theorem execMmaResultReady_keep {T U : Prop} {r : State} {x0} {x1} {x2} (h : Keep T U r x2) : Keep T U r (@execMmaResultReady x0 x1 x2) := by
  unfold execMmaResultReady
  (try dsimp only)
  repeat' (first | (with_reducible assumption) | (with_reducible exact fun _ => rfl) | (with_reducible exact fun x => False.elim x) | (with_reducible apply State.engineErr_keep) | (with_reducible apply State.burn_keep) | (with_reducible apply State.setCore_keep) | (with_reducible apply State.noteCorrected_keep) | (with_reducible apply foldl_keep) | (with_reducible apply foldl_keep_fst) | split | (intro _) | (dsimp only [id]) | (with_reducible apply Keep.upd; first | (with_reducible assumption) | (with_reducible exact fun _ => rfl) | (with_reducible exact fun x => False.elim x) | (with_reducible apply State.engineErr_keep) | (with_reducible apply State.burn_keep) | (with_reducible apply State.setCore_keep) | (with_reducible apply State.noteCorrected_keep) | (with_reducible apply foldl_keep) | (with_reducible apply foldl_keep_fst) | split | (dsimp only [id])))

theorem execMxzDone_keep {T U : Prop} {r : State} {x0} {x1} (h : Keep T U r x1) : Keep T U r (@execMxzDone x0 x1) := by
  unfold execMxzDone
  (try dsimp only)
  repeat' (first | (with_reducible assumption) | (with_reducible exact fun _ => rfl) | (with_reducible exact fun x => False.elim x) | (with_reducible apply State.setCore_keep) | (with_reducible apply foldl_keep) | (with_reducible apply foldl_keep_fst) | split | (intro _) | (dsimp only [id]) | (with_reducible apply Keep.upd; first | (with_reducible assumption) | (with_reducible exact fun _ => rfl) | (with_reducible exact fun x => False.elim x) | (with_reducible apply State.setCore_keep) | (with_reducible apply foldl_keep) | (with_reducible apply foldl_keep_fst) | split | (dsimp only [id])))

theorem execMxldDone_keep {T U : Prop} {r : State} {x0} {x1} (h : Keep T U r x1) : Keep T U r (@execMxldDone x0 x1) := by
  unfold execMxldDone
  (try dsimp only)
  repeat' (first | (with_reducible assumption) | (with_reducible exact fun _ => rfl) | (with_reducible exact fun x => False.elim x) | (with_reducible apply State.engineErr_keep) | (with_reducible apply State.burn_keep) | (with_reducible apply State.setCore_keep) | (with_reducible apply State.noteCorrected_keep) | (with_reducible apply foldl_keep) | (with_reducible apply foldl_keep_fst) | split | (intro _) | (dsimp only [id]) | (with_reducible apply Keep.upd; first | (with_reducible assumption) | (with_reducible exact fun _ => rfl) | (with_reducible exact fun x => False.elim x) | (with_reducible apply State.engineErr_keep) | (with_reducible apply State.burn_keep) | (with_reducible apply State.setCore_keep) | (with_reducible apply State.noteCorrected_keep) | (with_reducible apply foldl_keep) | (with_reducible apply foldl_keep_fst) | split | (dsimp only [id])))

theorem execMxstStart_keep {T U : Prop} {r : State} {x0} {x1} (h : Keep T U r x1) : Keep T U r (@execMxstStart x0 x1) := by
  unfold execMxstStart
  (try dsimp only)
  repeat' (first | (with_reducible assumption) | (with_reducible exact fun _ => rfl) | (with_reducible exact fun x => False.elim x) | (with_reducible apply State.setCore_keep) | (with_reducible apply foldl_keep) | (with_reducible apply foldl_keep_fst) | split | (intro _) | (dsimp only [id]) | (with_reducible apply Keep.upd; first | (with_reducible assumption) | (with_reducible exact fun _ => rfl) | (with_reducible exact fun x => False.elim x) | (with_reducible apply State.setCore_keep) | (with_reducible apply foldl_keep) | (with_reducible apply foldl_keep_fst) | split | (dsimp only [id])))

theorem State.endSequence_keep {T U : Prop} {r : State} {x0} {x1} {x2} {x3} (h : Keep T U r x0) : Keep T U r (@State.endSequence x0 x1 x2 x3) := by
  unfold State.endSequence
  (try dsimp only)
  repeat' (first | (with_reducible assumption) | (with_reducible exact fun _ => rfl) | (with_reducible exact fun x => False.elim x) | (with_reducible apply State.modCore_keep) | (with_reducible apply foldl_keep) | (with_reducible apply foldl_keep_fst) | split | (intro _) | (dsimp only [id]) | (with_reducible apply Keep.upd; first | (with_reducible assumption) | (with_reducible exact fun _ => rfl) | (with_reducible exact fun x => False.elim x) | (with_reducible apply State.modCore_keep) | (with_reducible apply foldl_keep) | (with_reducible apply foldl_keep_fst) | split | (dsimp only [id])))

theorem execAbftCheckVerdict_keep {T U : Prop} {r : State} {x0} {x1} (h : Keep T U r x1) : Keep T U r (@execAbftCheckVerdict x0 x1) := by
  unfold execAbftCheckVerdict
  (try dsimp only)
  repeat' (first | (with_reducible assumption) | (with_reducible exact fun _ => rfl) | (with_reducible exact fun x => False.elim x) | (with_reducible apply State.setCore_keep) | (with_reducible apply State.endSequence_keep) | (with_reducible apply foldl_keep) | (with_reducible apply foldl_keep_fst) | split | (intro _) | (dsimp only [id]) | (with_reducible apply Keep.upd; first | (with_reducible assumption) | (with_reducible exact fun _ => rfl) | (with_reducible exact fun x => False.elim x) | (with_reducible apply State.setCore_keep) | (with_reducible apply State.endSequence_keep) | (with_reducible apply foldl_keep) | (with_reducible apply foldl_keep_fst) | split | (dsimp only [id])))

theorem execLocalRecomputeStart_keep {T U : Prop} {r : State} {x0} {x1} (h : Keep T U r x1) : Keep T U r (@execLocalRecomputeStart x0 x1) := by
  unfold execLocalRecomputeStart
  (try dsimp only)
  repeat' (first | (with_reducible assumption) | (with_reducible exact fun _ => rfl) | (with_reducible exact fun x => False.elim x) | (with_reducible apply State.setCore_keep) | (with_reducible apply State.endSequence_keep) | (with_reducible apply foldl_keep) | (with_reducible apply foldl_keep_fst) | split | (intro _) | (dsimp only [id]) | (with_reducible apply Keep.upd; first | (with_reducible assumption) | (with_reducible exact fun _ => rfl) | (with_reducible exact fun x => False.elim x) | (with_reducible apply State.setCore_keep) | (with_reducible apply State.endSequence_keep) | (with_reducible apply foldl_keep) | (with_reducible apply foldl_keep_fst) | split | (dsimp only [id])))

theorem execLocalRecomputeDone_keep {T U : Prop} {r : State} {x0} {x1} {x2} (h : Keep T U r x2) : Keep T U r (@execLocalRecomputeDone x0 x1 x2) := by
  unfold execLocalRecomputeDone
  (try dsimp only)
  repeat' (first | (with_reducible assumption) | (with_reducible exact fun _ => rfl) | (with_reducible exact fun x => False.elim x) | (with_reducible apply State.endSequence_keep) | (with_reducible apply State.engineErr_keep) | (with_reducible apply State.setCore_keep) | (with_reducible apply State.noteCorrected_keep) | (with_reducible apply State.modCore_keep) | (with_reducible apply foldl_keep) | (with_reducible apply foldl_keep_fst) | split | (intro _) | (dsimp only [id]) | (with_reducible apply Keep.upd; first | (with_reducible assumption) | (with_reducible exact fun _ => rfl) | (with_reducible exact fun x => False.elim x) | (with_reducible apply State.endSequence_keep) | (with_reducible apply State.engineErr_keep) | (with_reducible apply State.setCore_keep) | (with_reducible apply State.noteCorrected_keep) | (with_reducible apply State.modCore_keep) | (with_reducible apply foldl_keep) | (with_reducible apply foldl_keep_fst) | split | (dsimp only [id])))

theorem execBuddyServiceRequest_keep {T U : Prop} {r : State} {x0} {x1} (h : Keep T U r x1) : Keep T U r (@execBuddyServiceRequest x0 x1) := by
  unfold execBuddyServiceRequest
  (try dsimp only)
  repeat' (first | (with_reducible assumption) | (with_reducible exact fun _ => rfl) | (with_reducible exact fun x => False.elim x) | (with_reducible apply State.modCore_keep) | (with_reducible apply State.endSequence_keep) | (with_reducible apply foldl_keep) | (with_reducible apply foldl_keep_fst) | split | (intro _) | (dsimp only [id]) | (with_reducible apply Keep.upd; first | (with_reducible assumption) | (with_reducible exact fun _ => rfl) | (with_reducible exact fun x => False.elim x) | (with_reducible apply State.modCore_keep) | (with_reducible apply State.endSequence_keep) | (with_reducible apply foldl_keep) | (with_reducible apply foldl_keep_fst) | split | (dsimp only [id])))

theorem execBuddyServiceStart_keep {T U : Prop} {r : State} {x0} {x1} (h : Keep T U r x1) : Keep T U r (@execBuddyServiceStart x0 x1) := by
  unfold execBuddyServiceStart
  (try dsimp only)
  repeat' (first | (with_reducible assumption) | (with_reducible exact fun _ => rfl) | (with_reducible exact fun x => False.elim x) | (with_reducible apply State.modCore_keep) | (with_reducible apply foldl_keep) | (with_reducible apply foldl_keep_fst) | split | (intro _) | (dsimp only [id]) | (with_reducible apply Keep.upd; first | (with_reducible assumption) | (with_reducible exact fun _ => rfl) | (with_reducible exact fun x => False.elim x) | (with_reducible apply State.modCore_keep) | (with_reducible apply foldl_keep) | (with_reducible apply foldl_keep_fst) | split | (dsimp only [id])))

theorem execBuddyServiceDone_keep {T U : Prop} {r : State} {x0} {x1} {x2} (h : Keep T U r x2) : Keep T U r (@execBuddyServiceDone x0 x1 x2) := by
  unfold execBuddyServiceDone
  (try dsimp only)
  repeat' (first | (with_reducible assumption) | (with_reducible exact fun _ => rfl) | (with_reducible exact fun x => False.elim x) | (with_reducible apply State.modCore_keep) | (with_reducible apply State.endSequence_keep) | (with_reducible apply State.engineErr_keep) | (with_reducible apply State.noteCorrected_keep) | (with_reducible apply foldl_keep) | (with_reducible apply foldl_keep_fst) | split | (intro _) | (dsimp only [id]) | (with_reducible apply Keep.upd; first | (with_reducible assumption) | (with_reducible exact fun _ => rfl) | (with_reducible exact fun x => False.elim x) | (with_reducible apply State.modCore_keep) | (with_reducible apply State.endSequence_keep) | (with_reducible apply State.engineErr_keep) | (with_reducible apply State.noteCorrected_keep) | (with_reducible apply foldl_keep) | (with_reducible apply foldl_keep_fst) | split | (dsimp only [id])))

theorem execBuddyTileReturn_keep {T U : Prop} {r : State} {x0} {x1} (h : Keep T U r x1) : Keep T U r (@execBuddyTileReturn x0 x1) := by
  unfold execBuddyTileReturn
  (try dsimp only)
  repeat' (first | (with_reducible assumption) | (with_reducible exact fun _ => rfl) | (with_reducible exact fun x => False.elim x) | (with_reducible apply State.endSequence_keep) | (with_reducible apply State.modCore_keep) | (with_reducible apply foldl_keep) | (with_reducible apply foldl_keep_fst) | split | (intro _) | (dsimp only [id]) | (with_reducible apply Keep.upd; first | (with_reducible assumption) | (with_reducible exact fun _ => rfl) | (with_reducible exact fun x => False.elim x) | (with_reducible apply State.endSequence_keep) | (with_reducible apply State.modCore_keep) | (with_reducible apply foldl_keep) | (with_reducible apply foldl_keep_fst) | split | (dsimp only [id])))

theorem State.logOverflow_keep {T U : Prop} {r : State} {x0} {x1} {x2} {x3} {x4} (h : Keep T U r x0) : Keep T U r (@State.logOverflow x0 x1 x2 x3 x4) := by
  unfold State.logOverflow
  (try dsimp only)
  repeat' (first | (with_reducible assumption) | (with_reducible exact fun _ => rfl) | (with_reducible exact fun x => False.elim x) | (with_reducible apply State.numLog_keep) | (with_reducible apply State.setCore_keep) | (with_reducible apply foldl_keep) | (with_reducible apply foldl_keep_fst) | split | (intro _) | (dsimp only [id]) | (with_reducible apply Keep.upd; first | (with_reducible assumption) | (with_reducible exact fun _ => rfl) | (with_reducible exact fun x => False.elim x) | (with_reducible apply State.numLog_keep) | (with_reducible apply State.setCore_keep) | (with_reducible apply foldl_keep) | (with_reducible apply foldl_keep_fst) | split | (dsimp only [id])))

theorem State.abftEvent_keep {T U : Prop} {r : State} {x0} {x1} {x2} (h : Keep T U r x0) : Keep T U r (@State.abftEvent x0 x1 x2) := by
  unfold State.abftEvent
  (try dsimp only)
  repeat' (first | (with_reducible assumption) | (with_reducible exact fun _ => rfl) | (with_reducible exact fun x => False.elim x) | (with_reducible apply State.modCore_keep) | (with_reducible apply State.bump_keep) | (with_reducible apply State.demerit_keep) | (with_reducible apply State.setStatus_keep) | (with_reducible apply foldl_keep) | (with_reducible apply foldl_keep_fst) | split | (intro _) | (dsimp only [id]) | (with_reducible apply Keep.upd; first | (with_reducible assumption) | (with_reducible exact fun _ => rfl) | (with_reducible exact fun x => False.elim x) | (with_reducible apply State.modCore_keep) | (with_reducible apply State.bump_keep) | (with_reducible apply State.demerit_keep) | (with_reducible apply State.setStatus_keep) | (with_reducible apply foldl_keep) | (with_reducible apply foldl_keep_fst) | split | (dsimp only [id])))

theorem execMxstWriteDone_keep {T U : Prop} {r : State} {x0} {x1} (h : Keep T U r x1) : Keep T U r (@execMxstWriteDone x0 x1) := by
  unfold execMxstWriteDone
  (try dsimp only)
  repeat' (first | (with_reducible assumption) | (with_reducible exact fun _ => rfl) | (with_reducible exact fun x => False.elim x) | (with_reducible apply State.abftEvent_keep) | (with_reducible apply State.engineErr_keep) | (with_reducible apply State.setCore_keep) | (with_reducible apply State.putAll_keep) | (with_reducible apply State.logOverflow_keep) | (with_reducible apply foldl_keep) | (with_reducible apply foldl_keep_fst) | split | (intro _) | (dsimp only [id]) | (with_reducible apply Keep.upd; first | (with_reducible assumption) | (with_reducible exact fun _ => rfl) | (with_reducible exact fun x => False.elim x) | (with_reducible apply State.abftEvent_keep) | (with_reducible apply State.engineErr_keep) | (with_reducible apply State.setCore_keep) | (with_reducible apply State.putAll_keep) | (with_reducible apply State.logOverflow_keep) | (with_reducible apply foldl_keep) | (with_reducible apply foldl_keep_fst) | split | (dsimp only [id])))

theorem State.setSlot_keep {T U : Prop} {r : State} {x0} {x1} {x2} (h : Keep T U r x0) : Keep T U r (@State.setSlot x0 x1 x2) := by
  unfold State.setSlot
  (try dsimp only)
  repeat' (first | (with_reducible assumption) | (with_reducible exact fun _ => rfl) | (with_reducible exact fun x => False.elim x) | (with_reducible apply foldl_keep) | (with_reducible apply foldl_keep_fst) | split | (intro _) | (dsimp only [id]) | (with_reducible apply Keep.upd; first | (with_reducible assumption) | (with_reducible exact fun _ => rfl) | (with_reducible exact fun x => False.elim x) | (with_reducible apply foldl_keep) | (with_reducible apply foldl_keep_fst) | split | (dsimp only [id])))

theorem State.modSession_keep {T U : Prop} {r : State} {x0} {x1} {x2} (h : Keep T U r x0) : Keep T U r (@State.modSession x0 x1 x2) := by
  unfold State.modSession
  (try dsimp only)
  repeat' (first | (with_reducible assumption) | (with_reducible exact fun _ => rfl) | (with_reducible exact fun x => False.elim x) | (with_reducible apply State.setSlot_keep) | (with_reducible apply foldl_keep) | (with_reducible apply foldl_keep_fst) | split | (intro _) | (dsimp only [id]) | (with_reducible apply Keep.upd; first | (with_reducible assumption) | (with_reducible exact fun _ => rfl) | (with_reducible exact fun x => False.elim x) | (with_reducible apply State.setSlot_keep) | (with_reducible apply foldl_keep) | (with_reducible apply foldl_keep_fst) | split | (dsimp only [id])))

theorem State.send_keep {T U : Prop} {r : State} {x0} {x1} {x2} {x3} {x4} (h : Keep T U r x0) : Keep T U r (@State.send x0 x1 x2 x3 x4) := by
  unfold State.send
  (try dsimp only)
  repeat' (first | (with_reducible assumption) | (with_reducible exact fun _ => rfl) | (with_reducible exact fun x => False.elim x) | (with_reducible apply foldl_keep) | (with_reducible apply foldl_keep_fst) | split | (intro _) | (dsimp only [id]) | (with_reducible apply Keep.upd; first | (with_reducible assumption) | (with_reducible exact fun _ => rfl) | (with_reducible exact fun x => False.elim x) | (with_reducible apply foldl_keep) | (with_reducible apply foldl_keep_fst) | split | (dsimp only [id])))

theorem State.sendTo_keep {T U : Prop} {r : State} {x0} {x1} {x2} (h : Keep T U r x0) : Keep T U r (@State.sendTo x0 x1 x2) := by
  unfold State.sendTo
  (try dsimp only)
  repeat' (first | (with_reducible assumption) | (with_reducible exact fun _ => rfl) | (with_reducible exact fun x => False.elim x) | (with_reducible apply State.send_keep) | (with_reducible apply foldl_keep) | (with_reducible apply foldl_keep_fst) | split | (intro _) | (dsimp only [id]) | (with_reducible apply Keep.upd; first | (with_reducible assumption) | (with_reducible exact fun _ => rfl) | (with_reducible exact fun x => False.elim x) | (with_reducible apply State.send_keep) | (with_reducible apply foldl_keep) | (with_reducible apply foldl_keep_fst) | split | (dsimp only [id])))

theorem State.respond_keep {T U : Prop} {r : State} {x0} {x1} {x2} {x3} {x4} (h : Keep T U r x0) : Keep T U r (@State.respond x0 x1 x2 x3 x4) := by
  unfold State.respond
  (try dsimp only)
  repeat' (first | (with_reducible assumption) | (with_reducible exact fun _ => rfl) | (with_reducible exact fun x => False.elim x) | (with_reducible apply State.sendTo_keep) | (with_reducible apply State.setSlot_keep) | (with_reducible apply foldl_keep) | (with_reducible apply foldl_keep_fst) | split | (intro _) | (dsimp only [id]) | (with_reducible apply Keep.upd; first | (with_reducible assumption) | (with_reducible exact fun _ => rfl) | (with_reducible exact fun x => False.elim x) | (with_reducible apply State.sendTo_keep) | (with_reducible apply State.setSlot_keep) | (with_reducible apply foldl_keep) | (with_reducible apply foldl_keep_fst) | split | (dsimp only [id])))

theorem State.respondTo_keep {T U : Prop} {r : State} {x0} {x1} {x2} {x3} {x4} (h : Keep T U r x0) : Keep T U r (@State.respondTo x0 x1 x2 x3 x4) := by
  unfold State.respondTo
  (try dsimp only)
  repeat' (first | (with_reducible assumption) | (with_reducible exact fun _ => rfl) | (with_reducible exact fun x => False.elim x) | (with_reducible apply State.respond_keep) | (with_reducible apply foldl_keep) | (with_reducible apply foldl_keep_fst) | split | (intro _) | (dsimp only [id]) | (with_reducible apply Keep.upd; first | (with_reducible assumption) | (with_reducible exact fun _ => rfl) | (with_reducible exact fun x => False.elim x) | (with_reducible apply State.respond_keep) | (with_reducible apply foldl_keep) | (with_reducible apply foldl_keep_fst) | split | (dsimp only [id])))

theorem State.takePass_keep {T U : Prop} {r : State} {x0} {x1} {x2} {x3} {x4} {x5} (h : Keep T U r x0) : ∀ u, @State.takePass x0 x1 x2 x3 x4 x5 = .ok u → Keep T U r u := by
  unfold State.takePass
  (try dsimp only)
  repeat' (first | (intro u hu) | (cases hu) | (split at hu) | (with_reducible assumption) | (with_reducible exact fun _ => rfl) | (with_reducible exact fun x => False.elim x) | (with_reducible apply State.modHm_keep) | (with_reducible apply foldl_keep) | (with_reducible apply foldl_keep_fst) | split | (intro _) | (dsimp only [id]) | (with_reducible apply Keep.upd; first | (intro u hu) | (cases hu) | (split at hu) | (with_reducible assumption) | (with_reducible exact fun _ => rfl) | (with_reducible exact fun x => False.elim x) | (with_reducible apply State.modHm_keep) | (with_reducible apply foldl_keep) | (with_reducible apply foldl_keep_fst) | split | (dsimp only [id])))

theorem State.takePasses_keep {T U : Prop} {r : State} {x0} {x1} {x2} {x3} (h : Keep T U r x0) : ∀ u, @State.takePasses x0 x1 x2 x3 = .ok u → Keep T U r u := by
  unfold State.takePasses
  suffices H : ∀ (l : List Nat) (e : Except (Nat × BitVec 64 × BitVec 4) State), (∀ u, e = .ok u → Keep T U r u) →
      ∀ u, l.foldl (fun a f => match a with | .ok t => (t.takePass f x2 x3).mapError (fun e => (f, e)) | .error e => .error e) e = .ok u → Keep T U r u from
    H x1 _ (fun u hu => by cases hu; exact h)
  intro l
  induction l with
  | nil => intro e he u hu; exact he u hu
  | cons f l ih =>
    intro e he u hu
    refine ih _ ?_ u hu
    intro v hv
    dsimp only at hv
    split at hv
    · rename_i t
      cases ht : t.takePass f x2 x3 with
      | error e => rw [ht] at hv; cases hv
      | ok t' => rw [ht] at hv; cases hv; exact State.takePass_keep (he _ rfl) _ ht
    · cases hv

theorem State.bigPass_keep {T U : Prop} {r : State} {x0} {x1} {x2} {x3} {x4} (h : Keep T U r x0) : Keep T U r (@State.bigPass x0 x1 x2 x3 x4) := by
  unfold State.bigPass
  (try dsimp only)
  repeat' (first | (with_reducible assumption) | (with_reducible exact fun _ => rfl) | (with_reducible exact fun x => False.elim x) | (with_reducible apply State.modHm_keep) | (with_reducible apply foldl_keep) | (with_reducible apply foldl_keep_fst) | split | (intro _) | (dsimp only [id]) | (with_reducible apply Keep.upd; first | (with_reducible assumption) | (with_reducible exact fun _ => rfl) | (with_reducible exact fun x => False.elim x) | (with_reducible apply State.modHm_keep) | (with_reducible apply foldl_keep) | (with_reducible apply foldl_keep_fst) | split | (dsimp only [id])))

theorem State.endBigPass_keep {T U : Prop} {r : State} {x0} {x1} {x2} (h : Keep T U r x0) : Keep T U r (@State.endBigPass x0 x1 x2) := by
  unfold State.endBigPass
  (try dsimp only)
  repeat' (first | (with_reducible assumption) | (with_reducible exact fun _ => rfl) | (with_reducible exact fun x => False.elim x) | (with_reducible apply State.modHm_keep) | (with_reducible apply foldl_keep) | (with_reducible apply foldl_keep_fst) | split | (intro _) | (dsimp only [id]) | (with_reducible apply Keep.upd; first | (with_reducible assumption) | (with_reducible exact fun _ => rfl) | (with_reducible exact fun x => False.elim x) | (with_reducible apply State.modHm_keep) | (with_reducible apply foldl_keep) | (with_reducible apply foldl_keep_fst) | split | (dsimp only [id])))

theorem State.noteBusy_keep {T U : Prop} {r : State} {x0} {x1} {x2} (h : Keep T U r x0) : Keep T U r (@State.noteBusy x0 x1 x2) := by
  unfold State.noteBusy
  (try dsimp only)
  repeat' (first | (with_reducible assumption) | (with_reducible exact fun _ => rfl) | (with_reducible exact fun x => False.elim x) | (with_reducible apply State.modHm_keep) | (with_reducible apply foldl_keep) | (with_reducible apply foldl_keep_fst) | split | (intro _) | (dsimp only [id]) | (with_reducible apply Keep.upd; first | (with_reducible assumption) | (with_reducible exact fun _ => rfl) | (with_reducible exact fun x => False.elim x) | (with_reducible apply State.modHm_keep) | (with_reducible apply foldl_keep) | (with_reducible apply foldl_keep_fst) | split | (dsimp only [id])))

theorem State.libErr_keep {T U : Prop} {r : State} {x0} {x1} {x2} (h : Keep T U r x0) : Keep T U r (@State.libErr x0 x1 x2) := by
  unfold State.libErr
  (try dsimp only)
  repeat' (first | (with_reducible assumption) | (with_reducible exact fun _ => rfl) | (with_reducible exact fun x => False.elim x) | (with_reducible apply State.vlog_keep) | (with_reducible apply State.noteErr_keep) | (with_reducible apply foldl_keep) | (with_reducible apply foldl_keep_fst) | split | (intro _) | (dsimp only [id]) | (with_reducible apply Keep.upd; first | (with_reducible assumption) | (with_reducible exact fun _ => rfl) | (with_reducible exact fun x => False.elim x) | (with_reducible apply State.vlog_keep) | (with_reducible apply State.noteErr_keep) | (with_reducible apply foldl_keep) | (with_reducible apply foldl_keep_fst) | split | (dsimp only [id])))

theorem State.libRead_keep {T U : Prop} {r : State} {x0} {x1} {x2} {x3} (h : Keep T U r x0) : Keep T U r (@State.libRead x0 x1 x2 x3).1 := by
  unfold State.libRead
  (try dsimp only)
  repeat' (first | (with_reducible assumption) | (with_reducible exact fun _ => rfl) | (with_reducible exact fun x => False.elim x) | (with_reducible apply State.noteCorrected_keep) | (with_reducible apply State.libErr_keep) | (with_reducible apply foldl_keep) | (with_reducible apply foldl_keep_fst) | split | (intro _) | (dsimp only [id]) | (with_reducible apply Keep.upd; first | (with_reducible assumption) | (with_reducible exact fun _ => rfl) | (with_reducible exact fun x => False.elim x) | (with_reducible apply State.noteCorrected_keep) | (with_reducible apply State.libErr_keep) | (with_reducible apply foldl_keep) | (with_reducible apply foldl_keep_fst) | split | (dsimp only [id])))

theorem State.libLand_keep {T U : Prop} {r : State} {x0} {x1} {x2} {x3} (h : Keep T U r x0) : Keep T U r (@State.libLand x0 x1 x2 x3) := by
  unfold State.libLand
  (try dsimp only)
  repeat' (first | (with_reducible assumption) | (with_reducible exact fun _ => rfl) | (with_reducible exact fun x => False.elim x) | (refine Keep.of_ok (by assumption) ?_; with_reducible apply State.writeRange_keep) | (with_reducible apply State.libErr_keep) | (with_reducible apply foldl_keep) | (with_reducible apply foldl_keep_fst) | split | (intro _) | (dsimp only [id]) | (with_reducible apply Keep.upd; first | (with_reducible assumption) | (with_reducible exact fun _ => rfl) | (with_reducible exact fun x => False.elim x) | (refine Keep.of_ok (by assumption) ?_; with_reducible apply State.writeRange_keep) | (with_reducible apply State.libErr_keep) | (with_reducible apply foldl_keep) | (with_reducible apply foldl_keep_fst) | split | (dsimp only [id])))

theorem State.libWrite_keep {T U : Prop} {r : State} {x0} {x1} {x2} {x3} (h : Keep T U r x0) : Keep T U r (@State.libWrite x0 x1 x2 x3) := by
  unfold State.libWrite
  (try dsimp only)
  repeat' (first | (with_reducible assumption) | (with_reducible exact fun _ => rfl) | (with_reducible exact fun x => False.elim x) | (with_reducible apply State.libLand_keep) | (with_reducible apply foldl_keep) | (with_reducible apply foldl_keep_fst) | split | (intro _) | (dsimp only [id]) | (with_reducible apply Keep.upd; first | (with_reducible assumption) | (with_reducible exact fun _ => rfl) | (with_reducible exact fun x => False.elim x) | (with_reducible apply State.libLand_keep) | (with_reducible apply foldl_keep) | (with_reducible apply foldl_keep_fst) | split | (dsimp only [id])))

theorem State.modLbs_keep {T U : Prop} {r : State} {x0} {x1} {x2} (h : Keep T U r x0) : Keep T U r (@State.modLbs x0 x1 x2) := by
  unfold State.modLbs
  (try dsimp only)
  repeat' (first | (with_reducible assumption) | (with_reducible exact fun _ => rfl) | (with_reducible exact fun x => False.elim x) | (with_reducible apply eachOf_keep) | (with_reducible apply State.modLb_keep) | (with_reducible apply foldl_keep) | (with_reducible apply foldl_keep_fst) | split | (intro _) | (dsimp only [id]) | (with_reducible apply Keep.upd; first | (with_reducible assumption) | (with_reducible exact fun _ => rfl) | (with_reducible exact fun x => False.elim x) | (with_reducible apply eachOf_keep) | (with_reducible apply State.modLb_keep) | (with_reducible apply foldl_keep) | (with_reducible apply foldl_keep_fst) | split | (dsimp only [id])))

theorem Seat.queueBulk_bell (k : Seat) (f : Nat) (kind : BulkKind) (off : Nat) (data : List Byte) (b n : Nat) : (k.queueBulk f kind off data b n).clockOf = k.clockOf := by
  unfold Seat.queueBulk; split <;> rfl

theorem Seat.queueBulk_walk (k : Seat) (f : Nat) (kind : BulkKind) (off : Nat) (data : List Byte) (b n : Nat) : (k.queueBulk f kind off data b n).walkOf = k.walkOf := by
  unfold Seat.queueBulk; split <;> rfl

/-- Queueing blocks one by one leaves the place of the seat's walk and its bell as they were. -/
theorem Seat.queueAll_keeps {α : Type} (l : List α) (g : Seat → α → Seat) (k : Seat)
    (hg : ∀ k x, (g k x).clockOf = k.clockOf ∧ (g k x).walkOf = k.walkOf) :
    (l.foldl g k).clockOf = k.clockOf ∧ (l.foldl g k).walkOf = k.walkOf := by
  induction l generalizing k with
  | nil => exact ⟨rfl, rfl⟩
  | cons x l ih => exact ⟨(ih _).1.trans (hg k x).1, (ih _).2.trans (hg k x).2⟩

theorem State.forward_keep {T U : Prop} {r : State} {x0} {x1} {x2} {x3} {x4} {x5} (h : Keep T U r x0) : Keep T U r (@State.forward x0 x1 x2 x3 x4 x5) := by
  unfold State.forward
  apply foldl_keep _ _ _ h
  intro t x ht
  split
  · exact State.modSeat_keep (Keep.of_pair (by assumption) (State.libRead_keep ht)) (fun _ => Seat.queueBulk_bell ..) (fun _ => Seat.queueBulk_walk ..)
  · exact Keep.of_pair (by assumption) (State.libRead_keep ht)

theorem State.tell_keep {T U : Prop} {r : State} {x0} {x1} {x2} (h : Keep T U r x0) : Keep T U r (@State.tell x0 x1 x2) := by
  unfold State.tell
  have q (k : Seat) := Seat.queueAll_keeps (List.range ((padTo 256 x2.bytes).length / 256)) (fun k i =>
    k.queueBulk x1 .crossCheck i (((padTo 256 x2.bytes).drop (256 * i)).take 256)) k (fun k _ => ⟨Seat.queueBulk_bell .., Seat.queueBulk_walk ..⟩)
  exact State.modSeat_keep h (fun _ => (q _).1) (fun _ => (q _).2)

theorem State.sendUnit_keep {T U : Prop} {r : State} {x0} {x1} {x2} {x3} {x4} (h : Keep T U r x0) : Keep T U r (@State.sendUnit x0 x1 x2 x3 x4) := by
  unfold State.sendUnit
  (try dsimp only)
  repeat' (first | (with_reducible assumption) | (with_reducible exact fun _ => rfl) | (with_reducible exact fun x => False.elim x) | (with_reducible apply State.libRead_keep) | (with_reducible apply State.tell_keep) | (with_reducible apply State.forward_keep) | (with_reducible apply foldl_keep) | (with_reducible apply foldl_keep_fst) | (refine Keep.of_pair (by assumption) ?_) | split | (intro _) | (dsimp only [id]) | (with_reducible apply Keep.upd; first | (with_reducible assumption) | (with_reducible exact fun _ => rfl) | (with_reducible exact fun x => False.elim x) | (with_reducible apply State.libRead_keep) | (with_reducible apply State.tell_keep) | (with_reducible apply State.forward_keep) | (with_reducible apply foldl_keep) | (with_reducible apply foldl_keep_fst) | (refine Keep.of_pair (by assumption) ?_) | split | (dsimp only [id])))

theorem State.ckEnd_keep {T U : Prop} {r : State} {x0} {x1} {x2} {x3} (h : Keep T U r x0) : Keep T U r (@State.ckEnd x0 x1 x2 x3) := by
  unfold State.ckEnd
  (try dsimp only)
  repeat' (first | (with_reducible assumption) | (with_reducible exact fun _ => rfl) | (with_reducible exact fun x => False.elim x) | (with_reducible apply eachOf_keep) | (with_reducible apply State.bump_keep) | (with_reducible apply State.endBigPass_keep) | (with_reducible apply State.modLink_keep) | (with_reducible apply State.modCk_keep) | (with_reducible apply State.respond_keep) | (with_reducible apply foldl_keep) | (with_reducible apply foldl_keep_fst) | split | (intro _) | (dsimp only [id]) | (with_reducible apply Keep.upd; first | (with_reducible assumption) | (with_reducible exact fun _ => rfl) | (with_reducible exact fun x => False.elim x) | (with_reducible apply eachOf_keep) | (with_reducible apply State.bump_keep) | (with_reducible apply State.endBigPass_keep) | (with_reducible apply State.modLink_keep) | (with_reducible apply State.modCk_keep) | (with_reducible apply State.respond_keep) | (with_reducible apply foldl_keep) | (with_reducible apply foldl_keep_fst) | split | (dsimp only [id])))

theorem State.ckAnswer_keep {T U : Prop} {r : State} {x0} {x1} {x2} {x3} (h : Keep T U r x0) : Keep T U r (@State.ckAnswer x0 x1 x2 x3) := by
  unfold State.ckAnswer
  (try dsimp only)
  repeat' (first | (with_reducible assumption) | (with_reducible exact fun _ => rfl) | (with_reducible exact fun x => False.elim x) | (with_reducible apply State.modCk_keep) | (with_reducible apply State.respond_keep) | (with_reducible apply foldl_keep) | (with_reducible apply foldl_keep_fst) | split | (intro _) | (dsimp only [id]) | (with_reducible apply Keep.upd; first | (with_reducible assumption) | (with_reducible exact fun _ => rfl) | (with_reducible exact fun x => False.elim x) | (with_reducible apply State.modCk_keep) | (with_reducible apply State.respond_keep) | (with_reducible apply foldl_keep) | (with_reducible apply foldl_keep_fst) | split | (dsimp only [id])))

theorem State.ckNote_keep {T U : Prop} {r : State} {x0} {x1} {x2} {x3} (h : Keep T U r x0) : Keep T U r (@State.ckNote x0 x1 x2 x3) := by
  unfold State.ckNote
  (try dsimp only)
  repeat' (first | (with_reducible assumption) | (with_reducible exact fun _ => rfl) | (with_reducible exact fun x => False.elim x) | (with_reducible apply State.ckAnswer_keep) | (with_reducible apply eachOf_keep) | (with_reducible apply State.bump_keep) | (with_reducible apply foldl_keep) | (with_reducible apply foldl_keep_fst) | split | (intro _) | (dsimp only [id]) | (with_reducible apply Keep.upd; first | (with_reducible assumption) | (with_reducible exact fun _ => rfl) | (with_reducible exact fun x => False.elim x) | (with_reducible apply State.ckAnswer_keep) | (with_reducible apply eachOf_keep) | (with_reducible apply State.bump_keep) | (with_reducible apply foldl_keep) | (with_reducible apply foldl_keep_fst) | split | (dsimp only [id])))

theorem State.noteOpErr_keep {T U : Prop} {r : State} {x0} {x1} {x2} {x3} (h : Keep T U r x0) : Keep T U r (@State.noteOpErr x0 x1 x2 x3) := by
  unfold State.noteOpErr
  (try dsimp only)
  repeat' (first | (with_reducible assumption) | (with_reducible exact fun _ => rfl) | (with_reducible exact fun x => False.elim x) | (with_reducible apply State.modCk_keep) | (with_reducible apply foldl_keep) | (with_reducible apply foldl_keep_fst) | split | (intro _) | (dsimp only [id]) | (with_reducible apply Keep.upd; first | (with_reducible assumption) | (with_reducible exact fun _ => rfl) | (with_reducible exact fun x => False.elim x) | (with_reducible apply State.modCk_keep) | (with_reducible apply foldl_keep) | (with_reducible apply foldl_keep_fst) | split | (dsimp only [id])))

theorem State.stageOp_keep {T U : Prop} {r : State} {x0} {x1} {x2} (h : Keep T U r x0) : Keep T U r (@State.stageOp x0 x1 x2) := by
  unfold State.stageOp
  (try dsimp only)
  repeat' (first | (with_reducible assumption) | (with_reducible exact fun _ => rfl) | (with_reducible exact fun x => False.elim x) | (with_reducible apply State.libWrite_keep) | (with_reducible apply foldl_keep) | (with_reducible apply foldl_keep_fst) | split | (intro _) | (dsimp only [id]) | (with_reducible apply Keep.upd; first | (with_reducible assumption) | (with_reducible exact fun _ => rfl) | (with_reducible exact fun x => False.elim x) | (with_reducible apply State.libWrite_keep) | (with_reducible apply foldl_keep) | (with_reducible apply foldl_keep_fst) | split | (dsimp only [id])))

theorem State.openOp_keep {T U : Prop} {r : State} {x0} {x1} {x2} (h : Keep T U r x0) : Keep T U r (@State.openOp x0 x1 x2) := by
  unfold State.openOp
  (try dsimp only)
  repeat' (first | (with_reducible assumption) | (with_reducible exact fun _ => rfl) | (with_reducible exact fun x => False.elim x) | (with_reducible apply State.stageOp_keep) | (with_reducible apply State.modLink_keep) | (with_reducible apply State.ckEnd_keep) | (with_reducible apply State.noteOpErr_keep) | (with_reducible apply foldl_keep) | (with_reducible apply foldl_keep_fst) | split | (intro _) | (dsimp only [id]) | (with_reducible apply Keep.upd; first | (with_reducible assumption) | (with_reducible exact fun _ => rfl) | (with_reducible exact fun x => False.elim x) | (with_reducible apply State.stageOp_keep) | (with_reducible apply State.modLink_keep) | (with_reducible apply State.ckEnd_keep) | (with_reducible apply State.noteOpErr_keep) | (with_reducible apply foldl_keep) | (with_reducible apply foldl_keep_fst) | split | (dsimp only [id])))

theorem State.opFail_keep {T U : Prop} {r : State} {x0} {x1} {x2} {x3} (h : Keep T U r x0) : Keep T U r (@State.opFail x0 x1 x2 x3) := by
  unfold State.opFail
  (try dsimp only)
  repeat' (first | (with_reducible assumption) | (with_reducible exact fun _ => rfl) | (with_reducible exact fun x => False.elim x) | (with_reducible apply State.noteOpErr_keep) | (with_reducible apply State.openOp_keep) | (with_reducible apply State.ckEnd_keep) | (with_reducible apply foldl_keep) | (with_reducible apply foldl_keep_fst) | split | (intro _) | (dsimp only [id]) | (with_reducible apply Keep.upd; first | (with_reducible assumption) | (with_reducible exact fun _ => rfl) | (with_reducible exact fun x => False.elim x) | (with_reducible apply State.noteOpErr_keep) | (with_reducible apply State.openOp_keep) | (with_reducible apply State.ckEnd_keep) | (with_reducible apply foldl_keep) | (with_reducible apply foldl_keep_fst) | split | (dsimp only [id])))

theorem State.issueSeal_keep {T U : Prop} {r : State} {x0} {x1} {x2} (h : Keep T U r x0) : Keep T U r (@State.issueSeal x0 x1 x2) := by
  unfold State.issueSeal
  (try dsimp only)
  repeat' (first | (with_reducible assumption) | (with_reducible exact fun _ => rfl) | (with_reducible exact fun x => False.elim x) | (with_reducible apply State.openOp_keep) | (with_reducible apply foldl_keep) | (with_reducible apply foldl_keep_fst) | split | (intro _) | (dsimp only [id]) | (with_reducible apply Keep.upd; first | (with_reducible assumption) | (with_reducible exact fun _ => rfl) | (with_reducible exact fun x => False.elim x) | (with_reducible apply State.openOp_keep) | (with_reducible apply foldl_keep) | (with_reducible apply foldl_keep_fst) | split | (dsimp only [id])))

theorem State.ckOpen_keep {T U : Prop} {r : State} {x0} {x1} (h : Keep T U r x0) : Keep T U r (@State.ckOpen x0 x1) := by
  unfold State.ckOpen
  (try dsimp only)
  repeat' (first | (with_reducible assumption) | (with_reducible exact fun _ => rfl) | (with_reducible exact fun x => False.elim x) | (with_reducible apply State.modCk_keep) | (with_reducible apply State.issueSeal_keep) | (with_reducible apply foldl_keep) | (with_reducible apply foldl_keep_fst) | split | (intro _) | (dsimp only [id]) | (with_reducible apply Keep.upd; first | (with_reducible assumption) | (with_reducible exact fun _ => rfl) | (with_reducible exact fun x => False.elim x) | (with_reducible apply State.modCk_keep) | (with_reducible apply State.issueSeal_keep) | (with_reducible apply foldl_keep) | (with_reducible apply foldl_keep_fst) | split | (dsimp only [id])))

theorem State.issueScan_keep {T U : Prop} {r : State} {x0} {x1} (h : Keep T U r x0) : Keep T U r (@State.issueScan x0 x1) := by
  unfold State.issueScan
  (try dsimp only)
  repeat' (first | (with_reducible assumption) | (with_reducible exact fun _ => rfl) | (with_reducible exact fun x => False.elim x) | (with_reducible apply State.openOp_keep) | (with_reducible apply State.modCk_keep) | (with_reducible apply foldl_keep) | (with_reducible apply foldl_keep_fst) | split | (intro _) | (dsimp only [id]) | (with_reducible apply Keep.upd; first | (with_reducible assumption) | (with_reducible exact fun _ => rfl) | (with_reducible exact fun x => False.elim x) | (with_reducible apply State.openOp_keep) | (with_reducible apply State.modCk_keep) | (with_reducible apply foldl_keep) | (with_reducible apply foldl_keep_fst) | split | (dsimp only [id])))

theorem State.ckGo_keep {T U : Prop} {r : State} {x0} {x1} (h : Keep T U r x0) : Keep T U r (@State.ckGo x0 x1) := by
  unfold State.ckGo
  (try dsimp only)
  repeat' (first | (with_reducible assumption) | (with_reducible exact fun _ => rfl) | (with_reducible exact fun x => False.elim x) | (with_reducible apply State.ckOpen_keep) | (with_reducible apply State.issueScan_keep) | (with_reducible apply foldl_keep) | (with_reducible apply foldl_keep_fst) | split | (intro _) | (dsimp only [id]) | (with_reducible apply Keep.upd; first | (with_reducible assumption) | (with_reducible exact fun _ => rfl) | (with_reducible exact fun x => False.elim x) | (with_reducible apply State.ckOpen_keep) | (with_reducible apply State.issueScan_keep) | (with_reducible apply foldl_keep) | (with_reducible apply foldl_keep_fst) | split | (dsimp only [id])))

theorem State.ckTotals_keep {T U : Prop} {r : State} {x0} {x1} (h : Keep T U r x0) : Keep T U r (@State.ckTotals x0 x1) := by
  unfold State.ckTotals
  (try dsimp only)
  repeat' (first | (with_reducible assumption) | (with_reducible exact fun _ => rfl) | (with_reducible exact fun x => False.elim x) | (with_reducible apply State.modCk_keep) | (with_reducible apply foldl_keep) | (with_reducible apply foldl_keep_fst) | split | (intro _) | (dsimp only [id]) | (with_reducible apply Keep.upd; first | (with_reducible assumption) | (with_reducible exact fun _ => rfl) | (with_reducible exact fun x => False.elim x) | (with_reducible apply State.modCk_keep) | (with_reducible apply foldl_keep) | (with_reducible apply foldl_keep_fst) | split | (dsimp only [id])))

theorem State.readChunk_keep {T U : Prop} {r : State} {x0} {x1} {x2} {x3} (h : Keep T U r x0) : Keep T U r (@State.readChunk x0 x1 x2 x3) := by
  unfold State.readChunk
  (try dsimp only)
  repeat' (first | (with_reducible assumption) | (with_reducible exact fun _ => rfl) | (with_reducible exact fun x => False.elim x) | (with_reducible apply State.openOp_keep) | (with_reducible apply foldl_keep) | (with_reducible apply foldl_keep_fst) | split | (intro _) | (dsimp only [id]) | (with_reducible apply Keep.upd; first | (with_reducible assumption) | (with_reducible exact fun _ => rfl) | (with_reducible exact fun x => False.elim x) | (with_reducible apply State.openOp_keep) | (with_reducible apply foldl_keep) | (with_reducible apply foldl_keep_fst) | split | (dsimp only [id])))

theorem State.writeChunk_keep {T U : Prop} {r : State} {x0} {x1} {x2} {x3} (h : Keep T U r x0) : Keep T U r (@State.writeChunk x0 x1 x2 x3) := by
  unfold State.writeChunk
  (try dsimp only)
  repeat' (first | (with_reducible assumption) | (with_reducible exact fun _ => rfl) | (with_reducible exact fun x => False.elim x) | (with_reducible apply State.ckEnd_keep) | (with_reducible apply State.libErr_keep) | (with_reducible apply State.modCk_keep) | (with_reducible apply State.noteCorrected_keep) | (with_reducible apply State.openOp_keep) | (with_reducible apply foldl_keep) | (with_reducible apply foldl_keep_fst) | split | (intro _) | (dsimp only [id]) | (with_reducible apply Keep.upd; first | (with_reducible assumption) | (with_reducible exact fun _ => rfl) | (with_reducible exact fun x => False.elim x) | (with_reducible apply State.ckEnd_keep) | (with_reducible apply State.libErr_keep) | (with_reducible apply State.modCk_keep) | (with_reducible apply State.noteCorrected_keep) | (with_reducible apply State.openOp_keep) | (with_reducible apply foldl_keep) | (with_reducible apply foldl_keep_fst) | split | (dsimp only [id])))

theorem State.noteTable_keep {T U : Prop} {r : State} {x0} {x1} (h : Keep T U r x0) : Keep T U r (@State.noteTable x0 x1) := by
  unfold State.noteTable
  (try dsimp only)
  repeat' (first | (with_reducible assumption) | (with_reducible exact fun _ => rfl) | (with_reducible exact fun x => False.elim x) | (with_reducible apply State.modCk_keep) | (with_reducible apply foldl_keep) | (with_reducible apply foldl_keep_fst) | split | (intro _) | (dsimp only [id]) | (with_reducible apply Keep.upd; first | (with_reducible assumption) | (with_reducible exact fun _ => rfl) | (with_reducible exact fun x => False.elim x) | (with_reducible apply State.modCk_keep) | (with_reducible apply foldl_keep) | (with_reducible apply foldl_keep_fst) | split | (dsimp only [id])))

theorem State.nextChunk_keep {T U : Prop} {r : State} {x0} {x1} {x2} {x3} (h : Keep T U r x0) : Keep T U r (@State.nextChunk x0 x1 x2 x3) := by
  unfold State.nextChunk
  (try dsimp only)
  repeat' (first | (with_reducible assumption) | (with_reducible exact fun _ => rfl) | (with_reducible exact fun x => False.elim x) | (with_reducible apply State.modCk_keep) | (with_reducible apply State.readChunk_keep) | (with_reducible apply State.writeChunk_keep) | (with_reducible apply State.noteTable_keep) | (with_reducible apply foldl_keep) | (with_reducible apply foldl_keep_fst) | split | (intro _) | (dsimp only [id]) | (with_reducible apply Keep.upd; first | (with_reducible assumption) | (with_reducible exact fun _ => rfl) | (with_reducible exact fun x => False.elim x) | (with_reducible apply State.modCk_keep) | (with_reducible apply State.readChunk_keep) | (with_reducible apply State.writeChunk_keep) | (with_reducible apply State.noteTable_keep) | (with_reducible apply foldl_keep) | (with_reducible apply foldl_keep_fst) | split | (dsimp only [id])))

theorem State.ckHeader_keep {T U : Prop} {r : State} {x0} {x1} (h : Keep T U r x0) : Keep T U r (@State.ckHeader x0 x1) := by
  unfold State.ckHeader
  (try dsimp only)
  repeat' (first | (with_reducible assumption) | (with_reducible exact fun _ => rfl) | (with_reducible exact fun x => False.elim x) | (with_reducible apply State.openOp_keep) | (with_reducible apply State.modCk_keep) | (with_reducible apply foldl_keep) | (with_reducible apply foldl_keep_fst) | split | (intro _) | (dsimp only [id]) | (with_reducible apply Keep.upd; first | (with_reducible assumption) | (with_reducible exact fun _ => rfl) | (with_reducible exact fun x => False.elim x) | (with_reducible apply State.openOp_keep) | (with_reducible apply State.modCk_keep) | (with_reducible apply foldl_keep) | (with_reducible apply foldl_keep_fst) | split | (dsimp only [id])))

theorem State.ckSummary_keep {T U : Prop} {r : State} {x0} {x1} (h : Keep T U r x0) : Keep T U r (@State.ckSummary x0 x1) := by
  unfold State.ckSummary
  (try dsimp only)
  repeat' (first | (with_reducible assumption) | (with_reducible exact fun _ => rfl) | (with_reducible exact fun x => False.elim x) | (with_reducible apply State.ckHeader_keep) | (with_reducible apply State.ckEnd_keep) | (with_reducible apply State.noteTable_keep) | (with_reducible apply State.writeChunk_keep) | (with_reducible apply State.modCk_keep) | (with_reducible apply foldl_keep) | (with_reducible apply foldl_keep_fst) | split | (intro _) | (dsimp only [id]) | (with_reducible apply Keep.upd; first | (with_reducible assumption) | (with_reducible exact fun _ => rfl) | (with_reducible exact fun x => False.elim x) | (with_reducible apply State.ckHeader_keep) | (with_reducible apply State.ckEnd_keep) | (with_reducible apply State.noteTable_keep) | (with_reducible apply State.writeChunk_keep) | (with_reducible apply State.modCk_keep) | (with_reducible apply foldl_keep) | (with_reducible apply foldl_keep_fst) | split | (dsimp only [id])))

theorem State.ckData_keep {T U : Prop} {r : State} {x0} {x1} (h : Keep T U r x0) : Keep T U r (@State.ckData x0 x1) := by
  unfold State.ckData
  (try dsimp only)
  repeat' (first | (with_reducible assumption) | (with_reducible exact fun _ => rfl) | (with_reducible exact fun x => False.elim x) | (with_reducible apply State.ckTotals_keep) | (with_reducible apply State.modCk_keep) | (with_reducible apply State.ckSummary_keep) | (with_reducible apply State.noteTable_keep) | (with_reducible apply eachOf_keep) | (with_reducible apply State.nextChunk_keep) | (with_reducible apply foldl_keep) | (with_reducible apply foldl_keep_fst) | split | (intro _) | (dsimp only [id]) | (with_reducible apply Keep.upd; first | (with_reducible assumption) | (with_reducible exact fun _ => rfl) | (with_reducible exact fun x => False.elim x) | (with_reducible apply State.ckTotals_keep) | (with_reducible apply State.modCk_keep) | (with_reducible apply State.ckSummary_keep) | (with_reducible apply State.noteTable_keep) | (with_reducible apply eachOf_keep) | (with_reducible apply State.nextChunk_keep) | (with_reducible apply foldl_keep) | (with_reducible apply foldl_keep_fst) | split | (dsimp only [id])))

theorem State.restoreGo_keep {T U : Prop} {r : State} {x0} {x1} (h : Keep T U r x0) : Keep T U r (@State.restoreGo x0 x1) := by
  unfold State.restoreGo
  (try dsimp only)
  repeat' (first | (with_reducible assumption) | (with_reducible exact fun _ => rfl) | (with_reducible exact fun x => False.elim x) | (with_reducible apply State.ckEnd_keep) | (with_reducible apply State.openOp_keep) | (with_reducible apply State.modCk_keep) | (with_reducible apply foldl_keep) | (with_reducible apply foldl_keep_fst) | split | (intro _) | (dsimp only [id]) | (with_reducible apply Keep.upd; first | (with_reducible assumption) | (with_reducible exact fun _ => rfl) | (with_reducible exact fun x => False.elim x) | (with_reducible apply State.ckEnd_keep) | (with_reducible apply State.openOp_keep) | (with_reducible apply State.modCk_keep) | (with_reducible apply foldl_keep) | (with_reducible apply foldl_keep_fst) | split | (dsimp only [id])))

theorem State.voidNext_keep {T U : Prop} {r : State} {x0} {x1} (h : Keep T U r x0) : Keep T U r (@State.voidNext x0 x1) := by
  unfold State.voidNext
  (try dsimp only)
  repeat' (first | (with_reducible assumption) | (with_reducible exact fun _ => rfl) | (with_reducible exact fun x => False.elim x) | (with_reducible apply State.issueSeal_keep) | (with_reducible apply State.modCk_keep) | (with_reducible apply State.ckEnd_keep) | (with_reducible apply foldl_keep) | (with_reducible apply foldl_keep_fst) | split | (intro _) | (dsimp only [id]) | (with_reducible apply Keep.upd; first | (with_reducible assumption) | (with_reducible exact fun _ => rfl) | (with_reducible exact fun x => False.elim x) | (with_reducible apply State.issueSeal_keep) | (with_reducible apply State.modCk_keep) | (with_reducible apply State.ckEnd_keep) | (with_reducible apply foldl_keep) | (with_reducible apply foldl_keep_fst) | split | (dsimp only [id])))

theorem State.emptyCubby_keep {T U : Prop} {r : State} {x0} {x1} (h : Keep T U r x0) : Keep T U r (@State.emptyCubby x0 x1) := by
  unfold State.emptyCubby
  (try dsimp only)
  repeat' (first | (with_reducible assumption) | (with_reducible exact fun _ => rfl) | (with_reducible exact fun x => False.elim x) | (with_reducible apply State.libWrite_keep) | (with_reducible apply State.modLb_keep) | (with_reducible apply foldl_keep) | (with_reducible apply foldl_keep_fst) | split | (intro _) | (dsimp only [id]) | (with_reducible apply Keep.upd; first | (with_reducible assumption) | (with_reducible exact fun _ => rfl) | (with_reducible exact fun x => False.elim x) | (with_reducible apply State.libWrite_keep) | (with_reducible apply State.modLb_keep) | (with_reducible apply foldl_keep) | (with_reducible apply foldl_keep_fst) | split | (dsimp only [id])))

theorem State.restored_keep {T U : Prop} {r : State} {x0} {x1} (h : Keep T U r x0) : Keep T U r (@State.restored x0 x1) := by
  unfold State.restored
  (try dsimp only)
  repeat' (first | (with_reducible assumption) | (with_reducible exact fun _ => rfl) | (with_reducible exact fun x => False.elim x) | (with_reducible apply State.modSeat_keep) | (with_reducible apply State.modLbs_keep) | (with_reducible apply State.voidNext_keep) | (with_reducible apply eachOf_keep) | (with_reducible apply State.emptyCubby_keep) | (with_reducible apply foldl_keep) | (with_reducible apply foldl_keep_fst) | split | (intro _) | (dsimp only [id]) | (with_reducible apply Keep.upd; first | (with_reducible assumption) | (with_reducible exact fun _ => rfl) | (with_reducible exact fun x => False.elim x) | (with_reducible apply State.modSeat_keep) | (with_reducible apply State.modLbs_keep) | (with_reducible apply State.voidNext_keep) | (with_reducible apply eachOf_keep) | (with_reducible apply State.emptyCubby_keep) | (with_reducible apply foldl_keep) | (with_reducible apply foldl_keep_fst) | split | (dsimp only [id])))
  all_goals rfl

theorem State.placePlain_keep {T U : Prop} {r : State} {x0} {x1} {x2} {x3} {x4} {x5} (h : Keep T U r x0) : Keep T U r (@State.placePlain x0 x1 x2 x3 x4 x5) := by
  unfold State.placePlain
  (try dsimp only)
  repeat' (first | (with_reducible assumption) | (with_reducible exact fun _ => rfl) | (with_reducible exact fun x => False.elim x) | (with_reducible apply State.libWrite_keep) | (with_reducible apply foldl_keep) | (with_reducible apply foldl_keep_fst) | split | (intro _) | (dsimp only [id]) | (with_reducible apply Keep.upd; first | (with_reducible assumption) | (with_reducible exact fun _ => rfl) | (with_reducible exact fun x => False.elim x) | (with_reducible apply State.libWrite_keep) | (with_reducible apply foldl_keep) | (with_reducible apply foldl_keep_fst) | split | (dsimp only [id])))

theorem State.libReads_keep {T U : Prop} {r : State} {x0} {x1} {x2} (h : Keep T U r x0) : Keep T U r (@State.libReads x0 x1 x2).1 := by
  unfold State.libReads
  (try dsimp only)
  repeat' (first | (with_reducible assumption) | (with_reducible exact fun _ => rfl) | (with_reducible exact fun x => False.elim x) | (with_reducible apply State.libRead_keep) | (with_reducible apply foldl_keep) | (with_reducible apply foldl_keep_fst) | (refine Keep.of_pair (by assumption) ?_) | split | (intro _) | (dsimp only [id]) | (with_reducible apply Keep.upd; first | (with_reducible assumption) | (with_reducible exact fun _ => rfl) | (with_reducible exact fun x => False.elim x) | (with_reducible apply State.libRead_keep) | (with_reducible apply foldl_keep) | (with_reducible apply foldl_keep_fst) | (refine Keep.of_pair (by assumption) ?_) | split | (dsimp only [id])))

theorem State.restoredCrcs_keep {T U : Prop} {r : State} {x0} {x1} {x2} (h : Keep T U r x0) : Keep T U r (@State.restoredCrcs x0 x1 x2).1 := by
  unfold State.restoredCrcs
  (try dsimp only)
  repeat' (first | (with_reducible assumption) | (with_reducible exact fun _ => rfl) | (with_reducible exact fun x => False.elim x) | (with_reducible apply State.libReads_keep) | (with_reducible apply foldl_keep) | (with_reducible apply foldl_keep_fst) | (refine Keep.of_pair (by assumption) ?_) | split | (intro _) | (dsimp only [id]) | (with_reducible apply Keep.upd; first | (with_reducible assumption) | (with_reducible exact fun _ => rfl) | (with_reducible exact fun x => False.elim x) | (with_reducible apply State.libReads_keep) | (with_reducible apply foldl_keep) | (with_reducible apply foldl_keep_fst) | (refine Keep.of_pair (by assumption) ?_) | split | (dsimp only [id])))

end Sys2Proof.Machine
end

