-- ==== Sys2Proof/Laws/Keep2.lean ====
section
/-! SUPPORT. What the model's operations keep (Keep: the queue and the canonical form), one lemma per operation, part 2. -/

set_option linter.unusedTactic false
set_option linter.unreachableTactic false

namespace Sys2Proof.Machine

theorem State.restoreEnd_keep {T U : Prop} {r : State} {x0} {x1} (h : Keep T U r x0) : Keep T U r (@State.restoreEnd x0 x1) := by
  unfold State.restoreEnd
  (try dsimp only)
  repeat' (first | (with_reducible assumption) | (with_reducible exact fun _ => rfl) | (with_reducible exact fun x => False.elim x) | (with_reducible apply State.restoredCrcs_keep) | (with_reducible apply State.ckEnd_keep) | (with_reducible apply State.restored_keep) | (with_reducible apply foldl_keep) | (with_reducible apply foldl_keep_fst) | (refine Keep.of_pair (by assumption) ?_) | split | (intro _) | (dsimp only [id]) | (with_reducible apply Keep.upd; first | (with_reducible assumption) | (with_reducible exact fun _ => rfl) | (with_reducible exact fun x => False.elim x) | (with_reducible apply State.restoredCrcs_keep) | (with_reducible apply State.ckEnd_keep) | (with_reducible apply State.restored_keep) | (with_reducible apply foldl_keep) | (with_reducible apply foldl_keep_fst) | (refine Keep.of_pair (by assumption) ?_) | split | (dsimp only [id])))

theorem State.restoreChunk_keep {T U : Prop} {r : State} {x0} {x1} {x2} {x3} {x4} (h : Keep T U r x0) : Keep T U r (@State.restoreChunk x0 x1 x2 x3 x4) := by
  unfold State.restoreChunk
  (try dsimp only)
  repeat' (first | (with_reducible assumption) | (with_reducible exact fun _ => rfl) | (with_reducible exact fun x => False.elim x) | (with_reducible apply State.openOp_keep) | (with_reducible apply State.ckEnd_keep) | (with_reducible apply State.placePlain_keep) | (with_reducible apply State.modCk_keep) | (with_reducible apply State.restoreEnd_keep) | (with_reducible apply State.nextChunk_keep) | (with_reducible apply foldl_keep) | (with_reducible apply foldl_keep_fst) | split | (intro _) | (dsimp only [id]) | (with_reducible apply Keep.upd; first | (with_reducible assumption) | (with_reducible exact fun _ => rfl) | (with_reducible exact fun x => False.elim x) | (with_reducible apply State.openOp_keep) | (with_reducible apply State.ckEnd_keep) | (with_reducible apply State.placePlain_keep) | (with_reducible apply State.modCk_keep) | (with_reducible apply State.restoreEnd_keep) | (with_reducible apply State.nextChunk_keep) | (with_reducible apply foldl_keep) | (with_reducible apply foldl_keep_fst) | split | (dsimp only [id])))

theorem State.restoreHeader_keep {T U : Prop} {r : State} {x0} {x1} {x2} (h : Keep T U r x0) : Keep T U r (@State.restoreHeader x0 x1 x2) := by
  unfold State.restoreHeader
  (try dsimp only)
  repeat' (first | (with_reducible assumption) | (with_reducible exact fun _ => rfl) | (with_reducible exact fun x => False.elim x) | (with_reducible apply State.ckEnd_keep) | (with_reducible apply State.modCk_keep) | (with_reducible apply State.modSeat_keep) | (with_reducible apply State.ckTotals_keep) | (with_reducible apply eachOf_keep) | (with_reducible apply State.nextChunk_keep) | (with_reducible apply foldl_keep) | (with_reducible apply foldl_keep_fst) | split | (intro _) | (dsimp only [id]) | (with_reducible apply Keep.upd; first | (with_reducible assumption) | (with_reducible exact fun _ => rfl) | (with_reducible exact fun x => False.elim x) | (with_reducible apply State.ckEnd_keep) | (with_reducible apply State.modCk_keep) | (with_reducible apply State.modSeat_keep) | (with_reducible apply State.ckTotals_keep) | (with_reducible apply eachOf_keep) | (with_reducible apply State.nextChunk_keep) | (with_reducible apply foldl_keep) | (with_reducible apply foldl_keep_fst) | split | (dsimp only [id])))

theorem State.scanned_keep {T U : Prop} {r : State} {x0} {x1} {x2} {x3} (h : Keep T U r x0) : Keep T U r (@State.scanned x0 x1 x2 x3) := by
  unfold State.scanned
  (try dsimp only)
  repeat' (first | (with_reducible assumption) | (with_reducible exact fun _ => rfl) | (with_reducible exact fun x => False.elim x) | (with_reducible apply State.modCk_keep) | (with_reducible apply State.ckEnd_keep) | (with_reducible apply State.restoreGo_keep) | (with_reducible apply State.ckOpen_keep) | (with_reducible apply foldl_keep) | (with_reducible apply foldl_keep_fst) | split | (intro _) | (dsimp only [id]) | (with_reducible apply Keep.upd; first | (with_reducible assumption) | (with_reducible exact fun _ => rfl) | (with_reducible exact fun x => False.elim x) | (with_reducible apply State.modCk_keep) | (with_reducible apply State.ckEnd_keep) | (with_reducible apply State.restoreGo_keep) | (with_reducible apply State.ckOpen_keep) | (with_reducible apply foldl_keep) | (with_reducible apply foldl_keep_fst) | split | (dsimp only [id])))

theorem State.sealed_keep {T U : Prop} {r : State} {x0} {x1} {x2} (h : Keep T U r x0) : Keep T U r (@State.sealed x0 x1 x2) := by
  unfold State.sealed
  (try dsimp only)
  repeat' (first | (with_reducible assumption) | (with_reducible exact fun _ => rfl) | (with_reducible exact fun x => False.elim x) | (with_reducible apply State.modCk_keep) | (with_reducible apply State.ckData_keep) | (with_reducible apply State.ckEnd_keep) | (with_reducible apply State.voidNext_keep) | (with_reducible apply foldl_keep) | (with_reducible apply foldl_keep_fst) | split | (intro _) | (dsimp only [id]) | (with_reducible apply Keep.upd; first | (with_reducible assumption) | (with_reducible exact fun _ => rfl) | (with_reducible exact fun x => False.elim x) | (with_reducible apply State.modCk_keep) | (with_reducible apply State.ckData_keep) | (with_reducible apply State.ckEnd_keep) | (with_reducible apply State.voidNext_keep) | (with_reducible apply foldl_keep) | (with_reducible apply foldl_keep_fst) | split | (dsimp only [id])))

theorem State.written_keep {T U : Prop} {r : State} {x0} {x1} {x2} (h : Keep T U r x0) : Keep T U r (@State.written x0 x1 x2) := by
  unfold State.written
  (try dsimp only)
  repeat' (first | (with_reducible assumption) | (with_reducible exact fun _ => rfl) | (with_reducible exact fun x => False.elim x) | (with_reducible apply State.modCk_keep) | (with_reducible apply State.ckSummary_keep) | (with_reducible apply State.nextChunk_keep) | (with_reducible apply State.issueSeal_keep) | (with_reducible apply foldl_keep) | (with_reducible apply foldl_keep_fst) | split | (intro _) | (dsimp only [id]) | (with_reducible apply Keep.upd; first | (with_reducible assumption) | (with_reducible exact fun _ => rfl) | (with_reducible exact fun x => False.elim x) | (with_reducible apply State.modCk_keep) | (with_reducible apply State.ckSummary_keep) | (with_reducible apply State.nextChunk_keep) | (with_reducible apply State.issueSeal_keep) | (with_reducible apply foldl_keep) | (with_reducible apply foldl_keep_fst) | split | (dsimp only [id])))

theorem State.opDone_keep {T U : Prop} {r : State} {x0} {x1} {x2} {x3} (h : Keep T U r x0) : Keep T U r (@State.opDone x0 x1 x2 x3) := by
  unfold State.opDone
  (try dsimp only)
  repeat' (first | (with_reducible assumption) | (with_reducible exact fun _ => rfl) | (with_reducible exact fun x => False.elim x) | (with_reducible apply State.written_keep) | (with_reducible apply State.restoreChunk_keep) | (with_reducible apply State.restoreHeader_keep) | (with_reducible apply State.sealed_keep) | (with_reducible apply State.scanned_keep) | (with_reducible apply foldl_keep) | (with_reducible apply foldl_keep_fst) | split | (intro _) | (dsimp only [id]) | (with_reducible apply Keep.upd; first | (with_reducible assumption) | (with_reducible exact fun _ => rfl) | (with_reducible exact fun x => False.elim x) | (with_reducible apply State.written_keep) | (with_reducible apply State.restoreChunk_keep) | (with_reducible apply State.restoreHeader_keep) | (with_reducible apply State.sealed_keep) | (with_reducible apply State.scanned_keep) | (with_reducible apply foldl_keep) | (with_reducible apply foldl_keep_fst) | split | (dsimp only [id])))

theorem State.endOp_keep {T U : Prop} {r : State} {x0} {x1} {x2} {x3} {x4} (h : Keep T U r x0) : Keep T U r (@State.endOp x0 x1 x2 x3 x4) := by
  unfold State.endOp
  (try dsimp only)
  repeat' (first | (with_reducible assumption) | (with_reducible exact fun _ => rfl) | (with_reducible exact fun x => False.elim x) | (with_reducible apply State.modLink_keep) | (with_reducible apply State.opDone_keep) | (with_reducible apply State.opFail_keep) | (with_reducible apply foldl_keep) | (with_reducible apply foldl_keep_fst) | split | (intro _) | (dsimp only [id]) | (with_reducible apply Keep.upd; first | (with_reducible assumption) | (with_reducible exact fun _ => rfl) | (with_reducible exact fun x => False.elim x) | (with_reducible apply State.modLink_keep) | (with_reducible apply State.opDone_keep) | (with_reducible apply State.opFail_keep) | (with_reducible apply foldl_keep) | (with_reducible apply foldl_keep_fst) | split | (dsimp only [id])))

theorem State.poolAnswer_keep {T U : Prop} {r : State} {x0} {x1} {x2} {x3} {x4} (h : Keep T U r x0) : Keep T U r (@State.poolAnswer x0 x1 x2 x3 x4) := by
  unfold State.poolAnswer
  (try dsimp only)
  repeat' (first | (with_reducible assumption) | (with_reducible exact fun _ => rfl) | (with_reducible exact fun x => False.elim x) | (with_reducible apply State.modLink_keep) | (with_reducible apply State.endOp_keep) | (with_reducible apply foldl_keep) | (with_reducible apply foldl_keep_fst) | split | (intro _) | (dsimp only [id]) | (with_reducible apply Keep.upd; first | (with_reducible assumption) | (with_reducible exact fun _ => rfl) | (with_reducible exact fun x => False.elim x) | (with_reducible apply State.modLink_keep) | (with_reducible apply State.endOp_keep) | (with_reducible apply foldl_keep) | (with_reducible apply foldl_keep_fst) | split | (dsimp only [id])))

theorem execPoolResponse_keep {T U : Prop} {r : State} {x0} {x1} {x2} {x3} {x4} (h : Keep T U r x4) : Keep T U r (@execPoolResponse x0 x1 x2 x3 x4) := by
  unfold execPoolResponse
  (try dsimp only)
  repeat' (first | (with_reducible assumption) | (with_reducible exact fun _ => rfl) | (with_reducible exact fun x => False.elim x) | (with_reducible apply State.poolAnswer_keep) | (with_reducible apply foldl_keep) | (with_reducible apply foldl_keep_fst) | split | (intro _) | (dsimp only [id]) | (with_reducible apply Keep.upd; first | (with_reducible assumption) | (with_reducible exact fun _ => rfl) | (with_reducible exact fun x => False.elim x) | (with_reducible apply State.poolAnswer_keep) | (with_reducible apply foldl_keep) | (with_reducible apply foldl_keep_fst) | split | (dsimp only [id])))

theorem execPoolTimeout_keep {T U : Prop} {r : State} {x0} {x1} {x2} (h : Keep T U r x2) : Keep T U r (@execPoolTimeout x0 x1 x2) := by
  unfold execPoolTimeout
  (try dsimp only)
  repeat' (first | (with_reducible assumption) | (with_reducible exact fun _ => rfl) | (with_reducible exact fun x => False.elim x) | (with_reducible apply State.endOp_keep) | (with_reducible apply foldl_keep) | (with_reducible apply foldl_keep_fst) | split | (intro _) | (dsimp only [id]) | (with_reducible apply Keep.upd; first | (with_reducible assumption) | (with_reducible exact fun _ => rfl) | (with_reducible exact fun x => False.elim x) | (with_reducible apply State.endOp_keep) | (with_reducible apply foldl_keep) | (with_reducible apply foldl_keep_fst) | split | (dsimp only [id])))

theorem State.startCkpt_keep {T U : Prop} {r : State} {x0} {x1} {x2} {x3} {x4} (h : Keep T U r x0) : Keep T U r (@State.startCkpt x0 x1 x2 x3 x4) := by
  unfold State.startCkpt
  (try dsimp only)
  repeat' (first | (with_reducible assumption) | (with_reducible exact fun _ => rfl) | (with_reducible exact fun x => False.elim x) | (with_reducible apply State.ckNote_keep) | (with_reducible apply State.bigPass_keep) | (with_reducible apply State.modCk_keep) | (with_reducible apply State.ckGo_keep) | (with_reducible apply foldl_keep) | (with_reducible apply foldl_keep_fst) | split | (intro _) | (dsimp only [id]) | (with_reducible apply Keep.upd; first | (with_reducible assumption) | (with_reducible exact fun _ => rfl) | (with_reducible exact fun x => False.elim x) | (with_reducible apply State.ckNote_keep) | (with_reducible apply State.bigPass_keep) | (with_reducible apply State.modCk_keep) | (with_reducible apply State.ckGo_keep) | (with_reducible apply foldl_keep) | (with_reducible apply foldl_keep_fst) | split | (dsimp only [id])))

theorem State.ckAbandon_keep {T U : Prop} {r : State} {x0} {x1} (h : Keep T U r x0) : Keep T U r (@State.ckAbandon x0 x1) := by
  unfold State.ckAbandon
  (try dsimp only)
  repeat' (first | (with_reducible assumption) | (with_reducible exact fun _ => rfl) | (with_reducible exact fun x => False.elim x) | (with_reducible apply State.ckEnd_keep) | (with_reducible apply foldl_keep) | (with_reducible apply foldl_keep_fst) | split | (intro _) | (dsimp only [id]) | (with_reducible apply Keep.upd; first | (with_reducible assumption) | (with_reducible exact fun _ => rfl) | (with_reducible exact fun x => False.elim x) | (with_reducible apply State.ckEnd_keep) | (with_reducible apply foldl_keep) | (with_reducible apply foldl_keep_fst) | split | (dsimp only [id])))

theorem State.ckInterrupt_keep {T U : Prop} {r : State} {x0} {x1} (h : Keep T U r x0) : Keep T U r (@State.ckInterrupt x0 x1) := by
  unfold State.ckInterrupt
  (try dsimp only)
  repeat' (first | (with_reducible assumption) | (with_reducible exact fun _ => rfl) | (with_reducible exact fun x => False.elim x) | (with_reducible apply State.ckEnd_keep) | (with_reducible apply foldl_keep) | (with_reducible apply foldl_keep_fst) | split | (intro _) | (dsimp only [id]) | (with_reducible apply Keep.upd; first | (with_reducible assumption) | (with_reducible exact fun _ => rfl) | (with_reducible exact fun x => False.elim x) | (with_reducible apply State.ckEnd_keep) | (with_reducible apply foldl_keep) | (with_reducible apply foldl_keep_fst) | split | (dsimp only [id])))

theorem State.ckTrigger_keep {T U : Prop} {r : State} {x0} {x1} {x2} {x3} (h : Keep T U r x0) : Keep T U r (@State.ckTrigger x0 x1 x2 x3) := by
  unfold State.ckTrigger
  (try dsimp only)
  repeat' (first | (with_reducible assumption) | (with_reducible exact fun _ => rfl) | (with_reducible exact fun x => False.elim x) | (with_reducible apply State.modCk_keep) | (with_reducible apply State.startCkpt_keep) | (with_reducible apply foldl_keep) | (with_reducible apply foldl_keep_fst) | split | (intro _) | (dsimp only [id]) | (with_reducible apply Keep.upd; first | (with_reducible assumption) | (with_reducible exact fun _ => rfl) | (with_reducible exact fun x => False.elim x) | (with_reducible apply State.modCk_keep) | (with_reducible apply State.startCkpt_keep) | (with_reducible apply foldl_keep) | (with_reducible apply foldl_keep_fst) | split | (dsimp only [id])))

theorem State.scoreWaves_keep {T U : Prop} {r : State} {x0} {x1} {x2} {x3} (h : Keep T U r x0) : Keep T U r (@State.scoreWaves x0 x1 x2 x3) := by
  unfold State.scoreWaves
  (try dsimp only)
  repeat' (first | (with_reducible assumption) | (with_reducible exact fun _ => rfl) | (with_reducible exact fun x => False.elim x) | (with_reducible apply State.demerit_keep) | (with_reducible apply foldl_keep) | (with_reducible apply foldl_keep_fst) | split | (intro _) | (dsimp only [id]) | (with_reducible apply Keep.upd; first | (with_reducible assumption) | (with_reducible exact fun _ => rfl) | (with_reducible exact fun x => False.elim x) | (with_reducible apply State.demerit_keep) | (with_reducible apply foldl_keep) | (with_reducible apply foldl_keep_fst) | split | (dsimp only [id])))

theorem State.lostFlit_keep {T U : Prop} {r : State} {x0} {x1} (h : Keep T U r x0) : Keep T U r (@State.lostFlit x0 x1) := by
  unfold State.lostFlit
  (try dsimp only)
  repeat' (first | (with_reducible assumption) | (with_reducible exact fun _ => rfl) | (with_reducible exact fun x => False.elim x) | (with_reducible apply State.scoreWaves_keep) | (with_reducible apply State.bump_keep) | (with_reducible apply foldl_keep) | (with_reducible apply foldl_keep_fst) | split | (intro _) | (dsimp only [id]) | (with_reducible apply Keep.upd; first | (with_reducible assumption) | (with_reducible exact fun _ => rfl) | (with_reducible exact fun x => False.elim x) | (with_reducible apply State.scoreWaves_keep) | (with_reducible apply State.bump_keep) | (with_reducible apply foldl_keep) | (with_reducible apply foldl_keep_fst) | split | (dsimp only [id])))

theorem State.dropSpent_keep {T U : Prop} {r : State} {x0} {x1} {x2} (h : Keep T U r x0) : Keep T U r (@State.dropSpent x0 x1 x2) := by
  unfold State.dropSpent
  (try dsimp only)
  repeat' (first | (with_reducible assumption) | (with_reducible exact fun _ => rfl) | (with_reducible exact fun x => False.elim x) | (with_reducible apply State.modLink_keep) | (with_reducible apply State.lostFlit_keep) | (with_reducible apply State.endOp_keep) | (with_reducible apply foldl_keep) | (with_reducible apply foldl_keep_fst) | split | (intro _) | (dsimp only [id]) | (with_reducible apply Keep.upd; first | (with_reducible assumption) | (with_reducible exact fun _ => rfl) | (with_reducible exact fun x => False.elim x) | (with_reducible apply State.modLink_keep) | (with_reducible apply State.lostFlit_keep) | (with_reducible apply State.endOp_keep) | (with_reducible apply foldl_keep) | (with_reducible apply foldl_keep_fst) | split | (dsimp only [id])))

theorem State.opsLost_keep {T U : Prop} {r : State} {x0} {x1} (h : Keep T U r x0) : Keep T U r (@State.opsLost x0 x1) := by
  unfold State.opsLost
  (try dsimp only)
  repeat' (first | (with_reducible assumption) | (with_reducible exact fun _ => rfl) | (with_reducible exact fun x => False.elim x) | (with_reducible apply State.endOp_keep) | (with_reducible apply foldl_keep) | (with_reducible apply foldl_keep_fst) | split | (intro _) | (dsimp only [id]) | (with_reducible apply Keep.upd; first | (with_reducible assumption) | (with_reducible exact fun _ => rfl) | (with_reducible exact fun x => False.elim x) | (with_reducible apply State.endOp_keep) | (with_reducible apply foldl_keep) | (with_reducible apply foldl_keep_fst) | split | (dsimp only [id])))

theorem State.endLinkPass_keep {T U : Prop} {r : State} {x0} {x1} {x2} (h : Keep T U r x0) : Keep T U r (@State.endLinkPass x0 x1 x2) := by
  unfold State.endLinkPass
  (try dsimp only)
  repeat' (first | (with_reducible assumption) | (with_reducible exact fun _ => rfl) | (with_reducible exact fun x => False.elim x) | (with_reducible apply State.modHm_keep) | (with_reducible apply foldl_keep) | (with_reducible apply foldl_keep_fst) | split | (intro _) | (dsimp only [id]) | (with_reducible apply Keep.upd; first | (with_reducible assumption) | (with_reducible exact fun _ => rfl) | (with_reducible exact fun x => False.elim x) | (with_reducible apply State.modHm_keep) | (with_reducible apply foldl_keep) | (with_reducible apply foldl_keep_fst) | split | (dsimp only [id])))

theorem State.linkTo_keep {T U : Prop} {r : State} {x0} {x1} {x2} {x3} (h : Keep T U r x0) : Keep T U r (@State.linkTo x0 x1 x2 x3) := by
  unfold State.linkTo
  (try dsimp only)
  repeat' (first | (with_reducible assumption) | (with_reducible exact fun _ => rfl) | (with_reducible exact fun x => False.elim x) | (with_reducible apply State.modLink_keep) | (with_reducible apply State.endLinkPass_keep) | (with_reducible apply State.opsLost_keep) | (with_reducible apply State.taint_keep) | (with_reducible apply foldl_keep) | (with_reducible apply foldl_keep_fst) | split | (intro _) | (dsimp only [id]) | (with_reducible apply Keep.upd; first | (with_reducible assumption) | (with_reducible exact fun _ => rfl) | (with_reducible exact fun x => False.elim x) | (with_reducible apply State.modLink_keep) | (with_reducible apply State.endLinkPass_keep) | (with_reducible apply State.opsLost_keep) | (with_reducible apply State.taint_keep) | (with_reducible apply foldl_keep) | (with_reducible apply foldl_keep_fst) | split | (dsimp only [id])))

theorem State.sendAbsent_keep {T U : Prop} {r : State} {x0} {x1} (h : Keep T U r x0) : Keep T U r (@State.sendAbsent x0 x1) := by
  unfold State.sendAbsent
  (try dsimp only)
  repeat' (first | (with_reducible assumption) | (with_reducible exact fun _ => rfl) | (with_reducible exact fun x => False.elim x) | (with_reducible apply State.modLink_keep) | (with_reducible apply State.linkTo_keep) | (with_reducible apply foldl_keep) | (with_reducible apply foldl_keep_fst) | split | (intro _) | (dsimp only [id]) | (with_reducible apply Keep.upd; first | (with_reducible assumption) | (with_reducible exact fun _ => rfl) | (with_reducible exact fun x => False.elim x) | (with_reducible apply State.modLink_keep) | (with_reducible apply State.linkTo_keep) | (with_reducible apply foldl_keep) | (with_reducible apply foldl_keep_fst) | split | (dsimp only [id])))

theorem State.unlock_keep {T : Prop} {r : State} {x0} {x1} (h : Keep T False r x0) : Keep T False r (@State.unlock x0 x1) := by
  unfold State.unlock
  (try dsimp only)
  repeat' (first | (with_reducible assumption) | (with_reducible exact fun _ => rfl) | (with_reducible exact fun x => False.elim x) | (with_reducible apply eachOf_keep) | (with_reducible apply State.sendAbsent_keep) | (with_reducible apply State.modTt_keep) | (with_reducible apply foldl_keep) | (with_reducible apply foldl_keep_fst) | split | (intro _) | (dsimp only [id]) | (with_reducible apply Keep.upd; first | (with_reducible assumption) | (with_reducible exact fun _ => rfl) | (with_reducible exact fun x => False.elim x) | (with_reducible apply eachOf_keep) | (with_reducible apply State.sendAbsent_keep) | (with_reducible apply State.modTt_keep) | (with_reducible apply foldl_keep) | (with_reducible apply foldl_keep_fst) | split | (dsimp only [id])))

theorem State.cleanPage_keep {T U : Prop} {r : State} {x0} {x1} (h : Keep T U r x0) : Keep T U r (@State.cleanPage x0 x1) := by
  unfold State.cleanPage
  (try dsimp only)
  repeat' (first | (with_reducible assumption) | (with_reducible exact fun _ => rfl) | (with_reducible exact fun x => False.elim x) | (with_reducible apply foldl_keep) | (with_reducible apply foldl_keep_fst) | split | (intro _) | (dsimp only [id]) | (with_reducible apply Keep.upd; first | (with_reducible assumption) | (with_reducible exact fun _ => rfl) | (with_reducible exact fun x => False.elim x) | (with_reducible apply foldl_keep) | (with_reducible apply foldl_keep_fst) | split | (dsimp only [id])))

theorem State.remapPage_keep {T U : Prop} {r : State} {x0} {x1} {x2} (h : Keep T U r x0) : Keep T U r (@State.remapPage x0 x1 x2) := by
  unfold State.remapPage
  (try dsimp only)
  repeat' (first | (with_reducible assumption) | (with_reducible exact fun _ => rfl) | (with_reducible exact fun x => False.elim x) | (with_reducible apply State.cleanPage_keep) | (with_reducible apply State.modMc_keep) | (with_reducible apply State.modLb_keep) | (with_reducible apply foldl_keep) | (with_reducible apply foldl_keep_fst) | split | (intro _) | (dsimp only [id]) | (with_reducible apply Keep.upd; first | (with_reducible assumption) | (with_reducible exact fun _ => rfl) | (with_reducible exact fun x => False.elim x) | (with_reducible apply State.cleanPage_keep) | (with_reducible apply State.modMc_keep) | (with_reducible apply State.modLb_keep) | (with_reducible apply foldl_keep) | (with_reducible apply foldl_keep_fst) | split | (dsimp only [id])))

theorem State.remapPending_keep {T U : Prop} {r : State} {x0} {x1} (h : Keep T U r x0) : Keep T U r (@State.remapPending x0 x1) := by
  unfold State.remapPending
  (try dsimp only)
  repeat' (first | (with_reducible assumption) | (with_reducible exact fun _ => rfl) | (with_reducible exact fun x => False.elim x) | (with_reducible apply eachOf_keep) | (with_reducible apply State.remapPage_keep) | (with_reducible apply State.modMc_keep) | (with_reducible apply foldl_keep) | (with_reducible apply foldl_keep_fst) | split | (intro _) | (dsimp only [id]) | (with_reducible apply Keep.upd; first | (with_reducible assumption) | (with_reducible exact fun _ => rfl) | (with_reducible exact fun x => False.elim x) | (with_reducible apply eachOf_keep) | (with_reducible apply State.remapPage_keep) | (with_reducible apply State.modMc_keep) | (with_reducible apply foldl_keep) | (with_reducible apply foldl_keep_fst) | split | (dsimp only [id])))

theorem State.wantPages_keep {T U : Prop} {r : State} {x0} {x1} (h : Keep T U r x0) : Keep T U r (@State.wantPages x0 x1) := by
  unfold State.wantPages
  (try dsimp only)
  repeat' (first | (with_reducible assumption) | (with_reducible exact fun _ => rfl) | (with_reducible exact fun x => False.elim x) | (with_reducible apply State.modHm_keep) | (with_reducible apply foldl_keep) | (with_reducible apply foldl_keep_fst) | split | (intro _) | (dsimp only [id]) | (with_reducible apply Keep.upd; first | (with_reducible assumption) | (with_reducible exact fun _ => rfl) | (with_reducible exact fun x => False.elim x) | (with_reducible apply State.modHm_keep) | (with_reducible apply foldl_keep) | (with_reducible apply foldl_keep_fst) | split | (dsimp only [id])))

theorem State.requests_keep {T U : Prop} {r : State} {x0} {x1} (h : Keep T U r x0) : Keep T U r (@State.requests x0 x1) := by
  unfold State.requests
  (try dsimp only)
  repeat' (first | (with_reducible assumption) | (with_reducible exact fun _ => rfl) | (with_reducible exact fun x => False.elim x) | (with_reducible apply State.modHm_keep) | (with_reducible apply foldl_keep) | (with_reducible apply foldl_keep_fst) | split | (intro _) | (dsimp only [id]) | (with_reducible apply Keep.upd; first | (with_reducible assumption) | (with_reducible exact fun _ => rfl) | (with_reducible exact fun x => False.elim x) | (with_reducible apply State.modHm_keep) | (with_reducible apply foldl_keep) | (with_reducible apply foldl_keep_fst) | split | (dsimp only [id])))

theorem State.quizPasses_keep {T U : Prop} {r : State} {x0} {x1} (h : Keep T U r x0) : Keep T U r (@State.quizPasses x0 x1) := by
  unfold State.quizPasses
  (try dsimp only)
  repeat' (first | (with_reducible assumption) | (with_reducible exact fun _ => rfl) | (with_reducible exact fun x => False.elim x) | (with_reducible apply eachOf_keep) | (refine Keep.of_ok (by assumption) ?_; with_reducible apply State.takePass_keep) | (with_reducible apply foldl_keep) | (with_reducible apply foldl_keep_fst) | split | (intro _) | (dsimp only [id]) | (with_reducible apply Keep.upd; first | (with_reducible assumption) | (with_reducible exact fun _ => rfl) | (with_reducible exact fun x => False.elim x) | (with_reducible apply eachOf_keep) | (refine Keep.of_ok (by assumption) ?_; with_reducible apply State.takePass_keep) | (with_reducible apply foldl_keep) | (with_reducible apply foldl_keep_fst) | split | (dsimp only [id])))

theorem State.healthBell_keep {T U : Prop} {r : State} {x0} {x1} {x2} {x3} (h : Keep T U r x0) : Keep T U r (@State.healthBell x0 x1 x2 x3) := by
  unfold State.healthBell
  (try dsimp only)
  repeat' (first | (with_reducible assumption) | (with_reducible exact fun _ => rfl) | (with_reducible exact fun x => False.elim x) | (with_reducible apply eachOf_keep) | (with_reducible apply State.modHm_keep) | (with_reducible apply State.remapPending_keep) | (with_reducible apply State.quizPasses_keep) | (with_reducible apply State.requests_keep) | (with_reducible apply State.wantPages_keep) | (with_reducible apply foldl_keep) | (with_reducible apply foldl_keep_fst) | split | (intro _) | (dsimp only [id]) | (with_reducible apply Keep.upd; first | (with_reducible assumption) | (with_reducible exact fun _ => rfl) | (with_reducible exact fun x => False.elim x) | (with_reducible apply eachOf_keep) | (with_reducible apply State.modHm_keep) | (with_reducible apply State.remapPending_keep) | (with_reducible apply State.quizPasses_keep) | (with_reducible apply State.requests_keep) | (with_reducible apply State.wantPages_keep) | (with_reducible apply foldl_keep) | (with_reducible apply foldl_keep_fst) | split | (dsimp only [id])))

theorem State.quizGo_keep {T U : Prop} {r : State} {x0} {x1} (h : Keep T U r x0) : Keep T U r (@State.quizGo x0 x1) := by
  unfold State.quizGo
  (try dsimp only)
  repeat' (first | (with_reducible assumption) | (with_reducible exact fun _ => rfl) | (with_reducible exact fun x => False.elim x) | (with_reducible apply State.modHm_keep) | (with_reducible apply foldl_keep) | (with_reducible apply foldl_keep_fst) | split | (intro _) | (dsimp only [id]) | (with_reducible apply Keep.upd; first | (with_reducible assumption) | (with_reducible exact fun _ => rfl) | (with_reducible exact fun x => False.elim x) | (with_reducible apply State.modHm_keep) | (with_reducible apply foldl_keep) | (with_reducible apply foldl_keep_fst) | split | (dsimp only [id])))

theorem State.startActivity_keep {T U : Prop} {r : State} {x0} {x1} {x2} (h : Keep T U r x0) : Keep T U r (@State.startActivity x0 x1 x2) := by
  unfold State.startActivity
  (try dsimp only)
  repeat' (first | (with_reducible assumption) | (with_reducible exact fun _ => rfl) | (with_reducible exact fun x => False.elim x) | (with_reducible apply State.modMc_keep) | (with_reducible apply State.linkTo_keep) | (with_reducible apply State.modHm_keep) | (with_reducible apply State.quizGo_keep) | (with_reducible apply foldl_keep) | (with_reducible apply foldl_keep_fst) | split | (intro _) | (dsimp only [id]) | (with_reducible apply Keep.upd; first | (with_reducible assumption) | (with_reducible exact fun _ => rfl) | (with_reducible exact fun x => False.elim x) | (with_reducible apply State.modMc_keep) | (with_reducible apply State.linkTo_keep) | (with_reducible apply State.modHm_keep) | (with_reducible apply State.quizGo_keep) | (with_reducible apply foldl_keep) | (with_reducible apply foldl_keep_fst) | split | (dsimp only [id])))

theorem execPassGrant_keep {T U : Prop} {r : State} {x0} {x1} (h : Keep T U r x1) : Keep T U r (@execPassGrant x0 x1) := by
  unfold execPassGrant
  (try dsimp only)
  repeat' (first | (with_reducible assumption) | (with_reducible exact fun _ => rfl) | (with_reducible exact fun x => False.elim x) | (with_reducible apply State.modHm_keep) | (with_reducible apply State.startActivity_keep) | (with_reducible apply foldl_keep) | (with_reducible apply foldl_keep_fst) | split | (intro _) | (dsimp only [id]) | (with_reducible apply Keep.upd; first | (with_reducible assumption) | (with_reducible exact fun _ => rfl) | (with_reducible exact fun x => False.elim x) | (with_reducible apply State.modHm_keep) | (with_reducible apply State.startActivity_keep) | (with_reducible apply foldl_keep) | (with_reducible apply foldl_keep_fst) | split | (dsimp only [id])))

theorem execCardDecayTick_keep {T U : Prop} {r : State} {x0} {x1} (h : Keep T U r x1) : Keep T U r (@execCardDecayTick x0 x1) := by
  unfold execCardDecayTick
  (try dsimp only)
  repeat' (first | (with_reducible assumption) | (with_reducible exact fun _ => rfl) | (with_reducible exact fun x => False.elim x) | (with_reducible apply State.modHm_keep) | (with_reducible apply State.modMc_keep) | (with_reducible apply foldl_keep) | (with_reducible apply foldl_keep_fst) | split | (intro _) | (dsimp only [id]) | (with_reducible apply Keep.upd; first | (with_reducible assumption) | (with_reducible exact fun _ => rfl) | (with_reducible exact fun x => False.elim x) | (with_reducible apply State.modHm_keep) | (with_reducible apply State.modMc_keep) | (with_reducible apply foldl_keep) | (with_reducible apply foldl_keep_fst) | split | (dsimp only [id])))

theorem execCardStoreTimer_keep {T U : Prop} {r : State} {x0} {x1} (h : Keep T U r x1) : Keep T U r (@execCardStoreTimer x0 x1) := by
  unfold execCardStoreTimer
  (try dsimp only)
  repeat' (first | (with_reducible assumption) | (with_reducible exact fun _ => rfl) | (with_reducible exact fun x => False.elim x) | (with_reducible apply State.modHm_keep) | (with_reducible apply foldl_keep) | (with_reducible apply foldl_keep_fst) | split | (intro _) | (dsimp only [id]) | (with_reducible apply Keep.upd; first | (with_reducible assumption) | (with_reducible exact fun _ => rfl) | (with_reducible exact fun x => False.elim x) | (with_reducible apply State.modHm_keep) | (with_reducible apply foldl_keep) | (with_reducible apply foldl_keep_fst) | split | (dsimp only [id])))

theorem execRemedyRelaxTimer_keep {T U : Prop} {r : State} {x0} {x1} {x2} {x3} (h : Keep T U r x3) : Keep T U r (@execRemedyRelaxTimer x0 x1 x2 x3) := by
  unfold execRemedyRelaxTimer
  (try dsimp only)
  repeat' (first | (with_reducible assumption) | (with_reducible exact fun _ => rfl) | (with_reducible exact fun x => False.elim x) | (with_reducible apply State.modHm_keep) | (with_reducible apply foldl_keep) | (with_reducible apply foldl_keep_fst) | split | (intro _) | (dsimp only [id]) | (with_reducible apply Keep.upd; first | (with_reducible assumption) | (with_reducible exact fun _ => rfl) | (with_reducible exact fun x => False.elim x) | (with_reducible apply State.modHm_keep) | (with_reducible apply foldl_keep) | (with_reducible apply foldl_keep_fst) | split | (dsimp only [id])))

theorem execPopQuizStart_keep {T U : Prop} {r : State} {x0} {x1} {x2} {x3} (h : Keep T U r x3) : Keep T U r (@execPopQuizStart x0 x1 x2 x3) := by
  unfold execPopQuizStart
  dsimp only
  split
  · exact h
  · split
    · rename_i t ht
      apply State.modHm_keep
      cases h1 : x3.takePass x0 7 x1 false with
      | error e => rw [h1] at ht; cases ht
      | ok t' => rw [h1] at ht; exact State.takePass_keep (State.takePass_keep h _ h1) _ ht
    · exact State.modHm_keep h

theorem State.quizLost_keep {T U : Prop} {r : State} {x0} {x1} {x2} (h : Keep T U r x0) : Keep T U r (@State.quizLost x0 x1 x2) := by
  unfold State.quizLost
  (try dsimp only)
  repeat' (first | (with_reducible assumption) | (with_reducible exact fun _ => rfl) | (with_reducible exact fun x => False.elim x) | (with_reducible apply State.demerit_keep) | (with_reducible apply State.modHm_keep) | (with_reducible apply foldl_keep) | (with_reducible apply foldl_keep_fst) | split | (intro _) | (dsimp only [id]) | (with_reducible apply Keep.upd; first | (with_reducible assumption) | (with_reducible exact fun _ => rfl) | (with_reducible exact fun x => False.elim x) | (with_reducible apply State.demerit_keep) | (with_reducible apply State.modHm_keep) | (with_reducible apply foldl_keep) | (with_reducible apply foldl_keep_fst) | split | (dsimp only [id])))

theorem State.quizVote_keep {T U : Prop} {r : State} {x0} {x1} {x2} {x3} {x4} {x5} {x6} (h : Keep T U r x0) : Keep T U r (@State.quizVote x0 x1 x2 x3 x4 x5 x6) := by
  unfold State.quizVote
  (try dsimp only)
  repeat' (first | (with_reducible assumption) | (with_reducible exact fun _ => rfl) | (with_reducible exact fun x => False.elim x) | (with_reducible apply State.bump_keep) | (with_reducible apply State.modHm_keep) | (with_reducible apply State.quizLost_keep) | (with_reducible apply foldl_keep) | (with_reducible apply foldl_keep_fst) | split | (intro _) | (dsimp only [id]) | (with_reducible apply Keep.upd; first | (with_reducible assumption) | (with_reducible exact fun _ => rfl) | (with_reducible exact fun x => False.elim x) | (with_reducible apply State.bump_keep) | (with_reducible apply State.modHm_keep) | (with_reducible apply State.quizLost_keep) | (with_reducible apply foldl_keep) | (with_reducible apply foldl_keep_fst) | split | (dsimp only [id])))

theorem execPopQuizResult_keep {T U : Prop} {r : State} {x0} {x1} {x2} {x3} {x4} (h : Keep T U r x4) : Keep T U r (@execPopQuizResult x0 x1 x2 x3 x4) := by
  unfold execPopQuizResult
  (try dsimp only)
  repeat' (first | (with_reducible assumption) | (with_reducible exact fun _ => rfl) | (with_reducible exact fun x => False.elim x) | (with_reducible apply State.modHm_keep) | (with_reducible apply State.quizVote_keep) | (with_reducible apply State.bump_keep) | (refine Keep.of_ok (by assumption) ?_; with_reducible apply State.takePass_keep) | (with_reducible apply foldl_keep) | (with_reducible apply foldl_keep_fst) | split | (intro _) | (dsimp only [id]) | (with_reducible apply Keep.upd; first | (with_reducible assumption) | (with_reducible exact fun _ => rfl) | (with_reducible exact fun x => False.elim x) | (with_reducible apply State.modHm_keep) | (with_reducible apply State.quizVote_keep) | (with_reducible apply State.bump_keep) | (refine Keep.of_ok (by assumption) ?_; with_reducible apply State.takePass_keep) | (with_reducible apply foldl_keep) | (with_reducible apply foldl_keep_fst) | split | (dsimp only [id])))

theorem execSpareMarginTimer_keep {T U : Prop} {r : State} {x0} {x1} (h : Keep T U r x1) : Keep T U r (@execSpareMarginTimer x0 x1) := by
  unfold execSpareMarginTimer
  (try dsimp only)
  repeat' (first | (with_reducible assumption) | (with_reducible exact fun _ => rfl) | (with_reducible exact fun x => False.elim x) | (with_reducible apply State.modHm_keep) | (with_reducible apply foldl_keep) | (with_reducible apply foldl_keep_fst) | split | (intro _) | (dsimp only [id]) | (with_reducible apply Keep.upd; first | (with_reducible assumption) | (with_reducible exact fun _ => rfl) | (with_reducible exact fun x => False.elim x) | (with_reducible apply State.modHm_keep) | (with_reducible apply foldl_keep) | (with_reducible apply foldl_keep_fst) | split | (dsimp only [id])))

theorem execMarginMeasureDone_keep {T U : Prop} {r : State} {x0} {x1} {x2} {x3} {x4} (h : Keep T U r x4) : Keep T U r (@execMarginMeasureDone x0 x1 x2 x3 x4) := by
  unfold execMarginMeasureDone
  (try dsimp only)
  repeat' (first | (with_reducible assumption) | (with_reducible exact fun _ => rfl) | (with_reducible exact fun x => False.elim x) | (with_reducible apply State.modHm_keep) | (with_reducible apply foldl_keep) | (with_reducible apply foldl_keep_fst) | split | (intro _) | (dsimp only [id]) | (with_reducible apply Keep.upd; first | (with_reducible assumption) | (with_reducible exact fun _ => rfl) | (with_reducible exact fun x => False.elim x) | (with_reducible apply State.modHm_keep) | (with_reducible apply foldl_keep) | (with_reducible apply foldl_keep_fst) | split | (dsimp only [id])))

theorem execTileCopyComplete_keep {T U : Prop} {r : State} {x0} {x1} (h : Keep T U r x1) : Keep T U r (@execTileCopyComplete x0 x1) := by
  unfold execTileCopyComplete
  (try dsimp only)
  repeat' (first | (with_reducible assumption) | (with_reducible exact fun _ => rfl) | (with_reducible exact fun x => False.elim x) | (with_reducible apply State.modHm_keep) | (with_reducible apply foldl_keep) | (with_reducible apply foldl_keep_fst) | split | (intro _) | (dsimp only [id]) | (with_reducible apply Keep.upd; first | (with_reducible assumption) | (with_reducible exact fun _ => rfl) | (with_reducible exact fun x => False.elim x) | (with_reducible apply State.modHm_keep) | (with_reducible apply foldl_keep) | (with_reducible apply foldl_keep_fst) | split | (dsimp only [id])))

theorem State.sixPasses_keep {T U : Prop} {r : State} {x0} {x1} {x2} (h : Keep T U r x0) : ∀ u, @State.sixPasses x0 x1 x2 = some u → Keep T U r u := by
  unfold State.sixPasses
  suffices H : ∀ (l : List Nat) (e : Option State), (∀ u, e = some u → Keep T U r u) → ∀ u, l.foldl (fun r i => match r with
      | some t => (match t.takePass x1 x2 i false with | .ok t => some t | .error _ => none)
      | none => none) e = some u → Keep T U r u from
    H _ _ (fun u hu => by cases hu; exact h)
  intro l
  induction l with
  | nil => intro e he u hu; exact he u hu
  | cons i l ih =>
    intro e he u hu
    refine ih _ ?_ u hu
    intro v hv
    dsimp only at hv
    split at hv
    · split at hv
      · rename_i t _ t' ht
        cases hv
        exact State.takePass_keep (he _ rfl) _ ht
      · cases hv
    · cases hv

theorem execCombChangeover_keep {T U : Prop} {r : State} {x0} {x1} (h : Keep T U r x1) : Keep T U r (@execCombChangeover x0 x1) := by
  unfold execCombChangeover
  split
  · exact h
  · split
    · exact h
    · rename_i u hu
      apply eachOf_keep
      · exact State.modHm_keep (State.sixPasses_keep h _ hu)
      · intro l t ht
        dsimp only
        split
        · exact State.endLinkPass_keep (State.modLink_keep ht)
        · exact State.linkTo_keep (State.modLink_keep ht)

theorem State.queueVec_keep {T U : Prop} {r : State} {x0} {x1} {x2} (h : Keep T U r x0) : Keep T U r (@State.queueVec x0 x1 x2) := by
  unfold State.queueVec
  (try dsimp only)
  repeat' (first | (with_reducible assumption) | (with_reducible exact fun _ => rfl) | (with_reducible exact fun x => False.elim x) | (with_reducible apply State.advance_keep) | (with_reducible apply State.setCore_keep) | (with_reducible apply foldl_keep) | (with_reducible apply foldl_keep_fst) | split | (intro _) | (dsimp only [id]) | (with_reducible apply Keep.upd; first | (with_reducible assumption) | (with_reducible exact fun _ => rfl) | (with_reducible exact fun x => False.elim x) | (with_reducible apply State.advance_keep) | (with_reducible apply State.setCore_keep) | (with_reducible apply foldl_keep) | (with_reducible apply foldl_keep_fst) | split | (dsimp only [id])))

theorem State.issueVec_keep {T U : Prop} {r : State} {x0} {x1} {x2} {x3} {x4} (h : Keep T U r x0) : Keep T U r (@State.issueVec x0 x1 x2 x3 x4) := by
  unfold State.issueVec
  (try dsimp only)
  repeat' (first | (with_reducible assumption) | (with_reducible exact fun _ => rfl) | (with_reducible exact fun x => False.elim x) | (with_reducible apply State.advance_keep) | (with_reducible apply State.recordFaultOpen_keep) | (with_reducible apply State.recordFault_keep) | (with_reducible apply State.queueVec_keep) | (with_reducible apply foldl_keep) | (with_reducible apply foldl_keep_fst) | split | (intro _) | (dsimp only [id]) | (with_reducible apply Keep.upd; first | (with_reducible assumption) | (with_reducible exact fun _ => rfl) | (with_reducible exact fun x => False.elim x) | (with_reducible apply State.advance_keep) | (with_reducible apply State.recordFaultOpen_keep) | (with_reducible apply State.recordFault_keep) | (with_reducible apply State.queueVec_keep) | (with_reducible apply foldl_keep) | (with_reducible apply foldl_keep_fst) | split | (dsimp only [id])))

theorem issueVop_keep {T U : Prop} {r : State} {x0} {x1} {x2} {x3} (h : Keep T U r x3) : Keep T U r (@issueVop x0 x1 x2 x3) := by
  unfold issueVop
  (try dsimp only)
  repeat' (first | (with_reducible assumption) | (with_reducible exact fun _ => rfl) | (with_reducible exact fun x => False.elim x) | (with_reducible apply issue_keep) | (with_reducible apply State.issueVec_keep) | (with_reducible apply foldl_keep) | (with_reducible apply foldl_keep_fst) | split | (intro _) | (dsimp only [id]) | (with_reducible apply Keep.upd; first | (with_reducible assumption) | (with_reducible exact fun _ => rfl) | (with_reducible exact fun x => False.elim x) | (with_reducible apply issue_keep) | (with_reducible apply State.issueVec_keep) | (with_reducible apply foldl_keep) | (with_reducible apply foldl_keep_fst) | split | (dsimp only [id])))

theorem execVopCvt_keep {T U : Prop} {r : State} {x0} {x1} {x2} (h : Keep T U r x2) : Keep T U r (@execVopCvt x0 x1 x2) := by
  unfold execVopCvt
  (try dsimp only)
  repeat' (first | (with_reducible assumption) | (with_reducible exact fun _ => rfl) | (with_reducible exact fun x => False.elim x) | (with_reducible apply issueVop_keep) | (with_reducible apply foldl_keep) | (with_reducible apply foldl_keep_fst) | split | (intro _) | (dsimp only [id]) | (with_reducible apply Keep.upd; first | (with_reducible assumption) | (with_reducible exact fun _ => rfl) | (with_reducible exact fun x => False.elim x) | (with_reducible apply issueVop_keep) | (with_reducible apply foldl_keep) | (with_reducible apply foldl_keep_fst) | split | (dsimp only [id])))

theorem execVopAdd_keep {T U : Prop} {r : State} {x0} {x1} {x2} (h : Keep T U r x2) : Keep T U r (@execVopAdd x0 x1 x2) := by
  unfold execVopAdd
  (try dsimp only)
  repeat' (first | (with_reducible assumption) | (with_reducible exact fun _ => rfl) | (with_reducible exact fun x => False.elim x) | (with_reducible apply issueVop_keep) | (with_reducible apply foldl_keep) | (with_reducible apply foldl_keep_fst) | split | (intro _) | (dsimp only [id]) | (with_reducible apply Keep.upd; first | (with_reducible assumption) | (with_reducible exact fun _ => rfl) | (with_reducible exact fun x => False.elim x) | (with_reducible apply issueVop_keep) | (with_reducible apply foldl_keep) | (with_reducible apply foldl_keep_fst) | split | (dsimp only [id])))

theorem execVopSub_keep {T U : Prop} {r : State} {x0} {x1} {x2} (h : Keep T U r x2) : Keep T U r (@execVopSub x0 x1 x2) := by
  unfold execVopSub
  (try dsimp only)
  repeat' (first | (with_reducible assumption) | (with_reducible exact fun _ => rfl) | (with_reducible exact fun x => False.elim x) | (with_reducible apply issueVop_keep) | (with_reducible apply foldl_keep) | (with_reducible apply foldl_keep_fst) | split | (intro _) | (dsimp only [id]) | (with_reducible apply Keep.upd; first | (with_reducible assumption) | (with_reducible exact fun _ => rfl) | (with_reducible exact fun x => False.elim x) | (with_reducible apply issueVop_keep) | (with_reducible apply foldl_keep) | (with_reducible apply foldl_keep_fst) | split | (dsimp only [id])))

theorem execVopMul_keep {T U : Prop} {r : State} {x0} {x1} {x2} (h : Keep T U r x2) : Keep T U r (@execVopMul x0 x1 x2) := by
  unfold execVopMul
  (try dsimp only)
  repeat' (first | (with_reducible assumption) | (with_reducible exact fun _ => rfl) | (with_reducible exact fun x => False.elim x) | (with_reducible apply issueVop_keep) | (with_reducible apply foldl_keep) | (with_reducible apply foldl_keep_fst) | split | (intro _) | (dsimp only [id]) | (with_reducible apply Keep.upd; first | (with_reducible assumption) | (with_reducible exact fun _ => rfl) | (with_reducible exact fun x => False.elim x) | (with_reducible apply issueVop_keep) | (with_reducible apply foldl_keep) | (with_reducible apply foldl_keep_fst) | split | (dsimp only [id])))

theorem execVopDiv_keep {T U : Prop} {r : State} {x0} {x1} {x2} (h : Keep T U r x2) : Keep T U r (@execVopDiv x0 x1 x2) := by
  unfold execVopDiv
  (try dsimp only)
  repeat' (first | (with_reducible assumption) | (with_reducible exact fun _ => rfl) | (with_reducible exact fun x => False.elim x) | (with_reducible apply issueVop_keep) | (with_reducible apply foldl_keep) | (with_reducible apply foldl_keep_fst) | split | (intro _) | (dsimp only [id]) | (with_reducible apply Keep.upd; first | (with_reducible assumption) | (with_reducible exact fun _ => rfl) | (with_reducible exact fun x => False.elim x) | (with_reducible apply issueVop_keep) | (with_reducible apply foldl_keep) | (with_reducible apply foldl_keep_fst) | split | (dsimp only [id])))

theorem execVopMin_keep {T U : Prop} {r : State} {x0} {x1} {x2} (h : Keep T U r x2) : Keep T U r (@execVopMin x0 x1 x2) := by
  unfold execVopMin
  (try dsimp only)
  repeat' (first | (with_reducible assumption) | (with_reducible exact fun _ => rfl) | (with_reducible exact fun x => False.elim x) | (with_reducible apply issueVop_keep) | (with_reducible apply foldl_keep) | (with_reducible apply foldl_keep_fst) | split | (intro _) | (dsimp only [id]) | (with_reducible apply Keep.upd; first | (with_reducible assumption) | (with_reducible exact fun _ => rfl) | (with_reducible exact fun x => False.elim x) | (with_reducible apply issueVop_keep) | (with_reducible apply foldl_keep) | (with_reducible apply foldl_keep_fst) | split | (dsimp only [id])))

theorem execVopMax_keep {T U : Prop} {r : State} {x0} {x1} {x2} (h : Keep T U r x2) : Keep T U r (@execVopMax x0 x1 x2) := by
  unfold execVopMax
  (try dsimp only)
  repeat' (first | (with_reducible assumption) | (with_reducible exact fun _ => rfl) | (with_reducible exact fun x => False.elim x) | (with_reducible apply issueVop_keep) | (with_reducible apply foldl_keep) | (with_reducible apply foldl_keep_fst) | split | (intro _) | (dsimp only [id]) | (with_reducible apply Keep.upd; first | (with_reducible assumption) | (with_reducible exact fun _ => rfl) | (with_reducible exact fun x => False.elim x) | (with_reducible apply issueVop_keep) | (with_reducible apply foldl_keep) | (with_reducible apply foldl_keep_fst) | split | (dsimp only [id])))

theorem execVopFma_keep {T U : Prop} {r : State} {x0} {x1} {x2} (h : Keep T U r x2) : Keep T U r (@execVopFma x0 x1 x2) := by
  unfold execVopFma
  (try dsimp only)
  repeat' (first | (with_reducible assumption) | (with_reducible exact fun _ => rfl) | (with_reducible exact fun x => False.elim x) | (with_reducible apply issueVop_keep) | (with_reducible apply foldl_keep) | (with_reducible apply foldl_keep_fst) | split | (intro _) | (dsimp only [id]) | (with_reducible apply Keep.upd; first | (with_reducible assumption) | (with_reducible exact fun _ => rfl) | (with_reducible exact fun x => False.elim x) | (with_reducible apply issueVop_keep) | (with_reducible apply foldl_keep) | (with_reducible apply foldl_keep_fst) | split | (dsimp only [id])))

theorem execVopAbs_keep {T U : Prop} {r : State} {x0} {x1} {x2} (h : Keep T U r x2) : Keep T U r (@execVopAbs x0 x1 x2) := by
  unfold execVopAbs
  (try dsimp only)
  repeat' (first | (with_reducible assumption) | (with_reducible exact fun _ => rfl) | (with_reducible exact fun x => False.elim x) | (with_reducible apply issueVop_keep) | (with_reducible apply foldl_keep) | (with_reducible apply foldl_keep_fst) | split | (intro _) | (dsimp only [id]) | (with_reducible apply Keep.upd; first | (with_reducible assumption) | (with_reducible exact fun _ => rfl) | (with_reducible exact fun x => False.elim x) | (with_reducible apply issueVop_keep) | (with_reducible apply foldl_keep) | (with_reducible apply foldl_keep_fst) | split | (dsimp only [id])))

theorem execVopNeg_keep {T U : Prop} {r : State} {x0} {x1} {x2} (h : Keep T U r x2) : Keep T U r (@execVopNeg x0 x1 x2) := by
  unfold execVopNeg
  (try dsimp only)
  repeat' (first | (with_reducible assumption) | (with_reducible exact fun _ => rfl) | (with_reducible exact fun x => False.elim x) | (with_reducible apply issueVop_keep) | (with_reducible apply foldl_keep) | (with_reducible apply foldl_keep_fst) | split | (intro _) | (dsimp only [id]) | (with_reducible apply Keep.upd; first | (with_reducible assumption) | (with_reducible exact fun _ => rfl) | (with_reducible exact fun x => False.elim x) | (with_reducible apply issueVop_keep) | (with_reducible apply foldl_keep) | (with_reducible apply foldl_keep_fst) | split | (dsimp only [id])))

theorem execVopSqrt_keep {T U : Prop} {r : State} {x0} {x1} {x2} (h : Keep T U r x2) : Keep T U r (@execVopSqrt x0 x1 x2) := by
  unfold execVopSqrt
  (try dsimp only)
  repeat' (first | (with_reducible assumption) | (with_reducible exact fun _ => rfl) | (with_reducible exact fun x => False.elim x) | (with_reducible apply issueVop_keep) | (with_reducible apply foldl_keep) | (with_reducible apply foldl_keep_fst) | split | (intro _) | (dsimp only [id]) | (with_reducible apply Keep.upd; first | (with_reducible assumption) | (with_reducible exact fun _ => rfl) | (with_reducible exact fun x => False.elim x) | (with_reducible apply issueVop_keep) | (with_reducible apply foldl_keep) | (with_reducible apply foldl_keep_fst) | split | (dsimp only [id])))

theorem execVopRsqrt_keep {T U : Prop} {r : State} {x0} {x1} {x2} (h : Keep T U r x2) : Keep T U r (@execVopRsqrt x0 x1 x2) := by
  unfold execVopRsqrt
  (try dsimp only)
  repeat' (first | (with_reducible assumption) | (with_reducible exact fun _ => rfl) | (with_reducible exact fun x => False.elim x) | (with_reducible apply issueVop_keep) | (with_reducible apply foldl_keep) | (with_reducible apply foldl_keep_fst) | split | (intro _) | (dsimp only [id]) | (with_reducible apply Keep.upd; first | (with_reducible assumption) | (with_reducible exact fun _ => rfl) | (with_reducible exact fun x => False.elim x) | (with_reducible apply issueVop_keep) | (with_reducible apply foldl_keep) | (with_reducible apply foldl_keep_fst) | split | (dsimp only [id])))

theorem execVopRecip_keep {T U : Prop} {r : State} {x0} {x1} {x2} (h : Keep T U r x2) : Keep T U r (@execVopRecip x0 x1 x2) := by
  unfold execVopRecip
  (try dsimp only)
  repeat' (first | (with_reducible assumption) | (with_reducible exact fun _ => rfl) | (with_reducible exact fun x => False.elim x) | (with_reducible apply issueVop_keep) | (with_reducible apply foldl_keep) | (with_reducible apply foldl_keep_fst) | split | (intro _) | (dsimp only [id]) | (with_reducible apply Keep.upd; first | (with_reducible assumption) | (with_reducible exact fun _ => rfl) | (with_reducible exact fun x => False.elim x) | (with_reducible apply issueVop_keep) | (with_reducible apply foldl_keep) | (with_reducible apply foldl_keep_fst) | split | (dsimp only [id])))

theorem execVopExp_keep {T U : Prop} {r : State} {x0} {x1} {x2} (h : Keep T U r x2) : Keep T U r (@execVopExp x0 x1 x2) := by
  unfold execVopExp
  (try dsimp only)
  repeat' (first | (with_reducible assumption) | (with_reducible exact fun _ => rfl) | (with_reducible exact fun x => False.elim x) | (with_reducible apply issueVop_keep) | (with_reducible apply foldl_keep) | (with_reducible apply foldl_keep_fst) | split | (intro _) | (dsimp only [id]) | (with_reducible apply Keep.upd; first | (with_reducible assumption) | (with_reducible exact fun _ => rfl) | (with_reducible exact fun x => False.elim x) | (with_reducible apply issueVop_keep) | (with_reducible apply foldl_keep) | (with_reducible apply foldl_keep_fst) | split | (dsimp only [id])))

theorem execVopLog_keep {T U : Prop} {r : State} {x0} {x1} {x2} (h : Keep T U r x2) : Keep T U r (@execVopLog x0 x1 x2) := by
  unfold execVopLog
  (try dsimp only)
  repeat' (first | (with_reducible assumption) | (with_reducible exact fun _ => rfl) | (with_reducible exact fun x => False.elim x) | (with_reducible apply issueVop_keep) | (with_reducible apply foldl_keep) | (with_reducible apply foldl_keep_fst) | split | (intro _) | (dsimp only [id]) | (with_reducible apply Keep.upd; first | (with_reducible assumption) | (with_reducible exact fun _ => rfl) | (with_reducible exact fun x => False.elim x) | (with_reducible apply issueVop_keep) | (with_reducible apply foldl_keep) | (with_reducible apply foldl_keep_fst) | split | (dsimp only [id])))

theorem execVopTanh_keep {T U : Prop} {r : State} {x0} {x1} {x2} (h : Keep T U r x2) : Keep T U r (@execVopTanh x0 x1 x2) := by
  unfold execVopTanh
  (try dsimp only)
  repeat' (first | (with_reducible assumption) | (with_reducible exact fun _ => rfl) | (with_reducible exact fun x => False.elim x) | (with_reducible apply issueVop_keep) | (with_reducible apply foldl_keep) | (with_reducible apply foldl_keep_fst) | split | (intro _) | (dsimp only [id]) | (with_reducible apply Keep.upd; first | (with_reducible assumption) | (with_reducible exact fun _ => rfl) | (with_reducible exact fun x => False.elim x) | (with_reducible apply issueVop_keep) | (with_reducible apply foldl_keep) | (with_reducible apply foldl_keep_fst) | split | (dsimp only [id])))

theorem execVopSigmoid_keep {T U : Prop} {r : State} {x0} {x1} {x2} (h : Keep T U r x2) : Keep T U r (@execVopSigmoid x0 x1 x2) := by
  unfold execVopSigmoid
  (try dsimp only)
  repeat' (first | (with_reducible assumption) | (with_reducible exact fun _ => rfl) | (with_reducible exact fun x => False.elim x) | (with_reducible apply issueVop_keep) | (with_reducible apply foldl_keep) | (with_reducible apply foldl_keep_fst) | split | (intro _) | (dsimp only [id]) | (with_reducible apply Keep.upd; first | (with_reducible assumption) | (with_reducible exact fun _ => rfl) | (with_reducible exact fun x => False.elim x) | (with_reducible apply issueVop_keep) | (with_reducible apply foldl_keep) | (with_reducible apply foldl_keep_fst) | split | (dsimp only [id])))

theorem execVopSilu_keep {T U : Prop} {r : State} {x0} {x1} {x2} (h : Keep T U r x2) : Keep T U r (@execVopSilu x0 x1 x2) := by
  unfold execVopSilu
  (try dsimp only)
  repeat' (first | (with_reducible assumption) | (with_reducible exact fun _ => rfl) | (with_reducible exact fun x => False.elim x) | (with_reducible apply issueVop_keep) | (with_reducible apply foldl_keep) | (with_reducible apply foldl_keep_fst) | split | (intro _) | (dsimp only [id]) | (with_reducible apply Keep.upd; first | (with_reducible assumption) | (with_reducible exact fun _ => rfl) | (with_reducible exact fun x => False.elim x) | (with_reducible apply issueVop_keep) | (with_reducible apply foldl_keep) | (with_reducible apply foldl_keep_fst) | split | (dsimp only [id])))

theorem execVopRsum_keep {T U : Prop} {r : State} {x0} {x1} {x2} (h : Keep T U r x2) : Keep T U r (@execVopRsum x0 x1 x2) := by
  unfold execVopRsum
  (try dsimp only)
  repeat' (first | (with_reducible assumption) | (with_reducible exact fun _ => rfl) | (with_reducible exact fun x => False.elim x) | (with_reducible apply issueVop_keep) | (with_reducible apply foldl_keep) | (with_reducible apply foldl_keep_fst) | split | (intro _) | (dsimp only [id]) | (with_reducible apply Keep.upd; first | (with_reducible assumption) | (with_reducible exact fun _ => rfl) | (with_reducible exact fun x => False.elim x) | (with_reducible apply issueVop_keep) | (with_reducible apply foldl_keep) | (with_reducible apply foldl_keep_fst) | split | (dsimp only [id])))

theorem execVopRmax_keep {T U : Prop} {r : State} {x0} {x1} {x2} (h : Keep T U r x2) : Keep T U r (@execVopRmax x0 x1 x2) := by
  unfold execVopRmax
  (try dsimp only)
  repeat' (first | (with_reducible assumption) | (with_reducible exact fun _ => rfl) | (with_reducible exact fun x => False.elim x) | (with_reducible apply issueVop_keep) | (with_reducible apply foldl_keep) | (with_reducible apply foldl_keep_fst) | split | (intro _) | (dsimp only [id]) | (with_reducible apply Keep.upd; first | (with_reducible assumption) | (with_reducible exact fun _ => rfl) | (with_reducible exact fun x => False.elim x) | (with_reducible apply issueVop_keep) | (with_reducible apply foldl_keep) | (with_reducible apply foldl_keep_fst) | split | (dsimp only [id])))

theorem execVopAmax_keep {T U : Prop} {r : State} {x0} {x1} {x2} (h : Keep T U r x2) : Keep T U r (@execVopAmax x0 x1 x2) := by
  unfold execVopAmax
  (try dsimp only)
  repeat' (first | (with_reducible assumption) | (with_reducible exact fun _ => rfl) | (with_reducible exact fun x => False.elim x) | (with_reducible apply issueVop_keep) | (with_reducible apply foldl_keep) | (with_reducible apply foldl_keep_fst) | split | (intro _) | (dsimp only [id]) | (with_reducible apply Keep.upd; first | (with_reducible assumption) | (with_reducible exact fun _ => rfl) | (with_reducible exact fun x => False.elim x) | (with_reducible apply issueVop_keep) | (with_reducible apply foldl_keep) | (with_reducible apply foldl_keep_fst) | split | (dsimp only [id])))

theorem execVopSumsq_keep {T U : Prop} {r : State} {x0} {x1} {x2} (h : Keep T U r x2) : Keep T U r (@execVopSumsq x0 x1 x2) := by
  unfold execVopSumsq
  (try dsimp only)
  repeat' (first | (with_reducible assumption) | (with_reducible exact fun _ => rfl) | (with_reducible exact fun x => False.elim x) | (with_reducible apply issueVop_keep) | (with_reducible apply foldl_keep) | (with_reducible apply foldl_keep_fst) | split | (intro _) | (dsimp only [id]) | (with_reducible apply Keep.upd; first | (with_reducible assumption) | (with_reducible exact fun _ => rfl) | (with_reducible exact fun x => False.elim x) | (with_reducible apply issueVop_keep) | (with_reducible apply foldl_keep) | (with_reducible apply foldl_keep_fst) | split | (dsimp only [id])))

theorem execVopSum_keep {T U : Prop} {r : State} {x0} {x1} {x2} (h : Keep T U r x2) : Keep T U r (@execVopSum x0 x1 x2) := by
  unfold execVopSum
  (try dsimp only)
  repeat' (first | (with_reducible assumption) | (with_reducible exact fun _ => rfl) | (with_reducible exact fun x => False.elim x) | (with_reducible apply issueVop_keep) | (with_reducible apply foldl_keep) | (with_reducible apply foldl_keep_fst) | split | (intro _) | (dsimp only [id]) | (with_reducible apply Keep.upd; first | (with_reducible assumption) | (with_reducible exact fun _ => rfl) | (with_reducible exact fun x => False.elim x) | (with_reducible apply issueVop_keep) | (with_reducible apply foldl_keep) | (with_reducible apply foldl_keep_fst) | split | (dsimp only [id])))

theorem execVopSoftmax_keep {T U : Prop} {r : State} {x0} {x1} {x2} (h : Keep T U r x2) : Keep T U r (@execVopSoftmax x0 x1 x2) := by
  unfold execVopSoftmax
  (try dsimp only)
  repeat' (first | (with_reducible assumption) | (with_reducible exact fun _ => rfl) | (with_reducible exact fun x => False.elim x) | (with_reducible apply issueVop_keep) | (with_reducible apply foldl_keep) | (with_reducible apply foldl_keep_fst) | split | (intro _) | (dsimp only [id]) | (with_reducible apply Keep.upd; first | (with_reducible assumption) | (with_reducible exact fun _ => rfl) | (with_reducible exact fun x => False.elim x) | (with_reducible apply issueVop_keep) | (with_reducible apply foldl_keep) | (with_reducible apply foldl_keep_fst) | split | (dsimp only [id])))

theorem execVopLse_keep {T U : Prop} {r : State} {x0} {x1} {x2} (h : Keep T U r x2) : Keep T U r (@execVopLse x0 x1 x2) := by
  unfold execVopLse
  (try dsimp only)
  repeat' (first | (with_reducible assumption) | (with_reducible exact fun _ => rfl) | (with_reducible exact fun x => False.elim x) | (with_reducible apply issueVop_keep) | (with_reducible apply foldl_keep) | (with_reducible apply foldl_keep_fst) | split | (intro _) | (dsimp only [id]) | (with_reducible apply Keep.upd; first | (with_reducible assumption) | (with_reducible exact fun _ => rfl) | (with_reducible exact fun x => False.elim x) | (with_reducible apply issueVop_keep) | (with_reducible apply foldl_keep) | (with_reducible apply foldl_keep_fst) | split | (dsimp only [id])))

theorem execVopRmsnorm_keep {T U : Prop} {r : State} {x0} {x1} {x2} (h : Keep T U r x2) : Keep T U r (@execVopRmsnorm x0 x1 x2) := by
  unfold execVopRmsnorm
  (try dsimp only)
  repeat' (first | (with_reducible assumption) | (with_reducible exact fun _ => rfl) | (with_reducible exact fun x => False.elim x) | (with_reducible apply issueVop_keep) | (with_reducible apply foldl_keep) | (with_reducible apply foldl_keep_fst) | split | (intro _) | (dsimp only [id]) | (with_reducible apply Keep.upd; first | (with_reducible assumption) | (with_reducible exact fun _ => rfl) | (with_reducible exact fun x => False.elim x) | (with_reducible apply issueVop_keep) | (with_reducible apply foldl_keep) | (with_reducible apply foldl_keep_fst) | split | (dsimp only [id])))

theorem execVopLayernorm_keep {T U : Prop} {r : State} {x0} {x1} {x2} (h : Keep T U r x2) : Keep T U r (@execVopLayernorm x0 x1 x2) := by
  unfold execVopLayernorm
  (try dsimp only)
  repeat' (first | (with_reducible assumption) | (with_reducible exact fun _ => rfl) | (with_reducible exact fun x => False.elim x) | (with_reducible apply issueVop_keep) | (with_reducible apply foldl_keep) | (with_reducible apply foldl_keep_fst) | split | (intro _) | (dsimp only [id]) | (with_reducible apply Keep.upd; first | (with_reducible assumption) | (with_reducible exact fun _ => rfl) | (with_reducible exact fun x => False.elim x) | (with_reducible apply issueVop_keep) | (with_reducible apply foldl_keep) | (with_reducible apply foldl_keep_fst) | split | (dsimp only [id])))

theorem execVopXent_keep {T U : Prop} {r : State} {x0} {x1} {x2} (h : Keep T U r x2) : Keep T U r (@execVopXent x0 x1 x2) := by
  unfold execVopXent
  (try dsimp only)
  repeat' (first | (with_reducible assumption) | (with_reducible exact fun _ => rfl) | (with_reducible exact fun x => False.elim x) | (with_reducible apply issueVop_keep) | (with_reducible apply foldl_keep) | (with_reducible apply foldl_keep_fst) | split | (intro _) | (dsimp only [id]) | (with_reducible apply Keep.upd; first | (with_reducible assumption) | (with_reducible exact fun _ => rfl) | (with_reducible exact fun x => False.elim x) | (with_reducible apply issueVop_keep) | (with_reducible apply foldl_keep) | (with_reducible apply foldl_keep_fst) | split | (dsimp only [id])))

theorem execVopXgrad_keep {T U : Prop} {r : State} {x0} {x1} {x2} (h : Keep T U r x2) : Keep T U r (@execVopXgrad x0 x1 x2) := by
  unfold execVopXgrad
  (try dsimp only)
  repeat' (first | (with_reducible assumption) | (with_reducible exact fun _ => rfl) | (with_reducible exact fun x => False.elim x) | (with_reducible apply issueVop_keep) | (with_reducible apply foldl_keep) | (with_reducible apply foldl_keep_fst) | split | (intro _) | (dsimp only [id]) | (with_reducible apply Keep.upd; first | (with_reducible assumption) | (with_reducible exact fun _ => rfl) | (with_reducible exact fun x => False.elim x) | (with_reducible apply issueVop_keep) | (with_reducible apply foldl_keep) | (with_reducible apply foldl_keep_fst) | split | (dsimp only [id])))

theorem execVopQrow_keep {T U : Prop} {r : State} {x0} {x1} {x2} (h : Keep T U r x2) : Keep T U r (@execVopQrow x0 x1 x2) := by
  unfold execVopQrow
  (try dsimp only)
  repeat' (first | (with_reducible assumption) | (with_reducible exact fun _ => rfl) | (with_reducible exact fun x => False.elim x) | (with_reducible apply issueVop_keep) | (with_reducible apply foldl_keep) | (with_reducible apply foldl_keep_fst) | split | (intro _) | (dsimp only [id]) | (with_reducible apply Keep.upd; first | (with_reducible assumption) | (with_reducible exact fun _ => rfl) | (with_reducible exact fun x => False.elim x) | (with_reducible apply issueVop_keep) | (with_reducible apply foldl_keep) | (with_reducible apply foldl_keep_fst) | split | (dsimp only [id])))

theorem execVopQtensor_keep {T U : Prop} {r : State} {x0} {x1} {x2} (h : Keep T U r x2) : Keep T U r (@execVopQtensor x0 x1 x2) := by
  unfold execVopQtensor
  (try dsimp only)
  repeat' (first | (with_reducible assumption) | (with_reducible exact fun _ => rfl) | (with_reducible exact fun x => False.elim x) | (with_reducible apply issueVop_keep) | (with_reducible apply foldl_keep) | (with_reducible apply foldl_keep_fst) | split | (intro _) | (dsimp only [id]) | (with_reducible apply Keep.upd; first | (with_reducible assumption) | (with_reducible exact fun _ => rfl) | (with_reducible exact fun x => False.elim x) | (with_reducible apply issueVop_keep) | (with_reducible apply foldl_keep) | (with_reducible apply foldl_keep_fst) | split | (dsimp only [id])))

theorem execVopMxq_keep {T U : Prop} {r : State} {x0} {x1} {x2} (h : Keep T U r x2) : Keep T U r (@execVopMxq x0 x1 x2) := by
  unfold execVopMxq
  (try dsimp only)
  repeat' (first | (with_reducible assumption) | (with_reducible exact fun _ => rfl) | (with_reducible exact fun x => False.elim x) | (with_reducible apply issueVop_keep) | (with_reducible apply foldl_keep) | (with_reducible apply foldl_keep_fst) | split | (intro _) | (dsimp only [id]) | (with_reducible apply Keep.upd; first | (with_reducible assumption) | (with_reducible exact fun _ => rfl) | (with_reducible exact fun x => False.elim x) | (with_reducible apply issueVop_keep) | (with_reducible apply foldl_keep) | (with_reducible apply foldl_keep_fst) | split | (dsimp only [id])))

theorem execVopDeq_keep {T U : Prop} {r : State} {x0} {x1} {x2} (h : Keep T U r x2) : Keep T U r (@execVopDeq x0 x1 x2) := by
  unfold execVopDeq
  (try dsimp only)
  repeat' (first | (with_reducible assumption) | (with_reducible exact fun _ => rfl) | (with_reducible exact fun x => False.elim x) | (with_reducible apply issueVop_keep) | (with_reducible apply foldl_keep) | (with_reducible apply foldl_keep_fst) | split | (intro _) | (dsimp only [id]) | (with_reducible apply Keep.upd; first | (with_reducible assumption) | (with_reducible exact fun _ => rfl) | (with_reducible exact fun x => False.elim x) | (with_reducible apply issueVop_keep) | (with_reducible apply foldl_keep) | (with_reducible apply foldl_keep_fst) | split | (dsimp only [id])))

theorem execVopRescale_keep {T U : Prop} {r : State} {x0} {x1} {x2} (h : Keep T U r x2) : Keep T U r (@execVopRescale x0 x1 x2) := by
  unfold execVopRescale
  (try dsimp only)
  repeat' (first | (with_reducible assumption) | (with_reducible exact fun _ => rfl) | (with_reducible exact fun x => False.elim x) | (with_reducible apply issueVop_keep) | (with_reducible apply foldl_keep) | (with_reducible apply foldl_keep_fst) | split | (intro _) | (dsimp only [id]) | (with_reducible apply Keep.upd; first | (with_reducible assumption) | (with_reducible exact fun _ => rfl) | (with_reducible exact fun x => False.elim x) | (with_reducible apply issueVop_keep) | (with_reducible apply foldl_keep) | (with_reducible apply foldl_keep_fst) | split | (dsimp only [id])))

theorem execVopHist_keep {T U : Prop} {r : State} {x0} {x1} {x2} (h : Keep T U r x2) : Keep T U r (@execVopHist x0 x1 x2) := by
  unfold execVopHist
  (try dsimp only)
  repeat' (first | (with_reducible assumption) | (with_reducible exact fun _ => rfl) | (with_reducible exact fun x => False.elim x) | (with_reducible apply issueVop_keep) | (with_reducible apply foldl_keep) | (with_reducible apply foldl_keep_fst) | split | (intro _) | (dsimp only [id]) | (with_reducible apply Keep.upd; first | (with_reducible assumption) | (with_reducible exact fun _ => rfl) | (with_reducible exact fun x => False.elim x) | (with_reducible apply issueVop_keep) | (with_reducible apply foldl_keep) | (with_reducible apply foldl_keep_fst) | split | (dsimp only [id])))

theorem execCrc_keep {T U : Prop} {r : State} {x0} {x1} {x2} (h : Keep T U r x2) : Keep T U r (@execCrc x0 x1 x2) := by
  unfold execCrc
  (try dsimp only)
  repeat' (first | (with_reducible assumption) | (with_reducible exact fun _ => rfl) | (with_reducible exact fun x => False.elim x) | (with_reducible apply issue_keep) | (with_reducible apply State.issueVec_keep) | (with_reducible apply foldl_keep) | (with_reducible apply foldl_keep_fst) | split | (intro _) | (dsimp only [id]) | (with_reducible apply Keep.upd; first | (with_reducible assumption) | (with_reducible exact fun _ => rfl) | (with_reducible exact fun x => False.elim x) | (with_reducible apply issue_keep) | (with_reducible apply State.issueVec_keep) | (with_reducible apply foldl_keep) | (with_reducible apply foldl_keep_fst) | split | (dsimp only [id])))

theorem execVget_keep {T U : Prop} {r : State} {x0} {x1} {x2} (h : Keep T U r x2) : Keep T U r (@execVget x0 x1 x2) := by
  unfold execVget
  (try dsimp only)
  repeat' (first | (with_reducible assumption) | (with_reducible exact fun _ => rfl) | (with_reducible exact fun x => False.elim x) | (with_reducible apply issue_keep) | (with_reducible apply State.advance_keep) | (with_reducible apply State.modCore_keep) | (with_reducible apply foldl_keep) | (with_reducible apply foldl_keep_fst) | split | (intro _) | (dsimp only [id]) | (with_reducible apply Keep.upd; first | (with_reducible assumption) | (with_reducible exact fun _ => rfl) | (with_reducible exact fun x => False.elim x) | (with_reducible apply issue_keep) | (with_reducible apply State.advance_keep) | (with_reducible apply State.modCore_keep) | (with_reducible apply foldl_keep) | (with_reducible apply foldl_keep_fst) | split | (dsimp only [id])))

theorem execVflg_keep {T U : Prop} {r : State} {x0} {x1} {x2} (h : Keep T U r x2) : Keep T U r (@execVflg x0 x1 x2) := by
  unfold execVflg
  (try dsimp only)
  repeat' (first | (with_reducible assumption) | (with_reducible exact fun _ => rfl) | (with_reducible exact fun x => False.elim x) | (with_reducible apply issue_keep) | (with_reducible apply State.advance_keep) | (with_reducible apply State.modCore_keep) | (with_reducible apply foldl_keep) | (with_reducible apply foldl_keep_fst) | split | (intro _) | (dsimp only [id]) | (with_reducible apply Keep.upd; first | (with_reducible assumption) | (with_reducible exact fun _ => rfl) | (with_reducible exact fun x => False.elim x) | (with_reducible apply issue_keep) | (with_reducible apply State.advance_keep) | (with_reducible apply State.modCore_keep) | (with_reducible apply foldl_keep) | (with_reducible apply foldl_keep_fst) | split | (dsimp only [id])))

theorem execFupd_keep {T U : Prop} {r : State} {x0} {x1} {x2} (h : Keep T U r x2) : Keep T U r (@execFupd x0 x1 x2) := by
  unfold execFupd
  (try dsimp only)
  repeat' (first | (with_reducible assumption) | (with_reducible exact fun _ => rfl) | (with_reducible exact fun x => False.elim x) | (with_reducible apply issue_keep) | (with_reducible apply State.issueVec_keep) | (with_reducible apply State.noteCorrected_keep) | (with_reducible apply State.advance_keep) | (with_reducible apply State.engineErr_keep) | (with_reducible apply foldl_keep) | (with_reducible apply foldl_keep_fst) | split | (intro _) | (dsimp only [id]) | (with_reducible apply Keep.upd; first | (with_reducible assumption) | (with_reducible exact fun _ => rfl) | (with_reducible exact fun x => False.elim x) | (with_reducible apply issue_keep) | (with_reducible apply State.issueVec_keep) | (with_reducible apply State.noteCorrected_keep) | (with_reducible apply State.advance_keep) | (with_reducible apply State.engineErr_keep) | (with_reducible apply foldl_keep) | (with_reducible apply foldl_keep_fst) | split | (dsimp only [id])))

theorem execVectorOpStart_keep {T U : Prop} {r : State} {x0} {x1} (h : Keep T U r x1) : Keep T U r (@execVectorOpStart x0 x1) := by
  unfold execVectorOpStart
  (try dsimp only)
  repeat' (first | (with_reducible assumption) | (with_reducible exact fun _ => rfl) | (with_reducible exact fun x => False.elim x) | (with_reducible apply State.setCore_keep) | (with_reducible apply foldl_keep) | (with_reducible apply foldl_keep_fst) | split | (intro _) | (dsimp only [id]) | (with_reducible apply Keep.upd; first | (with_reducible assumption) | (with_reducible exact fun _ => rfl) | (with_reducible exact fun x => False.elim x) | (with_reducible apply State.setCore_keep) | (with_reducible apply foldl_keep) | (with_reducible apply foldl_keep_fst) | split | (dsimp only [id])))

theorem State.scribble_keep {T U : Prop} {r : State} {x0} {x1} (h : Keep T U r x0) : Keep T U r (@State.scribble x0 x1) := by
  unfold State.scribble
  apply foldl_keep _ _ _ h
  intro t x ht
  exact Keep.updMem ht (Memory.wf_writeN _ _ _)

theorem State.endVec_keep {T U : Prop} {r : State} {x0} {x1} {x2} {x3} {x4} {x5} (h : Keep T U r x0) : Keep T U r (@State.endVec x0 x1 x2 x3 x4 x5) := by
  unfold State.endVec
  (try dsimp only)
  repeat' (first | (with_reducible assumption) | (with_reducible exact fun _ => rfl) | (with_reducible exact fun x => False.elim x) | (with_reducible apply State.modCore_keep) | (with_reducible apply State.bump_keep) | (with_reducible apply foldl_keep) | (with_reducible apply foldl_keep_fst) | split | (intro _) | (dsimp only [id]) | (with_reducible apply Keep.upd; first | (with_reducible assumption) | (with_reducible exact fun _ => rfl) | (with_reducible exact fun x => False.elim x) | (with_reducible apply State.modCore_keep) | (with_reducible apply State.bump_keep) | (with_reducible apply foldl_keep) | (with_reducible apply foldl_keep_fst) | split | (dsimp only [id])))

theorem execVectorOpDone_keep {T U : Prop} {r : State} {x0} {x1} (h : Keep T U r x1) : Keep T U r (@execVectorOpDone x0 x1) := by
  unfold execVectorOpDone
  (try dsimp only)
  repeat' (first | (with_reducible assumption) | (with_reducible exact fun _ => rfl) | (with_reducible exact fun x => False.elim x) | (with_reducible apply State.endVec_keep) | (with_reducible apply State.engineErr_keep) | (with_reducible apply State.scribble_keep) | (with_reducible apply State.landRanges_keep) | (with_reducible apply State.noteCorrected_keep) | (with_reducible apply State.logOverflow_keep) | (with_reducible apply foldl_keep) | (with_reducible apply foldl_keep_fst) | split | (intro _) | (dsimp only [id]) | (with_reducible apply Keep.upd; first | (with_reducible assumption) | (with_reducible exact fun _ => rfl) | (with_reducible exact fun x => False.elim x) | (with_reducible apply State.endVec_keep) | (with_reducible apply State.engineErr_keep) | (with_reducible apply State.scribble_keep) | (with_reducible apply State.landRanges_keep) | (with_reducible apply State.noteCorrected_keep) | (with_reducible apply State.logOverflow_keep) | (with_reducible apply foldl_keep) | (with_reducible apply foldl_keep_fst) | split | (dsimp only [id])))

theorem State.closeCores_keep {T U : Prop} {r : State} {x0} {x1} (h : Keep T U r x0) : Keep T U r (@State.closeCores x0 x1) := by
  unfold State.closeCores
  (try dsimp only)
  repeat' (first | (with_reducible assumption) | (with_reducible exact fun _ => rfl) | (with_reducible exact fun x => False.elim x) | (with_reducible apply State.late_keep) | (with_reducible apply State.modSeat_keep) | (with_reducible apply State.bump_keep) | (with_reducible apply foldl_keep) | (with_reducible apply foldl_keep_fst) | split | (intro _) | (dsimp only [id]) | (with_reducible apply Keep.upd; first | (with_reducible assumption) | (with_reducible exact fun _ => rfl) | (with_reducible exact fun x => False.elim x) | (with_reducible apply State.late_keep) | (with_reducible apply State.modSeat_keep) | (with_reducible apply State.bump_keep) | (with_reducible apply foldl_keep) | (with_reducible apply foldl_keep_fst) | split | (dsimp only [id])))

theorem State.coreNorm_keep {T U : Prop} {r : State} {x0} {x1} {x2} {x3} (h : Keep T U r x0) : Keep T U r (@State.coreNorm x0 x1 x2 x3).1 := by
  unfold State.coreNorm
  have a := State.libRead_keep (x1 := x1) (x2 := x2) (x3 := 8) h
  generalize State.libRead x0 x1 x2 8 = e at a
  obtain ⟨t, o⟩ := e
  cases o with
  | none => exact a
  | some bs =>
    dsimp only
    have b := State.libRead_keep (x1 := x1) (x2 := x2 + 16) (x3 := 16 * Nat.min (ofLe bs) 32767) a
    dsimp only at b
    generalize State.libRead t x1 (x2 + 16) (16 * Nat.min (ofLe bs) 32767) = e at b
    obtain ⟨u, o⟩ := e
    cases o with
    | none => exact b
    | some _ => exact b

theorem State.fieldNorm_keep {T U : Prop} {r : State} {x0} {x1} {x2} (h : Keep T U r x0) : Keep T U r (@State.fieldNorm x0 x1 x2).1 := by
  unfold State.fieldNorm
  exact foldl_keep_fst _ _ _ h (fun q c hq => State.coreNorm_keep hq)

theorem State.addNorm_keep {T U : Prop} {r : State} {f g : Nat} {q : State × Fv} (h : Keep T U r q.1) : Keep T U r (State.addNorm f q g).1 := by
  unfold State.addNorm
  exact Keep.pair _ (State.fieldNorm_keep h)

theorem State.seatNorm_keep {T U : Prop} {r : State} {x0} {x1} (h : Keep T U r x0) : Keep T U r (@State.seatNorm x0 x1).1 := by
  unfold State.seatNorm
  exact Keep.pair _ (foldl_keep_fst _ _ _ h (fun q c hq => State.addNorm_keep hq))

theorem State.closeWord_keep {T U : Prop} {r : State} {x0} {x1} (h : Keep T U r x0) : Keep T U r (@State.closeWord x0 x1) := by
  unfold State.closeWord
  (try dsimp only)
  repeat' (first | (with_reducible assumption) | (with_reducible exact fun _ => rfl) | (with_reducible exact fun x => False.elim x) | (with_reducible apply State.seatNorm_keep) | (with_reducible apply State.modTt_keep) | (with_reducible apply foldl_keep) | (with_reducible apply foldl_keep_fst) | (refine Keep.of_pair (by assumption) ?_) | split | (intro _) | (dsimp only [id]) | (with_reducible apply Keep.upd; first | (with_reducible assumption) | (with_reducible exact fun _ => rfl) | (with_reducible exact fun x => False.elim x) | (with_reducible apply State.seatNorm_keep) | (with_reducible apply State.modTt_keep) | (with_reducible apply foldl_keep) | (with_reducible apply foldl_keep_fst) | (refine Keep.of_pair (by assumption) ?_) | split | (dsimp only [id])))

theorem State.closeRx_keep {T U : Prop} {r : State} {x0} {x1} (h : Keep T U r x0) : Keep T U r (@State.closeRx x0 x1) := by
  unfold State.closeRx
  (try dsimp only)
  repeat' (first | (with_reducible assumption) | (with_reducible exact fun _ => rfl) | (with_reducible exact fun x => False.elim x) | (with_reducible apply eachOf_keep) | (with_reducible apply State.modLink_keep) | (with_reducible apply foldl_keep) | (with_reducible apply foldl_keep_fst) | split | (intro _) | (dsimp only [id]) | (with_reducible apply Keep.upd; first | (with_reducible assumption) | (with_reducible exact fun _ => rfl) | (with_reducible exact fun x => False.elim x) | (with_reducible apply eachOf_keep) | (with_reducible apply State.modLink_keep) | (with_reducible apply foldl_keep) | (with_reducible apply foldl_keep_fst) | split | (dsimp only [id])))

theorem State.flushHeld_keep {T U : Prop} {r : State} {x0} (h : Keep T U r x0) : Keep T U r (@State.flushHeld x0) := by
  unfold State.flushHeld
  (try dsimp only)
  repeat' (first | (with_reducible assumption) | (with_reducible exact fun _ => rfl) | (with_reducible exact fun x => False.elim x) | (with_reducible apply State.libWrite_keep) | (with_reducible apply foldl_keep) | (with_reducible apply foldl_keep_fst) | split | (intro _) | (dsimp only [id]) | (with_reducible apply Keep.upd; first | (with_reducible assumption) | (with_reducible exact fun _ => rfl) | (with_reducible exact fun x => False.elim x) | (with_reducible apply State.libWrite_keep) | (with_reducible apply foldl_keep) | (with_reducible apply foldl_keep_fst) | split | (dsimp only [id])))

theorem State.latch_keep {U : Prop} {r : State} {x0} {x1} (h : Keep False U r x0) : Keep False U r (@State.latch x0 x1) := by
  unfold State.latch
  (try dsimp only)
  repeat' (first | (with_reducible assumption) | (with_reducible exact fun _ => rfl) | (with_reducible exact fun x => False.elim x) | (with_reducible apply foldl_keep) | (with_reducible apply foldl_keep_fst) | split | (intro _) | (dsimp only [id]) | (with_reducible apply Keep.upd; first | (with_reducible assumption) | (with_reducible exact fun _ => rfl) | (with_reducible exact fun x => False.elim x) | (with_reducible apply foldl_keep) | (with_reducible apply foldl_keep_fst) | split | (dsimp only [id])) | (with_reducible apply Keep.updClk; first | (with_reducible assumption) | (with_reducible exact fun _ => rfl) | (with_reducible exact fun x => False.elim x) | (with_reducible apply foldl_keep) | (with_reducible apply foldl_keep_fst) | split | (dsimp only [id]) | (with_reducible apply Keep.upd; first | (with_reducible assumption) | (with_reducible exact fun _ => rfl) | (with_reducible exact fun x => False.elim x) | (with_reducible apply foldl_keep) | (with_reducible apply foldl_keep_fst) | split | (dsimp only [id]))))

theorem State.openBell_keep {U : Prop} {r : State} {x0} {x1} (h : Keep False U r x0) : Keep False U r (@State.openBell x0 x1) := by
  unfold State.openBell
  (try dsimp only)
  repeat' (first | (with_reducible assumption) | (with_reducible exact fun _ => rfl) | (with_reducible exact fun x => False.elim x) | (with_reducible apply State.latch_keep) | (with_reducible apply State.modSeat_keep) | (with_reducible apply eachOf_keep) | (with_reducible apply State.setField_keep) | (with_reducible apply State.modLink_keep) | (with_reducible apply State.flushHeld_keep) | (with_reducible apply State.modCore_keep) | (with_reducible apply foldl_keep) | (with_reducible apply foldl_keep_fst) | split | (intro _) | (dsimp only [id]) | (with_reducible apply Keep.upd; first | (with_reducible assumption) | (with_reducible exact fun _ => rfl) | (with_reducible exact fun x => False.elim x) | (with_reducible apply State.latch_keep) | (with_reducible apply State.modSeat_keep) | (with_reducible apply eachOf_keep) | (with_reducible apply State.setField_keep) | (with_reducible apply State.modLink_keep) | (with_reducible apply State.flushHeld_keep) | (with_reducible apply State.modCore_keep) | (with_reducible apply foldl_keep) | (with_reducible apply foldl_keep_fst) | split | (dsimp only [id])) | (with_reducible apply Keep.updClk; first | (with_reducible assumption) | (with_reducible exact fun _ => rfl) | (with_reducible exact fun x => False.elim x) | (with_reducible apply State.latch_keep) | (with_reducible apply State.modSeat_keep) | (with_reducible apply eachOf_keep) | (with_reducible apply State.setField_keep) | (with_reducible apply State.modLink_keep) | (with_reducible apply State.flushHeld_keep) | (with_reducible apply State.modCore_keep) | (with_reducible apply foldl_keep) | (with_reducible apply foldl_keep_fst) | split | (dsimp only [id]) | (with_reducible apply Keep.upd; first | (with_reducible assumption) | (with_reducible exact fun _ => rfl) | (with_reducible exact fun x => False.elim x) | (with_reducible apply State.latch_keep) | (with_reducible apply State.modSeat_keep) | (with_reducible apply eachOf_keep) | (with_reducible apply State.setField_keep) | (with_reducible apply State.modLink_keep) | (with_reducible apply State.flushHeld_keep) | (with_reducible apply State.modCore_keep) | (with_reducible apply foldl_keep) | (with_reducible apply foldl_keep_fst) | split | (dsimp only [id]))))

end Sys2Proof.Machine
end

