-- ==== Sys2Proof/Laws/Keep3.lean ====
section
/-! SUPPORT. What the model's operations keep (Keep: the queue and the canonical form), one lemma per operation, part 3. -/

set_option linter.unusedTactic false
set_option linter.unreachableTactic false

namespace Sys2Proof.Machine

theorem State.holdNow_keep {T : Prop} {r : State} {x0} {x1} (h : Keep T False r x0) : Keep T False r (@State.holdNow x0 x1) := by
  unfold State.holdNow
  (try dsimp only)
  repeat' (first | (with_reducible assumption) | (with_reducible exact fun _ => rfl) | (with_reducible exact fun x => False.elim x) | (with_reducible apply State.modSeat_keep) | (with_reducible apply foldl_keep) | (with_reducible apply foldl_keep_fst) | split | (intro _) | (dsimp only [id]) | (with_reducible apply Keep.upd; first | (with_reducible assumption) | (with_reducible exact fun _ => rfl) | (with_reducible exact fun x => False.elim x) | (with_reducible apply State.modSeat_keep) | (with_reducible apply foldl_keep) | (with_reducible apply foldl_keep_fst) | split | (dsimp only [id])))

theorem Seat.abort_bell (k : Seat) (n : BitVec 64) : (k.abort n).clockOf = k.clockOf := rfl

theorem Seat.abort_walk (k : Seat) (n : BitVec 64) : (k.abort n).walkOf = k.walkOf := rfl

theorem State.holdAbort_keep {T U : Prop} {r : State} {x0} {x1} (h : Keep T U r x0) : Keep T U r (@State.holdAbort x0 x1) := by
  unfold State.holdAbort
  split
  · rename_i p hp
    exact State.modSeat_keep h (fun _ => Seat.abort_bell (x0.seat x1) p.2) (fun _ => Seat.abort_walk (x0.seat x1) p.2)
  · exact h

theorem State.enterHold_keep {T : Prop} {r : State} {x0} {x1} (h : Keep T False r x0) : Keep T False r (@State.enterHold x0 x1) := by
  unfold State.enterHold
  (try dsimp only)
  repeat' (first | (with_reducible assumption) | (with_reducible exact fun _ => rfl) | (with_reducible exact fun x => False.elim x) | (with_reducible apply State.holdNow_keep) | (with_reducible apply State.holdAbort_keep) | (with_reducible apply foldl_keep) | (with_reducible apply foldl_keep_fst) | split | (intro _) | (dsimp only [id]) | (with_reducible apply Keep.upd; first | (with_reducible assumption) | (with_reducible exact fun _ => rfl) | (with_reducible exact fun x => False.elim x) | (with_reducible apply State.holdNow_keep) | (with_reducible apply State.holdAbort_keep) | (with_reducible apply foldl_keep) | (with_reducible apply foldl_keep_fst) | split | (dsimp only [id])))

theorem State.syncBell_keep {T : Prop} {r : State} {x0} {x1} {x2} (h : Keep T False r x0) : Keep T False r (@State.syncBell x0 x1 x2) := by
  unfold State.syncBell
  (try dsimp only)
  repeat' (first | (with_reducible assumption) | (with_reducible exact fun _ => rfl) | (with_reducible exact fun x => False.elim x) | (with_reducible apply State.modTt_keep) | (with_reducible apply State.taint_keep) | (with_reducible apply State.enterHold_keep) | (with_reducible apply State.unlock_keep) | (with_reducible apply foldl_keep) | (with_reducible apply foldl_keep_fst) | split | (intro _) | (dsimp only [id]) | (with_reducible apply Keep.upd; first | (with_reducible assumption) | (with_reducible exact fun _ => rfl) | (with_reducible exact fun x => False.elim x) | (with_reducible apply State.modTt_keep) | (with_reducible apply State.taint_keep) | (with_reducible apply State.enterHold_keep) | (with_reducible apply State.unlock_keep) | (with_reducible apply foldl_keep) | (with_reducible apply foldl_keep_fst) | split | (dsimp only [id])))

theorem State.lockLinks_keep {T U : Prop} {r : State} {x0} {x1} (h : Keep T U r x0) : Keep T U r (@State.lockLinks x0 x1) := by
  unfold State.lockLinks
  (try dsimp only)
  repeat' (first | (with_reducible assumption) | (with_reducible exact fun _ => rfl) | (with_reducible exact fun x => False.elim x) | (with_reducible apply eachOf_keep) | (with_reducible apply State.endLinkPass_keep) | (with_reducible apply State.modLink_keep) | (with_reducible apply foldl_keep) | (with_reducible apply foldl_keep_fst) | split | (intro _) | (dsimp only [id]) | (with_reducible apply Keep.upd; first | (with_reducible assumption) | (with_reducible exact fun _ => rfl) | (with_reducible exact fun x => False.elim x) | (with_reducible apply eachOf_keep) | (with_reducible apply State.endLinkPass_keep) | (with_reducible apply State.modLink_keep) | (with_reducible apply foldl_keep) | (with_reducible apply foldl_keep_fst) | split | (dsimp only [id])))

theorem State.poolLost_keep {T U : Prop} {r : State} {x0} {x1} {x2} (h : Keep T U r x0) : Keep T U r (@State.poolLost x0 x1 x2) := by
  unfold State.poolLost
  (try dsimp only)
  repeat' (first | (with_reducible assumption) | (with_reducible exact fun _ => rfl) | (with_reducible exact fun x => False.elim x) | (with_reducible apply State.endOp_keep) | (with_reducible apply foldl_keep) | (with_reducible apply foldl_keep_fst) | split | (intro _) | (dsimp only [id]) | (with_reducible apply Keep.upd; first | (with_reducible assumption) | (with_reducible exact fun _ => rfl) | (with_reducible exact fun x => False.elim x) | (with_reducible apply State.endOp_keep) | (with_reducible apply foldl_keep) | (with_reducible apply foldl_keep_fst) | split | (dsimp only [id])))

theorem State.linkQuiz_keep {T U : Prop} {r : State} {x0} {x1} (h : Keep T U r x0) : Keep T U r (@State.linkQuiz x0 x1) := by
  unfold State.linkQuiz
  (try dsimp only)
  repeat' (first | (with_reducible assumption) | (with_reducible exact fun _ => rfl) | (with_reducible exact fun x => False.elim x) | (with_reducible apply State.bump_keep) | (with_reducible apply State.demerit_keep) | (with_reducible apply foldl_keep) | (with_reducible apply foldl_keep_fst) | split | (intro _) | (dsimp only [id]) | (with_reducible apply Keep.upd; first | (with_reducible assumption) | (with_reducible exact fun _ => rfl) | (with_reducible exact fun x => False.elim x) | (with_reducible apply State.bump_keep) | (with_reducible apply State.demerit_keep) | (with_reducible apply foldl_keep) | (with_reducible apply foldl_keep_fst) | split | (dsimp only [id])))

theorem State.endQuiz_keep {T U : Prop} {r : State} {x0} {x1} (h : Keep T U r x0) : Keep T U r (@State.endQuiz x0 x1) := by
  unfold State.endQuiz
  (try dsimp only)
  repeat' (first | (with_reducible assumption) | (with_reducible exact fun _ => rfl) | (with_reducible exact fun x => False.elim x) | (with_reducible apply State.modHm_keep) | (with_reducible apply foldl_keep) | (with_reducible apply foldl_keep_fst) | split | (intro _) | (dsimp only [id]) | (with_reducible apply Keep.upd; first | (with_reducible assumption) | (with_reducible exact fun _ => rfl) | (with_reducible exact fun x => False.elim x) | (with_reducible apply State.modHm_keep) | (with_reducible apply foldl_keep) | (with_reducible apply foldl_keep_fst) | split | (dsimp only [id])))

theorem State.deliver_keep {T U : Prop} {r : State} {x0} {x1} (h : Keep T U r x0) : Keep T U r (@State.deliver x0 x1) := by
  unfold State.deliver
  (try dsimp only)
  repeat' (first | (with_reducible assumption) | (with_reducible exact fun _ => rfl) | (with_reducible exact fun x => False.elim x) | (with_reducible apply eachOf_keep) | (with_reducible apply State.modLink_keep) | (with_reducible apply State.lostFlit_keep) | (with_reducible apply State.poolLost_keep) | (with_reducible apply State.taint_keep) | (with_reducible apply State.dropSpent_keep) | (with_reducible apply State.endQuiz_keep) | (with_reducible apply State.linkQuiz_keep) | (with_reducible apply foldl_keep) | (with_reducible apply foldl_keep_fst) | split | (intro _) | (dsimp only [id]) | (with_reducible apply Keep.upd; first | (with_reducible assumption) | (with_reducible exact fun _ => rfl) | (with_reducible exact fun x => False.elim x) | (with_reducible apply eachOf_keep) | (with_reducible apply State.modLink_keep) | (with_reducible apply State.lostFlit_keep) | (with_reducible apply State.poolLost_keep) | (with_reducible apply State.taint_keep) | (with_reducible apply State.dropSpent_keep) | (with_reducible apply State.endQuiz_keep) | (with_reducible apply State.linkQuiz_keep) | (with_reducible apply foldl_keep) | (with_reducible apply foldl_keep_fst) | split | (dsimp only [id])))

theorem State.normEffect_keep {T U : Prop} {r : State} {x0} {x1} {x2} (h : Keep T U r x0) : Keep T U r (@State.normEffect x0 x1 x2) := by
  unfold State.normEffect
  (try dsimp only)
  repeat' (first | (with_reducible assumption) | (with_reducible exact fun _ => rfl) | (with_reducible exact fun x => False.elim x) | (with_reducible apply eachOf_keep) | (with_reducible apply State.libWrite_keep) | (with_reducible apply State.modCm_keep) | (with_reducible apply State.burn_keep) | (with_reducible apply foldl_keep) | (with_reducible apply foldl_keep_fst) | split | (intro _) | (dsimp only [id]) | (with_reducible apply Keep.upd; first | (with_reducible assumption) | (with_reducible exact fun _ => rfl) | (with_reducible exact fun x => False.elim x) | (with_reducible apply eachOf_keep) | (with_reducible apply State.libWrite_keep) | (with_reducible apply State.modCm_keep) | (with_reducible apply State.burn_keep) | (with_reducible apply foldl_keep) | (with_reducible apply foldl_keep_fst) | split | (dsimp only [id])))

theorem State.endAttempt_keep {T U : Prop} {r : State} {x0} {x1} {x2} {x3} (h : Keep T U r x0) : Keep T U r (@State.endAttempt x0 x1 x2 x3) := by
  unfold State.endAttempt
  apply eachOf_keep
  · exact State.modSeat_keep h (fun _ => Seat.abort_bell (x0.seat x1) x2) (fun _ => Seat.abort_walk (x0.seat x1) x2)
  · intro x t ht
    exact State.bump_keep ht

theorem State.foldWords_keep {T : Prop} {r : State} {x0} {x1} (h : Keep T False r x0) : Keep T False r (@State.foldWords x0 x1) := by
  unfold State.foldWords
  (try dsimp only)
  repeat' (first | (with_reducible assumption) | (with_reducible exact fun _ => rfl) | (with_reducible exact fun x => False.elim x) | (with_reducible apply State.modTt_keep) | (with_reducible apply State.normEffect_keep) | (with_reducible apply State.enterHold_keep) | (with_reducible apply State.unlock_keep) | (with_reducible apply foldl_keep) | (with_reducible apply foldl_keep_fst) | split | (intro _) | (dsimp only [id]) | (with_reducible apply Keep.upd; first | (with_reducible assumption) | (with_reducible exact fun _ => rfl) | (with_reducible exact fun x => False.elim x) | (with_reducible apply State.modTt_keep) | (with_reducible apply State.normEffect_keep) | (with_reducible apply State.enterHold_keep) | (with_reducible apply State.unlock_keep) | (with_reducible apply foldl_keep) | (with_reducible apply foldl_keep_fst) | split | (dsimp only [id])))

theorem State.writeHeader_keep {T U : Prop} {r : State} {x0} {x1} {x2} (h : Keep T U r x0) : Keep T U r (@State.writeHeader x0 x1 x2) := by
  unfold State.writeHeader
  (try dsimp only)
  repeat' (first | (with_reducible assumption) | (with_reducible exact fun _ => rfl) | (with_reducible exact fun x => False.elim x) | (with_reducible apply State.libWrite_keep) | (with_reducible apply State.forward_keep) | (with_reducible apply foldl_keep) | (with_reducible apply foldl_keep_fst) | split | (intro _) | (dsimp only [id]) | (with_reducible apply Keep.upd; first | (with_reducible assumption) | (with_reducible exact fun _ => rfl) | (with_reducible exact fun x => False.elim x) | (with_reducible apply State.libWrite_keep) | (with_reducible apply State.forward_keep) | (with_reducible apply foldl_keep) | (with_reducible apply foldl_keep_fst) | split | (dsimp only [id])))

theorem State.copyHistory_keep {T U : Prop} {r : State} {x0} {x1} {x2} (h : Keep T U r x0) : Keep T U r (@State.copyHistory x0 x1 x2) := by
  unfold State.copyHistory
  (try dsimp only)
  repeat' (first | (with_reducible assumption) | (with_reducible exact fun _ => rfl) | (with_reducible exact fun x => False.elim x) | (with_reducible apply State.modCm_keep) | (with_reducible apply State.libRead_keep) | (with_reducible apply State.libWrite_keep) | (with_reducible apply State.writeHeader_keep) | (with_reducible apply foldl_keep) | (with_reducible apply foldl_keep_fst) | (refine Keep.of_pair (by assumption) ?_) | split | (intro _) | (dsimp only [id]) | (with_reducible apply Keep.upd; first | (with_reducible assumption) | (with_reducible exact fun _ => rfl) | (with_reducible exact fun x => False.elim x) | (with_reducible apply State.modCm_keep) | (with_reducible apply State.libRead_keep) | (with_reducible apply State.libWrite_keep) | (with_reducible apply State.writeHeader_keep) | (with_reducible apply foldl_keep) | (with_reducible apply foldl_keep_fst) | (refine Keep.of_pair (by assumption) ?_) | split | (dsimp only [id])))

theorem State.finalBell_keep {T U : Prop} {r : State} {x0} {x1} (h : Keep T U r x0) : Keep T U r (@State.finalBell x0 x1) := by
  unfold State.finalBell
  (try dsimp only)
  repeat' (first | (with_reducible assumption) | (with_reducible exact fun _ => rfl) | (with_reducible exact fun x => False.elim x) | (with_reducible apply State.modSeat_keep) | (with_reducible apply State.copyHistory_keep) | (with_reducible apply State.modCm_keep) | (with_reducible apply foldl_keep) | (with_reducible apply foldl_keep_fst) | split | (intro _) | (dsimp only [id]) | (with_reducible apply Keep.upd; first | (with_reducible assumption) | (with_reducible exact fun _ => rfl) | (with_reducible exact fun x => False.elim x) | (with_reducible apply State.modSeat_keep) | (with_reducible apply State.copyHistory_keep) | (with_reducible apply State.modCm_keep) | (with_reducible apply foldl_keep) | (with_reducible apply foldl_keep_fst) | split | (dsimp only [id])))

theorem State.startApply_keep {T U : Prop} {r : State} {x0} {x1} {x2} {x3} (h : Keep T U r x0) : Keep T U r (@State.startApply x0 x1 x2 x3) := by
  unfold State.startApply
  (try dsimp only)
  repeat' (first | (with_reducible assumption) | (with_reducible exact fun _ => rfl) | (with_reducible exact fun x => False.elim x) | (with_reducible apply State.modCm_keep) | (with_reducible apply State.modLbs_keep) | (with_reducible apply foldl_keep) | (with_reducible apply foldl_keep_fst) | split | (intro _) | (dsimp only [id]) | (with_reducible apply Keep.upd; first | (with_reducible assumption) | (with_reducible exact fun _ => rfl) | (with_reducible exact fun x => False.elim x) | (with_reducible apply State.modCm_keep) | (with_reducible apply State.modLbs_keep) | (with_reducible apply foldl_keep) | (with_reducible apply foldl_keep_fst) | split | (dsimp only [id])))

theorem State.sendCrcs_keep {T U : Prop} {r : State} {x0} {x1} {x2} (h : Keep T U r x0) : Keep T U r (@State.sendCrcs x0 x1 x2) := by
  unfold State.sendCrcs
  (try dsimp only)
  repeat' (first | (with_reducible assumption) | (with_reducible exact fun _ => rfl) | (with_reducible exact fun x => False.elim x) | (with_reducible apply State.libRead_keep) | (with_reducible apply State.tell_keep) | (with_reducible apply foldl_keep) | (with_reducible apply foldl_keep_fst) | (refine Keep.of_pair (by assumption) ?_) | split | (intro _) | (dsimp only [id]) | (with_reducible apply Keep.upd; first | (with_reducible assumption) | (with_reducible exact fun _ => rfl) | (with_reducible exact fun x => False.elim x) | (with_reducible apply State.libRead_keep) | (with_reducible apply State.tell_keep) | (with_reducible apply foldl_keep) | (with_reducible apply foldl_keep_fst) | (refine Keep.of_pair (by assumption) ?_) | split | (dsimp only [id])))

theorem State.unitClip_keep {T U : Prop} {r : State} {x0} {x1} {x2} (h : Keep T U r x0) : Keep T U r (@State.unitClip x0 x1 x2).1 := by
  unfold State.unitClip
  (try dsimp only)
  repeat' (first | (with_reducible assumption) | (with_reducible exact fun _ => rfl) | (with_reducible exact fun x => False.elim x) | (with_reducible apply State.libRead_keep) | (with_reducible apply foldl_keep) | (with_reducible apply foldl_keep_fst) | (refine Keep.of_pair (by assumption) ?_) | split | (intro _) | (dsimp only [id]) | (with_reducible apply Keep.upd; first | (with_reducible assumption) | (with_reducible exact fun _ => rfl) | (with_reducible exact fun x => False.elim x) | (with_reducible apply State.libRead_keep) | (with_reducible apply foldl_keep) | (with_reducible apply foldl_keep_fst) | (refine Keep.of_pair (by assumption) ?_) | split | (dsimp only [id])))

theorem State.clipOpen_keep {T U : Prop} {r : State} {x0} {x1} {x2} (h : Keep T U r x0) : Keep T U r (@State.clipOpen x0 x1 x2).1 := by
  unfold State.clipOpen
  (try dsimp only)
  repeat' (first | (with_reducible assumption) | (with_reducible exact fun _ => rfl) | (with_reducible exact fun x => False.elim x) | (with_reducible apply State.unitClip_keep) | (with_reducible apply foldl_keep) | (with_reducible apply foldl_keep_fst) | (refine Keep.of_pair (by assumption) ?_) | split | (intro _) | (dsimp only [id]) | (with_reducible apply Keep.upd; first | (with_reducible assumption) | (with_reducible exact fun _ => rfl) | (with_reducible exact fun x => False.elim x) | (with_reducible apply State.unitClip_keep) | (with_reducible apply foldl_keep) | (with_reducible apply foldl_keep_fst) | (refine Keep.of_pair (by assumption) ?_) | split | (dsimp only [id])))

theorem State.commitStep_keep {T U : Prop} {r : State} {x0} {x1} {x2} {x3} (h : Keep T U r x0) : Keep T U r (@State.commitStep x0 x1 x2 x3) := by
  unfold State.commitStep
  (try dsimp only)
  repeat' (first | (with_reducible assumption) | (with_reducible exact fun _ => rfl) | (with_reducible exact fun x => False.elim x) | (with_reducible apply State.ckAbandon_keep) | (with_reducible apply State.modSeat_keep) | (with_reducible apply eachOf_keep) | (with_reducible apply State.bump_keep) | (with_reducible apply State.sendCrcs_keep) | (with_reducible apply State.startApply_keep) | (with_reducible apply State.clipOpen_keep) | (with_reducible apply State.modCm_keep) | (with_reducible apply State.modHm_keep) | (with_reducible apply State.ckTrigger_keep) | (with_reducible apply foldl_keep) | (with_reducible apply foldl_keep_fst) | (refine Keep.of_pair (by assumption) ?_) | split | (intro _) | (dsimp only [id]) | (with_reducible apply Keep.upd; first | (with_reducible assumption) | (with_reducible exact fun _ => rfl) | (with_reducible exact fun x => False.elim x) | (with_reducible apply State.ckAbandon_keep) | (with_reducible apply State.modSeat_keep) | (with_reducible apply eachOf_keep) | (with_reducible apply State.bump_keep) | (with_reducible apply State.sendCrcs_keep) | (with_reducible apply State.startApply_keep) | (with_reducible apply State.clipOpen_keep) | (with_reducible apply State.modCm_keep) | (with_reducible apply State.modHm_keep) | (with_reducible apply State.ckTrigger_keep) | (with_reducible apply foldl_keep) | (with_reducible apply foldl_keep_fst) | (refine Keep.of_pair (by assumption) ?_) | split | (dsimp only [id])))
  all_goals rfl

theorem State.abortStep_keep {T U : Prop} {r : State} {x0} {x1} {x2} (h : Keep T U r x0) : Keep T U r (@State.abortStep x0 x1 x2) := by
  unfold State.abortStep
  apply eachOf_keep
  · exact State.modSeat_keep h (fun _ => Seat.abort_bell _ _) (fun _ => Seat.abort_walk _ _)
  · intro x t ht
    exact State.bump_keep ht

theorem State.rollCall_keep {T U : Prop} {r : State} {x0} {x1} {x2} (h : Keep T U r x0) : Keep T U r (@State.rollCall x0 x1 x2).1 := by
  unfold State.rollCall
  (try dsimp only)
  repeat' (first | (with_reducible assumption) | (with_reducible exact fun _ => rfl) | (with_reducible exact fun x => False.elim x) | (with_reducible apply State.modSeat_keep) | (with_reducible apply State.modCm_keep) | (with_reducible apply State.commitStep_keep) | (with_reducible apply State.abortStep_keep) | (with_reducible apply foldl_keep) | (with_reducible apply foldl_keep_fst) | split | (intro _) | (dsimp only [id]) | (with_reducible apply Keep.upd; first | (with_reducible assumption) | (with_reducible exact fun _ => rfl) | (with_reducible exact fun x => False.elim x) | (with_reducible apply State.modSeat_keep) | (with_reducible apply State.modCm_keep) | (with_reducible apply State.commitStep_keep) | (with_reducible apply State.abortStep_keep) | (with_reducible apply foldl_keep) | (with_reducible apply foldl_keep_fst) | split | (dsimp only [id])))

theorem State.noteBranch_keep {T U : Prop} {r : State} {x0} {x1} {x2} {x3} {x4} {x5} {x6} (h : Keep T U r x0) : Keep T U r (@State.noteBranch x0 x1 x2 x3 x4 x5 x6) := by
  unfold State.noteBranch
  (try dsimp only)
  repeat' (first | (with_reducible assumption) | (with_reducible exact fun _ => rfl) | (with_reducible exact fun x => False.elim x) | (with_reducible apply State.modTt_keep) | (with_reducible apply foldl_keep) | (with_reducible apply foldl_keep_fst) | split | (intro _) | (dsimp only [id]) | (with_reducible apply Keep.upd; first | (with_reducible assumption) | (with_reducible exact fun _ => rfl) | (with_reducible exact fun x => False.elim x) | (with_reducible apply State.modTt_keep) | (with_reducible apply foldl_keep) | (with_reducible apply foldl_keep_fst) | split | (dsimp only [id])))

theorem State.spoil_keep {T U : Prop} {r : State} {x0} {x1} {x2} (h : Keep T U r x0) : Keep T U r (@State.spoil x0 x1 x2) := by
  unfold State.spoil
  (try dsimp only)
  repeat' (first | (with_reducible assumption) | (with_reducible exact fun _ => rfl) | (with_reducible exact fun x => False.elim x) | (with_reducible apply State.burn_keep) | (with_reducible apply State.storeBytes_keep) | (with_reducible apply foldl_keep) | (with_reducible apply foldl_keep_fst) | split | (intro _) | (dsimp only [id]) | (with_reducible apply Keep.upd; first | (with_reducible assumption) | (with_reducible exact fun _ => rfl) | (with_reducible exact fun x => False.elim x) | (with_reducible apply State.burn_keep) | (with_reducible apply State.storeBytes_keep) | (with_reducible apply foldl_keep) | (with_reducible apply foldl_keep_fst) | split | (dsimp only [id])))

theorem State.endReads_keep {T U : Prop} {r : State} {x0} {x1} (h : Keep T U r x0) : Keep T U r (@State.endReads x0 x1) := by
  unfold State.endReads
  (try dsimp only)
  repeat' (first | (with_reducible assumption) | (with_reducible exact fun _ => rfl) | (with_reducible exact fun x => False.elim x) | (with_reducible apply State.modMc_keep) | (with_reducible apply foldl_keep) | (with_reducible apply foldl_keep_fst) | split | (intro _) | (dsimp only [id]) | (with_reducible apply Keep.upd; first | (with_reducible assumption) | (with_reducible exact fun _ => rfl) | (with_reducible exact fun x => False.elim x) | (with_reducible apply State.modMc_keep) | (with_reducible apply foldl_keep) | (with_reducible apply foldl_keep_fst) | split | (dsimp only [id])))

theorem State.cutService_keep {T U : Prop} {r : State} {x0} {x1} (h : Keep T U r x0) : Keep T U r (@State.cutService x0 x1) := by
  unfold State.cutService
  (try dsimp only)
  repeat' (first | (with_reducible assumption) | (with_reducible exact fun _ => rfl) | (with_reducible exact fun x => False.elim x) | (with_reducible apply State.abftEvent_keep) | (with_reducible apply foldl_keep) | (with_reducible apply foldl_keep_fst) | split | (intro _) | (dsimp only [id]) | (with_reducible apply Keep.upd; first | (with_reducible assumption) | (with_reducible exact fun _ => rfl) | (with_reducible exact fun x => False.elim x) | (with_reducible apply State.abftEvent_keep) | (with_reducible apply foldl_keep) | (with_reducible apply foldl_keep_fst) | split | (dsimp only [id])))

theorem State.cancelCore_keep {T U : Prop} {r : State} {x0} {x1} (h : Keep T U r x0) : Keep T U r (@State.cancelCore x0 x1) := by
  unfold State.cancelCore
  (try dsimp only)
  repeat' (first | (with_reducible assumption) | (with_reducible exact fun _ => rfl) | (with_reducible exact fun x => False.elim x) | (with_reducible apply State.cutService_keep) | (with_reducible apply State.setCore_keep) | (with_reducible apply State.endReads_keep) | (with_reducible apply State.spoil_keep) | (with_reducible apply foldl_keep) | (with_reducible apply foldl_keep_fst) | split | (intro _) | (dsimp only [id]) | (with_reducible apply Keep.upd; first | (with_reducible assumption) | (with_reducible exact fun _ => rfl) | (with_reducible exact fun x => False.elim x) | (with_reducible apply State.cutService_keep) | (with_reducible apply State.setCore_keep) | (with_reducible apply State.endReads_keep) | (with_reducible apply State.spoil_keep) | (with_reducible apply foldl_keep) | (with_reducible apply foldl_keep_fst) | split | (dsimp only [id])))

theorem State.clearReady_keep {T U : Prop} {r : State} {x0} {x1} {x2} (h : Keep T U r x0) : Keep T U r (@State.clearReady x0 x1 x2) := by
  unfold State.clearReady
  (try dsimp only)
  repeat' (first | (with_reducible assumption) | (with_reducible exact fun _ => rfl) | (with_reducible exact fun x => False.elim x) | (with_reducible apply State.libRead_keep) | (with_reducible apply State.libWrite_keep) | (with_reducible apply State.modLb_keep) | (with_reducible apply foldl_keep) | (with_reducible apply foldl_keep_fst) | (refine Keep.of_pair (by assumption) ?_) | split | (intro _) | (dsimp only [id]) | (with_reducible apply Keep.upd; first | (with_reducible assumption) | (with_reducible exact fun _ => rfl) | (with_reducible exact fun x => False.elim x) | (with_reducible apply State.libRead_keep) | (with_reducible apply State.libWrite_keep) | (with_reducible apply State.modLb_keep) | (with_reducible apply foldl_keep) | (with_reducible apply foldl_keep_fst) | (refine Keep.of_pair (by assumption) ?_) | split | (dsimp only [id])))

theorem State.redirect_keep {T U : Prop} {r : State} {x0} {x1} {x2} {x3} (h : Keep T U r x0) : Keep T U r (@State.redirect x0 x1 x2 x3) := by
  unfold State.redirect
  (try dsimp only)
  repeat' (first | (with_reducible assumption) | (with_reducible exact fun _ => rfl) | (with_reducible exact fun x => False.elim x) | (with_reducible apply eachOf_keep) | (with_reducible apply State.modCore_keep) | (with_reducible apply State.cancelCore_keep) | (with_reducible apply State.clearReady_keep) | (with_reducible apply State.flushHeld_keep) | (with_reducible apply foldl_keep) | (with_reducible apply foldl_keep_fst) | split | (intro _) | (dsimp only [id]) | (with_reducible apply Keep.upd; first | (with_reducible assumption) | (with_reducible exact fun _ => rfl) | (with_reducible exact fun x => False.elim x) | (with_reducible apply eachOf_keep) | (with_reducible apply State.modCore_keep) | (with_reducible apply State.cancelCore_keep) | (with_reducible apply State.clearReady_keep) | (with_reducible apply State.flushHeld_keep) | (with_reducible apply foldl_keep) | (with_reducible apply foldl_keep_fst) | split | (dsimp only [id])))

theorem State.openFirst_keep {T U : Prop} {r : State} {x0} {x1} {x2} (h : Keep T U r x0) : Keep T U r (@State.openFirst x0 x1 x2) := by
  unfold State.openFirst
  (try dsimp only)
  repeat' (first | (with_reducible assumption) | (with_reducible exact fun _ => rfl) | (with_reducible exact fun x => False.elim x) | (with_reducible apply State.modSeat_keep) | (with_reducible apply State.modLbs_keep) | (with_reducible apply State.taint_keep) | (with_reducible apply foldl_keep) | (with_reducible apply foldl_keep_fst) | split | (intro _) | (dsimp only [id]) | (with_reducible apply Keep.upd; first | (with_reducible assumption) | (with_reducible exact fun _ => rfl) | (with_reducible exact fun x => False.elim x) | (with_reducible apply State.modSeat_keep) | (with_reducible apply State.modLbs_keep) | (with_reducible apply State.taint_keep) | (with_reducible apply foldl_keep) | (with_reducible apply foldl_keep_fst) | split | (dsimp only [id])))

theorem State.openPeriod_keep {T : Prop} {r : State} {x0} {x1} {x2} {x3} {x4} (h : Keep T False r x0) : Keep T False r (@State.openPeriod x0 x1 x2 x3 x4) := by
  unfold State.openPeriod
  (try dsimp only)
  repeat' (first | (with_reducible assumption) | (with_reducible exact fun _ => rfl) | (with_reducible exact fun x => False.elim x) | (with_reducible apply State.modTt_keep) | (with_reducible apply State.modLbs_keep) | (with_reducible apply foldl_keep) | (with_reducible apply foldl_keep_fst) | split | (intro _) | (dsimp only [id]) | (with_reducible apply Keep.upd; first | (with_reducible assumption) | (with_reducible exact fun _ => rfl) | (with_reducible exact fun x => False.elim x) | (with_reducible apply State.modTt_keep) | (with_reducible apply State.modLbs_keep) | (with_reducible apply foldl_keep) | (with_reducible apply foldl_keep_fst) | split | (dsimp only [id])))

theorem State.wakeCores_keep {T U : Prop} {r : State} {x0} {x1} (h : Keep T U r x0) : Keep T U r (@State.wakeCores x0 x1) := by
  unfold State.wakeCores
  (try dsimp only)
  repeat' (first | (with_reducible assumption) | (with_reducible exact fun _ => rfl) | (with_reducible exact fun x => False.elim x) | (with_reducible apply eachOf_keep) | (with_reducible apply State.advance_keep) | (with_reducible apply State.setCore_keep) | (with_reducible apply foldl_keep) | (with_reducible apply foldl_keep_fst) | split | (intro _) | (dsimp only [id]) | (with_reducible apply Keep.upd; first | (with_reducible assumption) | (with_reducible exact fun _ => rfl) | (with_reducible exact fun x => False.elim x) | (with_reducible apply eachOf_keep) | (with_reducible apply State.advance_keep) | (with_reducible apply State.setCore_keep) | (with_reducible apply foldl_keep) | (with_reducible apply foldl_keep_fst) | split | (dsimp only [id])))

theorem Walk.branch_keep {T U : Prop} {r : State} {w : Walk} {f : Nat} {blk : List Entry} {i : Nat} (h : Keep T U r w.s) : Keep T U r (w.branch f blk i).1.s := by
  unfold Walk.branch
  (try dsimp only)
  repeat' (first | (with_reducible assumption) | (with_reducible exact fun _ => rfl) | (with_reducible exact fun x => False.elim x) | (with_reducible apply State.noteBranch_keep) | (with_reducible apply State.numLog_keep) | (dsimp only) | split)

theorem Walk.verdict_keep {T : Prop} {r : State} {w : Walk} {f : Nat} {blk : List Entry} {i : Nat} (h : Keep T False r w.s) : Keep T False r (w.verdict f blk i).1.s := by
  unfold Walk.verdict
  (try dsimp only)
  repeat' (first | (with_reducible assumption) | (with_reducible exact fun _ => rfl) | (with_reducible exact fun x => False.elim x) | (with_reducible apply State.noteBranch_keep) | (with_reducible apply State.rollCall_keep) | (with_reducible apply State.modSeat_keep) | split | (intro _) | (dsimp only))

theorem walk_keep {T : Prop} {r : State} {f : Nat} {blk : List Entry} (n i : Nat) (w : Walk) (h : Keep T False r w.s) : Keep T False r (walk f blk n i w).1.s := by
  induction n generalizing i w with
  | zero => exact h
  | succ n ih =>
    unfold walk
    dsimp only
    repeat' (first | (with_reducible assumption) | (with_reducible exact fun _ => rfl) | (with_reducible exact fun x => False.elim x) | (with_reducible apply ih) | (with_reducible apply State.modTt_keep) |
      (with_reducible apply Walk.verdict_keep) | (with_reducible apply Walk.branch_keep) | split)

theorem stopWalk_keep {T : Prop} {r : State} {f : Nat} {blk : List Entry} (n i : Nat) (w : Walk) (h : Keep T False r w.s) :
    Keep T False r (stopWalk f blk n i w).s := by
  induction n generalizing i w with
  | zero => exact h
  | succ n ih =>
    unfold stopWalk
    dsimp only
    repeat' (first | (with_reducible assumption) | (with_reducible exact fun _ => rfl) | (with_reducible exact fun x => False.elim x) | (with_reducible apply ih) | (with_reducible apply State.modTt_keep) |
      (with_reducible apply Walk.verdict_keep) | split)

theorem State.afterWalk_keep {T : Prop} {r : State} {f : Nat} {w : Walk} {p : Option Nat} {b : Bool} (h : Keep T False r w.s) :
    Keep T False r (State.afterWalk f w p b) := by
  unfold State.afterWalk
  (try dsimp only)
  repeat' (first | (with_reducible assumption) | (with_reducible exact fun _ => rfl) | (with_reducible exact fun x => False.elim x) | (with_reducible apply State.healthBell_keep) | (with_reducible apply State.enterHold_keep) | (with_reducible apply State.redirect_keep) | (with_reducible apply State.wakeCores_keep) | (with_reducible apply State.openPeriod_keep) | (with_reducible apply State.openFirst_keep) | (with_reducible apply State.endAttempt_keep) | split | (intro _) | (dsimp only))

theorem State.walkFrom_keep {T : Prop} {r : State} {x0} {x1} {x2} {x3} {x4} (h : Keep T False r x0) : Keep T False r (@State.walkFrom x0 x1 x2 x3 x4) := by
  unfold State.walkFrom
  exact State.afterWalk_keep (walk_keep _ _ _ h)

theorem State.walkBell_keep {T : Prop} {r : State} {x0} {x1} {x2} (h : Keep T False r x0) : Keep T False r (@State.walkBell x0 x1 x2) := by
  unfold State.walkBell
  (try dsimp only)
  repeat' (first | (with_reducible assumption) | (with_reducible exact fun _ => rfl) | (with_reducible exact fun x => False.elim x) | (with_reducible apply State.healthBell_keep) | (with_reducible apply State.wakeCores_keep) | (with_reducible apply State.openPeriod_keep) | (with_reducible apply State.walkFrom_keep) | (with_reducible apply foldl_keep) | (with_reducible apply foldl_keep_fst) | split | (intro _) | (dsimp only [id]) | (with_reducible apply Keep.upd; first | (with_reducible assumption) | (with_reducible exact fun _ => rfl) | (with_reducible exact fun x => False.elim x) | (with_reducible apply State.healthBell_keep) | (with_reducible apply State.wakeCores_keep) | (with_reducible apply State.openPeriod_keep) | (with_reducible apply State.walkFrom_keep) | (with_reducible apply foldl_keep) | (with_reducible apply foldl_keep_fst) | split | (dsimp only [id])))

theorem State.setCount_keep {r : State} {x0} {x1} (h : Keep False False r x0) : Keep False False r (@State.setCount x0 x1) := by
  unfold State.setCount
  (try dsimp only)
  repeat' (first | (with_reducible assumption) | (with_reducible exact fun _ => rfl) | (with_reducible exact fun x => False.elim x) | (with_reducible apply State.modSeat_keep) | (with_reducible apply foldl_keep) | (with_reducible apply foldl_keep_fst) | split | (intro _) | (dsimp only [id]) | (with_reducible apply Keep.upd; first | (with_reducible assumption) | (with_reducible exact fun _ => rfl) | (with_reducible exact fun x => False.elim x) | (with_reducible apply State.modSeat_keep) | (with_reducible apply foldl_keep) | (with_reducible apply foldl_keep_fst) | split | (dsimp only [id])) | (with_reducible apply Keep.updClk; first | (with_reducible assumption) | (with_reducible exact fun _ => rfl) | (with_reducible exact fun x => False.elim x) | (with_reducible apply State.modSeat_keep) | (with_reducible apply foldl_keep) | (with_reducible apply foldl_keep_fst) | split | (dsimp only [id]) | (with_reducible apply Keep.upd; first | (with_reducible assumption) | (with_reducible exact fun _ => rfl) | (with_reducible exact fun x => False.elim x) | (with_reducible apply State.modSeat_keep) | (with_reducible apply foldl_keep) | (with_reducible apply foldl_keep_fst) | split | (dsimp only [id]))))

theorem State.closeHistory_keep {T U : Prop} {r : State} {x0} {x1} (h : Keep T U r x0) : Keep T U r (@State.closeHistory x0 x1) := by
  unfold State.closeHistory
  (try dsimp only)
  repeat' (first | (with_reducible assumption) | (with_reducible exact fun _ => rfl) | (with_reducible exact fun x => False.elim x) | (with_reducible apply State.taint_keep) | (with_reducible apply foldl_keep) | (with_reducible apply foldl_keep_fst) | split | (intro _) | (dsimp only [id]) | (with_reducible apply Keep.upd; first | (with_reducible assumption) | (with_reducible exact fun _ => rfl) | (with_reducible exact fun x => False.elim x) | (with_reducible apply State.taint_keep) | (with_reducible apply foldl_keep) | (with_reducible apply foldl_keep_fst) | split | (dsimp only [id])))

theorem State.enterIdent_keep {T U : Prop} {r : State} {x0} {x1} (h : Keep T U r x0) : Keep T U r (@State.enterIdent x0 x1) := by
  unfold State.enterIdent
  (try dsimp only)
  repeat' (first | (with_reducible assumption) | (with_reducible exact fun _ => rfl) | (with_reducible exact fun x => False.elim x) | (with_reducible apply State.burn_keep) | (with_reducible apply State.modLink_keep) | (with_reducible apply State.linkTo_keep) | (with_reducible apply foldl_keep) | (with_reducible apply foldl_keep_fst) | split | (intro _) | (dsimp only [id]) | (with_reducible apply Keep.upd; first | (with_reducible assumption) | (with_reducible exact fun _ => rfl) | (with_reducible exact fun x => False.elim x) | (with_reducible apply State.burn_keep) | (with_reducible apply State.modLink_keep) | (with_reducible apply State.linkTo_keep) | (with_reducible apply foldl_keep) | (with_reducible apply foldl_keep_fst) | split | (dsimp only [id])))

theorem Seat.takeId_bell (k : Seat) (m : BitVec 14) (e : BitVec 32) (n : BitVec 3) : (k.takeId m e n).clockOf = k.clockOf := rfl

theorem State.leaveSeat_keep {T : Prop} {r : State} {x0} {x1} (h : Keep T False r x0) : Keep T False r (@State.leaveSeat x0 x1) := by
  unfold State.leaveSeat
  dsimp only
  apply eachOf_keep
  · apply State.modSeat_keep
    · split
      · exact State.ckInterrupt_keep h
      · exact State.enterHold_keep (State.ckInterrupt_keep h)
    · exact fun _ => Seat.takeId_bell _ _ _ _
    · exact fun x => x.elim
  · intro l t ht
    apply State.modLink_keep
    split
    · exact State.linkTo_keep ht
    · split
      · exact State.enterIdent_keep ht
      · exact ht

theorem State.retrainLink_keep {T U : Prop} {r : State} {x0} {x1} (h : Keep T U r x0) : Keep T U r (@State.retrainLink x0 x1) := by
  unfold State.retrainLink
  (try dsimp only)
  repeat' (first | (with_reducible assumption) | (with_reducible exact fun _ => rfl) | (with_reducible exact fun x => False.elim x) | (with_reducible apply State.modLink_keep) | (with_reducible apply State.linkTo_keep) | (with_reducible apply foldl_keep) | (with_reducible apply foldl_keep_fst) | split | (intro _) | (dsimp only [id]) | (with_reducible apply Keep.upd; first | (with_reducible assumption) | (with_reducible exact fun _ => rfl) | (with_reducible exact fun x => False.elim x) | (with_reducible apply State.modLink_keep) | (with_reducible apply State.linkTo_keep) | (with_reducible apply foldl_keep) | (with_reducible apply foldl_keep_fst) | split | (dsimp only [id])))

theorem State.givePeers_keep {T U : Prop} {r : State} {x0} {x1} {x2} (h : Keep T U r x0) : Keep T U r (@State.givePeers x0 x1 x2) := by
  unfold State.givePeers
  (try dsimp only)
  repeat' (first | (with_reducible assumption) | (with_reducible exact fun _ => rfl) | (with_reducible exact fun x => False.elim x) | (with_reducible apply State.modLink_keep) | (with_reducible apply State.enterIdent_keep) | (with_reducible apply foldl_keep) | (with_reducible apply foldl_keep_fst) | split | (intro _) | (dsimp only [id]) | (with_reducible apply Keep.upd; first | (with_reducible assumption) | (with_reducible exact fun _ => rfl) | (with_reducible exact fun x => False.elim x) | (with_reducible apply State.modLink_keep) | (with_reducible apply State.enterIdent_keep) | (with_reducible apply foldl_keep) | (with_reducible apply foldl_keep_fst) | split | (dsimp only [id])))

theorem State.takeSeat_keep {T U : Prop} {r : State} {x0} {x1} {x2} {x3} {x4} (h : Keep T U r x0) : Keep T U r (@State.takeSeat x0 x1 x2 x3 x4) := by
  unfold State.takeSeat
  (try dsimp only)
  repeat' (first | (with_reducible assumption) | (with_reducible exact fun _ => rfl) | (with_reducible exact fun x => False.elim x) | (with_reducible apply State.givePeers_keep) | (with_reducible apply State.modSeat_keep) | (with_reducible apply foldl_keep) | (with_reducible apply foldl_keep_fst) | split | (intro _) | (dsimp only [id]) | (with_reducible apply Keep.upd; first | (with_reducible assumption) | (with_reducible exact fun _ => rfl) | (with_reducible exact fun x => False.elim x) | (with_reducible apply State.givePeers_keep) | (with_reducible apply State.modSeat_keep) | (with_reducible apply foldl_keep) | (with_reducible apply foldl_keep_fst) | split | (dsimp only [id])))
  all_goals rfl

theorem State.runAtBell_keep {T : Prop} {r : State} {x0} {x1} (h : Keep T False r x0) : Keep T False r (@State.runAtBell x0 x1) := by
  unfold State.runAtBell
  (try dsimp only)
  repeat' (first | (with_reducible assumption) | (with_reducible exact fun _ => rfl) | (with_reducible exact fun x => False.elim x) | (with_reducible apply State.leaveSeat_keep) | (with_reducible apply State.retrainLink_keep) | (with_reducible apply State.takeSeat_keep) | (with_reducible apply State.givePeers_keep) | (with_reducible apply State.modSeat_keep) | (with_reducible apply foldl_keep) | (with_reducible apply foldl_keep_fst) | split | (intro _) | (dsimp only [id]) | (with_reducible apply Keep.upd; first | (with_reducible assumption) | (with_reducible exact fun _ => rfl) | (with_reducible exact fun x => False.elim x) | (with_reducible apply State.leaveSeat_keep) | (with_reducible apply State.retrainLink_keep) | (with_reducible apply State.takeSeat_keep) | (with_reducible apply State.givePeers_keep) | (with_reducible apply State.modSeat_keep) | (with_reducible apply foldl_keep) | (with_reducible apply foldl_keep_fst) | split | (dsimp only [id])))

theorem execBell_keep {r : State} {x0} {x1} {x2} (h : Keep False False r x2) : Keep False False r (@execBell x0 x1 x2) := by
  unfold execBell
  (try dsimp only)
  repeat' (first | (with_reducible assumption) | (with_reducible exact fun _ => rfl) | (with_reducible exact fun x => False.elim x) | (with_reducible apply State.closeWord_keep) | (with_reducible apply State.closeRx_keep) | (with_reducible apply State.closeCores_keep) | (with_reducible apply State.closeHistory_keep) | (with_reducible apply State.runAtBell_keep) | (with_reducible apply State.openBell_keep) | (with_reducible apply State.setCount_keep) | (with_reducible apply State.deliver_keep) | (with_reducible apply State.lockLinks_keep) | (with_reducible apply State.syncBell_keep) | (with_reducible apply State.finalBell_keep) | (with_reducible apply State.foldWords_keep) | (with_reducible apply State.walkBell_keep) | (with_reducible apply foldl_keep) | (with_reducible apply foldl_keep_fst) | split | (intro _) | (dsimp only [id]) | (with_reducible apply Keep.upd; first | (with_reducible assumption) | (with_reducible exact fun _ => rfl) | (with_reducible exact fun x => False.elim x) | (with_reducible apply State.closeWord_keep) | (with_reducible apply State.closeRx_keep) | (with_reducible apply State.closeCores_keep) | (with_reducible apply State.closeHistory_keep) | (with_reducible apply State.runAtBell_keep) | (with_reducible apply State.openBell_keep) | (with_reducible apply State.setCount_keep) | (with_reducible apply State.deliver_keep) | (with_reducible apply State.lockLinks_keep) | (with_reducible apply State.syncBell_keep) | (with_reducible apply State.finalBell_keep) | (with_reducible apply State.foldWords_keep) | (with_reducible apply State.walkBell_keep) | (with_reducible apply foldl_keep) | (with_reducible apply foldl_keep_fst) | split | (dsimp only [id])) | (with_reducible apply Keep.updClk; first | (with_reducible assumption) | (with_reducible exact fun _ => rfl) | (with_reducible exact fun x => False.elim x) | (with_reducible apply State.closeWord_keep) | (with_reducible apply State.closeRx_keep) | (with_reducible apply State.closeCores_keep) | (with_reducible apply State.closeHistory_keep) | (with_reducible apply State.runAtBell_keep) | (with_reducible apply State.openBell_keep) | (with_reducible apply State.setCount_keep) | (with_reducible apply State.deliver_keep) | (with_reducible apply State.lockLinks_keep) | (with_reducible apply State.syncBell_keep) | (with_reducible apply State.finalBell_keep) | (with_reducible apply State.foldWords_keep) | (with_reducible apply State.walkBell_keep) | (with_reducible apply foldl_keep) | (with_reducible apply foldl_keep_fst) | split | (dsimp only [id]) | (with_reducible apply Keep.upd; first | (with_reducible assumption) | (with_reducible exact fun _ => rfl) | (with_reducible exact fun x => False.elim x) | (with_reducible apply State.closeWord_keep) | (with_reducible apply State.closeRx_keep) | (with_reducible apply State.closeCores_keep) | (with_reducible apply State.closeHistory_keep) | (with_reducible apply State.runAtBell_keep) | (with_reducible apply State.openBell_keep) | (with_reducible apply State.setCount_keep) | (with_reducible apply State.deliver_keep) | (with_reducible apply State.lockLinks_keep) | (with_reducible apply State.syncBell_keep) | (with_reducible apply State.finalBell_keep) | (with_reducible apply State.foldWords_keep) | (with_reducible apply State.walkBell_keep) | (with_reducible apply foldl_keep) | (with_reducible apply foldl_keep_fst) | split | (dsimp only [id]))))

theorem execParentSilenceUnlock_keep {T : Prop} {r : State} {x0} {x1} (h : Keep T False r x1) : Keep T False r (@execParentSilenceUnlock x0 x1) := by
  unfold execParentSilenceUnlock
  (try dsimp only)
  repeat' (first | (with_reducible assumption) | (with_reducible exact fun _ => rfl) | (with_reducible exact fun x => False.elim x) | (with_reducible apply State.enterHold_keep) | (with_reducible apply State.unlock_keep) | (with_reducible apply foldl_keep) | (with_reducible apply foldl_keep_fst) | split | (intro _) | (dsimp only [id]) | (with_reducible apply Keep.upd; first | (with_reducible assumption) | (with_reducible exact fun _ => rfl) | (with_reducible exact fun x => False.elim x) | (with_reducible apply State.enterHold_keep) | (with_reducible apply State.unlock_keep) | (with_reducible apply foldl_keep) | (with_reducible apply foldl_keep_fst) | split | (dsimp only [id])))

theorem State.stopMargins_keep {T U : Prop} {r : State} {x0} {x1} (h : Keep T U r x0) : Keep T U r (@State.stopMargins x0 x1) := by
  unfold State.stopMargins
  (try dsimp only)
  repeat' (first | (with_reducible assumption) | (with_reducible exact fun _ => rfl) | (with_reducible exact fun x => False.elim x) | (with_reducible apply eachOf_keep) | (with_reducible apply State.modHm_keep) | (with_reducible apply foldl_keep) | (with_reducible apply foldl_keep_fst) | split | (intro _) | (dsimp only [id]) | (with_reducible apply Keep.upd; first | (with_reducible assumption) | (with_reducible exact fun _ => rfl) | (with_reducible exact fun x => False.elim x) | (with_reducible apply eachOf_keep) | (with_reducible apply State.modHm_keep) | (with_reducible apply foldl_keep) | (with_reducible apply foldl_keep_fst) | split | (dsimp only [id])))

theorem execScheduledStart_keep {T : Prop} {r : State} {x0} {x1} (h : Keep T False r x1) : Keep T False r (@execScheduledStart x0 x1) := by
  unfold execScheduledStart
  (try dsimp only)
  repeat' (first | (with_reducible assumption) | (with_reducible exact fun _ => rfl) | (with_reducible exact fun x => False.elim x) | (with_reducible apply State.modSeat_keep) | (with_reducible apply State.stopMargins_keep) | (with_reducible apply State.holdAbort_keep) | (with_reducible apply State.walkFrom_keep) | (with_reducible apply foldl_keep) | (with_reducible apply foldl_keep_fst) | split | (intro _) | (dsimp only [id]) | (with_reducible apply Keep.upd; first | (with_reducible assumption) | (with_reducible exact fun _ => rfl) | (with_reducible exact fun x => False.elim x) | (with_reducible apply State.modSeat_keep) | (with_reducible apply State.stopMargins_keep) | (with_reducible apply State.holdAbort_keep) | (with_reducible apply State.walkFrom_keep) | (with_reducible apply foldl_keep) | (with_reducible apply foldl_keep_fst) | split | (dsimp only [id])))

theorem execScheduledStop_keep {T : Prop} {r : State} {x0} {x1} (h : Keep T False r x1) : Keep T False r (@execScheduledStop x0 x1) := by
  unfold execScheduledStop
  (try dsimp only)
  repeat' (first | (with_reducible assumption) | (with_reducible exact fun _ => rfl) | (with_reducible exact fun x => False.elim x) | (with_reducible apply State.healthBell_keep) | (with_reducible apply State.enterHold_keep) | (with_reducible apply State.redirect_keep) | (with_reducible apply State.modSeat_keep) | (with_reducible apply stopWalk_keep) | split | (intro _) | (dsimp only))

theorem execSealDeadline_keep {T U : Prop} {r : State} {x0} {x1} {x2} (h : Keep T U r x2) : Keep T U r (@execSealDeadline x0 x1 x2) := by
  unfold execSealDeadline
  (try dsimp only)
  repeat' (first | (with_reducible assumption) | (with_reducible exact fun _ => rfl) | (with_reducible exact fun x => False.elim x) | (with_reducible apply State.modLink_keep) | (with_reducible apply State.late_keep) | (with_reducible apply State.modSeat_keep) | (with_reducible apply foldl_keep) | (with_reducible apply foldl_keep_fst) | split | (intro _) | (dsimp only [id]) | (with_reducible apply Keep.upd; first | (with_reducible assumption) | (with_reducible exact fun _ => rfl) | (with_reducible exact fun x => False.elim x) | (with_reducible apply State.modLink_keep) | (with_reducible apply State.late_keep) | (with_reducible apply State.modSeat_keep) | (with_reducible apply foldl_keep) | (with_reducible apply foldl_keep_fst) | split | (dsimp only [id])))

theorem State.sendFlit_keep {T U : Prop} {r : State} {x0} {x1} {x2} {x3} (h : Keep T U r x0) : Keep T U r (@State.sendFlit x0 x1 x2 x3) := by
  unfold State.sendFlit
  (try dsimp only)
  repeat' (first | (with_reducible assumption) | (with_reducible exact fun _ => rfl) | (with_reducible exact fun x => False.elim x) | (with_reducible apply State.modLink_keep) | (with_reducible apply foldl_keep) | (with_reducible apply foldl_keep_fst) | split | (intro _) | (dsimp only [id]) | (with_reducible apply Keep.upd; first | (with_reducible assumption) | (with_reducible exact fun _ => rfl) | (with_reducible exact fun x => False.elim x) | (with_reducible apply State.modLink_keep) | (with_reducible apply foldl_keep) | (with_reducible apply foldl_keep_fst) | split | (dsimp only [id])))

theorem State.sendIdle_keep {T U : Prop} {r : State} {x0} {x1} {x2} {x3} (h : Keep T U r x0) : Keep T U r (@State.sendIdle x0 x1 x2 x3) := by
  unfold State.sendIdle
  (try dsimp only)
  repeat' (first | (with_reducible assumption) | (with_reducible exact fun _ => rfl) | (with_reducible exact fun x => False.elim x) | (with_reducible apply State.sendFlit_keep) | (with_reducible apply State.modLink_keep) | (with_reducible apply foldl_keep) | (with_reducible apply foldl_keep_fst) | split | (intro _) | (dsimp only [id]) | (with_reducible apply Keep.upd; first | (with_reducible assumption) | (with_reducible exact fun _ => rfl) | (with_reducible exact fun x => False.elim x) | (with_reducible apply State.sendFlit_keep) | (with_reducible apply State.modLink_keep) | (with_reducible apply foldl_keep) | (with_reducible apply foldl_keep_fst) | split | (dsimp only [id])))

theorem State.unseal_keep {T U : Prop} {r : State} {x0} {x1} {x2} (h : Keep T U r x0) : Keep T U r (@State.unseal x0 x1 x2) := by
  unfold State.unseal
  (try dsimp only)
  repeat' (first | (with_reducible assumption) | (with_reducible exact fun _ => rfl) | (with_reducible exact fun x => False.elim x) | (with_reducible apply State.flushHeld_keep) | (with_reducible apply State.modCore_keep) | (with_reducible apply foldl_keep) | (with_reducible apply foldl_keep_fst) | split | (intro _) | (dsimp only [id]) | (with_reducible apply Keep.upd; first | (with_reducible assumption) | (with_reducible exact fun _ => rfl) | (with_reducible exact fun x => False.elim x) | (with_reducible apply State.flushHeld_keep) | (with_reducible apply State.modCore_keep) | (with_reducible apply foldl_keep) | (with_reducible apply foldl_keep_fst) | split | (dsimp only [id])))

theorem State.sendData_keep {T U : Prop} {r : State} {x0} {x1} {x2} {x3} (h : Keep T U r x0) : Keep T U r (@State.sendData x0 x1 x2 x3) := by
  unfold State.sendData
  (try dsimp only)
  repeat' (first | (with_reducible assumption) | (with_reducible exact fun _ => rfl) | (with_reducible exact fun x => False.elim x) | (with_reducible apply State.sendFlit_keep) | (with_reducible apply State.sendIdle_keep) | (with_reducible apply State.noteCorrected_keep) | (with_reducible apply State.noteErr_keep) | (with_reducible apply State.unseal_keep) | (with_reducible apply State.modLink_keep) | (with_reducible apply foldl_keep) | (with_reducible apply foldl_keep_fst) | split | (intro _) | (dsimp only [id]) | (with_reducible apply Keep.upd; first | (with_reducible assumption) | (with_reducible exact fun _ => rfl) | (with_reducible exact fun x => False.elim x) | (with_reducible apply State.sendFlit_keep) | (with_reducible apply State.sendIdle_keep) | (with_reducible apply State.noteCorrected_keep) | (with_reducible apply State.noteErr_keep) | (with_reducible apply State.unseal_keep) | (with_reducible apply State.modLink_keep) | (with_reducible apply foldl_keep) | (with_reducible apply foldl_keep_fst) | split | (dsimp only [id])))

theorem State.sendBulk_keep {T U : Prop} {r : State} {x0} {x1} {x2} {x3} (h : Keep T U r x0) : Keep T U r (@State.sendBulk x0 x1 x2 x3) := by
  unfold State.sendBulk
  (try dsimp only)
  repeat' (first | (with_reducible assumption) | (with_reducible exact fun _ => rfl) | (with_reducible exact fun x => False.elim x) | (with_reducible apply State.sendIdle_keep) | (with_reducible apply State.sendFlit_keep) | (with_reducible apply State.modSeat_keep) | (with_reducible apply foldl_keep) | (with_reducible apply foldl_keep_fst) | split | (intro _) | (dsimp only [id]) | (with_reducible apply Keep.upd; first | (with_reducible assumption) | (with_reducible exact fun _ => rfl) | (with_reducible exact fun x => False.elim x) | (with_reducible apply State.sendIdle_keep) | (with_reducible apply State.sendFlit_keep) | (with_reducible apply State.modSeat_keep) | (with_reducible apply foldl_keep) | (with_reducible apply foldl_keep_fst) | split | (dsimp only [id])))

theorem State.sendPool_keep {T U : Prop} {r : State} {x0} {x1} {x2} {x3} (h : Keep T U r x0) : Keep T U r (@State.sendPool x0 x1 x2 x3) := by
  unfold State.sendPool
  (try dsimp only)
  repeat' (first | (with_reducible assumption) | (with_reducible exact fun _ => rfl) | (with_reducible exact fun x => False.elim x) | (with_reducible apply State.modLink_keep) | (with_reducible apply State.sendIdle_keep) | (with_reducible apply State.sendFlit_keep) | (with_reducible apply foldl_keep) | (with_reducible apply foldl_keep_fst) | split | (intro _) | (dsimp only [id]) | (with_reducible apply Keep.upd; first | (with_reducible assumption) | (with_reducible exact fun _ => rfl) | (with_reducible exact fun x => False.elim x) | (with_reducible apply State.modLink_keep) | (with_reducible apply State.sendIdle_keep) | (with_reducible apply State.sendFlit_keep) | (with_reducible apply foldl_keep) | (with_reducible apply foldl_keep_fst) | split | (dsimp only [id])))

theorem State.sendResend_keep {T U : Prop} {r : State} {x0} {x1} {x2} {x3} (h : Keep T U r x0) : Keep T U r (@State.sendResend x0 x1 x2 x3) := by
  unfold State.sendResend
  (try dsimp only)
  repeat' (first | (with_reducible assumption) | (with_reducible exact fun _ => rfl) | (with_reducible exact fun x => False.elim x) | (with_reducible apply State.sendIdle_keep) | (with_reducible apply State.modLink_keep) | (with_reducible apply State.bump_keep) | (with_reducible apply foldl_keep) | (with_reducible apply foldl_keep_fst) | split | (intro _) | (dsimp only [id]) | (with_reducible apply Keep.upd; first | (with_reducible assumption) | (with_reducible exact fun _ => rfl) | (with_reducible exact fun x => False.elim x) | (with_reducible apply State.sendIdle_keep) | (with_reducible apply State.modLink_keep) | (with_reducible apply State.bump_keep) | (with_reducible apply foldl_keep) | (with_reducible apply foldl_keep_fst) | split | (dsimp only [id])))

theorem execTxSlot_keep {T U : Prop} {r : State} {x0} {x1} {x2} (h : Keep T U r x2) : Keep T U r (@execTxSlot x0 x1 x2) := by
  unfold execTxSlot
  (try dsimp only)
  repeat' (first | (with_reducible assumption) | (with_reducible exact fun _ => rfl) | (with_reducible exact fun x => False.elim x) | (with_reducible apply State.modLink_keep) | (with_reducible apply State.sendFlit_keep) | (with_reducible apply State.sendIdle_keep) | (with_reducible apply State.sendData_keep) | (with_reducible apply State.sendBulk_keep) | (with_reducible apply State.sendResend_keep) | (with_reducible apply State.sendPool_keep) | (with_reducible apply State.burn_keep) | (with_reducible apply foldl_keep) | (with_reducible apply foldl_keep_fst) | split | (intro _) | (dsimp only [id]) | (with_reducible apply Keep.upd; first | (with_reducible assumption) | (with_reducible exact fun _ => rfl) | (with_reducible exact fun x => False.elim x) | (with_reducible apply State.modLink_keep) | (with_reducible apply State.sendFlit_keep) | (with_reducible apply State.sendIdle_keep) | (with_reducible apply State.sendData_keep) | (with_reducible apply State.sendBulk_keep) | (with_reducible apply State.sendResend_keep) | (with_reducible apply State.sendPool_keep) | (with_reducible apply State.burn_keep) | (with_reducible apply foldl_keep) | (with_reducible apply foldl_keep_fst) | split | (dsimp only [id])))

theorem State.noteErrRx_keep {T U : Prop} {r : State} {x0} {x1} {x2} {x3} {x4} {x5} (h : Keep T U r x0) : Keep T U r (@State.noteErrRx x0 x1 x2 x3 x4 x5) := by
  unfold State.noteErrRx
  (try dsimp only)
  repeat' (first | (with_reducible assumption) | (with_reducible exact fun _ => rfl) | (with_reducible exact fun x => False.elim x) | (with_reducible apply State.bump_keep) | (with_reducible apply State.modLink_keep) | (with_reducible apply foldl_keep) | (with_reducible apply foldl_keep_fst) | split | (intro _) | (dsimp only [id]) | (with_reducible apply Keep.upd; first | (with_reducible assumption) | (with_reducible exact fun _ => rfl) | (with_reducible exact fun x => False.elim x) | (with_reducible apply State.bump_keep) | (with_reducible apply State.modLink_keep) | (with_reducible apply foldl_keep) | (with_reducible apply foldl_keep_fst) | split | (dsimp only [id])))

theorem State.answered_keep {T U : Prop} {r : State} {x0} {x1} {x2} (h : Keep T U r x0) : Keep T U r (@State.answered x0 x1 x2) := by
  unfold State.answered
  (try dsimp only)
  repeat' (first | (with_reducible assumption) | (with_reducible exact fun _ => rfl) | (with_reducible exact fun x => False.elim x) | (with_reducible apply State.noteErrRx_keep) | (with_reducible apply State.modLink_keep) | (with_reducible apply State.dropSpent_keep) | (with_reducible apply State.endOp_keep) | (with_reducible apply foldl_keep) | (with_reducible apply foldl_keep_fst) | split | (intro _) | (dsimp only [id]) | (with_reducible apply Keep.upd; first | (with_reducible assumption) | (with_reducible exact fun _ => rfl) | (with_reducible exact fun x => False.elim x) | (with_reducible apply State.noteErrRx_keep) | (with_reducible apply State.modLink_keep) | (with_reducible apply State.dropSpent_keep) | (with_reducible apply State.endOp_keep) | (with_reducible apply foldl_keep) | (with_reducible apply foldl_keep_fst) | split | (dsimp only [id])))

theorem execAckTimeout_keep {T U : Prop} {r : State} {x0} {x1} {x2} {x3} (h : Keep T U r x3) : Keep T U r (@execAckTimeout x0 x1 x2 x3) := by
  unfold execAckTimeout
  (try dsimp only)
  repeat' (first | (with_reducible assumption) | (with_reducible exact fun _ => rfl) | (with_reducible exact fun x => False.elim x) | (with_reducible apply State.dropSpent_keep) | (with_reducible apply State.modLink_keep) | (with_reducible apply foldl_keep) | (with_reducible apply foldl_keep_fst) | split | (intro _) | (dsimp only [id]) | (with_reducible apply Keep.upd; first | (with_reducible assumption) | (with_reducible exact fun _ => rfl) | (with_reducible exact fun x => False.elim x) | (with_reducible apply State.dropSpent_keep) | (with_reducible apply State.modLink_keep) | (with_reducible apply foldl_keep) | (with_reducible apply foldl_keep_fst) | split | (dsimp only [id])))

theorem State.corrected_keep {T U : Prop} {r : State} {x0} {x1} {x2} {x3} (h : Keep T U r x0) : Keep T U r (@State.corrected x0 x1 x2 x3) := by
  unfold State.corrected
  (try dsimp only)
  repeat' (first | (with_reducible assumption) | (with_reducible exact fun _ => rfl) | (with_reducible exact fun x => False.elim x) | (with_reducible apply State.modLink_keep) | (with_reducible apply State.bump_keep) | (with_reducible apply foldl_keep) | (with_reducible apply foldl_keep_fst) | split | (intro _) | (dsimp only [id]) | (with_reducible apply Keep.upd; first | (with_reducible assumption) | (with_reducible exact fun _ => rfl) | (with_reducible exact fun x => False.elim x) | (with_reducible apply State.modLink_keep) | (with_reducible apply State.bump_keep) | (with_reducible apply foldl_keep) | (with_reducible apply foldl_keep_fst) | split | (dsimp only [id])))

theorem State.violation_keep {T U : Prop} {r : State} {x0} {x1} {x2} {x3} {x4} {x5} {x6} {x7} {x8} (h : Keep T U r x0) : Keep T U r (@State.violation x0 x1 x2 x3 x4 x5 x6 x7 x8) := by
  unfold State.violation
  (try dsimp only)
  repeat' (first | (with_reducible assumption) | (with_reducible exact fun _ => rfl) | (with_reducible exact fun x => False.elim x) | (with_reducible apply State.modLink_keep) | (with_reducible apply State.vlog_keep) | (with_reducible apply State.bump_keep) | (with_reducible apply State.taint_keep) | (with_reducible apply State.endOp_keep) | (with_reducible apply foldl_keep) | (with_reducible apply foldl_keep_fst) | split | (intro _) | (dsimp only [id]) | (with_reducible apply Keep.upd; first | (with_reducible assumption) | (with_reducible exact fun _ => rfl) | (with_reducible exact fun x => False.elim x) | (with_reducible apply State.modLink_keep) | (with_reducible apply State.vlog_keep) | (with_reducible apply State.bump_keep) | (with_reducible apply State.taint_keep) | (with_reducible apply State.endOp_keep) | (with_reducible apply foldl_keep) | (with_reducible apply foldl_keep_fst) | split | (dsimp only [id])))

theorem State.checkSlot_keep {T U : Prop} {r : State} {x0} {x1} {x2} {x3} (h : Keep T U r x0) : Keep T U r (@State.checkSlot x0 x1 x2 x3).1 := by
  unfold State.checkSlot
  (try dsimp only)
  repeat' (first | (with_reducible assumption) | (with_reducible exact fun _ => rfl) | (with_reducible exact fun x => False.elim x) | (with_reducible apply State.libRead_keep) | (with_reducible apply foldl_keep) | (with_reducible apply foldl_keep_fst) | (refine Keep.of_pair (by assumption) ?_) | split | (intro _) | (dsimp only [id]) | (with_reducible apply Keep.upd; first | (with_reducible assumption) | (with_reducible exact fun _ => rfl) | (with_reducible exact fun x => False.elim x) | (with_reducible apply State.libRead_keep) | (with_reducible apply foldl_keep) | (with_reducible apply foldl_keep_fst) | (refine Keep.of_pair (by assumption) ?_) | split | (dsimp only [id])))

theorem State.copyUnit_keep {T U : Prop} {r : State} {x0} {x1} {x2} {x3} {x4} (h : Keep T U r x0) : Keep T U r (@State.copyUnit x0 x1 x2 x3 x4) := by
  unfold State.copyUnit
  (try dsimp only)
  repeat' (first | (with_reducible assumption) | (with_reducible exact fun _ => rfl) | (with_reducible exact fun x => False.elim x) | (with_reducible apply State.libWrite_keep) | (with_reducible apply State.checkSlot_keep) | (with_reducible apply State.modSeat_keep) | (with_reducible apply foldl_keep) | (with_reducible apply foldl_keep_fst) | (refine Keep.of_pair (by assumption) ?_) | split | (intro _) | (dsimp only [id]) | (with_reducible apply Keep.upd; first | (with_reducible assumption) | (with_reducible exact fun _ => rfl) | (with_reducible exact fun x => False.elim x) | (with_reducible apply State.libWrite_keep) | (with_reducible apply State.checkSlot_keep) | (with_reducible apply State.modSeat_keep) | (with_reducible apply foldl_keep) | (with_reducible apply foldl_keep_fst) | (refine Keep.of_pair (by assumption) ?_) | split | (dsimp only [id])))

theorem State.answerNaming_keep {T U : Prop} {r : State} {x0} {x1} {x2} (h : Keep T U r x0) : Keep T U r (@State.answerNaming x0 x1 x2) := by
  unfold State.answerNaming
  (try dsimp only)
  repeat' (first | (with_reducible assumption) | (with_reducible exact fun _ => rfl) | (with_reducible exact fun x => False.elim x) | (with_reducible apply State.tell_keep) | (with_reducible apply foldl_keep) | (with_reducible apply foldl_keep_fst) | split | (intro _) | (dsimp only [id]) | (with_reducible apply Keep.upd; first | (with_reducible assumption) | (with_reducible exact fun _ => rfl) | (with_reducible exact fun x => False.elim x) | (with_reducible apply State.tell_keep) | (with_reducible apply foldl_keep) | (with_reducible apply foldl_keep_fst) | split | (dsimp only [id])))

theorem State.hear_keep {T U : Prop} {r : State} {x0} {x1} {x2} (h : Keep T U r x0) : Keep T U r (@State.hear x0 x1 x2) := by
  unfold State.hear
  (try dsimp only)
  repeat' (first | (with_reducible assumption) | (with_reducible exact fun _ => rfl) | (with_reducible exact fun x => False.elim x) | (with_reducible apply State.tell_keep) | (with_reducible apply State.sendUnit_keep) | (with_reducible apply State.respondTo_keep) | (with_reducible apply State.modCm_keep) | (with_reducible apply State.answerNaming_keep) | (with_reducible apply foldl_keep) | (with_reducible apply foldl_keep_fst) | split | (intro _) | (dsimp only [id]) | (with_reducible apply Keep.upd; first | (with_reducible assumption) | (with_reducible exact fun _ => rfl) | (with_reducible exact fun x => False.elim x) | (with_reducible apply State.tell_keep) | (with_reducible apply State.sendUnit_keep) | (with_reducible apply State.respondTo_keep) | (with_reducible apply State.modCm_keep) | (with_reducible apply State.answerNaming_keep) | (with_reducible apply foldl_keep) | (with_reducible apply foldl_keep_fst) | split | (dsimp only [id])))

theorem State.placeBulk_keep {T U : Prop} {r : State} {x0} {x1} {x2} {x3} {x4} {x5} (h : Keep T U r x0) : Keep T U r (@State.placeBulk x0 x1 x2 x3 x4 x5) := by
  unfold State.placeBulk
  (try dsimp only)
  repeat' (first | (with_reducible assumption) | (with_reducible exact fun _ => rfl) | (with_reducible exact fun x => False.elim x) | (with_reducible apply State.copyUnit_keep) | (with_reducible apply State.modCm_keep) | (with_reducible apply State.libWrite_keep) | (with_reducible apply State.hear_keep) | (with_reducible apply foldl_keep) | (with_reducible apply foldl_keep_fst) | split | (intro _) | (dsimp only [id]) | (with_reducible apply Keep.upd; first | (with_reducible assumption) | (with_reducible exact fun _ => rfl) | (with_reducible exact fun x => False.elim x) | (with_reducible apply State.copyUnit_keep) | (with_reducible apply State.modCm_keep) | (with_reducible apply State.libWrite_keep) | (with_reducible apply State.hear_keep) | (with_reducible apply foldl_keep) | (with_reducible apply foldl_keep_fst) | split | (dsimp only [id])))

theorem State.poolData_keep {T U : Prop} {r : State} {x0} {x1} {x2} {x3} {x4} (h : Keep T U r x0) : Keep T U r (@State.poolData x0 x1 x2 x3 x4) := by
  unfold State.poolData
  (try dsimp only)
  repeat' (first | (with_reducible assumption) | (with_reducible exact fun _ => rfl) | (with_reducible exact fun x => False.elim x) | (with_reducible apply State.modLink_keep) | (with_reducible apply State.endOp_keep) | (with_reducible apply foldl_keep) | (with_reducible apply foldl_keep_fst) | split | (intro _) | (dsimp only [id]) | (with_reducible apply Keep.upd; first | (with_reducible assumption) | (with_reducible exact fun _ => rfl) | (with_reducible exact fun x => False.elim x) | (with_reducible apply State.modLink_keep) | (with_reducible apply State.endOp_keep) | (with_reducible apply foldl_keep) | (with_reducible apply foldl_keep_fst) | split | (dsimp only [id])))

theorem State.takePool_keep {T U : Prop} {r : State} {x0} {x1} {x2} (h : Keep T U r x0) : Keep T U r (@State.takePool x0 x1 x2) := by
  unfold State.takePool
  (try dsimp only)
  repeat' (first | (with_reducible assumption) | (with_reducible exact fun _ => rfl) | (with_reducible exact fun x => False.elim x) | (with_reducible apply State.poolData_keep) | (with_reducible apply State.poolAnswer_keep) | (with_reducible apply foldl_keep) | (with_reducible apply foldl_keep_fst) | split | (intro _) | (dsimp only [id]) | (with_reducible apply Keep.upd; first | (with_reducible assumption) | (with_reducible exact fun _ => rfl) | (with_reducible exact fun x => False.elim x) | (with_reducible apply State.poolData_keep) | (with_reducible apply State.poolAnswer_keep) | (with_reducible apply foldl_keep) | (with_reducible apply foldl_keep_fst) | split | (dsimp only [id])))

theorem State.placeData_keep {T U : Prop} {r : State} {x0} {x1} {x2} {x3} {x4} {x5} (h : Keep T U r x0) : Keep T U r (@State.placeData x0 x1 x2 x3 x4 x5) := by
  unfold State.placeData
  (try dsimp only)
  repeat' (first | (with_reducible assumption) | (with_reducible exact fun _ => rfl) | (with_reducible exact fun x => False.elim x) | (with_reducible apply State.libWrite_keep) | (with_reducible apply State.modCm_keep) | (with_reducible apply foldl_keep) | (with_reducible apply foldl_keep_fst) | split | (intro _) | (dsimp only [id]) | (with_reducible apply Keep.upd; first | (with_reducible assumption) | (with_reducible exact fun _ => rfl) | (with_reducible exact fun x => False.elim x) | (with_reducible apply State.libWrite_keep) | (with_reducible apply State.modCm_keep) | (with_reducible apply foldl_keep) | (with_reducible apply foldl_keep_fst) | split | (dsimp only [id])))

theorem State.take_keep {T U : Prop} {r : State} {x0} {x1} {x2} {x3} {x4} (h : Keep T U r x0) : Keep T U r (@State.take x0 x1 x2 x3 x4) := by
  unfold State.take
  (try dsimp only)
  repeat' (first | (with_reducible assumption) | (with_reducible exact fun _ => rfl) | (with_reducible exact fun x => False.elim x) | (with_reducible apply State.modLink_keep) | (with_reducible apply State.placeData_keep) | (with_reducible apply State.taint_keep) | (with_reducible apply State.placeBulk_keep) | (with_reducible apply State.takePool_keep) | (with_reducible apply foldl_keep) | (with_reducible apply foldl_keep_fst) | split | (intro _) | (dsimp only [id]) | (with_reducible apply Keep.upd; first | (with_reducible assumption) | (with_reducible exact fun _ => rfl) | (with_reducible exact fun x => False.elim x) | (with_reducible apply State.modLink_keep) | (with_reducible apply State.placeData_keep) | (with_reducible apply State.taint_keep) | (with_reducible apply State.placeBulk_keep) | (with_reducible apply State.takePool_keep) | (with_reducible apply foldl_keep) | (with_reducible apply foldl_keep_fst) | split | (dsimp only [id])))

theorem State.awaitResend_keep {T U : Prop} {r : State} {x0} {x1} {x2} {x3} {x4} (h : Keep T U r x0) : Keep T U r (@State.awaitResend x0 x1 x2 x3 x4) := by
  unfold State.awaitResend
  (try dsimp only)
  repeat' (first | (with_reducible assumption) | (with_reducible exact fun _ => rfl) | (with_reducible exact fun x => False.elim x) | (with_reducible apply State.modLink_keep) | (with_reducible apply foldl_keep) | (with_reducible apply foldl_keep_fst) | split | (intro _) | (dsimp only [id]) | (with_reducible apply Keep.upd; first | (with_reducible assumption) | (with_reducible exact fun _ => rfl) | (with_reducible exact fun x => False.elim x) | (with_reducible apply State.modLink_keep) | (with_reducible apply foldl_keep) | (with_reducible apply foldl_keep_fst) | split | (dsimp only [id])))

theorem State.damagedFlit_keep {T U : Prop} {r : State} {x0} {x1} {x2} {x3} {x4} {x5} {x6} (h : Keep T U r x0) : Keep T U r (@State.damagedFlit x0 x1 x2 x3 x4 x5 x6) := by
  unfold State.damagedFlit
  (try dsimp only)
  repeat' (first | (with_reducible assumption) | (with_reducible exact fun _ => rfl) | (with_reducible exact fun x => False.elim x) | (with_reducible apply State.scoreWaves_keep) | (with_reducible apply State.bump_keep) | (with_reducible apply State.modLink_keep) | (with_reducible apply State.awaitResend_keep) | (with_reducible apply foldl_keep) | (with_reducible apply foldl_keep_fst) | split | (intro _) | (dsimp only [id]) | (with_reducible apply Keep.upd; first | (with_reducible assumption) | (with_reducible exact fun _ => rfl) | (with_reducible exact fun x => False.elim x) | (with_reducible apply State.scoreWaves_keep) | (with_reducible apply State.bump_keep) | (with_reducible apply State.modLink_keep) | (with_reducible apply State.awaitResend_keep) | (with_reducible apply foldl_keep) | (with_reducible apply foldl_keep_fst) | split | (dsimp only [id])))

theorem State.followCount_keep {U : Prop} {r : State} {x0} {x1} {x2} (h : Keep False U r x0) : Keep False U r (@State.followCount x0 x1 x2) := by
  unfold State.followCount
  (try dsimp only)
  repeat' (first | (with_reducible assumption) | (with_reducible exact fun _ => rfl) | (with_reducible exact fun x => False.elim x) | (with_reducible apply State.modSeat_keep) | (with_reducible apply foldl_keep) | (with_reducible apply foldl_keep_fst) | split | (intro _) | (dsimp only [id]) | (with_reducible apply Keep.upd; first | (with_reducible assumption) | (with_reducible exact fun _ => rfl) | (with_reducible exact fun x => False.elim x) | (with_reducible apply State.modSeat_keep) | (with_reducible apply foldl_keep) | (with_reducible apply foldl_keep_fst) | split | (dsimp only [id])) | (with_reducible apply Keep.updClk; first | (with_reducible assumption) | (with_reducible exact fun _ => rfl) | (with_reducible exact fun x => False.elim x) | (with_reducible apply State.modSeat_keep) | (with_reducible apply foldl_keep) | (with_reducible apply foldl_keep_fst) | split | (dsimp only [id]) | (with_reducible apply Keep.upd; first | (with_reducible assumption) | (with_reducible exact fun _ => rfl) | (with_reducible exact fun x => False.elim x) | (with_reducible apply State.modSeat_keep) | (with_reducible apply foldl_keep) | (with_reducible apply foldl_keep_fst) | split | (dsimp only [id]))))
  all_goals rfl

theorem State.quizFlit_keep {T U : Prop} {r : State} {x0} {x1} {x2} {x3} {x4} (h : Keep T U r x0) : Keep T U r (@State.quizFlit x0 x1 x2 x3 x4) := by
  unfold State.quizFlit
  (try dsimp only)
  repeat' (first | (with_reducible assumption) | (with_reducible exact fun _ => rfl) | (with_reducible exact fun x => False.elim x) | (with_reducible apply State.modLink_keep) | (with_reducible apply foldl_keep) | (with_reducible apply foldl_keep_fst) | split | (intro _) | (dsimp only [id]) | (with_reducible apply Keep.upd; first | (with_reducible assumption) | (with_reducible exact fun _ => rfl) | (with_reducible exact fun x => False.elim x) | (with_reducible apply State.modLink_keep) | (with_reducible apply foldl_keep) | (with_reducible apply foldl_keep_fst) | split | (dsimp only [id])))

theorem State.acceptFlit_keep {T U : Prop} {r : State} {x0} {x1} {x2} {x3} {x4} {x5} {x6} (h : Keep T U r x0) : Keep T U r (@State.acceptFlit x0 x1 x2 x3 x4 x5 x6) := by
  unfold State.acceptFlit
  (try dsimp only)
  repeat' (first | (with_reducible assumption) | (with_reducible exact fun _ => rfl) | (with_reducible exact fun x => False.elim x) | (with_reducible apply State.answered_keep) | (with_reducible apply State.modLink_keep) | (with_reducible apply State.quizFlit_keep) | (with_reducible apply State.take_keep) | (with_reducible apply foldl_keep) | (with_reducible apply foldl_keep_fst) | split | (intro _) | (dsimp only [id]) | (with_reducible apply Keep.upd; first | (with_reducible assumption) | (with_reducible exact fun _ => rfl) | (with_reducible exact fun x => False.elim x) | (with_reducible apply State.answered_keep) | (with_reducible apply State.modLink_keep) | (with_reducible apply State.quizFlit_keep) | (with_reducible apply State.take_keep) | (with_reducible apply foldl_keep) | (with_reducible apply foldl_keep_fst) | split | (dsimp only [id])))

theorem State.missedFlit_keep {T U : Prop} {r : State} {x0} {x1} {x2} {x3} {x4} (h : Keep T U r x0) : Keep T U r (@State.missedFlit x0 x1 x2 x3 x4) := by
  unfold State.missedFlit
  (try dsimp only)
  repeat' (first | (with_reducible assumption) | (with_reducible exact fun _ => rfl) | (with_reducible exact fun x => False.elim x) | (with_reducible apply State.modLink_keep) | (with_reducible apply State.awaitResend_keep) | (with_reducible apply foldl_keep) | (with_reducible apply foldl_keep_fst) | split | (intro _) | (dsimp only [id]) | (with_reducible apply Keep.upd; first | (with_reducible assumption) | (with_reducible exact fun _ => rfl) | (with_reducible exact fun x => False.elim x) | (with_reducible apply State.modLink_keep) | (with_reducible apply State.awaitResend_keep) | (with_reducible apply foldl_keep) | (with_reducible apply foldl_keep_fst) | split | (dsimp only [id])))

theorem execFlitReceive_keep {U : Prop} {r : State} {x0} {x1} {x2} {x3} {x4} {x5} (h : Keep False U r x5) : Keep False U r (@execFlitReceive x0 x1 x2 x3 x4 x5) := by
  unfold execFlitReceive
  (try dsimp only)
  repeat' (first | (with_reducible assumption) | (with_reducible exact fun _ => rfl) | (with_reducible exact fun x => False.elim x) | (with_reducible apply State.missedFlit_keep) | (with_reducible apply State.corrected_keep) | (with_reducible apply State.damagedFlit_keep) | (with_reducible apply State.modTt_keep) | (with_reducible apply State.followCount_keep) | (with_reducible apply State.violation_keep) | (with_reducible apply State.acceptFlit_keep) | (with_reducible apply foldl_keep) | (with_reducible apply foldl_keep_fst) | split | (intro _) | (dsimp only [id]) | (with_reducible apply Keep.upd; first | (with_reducible assumption) | (with_reducible exact fun _ => rfl) | (with_reducible exact fun x => False.elim x) | (with_reducible apply State.missedFlit_keep) | (with_reducible apply State.corrected_keep) | (with_reducible apply State.damagedFlit_keep) | (with_reducible apply State.modTt_keep) | (with_reducible apply State.followCount_keep) | (with_reducible apply State.violation_keep) | (with_reducible apply State.acceptFlit_keep) | (with_reducible apply foldl_keep) | (with_reducible apply foldl_keep_fst) | split | (dsimp only [id])) | (with_reducible apply Keep.updClk; first | (with_reducible assumption) | (with_reducible exact fun _ => rfl) | (with_reducible exact fun x => False.elim x) | (with_reducible apply State.missedFlit_keep) | (with_reducible apply State.corrected_keep) | (with_reducible apply State.damagedFlit_keep) | (with_reducible apply State.modTt_keep) | (with_reducible apply State.followCount_keep) | (with_reducible apply State.violation_keep) | (with_reducible apply State.acceptFlit_keep) | (with_reducible apply foldl_keep) | (with_reducible apply foldl_keep_fst) | split | (dsimp only [id]) | (with_reducible apply Keep.upd; first | (with_reducible assumption) | (with_reducible exact fun _ => rfl) | (with_reducible exact fun x => False.elim x) | (with_reducible apply State.missedFlit_keep) | (with_reducible apply State.corrected_keep) | (with_reducible apply State.damagedFlit_keep) | (with_reducible apply State.modTt_keep) | (with_reducible apply State.followCount_keep) | (with_reducible apply State.violation_keep) | (with_reducible apply State.acceptFlit_keep) | (with_reducible apply foldl_keep) | (with_reducible apply foldl_keep_fst) | split | (dsimp only [id]))))

theorem State.joinChild_keep {T U : Prop} {r : State} {x0} {x1} {x2} {x3} (h : Keep T U r x0) : Keep T U r (@State.joinChild x0 x1 x2 x3) := by
  unfold State.joinChild
  (try dsimp only)
  repeat' (first | (with_reducible assumption) | (with_reducible exact fun _ => rfl) | (with_reducible exact fun x => False.elim x) | (with_reducible apply State.modTt_keep) | (with_reducible apply foldl_keep) | (with_reducible apply foldl_keep_fst) | split | (intro _) | (dsimp only [id]) | (with_reducible apply Keep.upd; first | (with_reducible assumption) | (with_reducible exact fun _ => rfl) | (with_reducible exact fun x => False.elim x) | (with_reducible apply State.modTt_keep) | (with_reducible apply foldl_keep) | (with_reducible apply foldl_keep_fst) | split | (dsimp only [id])))

theorem State.addReduced_keep {T U : Prop} {r : State} {x0} {x1} {x2} {x3} {x4} (h : Keep T U r x0) : Keep T U r (@State.addReduced x0 x1 x2 x3 x4) := by
  unfold State.addReduced
  (try dsimp only)
  repeat' (first | (with_reducible assumption) | (with_reducible exact fun _ => rfl) | (with_reducible exact fun x => False.elim x) | (with_reducible apply State.modTt_keep) | (with_reducible apply foldl_keep) | (with_reducible apply foldl_keep_fst) | split | (intro _) | (dsimp only [id]) | (with_reducible apply Keep.upd; first | (with_reducible assumption) | (with_reducible exact fun _ => rfl) | (with_reducible exact fun x => False.elim x) | (with_reducible apply State.modTt_keep) | (with_reducible apply foldl_keep) | (with_reducible apply foldl_keep_fst) | split | (dsimp only [id])))

theorem execStatusFlitReceive_keep {T U : Prop} {r : State} {x0} {x1} {x2} (h : Keep T U r x2) : Keep T U r (@execStatusFlitReceive x0 x1 x2) := by
  unfold execStatusFlitReceive
  (try dsimp only)
  repeat' (first | (with_reducible assumption) | (with_reducible exact fun _ => rfl) | (with_reducible exact fun x => False.elim x) | (with_reducible apply State.joinChild_keep) | (with_reducible apply State.modTt_keep) | (with_reducible apply State.addReduced_keep) | (with_reducible apply foldl_keep) | (with_reducible apply foldl_keep_fst) | split | (intro _) | (dsimp only [id]) | (with_reducible apply Keep.upd; first | (with_reducible assumption) | (with_reducible exact fun _ => rfl) | (with_reducible exact fun x => False.elim x) | (with_reducible apply State.joinChild_keep) | (with_reducible apply State.modTt_keep) | (with_reducible apply State.addReduced_keep) | (with_reducible apply foldl_keep) | (with_reducible apply foldl_keep_fst) | split | (dsimp only [id])))

theorem execStatusChildMissing_keep {T U : Prop} {r : State} {x0} {x1} {x2} (h : Keep T U r x2) : Keep T U r (@execStatusChildMissing x0 x1 x2) := by
  unfold execStatusChildMissing
  (try dsimp only)
  repeat' (first | (with_reducible assumption) | (with_reducible exact fun _ => rfl) | (with_reducible exact fun x => False.elim x) | (with_reducible apply State.joinChild_keep) | (with_reducible apply foldl_keep) | (with_reducible apply foldl_keep_fst) | split | (intro _) | (dsimp only [id]) | (with_reducible apply Keep.upd; first | (with_reducible assumption) | (with_reducible exact fun _ => rfl) | (with_reducible exact fun x => False.elim x) | (with_reducible apply State.joinChild_keep) | (with_reducible apply foldl_keep) | (with_reducible apply foldl_keep_fst) | split | (dsimp only [id])))

theorem State.linkMove_keep {T U : Prop} {r : State} {x0} {x1} {x2} {x3} (h : Keep T U r x0) : Keep T U r (@State.linkMove x0 x1 x2 x3) := by
  unfold State.linkMove
  (try dsimp only)
  repeat' (first | (with_reducible assumption) | (with_reducible exact fun _ => rfl) | (with_reducible exact fun x => False.elim x) | (with_reducible apply State.linkTo_keep) | (with_reducible apply foldl_keep) | (with_reducible apply foldl_keep_fst) | split | (intro _) | (dsimp only [id]) | (with_reducible apply Keep.upd; first | (with_reducible assumption) | (with_reducible exact fun _ => rfl) | (with_reducible exact fun x => False.elim x) | (with_reducible apply State.linkTo_keep) | (with_reducible apply foldl_keep) | (with_reducible apply foldl_keep_fst) | split | (dsimp only [id])))

theorem execAbsentReceived_keep {T U : Prop} {r : State} {x0} {x1} (h : Keep T U r x1) : Keep T U r (@execAbsentReceived x0 x1) := by
  unfold execAbsentReceived
  (try dsimp only)
  repeat' (first | (with_reducible assumption) | (with_reducible exact fun _ => rfl) | (with_reducible exact fun x => False.elim x) | (with_reducible apply State.linkMove_keep) | (with_reducible apply foldl_keep) | (with_reducible apply foldl_keep_fst) | split | (intro _) | (dsimp only [id]) | (with_reducible apply Keep.upd; first | (with_reducible assumption) | (with_reducible exact fun _ => rfl) | (with_reducible exact fun x => False.elim x) | (with_reducible apply State.linkMove_keep) | (with_reducible apply foldl_keep) | (with_reducible apply foldl_keep_fst) | split | (dsimp only [id])))

theorem execWipeReceived_keep {T U : Prop} {r : State} {x0} {x1} (h : Keep T U r x1) : Keep T U r (@execWipeReceived x0 x1) := by
  unfold execWipeReceived
  (try dsimp only)
  repeat' (first | (with_reducible assumption) | (with_reducible exact fun _ => rfl) | (with_reducible exact fun x => False.elim x) | (with_reducible apply State.linkMove_keep) | (with_reducible apply foldl_keep) | (with_reducible apply foldl_keep_fst) | split | (intro _) | (dsimp only [id]) | (with_reducible apply Keep.upd; first | (with_reducible assumption) | (with_reducible exact fun _ => rfl) | (with_reducible exact fun x => False.elim x) | (with_reducible apply State.linkMove_keep) | (with_reducible apply foldl_keep) | (with_reducible apply foldl_keep_fst) | split | (dsimp only [id])))

theorem execAbsentPatternEnd_keep {T U : Prop} {r : State} {x0} {x1} {x2} (h : Keep T U r x2) : Keep T U r (@execAbsentPatternEnd x0 x1 x2) := by
  unfold execAbsentPatternEnd
  (try dsimp only)
  repeat' (first | (with_reducible assumption) | (with_reducible exact fun _ => rfl) | (with_reducible exact fun x => False.elim x) | (with_reducible apply State.linkTo_keep) | (with_reducible apply foldl_keep) | (with_reducible apply foldl_keep_fst) | split | (intro _) | (dsimp only [id]) | (with_reducible apply Keep.upd; first | (with_reducible assumption) | (with_reducible exact fun _ => rfl) | (with_reducible exact fun x => False.elim x) | (with_reducible apply State.linkTo_keep) | (with_reducible apply foldl_keep) | (with_reducible apply foldl_keep_fst) | split | (dsimp only [id])))

theorem execLightLost_keep {T U : Prop} {r : State} {x0} {x1} (h : Keep T U r x1) : Keep T U r (@execLightLost x0 x1) := by
  unfold execLightLost
  (try dsimp only)
  repeat' (first | (with_reducible assumption) | (with_reducible exact fun _ => rfl) | (with_reducible exact fun x => False.elim x) | (with_reducible apply State.linkMove_keep) | (with_reducible apply foldl_keep) | (with_reducible apply foldl_keep_fst) | split | (intro _) | (dsimp only [id]) | (with_reducible apply Keep.upd; first | (with_reducible assumption) | (with_reducible exact fun _ => rfl) | (with_reducible exact fun x => False.elim x) | (with_reducible apply State.linkMove_keep) | (with_reducible apply foldl_keep) | (with_reducible apply foldl_keep_fst) | split | (dsimp only [id])))

theorem State.scoreAll_keep {T U : Prop} {r : State} {x0} {x1} {x2} (h : Keep T U r x0) : Keep T U r (@State.scoreAll x0 x1 x2) := by
  unfold State.scoreAll
  (try dsimp only)
  repeat' (first | (with_reducible assumption) | (with_reducible exact fun _ => rfl) | (with_reducible exact fun x => False.elim x) | (with_reducible apply State.demerit_keep) | (with_reducible apply foldl_keep) | (with_reducible apply foldl_keep_fst) | split | (intro _) | (dsimp only [id]) | (with_reducible apply Keep.upd; first | (with_reducible assumption) | (with_reducible exact fun _ => rfl) | (with_reducible exact fun x => False.elim x) | (with_reducible apply State.demerit_keep) | (with_reducible apply foldl_keep) | (with_reducible apply foldl_keep_fst) | split | (dsimp only [id])))

theorem execFecLockLost_keep {T U : Prop} {r : State} {x0} {x1} (h : Keep T U r x1) : Keep T U r (@execFecLockLost x0 x1) := by
  unfold execFecLockLost
  (try dsimp only)
  repeat' (first | (with_reducible assumption) | (with_reducible exact fun _ => rfl) | (with_reducible exact fun x => False.elim x) | (with_reducible apply State.scoreAll_keep) | (with_reducible apply State.linkTo_keep) | (with_reducible apply foldl_keep) | (with_reducible apply foldl_keep_fst) | split | (intro _) | (dsimp only [id]) | (with_reducible apply Keep.upd; first | (with_reducible assumption) | (with_reducible exact fun _ => rfl) | (with_reducible exact fun x => False.elim x) | (with_reducible apply State.scoreAll_keep) | (with_reducible apply State.linkTo_keep) | (with_reducible apply foldl_keep) | (with_reducible apply foldl_keep_fst) | split | (dsimp only [id])))

theorem execLightDetected_keep {T U : Prop} {r : State} {x0} {x1} {x2} (h : Keep T U r x2) : Keep T U r (@execLightDetected x0 x1 x2) := by
  unfold execLightDetected
  (try dsimp only)
  repeat' (first | (with_reducible assumption) | (with_reducible exact fun _ => rfl) | (with_reducible exact fun x => False.elim x) | (with_reducible apply State.linkTo_keep) | (with_reducible apply foldl_keep) | (with_reducible apply foldl_keep_fst) | split | (intro _) | (dsimp only [id]) | (with_reducible apply Keep.upd; first | (with_reducible assumption) | (with_reducible exact fun _ => rfl) | (with_reducible exact fun x => False.elim x) | (with_reducible apply State.linkTo_keep) | (with_reducible apply foldl_keep) | (with_reducible apply foldl_keep_fst) | split | (dsimp only [id])))

theorem execSignalTrained_keep {T U : Prop} {r : State} {x0} {x1} {x2} {x3} (h : Keep T U r x3) : Keep T U r (@execSignalTrained x0 x1 x2 x3) := by
  unfold execSignalTrained
  (try dsimp only)
  repeat' (first | (with_reducible assumption) | (with_reducible exact fun _ => rfl) | (with_reducible exact fun x => False.elim x) | (with_reducible apply State.linkTo_keep) | (with_reducible apply State.modLink_keep) | (with_reducible apply State.burn_keep) | (with_reducible apply foldl_keep) | (with_reducible apply foldl_keep_fst) | split | (intro _) | (dsimp only [id]) | (with_reducible apply Keep.upd; first | (with_reducible assumption) | (with_reducible exact fun _ => rfl) | (with_reducible exact fun x => False.elim x) | (with_reducible apply State.linkTo_keep) | (with_reducible apply State.modLink_keep) | (with_reducible apply State.burn_keep) | (with_reducible apply foldl_keep) | (with_reducible apply foldl_keep_fst) | split | (dsimp only [id])))

theorem execFecAligned_keep {T U : Prop} {r : State} {x0} {x1} (h : Keep T U r x1) : Keep T U r (@execFecAligned x0 x1) := by
  unfold execFecAligned
  (try dsimp only)
  repeat' (first | (with_reducible assumption) | (with_reducible exact fun _ => rfl) | (with_reducible exact fun x => False.elim x) | (with_reducible apply State.enterIdent_keep) | (with_reducible apply foldl_keep) | (with_reducible apply foldl_keep_fst) | split | (intro _) | (dsimp only [id]) | (with_reducible apply Keep.upd; first | (with_reducible assumption) | (with_reducible exact fun _ => rfl) | (with_reducible exact fun x => False.elim x) | (with_reducible apply State.enterIdent_keep) | (with_reducible apply foldl_keep) | (with_reducible apply foldl_keep_fst) | split | (dsimp only [id])))

theorem execWipePatternEnd_keep {T U : Prop} {r : State} {x0} {x1} (h : Keep T U r x1) : Keep T U r (@execWipePatternEnd x0 x1) := by
  unfold execWipePatternEnd
  (try dsimp only)
  repeat' (first | (with_reducible assumption) | (with_reducible exact fun _ => rfl) | (with_reducible exact fun x => False.elim x) | (with_reducible apply State.linkTo_keep) | (with_reducible apply State.enterIdent_keep) | (with_reducible apply foldl_keep) | (with_reducible apply foldl_keep_fst) | split | (intro _) | (dsimp only [id]) | (with_reducible apply Keep.upd; first | (with_reducible assumption) | (with_reducible exact fun _ => rfl) | (with_reducible exact fun x => False.elim x) | (with_reducible apply State.linkTo_keep) | (with_reducible apply State.enterIdent_keep) | (with_reducible apply foldl_keep) | (with_reducible apply foldl_keep_fst) | split | (dsimp only [id])))

theorem State.takeCount_keep {U : Prop} {r : State} {x0} {x1} {x2} (h : Keep False U r x0) : Keep False U r (@State.takeCount x0 x1 x2) := by
  unfold State.takeCount
  (try dsimp only)
  repeat' (first | (with_reducible assumption) | (with_reducible exact fun _ => rfl) | (with_reducible exact fun x => False.elim x) | (with_reducible apply State.modSeat_keep) | (with_reducible apply foldl_keep) | (with_reducible apply foldl_keep_fst) | split | (intro _) | (dsimp only [id]) | (with_reducible apply Keep.upd; first | (with_reducible assumption) | (with_reducible exact fun _ => rfl) | (with_reducible exact fun x => False.elim x) | (with_reducible apply State.modSeat_keep) | (with_reducible apply foldl_keep) | (with_reducible apply foldl_keep_fst) | split | (dsimp only [id])) | (with_reducible apply Keep.updClk; first | (with_reducible assumption) | (with_reducible exact fun _ => rfl) | (with_reducible exact fun x => False.elim x) | (with_reducible apply State.modSeat_keep) | (with_reducible apply foldl_keep) | (with_reducible apply foldl_keep_fst) | split | (dsimp only [id]) | (with_reducible apply Keep.upd; first | (with_reducible assumption) | (with_reducible exact fun _ => rfl) | (with_reducible exact fun x => False.elim x) | (with_reducible apply State.modSeat_keep) | (with_reducible apply foldl_keep) | (with_reducible apply foldl_keep_fst) | split | (dsimp only [id]))))
  all_goals rfl

theorem State.identOk_keep {U : Prop} {r : State} {x0} {x1} {x2} {x3} (h : Keep False U r x0) : Keep False U r (@State.identOk x0 x1 x2 x3) := by
  unfold State.identOk
  (try dsimp only)
  repeat' (first | (with_reducible assumption) | (with_reducible exact fun _ => rfl) | (with_reducible exact fun x => False.elim x) | (with_reducible apply State.modLink_keep) | (with_reducible apply State.linkTo_keep) | (with_reducible apply State.takeCount_keep) | (with_reducible apply foldl_keep) | (with_reducible apply foldl_keep_fst) | split | (intro _) | (dsimp only [id]) | (with_reducible apply Keep.upd; first | (with_reducible assumption) | (with_reducible exact fun _ => rfl) | (with_reducible exact fun x => False.elim x) | (with_reducible apply State.modLink_keep) | (with_reducible apply State.linkTo_keep) | (with_reducible apply State.takeCount_keep) | (with_reducible apply foldl_keep) | (with_reducible apply foldl_keep_fst) | split | (dsimp only [id])) | (with_reducible apply Keep.updClk; first | (with_reducible assumption) | (with_reducible exact fun _ => rfl) | (with_reducible exact fun x => False.elim x) | (with_reducible apply State.modLink_keep) | (with_reducible apply State.linkTo_keep) | (with_reducible apply State.takeCount_keep) | (with_reducible apply foldl_keep) | (with_reducible apply foldl_keep_fst) | split | (dsimp only [id]) | (with_reducible apply Keep.upd; first | (with_reducible assumption) | (with_reducible exact fun _ => rfl) | (with_reducible exact fun x => False.elim x) | (with_reducible apply State.modLink_keep) | (with_reducible apply State.linkTo_keep) | (with_reducible apply State.takeCount_keep) | (with_reducible apply foldl_keep) | (with_reducible apply foldl_keep_fst) | split | (dsimp only [id]))))

theorem execIdentReceive_keep {U : Prop} {r : State} {x0} {x1} {x2} {x3} {x4} (h : Keep False U r x4) : Keep False U r (@execIdentReceive x0 x1 x2 x3 x4) := by
  unfold execIdentReceive
  (try dsimp only)
  repeat' (first | (with_reducible assumption) | (with_reducible exact fun _ => rfl) | (with_reducible exact fun x => False.elim x) | (with_reducible apply State.linkTo_keep) | (with_reducible apply State.identOk_keep) | (with_reducible apply foldl_keep) | (with_reducible apply foldl_keep_fst) | split | (intro _) | (dsimp only [id]) | (with_reducible apply Keep.upd; first | (with_reducible assumption) | (with_reducible exact fun _ => rfl) | (with_reducible exact fun x => False.elim x) | (with_reducible apply State.linkTo_keep) | (with_reducible apply State.identOk_keep) | (with_reducible apply foldl_keep) | (with_reducible apply foldl_keep_fst) | split | (dsimp only [id])) | (with_reducible apply Keep.updClk; first | (with_reducible assumption) | (with_reducible exact fun _ => rfl) | (with_reducible exact fun x => False.elim x) | (with_reducible apply State.linkTo_keep) | (with_reducible apply State.identOk_keep) | (with_reducible apply foldl_keep) | (with_reducible apply foldl_keep_fst) | split | (dsimp only [id]) | (with_reducible apply Keep.upd; first | (with_reducible assumption) | (with_reducible exact fun _ => rfl) | (with_reducible exact fun x => False.elim x) | (with_reducible apply State.linkTo_keep) | (with_reducible apply State.identOk_keep) | (with_reducible apply foldl_keep) | (with_reducible apply foldl_keep_fst) | split | (dsimp only [id]))))

theorem State.lctl_keep {T U : Prop} {r : State} {x0} {x1} {x2} {x3} {x4} (h : Keep T U r x0) : Keep T U r (@State.lctl x0 x1 x2 x3 x4) := by
  unfold State.lctl
  (try dsimp only)
  repeat' (first | (with_reducible assumption) | (with_reducible exact fun _ => rfl) | (with_reducible exact fun x => False.elim x) | (with_reducible apply State.modLink_keep) | (with_reducible apply foldl_keep) | (with_reducible apply foldl_keep_fst) | split | (intro _) | (dsimp only [id]) | (with_reducible apply Keep.upd; first | (with_reducible assumption) | (with_reducible exact fun _ => rfl) | (with_reducible exact fun x => False.elim x) | (with_reducible apply State.modLink_keep) | (with_reducible apply foldl_keep) | (with_reducible apply foldl_keep_fst) | split | (dsimp only [id])))

theorem execSwapReq_keep {T U : Prop} {r : State} {x0} {x1} {x2} {x3} {x4} (h : Keep T U r x4) : Keep T U r (@execSwapReq x0 x1 x2 x3 x4) := by
  unfold execSwapReq
  (try dsimp only)
  repeat' (first | (with_reducible assumption) | (with_reducible exact fun _ => rfl) | (with_reducible exact fun x => False.elim x) | (with_reducible apply State.lctl_keep) | (with_reducible apply State.modLink_keep) | (with_reducible apply State.modHm_keep) | (with_reducible apply foldl_keep) | (with_reducible apply foldl_keep_fst) | split | (intro _) | (dsimp only [id]) | (with_reducible apply Keep.upd; first | (with_reducible assumption) | (with_reducible exact fun _ => rfl) | (with_reducible exact fun x => False.elim x) | (with_reducible apply State.lctl_keep) | (with_reducible apply State.modLink_keep) | (with_reducible apply State.modHm_keep) | (with_reducible apply foldl_keep) | (with_reducible apply foldl_keep_fst) | split | (dsimp only [id])))

theorem execSwapAck_keep {T U : Prop} {r : State} {x0} {x1} (h : Keep T U r x1) : Keep T U r (@execSwapAck x0 x1) := by
  unfold execSwapAck
  (try dsimp only)
  repeat' (first | (with_reducible assumption) | (with_reducible exact fun _ => rfl) | (with_reducible exact fun x => False.elim x) | (with_reducible apply State.modLink_keep) | (with_reducible apply foldl_keep) | (with_reducible apply foldl_keep_fst) | split | (intro _) | (dsimp only [id]) | (with_reducible apply Keep.upd; first | (with_reducible assumption) | (with_reducible exact fun _ => rfl) | (with_reducible exact fun x => False.elim x) | (with_reducible apply State.modLink_keep) | (with_reducible apply foldl_keep) | (with_reducible apply foldl_keep_fst) | split | (dsimp only [id])))

theorem execSwapNak_keep {T U : Prop} {r : State} {x0} {x1} (h : Keep T U r x1) : Keep T U r (@execSwapNak x0 x1) := by
  unfold execSwapNak
  (try dsimp only)
  repeat' (first | (with_reducible assumption) | (with_reducible exact fun _ => rfl) | (with_reducible exact fun x => False.elim x) | (with_reducible apply State.endLinkPass_keep) | (with_reducible apply State.modLink_keep) | (with_reducible apply foldl_keep) | (with_reducible apply foldl_keep_fst) | split | (intro _) | (dsimp only [id]) | (with_reducible apply Keep.upd; first | (with_reducible assumption) | (with_reducible exact fun _ => rfl) | (with_reducible exact fun x => False.elim x) | (with_reducible apply State.endLinkPass_keep) | (with_reducible apply State.modLink_keep) | (with_reducible apply foldl_keep) | (with_reducible apply foldl_keep_fst) | split | (dsimp only [id])))

theorem execLaneSwapEffect_keep {T U : Prop} {r : State} {x0} {x1} (h : Keep T U r x1) : Keep T U r (@execLaneSwapEffect x0 x1) := by
  unfold execLaneSwapEffect
  (try dsimp only)
  repeat' (first | (with_reducible assumption) | (with_reducible exact fun _ => rfl) | (with_reducible exact fun x => False.elim x) | (with_reducible apply State.modLink_keep) | (with_reducible apply State.modHm_keep) | (with_reducible apply State.endLinkPass_keep) | (with_reducible apply foldl_keep) | (with_reducible apply foldl_keep_fst) | split | (intro _) | (dsimp only [id]) | (with_reducible apply Keep.upd; first | (with_reducible assumption) | (with_reducible exact fun _ => rfl) | (with_reducible exact fun x => False.elim x) | (with_reducible apply State.modLink_keep) | (with_reducible apply State.modHm_keep) | (with_reducible apply State.endLinkPass_keep) | (with_reducible apply foldl_keep) | (with_reducible apply foldl_keep_fst) | split | (dsimp only [id])))

end Sys2Proof.Machine
end

