-- ==== Sys2Proof/Laws/Keep4.lean ====
section
/-! SUPPORT. What the model's operations keep (Keep: the queue and the canonical form), one lemma per operation, part 4. -/

set_option linter.unusedTactic false
set_option linter.unreachableTactic false

namespace Sys2Proof.Machine

theorem State.newKeys_keep {T U : Prop} {r : State} {x0} {x1} {x2} (h : Keep T U r x0) : Keep T U r (@State.newKeys x0 x1 x2) := by
  unfold State.newKeys
  (try dsimp only)
  repeat' (first | (with_reducible assumption) | (with_reducible exact fun _ => rfl) | (with_reducible exact fun x => False.elim x) | (with_reducible apply eachOf_keep) | (with_reducible apply State.modMc_keep) | (with_reducible apply foldl_keep) | (with_reducible apply foldl_keep_fst) | split | (intro _) | (dsimp only [id]) | (with_reducible apply Keep.upd; first | (with_reducible assumption) | (with_reducible exact fun _ => rfl) | (with_reducible exact fun x => False.elim x) | (with_reducible apply eachOf_keep) | (with_reducible apply State.modMc_keep) | (with_reducible apply foldl_keep) | (with_reducible apply foldl_keep_fst) | split | (dsimp only [id])))

theorem execKeyRotationEffect_keep {T U : Prop} {r : State} {x0} {x1} (h : Keep T U r x1) : Keep T U r (@execKeyRotationEffect x0 x1) := by
  unfold execKeyRotationEffect
  (try dsimp only)
  repeat' (first | (with_reducible assumption) | (with_reducible exact fun _ => rfl) | (with_reducible exact fun x => False.elim x) | (with_reducible apply State.modSeat_keep) | (with_reducible apply State.newKeys_keep) | (with_reducible apply foldl_keep) | (with_reducible apply foldl_keep_fst) | split | (intro _) | (dsimp only [id]) | (with_reducible apply Keep.upd; first | (with_reducible assumption) | (with_reducible exact fun _ => rfl) | (with_reducible exact fun x => False.elim x) | (with_reducible apply State.modSeat_keep) | (with_reducible apply State.newKeys_keep) | (with_reducible apply foldl_keep) | (with_reducible apply foldl_keep_fst) | split | (dsimp only [id])))

theorem execSweepBlock_keep {T U : Prop} {r : State} {x0} {x1} (h : Keep T U r x1) : Keep T U r (@execSweepBlock x0 x1) := by
  unfold execSweepBlock
  (try dsimp only)
  repeat' (first | (with_reducible assumption) | (with_reducible exact fun _ => rfl) | (with_reducible exact fun x => False.elim x) | (with_reducible apply State.tagBlocks_keep) | (with_reducible apply State.noteCorrected_keep) | (with_reducible apply State.noteErr_keep) | (with_reducible apply State.modMc_keep) | (with_reducible apply foldl_keep) | (with_reducible apply foldl_keep_fst) | split | (intro _) | (dsimp only [id]) | (with_reducible apply Keep.upd; first | (with_reducible assumption) | (with_reducible exact fun _ => rfl) | (with_reducible exact fun x => False.elim x) | (with_reducible apply State.tagBlocks_keep) | (with_reducible apply State.noteCorrected_keep) | (with_reducible apply State.noteErr_keep) | (with_reducible apply State.modMc_keep) | (with_reducible apply foldl_keep) | (with_reducible apply foldl_keep_fst) | split | (dsimp only [id])))

theorem execOldEpochErase_keep {T U : Prop} {r : State} {x0} {x1} (h : Keep T U r x1) : Keep T U r (@execOldEpochErase x0 x1) := by
  unfold execOldEpochErase
  (try dsimp only)
  repeat' (first | (with_reducible assumption) | (with_reducible exact fun _ => rfl) | (with_reducible exact fun x => False.elim x) | (with_reducible apply State.modHm_keep) | (with_reducible apply State.modMc_keep) | (with_reducible apply foldl_keep) | (with_reducible apply foldl_keep_fst) | split | (intro _) | (dsimp only [id]) | (with_reducible apply Keep.upd; first | (with_reducible assumption) | (with_reducible exact fun _ => rfl) | (with_reducible exact fun x => False.elim x) | (with_reducible apply State.modHm_keep) | (with_reducible apply State.modMc_keep) | (with_reducible apply foldl_keep) | (with_reducible apply foldl_keep_fst) | split | (dsimp only [id])))

theorem execPageCopyComplete_keep {T U : Prop} {r : State} {x0} {x1} {x2} (h : Keep T U r x2) : Keep T U r (@execPageCopyComplete x0 x1 x2) := by
  unfold execPageCopyComplete
  (try dsimp only)
  repeat' (first | (with_reducible assumption) | (with_reducible exact fun _ => rfl) | (with_reducible exact fun x => False.elim x) | (with_reducible apply State.modHm_keep) | (with_reducible apply State.modMc_keep) | (with_reducible apply foldl_keep) | (with_reducible apply foldl_keep_fst) | split | (intro _) | (dsimp only [id]) | (with_reducible apply Keep.upd; first | (with_reducible assumption) | (with_reducible exact fun _ => rfl) | (with_reducible exact fun x => False.elim x) | (with_reducible apply State.modHm_keep) | (with_reducible apply State.modMc_keep) | (with_reducible apply foldl_keep) | (with_reducible apply foldl_keep_fst) | split | (dsimp only [id])))

theorem State.scrubWord_keep {T U : Prop} {r : State} {x0} {x1} {x2} (h : Keep T U r x0) : Keep T U r (@State.scrubWord x0 x1 x2) := by
  unfold State.scrubWord
  (try dsimp only)
  repeat' (first | (with_reducible assumption) | (with_reducible exact fun _ => rfl) | (with_reducible exact fun x => False.elim x) | (with_reducible apply State.correctedBlock_keep) | (with_reducible apply State.correctedWord_keep) | (with_reducible apply foldl_keep) | (with_reducible apply foldl_keep_fst) | split | (intro _) | (dsimp only [id]) | (with_reducible apply Keep.upd; first | (with_reducible assumption) | (with_reducible exact fun _ => rfl) | (with_reducible exact fun x => False.elim x) | (with_reducible apply State.correctedBlock_keep) | (with_reducible apply State.correctedWord_keep) | (with_reducible apply foldl_keep) | (with_reducible apply foldl_keep_fst) | split | (dsimp only [id])))

theorem State.takeLevel_keep {T U : Prop} {r : State} {x0} {x1} (h : Keep T U r x0) : Keep T U r (@State.takeLevel x0 x1) := by
  unfold State.takeLevel
  (try dsimp only)
  repeat' (first | (with_reducible assumption) | (with_reducible exact fun _ => rfl) | (with_reducible exact fun x => False.elim x) | (with_reducible apply State.modHm_keep) | (with_reducible apply foldl_keep) | (with_reducible apply foldl_keep_fst) | split | (intro _) | (dsimp only [id]) | (with_reducible apply Keep.upd; first | (with_reducible assumption) | (with_reducible exact fun _ => rfl) | (with_reducible exact fun x => False.elim x) | (with_reducible apply State.modHm_keep) | (with_reducible apply foldl_keep) | (with_reducible apply foldl_keep_fst) | split | (dsimp only [id])))

theorem execPatrolScrubPass_keep {T U : Prop} {r : State} {x0} {x1} {x2} {x3} (h : Keep T U r x3) : Keep T U r (@execPatrolScrubPass x0 x1 x2 x3) := by
  unfold execPatrolScrubPass
  (try dsimp only)
  repeat' (first | (with_reducible assumption) | (with_reducible exact fun _ => rfl) | (with_reducible exact fun x => False.elim x) | (with_reducible apply State.modHm_keep) | (with_reducible apply State.takeLevel_keep) | (with_reducible apply State.scrubWord_keep) | (with_reducible apply foldl_keep) | (with_reducible apply foldl_keep_fst) | split | (intro _) | (dsimp only [id]) | (with_reducible apply Keep.upd; first | (with_reducible assumption) | (with_reducible exact fun _ => rfl) | (with_reducible exact fun x => False.elim x) | (with_reducible apply State.modHm_keep) | (with_reducible apply State.takeLevel_keep) | (with_reducible apply State.scrubWord_keep) | (with_reducible apply foldl_keep) | (with_reducible apply foldl_keep_fst) | split | (dsimp only [id])))

theorem State.readCcb_keep {T U : Prop} {r : State} {x0} {x1} {x2} (h : Keep T U r x0) : Keep T U r (@State.readCcb x0 x1 x2).1 := by
  unfold State.readCcb
  (try dsimp only)
  repeat' (first | (with_reducible assumption) | (with_reducible exact fun _ => rfl) | (with_reducible exact fun x => False.elim x) | (with_reducible apply State.libRead_keep) | (with_reducible apply foldl_keep) | (with_reducible apply foldl_keep_fst) | (refine Keep.of_pair (by assumption) ?_) | split | (intro _) | (dsimp only [id]) | (with_reducible apply Keep.upd; first | (with_reducible assumption) | (with_reducible exact fun _ => rfl) | (with_reducible exact fun x => False.elim x) | (with_reducible apply State.libRead_keep) | (with_reducible apply foldl_keep) | (with_reducible apply foldl_keep_fst) | (refine Keep.of_pair (by assumption) ?_) | split | (dsimp only [id])))

theorem State.ringLen_keep {T U : Prop} {r : State} {x0} {x1} {x2} {x3} (h : Keep T U r x0) : Keep T U r (@State.ringLen x0 x1 x2 x3).1 := by
  unfold State.ringLen
  (try dsimp only)
  repeat' (first | (with_reducible assumption) | (with_reducible exact fun _ => rfl) | (with_reducible exact fun x => False.elim x) | (with_reducible apply State.libRead_keep) | (with_reducible apply foldl_keep) | (with_reducible apply foldl_keep_fst) | (refine Keep.of_pair (by assumption) ?_) | split | (intro _) | (dsimp only [id]) | (with_reducible apply Keep.upd; first | (with_reducible assumption) | (with_reducible exact fun _ => rfl) | (with_reducible exact fun x => False.elim x) | (with_reducible apply State.libRead_keep) | (with_reducible apply foldl_keep) | (with_reducible apply foldl_keep_fst) | (refine Keep.of_pair (by assumption) ?_) | split | (dsimp only [id])))

theorem State.boundaries_keep {T U : Prop} {r : State} {x0} {x1} {x2} {x3} {x4} {x5} {x6} (h : Keep T U r x0) : Keep T U r (@State.boundaries x0 x1 x2 x3 x4 x5 x6).1 := by
  induction x4 generalizing x0 x5 x6 with
  | zero => exact h
  | succ n ih =>
    unfold State.boundaries
    repeat' (first | (with_reducible assumption) | (with_reducible exact fun _ => rfl) | (with_reducible exact fun x => False.elim x) | (apply ih) | (apply State.ringLen_keep) | split | (refine Keep.of_pair (by assumption) ?_))

theorem State.moveRecord_keep {T U : Prop} {r : State} {x0} {x1} {x2} {x3} {x4} {x5} {x6} (h : Keep T U r x0) : Keep T U r (@State.moveRecord x0 x1 x2 x3 x4 x5 x6).1 := by
  unfold State.moveRecord
  (try dsimp only)
  repeat' (first | (with_reducible assumption) | (with_reducible exact fun _ => rfl) | (with_reducible exact fun x => False.elim x) | (with_reducible apply State.libRead_keep) | (with_reducible apply State.libWrite_keep) | (with_reducible apply foldl_keep) | (with_reducible apply foldl_keep_fst) | (refine Keep.of_pair (by assumption) ?_) | split | (intro _) | (dsimp only [id]) | (with_reducible apply Keep.upd; first | (with_reducible assumption) | (with_reducible exact fun _ => rfl) | (with_reducible exact fun x => False.elim x) | (with_reducible apply State.libRead_keep) | (with_reducible apply State.libWrite_keep) | (with_reducible apply foldl_keep) | (with_reducible apply foldl_keep_fst) | (refine Keep.of_pair (by assumption) ?_) | split | (dsimp only [id])))

theorem State.setCcb_keep {T U : Prop} {r : State} {x0} {x1} {x2} {x3} {x4} (h : Keep T U r x0) : Keep T U r (@State.setCcb x0 x1 x2 x3 x4) := by
  unfold State.setCcb
  (try dsimp only)
  repeat' (first | (with_reducible assumption) | (with_reducible exact fun _ => rfl) | (with_reducible exact fun x => False.elim x) | (with_reducible apply State.libWrite_keep) | (with_reducible apply foldl_keep) | (with_reducible apply foldl_keep_fst) | split | (intro _) | (dsimp only [id]) | (with_reducible apply Keep.upd; first | (with_reducible assumption) | (with_reducible exact fun _ => rfl) | (with_reducible exact fun x => False.elim x) | (with_reducible apply State.libWrite_keep) | (with_reducible apply foldl_keep) | (with_reducible apply foldl_keep_fst) | split | (dsimp only [id])))

theorem State.spillCore_keep {T U : Prop} {r : State} {x0} {x1} {x2} {x3} (h : Keep T U r x0) : Keep T U r (@State.spillCore x0 x1 x2 x3) := by
  unfold State.spillCore
  (try dsimp only)
  repeat' (first | (with_reducible assumption) | (with_reducible exact fun _ => rfl) | (with_reducible exact fun x => False.elim x) | (with_reducible apply State.setCcb_keep) | (with_reducible apply State.boundaries_keep) | (with_reducible apply State.moveRecord_keep) | (with_reducible apply foldl_keep) | (with_reducible apply foldl_keep_fst) | (refine Keep.of_pair (by assumption) ?_) | split | (intro _) | (dsimp only [id]) | (with_reducible apply Keep.upd; first | (with_reducible assumption) | (with_reducible exact fun _ => rfl) | (with_reducible exact fun x => False.elim x) | (with_reducible apply State.setCcb_keep) | (with_reducible apply State.boundaries_keep) | (with_reducible apply State.moveRecord_keep) | (with_reducible apply foldl_keep) | (with_reducible apply foldl_keep_fst) | (refine Keep.of_pair (by assumption) ?_) | split | (dsimp only [id])))

theorem State.turnCore_keep {T U : Prop} {r : State} {x0} {x1} {x2} (h : Keep T U r x0) : Keep T U r (@State.turnCore x0 x1 x2) := by
  unfold State.turnCore
  (try dsimp only)
  repeat' (first | (with_reducible assumption) | (with_reducible exact fun _ => rfl) | (with_reducible exact fun x => False.elim x) | (with_reducible apply State.boundaries_keep) | (with_reducible apply State.setCcb_keep) | (with_reducible apply foldl_keep) | (with_reducible apply foldl_keep_fst) | (refine Keep.of_pair (by assumption) ?_) | split | (intro _) | (dsimp only [id]) | (with_reducible apply Keep.upd; first | (with_reducible assumption) | (with_reducible exact fun _ => rfl) | (with_reducible exact fun x => False.elim x) | (with_reducible apply State.boundaries_keep) | (with_reducible apply State.setCcb_keep) | (with_reducible apply foldl_keep) | (with_reducible apply foldl_keep_fst) | (refine Keep.of_pair (by assumption) ?_) | split | (dsimp only [id])))

theorem State.prefetchOne_keep {T U : Prop} {r : State} {x0} {x1} {x2} {x3} {x4} (h : Keep T U r x0) : Keep T U r (@State.prefetchOne x0 x1 x2 x3 x4).1 := by
  unfold State.prefetchOne
  (try dsimp only)
  repeat' (first | (with_reducible assumption) | (with_reducible exact fun _ => rfl) | (with_reducible exact fun x => False.elim x) | (with_reducible apply State.libRead_keep) | (with_reducible apply State.moveRecord_keep) | (with_reducible apply foldl_keep) | (with_reducible apply foldl_keep_fst) | (refine Keep.of_pair (by assumption) ?_) | split | (intro _) | (dsimp only [id]) | (with_reducible apply Keep.upd; first | (with_reducible assumption) | (with_reducible exact fun _ => rfl) | (with_reducible exact fun x => False.elim x) | (with_reducible apply State.libRead_keep) | (with_reducible apply State.moveRecord_keep) | (with_reducible apply foldl_keep) | (with_reducible apply foldl_keep_fst) | (refine Keep.of_pair (by assumption) ?_) | split | (dsimp only [id])))

theorem State.prefetch_keep {T U : Prop} {r : State} {x0} {x1} {x2} {x3} {x4} {x5} (h : Keep T U r x0) : Keep T U r (@State.prefetch x0 x1 x2 x3 x4 x5).1 := by
  induction x4 generalizing x0 x5 with
  | zero => exact h
  | succ n ih =>
    unfold State.prefetch
    repeat' (first | (with_reducible assumption) | (with_reducible exact fun _ => rfl) | (with_reducible exact fun x => False.elim x) | (with_reducible apply ih) | (with_reducible apply State.prefetchOne_keep) | split | (refine Keep.of_pair (by assumption) ?_))

theorem execCubbySample_keep {T U : Prop} {r : State} {x0} {x1} (h : Keep T U r x1) : Keep T U r (@execCubbySample x0 x1) := by
  unfold execCubbySample
  (try dsimp only)
  repeat' (first | (with_reducible assumption) | (with_reducible exact fun _ => rfl) | (with_reducible exact fun x => False.elim x) | (with_reducible apply State.readCcb_keep) | (with_reducible apply State.modLb_keep) | (with_reducible apply State.bump_keep) | (with_reducible apply State.spillCore_keep) | (with_reducible apply State.turnCore_keep) | (with_reducible apply State.prefetch_keep) | (with_reducible apply State.setCcb_keep) | (with_reducible apply foldl_keep) | (with_reducible apply foldl_keep_fst) | (refine Keep.of_pair (by assumption) ?_) | split | (intro _) | (dsimp only [id]) | (with_reducible apply Keep.upd; first | (with_reducible assumption) | (with_reducible exact fun _ => rfl) | (with_reducible exact fun x => False.elim x) | (with_reducible apply State.readCcb_keep) | (with_reducible apply State.modLb_keep) | (with_reducible apply State.bump_keep) | (with_reducible apply State.spillCore_keep) | (with_reducible apply State.turnCore_keep) | (with_reducible apply State.prefetch_keep) | (with_reducible apply State.setCcb_keep) | (with_reducible apply foldl_keep) | (with_reducible apply foldl_keep_fst) | (refine Keep.of_pair (by assumption) ?_) | split | (dsimp only [id])))

theorem State.readyCore_keep {T U : Prop} {r : State} {x0} {x1} {x2} {x3} (h : Keep T U r x0) : Keep T U r (@State.readyCore x0 x1 x2 x3) := by
  unfold State.readyCore
  (try dsimp only)
  repeat' (first | (with_reducible assumption) | (with_reducible exact fun _ => rfl) | (with_reducible exact fun x => False.elim x) | (with_reducible apply State.libWrite_keep) | (with_reducible apply State.libRead_keep) | (with_reducible apply foldl_keep) | (with_reducible apply foldl_keep_fst) | (refine Keep.of_pair (by assumption) ?_) | split | (intro _) | (dsimp only [id]) | (with_reducible apply Keep.upd; first | (with_reducible assumption) | (with_reducible exact fun _ => rfl) | (with_reducible exact fun x => False.elim x) | (with_reducible apply State.libWrite_keep) | (with_reducible apply State.libRead_keep) | (with_reducible apply foldl_keep) | (with_reducible apply foldl_keep_fst) | (refine Keep.of_pair (by assumption) ?_) | split | (dsimp only [id])))

theorem execCubbyReady_keep {T U : Prop} {r : State} {x0} {x1} (h : Keep T U r x1) : Keep T U r (@execCubbyReady x0 x1) := by
  unfold execCubbyReady
  (try dsimp only)
  repeat' (first | (with_reducible assumption) | (with_reducible exact fun _ => rfl) | (with_reducible exact fun x => False.elim x) | (with_reducible apply State.modLb_keep) | (with_reducible apply State.readyCore_keep) | (with_reducible apply foldl_keep) | (with_reducible apply foldl_keep_fst) | split | (intro _) | (dsimp only [id]) | (with_reducible apply Keep.upd; first | (with_reducible assumption) | (with_reducible exact fun _ => rfl) | (with_reducible exact fun x => False.elim x) | (with_reducible apply State.modLb_keep) | (with_reducible apply State.readyCore_keep) | (with_reducible apply foldl_keep) | (with_reducible apply foldl_keep_fst) | split | (dsimp only [id])))

theorem State.setRes_keep {T U : Prop} {r : State} {x0} {x1} {x2} {x3} (h : Keep T U r x0) : Keep T U r (@State.setRes x0 x1 x2 x3) := by
  unfold State.setRes
  (try dsimp only)
  repeat' (first | (with_reducible assumption) | (with_reducible exact fun _ => rfl) | (with_reducible exact fun x => False.elim x) | (with_reducible apply State.modCm_keep) | (with_reducible apply foldl_keep) | (with_reducible apply foldl_keep_fst) | split | (intro _) | (dsimp only [id]) | (with_reducible apply Keep.upd; first | (with_reducible assumption) | (with_reducible exact fun _ => rfl) | (with_reducible exact fun x => False.elim x) | (with_reducible apply State.modCm_keep) | (with_reducible apply foldl_keep) | (with_reducible apply foldl_keep_fst) | split | (dsimp only [id])))

theorem State.noteXchk_keep {T U : Prop} {r : State} {x0} {x1} {x2} {x3} {x4} (h : Keep T U r x0) : Keep T U r (@State.noteXchk x0 x1 x2 x3 x4) := by
  unfold State.noteXchk
  (try dsimp only)
  repeat' (first | (with_reducible assumption) | (with_reducible exact fun _ => rfl) | (with_reducible exact fun x => False.elim x) | (with_reducible apply State.modLb_keep) | (with_reducible apply foldl_keep) | (with_reducible apply foldl_keep_fst) | split | (intro _) | (dsimp only [id]) | (with_reducible apply Keep.upd; first | (with_reducible assumption) | (with_reducible exact fun _ => rfl) | (with_reducible exact fun x => False.elim x) | (with_reducible apply State.modLb_keep) | (with_reducible apply foldl_keep) | (with_reducible apply foldl_keep_fst) | split | (dsimp only [id])))

theorem State.applyInput_keep {T U : Prop} {r : State} {x0} {x1} {x2} {x3} (h : Keep T U r x0) : Keep T U r (@State.applyInput x0 x1 x2 x3).1 := by
  unfold State.applyInput
  (try dsimp only)
  repeat' (first | (with_reducible assumption) | (with_reducible exact fun _ => rfl) | (with_reducible exact fun x => False.elim x) | (with_reducible apply State.libRead_keep) | (with_reducible apply foldl_keep) | (with_reducible apply foldl_keep_fst) | (refine Keep.of_pair (by assumption) ?_) | split | (intro _) | (dsimp only [id]) | (with_reducible apply Keep.upd; first | (with_reducible assumption) | (with_reducible exact fun _ => rfl) | (with_reducible exact fun x => False.elim x) | (with_reducible apply State.libRead_keep) | (with_reducible apply foldl_keep) | (with_reducible apply foldl_keep_fst) | (refine Keep.of_pair (by assumption) ?_) | split | (dsimp only [id])))

theorem State.settle_keep {T U : Prop} {r : State} {x0} {x1} {x2} {x3} {x4} {x5} (h : Keep T U r x0) : Keep T U r (@State.settle x0 x1 x2 x3 x4 x5) := by
  unfold State.settle
  (try dsimp only)
  repeat' (first | (with_reducible assumption) | (with_reducible exact fun _ => rfl) | (with_reducible exact fun x => False.elim x) | (with_reducible apply State.libWrite_keep) | (with_reducible apply State.setRes_keep) | (with_reducible apply State.sendUnit_keep) | (with_reducible apply State.modLb_keep) | (with_reducible apply State.noteXchk_keep) | (with_reducible apply State.demerit_keep) | (with_reducible apply State.modCm_keep) | (with_reducible apply foldl_keep) | (with_reducible apply foldl_keep_fst) | split | (intro _) | (dsimp only [id]) | (with_reducible apply Keep.upd; first | (with_reducible assumption) | (with_reducible exact fun _ => rfl) | (with_reducible exact fun x => False.elim x) | (with_reducible apply State.libWrite_keep) | (with_reducible apply State.setRes_keep) | (with_reducible apply State.sendUnit_keep) | (with_reducible apply State.modLb_keep) | (with_reducible apply State.noteXchk_keep) | (with_reducible apply State.demerit_keep) | (with_reducible apply State.modCm_keep) | (with_reducible apply foldl_keep) | (with_reducible apply foldl_keep_fst) | split | (dsimp only [id])))

theorem State.runBytes_keep {T U : Prop} {r : State} {x0} {x1} {x2} (h : Keep T U r x0) : Keep T U r (@State.runBytes x0 x1 x2).1 := by
  unfold State.runBytes
  (try dsimp only)
  repeat' (first | (with_reducible assumption) | (with_reducible exact fun _ => rfl) | (with_reducible exact fun x => False.elim x) | (with_reducible apply State.burn_keep) | (with_reducible apply foldl_keep) | (with_reducible apply foldl_keep_fst) | split | (intro _) | (dsimp only [id]) | (with_reducible apply Keep.upd; first | (with_reducible assumption) | (with_reducible exact fun _ => rfl) | (with_reducible exact fun x => False.elim x) | (with_reducible apply State.burn_keep) | (with_reducible apply foldl_keep) | (with_reducible apply foldl_keep_fst) | split | (dsimp only [id])))

theorem State.settleAlone_keep {T U : Prop} {r : State} {x0} {x1} {x2} {x3} {x4} {x5} (h : Keep T U r x0) : Keep T U r (@State.settleAlone x0 x1 x2 x3 x4 x5) := by
  unfold State.settleAlone
  (try dsimp only)
  repeat' (first | (with_reducible assumption) | (with_reducible exact fun _ => rfl) | (with_reducible exact fun x => False.elim x) | (with_reducible apply State.runBytes_keep) | (with_reducible apply State.settle_keep) | (with_reducible apply foldl_keep) | (with_reducible apply foldl_keep_fst) | (refine Keep.of_pair (by assumption) ?_) | split | (intro _) | (dsimp only [id]) | (with_reducible apply Keep.upd; first | (with_reducible assumption) | (with_reducible exact fun _ => rfl) | (with_reducible exact fun x => False.elim x) | (with_reducible apply State.runBytes_keep) | (with_reducible apply State.settle_keep) | (with_reducible apply foldl_keep) | (with_reducible apply foldl_keep_fst) | (refine Keep.of_pair (by assumption) ?_) | split | (dsimp only [id])))

theorem State.vote_keep {T U : Prop} {r : State} {x0} {x1} {x2} {x3} {x4} {x5} {x6} (h : Keep T U r x0) : Keep T U r (@State.vote x0 x1 x2 x3 x4 x5 x6) := by
  unfold State.vote
  (try dsimp only)
  repeat' (first | (with_reducible assumption) | (with_reducible exact fun _ => rfl) | (with_reducible exact fun x => False.elim x) | (with_reducible apply State.runBytes_keep) | (with_reducible apply State.settle_keep) | (with_reducible apply State.noteXchk_keep) | (with_reducible apply State.bump_keep) | (with_reducible apply State.setRes_keep) | (with_reducible apply State.tell_keep) | (with_reducible apply foldl_keep) | (with_reducible apply foldl_keep_fst) | (refine Keep.of_pair (by assumption) ?_) | split | (intro _) | (dsimp only [id]) | (with_reducible apply Keep.upd; first | (with_reducible assumption) | (with_reducible exact fun _ => rfl) | (with_reducible exact fun x => False.elim x) | (with_reducible apply State.runBytes_keep) | (with_reducible apply State.settle_keep) | (with_reducible apply State.noteXchk_keep) | (with_reducible apply State.bump_keep) | (with_reducible apply State.setRes_keep) | (with_reducible apply State.tell_keep) | (with_reducible apply foldl_keep) | (with_reducible apply foldl_keep_fst) | (refine Keep.of_pair (by assumption) ?_) | split | (dsimp only [id])))

theorem execUnitApplyDone_keep {T U : Prop} {r : State} {x0} {x1} {x2} {x3} {x4} (h : Keep T U r x4) : Keep T U r (@execUnitApplyDone x0 x1 x2 x3 x4) := by
  unfold execUnitApplyDone
  (try dsimp only)
  repeat' (first | (with_reducible assumption) | (with_reducible exact fun _ => rfl) | (with_reducible exact fun x => False.elim x) | (with_reducible apply State.applyInput_keep) | (with_reducible apply State.settle_keep) | (with_reducible apply State.vote_keep) | (with_reducible apply State.settleAlone_keep) | (with_reducible apply foldl_keep) | (with_reducible apply foldl_keep_fst) | (refine Keep.of_pair (by assumption) ?_) | split | (intro _) | (dsimp only [id]) | (with_reducible apply Keep.upd; first | (with_reducible assumption) | (with_reducible exact fun _ => rfl) | (with_reducible exact fun x => False.elim x) | (with_reducible apply State.applyInput_keep) | (with_reducible apply State.settle_keep) | (with_reducible apply State.vote_keep) | (with_reducible apply State.settleAlone_keep) | (with_reducible apply foldl_keep) | (with_reducible apply foldl_keep_fst) | (refine Keep.of_pair (by assumption) ?_) | split | (dsimp only [id])))

theorem execOwnerCrcReceive_keep {T U : Prop} {r : State} {x0} {x1} {x2} {x3} {x4} (h : Keep T U r x4) : Keep T U r (@execOwnerCrcReceive x0 x1 x2 x3 x4) := by
  unfold execOwnerCrcReceive
  (try dsimp only)
  repeat' (first | (with_reducible assumption) | (with_reducible exact fun _ => rfl) | (with_reducible exact fun x => False.elim x) | (with_reducible apply State.setRes_keep) | (with_reducible apply foldl_keep) | (with_reducible apply foldl_keep_fst) | split | (intro _) | (dsimp only [id]) | (with_reducible apply Keep.upd; first | (with_reducible assumption) | (with_reducible exact fun _ => rfl) | (with_reducible exact fun x => False.elim x) | (with_reducible apply State.setRes_keep) | (with_reducible apply foldl_keep) | (with_reducible apply foldl_keep_fst) | split | (dsimp only [id])))

theorem execRecomputeRequest_keep {T U : Prop} {r : State} {x0} {x1} {x2} {x3} {x4} (h : Keep T U r x4) : Keep T U r (@execRecomputeRequest x0 x1 x2 x3 x4) := by
  unfold execRecomputeRequest
  (try dsimp only)
  repeat' (first | (with_reducible assumption) | (with_reducible exact fun _ => rfl) | (with_reducible exact fun x => False.elim x) | (with_reducible apply State.tell_keep) | (with_reducible apply State.libRead_keep) | (with_reducible apply State.sendUnit_keep) | (with_reducible apply foldl_keep) | (with_reducible apply foldl_keep_fst) | (refine Keep.of_pair (by assumption) ?_) | split | (intro _) | (dsimp only [id]) | (with_reducible apply Keep.upd; first | (with_reducible assumption) | (with_reducible exact fun _ => rfl) | (with_reducible exact fun x => False.elim x) | (with_reducible apply State.tell_keep) | (with_reducible apply State.libRead_keep) | (with_reducible apply State.sendUnit_keep) | (with_reducible apply foldl_keep) | (with_reducible apply foldl_keep_fst) | (refine Keep.of_pair (by assumption) ?_) | split | (dsimp only [id])))

theorem execRecomputeReply_keep {T U : Prop} {r : State} {x0} {x1} {x2} {x3} {x4} {x5} (h : Keep T U r x5) : Keep T U r (@execRecomputeReply x0 x1 x2 x3 x4 x5) := by
  unfold execRecomputeReply
  (try dsimp only)
  repeat' (first | (with_reducible assumption) | (with_reducible exact fun _ => rfl) | (with_reducible exact fun x => False.elim x) | (with_reducible apply State.settle_keep) | (with_reducible apply State.modCm_keep) | (with_reducible apply State.tell_keep) | (with_reducible apply State.setRes_keep) | (with_reducible apply foldl_keep) | (with_reducible apply foldl_keep_fst) | split | (intro _) | (dsimp only [id]) | (with_reducible apply Keep.upd; first | (with_reducible assumption) | (with_reducible exact fun _ => rfl) | (with_reducible exact fun x => False.elim x) | (with_reducible apply State.settle_keep) | (with_reducible apply State.modCm_keep) | (with_reducible apply State.tell_keep) | (with_reducible apply State.setRes_keep) | (with_reducible apply foldl_keep) | (with_reducible apply foldl_keep_fst) | split | (dsimp only [id])))

theorem State.sendSlot_keep {T U : Prop} {r : State} {x0} {x1} {x2} {x3} {x4} {x5} (h : Keep T U r x0) : Keep T U r (@State.sendSlot x0 x1 x2 x3 x4 x5) := by
  unfold State.sendSlot
  (try dsimp only)
  repeat' (first | (with_reducible assumption) | (with_reducible exact fun _ => rfl) | (with_reducible exact fun x => False.elim x) | (with_reducible apply State.libRead_keep) | (with_reducible apply State.tell_keep) | (with_reducible apply State.forward_keep) | (with_reducible apply foldl_keep) | (with_reducible apply foldl_keep_fst) | (refine Keep.of_pair (by assumption) ?_) | split | (intro _) | (dsimp only [id]) | (with_reducible apply Keep.upd; first | (with_reducible assumption) | (with_reducible exact fun _ => rfl) | (with_reducible exact fun x => False.elim x) | (with_reducible apply State.libRead_keep) | (with_reducible apply State.tell_keep) | (with_reducible apply State.forward_keep) | (with_reducible apply foldl_keep) | (with_reducible apply foldl_keep_fst) | (refine Keep.of_pair (by assumption) ?_) | split | (dsimp only [id])))

theorem State.servePulls_keep {T U : Prop} {r : State} {x0} {x1} (h : Keep T U r x0) : Keep T U r (@State.servePulls x0 x1) := by
  unfold State.servePulls
  (try dsimp only)
  repeat' (first | (with_reducible assumption) | (with_reducible exact fun _ => rfl) | (with_reducible exact fun x => False.elim x) | (with_reducible apply State.modLbs_keep) | (with_reducible apply State.sendUnit_keep) | (with_reducible apply eachOf_keep) | (with_reducible apply State.sendSlot_keep) | (with_reducible apply foldl_keep) | (with_reducible apply foldl_keep_fst) | split | (intro _) | (dsimp only [id]) | (with_reducible apply Keep.upd; first | (with_reducible assumption) | (with_reducible exact fun _ => rfl) | (with_reducible exact fun x => False.elim x) | (with_reducible apply State.modLbs_keep) | (with_reducible apply State.sendUnit_keep) | (with_reducible apply eachOf_keep) | (with_reducible apply State.sendSlot_keep) | (with_reducible apply foldl_keep) | (with_reducible apply foldl_keep_fst) | split | (dsimp only [id])))

theorem State.handGo_keep {T U : Prop} {r : State} {x0} {x1} (h : Keep T U r x0) : Keep T U r (@State.handGo x0 x1) := by
  unfold State.handGo
  (try dsimp only)
  repeat' (first | (with_reducible assumption) | (with_reducible exact fun _ => rfl) | (with_reducible exact fun x => False.elim x) | (with_reducible apply State.respond_keep) | (with_reducible apply State.modCm_keep) | (with_reducible apply State.servePulls_keep) | (with_reducible apply foldl_keep) | (with_reducible apply foldl_keep_fst) | split | (intro _) | (dsimp only [id]) | (with_reducible apply Keep.upd; first | (with_reducible assumption) | (with_reducible exact fun _ => rfl) | (with_reducible exact fun x => False.elim x) | (with_reducible apply State.respond_keep) | (with_reducible apply State.modCm_keep) | (with_reducible apply State.servePulls_keep) | (with_reducible apply foldl_keep) | (with_reducible apply foldl_keep_fst) | split | (dsimp only [id])))

theorem execApplyComplete_keep {T U : Prop} {r : State} {x0} {x1} (h : Keep T U r x1) : Keep T U r (@execApplyComplete x0 x1) := by
  unfold execApplyComplete
  (try dsimp only)
  repeat' (first | (with_reducible assumption) | (with_reducible exact fun _ => rfl) | (with_reducible exact fun x => False.elim x) | (with_reducible apply eachOf_keep) | (with_reducible apply State.modLb_keep) | (with_reducible apply State.modCm_keep) | (with_reducible apply State.handGo_keep) | (with_reducible apply State.tell_keep) | (with_reducible apply foldl_keep) | (with_reducible apply foldl_keep_fst) | split | (intro _) | (dsimp only [id]) | (with_reducible apply Keep.upd; first | (with_reducible assumption) | (with_reducible exact fun _ => rfl) | (with_reducible exact fun x => False.elim x) | (with_reducible apply eachOf_keep) | (with_reducible apply State.modLb_keep) | (with_reducible apply State.modCm_keep) | (with_reducible apply State.handGo_keep) | (with_reducible apply State.tell_keep) | (with_reducible apply foldl_keep) | (with_reducible apply foldl_keep_fst) | split | (dsimp only [id])))

theorem State.ckPoke_keep {T U : Prop} {r : State} {x0} {x1} (h : Keep T U r x0) : Keep T U r (@State.ckPoke x0 x1) := by
  unfold State.ckPoke
  (try dsimp only)
  repeat' (first | (with_reducible assumption) | (with_reducible exact fun _ => rfl) | (with_reducible exact fun x => False.elim x) | (with_reducible apply State.ckGo_keep) | (with_reducible apply State.modCk_keep) | (with_reducible apply State.ckSummary_keep) | (with_reducible apply foldl_keep) | (with_reducible apply foldl_keep_fst) | split | (intro _) | (dsimp only [id]) | (with_reducible apply Keep.upd; first | (with_reducible assumption) | (with_reducible exact fun _ => rfl) | (with_reducible exact fun x => False.elim x) | (with_reducible apply State.ckGo_keep) | (with_reducible apply State.modCk_keep) | (with_reducible apply State.ckSummary_keep) | (with_reducible apply foldl_keep) | (with_reducible apply foldl_keep_fst) | split | (dsimp only [id])))

theorem execSummaryReceive_keep {T U : Prop} {r : State} {x0} {x1} {x2} (h : Keep T U r x2) : Keep T U r (@execSummaryReceive x0 x1 x2) := by
  unfold execSummaryReceive
  (try dsimp only)
  repeat' (first | (with_reducible assumption) | (with_reducible exact fun _ => rfl) | (with_reducible exact fun x => False.elim x) | (with_reducible apply State.modCm_keep) | (with_reducible apply State.modCk_keep) | (with_reducible apply State.ckPoke_keep) | (with_reducible apply foldl_keep) | (with_reducible apply foldl_keep_fst) | split | (intro _) | (dsimp only [id]) | (with_reducible apply Keep.upd; first | (with_reducible assumption) | (with_reducible exact fun _ => rfl) | (with_reducible exact fun x => False.elim x) | (with_reducible apply State.modCm_keep) | (with_reducible apply State.modCk_keep) | (with_reducible apply State.ckPoke_keep) | (with_reducible apply foldl_keep) | (with_reducible apply foldl_keep_fst) | split | (dsimp only [id])))

theorem State.sendFailed_keep {T U : Prop} {r : State} {x0} {x1} {x2} {x3} {x4} (h : Keep T U r x0) : Keep T U r (@State.sendFailed x0 x1 x2 x3 x4) := by
  unfold State.sendFailed
  (try dsimp only)
  repeat' (first | (with_reducible assumption) | (with_reducible exact fun _ => rfl) | (with_reducible exact fun x => False.elim x) | (with_reducible apply State.noteXchk_keep) | (with_reducible apply State.modSeat_keep) | (with_reducible apply State.respondTo_keep) | (with_reducible apply State.modLbs_keep) | (with_reducible apply foldl_keep) | (with_reducible apply foldl_keep_fst) | split | (intro _) | (dsimp only [id]) | (with_reducible apply Keep.upd; first | (with_reducible assumption) | (with_reducible exact fun _ => rfl) | (with_reducible exact fun x => False.elim x) | (with_reducible apply State.noteXchk_keep) | (with_reducible apply State.modSeat_keep) | (with_reducible apply State.respondTo_keep) | (with_reducible apply State.modLbs_keep) | (with_reducible apply foldl_keep) | (with_reducible apply foldl_keep_fst) | split | (dsimp only [id])))

theorem State.resend_keep {T U : Prop} {r : State} {x0} {x1} {x2} {x3} {x4} (h : Keep T U r x0) : Keep T U r (@State.resend x0 x1 x2 x3 x4) := by
  unfold State.resend
  (try dsimp only)
  repeat' (first | (with_reducible assumption) | (with_reducible exact fun _ => rfl) | (with_reducible exact fun x => False.elim x) | (with_reducible apply State.sendSlot_keep) | (with_reducible apply State.sendUnit_keep) | (with_reducible apply foldl_keep) | (with_reducible apply foldl_keep_fst) | split | (intro _) | (dsimp only [id]) | (with_reducible apply Keep.upd; first | (with_reducible assumption) | (with_reducible exact fun _ => rfl) | (with_reducible exact fun x => False.elim x) | (with_reducible apply State.sendSlot_keep) | (with_reducible apply State.sendUnit_keep) | (with_reducible apply foldl_keep) | (with_reducible apply foldl_keep_fst) | split | (dsimp only [id])))

theorem execUnitTransferAck_keep {T U : Prop} {r : State} {x0} {x1} {x2} {x3} {x4} {x5} (h : Keep T U r x5) : Keep T U r (@execUnitTransferAck x0 x1 x2 x3 x4 x5) := by
  unfold execUnitTransferAck
  (try dsimp only)
  repeat' (first | (with_reducible assumption) | (with_reducible exact fun _ => rfl) | (with_reducible exact fun x => False.elim x) | (with_reducible apply State.modCm_keep) | (with_reducible apply State.setRes_keep) | (with_reducible apply State.sendFailed_keep) | (with_reducible apply State.resend_keep) | (with_reducible apply foldl_keep) | (with_reducible apply foldl_keep_fst) | split | (intro _) | (dsimp only [id]) | (with_reducible apply Keep.upd; first | (with_reducible assumption) | (with_reducible exact fun _ => rfl) | (with_reducible exact fun x => False.elim x) | (with_reducible apply State.modCm_keep) | (with_reducible apply State.setRes_keep) | (with_reducible apply State.sendFailed_keep) | (with_reducible apply State.resend_keep) | (with_reducible apply foldl_keep) | (with_reducible apply foldl_keep_fst) | split | (dsimp only [id])))

theorem State.mirrorFilled_keep {T U : Prop} {r : State} {x0} {x1} {x2} (h : Keep T U r x0) : Keep T U r (@State.mirrorFilled x0 x1 x2) := by
  unfold State.mirrorFilled
  (try dsimp only)
  repeat' (first | (with_reducible assumption) | (with_reducible exact fun _ => rfl) | (with_reducible exact fun x => False.elim x) | (with_reducible apply State.modLbs_keep) | (with_reducible apply State.modCm_keep) | (with_reducible apply foldl_keep) | (with_reducible apply foldl_keep_fst) | split | (intro _) | (dsimp only [id]) | (with_reducible apply Keep.upd; first | (with_reducible assumption) | (with_reducible exact fun _ => rfl) | (with_reducible exact fun x => False.elim x) | (with_reducible apply State.modLbs_keep) | (with_reducible apply State.modCm_keep) | (with_reducible apply foldl_keep) | (with_reducible apply foldl_keep_fst) | split | (dsimp only [id])))

theorem State.xferDone_keep {T U : Prop} {r : State} {x0} {x1} {x2} (h : Keep T U r x0) : Keep T U r (@State.xferDone x0 x1 x2) := by
  unfold State.xferDone
  (try dsimp only)
  repeat' (first | (with_reducible assumption) | (with_reducible exact fun _ => rfl) | (with_reducible exact fun x => False.elim x) | (with_reducible apply State.modCm_keep) | (with_reducible apply State.respondTo_keep) | (with_reducible apply State.mirrorFilled_keep) | (with_reducible apply State.modSeat_keep) | (with_reducible apply foldl_keep) | (with_reducible apply foldl_keep_fst) | split | (intro _) | (dsimp only [id]) | (with_reducible apply Keep.upd; first | (with_reducible assumption) | (with_reducible exact fun _ => rfl) | (with_reducible exact fun x => False.elim x) | (with_reducible apply State.modCm_keep) | (with_reducible apply State.respondTo_keep) | (with_reducible apply State.mirrorFilled_keep) | (with_reducible apply State.modSeat_keep) | (with_reducible apply foldl_keep) | (with_reducible apply foldl_keep_fst) | split | (dsimp only [id])))

theorem State.tellAck_keep {T U : Prop} {r : State} {x0} {x1} {x2} {x3} {x4} (h : Keep T U r x0) : Keep T U r (@State.tellAck x0 x1 x2 x3 x4) := by
  unfold State.tellAck
  (try dsimp only)
  repeat' (first | (with_reducible assumption) | (with_reducible exact fun _ => rfl) | (with_reducible exact fun x => False.elim x) | (with_reducible apply State.tell_keep) | (with_reducible apply foldl_keep) | (with_reducible apply foldl_keep_fst) | split | (intro _) | (dsimp only [id]) | (with_reducible apply Keep.upd; first | (with_reducible assumption) | (with_reducible exact fun _ => rfl) | (with_reducible exact fun x => False.elim x) | (with_reducible apply State.tell_keep) | (with_reducible apply foldl_keep) | (with_reducible apply foldl_keep_fst) | split | (dsimp only [id])))

theorem State.landed_keep {T U : Prop} {r : State} {x0} {x1} {x2} {x3} (h : Keep T U r x0) : Keep T U r (@State.landed x0 x1 x2 x3) := by
  unfold State.landed
  (try dsimp only)
  repeat' (first | (with_reducible assumption) | (with_reducible exact fun _ => rfl) | (with_reducible exact fun x => False.elim x) | (with_reducible apply State.tellAck_keep) | (with_reducible apply State.xferDone_keep) | (with_reducible apply State.modCm_keep) | (with_reducible apply foldl_keep) | (with_reducible apply foldl_keep_fst) | split | (intro _) | (dsimp only [id]) | (with_reducible apply Keep.upd; first | (with_reducible assumption) | (with_reducible exact fun _ => rfl) | (with_reducible exact fun x => False.elim x) | (with_reducible apply State.tellAck_keep) | (with_reducible apply State.xferDone_keep) | (with_reducible apply State.modCm_keep) | (with_reducible apply foldl_keep) | (with_reducible apply foldl_keep_fst) | split | (dsimp only [id])))

theorem State.badUnit_keep {T U : Prop} {r : State} {x0} {x1} {x2} {x3} {x4} (h : Keep T U r x0) : Keep T U r (@State.badUnit x0 x1 x2 x3 x4) := by
  unfold State.badUnit
  (try dsimp only)
  repeat' (first | (with_reducible assumption) | (with_reducible exact fun _ => rfl) | (with_reducible exact fun x => False.elim x) | (with_reducible apply State.modCm_keep) | (with_reducible apply State.respondTo_keep) | (with_reducible apply State.tellAck_keep) | (with_reducible apply State.noteXchk_keep) | (with_reducible apply foldl_keep) | (with_reducible apply foldl_keep_fst) | split | (intro _) | (dsimp only [id]) | (with_reducible apply Keep.upd; first | (with_reducible assumption) | (with_reducible exact fun _ => rfl) | (with_reducible exact fun x => False.elim x) | (with_reducible apply State.modCm_keep) | (with_reducible apply State.respondTo_keep) | (with_reducible apply State.tellAck_keep) | (with_reducible apply State.noteXchk_keep) | (with_reducible apply foldl_keep) | (with_reducible apply foldl_keep_fst) | split | (dsimp only [id])))

theorem State.landSlot_keep {T U : Prop} {r : State} {x0} {x1} {x2} {x3} {x4} {x5} (h : Keep T U r x0) : Keep T U r (@State.landSlot x0 x1 x2 x3 x4 x5) := by
  unfold State.landSlot
  (try dsimp only)
  repeat' (first | (with_reducible assumption) | (with_reducible exact fun _ => rfl) | (with_reducible exact fun x => False.elim x) | (with_reducible apply State.libWrite_keep) | (with_reducible apply State.modCm_keep) | (with_reducible apply foldl_keep) | (with_reducible apply foldl_keep_fst) | split | (intro _) | (dsimp only [id]) | (with_reducible apply Keep.upd; first | (with_reducible assumption) | (with_reducible exact fun _ => rfl) | (with_reducible exact fun x => False.elim x) | (with_reducible apply State.libWrite_keep) | (with_reducible apply State.modCm_keep) | (with_reducible apply foldl_keep) | (with_reducible apply foldl_keep_fst) | split | (dsimp only [id])))

theorem State.landPush_keep {T U : Prop} {r : State} {x0} {x1} {x2} {x3} {x4} (h : Keep T U r x0) : Keep T U r (@State.landPush x0 x1 x2 x3 x4) := by
  unfold State.landPush
  (try dsimp only)
  repeat' (first | (with_reducible assumption) | (with_reducible exact fun _ => rfl) | (with_reducible exact fun x => False.elim x) | (with_reducible apply State.tell_keep) | (with_reducible apply State.noteXchk_keep) | (with_reducible apply State.modCm_keep) | (with_reducible apply State.unitClip_keep) | (with_reducible apply State.libWrite_keep) | (with_reducible apply State.clipOpen_keep) | (with_reducible apply State.ckPoke_keep) | (with_reducible apply State.demerit_keep) | (with_reducible apply State.modSeat_keep) | (with_reducible apply foldl_keep) | (with_reducible apply foldl_keep_fst) | (refine Keep.of_pair (by assumption) ?_) | split | (intro _) | (dsimp only [id]) | (with_reducible apply Keep.upd; first | (with_reducible assumption) | (with_reducible exact fun _ => rfl) | (with_reducible exact fun x => False.elim x) | (with_reducible apply State.tell_keep) | (with_reducible apply State.noteXchk_keep) | (with_reducible apply State.modCm_keep) | (with_reducible apply State.unitClip_keep) | (with_reducible apply State.libWrite_keep) | (with_reducible apply State.clipOpen_keep) | (with_reducible apply State.ckPoke_keep) | (with_reducible apply State.demerit_keep) | (with_reducible apply State.modSeat_keep) | (with_reducible apply foldl_keep) | (with_reducible apply foldl_keep_fst) | (refine Keep.of_pair (by assumption) ?_) | split | (dsimp only [id])))

theorem State.beginPulls_keep {T U : Prop} {r : State} {x0} {x1} (h : Keep T U r x0) : Keep T U r (@State.beginPulls x0 x1) := by
  unfold State.beginPulls
  (try dsimp only)
  repeat' (first | (with_reducible assumption) | (with_reducible exact fun _ => rfl) | (with_reducible exact fun x => False.elim x) | (with_reducible apply State.modCm_keep) | (with_reducible apply State.modLbs_keep) | (with_reducible apply foldl_keep) | (with_reducible apply foldl_keep_fst) | split | (intro _) | (dsimp only [id]) | (with_reducible apply Keep.upd; first | (with_reducible assumption) | (with_reducible exact fun _ => rfl) | (with_reducible exact fun x => False.elim x) | (with_reducible apply State.modCm_keep) | (with_reducible apply State.modLbs_keep) | (with_reducible apply foldl_keep) | (with_reducible apply foldl_keep_fst) | split | (dsimp only [id])))

theorem execUnitTransferReceive_keep {T U : Prop} {r : State} {x0} {x1} {x2} {x3} {x4} {x5} (h : Keep T U r x5) : Keep T U r (@execUnitTransferReceive x0 x1 x2 x3 x4 x5) := by
  unfold execUnitTransferReceive
  (try dsimp only)
  repeat' (first | (with_reducible assumption) | (with_reducible exact fun _ => rfl) | (with_reducible exact fun x => False.elim x) | (with_reducible apply State.beginPulls_keep) | (with_reducible apply State.modCm_keep) | (with_reducible apply State.landPush_keep) | (with_reducible apply State.badUnit_keep) | (with_reducible apply State.landed_keep) | (with_reducible apply State.landSlot_keep) | (with_reducible apply State.libWrite_keep) | (with_reducible apply foldl_keep) | (with_reducible apply foldl_keep_fst) | split | (intro _) | (dsimp only [id]) | (with_reducible apply Keep.upd; first | (with_reducible assumption) | (with_reducible exact fun _ => rfl) | (with_reducible exact fun x => False.elim x) | (with_reducible apply State.beginPulls_keep) | (with_reducible apply State.modCm_keep) | (with_reducible apply State.landPush_keep) | (with_reducible apply State.badUnit_keep) | (with_reducible apply State.landed_keep) | (with_reducible apply State.landSlot_keep) | (with_reducible apply State.libWrite_keep) | (with_reducible apply foldl_keep) | (with_reducible apply foldl_keep_fst) | split | (dsimp only [id])))

theorem execHandoverPullsDone_keep {T U : Prop} {r : State} {x0} {x1} (h : Keep T U r x1) : Keep T U r (@execHandoverPullsDone x0 x1) := by
  unfold execHandoverPullsDone
  (try dsimp only)
  repeat' (first | (with_reducible assumption) | (with_reducible exact fun _ => rfl) | (with_reducible exact fun x => False.elim x) | (with_reducible apply State.modCm_keep) | (with_reducible apply State.respondTo_keep) | (with_reducible apply State.modLbs_keep) | (with_reducible apply foldl_keep) | (with_reducible apply foldl_keep_fst) | split | (intro _) | (dsimp only [id]) | (with_reducible apply Keep.upd; first | (with_reducible assumption) | (with_reducible exact fun _ => rfl) | (with_reducible exact fun x => False.elim x) | (with_reducible apply State.modCm_keep) | (with_reducible apply State.respondTo_keep) | (with_reducible apply State.modLbs_keep) | (with_reducible apply foldl_keep) | (with_reducible apply foldl_keep_fst) | split | (dsimp only [id])))

theorem State.logAt_keep {T U : Prop} {r : State} {x0} {x1} {x2} {x3} (h : Keep T U r x0) : Keep T U r (@State.logAt x0 x1 x2 x3) := by
  unfold State.logAt
  (try dsimp only)
  repeat' (first | (with_reducible assumption) | (with_reducible exact fun _ => rfl) | (with_reducible exact fun x => False.elim x) | (with_reducible apply State.vlog_keep) | (with_reducible apply State.modVlog_keep) | (with_reducible apply foldl_keep) | (with_reducible apply foldl_keep_fst) | split | (intro _) | (dsimp only [id]) | (with_reducible apply Keep.upd; first | (with_reducible assumption) | (with_reducible exact fun _ => rfl) | (with_reducible exact fun x => False.elim x) | (with_reducible apply State.vlog_keep) | (with_reducible apply State.modVlog_keep) | (with_reducible apply foldl_keep) | (with_reducible apply foldl_keep_fst) | split | (dsimp only [id])))

theorem State.logDenied_keep {T U : Prop} {r : State} {x0} {x1} {x2} {x3} {x4} {x5} (h : Keep T U r x0) : Keep T U r (@State.logDenied x0 x1 x2 x3 x4 x5) := by
  unfold State.logDenied
  (try dsimp only)
  repeat' (first | (with_reducible assumption) | (with_reducible exact fun _ => rfl) | (with_reducible exact fun x => False.elim x) | (with_reducible apply State.logAt_keep) | (with_reducible apply foldl_keep) | (with_reducible apply foldl_keep_fst) | split | (intro _) | (dsimp only [id]) | (with_reducible apply Keep.upd; first | (with_reducible assumption) | (with_reducible exact fun _ => rfl) | (with_reducible exact fun x => False.elim x) | (with_reducible apply State.logAt_keep) | (with_reducible apply foldl_keep) | (with_reducible apply foldl_keep_fst) | split | (dsimp only [id])))

theorem State.deny_keep {T U : Prop} {r : State} {x0} {x1} {x2} {x3} (h : Keep T U r x0) : Keep T U r (@State.deny x0 x1 x2 x3) := by
  unfold State.deny
  (try dsimp only)
  repeat' (first | (with_reducible assumption) | (with_reducible exact fun _ => rfl) | (with_reducible exact fun x => False.elim x) | (with_reducible apply State.respond_keep) | (with_reducible apply State.logDenied_keep) | (with_reducible apply foldl_keep) | (with_reducible apply foldl_keep_fst) | split | (intro _) | (dsimp only [id]) | (with_reducible apply Keep.upd; first | (with_reducible assumption) | (with_reducible exact fun _ => rfl) | (with_reducible exact fun x => False.elim x) | (with_reducible apply State.respond_keep) | (with_reducible apply State.logDenied_keep) | (with_reducible apply foldl_keep) | (with_reducible apply foldl_keep_fst) | split | (dsimp only [id])))

theorem State.again_keep {T U : Prop} {r : State} {x0} {x1} {x2} (h : Keep T U r x0) : Keep T U r (@State.again x0 x1 x2) := by
  unfold State.again
  (try dsimp only)
  repeat' (first | (with_reducible assumption) | (with_reducible exact fun _ => rfl) | (with_reducible exact fun x => False.elim x) | (with_reducible apply State.sendTo_keep) | (with_reducible apply foldl_keep) | (with_reducible apply foldl_keep_fst) | split | (intro _) | (dsimp only [id]) | (with_reducible apply Keep.upd; first | (with_reducible assumption) | (with_reducible exact fun _ => rfl) | (with_reducible exact fun x => False.elim x) | (with_reducible apply State.sendTo_keep) | (with_reducible apply foldl_keep) | (with_reducible apply foldl_keep_fst) | split | (dsimp only [id])))

theorem State.countReq_keep {T U : Prop} {r : State} {x0} {x1} {x2} (h : Keep T U r x0) : Keep T U r (@State.countReq x0 x1 x2) := by
  unfold State.countReq
  (try dsimp only)
  repeat' (first | (with_reducible assumption) | (with_reducible exact fun _ => rfl) | (with_reducible exact fun x => False.elim x) | (with_reducible apply State.bump_keep) | (with_reducible apply foldl_keep) | (with_reducible apply foldl_keep_fst) | split | (intro _) | (dsimp only [id]) | (with_reducible apply Keep.upd; first | (with_reducible assumption) | (with_reducible exact fun _ => rfl) | (with_reducible exact fun x => False.elim x) | (with_reducible apply State.bump_keep) | (with_reducible apply foldl_keep) | (with_reducible apply foldl_keep_fst) | split | (dsimp only [id])))

theorem State.serve_keep {T U : Prop} {r : State} {x0} {x1} {x2} {x3} {x4} {x5} (h : Keep T U r x0) (g5 : ∀ y0, Keep T U r y0 → Keep T U r (x5 y0)) : Keep T U r (@State.serve x0 x1 x2 x3 x4 x5) := by
  unfold State.serve
  (try dsimp only)
  repeat' (first | (with_reducible assumption) | (with_reducible exact fun _ => rfl) | (with_reducible exact fun x => False.elim x) | (with_reducible apply g5) | (with_reducible apply State.bump_keep) | (with_reducible apply State.sendTo_keep) | (with_reducible apply State.again_keep) | (with_reducible apply State.modSession_keep) | (with_reducible apply State.respond_keep) | (with_reducible apply State.logDenied_keep) | (with_reducible apply State.countReq_keep) | (with_reducible apply foldl_keep) | (with_reducible apply foldl_keep_fst) | split | (intro _) | (dsimp only [id]) | (with_reducible apply Keep.upd; first | (with_reducible assumption) | (with_reducible exact fun _ => rfl) | (with_reducible exact fun x => False.elim x) | (with_reducible apply g5) | (with_reducible apply State.bump_keep) | (with_reducible apply State.sendTo_keep) | (with_reducible apply State.again_keep) | (with_reducible apply State.modSession_keep) | (with_reducible apply State.respond_keep) | (with_reducible apply State.logDenied_keep) | (with_reducible apply State.countReq_keep) | (with_reducible apply foldl_keep) | (with_reducible apply foldl_keep_fst) | split | (dsimp only [id])))

theorem State.request_keep {T U : Prop} {r : State} {x0} {x1} {x2} {x3} {x4} {x5} (h : Keep T U r x0) (g5 : ∀ y0, Keep T U r y0 → Keep T U r (x5 y0)) : Keep T U r (@State.request x0 x1 x2 x3 x4 x5) := by
  unfold State.request
  (try dsimp only)
  repeat' (first | (with_reducible assumption) | (with_reducible exact fun _ => rfl) | (with_reducible exact fun x => False.elim x) | (with_reducible apply g5) | (with_reducible apply State.bump_keep) | (with_reducible apply State.serve_keep) | (with_reducible apply foldl_keep) | (with_reducible apply foldl_keep_fst) | split | (intro _) | (dsimp only [id]) | (with_reducible apply Keep.upd; first | (with_reducible assumption) | (with_reducible exact fun _ => rfl) | (with_reducible exact fun x => False.elim x) | (with_reducible apply g5) | (with_reducible apply State.bump_keep) | (with_reducible apply State.serve_keep) | (with_reducible apply foldl_keep) | (with_reducible apply foldl_keep_fst) | split | (dsimp only [id])))

theorem State.badField_keep {T U : Prop} {r : State} {x0} {x1} (h : Keep T U r x0) : Keep T U r (@State.badField x0 x1) := by
  unfold State.badField
  (try dsimp only)
  repeat' (first | (with_reducible assumption) | (with_reducible exact fun _ => rfl) | (with_reducible exact fun x => False.elim x) | (with_reducible apply State.burn_keep) | (with_reducible apply State.respond_keep) | (with_reducible apply foldl_keep) | (with_reducible apply foldl_keep_fst) | split | (intro _) | (dsimp only [id]) | (with_reducible apply Keep.upd; first | (with_reducible assumption) | (with_reducible exact fun _ => rfl) | (with_reducible exact fun x => False.elim x) | (with_reducible apply State.burn_keep) | (with_reducible apply State.respond_keep) | (with_reducible apply foldl_keep) | (with_reducible apply foldl_keep_fst) | split | (dsimp only [id])))

theorem State.expertOnly_keep {T U : Prop} {r : State} {x0} {x1} {x2} {x3} (h : Keep T U r x0) (g3 : ∀ y0, Keep T U r y0 → Keep T U r (x3 y0)) : Keep T U r (@State.expertOnly x0 x1 x2 x3) := by
  unfold State.expertOnly
  (try dsimp only)
  repeat' (first | (with_reducible assumption) | (with_reducible exact fun _ => rfl) | (with_reducible exact fun x => False.elim x) | (with_reducible apply g3) | (with_reducible apply State.badField_keep) | (with_reducible apply foldl_keep) | (with_reducible apply foldl_keep_fst) | split | (intro _) | (dsimp only [id]) | (with_reducible apply Keep.upd; first | (with_reducible assumption) | (with_reducible exact fun _ => rfl) | (with_reducible exact fun x => False.elim x) | (with_reducible apply g3) | (with_reducible apply State.badField_keep) | (with_reducible apply foldl_keep) | (with_reducible apply foldl_keep_fst) | split | (dsimp only [id])))

theorem State.need_keep {T U : Prop} {r : State} {x0} {x1} {x2} {x3} {x4} {x5} (h : Keep T U r x0) (g5 : ∀ y0, Keep T U r y0 → Keep T U r (x5 y0)) : Keep T U r (@State.need x0 x1 x2 x3 x4 x5) := by
  unfold State.need
  (try dsimp only)
  repeat' (first | (with_reducible assumption) | (with_reducible exact fun _ => rfl) | (with_reducible exact fun x => False.elim x) | (with_reducible apply g5) | (with_reducible apply State.respond_keep) | (with_reducible apply foldl_keep) | (with_reducible apply foldl_keep_fst) | split | (intro _) | (dsimp only [id]) | (with_reducible apply Keep.upd; first | (with_reducible assumption) | (with_reducible exact fun _ => rfl) | (with_reducible exact fun x => False.elim x) | (with_reducible apply g5) | (with_reducible apply State.respond_keep) | (with_reducible apply foldl_keep) | (with_reducible apply foldl_keep_fst) | split | (dsimp only [id])))

theorem State.refuseHello_keep {T U : Prop} {r : State} {x0} {x1} {x2} {x3} {x4} (h : Keep T U r x0) : Keep T U r (@State.refuseHello x0 x1 x2 x3 x4) := by
  unfold State.refuseHello
  (try dsimp only)
  repeat' (first | (with_reducible assumption) | (with_reducible exact fun _ => rfl) | (with_reducible exact fun x => False.elim x) | (with_reducible apply State.send_keep) | (with_reducible apply foldl_keep) | (with_reducible apply foldl_keep_fst) | split | (intro _) | (dsimp only [id]) | (with_reducible apply Keep.upd; first | (with_reducible assumption) | (with_reducible exact fun _ => rfl) | (with_reducible exact fun x => False.elim x) | (with_reducible apply State.send_keep) | (with_reducible apply foldl_keep) | (with_reducible apply foldl_keep_fst) | split | (dsimp only [id])))

theorem State.answer2_keep {T U : Prop} {r : State} {x0} {x1} {x2} {x3} {x4} (h : Keep T U r x0) : Keep T U r (@State.answer2 x0 x1 x2 x3 x4) := by
  unfold State.answer2
  (try dsimp only)
  repeat' (first | (with_reducible assumption) | (with_reducible exact fun _ => rfl) | (with_reducible exact fun x => False.elim x) | (with_reducible apply State.send_keep) | (with_reducible apply foldl_keep) | (with_reducible apply foldl_keep_fst) | split | (intro _) | (dsimp only [id]) | (with_reducible apply Keep.upd; first | (with_reducible assumption) | (with_reducible exact fun _ => rfl) | (with_reducible exact fun x => False.elim x) | (with_reducible apply State.send_keep) | (with_reducible apply foldl_keep) | (with_reducible apply foldl_keep_fst) | split | (dsimp only [id])))

theorem State.refuse2_keep {T U : Prop} {r : State} {x0} {x1} {x2} {x3} (h : Keep T U r x0) : Keep T U r (@State.refuse2 x0 x1 x2 x3) := by
  unfold State.refuse2
  (try dsimp only)
  repeat' (first | (with_reducible assumption) | (with_reducible exact fun _ => rfl) | (with_reducible exact fun x => False.elim x) | (with_reducible apply State.answer2_keep) | (with_reducible apply foldl_keep) | (with_reducible apply foldl_keep_fst) | split | (intro _) | (dsimp only [id]) | (with_reducible apply Keep.upd; first | (with_reducible assumption) | (with_reducible exact fun _ => rfl) | (with_reducible exact fun x => False.elim x) | (with_reducible apply State.answer2_keep) | (with_reducible apply foldl_keep) | (with_reducible apply foldl_keep_fst) | split | (dsimp only [id])))

theorem State.sendHandshake_keep {T U : Prop} {r : State} {x0} {x1} {x2} {x3} {x4} (h : Keep T U r x0) : Keep T U r (@State.sendHandshake x0 x1 x2 x3 x4) := by
  unfold State.sendHandshake
  (try dsimp only)
  repeat' (first | (with_reducible assumption) | (with_reducible exact fun _ => rfl) | (with_reducible exact fun x => False.elim x) | (with_reducible apply State.send_keep) | (with_reducible apply foldl_keep) | (with_reducible apply foldl_keep_fst) | split | (intro _) | (dsimp only [id]) | (with_reducible apply Keep.upd; first | (with_reducible assumption) | (with_reducible exact fun _ => rfl) | (with_reducible exact fun x => False.elim x) | (with_reducible apply State.send_keep) | (with_reducible apply foldl_keep) | (with_reducible apply foldl_keep_fst) | split | (dsimp only [id])))

theorem State.dropHandshake_keep {T U : Prop} {r : State} {x0} {x1} (h : Keep T U r x0) : Keep T U r (@State.dropHandshake x0 x1) := by
  unfold State.dropHandshake
  (try dsimp only)
  repeat' (first | (with_reducible assumption) | (with_reducible exact fun _ => rfl) | (with_reducible exact fun x => False.elim x) | (with_reducible apply foldl_keep) | (with_reducible apply foldl_keep_fst) | split | (intro _) | (dsimp only [id]) | (with_reducible apply Keep.upd; first | (with_reducible assumption) | (with_reducible exact fun _ => rfl) | (with_reducible exact fun x => False.elim x) | (with_reducible apply foldl_keep) | (with_reducible apply foldl_keep_fst) | split | (dsimp only [id])))

theorem State.unknownFrame_keep {T U : Prop} {r : State} {x0} {x1} {x2} (h : Keep T U r x0) : Keep T U r (@State.unknownFrame x0 x1 x2) := by
  unfold State.unknownFrame
  (try dsimp only)
  repeat' (first | (with_reducible assumption) | (with_reducible exact fun _ => rfl) | (with_reducible exact fun x => False.elim x) | (with_reducible apply State.bump_keep) | (with_reducible apply State.refuseHello_keep) | (with_reducible apply State.burn_keep) | (with_reducible apply State.refuse2_keep) | (with_reducible apply State.sendHandshake_keep) | (with_reducible apply State.dropHandshake_keep) | (with_reducible apply foldl_keep) | (with_reducible apply foldl_keep_fst) | split | (intro _) | (dsimp only [id]) | (with_reducible apply Keep.upd; first | (with_reducible assumption) | (with_reducible exact fun _ => rfl) | (with_reducible exact fun x => False.elim x) | (with_reducible apply State.bump_keep) | (with_reducible apply State.refuseHello_keep) | (with_reducible apply State.burn_keep) | (with_reducible apply State.refuse2_keep) | (with_reducible apply State.sendHandshake_keep) | (with_reducible apply State.dropHandshake_keep) | (with_reducible apply foldl_keep) | (with_reducible apply foldl_keep_fst) | split | (dsimp only [id])))

theorem State.request2_keep {T U : Prop} {r : State} {x0} {x1} {x2} {x3} {x4} {x5} (h : Keep T U r x0) (g5 : ∀ y0 y1, Keep T U r y1 → Keep T U r (x5 y0 y1)) : Keep T U r (@State.request2 x0 x1 x2 x3 x4 x5) := by
  unfold State.request2
  (try dsimp only)
  repeat' (first | (with_reducible assumption) | (with_reducible exact fun _ => rfl) | (with_reducible exact fun x => False.elim x) | (with_reducible apply g5) | (with_reducible apply State.bump_keep) | (with_reducible apply State.serve_keep) | (with_reducible apply foldl_keep) | (with_reducible apply foldl_keep_fst) | split | (intro _) | (dsimp only [id]) | (with_reducible apply Keep.upd; first | (with_reducible assumption) | (with_reducible exact fun _ => rfl) | (with_reducible exact fun x => False.elim x) | (with_reducible apply g5) | (with_reducible apply State.bump_keep) | (with_reducible apply State.serve_keep) | (with_reducible apply foldl_keep) | (with_reducible apply foldl_keep_fst) | split | (dsimp only [id])))

theorem execUnknownCommand_keep {T U : Prop} {r : State} {x0} {x1} {x2} (h : Keep T U r x2) : Keep T U r (@execUnknownCommand x0 x1 x2) := by
  unfold execUnknownCommand
  (try dsimp only)
  repeat' (first | (with_reducible assumption) | (with_reducible exact fun _ => rfl) | (with_reducible exact fun x => False.elim x) | (with_reducible apply State.unknownFrame_keep) | (with_reducible apply State.request2_keep) | (with_reducible apply State.respond_keep) | (with_reducible apply State.request_keep) | (with_reducible apply foldl_keep) | (with_reducible apply foldl_keep_fst) | split | (intro _) | (dsimp only [id]) | (with_reducible apply Keep.upd; first | (with_reducible assumption) | (with_reducible exact fun _ => rfl) | (with_reducible exact fun x => False.elim x) | (with_reducible apply State.unknownFrame_keep) | (with_reducible apply State.request2_keep) | (with_reducible apply State.respond_keep) | (with_reducible apply State.request_keep) | (with_reducible apply foldl_keep) | (with_reducible apply foldl_keep_fst) | split | (dsimp only [id])))

theorem execFrameDropped_keep {T U : Prop} {r : State} {x0} {x1} {x2} (h : Keep T U r x2) : Keep T U r (@execFrameDropped x0 x1 x2) := by
  unfold execFrameDropped
  (try dsimp only)
  repeat' (first | (with_reducible assumption) | (with_reducible exact fun _ => rfl) | (with_reducible exact fun x => False.elim x) | (with_reducible apply State.bump_keep) | (with_reducible apply foldl_keep) | (with_reducible apply foldl_keep_fst) | split | (intro _) | (dsimp only [id]) | (with_reducible apply Keep.upd; first | (with_reducible assumption) | (with_reducible exact fun _ => rfl) | (with_reducible exact fun x => False.elim x) | (with_reducible apply State.bump_keep) | (with_reducible apply foldl_keep) | (with_reducible apply foldl_keep_fst) | split | (dsimp only [id])))

theorem State.parkUntil_keep {T U : Prop} {r : State} {x0} {x1} {x2} {x3} (h : Keep T U r x0) : Keep T U r (@State.parkUntil x0 x1 x2 x3) := by
  unfold State.parkUntil
  (try dsimp only)
  repeat' (first | (with_reducible assumption) | (with_reducible exact fun _ => rfl) | (with_reducible exact fun x => False.elim x) | (with_reducible apply State.modCore_keep) | (with_reducible apply State.advance_keep) | (with_reducible apply foldl_keep) | (with_reducible apply foldl_keep_fst) | split | (intro _) | (dsimp only [id]) | (with_reducible apply Keep.upd; first | (with_reducible assumption) | (with_reducible exact fun _ => rfl) | (with_reducible exact fun x => False.elim x) | (with_reducible apply State.modCore_keep) | (with_reducible apply State.advance_keep) | (with_reducible apply foldl_keep) | (with_reducible apply foldl_keep_fst) | split | (dsimp only [id])))

theorem execBellwait_keep {T U : Prop} {r : State} {x0} {x1} {x2} (h : Keep T U r x2) : Keep T U r (@execBellwait x0 x1 x2) := by
  unfold execBellwait
  (try dsimp only)
  repeat' (first | (with_reducible assumption) | (with_reducible exact fun _ => rfl) | (with_reducible exact fun x => False.elim x) | (with_reducible apply issue_keep) | (with_reducible apply State.parkUntil_keep) | (with_reducible apply foldl_keep) | (with_reducible apply foldl_keep_fst) | split | (intro _) | (dsimp only [id]) | (with_reducible apply Keep.upd; first | (with_reducible assumption) | (with_reducible exact fun _ => rfl) | (with_reducible exact fun x => False.elim x) | (with_reducible apply issue_keep) | (with_reducible apply State.parkUntil_keep) | (with_reducible apply foldl_keep) | (with_reducible apply foldl_keep_fst) | split | (dsimp only [id])))

theorem execBellwaits_keep {T U : Prop} {r : State} {x0} {x1} {x2} (h : Keep T U r x2) : Keep T U r (@execBellwaits x0 x1 x2) := by
  unfold execBellwaits
  (try dsimp only)
  repeat' (first | (with_reducible assumption) | (with_reducible exact fun _ => rfl) | (with_reducible exact fun x => False.elim x) | (with_reducible apply issue_keep) | (with_reducible apply State.parkUntil_keep) | (with_reducible apply foldl_keep) | (with_reducible apply foldl_keep_fst) | split | (intro _) | (dsimp only [id]) | (with_reducible apply Keep.upd; first | (with_reducible assumption) | (with_reducible exact fun _ => rfl) | (with_reducible exact fun x => False.elim x) | (with_reducible apply issue_keep) | (with_reducible apply State.parkUntil_keep) | (with_reducible apply foldl_keep) | (with_reducible apply foldl_keep_fst) | split | (dsimp only [id])))

theorem execRest_keep {T U : Prop} {r : State} {x0} {x1} {x2} (h : Keep T U r x2) : Keep T U r (@execRest x0 x1 x2) := by
  unfold execRest
  (try dsimp only)
  repeat' (first | (with_reducible assumption) | (with_reducible exact fun _ => rfl) | (with_reducible exact fun x => False.elim x) | (with_reducible apply issue_keep) | (with_reducible apply State.modCore_keep) | (with_reducible apply foldl_keep) | (with_reducible apply foldl_keep_fst) | split | (intro _) | (dsimp only [id]) | (with_reducible apply Keep.upd; first | (with_reducible assumption) | (with_reducible exact fun _ => rfl) | (with_reducible exact fun x => False.elim x) | (with_reducible apply issue_keep) | (with_reducible apply State.modCore_keep) | (with_reducible apply foldl_keep) | (with_reducible apply foldl_keep_fst) | split | (dsimp only [id])))

theorem execSeal_keep {T U : Prop} {r : State} {x0} {x1} {x2} (h : Keep T U r x2) : Keep T U r (@execSeal x0 x1 x2) := by
  unfold execSeal
  (try dsimp only)
  repeat' (first | (with_reducible assumption) | (with_reducible exact fun _ => rfl) | (with_reducible exact fun x => False.elim x) | (with_reducible apply issue_keep) | (with_reducible apply State.advance_keep) | (with_reducible apply State.modCore_keep) | (with_reducible apply foldl_keep) | (with_reducible apply foldl_keep_fst) | split | (intro _) | (dsimp only [id]) | (with_reducible apply Keep.upd; first | (with_reducible assumption) | (with_reducible exact fun _ => rfl) | (with_reducible exact fun x => False.elim x) | (with_reducible apply issue_keep) | (with_reducible apply State.advance_keep) | (with_reducible apply State.modCore_keep) | (with_reducible apply foldl_keep) | (with_reducible apply foldl_keep_fst) | split | (dsimp only [id])))

theorem execSealDrainDone_keep {T U : Prop} {r : State} {x0} {x1} (h : Keep T U r x1) : Keep T U r (@execSealDrainDone x0 x1) := by
  unfold execSealDrainDone
  (try dsimp only)
  repeat' (first | (with_reducible assumption) | (with_reducible exact fun _ => rfl) | (with_reducible exact fun x => False.elim x) | (with_reducible apply State.advance_keep) | (with_reducible apply State.modCore_keep) | (with_reducible apply foldl_keep) | (with_reducible apply foldl_keep_fst) | split | (intro _) | (dsimp only [id]) | (with_reducible apply Keep.upd; first | (with_reducible assumption) | (with_reducible exact fun _ => rfl) | (with_reducible exact fun x => False.elim x) | (with_reducible apply State.advance_keep) | (with_reducible apply State.modCore_keep) | (with_reducible apply foldl_keep) | (with_reducible apply foldl_keep_fst) | split | (dsimp only [id])))

theorem execFence_keep {T U : Prop} {r : State} {x0} {x1} {x2} (h : Keep T U r x2) : Keep T U r (@execFence x0 x1 x2) := by
  unfold execFence
  (try dsimp only)
  repeat' (first | (with_reducible assumption) | (with_reducible exact fun _ => rfl) | (with_reducible exact fun x => False.elim x) | (with_reducible apply issue_keep) | (with_reducible apply State.advance_keep) | (with_reducible apply State.modCore_keep) | (with_reducible apply foldl_keep) | (with_reducible apply foldl_keep_fst) | split | (intro _) | (dsimp only [id]) | (with_reducible apply Keep.upd; first | (with_reducible assumption) | (with_reducible exact fun _ => rfl) | (with_reducible exact fun x => False.elim x) | (with_reducible apply issue_keep) | (with_reducible apply State.advance_keep) | (with_reducible apply State.modCore_keep) | (with_reducible apply foldl_keep) | (with_reducible apply foldl_keep_fst) | split | (dsimp only [id])))

theorem execFenceDrainDone_keep {T U : Prop} {r : State} {x0} {x1} (h : Keep T U r x1) : Keep T U r (@execFenceDrainDone x0 x1) := by
  unfold execFenceDrainDone
  (try dsimp only)
  repeat' (first | (with_reducible assumption) | (with_reducible exact fun _ => rfl) | (with_reducible exact fun x => False.elim x) | (with_reducible apply State.advance_keep) | (with_reducible apply State.modCore_keep) | (with_reducible apply foldl_keep) | (with_reducible apply foldl_keep_fst) | split | (intro _) | (dsimp only [id]) | (with_reducible apply Keep.upd; first | (with_reducible assumption) | (with_reducible exact fun _ => rfl) | (with_reducible exact fun x => False.elim x) | (with_reducible apply State.advance_keep) | (with_reducible apply State.modCore_keep) | (with_reducible apply foldl_keep) | (with_reducible apply foldl_keep_fst) | split | (dsimp only [id])))

theorem execWait_keep {T U : Prop} {r : State} {x0} {x1} {x2} (h : Keep T U r x2) : Keep T U r (@execWait x0 x1 x2) := by
  unfold execWait
  (try dsimp only)
  repeat' (first | (with_reducible assumption) | (with_reducible exact fun _ => rfl) | (with_reducible exact fun x => False.elim x) | (with_reducible apply issue_keep) | (with_reducible apply State.advance_keep) | (with_reducible apply State.modCore_keep) | (with_reducible apply foldl_keep) | (with_reducible apply foldl_keep_fst) | split | (intro _) | (dsimp only [id]) | (with_reducible apply Keep.upd; first | (with_reducible assumption) | (with_reducible exact fun _ => rfl) | (with_reducible exact fun x => False.elim x) | (with_reducible apply issue_keep) | (with_reducible apply State.advance_keep) | (with_reducible apply State.modCore_keep) | (with_reducible apply foldl_keep) | (with_reducible apply foldl_keep_fst) | split | (dsimp only [id])))

theorem execTagWaitDone_keep {T U : Prop} {r : State} {x0} {x1} (h : Keep T U r x1) : Keep T U r (@execTagWaitDone x0 x1) := by
  unfold execTagWaitDone
  (try dsimp only)
  repeat' (first | (with_reducible assumption) | (with_reducible exact fun _ => rfl) | (with_reducible exact fun x => False.elim x) | (with_reducible apply State.advance_keep) | (with_reducible apply State.modCore_keep) | (with_reducible apply foldl_keep) | (with_reducible apply foldl_keep_fst) | split | (intro _) | (dsimp only [id]) | (with_reducible apply Keep.upd; first | (with_reducible assumption) | (with_reducible exact fun _ => rfl) | (with_reducible exact fun x => False.elim x) | (with_reducible apply State.advance_keep) | (with_reducible apply State.modCore_keep) | (with_reducible apply foldl_keep) | (with_reducible apply foldl_keep_fst) | split | (dsimp only [id])))

theorem execRdcr_keep {T U : Prop} {r : State} {x0} {x1} {x2} (h : Keep T U r x2) : Keep T U r (@execRdcr x0 x1 x2) := by
  unfold execRdcr
  (try dsimp only)
  repeat' (first | (with_reducible assumption) | (with_reducible exact fun _ => rfl) | (with_reducible exact fun x => False.elim x) | (with_reducible apply issue_keep) | (with_reducible apply State.advance_keep) | (with_reducible apply State.modCore_keep) | (with_reducible apply State.recordFault_keep) | (with_reducible apply foldl_keep) | (with_reducible apply foldl_keep_fst) | split | (intro _) | (dsimp only [id]) | (with_reducible apply Keep.upd; first | (with_reducible assumption) | (with_reducible exact fun _ => rfl) | (with_reducible exact fun x => False.elim x) | (with_reducible apply issue_keep) | (with_reducible apply State.advance_keep) | (with_reducible apply State.modCore_keep) | (with_reducible apply State.recordFault_keep) | (with_reducible apply foldl_keep) | (with_reducible apply foldl_keep_fst) | split | (dsimp only [id])))

theorem execWrcr_keep {T U : Prop} {r : State} {x0} {x1} {x2} (h : Keep T U r x2) : Keep T U r (@execWrcr x0 x1 x2) := by
  unfold execWrcr
  (try dsimp only)
  repeat' (first | (with_reducible assumption) | (with_reducible exact fun _ => rfl) | (with_reducible exact fun x => False.elim x) | (with_reducible apply issue_keep) | (with_reducible apply State.advance_keep) | (with_reducible apply State.setCore_keep) | (with_reducible apply State.recordFault_keep) | (with_reducible apply foldl_keep) | (with_reducible apply foldl_keep_fst) | split | (intro _) | (dsimp only [id]) | (with_reducible apply Keep.upd; first | (with_reducible assumption) | (with_reducible exact fun _ => rfl) | (with_reducible exact fun x => False.elim x) | (with_reducible apply issue_keep) | (with_reducible apply State.advance_keep) | (with_reducible apply State.setCore_keep) | (with_reducible apply State.recordFault_keep) | (with_reducible apply foldl_keep) | (with_reducible apply foldl_keep_fst) | split | (dsimp only [id])))

theorem execRngk_keep {T U : Prop} {r : State} {x0} {x1} {x2} (h : Keep T U r x2) : Keep T U r (@execRngk x0 x1 x2) := by
  unfold execRngk
  (try dsimp only)
  repeat' (first | (with_reducible assumption) | (with_reducible exact fun _ => rfl) | (with_reducible exact fun x => False.elim x) | (with_reducible apply issueK_keep) | (with_reducible apply foldl_keep) | (with_reducible apply foldl_keep_fst) | split | (intro _) | (dsimp only [id]) | (with_reducible apply Keep.upd; first | (with_reducible assumption) | (with_reducible exact fun _ => rfl) | (with_reducible exact fun x => False.elim x) | (with_reducible apply issueK_keep) | (with_reducible apply foldl_keep) | (with_reducible apply foldl_keep_fst) | split | (dsimp only [id])))

theorem execRng_keep {T U : Prop} {r : State} {x0} {x1} {x2} (h : Keep T U r x2) : Keep T U r (@execRng x0 x1 x2) := by
  unfold execRng
  (try dsimp only)
  repeat' (first | (with_reducible assumption) | (with_reducible exact fun _ => rfl) | (with_reducible exact fun x => False.elim x) | (with_reducible apply issue_keep) | (with_reducible apply State.advance_keep) | (with_reducible apply State.modCore_keep) | (with_reducible apply foldl_keep) | (with_reducible apply foldl_keep_fst) | split | (intro _) | (dsimp only [id]) | (with_reducible apply Keep.upd; first | (with_reducible assumption) | (with_reducible exact fun _ => rfl) | (with_reducible exact fun x => False.elim x) | (with_reducible apply issue_keep) | (with_reducible apply State.advance_keep) | (with_reducible apply State.modCore_keep) | (with_reducible apply foldl_keep) | (with_reducible apply foldl_keep_fst) | split | (dsimp only [id])))

theorem execCheck_keep {T U : Prop} {r : State} {x0} {x1} {x2} (h : Keep T U r x2) : Keep T U r (@execCheck x0 x1 x2) := by
  unfold execCheck
  (try dsimp only)
  repeat' (first | (with_reducible assumption) | (with_reducible exact fun _ => rfl) | (with_reducible exact fun x => False.elim x) | (with_reducible apply issue_keep) | (with_reducible apply State.advance_keep) | (with_reducible apply State.recordFault_keep) | (with_reducible apply foldl_keep) | (with_reducible apply foldl_keep_fst) | split | (intro _) | (dsimp only [id]) | (with_reducible apply Keep.upd; first | (with_reducible assumption) | (with_reducible exact fun _ => rfl) | (with_reducible exact fun x => False.elim x) | (with_reducible apply issue_keep) | (with_reducible apply State.advance_keep) | (with_reducible apply State.recordFault_keep) | (with_reducible apply foldl_keep) | (with_reducible apply foldl_keep_fst) | split | (dsimp only [id])))

theorem execRaise_keep {T U : Prop} {r : State} {x0} {x1} {x2} (h : Keep T U r x2) : Keep T U r (@execRaise x0 x1 x2) := by
  unfold execRaise
  (try dsimp only)
  repeat' (first | (with_reducible assumption) | (with_reducible exact fun _ => rfl) | (with_reducible exact fun x => False.elim x) | (with_reducible apply issue_keep) | (with_reducible apply State.setStatus_keep) | (with_reducible apply State.advance_keep) | (with_reducible apply State.overflow_keep) | (with_reducible apply foldl_keep) | (with_reducible apply foldl_keep_fst) | split | (intro _) | (dsimp only [id]) | (with_reducible apply Keep.upd; first | (with_reducible assumption) | (with_reducible exact fun _ => rfl) | (with_reducible exact fun x => False.elim x) | (with_reducible apply issue_keep) | (with_reducible apply State.setStatus_keep) | (with_reducible apply State.advance_keep) | (with_reducible apply State.overflow_keep) | (with_reducible apply foldl_keep) | (with_reducible apply foldl_keep_fst) | split | (dsimp only [id])))

theorem execRdflt_keep {T U : Prop} {r : State} {x0} {x1} {x2} (h : Keep T U r x2) : Keep T U r (@execRdflt x0 x1 x2) := by
  unfold execRdflt
  (try dsimp only)
  repeat' (first | (with_reducible assumption) | (with_reducible exact fun _ => rfl) | (with_reducible exact fun x => False.elim x) | (with_reducible apply issueK_keep) | (with_reducible apply foldl_keep) | (with_reducible apply foldl_keep_fst) | split | (intro _) | (dsimp only [id]) | (with_reducible apply Keep.upd; first | (with_reducible assumption) | (with_reducible exact fun _ => rfl) | (with_reducible exact fun x => False.elim x) | (with_reducible apply issueK_keep) | (with_reducible apply foldl_keep) | (with_reducible apply foldl_keep_fst) | split | (dsimp only [id])))

theorem State.clearCounter_keep {T U : Prop} {r : State} {x0} {x1} {x2} (h : Keep T U r x0) : Keep T U r (@State.clearCounter x0 x1 x2) := by
  unfold State.clearCounter
  (try dsimp only)
  repeat' (first | (with_reducible assumption) | (with_reducible exact fun _ => rfl) | (with_reducible exact fun x => False.elim x) | (with_reducible apply State.setCounter_keep) | (with_reducible apply foldl_keep) | (with_reducible apply foldl_keep_fst) | split | (intro _) | (dsimp only [id]) | (with_reducible apply Keep.upd; first | (with_reducible assumption) | (with_reducible exact fun _ => rfl) | (with_reducible exact fun x => False.elim x) | (with_reducible apply State.setCounter_keep) | (with_reducible apply foldl_keep) | (with_reducible apply foldl_keep_fst) | split | (dsimp only [id])))

theorem State.refuseWrite_keep {T U : Prop} {r : State} {x0} {x1} {x2} {x3} (h : Keep T U r x0) : Keep T U r (@State.refuseWrite x0 x1 x2 x3) := by
  unfold State.refuseWrite
  (try dsimp only)
  repeat' (first | (with_reducible assumption) | (with_reducible exact fun _ => rfl) | (with_reducible exact fun x => False.elim x) | (with_reducible apply State.recordFault_keep) | (with_reducible apply State.sendTo_keep) | (with_reducible apply State.vlog_keep) | (with_reducible apply State.modVlog_keep) | (with_reducible apply foldl_keep) | (with_reducible apply foldl_keep_fst) | split | (intro _) | (dsimp only [id]) | (with_reducible apply Keep.upd; first | (with_reducible assumption) | (with_reducible exact fun _ => rfl) | (with_reducible exact fun x => False.elim x) | (with_reducible apply State.recordFault_keep) | (with_reducible apply State.sendTo_keep) | (with_reducible apply State.vlog_keep) | (with_reducible apply State.modVlog_keep) | (with_reducible apply foldl_keep) | (with_reducible apply foldl_keep_fst) | split | (dsimp only [id])))

theorem execCounterClear_keep {T U : Prop} {r : State} {x0} {x1} {x2} {x3} (h : Keep T U r x3) : Keep T U r (@execCounterClear x0 x1 x2 x3) := by
  unfold execCounterClear
  (try dsimp only)
  repeat' (first | (with_reducible assumption) | (with_reducible exact fun _ => rfl) | (with_reducible exact fun x => False.elim x) | (with_reducible apply State.refuseWrite_keep) | (with_reducible apply State.clearCounter_keep) | (with_reducible apply foldl_keep) | (with_reducible apply foldl_keep_fst) | split | (intro _) | (dsimp only [id]) | (with_reducible apply Keep.upd; first | (with_reducible assumption) | (with_reducible exact fun _ => rfl) | (with_reducible exact fun x => False.elim x) | (with_reducible apply State.refuseWrite_keep) | (with_reducible apply State.clearCounter_keep) | (with_reducible apply foldl_keep) | (with_reducible apply foldl_keep_fst) | split | (dsimp only [id])))

theorem execMxFlagsClear_keep {T U : Prop} {r : State} {x0} {x1} {x2} (h : Keep T U r x2) : Keep T U r (@execMxFlagsClear x0 x1 x2) := by
  unfold execMxFlagsClear
  (try dsimp only)
  repeat' (first | (with_reducible assumption) | (with_reducible exact fun _ => rfl) | (with_reducible exact fun x => False.elim x) | (with_reducible apply State.modCore_keep) | (with_reducible apply foldl_keep) | (with_reducible apply foldl_keep_fst) | split | (intro _) | (dsimp only [id]) | (with_reducible apply Keep.upd; first | (with_reducible assumption) | (with_reducible exact fun _ => rfl) | (with_reducible exact fun x => False.elim x) | (with_reducible apply State.modCore_keep) | (with_reducible apply foldl_keep) | (with_reducible apply foldl_keep_fst) | split | (dsimp only [id])))

theorem execVxFlagsClear_keep {T U : Prop} {r : State} {x0} {x1} {x2} (h : Keep T U r x2) : Keep T U r (@execVxFlagsClear x0 x1 x2) := by
  unfold execVxFlagsClear
  (try dsimp only)
  repeat' (first | (with_reducible assumption) | (with_reducible exact fun _ => rfl) | (with_reducible exact fun x => False.elim x) | (with_reducible apply State.modCore_keep) | (with_reducible apply foldl_keep) | (with_reducible apply foldl_keep_fst) | split | (intro _) | (dsimp only [id]) | (with_reducible apply Keep.upd; first | (with_reducible assumption) | (with_reducible exact fun _ => rfl) | (with_reducible exact fun x => False.elim x) | (with_reducible apply State.modCore_keep) | (with_reducible apply foldl_keep) | (with_reducible apply foldl_keep_fst) | split | (dsimp only [id])))

theorem execOutOfTolClear_keep {T U : Prop} {r : State} {x0} {x1} {x2} (h : Keep T U r x2) : Keep T U r (@execOutOfTolClear x0 x1 x2) := by
  unfold execOutOfTolClear
  (try dsimp only)
  repeat' (first | (with_reducible assumption) | (with_reducible exact fun _ => rfl) | (with_reducible exact fun x => False.elim x) | (with_reducible apply State.modTt_keep) | (with_reducible apply foldl_keep) | (with_reducible apply foldl_keep_fst) | split | (intro _) | (dsimp only [id]) | (with_reducible apply Keep.upd; first | (with_reducible assumption) | (with_reducible exact fun _ => rfl) | (with_reducible exact fun x => False.elim x) | (with_reducible apply State.modTt_keep) | (with_reducible apply foldl_keep) | (with_reducible apply foldl_keep_fst) | split | (dsimp only [id])))

theorem State.setAlert_keep {T U : Prop} {r : State} {x0} {x1} (h : Keep T U r x0) : Keep T U r (@State.setAlert x0 x1) := by
  unfold State.setAlert
  (try dsimp only)
  repeat' (first | (with_reducible assumption) | (with_reducible exact fun _ => rfl) | (with_reducible exact fun x => False.elim x) | (with_reducible apply State.bump_keep) | (with_reducible apply foldl_keep) | (with_reducible apply foldl_keep_fst) | split | (intro _) | (dsimp only [id]) | (with_reducible apply Keep.upd; first | (with_reducible assumption) | (with_reducible exact fun _ => rfl) | (with_reducible exact fun x => False.elim x) | (with_reducible apply State.bump_keep) | (with_reducible apply foldl_keep) | (with_reducible apply foldl_keep_fst) | split | (dsimp only [id])))

theorem execPwAlertClear_keep {T U : Prop} {r : State} {x0} {x1} (h : Keep T U r x1) : Keep T U r (@execPwAlertClear x0 x1) := by
  unfold execPwAlertClear
  (try dsimp only)
  repeat' (first | (with_reducible assumption) | (with_reducible exact fun _ => rfl) | (with_reducible exact fun x => False.elim x) | (with_reducible apply State.setAlert_keep) | (with_reducible apply foldl_keep) | (with_reducible apply foldl_keep_fst) | split | (intro _) | (dsimp only [id]) | (with_reducible apply Keep.upd; first | (with_reducible assumption) | (with_reducible exact fun _ => rfl) | (with_reducible exact fun x => False.elim x) | (with_reducible apply State.setAlert_keep) | (with_reducible apply foldl_keep) | (with_reducible apply foldl_keep_fst) | split | (dsimp only [id])))

theorem execRegisterWrite_keep {T U : Prop} {r : State} {x0} {x1} {x2} {x3} (h : Keep T U r x3) : Keep T U r (@execRegisterWrite x0 x1 x2 x3) := by
  unfold execRegisterWrite
  (try dsimp only)
  repeat' (first | (with_reducible assumption) | (with_reducible exact fun _ => rfl) | (with_reducible exact fun x => False.elim x) | (with_reducible apply State.setCore_keep) | (with_reducible apply State.refuseWrite_keep) | (with_reducible apply foldl_keep) | (with_reducible apply foldl_keep_fst) | split | (intro _) | (dsimp only [id]) | (with_reducible apply Keep.upd; first | (with_reducible assumption) | (with_reducible exact fun _ => rfl) | (with_reducible exact fun x => False.elim x) | (with_reducible apply State.setCore_keep) | (with_reducible apply State.refuseWrite_keep) | (with_reducible apply foldl_keep) | (with_reducible apply foldl_keep_fst) | split | (dsimp only [id])))

theorem State.noLesson_keep {T U : Prop} {r : State} {x0} {x1} (h : Keep T U r x0) : Keep T U r (@State.noLesson x0 x1) := by
  unfold State.noLesson
  (try dsimp only)
  repeat' (first | (with_reducible assumption) | (with_reducible exact fun _ => rfl) | (with_reducible exact fun x => False.elim x) | (with_reducible apply State.modCore_keep) | (with_reducible apply State.cancelCore_keep) | (with_reducible apply foldl_keep) | (with_reducible apply foldl_keep_fst) | split | (intro _) | (dsimp only [id]) | (with_reducible apply Keep.upd; first | (with_reducible assumption) | (with_reducible exact fun _ => rfl) | (with_reducible exact fun x => False.elim x) | (with_reducible apply State.modCore_keep) | (with_reducible apply State.cancelCore_keep) | (with_reducible apply foldl_keep) | (with_reducible apply foldl_keep_fst) | split | (dsimp only [id])))

theorem State.stopCores_keep {T U : Prop} {r : State} {x0} {x1} (h : Keep T U r x0) : Keep T U r (@State.stopCores x0 x1) := by
  unfold State.stopCores
  (try dsimp only)
  repeat' (first | (with_reducible assumption) | (with_reducible exact fun _ => rfl) | (with_reducible exact fun x => False.elim x) | (with_reducible apply eachOf_keep) | (with_reducible apply State.noLesson_keep) | (with_reducible apply foldl_keep) | (with_reducible apply foldl_keep_fst) | split | (intro _) | (dsimp only [id]) | (with_reducible apply Keep.upd; first | (with_reducible assumption) | (with_reducible exact fun _ => rfl) | (with_reducible exact fun x => False.elim x) | (with_reducible apply eachOf_keep) | (with_reducible apply State.noLesson_keep) | (with_reducible apply foldl_keep) | (with_reducible apply foldl_keep_fst) | split | (dsimp only [id])))

theorem State.zeroRange_keep {T U : Prop} {r : State} {x0} {x1} {x2} (h : Keep T U r x0) : Keep T U r (@State.zeroRange x0 x1 x2) := by
  unfold State.zeroRange
  exact Keep.updMem h (Memory.wf_zero _ _ _)

theorem State.zeroSram_keep {T U : Prop} {r : State} {x0} {x1} (h : Keep T U r x0) : Keep T U r (@State.zeroSram x0 x1) := by
  unfold State.zeroSram
  (try dsimp only)
  repeat' (first | (with_reducible assumption) | (with_reducible exact fun _ => rfl) | (with_reducible exact fun x => False.elim x) | (with_reducible apply State.zeroRange_keep) | (with_reducible apply foldl_keep) | (with_reducible apply foldl_keep_fst) | split | (intro _) | (dsimp only [id]) | (with_reducible apply Keep.upd; first | (with_reducible assumption) | (with_reducible exact fun _ => rfl) | (with_reducible exact fun x => False.elim x) | (with_reducible apply State.zeroRange_keep) | (with_reducible apply foldl_keep) | (with_reducible apply foldl_keep_fst) | split | (dsimp only [id])))

theorem State.zeroLpddr_keep {T U : Prop} {r : State} {x0} {x1} (h : Keep T U r x0) : Keep T U r (@State.zeroLpddr x0 x1) := by
  unfold State.zeroLpddr
  (try dsimp only)
  repeat' (first | (with_reducible assumption) | (with_reducible exact fun _ => rfl) | (with_reducible exact fun x => False.elim x) | (with_reducible apply State.zeroRange_keep) | (with_reducible apply State.modMc_keep) | (with_reducible apply foldl_keep) | (with_reducible apply foldl_keep_fst) | split | (intro _) | (dsimp only [id]) | (with_reducible apply Keep.upd; first | (with_reducible assumption) | (with_reducible exact fun _ => rfl) | (with_reducible exact fun x => False.elim x) | (with_reducible apply State.zeroRange_keep) | (with_reducible apply State.modMc_keep) | (with_reducible apply foldl_keep) | (with_reducible apply foldl_keep_fst) | split | (dsimp only [id])))

end Sys2Proof.Machine
end

