-- ==== Sys2Proof/Laws/Keep5.lean ====
section
/-! SUPPORT. What the model's operations keep (Keep: the queue and the canonical form), one lemma per operation, part 5. -/

set_option linter.unusedTactic false
set_option linter.unreachableTactic false

namespace Sys2Proof.Machine

theorem Seat.dropped_bell (k : Seat) : k.dropped.clockOf = k.clockOf := rfl

theorem State.dropSeat_keep {T : Prop} {r : State} {x0} {x1} (h : Keep T False r x0) : Keep T False r (@State.dropSeat x0 x1) := by
  unfold State.dropSeat
  dsimp only
  apply State.modLbs_keep
  apply State.modSeat_keep
  · apply foldl_keep
    · apply State.ckInterrupt_keep
      exact h
    · intro t x ht
      apply State.respond_keep
      exact ht
  · exact fun _ => Seat.dropped_bell _
  · exact fun x => x.elim

theorem State.clearLogs_keep {T U : Prop} {r : State} {x0} {x1} (h : Keep T U r x0) : Keep T U r (@State.clearLogs x0 x1) := by
  unfold State.clearLogs
  (try dsimp only)
  repeat' (first | (with_reducible assumption) | (with_reducible exact fun _ => rfl) | (with_reducible exact fun x => False.elim x) | (with_reducible apply State.modSeat_keep) | (with_reducible apply State.setCounter_keep) | (with_reducible apply foldl_keep) | (with_reducible apply foldl_keep_fst) | split | (intro _) | (dsimp only [id]) | (with_reducible apply Keep.upd; first | (with_reducible assumption) | (with_reducible exact fun _ => rfl) | (with_reducible exact fun x => False.elim x) | (with_reducible apply State.modSeat_keep) | (with_reducible apply State.setCounter_keep) | (with_reducible apply foldl_keep) | (with_reducible apply foldl_keep_fst) | split | (dsimp only [id])))

theorem State.absentLinks_keep {T U : Prop} {r : State} {x0} {x1} (h : Keep T U r x0) : Keep T U r (@State.absentLinks x0 x1) := by
  unfold State.absentLinks
  (try dsimp only)
  repeat' (first | (with_reducible assumption) | (with_reducible exact fun _ => rfl) | (with_reducible exact fun x => False.elim x) | (with_reducible apply eachOf_keep) | (with_reducible apply State.modLink_keep) | (with_reducible apply State.sendAbsent_keep) | (with_reducible apply foldl_keep) | (with_reducible apply foldl_keep_fst) | split | (intro _) | (dsimp only [id]) | (with_reducible apply Keep.upd; first | (with_reducible assumption) | (with_reducible exact fun _ => rfl) | (with_reducible exact fun x => False.elim x) | (with_reducible apply eachOf_keep) | (with_reducible apply State.modLink_keep) | (with_reducible apply State.sendAbsent_keep) | (with_reducible apply foldl_keep) | (with_reducible apply foldl_keep_fst) | split | (dsimp only [id])))

theorem State.wipeLinks_keep {T U : Prop} {r : State} {x0} {x1} (h : Keep T U r x0) : Keep T U r (@State.wipeLinks x0 x1) := by
  unfold State.wipeLinks
  (try dsimp only)
  repeat' (first | (with_reducible assumption) | (with_reducible exact fun _ => rfl) | (with_reducible exact fun x => False.elim x) | (with_reducible apply eachOf_keep) | (with_reducible apply State.enterIdent_keep) | (with_reducible apply State.modLink_keep) | (with_reducible apply foldl_keep) | (with_reducible apply foldl_keep_fst) | split | (intro _) | (dsimp only [id]) | (with_reducible apply Keep.upd; first | (with_reducible assumption) | (with_reducible exact fun _ => rfl) | (with_reducible exact fun x => False.elim x) | (with_reducible apply eachOf_keep) | (with_reducible apply State.enterIdent_keep) | (with_reducible apply State.modLink_keep) | (with_reducible apply foldl_keep) | (with_reducible apply foldl_keep_fst) | split | (dsimp only [id])))

theorem State.endSession_keep {T U : Prop} {r : State} {x0} {x1} (h : Keep T U r x0) : Keep T U r (@State.endSession x0 x1) := by
  unfold State.endSession
  (try dsimp only)
  repeat' (first | (with_reducible assumption) | (with_reducible exact fun _ => rfl) | (with_reducible exact fun x => False.elim x) | (with_reducible apply State.setSlot_keep) | (with_reducible apply eachOf_keep) | (with_reducible apply State.modSeat_keep) | (with_reducible apply foldl_keep) | (with_reducible apply foldl_keep_fst) | split | (intro _) | (dsimp only [id]) | (with_reducible apply Keep.upd; first | (with_reducible assumption) | (with_reducible exact fun _ => rfl) | (with_reducible exact fun x => False.elim x) | (with_reducible apply State.setSlot_keep) | (with_reducible apply eachOf_keep) | (with_reducible apply State.modSeat_keep) | (with_reducible apply foldl_keep) | (with_reducible apply foldl_keep_fst) | split | (dsimp only [id])))

theorem State.endTenants_keep {T U : Prop} {r : State} {x0} {x1} (h : Keep T U r x0) : Keep T U r (@State.endTenants x0 x1) := by
  unfold State.endTenants
  (try dsimp only)
  repeat' (first | (with_reducible assumption) | (with_reducible exact fun _ => rfl) | (with_reducible exact fun x => False.elim x) | (with_reducible apply State.endSession_keep) | (with_reducible apply foldl_keep) | (with_reducible apply foldl_keep_fst) | split | (intro _) | (dsimp only [id]) | (with_reducible apply Keep.upd; first | (with_reducible assumption) | (with_reducible exact fun _ => rfl) | (with_reducible exact fun x => False.elim x) | (with_reducible apply State.endSession_keep) | (with_reducible apply foldl_keep) | (with_reducible apply foldl_keep_fst) | split | (dsimp only [id])))

theorem State.endAllTenants_keep {T U : Prop} {r : State} {x0} (h : Keep T U r x0) : Keep T U r (@State.endAllTenants x0) := by
  unfold State.endAllTenants
  (try dsimp only)
  repeat' (first | (with_reducible assumption) | (with_reducible exact fun _ => rfl) | (with_reducible exact fun x => False.elim x) | (with_reducible apply State.endSession_keep) | (with_reducible apply foldl_keep) | (with_reducible apply foldl_keep_fst) | split | (intro _) | (dsimp only [id]) | (with_reducible apply Keep.upd; first | (with_reducible assumption) | (with_reducible exact fun _ => rfl) | (with_reducible exact fun x => False.elim x) | (with_reducible apply State.endSession_keep) | (with_reducible apply foldl_keep) | (with_reducible apply foldl_keep_fst) | split | (dsimp only [id])))

theorem State.endPartition_keep {T U : Prop} {r : State} {x0} {x1} (h : Keep T U r x0) : Keep T U r (@State.endPartition x0 x1) := by
  unfold State.endPartition
  (try dsimp only)
  repeat' (first | (with_reducible assumption) | (with_reducible exact fun _ => rfl) | (with_reducible exact fun x => False.elim x) | (with_reducible apply State.endSession_keep) | (with_reducible apply foldl_keep) | (with_reducible apply foldl_keep_fst) | split | (intro _) | (dsimp only [id]) | (with_reducible apply Keep.upd; first | (with_reducible assumption) | (with_reducible exact fun _ => rfl) | (with_reducible exact fun x => False.elim x) | (with_reducible apply State.endSession_keep) | (with_reducible apply foldl_keep) | (with_reducible apply foldl_keep_fst) | split | (dsimp only [id])))

theorem State.partitionReset_keep {T : Prop} {r : State} {x0} {x1} (h : Keep T False r x0) : Keep T False r (@State.partitionReset x0 x1) := by
  unfold State.partitionReset
  (try dsimp only)
  repeat' (first | (with_reducible assumption) | (with_reducible exact fun _ => rfl) | (with_reducible exact fun x => False.elim x) | (with_reducible apply State.dropSeat_keep) | (with_reducible apply State.stopCores_keep) | (with_reducible apply State.clearLogs_keep) | (with_reducible apply eachOf_keep) | (with_reducible apply State.modHm_keep) | (with_reducible apply State.absentLinks_keep) | (with_reducible apply State.zeroSram_keep) | (with_reducible apply State.newKeys_keep) | (with_reducible apply foldl_keep) | (with_reducible apply foldl_keep_fst) | split | (intro _) | (dsimp only [id]) | (with_reducible apply Keep.upd; first | (with_reducible assumption) | (with_reducible exact fun _ => rfl) | (with_reducible exact fun x => False.elim x) | (with_reducible apply State.dropSeat_keep) | (with_reducible apply State.stopCores_keep) | (with_reducible apply State.clearLogs_keep) | (with_reducible apply eachOf_keep) | (with_reducible apply State.modHm_keep) | (with_reducible apply State.absentLinks_keep) | (with_reducible apply State.zeroSram_keep) | (with_reducible apply State.newKeys_keep) | (with_reducible apply foldl_keep) | (with_reducible apply foldl_keep_fst) | split | (dsimp only [id])))

theorem State.keep_keep {T U : Prop} {r : State} {x0} {x1} (h : Keep T U r x0) : Keep T U r (@State.keep x0 x1) := by
  unfold State.keep
  (try dsimp only)
  repeat' (first | (with_reducible assumption) | (with_reducible exact fun _ => rfl) | (with_reducible exact fun x => False.elim x) | (with_reducible apply foldl_keep) | (with_reducible apply foldl_keep_fst) | split | (intro _) | (dsimp only [id]) | (with_reducible apply Keep.upd; first | (with_reducible assumption) | (with_reducible exact fun _ => rfl) | (with_reducible exact fun x => False.elim x) | (with_reducible apply foldl_keep) | (with_reducible apply foldl_keep_fst) | split | (dsimp only [id])))

theorem State.bootStarts_keep {T U : Prop} {r : State} {x0} (h : Keep T U r x0) : Keep T U r (@State.bootStarts x0) := by
  unfold State.bootStarts
  (try dsimp only)
  repeat' (first | (with_reducible assumption) | (with_reducible exact fun _ => rfl) | (with_reducible exact fun x => False.elim x) | (with_reducible apply State.keep_keep) | (with_reducible apply foldl_keep) | (with_reducible apply foldl_keep_fst) | split | (intro _) | (dsimp only [id]) | (with_reducible apply Keep.upd; first | (with_reducible assumption) | (with_reducible exact fun _ => rfl) | (with_reducible exact fun x => False.elim x) | (with_reducible apply State.keep_keep) | (with_reducible apply foldl_keep) | (with_reducible apply foldl_keep_fst) | split | (dsimp only [id])))

theorem State.chipReset_keep {r : State} {x0} {x1} (h : Keep False False r x0) : Keep False False r (@State.chipReset x0 x1) := by
  unfold State.chipReset
  apply State.bootStarts_keep
  refine ⟨h.pending, fun c => ?_, fun x => x.elim, fun x => x.elim⟩
  have y := h.canonical c
  refine ⟨rfl, rfl, ?_, ?_, rfl, Tab.wf_filter _ _ _ y.counters, by simp, ?_, ?_⟩
  · dsimp only
    exact Tab.each_wf _ _ _
  · dsimp only
    exact Tab.each_wf _ _ _
  · dsimp only
    exact Tab.each_ix _ _ _ _ y.fieldIx
  · dsimp only
    exact Tab.each_ix _ _ _ _ y.linkIx

theorem State.startDump_keep {T U : Prop} {r : State} {x0} {x1} {x2} {x3} {x4} {x5} (h : Keep T U r x0) : Keep T U r (@State.startDump x0 x1 x2 x3 x4 x5) := by
  unfold State.startDump
  (try dsimp only)
  repeat' (first | (with_reducible assumption) | (with_reducible exact fun _ => rfl) | (with_reducible exact fun x => False.elim x) | (with_reducible apply eachOf_keep) | (with_reducible apply State.modHm_keep) | (with_reducible apply foldl_keep) | (with_reducible apply foldl_keep_fst) | split | (intro _) | (dsimp only [id]) | (with_reducible apply Keep.upd; first | (with_reducible assumption) | (with_reducible exact fun _ => rfl) | (with_reducible exact fun x => False.elim x) | (with_reducible apply eachOf_keep) | (with_reducible apply State.modHm_keep) | (with_reducible apply foldl_keep) | (with_reducible apply foldl_keep_fst) | split | (dsimp only [id])))

theorem State.internalDump_keep {T U : Prop} {r : State} {x0} {x1} (h : Keep T U r x0) : Keep T U r (@State.internalDump x0 x1).1 := by
  unfold State.internalDump
  (try dsimp only)
  repeat' (first | (with_reducible assumption) | (with_reducible exact fun _ => rfl) | (with_reducible exact fun x => False.elim x) | (with_reducible apply State.startDump_keep) | (with_reducible apply foldl_keep) | (with_reducible apply foldl_keep_fst) | split | (intro _) | (dsimp only [id]) | (with_reducible apply Keep.upd; first | (with_reducible assumption) | (with_reducible exact fun _ => rfl) | (with_reducible exact fun x => False.elim x) | (with_reducible apply State.startDump_keep) | (with_reducible apply foldl_keep) | (with_reducible apply foldl_keep_fst) | split | (dsimp only [id])))

theorem State.keepDump_keep {T U : Prop} {r : State} {x0} {x1} {x2} (h : Keep T U r x0) : Keep T U r (@State.keepDump x0 x1 x2) := by
  unfold State.keepDump
  (try dsimp only)
  repeat' (first | (with_reducible assumption) | (with_reducible exact fun _ => rfl) | (with_reducible exact fun x => False.elim x) | (with_reducible apply State.burn_keep) | (with_reducible apply State.modHm_keep) | (with_reducible apply foldl_keep) | (with_reducible apply foldl_keep_fst) | split | (intro _) | (dsimp only [id]) | (with_reducible apply Keep.upd; first | (with_reducible assumption) | (with_reducible exact fun _ => rfl) | (with_reducible exact fun x => False.elim x) | (with_reducible apply State.burn_keep) | (with_reducible apply State.modHm_keep) | (with_reducible apply foldl_keep) | (with_reducible apply foldl_keep_fst) | split | (dsimp only [id])))

theorem State.startResetDumps_keep {T U : Prop} {r : State} {x0} (h : Keep T U r x0) : Keep T U r (@State.startResetDumps x0) := by
  unfold State.startResetDumps
  (try dsimp only)
  repeat' (first | (with_reducible assumption) | (with_reducible exact fun _ => rfl) | (with_reducible exact fun x => False.elim x) | (with_reducible apply State.startDump_keep) | (with_reducible apply foldl_keep) | (with_reducible apply foldl_keep_fst) | split | (intro _) | (dsimp only [id]) | (with_reducible apply Keep.upd; first | (with_reducible assumption) | (with_reducible exact fun _ => rfl) | (with_reducible exact fun x => False.elim x) | (with_reducible apply State.startDump_keep) | (with_reducible apply foldl_keep) | (with_reducible apply foldl_keep_fst) | split | (dsimp only [id])))

theorem execSessionHello_keep {T U : Prop} {r : State} {x0} {x1} {x2} {x3} {x4} {x5} {x6} {x7} (h : Keep T U r x7) : Keep T U r (@execSessionHello x0 x1 x2 x3 x4 x5 x6 x7) := by
  unfold execSessionHello
  (try dsimp only)
  repeat' (first | (with_reducible assumption) | (with_reducible exact fun _ => rfl) | (with_reducible exact fun x => False.elim x) | (with_reducible apply State.bump_keep) | (with_reducible apply State.refuseHello_keep) | (with_reducible apply State.burn_keep) | (with_reducible apply State.send_keep) | (with_reducible apply foldl_keep) | (with_reducible apply foldl_keep_fst) | split | (intro _) | (dsimp only [id]) | (with_reducible apply Keep.upd; first | (with_reducible assumption) | (with_reducible exact fun _ => rfl) | (with_reducible exact fun x => False.elim x) | (with_reducible apply State.bump_keep) | (with_reducible apply State.refuseHello_keep) | (with_reducible apply State.burn_keep) | (with_reducible apply State.send_keep) | (with_reducible apply foldl_keep) | (with_reducible apply foldl_keep_fst) | split | (dsimp only [id])))

theorem State.commitSvn_keep {T U : Prop} {r : State} {x0} (h : Keep T U r x0) : Keep T U r (@State.commitSvn x0) := by
  unfold State.commitSvn
  (try dsimp only)
  repeat' (first | (with_reducible assumption) | (with_reducible exact fun _ => rfl) | (with_reducible exact fun x => False.elim x) | (with_reducible apply foldl_keep) | (with_reducible apply foldl_keep_fst) | split | (intro _) | (dsimp only [id]) | (with_reducible apply Keep.upd; first | (with_reducible assumption) | (with_reducible exact fun _ => rfl) | (with_reducible exact fun x => False.elim x) | (with_reducible apply foldl_keep) | (with_reducible apply foldl_keep_fst) | split | (dsimp only [id])))

theorem State.finish_keep {T U : Prop} {r : State} {x0} {x1} {x2} {x3} (h : Keep T U r x0) : Keep T U r (@State.finish x0 x1 x2 x3) := by
  unfold State.finish
  (try dsimp only)
  repeat' (first | (with_reducible assumption) | (with_reducible exact fun _ => rfl) | (with_reducible exact fun x => False.elim x) | (with_reducible apply State.dropHandshake_keep) | (with_reducible apply State.setSlot_keep) | (with_reducible apply State.respond_keep) | (with_reducible apply State.commitSvn_keep) | (with_reducible apply State.sendHandshake_keep) | (with_reducible apply foldl_keep) | (with_reducible apply foldl_keep_fst) | split | (intro _) | (dsimp only [id]) | (with_reducible apply Keep.upd; first | (with_reducible assumption) | (with_reducible exact fun _ => rfl) | (with_reducible exact fun x => False.elim x) | (with_reducible apply State.dropHandshake_keep) | (with_reducible apply State.setSlot_keep) | (with_reducible apply State.respond_keep) | (with_reducible apply State.commitSvn_keep) | (with_reducible apply State.sendHandshake_keep) | (with_reducible apply foldl_keep) | (with_reducible apply foldl_keep_fst) | split | (dsimp only [id])))

theorem State.finishFrame_keep {T U : Prop} {r : State} {x0} {x1} {x2} (h : Keep T U r x0) (g2 : ∀ y0 y1, Keep T U r y1 → Keep T U r (x2 y0 y1)) : Keep T U r (@State.finishFrame x0 x1 x2) := by
  unfold State.finishFrame
  (try dsimp only)
  repeat' (first | (with_reducible assumption) | (with_reducible exact fun _ => rfl) | (with_reducible exact fun x => False.elim x) | (with_reducible apply g2) | (with_reducible apply State.bump_keep) | (with_reducible apply State.request_keep) | (with_reducible apply State.respond_keep) | (with_reducible apply State.sendHandshake_keep) | (with_reducible apply State.dropHandshake_keep) | (with_reducible apply foldl_keep) | (with_reducible apply foldl_keep_fst) | split | (intro _) | (dsimp only [id]) | (with_reducible apply Keep.upd; first | (with_reducible assumption) | (with_reducible exact fun _ => rfl) | (with_reducible exact fun x => False.elim x) | (with_reducible apply g2) | (with_reducible apply State.bump_keep) | (with_reducible apply State.request_keep) | (with_reducible apply State.respond_keep) | (with_reducible apply State.sendHandshake_keep) | (with_reducible apply State.dropHandshake_keep) | (with_reducible apply foldl_keep) | (with_reducible apply foldl_keep_fst) | split | (dsimp only [id])))

theorem execSessionFinish_keep {T U : Prop} {r : State} {x0} {x1} {x2} (h : Keep T U r x2) : Keep T U r (@execSessionFinish x0 x1 x2) := by
  unfold execSessionFinish
  (try dsimp only)
  repeat' (first | (with_reducible assumption) | (with_reducible exact fun _ => rfl) | (with_reducible exact fun x => False.elim x) | (with_reducible apply State.finishFrame_keep) | (with_reducible apply State.finish_keep) | (with_reducible apply foldl_keep) | (with_reducible apply foldl_keep_fst) | split | (intro _) | (dsimp only [id]) | (with_reducible apply Keep.upd; first | (with_reducible assumption) | (with_reducible exact fun _ => rfl) | (with_reducible exact fun x => False.elim x) | (with_reducible apply State.finishFrame_keep) | (with_reducible apply State.finish_keep) | (with_reducible apply foldl_keep) | (with_reducible apply foldl_keep_fst) | split | (dsimp only [id])))

theorem doSessionClose_keep {T U : Prop} {r : State} {x0} {x1} (h : Keep T U r x1) : Keep T U r (@doSessionClose x0 x1) := by
  unfold doSessionClose
  (try dsimp only)
  repeat' (first | (with_reducible assumption) | (with_reducible exact fun _ => rfl) | (with_reducible exact fun x => False.elim x) | (with_reducible apply State.endSession_keep) | (with_reducible apply State.respond_keep) | (with_reducible apply foldl_keep) | (with_reducible apply foldl_keep_fst) | split | (intro _) | (dsimp only [id]) | (with_reducible apply Keep.upd; first | (with_reducible assumption) | (with_reducible exact fun _ => rfl) | (with_reducible exact fun x => False.elim x) | (with_reducible apply State.endSession_keep) | (with_reducible apply State.respond_keep) | (with_reducible apply foldl_keep) | (with_reducible apply foldl_keep_fst) | split | (dsimp only [id])))

theorem execSessionClose_keep {T U : Prop} {r : State} {x0} {x1} (h : Keep T U r x1) : Keep T U r (@execSessionClose x0 x1) := by
  unfold execSessionClose
  (try dsimp only)
  repeat' (first | (with_reducible assumption) | (with_reducible exact fun _ => rfl) | (with_reducible exact fun x => False.elim x) | (with_reducible apply State.request_keep) | (with_reducible apply doSessionClose_keep) | (with_reducible apply foldl_keep) | (with_reducible apply foldl_keep_fst) | split | (intro _) | (dsimp only [id]) | (with_reducible apply Keep.upd; first | (with_reducible assumption) | (with_reducible exact fun _ => rfl) | (with_reducible exact fun x => False.elim x) | (with_reducible apply State.request_keep) | (with_reducible apply doSessionClose_keep) | (with_reducible apply foldl_keep) | (with_reducible apply foldl_keep_fst) | split | (dsimp only [id])))

theorem doSessionStatus_keep {T U : Prop} {r : State} {x0} {x1} (h : Keep T U r x1) : Keep T U r (@doSessionStatus x0 x1) := by
  unfold doSessionStatus
  (try dsimp only)
  repeat' (first | (with_reducible assumption) | (with_reducible exact fun _ => rfl) | (with_reducible exact fun x => False.elim x) | (with_reducible apply State.respond_keep) | (with_reducible apply foldl_keep) | (with_reducible apply foldl_keep_fst) | split | (intro _) | (dsimp only [id]) | (with_reducible apply Keep.upd; first | (with_reducible assumption) | (with_reducible exact fun _ => rfl) | (with_reducible exact fun x => False.elim x) | (with_reducible apply State.respond_keep) | (with_reducible apply foldl_keep) | (with_reducible apply foldl_keep_fst) | split | (dsimp only [id])))

theorem execSessionStatus_keep {T U : Prop} {r : State} {x0} {x1} (h : Keep T U r x1) : Keep T U r (@execSessionStatus x0 x1) := by
  unfold execSessionStatus
  (try dsimp only)
  repeat' (first | (with_reducible assumption) | (with_reducible exact fun _ => rfl) | (with_reducible exact fun x => False.elim x) | (with_reducible apply State.request_keep) | (with_reducible apply doSessionStatus_keep) | (with_reducible apply foldl_keep) | (with_reducible apply foldl_keep_fst) | split | (intro _) | (dsimp only [id]) | (with_reducible apply Keep.upd; first | (with_reducible assumption) | (with_reducible exact fun _ => rfl) | (with_reducible exact fun x => False.elim x) | (with_reducible apply State.request_keep) | (with_reducible apply doSessionStatus_keep) | (with_reducible apply foldl_keep) | (with_reducible apply foldl_keep_fst) | split | (dsimp only [id])))

theorem execHandshakeTimeout_keep {T U : Prop} {r : State} {x0} {x1} (h : Keep T U r x1) : Keep T U r (@execHandshakeTimeout x0 x1) := by
  unfold execHandshakeTimeout
  (try dsimp only)
  repeat' (first | (with_reducible assumption) | (with_reducible exact fun _ => rfl) | (with_reducible exact fun x => False.elim x) | (with_reducible apply foldl_keep) | (with_reducible apply foldl_keep_fst) | split | (intro _) | (dsimp only [id]) | (with_reducible apply Keep.upd; first | (with_reducible assumption) | (with_reducible exact fun _ => rfl) | (with_reducible exact fun x => False.elim x) | (with_reducible apply foldl_keep) | (with_reducible apply foldl_keep_fst) | split | (dsimp only [id])))

theorem execSessionIdleTimeout_keep {T U : Prop} {r : State} {x0} {x1} (h : Keep T U r x1) : Keep T U r (@execSessionIdleTimeout x0 x1) := by
  unfold execSessionIdleTimeout
  (try dsimp only)
  repeat' (first | (with_reducible assumption) | (with_reducible exact fun _ => rfl) | (with_reducible exact fun x => False.elim x) | (with_reducible apply State.endSession_keep) | (with_reducible apply foldl_keep) | (with_reducible apply foldl_keep_fst) | split | (intro _) | (dsimp only [id]) | (with_reducible apply Keep.upd; first | (with_reducible assumption) | (with_reducible exact fun _ => rfl) | (with_reducible exact fun x => False.elim x) | (with_reducible apply State.endSession_keep) | (with_reducible apply foldl_keep) | (with_reducible apply foldl_keep_fst) | split | (dsimp only [id])))

theorem State.wipePass_keep {T U : Prop} {r : State} {x0} {x1} {x2} (h : Keep T U r x0) : Keep T U r (@State.wipePass x0 x1 x2) := by
  unfold State.wipePass
  (try dsimp only)
  repeat' (first | (with_reducible assumption) | (with_reducible exact fun _ => rfl) | (with_reducible exact fun x => False.elim x) | (with_reducible apply eachOf_keep) | (with_reducible apply State.modHm_keep) | (with_reducible apply foldl_keep) | (with_reducible apply foldl_keep_fst) | split | (intro _) | (dsimp only [id]) | (with_reducible apply Keep.upd; first | (with_reducible assumption) | (with_reducible exact fun _ => rfl) | (with_reducible exact fun x => False.elim x) | (with_reducible apply eachOf_keep) | (with_reducible apply State.modHm_keep) | (with_reducible apply foldl_keep) | (with_reducible apply foldl_keep_fst) | split | (dsimp only [id])))

theorem State.endWipePass_keep {T U : Prop} {r : State} {x0} {x1} (h : Keep T U r x0) : Keep T U r (@State.endWipePass x0 x1) := by
  unfold State.endWipePass
  (try dsimp only)
  repeat' (first | (with_reducible assumption) | (with_reducible exact fun _ => rfl) | (with_reducible exact fun x => False.elim x) | (with_reducible apply eachOf_keep) | (with_reducible apply State.modHm_keep) | (with_reducible apply foldl_keep) | (with_reducible apply foldl_keep_fst) | split | (intro _) | (dsimp only [id]) | (with_reducible apply Keep.upd; first | (with_reducible assumption) | (with_reducible exact fun _ => rfl) | (with_reducible exact fun x => False.elim x) | (with_reducible apply eachOf_keep) | (with_reducible apply State.modHm_keep) | (with_reducible apply foldl_keep) | (with_reducible apply foldl_keep_fst) | split | (dsimp only [id])))

theorem State.askWipe_keep {T U : Prop} {r : State} {x0} {x1} {x2} {x3} {x4} (h : Keep T U r x0) (g4 : ∀ y0, Keep T U r y0 → Keep T U r (x4 y0)) : Keep T U r (@State.askWipe x0 x1 x2 x3 x4) := by
  unfold State.askWipe
  (try dsimp only)
  repeat' (first | (with_reducible assumption) | (with_reducible exact fun _ => rfl) | (with_reducible exact fun x => False.elim x) | (with_reducible apply g4) | (with_reducible apply State.respond_keep) | (with_reducible apply State.noteBusy_keep) | (with_reducible apply foldl_keep) | (with_reducible apply foldl_keep_fst) | split | (intro _) | (dsimp only [id]) | (with_reducible apply Keep.upd; first | (with_reducible assumption) | (with_reducible exact fun _ => rfl) | (with_reducible exact fun x => False.elim x) | (with_reducible apply g4) | (with_reducible apply State.respond_keep) | (with_reducible apply State.noteBusy_keep) | (with_reducible apply foldl_keep) | (with_reducible apply foldl_keep_fst) | split | (dsimp only [id])))

theorem execPartitionLayout_keep {T U : Prop} {r : State} {x0} {x1} {x2} (h : Keep T U r x2) : Keep T U r (@execPartitionLayout x0 x1 x2) := by
  unfold execPartitionLayout
  (try dsimp only)
  repeat' (first | (with_reducible assumption) | (with_reducible exact fun _ => rfl) | (with_reducible exact fun x => False.elim x) | (with_reducible apply State.request_keep) | (with_reducible apply State.badField_keep) | (with_reducible apply State.respond_keep) | (with_reducible apply State.askWipe_keep) | (with_reducible apply foldl_keep) | (with_reducible apply foldl_keep_fst) | split | (intro _) | (dsimp only [id]) | (with_reducible apply Keep.upd; first | (with_reducible assumption) | (with_reducible exact fun _ => rfl) | (with_reducible exact fun x => False.elim x) | (with_reducible apply State.request_keep) | (with_reducible apply State.badField_keep) | (with_reducible apply State.respond_keep) | (with_reducible apply State.askWipe_keep) | (with_reducible apply foldl_keep) | (with_reducible apply foldl_keep_fst) | split | (dsimp only [id])))

theorem execPartitionGrant_keep {T U : Prop} {r : State} {x0} {x1} {x2} {x3} {x4} (h : Keep T U r x4) : Keep T U r (@execPartitionGrant x0 x1 x2 x3 x4) := by
  unfold execPartitionGrant
  (try dsimp only)
  repeat' (first | (with_reducible assumption) | (with_reducible exact fun _ => rfl) | (with_reducible exact fun x => False.elim x) | (with_reducible apply State.request_keep) | (with_reducible apply State.badField_keep) | (with_reducible apply State.respond_keep) | (with_reducible apply foldl_keep) | (with_reducible apply foldl_keep_fst) | split | (intro _) | (dsimp only [id]) | (with_reducible apply Keep.upd; first | (with_reducible assumption) | (with_reducible exact fun _ => rfl) | (with_reducible exact fun x => False.elim x) | (with_reducible apply State.request_keep) | (with_reducible apply State.badField_keep) | (with_reducible apply State.respond_keep) | (with_reducible apply foldl_keep) | (with_reducible apply foldl_keep_fst) | split | (dsimp only [id])))

theorem execPartitionRevoke_keep {T U : Prop} {r : State} {x0} {x1} {x2} (h : Keep T U r x2) : Keep T U r (@execPartitionRevoke x0 x1 x2) := by
  unfold execPartitionRevoke
  (try dsimp only)
  repeat' (first | (with_reducible assumption) | (with_reducible exact fun _ => rfl) | (with_reducible exact fun x => False.elim x) | (with_reducible apply State.request_keep) | (with_reducible apply State.badField_keep) | (with_reducible apply State.respond_keep) | (with_reducible apply State.endTenants_keep) | (with_reducible apply foldl_keep) | (with_reducible apply foldl_keep_fst) | split | (intro _) | (dsimp only [id]) | (with_reducible apply Keep.upd; first | (with_reducible assumption) | (with_reducible exact fun _ => rfl) | (with_reducible exact fun x => False.elim x) | (with_reducible apply State.request_keep) | (with_reducible apply State.badField_keep) | (with_reducible apply State.respond_keep) | (with_reducible apply State.endTenants_keep) | (with_reducible apply foldl_keep) | (with_reducible apply foldl_keep_fst) | split | (dsimp only [id])))

theorem State.atRestOnly_keep {T U : Prop} {r : State} {x0} {x1} {x2} (h : Keep T U r x0) (g2 : ∀ y0, Keep T U r y0 → Keep T U r (x2 y0)) : Keep T U r (@State.atRestOnly x0 x1 x2) := by
  unfold State.atRestOnly
  (try dsimp only)
  repeat' (first | (with_reducible assumption) | (with_reducible exact fun _ => rfl) | (with_reducible exact fun x => False.elim x) | (with_reducible apply g2) | (with_reducible apply State.need_keep) | (with_reducible apply foldl_keep) | (with_reducible apply foldl_keep_fst) | split | (intro _) | (dsimp only [id]) | (with_reducible apply Keep.upd; first | (with_reducible assumption) | (with_reducible exact fun _ => rfl) | (with_reducible exact fun x => False.elim x) | (with_reducible apply g2) | (with_reducible apply State.need_keep) | (with_reducible apply foldl_keep) | (with_reducible apply foldl_keep_fst) | split | (dsimp only [id])))

theorem State.planned_keep {T U : Prop} {r : State} {x0} {x1} {x2} (h : Keep T U r x0) (g2 : ∀ y0 y1, Keep T U r y1 → Keep T U r (x2 y0 y1)) : Keep T U r (@State.planned x0 x1 x2) := by
  unfold State.planned
  (try dsimp only)
  repeat' (first | (with_reducible assumption) | (with_reducible exact fun _ => rfl) | (with_reducible exact fun x => False.elim x) | (with_reducible apply g2) | (with_reducible apply State.respond_keep) | (with_reducible apply foldl_keep) | (with_reducible apply foldl_keep_fst) | split | (intro _) | (dsimp only [id]) | (with_reducible apply Keep.upd; first | (with_reducible assumption) | (with_reducible exact fun _ => rfl) | (with_reducible exact fun x => False.elim x) | (with_reducible apply g2) | (with_reducible apply State.respond_keep) | (with_reducible apply foldl_keep) | (with_reducible apply foldl_keep_fst) | split | (dsimp only [id])))

theorem State.planOnly_keep {T U : Prop} {r : State} {x0} {x1} {x2} (h : Keep T U r x0) (g2 : ∀ y0, Keep T U r y0 → Keep T U r (x2 y0)) : Keep T U r (@State.planOnly x0 x1 x2) := by
  unfold State.planOnly
  (try dsimp only)
  repeat' (first | (with_reducible assumption) | (with_reducible exact fun _ => rfl) | (with_reducible exact fun x => False.elim x) | (with_reducible apply g2) | (with_reducible apply State.need_keep) | (with_reducible apply foldl_keep) | (with_reducible apply foldl_keep_fst) | split | (intro _) | (dsimp only [id]) | (with_reducible apply Keep.upd; first | (with_reducible assumption) | (with_reducible exact fun _ => rfl) | (with_reducible exact fun x => False.elim x) | (with_reducible apply g2) | (with_reducible apply State.need_keep) | (with_reducible apply foldl_keep) | (with_reducible apply foldl_keep_fst) | split | (dsimp only [id])))

theorem doPlanBegin_keep {T U : Prop} {r : State} {x0} {x1} {x2} {x3} {x4} (h : Keep T U r x4) : Keep T U r (@doPlanBegin x0 x1 x2 x3 x4) := by
  unfold doPlanBegin
  (try dsimp only)
  repeat' (first | (with_reducible assumption) | (with_reducible exact fun _ => rfl) | (with_reducible exact fun x => False.elim x) | (with_reducible apply State.expertOnly_keep) | (with_reducible apply State.planOnly_keep) | (with_reducible apply State.badField_keep) | (with_reducible apply State.respond_keep) | (with_reducible apply State.modSeat_keep) | (with_reducible apply foldl_keep) | (with_reducible apply foldl_keep_fst) | split | (intro _) | (dsimp only [id]) | (with_reducible apply Keep.upd; first | (with_reducible assumption) | (with_reducible exact fun _ => rfl) | (with_reducible exact fun x => False.elim x) | (with_reducible apply State.expertOnly_keep) | (with_reducible apply State.planOnly_keep) | (with_reducible apply State.badField_keep) | (with_reducible apply State.respond_keep) | (with_reducible apply State.modSeat_keep) | (with_reducible apply foldl_keep) | (with_reducible apply foldl_keep_fst) | split | (dsimp only [id])))

theorem execPlanBegin_keep {T U : Prop} {r : State} {x0} {x1} {x2} {x3} {x4} (h : Keep T U r x4) : Keep T U r (@execPlanBegin x0 x1 x2 x3 x4) := by
  unfold execPlanBegin
  (try dsimp only)
  repeat' (first | (with_reducible assumption) | (with_reducible exact fun _ => rfl) | (with_reducible exact fun x => False.elim x) | (with_reducible apply State.request_keep) | (with_reducible apply doPlanBegin_keep) | (with_reducible apply foldl_keep) | (with_reducible apply foldl_keep_fst) | split | (intro _) | (dsimp only [id]) | (with_reducible apply Keep.upd; first | (with_reducible assumption) | (with_reducible exact fun _ => rfl) | (with_reducible exact fun x => False.elim x) | (with_reducible apply State.request_keep) | (with_reducible apply doPlanBegin_keep) | (with_reducible apply foldl_keep) | (with_reducible apply foldl_keep_fst) | split | (dsimp only [id])))

theorem doPlanData_keep {T U : Prop} {r : State} {x0} {x1} {x2} {x3} (h : Keep T U r x3) : Keep T U r (@doPlanData x0 x1 x2 x3) := by
  unfold doPlanData
  (try dsimp only)
  repeat' (first | (with_reducible assumption) | (with_reducible exact fun _ => rfl) | (with_reducible exact fun x => False.elim x) | (with_reducible apply State.planOnly_keep) | (with_reducible apply State.respond_keep) | (with_reducible apply State.badField_keep) | (with_reducible apply State.modSeat_keep) | (with_reducible apply State.libWrite_keep) | (with_reducible apply foldl_keep) | (with_reducible apply foldl_keep_fst) | split | (intro _) | (dsimp only [id]) | (with_reducible apply Keep.upd; first | (with_reducible assumption) | (with_reducible exact fun _ => rfl) | (with_reducible exact fun x => False.elim x) | (with_reducible apply State.planOnly_keep) | (with_reducible apply State.respond_keep) | (with_reducible apply State.badField_keep) | (with_reducible apply State.modSeat_keep) | (with_reducible apply State.libWrite_keep) | (with_reducible apply foldl_keep) | (with_reducible apply foldl_keep_fst) | split | (dsimp only [id])))

theorem execPlanData_keep {T U : Prop} {r : State} {x0} {x1} {x2} {x3} (h : Keep T U r x3) : Keep T U r (@execPlanData x0 x1 x2 x3) := by
  unfold execPlanData
  (try dsimp only)
  repeat' (first | (with_reducible assumption) | (with_reducible exact fun _ => rfl) | (with_reducible exact fun x => False.elim x) | (with_reducible apply State.request_keep) | (with_reducible apply doPlanData_keep) | (with_reducible apply foldl_keep) | (with_reducible apply foldl_keep_fst) | split | (intro _) | (dsimp only [id]) | (with_reducible apply Keep.upd; first | (with_reducible assumption) | (with_reducible exact fun _ => rfl) | (with_reducible exact fun x => False.elim x) | (with_reducible apply State.request_keep) | (with_reducible apply doPlanData_keep) | (with_reducible apply foldl_keep) | (with_reducible apply foldl_keep_fst) | split | (dsimp only [id])))

theorem State.placeLesson_keep {T U : Prop} {r : State} {x0} {x1} (h : Keep T U r x0) : Keep T U r (@State.placeLesson x0 x1) := by
  unfold State.placeLesson
  (try dsimp only)
  repeat' (first | (with_reducible assumption) | (with_reducible exact fun _ => rfl) | (with_reducible exact fun x => False.elim x) | (with_reducible apply State.storeBytes_keep) | (with_reducible apply State.modCore_keep) | (with_reducible apply foldl_keep) | (with_reducible apply foldl_keep_fst) | split | (intro _) | (dsimp only [id]) | (with_reducible apply Keep.upd; first | (with_reducible assumption) | (with_reducible exact fun _ => rfl) | (with_reducible exact fun x => False.elim x) | (with_reducible apply State.storeBytes_keep) | (with_reducible apply State.modCore_keep) | (with_reducible apply foldl_keep) | (with_reducible apply foldl_keep_fst) | split | (dsimp only [id])))

theorem State.placeCubby_keep {T U : Prop} {r : State} {x0} {x1} {x2} (h : Keep T U r x0) : Keep T U r (@State.placeCubby x0 x1 x2) := by
  unfold State.placeCubby
  (try dsimp only)
  repeat' (first | (with_reducible assumption) | (with_reducible exact fun _ => rfl) | (with_reducible exact fun x => False.elim x) | (with_reducible apply State.modLb_keep) | (with_reducible apply State.libWrite_keep) | (with_reducible apply foldl_keep) | (with_reducible apply foldl_keep_fst) | split | (intro _) | (dsimp only [id]) | (with_reducible apply Keep.upd; first | (with_reducible assumption) | (with_reducible exact fun _ => rfl) | (with_reducible exact fun x => False.elim x) | (with_reducible apply State.modLb_keep) | (with_reducible apply State.libWrite_keep) | (with_reducible apply foldl_keep) | (with_reducible apply foldl_keep_fst) | split | (dsimp only [id])))

theorem State.refuseWaiting_keep {T U : Prop} {r : State} {x0} {x1} (h : Keep T U r x0) : Keep T U r (@State.refuseWaiting x0 x1) := by
  unfold State.refuseWaiting
  (try dsimp only)
  repeat' (first | (with_reducible assumption) | (with_reducible exact fun _ => rfl) | (with_reducible exact fun x => False.elim x) | (with_reducible apply State.respond_keep) | (with_reducible apply foldl_keep) | (with_reducible apply foldl_keep_fst) | split | (intro _) | (dsimp only [id]) | (with_reducible apply Keep.upd; first | (with_reducible assumption) | (with_reducible exact fun _ => rfl) | (with_reducible exact fun x => False.elim x) | (with_reducible apply State.respond_keep) | (with_reducible apply foldl_keep) | (with_reducible apply foldl_keep_fst) | split | (dsimp only [id])))

theorem State.placeNorm_keep {T U : Prop} {r : State} {x0} {x1} {x2} (h : Keep T U r x0) : Keep T U r (@State.placeNorm x0 x1 x2) := by
  unfold State.placeNorm
  (try dsimp only)
  repeat' (first | (with_reducible assumption) | (with_reducible exact fun _ => rfl) | (with_reducible exact fun x => False.elim x) | (with_reducible apply eachOf_keep) | (with_reducible apply State.storeBytes_keep) | (with_reducible apply foldl_keep) | (with_reducible apply foldl_keep_fst) | split | (intro _) | (dsimp only [id]) | (with_reducible apply Keep.upd; first | (with_reducible assumption) | (with_reducible exact fun _ => rfl) | (with_reducible exact fun x => False.elim x) | (with_reducible apply eachOf_keep) | (with_reducible apply State.storeBytes_keep) | (with_reducible apply foldl_keep) | (with_reducible apply foldl_keep_fst) | split | (dsimp only [id])))

theorem Seat.withPlan_bell (k : Seat) (p : Plan) : (k.withPlan p).clockOf = k.clockOf := rfl

theorem State.loadPlan_keep {T : Prop} {r : State} {x0} {x1} {x2} (h : Keep T False r x0) : Keep T False r (@State.loadPlan x0 x1 x2) := by
  unfold State.loadPlan
  (try dsimp only)
  repeat' (first | (with_reducible assumption) | (with_reducible exact fun _ => Seat.withPlan_bell _ _) | (with_reducible exact fun _ => rfl) | (with_reducible exact fun x => False.elim x) | (with_reducible apply State.stopCores_keep) | (with_reducible apply State.refuseWaiting_keep) | (with_reducible apply eachOf_keep) | (with_reducible apply State.zeroSram_keep) | (with_reducible apply State.modSeat_keep) | (with_reducible apply State.placeLesson_keep) | (with_reducible apply State.placeNorm_keep) | (with_reducible apply State.modLb_keep) | (with_reducible apply State.placeCubby_keep) | (with_reducible apply State.modLink_keep) | (with_reducible apply State.modHm_keep) | (with_reducible apply State.tell_keep) | (with_reducible apply foldl_keep) | (with_reducible apply foldl_keep_fst) | split | (intro _) | (dsimp only [id]) | (with_reducible apply Keep.upd; first | (with_reducible assumption) | (with_reducible exact fun _ => Seat.withPlan_bell _ _) | (with_reducible exact fun _ => rfl) | (with_reducible exact fun x => False.elim x) | (with_reducible apply State.stopCores_keep) | (with_reducible apply State.refuseWaiting_keep) | (with_reducible apply eachOf_keep) | (with_reducible apply State.zeroSram_keep) | (with_reducible apply State.modSeat_keep) | (with_reducible apply State.placeLesson_keep) | (with_reducible apply State.placeNorm_keep) | (with_reducible apply State.modLb_keep) | (with_reducible apply State.placeCubby_keep) | (with_reducible apply State.modLink_keep) | (with_reducible apply State.modHm_keep) | (with_reducible apply State.tell_keep) | (with_reducible apply foldl_keep) | (with_reducible apply foldl_keep_fst) | split | (dsimp only [id])))

theorem doPlanCommit_keep {T : Prop} {r : State} {x0} {x1} (h : Keep T False r x1) : Keep T False r (@doPlanCommit x0 x1) := by
  unfold doPlanCommit
  (try dsimp only)
  repeat' (first | (with_reducible assumption) | (with_reducible exact fun _ => rfl) | (with_reducible exact fun x => False.elim x) | (with_reducible apply State.planOnly_keep) | (with_reducible apply State.respond_keep) | (with_reducible apply State.modSeat_keep) | (with_reducible apply State.loadPlan_keep) | (with_reducible apply foldl_keep) | (with_reducible apply foldl_keep_fst) | split | (intro _) | (dsimp only [id]) | (with_reducible apply Keep.upd; first | (with_reducible assumption) | (with_reducible exact fun _ => rfl) | (with_reducible exact fun x => False.elim x) | (with_reducible apply State.planOnly_keep) | (with_reducible apply State.respond_keep) | (with_reducible apply State.modSeat_keep) | (with_reducible apply State.loadPlan_keep) | (with_reducible apply foldl_keep) | (with_reducible apply foldl_keep_fst) | split | (dsimp only [id])))

theorem execPlanCommit_keep {T : Prop} {r : State} {x0} {x1} (h : Keep T False r x1) : Keep T False r (@execPlanCommit x0 x1) := by
  unfold execPlanCommit
  (try dsimp only)
  repeat' (first | (with_reducible assumption) | (with_reducible exact fun _ => rfl) | (with_reducible exact fun x => False.elim x) | (with_reducible apply State.request_keep) | (with_reducible apply doPlanCommit_keep) | (with_reducible apply foldl_keep) | (with_reducible apply foldl_keep_fst) | split | (intro _) | (dsimp only [id]) | (with_reducible apply Keep.upd; first | (with_reducible assumption) | (with_reducible exact fun _ => rfl) | (with_reducible exact fun x => False.elim x) | (with_reducible apply State.request_keep) | (with_reducible apply doPlanCommit_keep) | (with_reducible apply foldl_keep) | (with_reducible apply foldl_keep_fst) | split | (dsimp only [id])))

theorem execUnload_keep {T : Prop} {r : State} {x0} {x1} (h : Keep T False r x1) : Keep T False r (@execUnload x0 x1) := by
  unfold execUnload
  (try dsimp only)
  repeat' (first | (with_reducible assumption) | (with_reducible exact fun _ => rfl) | (with_reducible exact fun x => False.elim x) | (with_reducible apply State.request_keep) | (with_reducible apply State.atRestOnly_keep) | (with_reducible apply State.stopCores_keep) | (with_reducible apply State.refuseWaiting_keep) | (with_reducible apply State.modSeat_keep) | (with_reducible apply eachOf_keep) | (with_reducible apply State.placeCubby_keep) | (with_reducible apply State.modLink_keep) | (with_reducible apply State.respond_keep) | (with_reducible apply foldl_keep) | (with_reducible apply foldl_keep_fst) | split | (intro _) | (dsimp only [id]) | (with_reducible apply Keep.upd; first | (with_reducible assumption) | (with_reducible exact fun _ => rfl) | (with_reducible exact fun x => False.elim x) | (with_reducible apply State.request_keep) | (with_reducible apply State.atRestOnly_keep) | (with_reducible apply State.stopCores_keep) | (with_reducible apply State.refuseWaiting_keep) | (with_reducible apply State.modSeat_keep) | (with_reducible apply eachOf_keep) | (with_reducible apply State.placeCubby_keep) | (with_reducible apply State.modLink_keep) | (with_reducible apply State.respond_keep) | (with_reducible apply foldl_keep) | (with_reducible apply foldl_keep_fst) | split | (dsimp only [id])))

theorem State.beginSlot_keep {T U : Prop} {r : State} {x0} {x1} {x2} (h : Keep T U r x0) : Keep T U r (@State.beginSlot x0 x1 x2) := by
  unfold State.beginSlot
  (try dsimp only)
  repeat' (first | (with_reducible assumption) | (with_reducible exact fun _ => rfl) | (with_reducible exact fun x => False.elim x) | (with_reducible apply State.modCm_keep) | (with_reducible apply State.copyHistory_keep) | (with_reducible apply State.writeHeader_keep) | (with_reducible apply foldl_keep) | (with_reducible apply foldl_keep_fst) | split | (intro _) | (dsimp only [id]) | (with_reducible apply Keep.upd; first | (with_reducible assumption) | (with_reducible exact fun _ => rfl) | (with_reducible exact fun x => False.elim x) | (with_reducible apply State.modCm_keep) | (with_reducible apply State.copyHistory_keep) | (with_reducible apply State.writeHeader_keep) | (with_reducible apply foldl_keep) | (with_reducible apply foldl_keep_fst) | split | (dsimp only [id])))

theorem State.finishSlot_keep {T U : Prop} {r : State} {x0} {x1} {x2} {x3} (h : Keep T U r x0) : Keep T U r (@State.finishSlot x0 x1 x2 x3) := by
  unfold State.finishSlot
  (try dsimp only)
  repeat' (first | (with_reducible assumption) | (with_reducible exact fun _ => rfl) | (with_reducible exact fun x => False.elim x) | (with_reducible apply State.checkSlot_keep) | (with_reducible apply State.respond_keep) | (with_reducible apply State.writeHeader_keep) | (with_reducible apply State.modCm_keep) | (with_reducible apply State.burn_keep) | (with_reducible apply foldl_keep) | (with_reducible apply foldl_keep_fst) | (refine Keep.of_pair (by assumption) ?_) | split | (intro _) | (dsimp only [id]) | (with_reducible apply Keep.upd; first | (with_reducible assumption) | (with_reducible exact fun _ => rfl) | (with_reducible exact fun x => False.elim x) | (with_reducible apply State.checkSlot_keep) | (with_reducible apply State.respond_keep) | (with_reducible apply State.writeHeader_keep) | (with_reducible apply State.modCm_keep) | (with_reducible apply State.burn_keep) | (with_reducible apply foldl_keep) | (with_reducible apply foldl_keep_fst) | (refine Keep.of_pair (by assumption) ?_) | split | (dsimp only [id])))

theorem doDeliverBegin_keep {T U : Prop} {r : State} {x0} {x1} {x2} (h : Keep T U r x2) : Keep T U r (@doDeliverBegin x0 x1 x2) := by
  unfold doDeliverBegin
  (try dsimp only)
  repeat' (first | (with_reducible assumption) | (with_reducible exact fun _ => rfl) | (with_reducible exact fun x => False.elim x) | (with_reducible apply State.planned_keep) | (with_reducible apply State.respond_keep) | (with_reducible apply State.finishSlot_keep) | (with_reducible apply State.beginSlot_keep) | (with_reducible apply foldl_keep) | (with_reducible apply foldl_keep_fst) | split | (intro _) | (dsimp only [id]) | (with_reducible apply Keep.upd; first | (with_reducible assumption) | (with_reducible exact fun _ => rfl) | (with_reducible exact fun x => False.elim x) | (with_reducible apply State.planned_keep) | (with_reducible apply State.respond_keep) | (with_reducible apply State.finishSlot_keep) | (with_reducible apply State.beginSlot_keep) | (with_reducible apply foldl_keep) | (with_reducible apply foldl_keep_fst) | split | (dsimp only [id])))

theorem execDeliverBegin_keep {T U : Prop} {r : State} {x0} {x1} {x2} (h : Keep T U r x2) : Keep T U r (@execDeliverBegin x0 x1 x2) := by
  unfold execDeliverBegin
  (try dsimp only)
  repeat' (first | (with_reducible assumption) | (with_reducible exact fun _ => rfl) | (with_reducible exact fun x => False.elim x) | (with_reducible apply State.request_keep) | (with_reducible apply doDeliverBegin_keep) | (with_reducible apply foldl_keep) | (with_reducible apply foldl_keep_fst) | split | (intro _) | (dsimp only [id]) | (with_reducible apply Keep.upd; first | (with_reducible assumption) | (with_reducible exact fun _ => rfl) | (with_reducible exact fun x => False.elim x) | (with_reducible apply State.request_keep) | (with_reducible apply doDeliverBegin_keep) | (with_reducible apply foldl_keep) | (with_reducible apply foldl_keep_fst) | split | (dsimp only [id])))

theorem doDeliverData_keep {T U : Prop} {r : State} {x0} {x1} {x2} {x3} {x4} (h : Keep T U r x4) : Keep T U r (@doDeliverData x0 x1 x2 x3 x4) := by
  unfold doDeliverData
  (try dsimp only)
  repeat' (first | (with_reducible assumption) | (with_reducible exact fun _ => rfl) | (with_reducible exact fun x => False.elim x) | (with_reducible apply State.planned_keep) | (with_reducible apply State.respond_keep) | (with_reducible apply State.badField_keep) | (with_reducible apply State.libWrite_keep) | (with_reducible apply State.modCm_keep) | (with_reducible apply State.forward_keep) | (with_reducible apply State.finishSlot_keep) | (with_reducible apply foldl_keep) | (with_reducible apply foldl_keep_fst) | split | (intro _) | (dsimp only [id]) | (with_reducible apply Keep.upd; first | (with_reducible assumption) | (with_reducible exact fun _ => rfl) | (with_reducible exact fun x => False.elim x) | (with_reducible apply State.planned_keep) | (with_reducible apply State.respond_keep) | (with_reducible apply State.badField_keep) | (with_reducible apply State.libWrite_keep) | (with_reducible apply State.modCm_keep) | (with_reducible apply State.forward_keep) | (with_reducible apply State.finishSlot_keep) | (with_reducible apply foldl_keep) | (with_reducible apply foldl_keep_fst) | split | (dsimp only [id])))

theorem execDeliverData_keep {T U : Prop} {r : State} {x0} {x1} {x2} {x3} {x4} (h : Keep T U r x4) : Keep T U r (@execDeliverData x0 x1 x2 x3 x4) := by
  unfold execDeliverData
  (try dsimp only)
  repeat' (first | (with_reducible assumption) | (with_reducible exact fun _ => rfl) | (with_reducible exact fun x => False.elim x) | (with_reducible apply State.request_keep) | (with_reducible apply doDeliverData_keep) | (with_reducible apply foldl_keep) | (with_reducible apply foldl_keep_fst) | split | (intro _) | (dsimp only [id]) | (with_reducible apply Keep.upd; first | (with_reducible assumption) | (with_reducible exact fun _ => rfl) | (with_reducible exact fun x => False.elim x) | (with_reducible apply State.request_keep) | (with_reducible apply doDeliverData_keep) | (with_reducible apply foldl_keep) | (with_reducible apply foldl_keep_fst) | split | (dsimp only [id])))

theorem doShardData_keep {T U : Prop} {r : State} {x0} {x1} {x2} {x3} (h : Keep T U r x3) : Keep T U r (@doShardData x0 x1 x2 x3) := by
  unfold doShardData
  (try dsimp only)
  repeat' (first | (with_reducible assumption) | (with_reducible exact fun _ => rfl) | (with_reducible exact fun x => False.elim x) | (with_reducible apply State.planned_keep) | (with_reducible apply State.atRestOnly_keep) | (with_reducible apply State.badField_keep) | (with_reducible apply State.respond_keep) | (with_reducible apply State.modSeat_keep) | (with_reducible apply State.libWrite_keep) | (with_reducible apply foldl_keep) | (with_reducible apply foldl_keep_fst) | split | (intro _) | (dsimp only [id]) | (with_reducible apply Keep.upd; first | (with_reducible assumption) | (with_reducible exact fun _ => rfl) | (with_reducible exact fun x => False.elim x) | (with_reducible apply State.planned_keep) | (with_reducible apply State.atRestOnly_keep) | (with_reducible apply State.badField_keep) | (with_reducible apply State.respond_keep) | (with_reducible apply State.modSeat_keep) | (with_reducible apply State.libWrite_keep) | (with_reducible apply foldl_keep) | (with_reducible apply foldl_keep_fst) | split | (dsimp only [id])))
  all_goals rfl

theorem execShardData_keep {T U : Prop} {r : State} {x0} {x1} {x2} {x3} (h : Keep T U r x3) : Keep T U r (@execShardData x0 x1 x2 x3) := by
  unfold execShardData
  (try dsimp only)
  repeat' (first | (with_reducible assumption) | (with_reducible exact fun _ => rfl) | (with_reducible exact fun x => False.elim x) | (with_reducible apply State.request_keep) | (with_reducible apply doShardData_keep) | (with_reducible apply foldl_keep) | (with_reducible apply foldl_keep_fst) | split | (intro _) | (dsimp only [id]) | (with_reducible apply Keep.upd; first | (with_reducible assumption) | (with_reducible exact fun _ => rfl) | (with_reducible exact fun x => False.elim x) | (with_reducible apply State.request_keep) | (with_reducible apply doShardData_keep) | (with_reducible apply foldl_keep) | (with_reducible apply foldl_keep_fst) | split | (dsimp only [id])))

theorem doShardCommit_keep {T U : Prop} {r : State} {x0} {x1} {x2} (h : Keep T U r x2) : Keep T U r (@doShardCommit x0 x1 x2) := by
  unfold doShardCommit
  (try dsimp only)
  repeat' (first | (with_reducible assumption) | (with_reducible exact fun _ => rfl) | (with_reducible exact fun x => False.elim x) | (with_reducible apply State.planned_keep) | (with_reducible apply State.atRestOnly_keep) | (with_reducible apply State.respond_keep) | (with_reducible apply State.modSeat_keep) | (with_reducible apply foldl_keep) | (with_reducible apply foldl_keep_fst) | split | (intro _) | (dsimp only [id]) | (with_reducible apply Keep.upd; first | (with_reducible assumption) | (with_reducible exact fun _ => rfl) | (with_reducible exact fun x => False.elim x) | (with_reducible apply State.planned_keep) | (with_reducible apply State.atRestOnly_keep) | (with_reducible apply State.respond_keep) | (with_reducible apply State.modSeat_keep) | (with_reducible apply foldl_keep) | (with_reducible apply foldl_keep_fst) | split | (dsimp only [id])))
  all_goals rfl

theorem execShardCommit_keep {T U : Prop} {r : State} {x0} {x1} {x2} (h : Keep T U r x2) : Keep T U r (@execShardCommit x0 x1 x2) := by
  unfold execShardCommit
  (try dsimp only)
  repeat' (first | (with_reducible assumption) | (with_reducible exact fun _ => rfl) | (with_reducible exact fun x => False.elim x) | (with_reducible apply State.request_keep) | (with_reducible apply doShardCommit_keep) | (with_reducible apply foldl_keep) | (with_reducible apply foldl_keep_fst) | split | (intro _) | (dsimp only [id]) | (with_reducible apply Keep.upd; first | (with_reducible assumption) | (with_reducible exact fun _ => rfl) | (with_reducible exact fun x => False.elim x) | (with_reducible apply State.request_keep) | (with_reducible apply doShardCommit_keep) | (with_reducible apply foldl_keep) | (with_reducible apply foldl_keep_fst) | split | (dsimp only [id])))

theorem State.placeStart_keep {T : Prop} {r : State} {x0} {x1} {x2} (h : Keep T False r x0) : Keep T False r (@State.placeStart x0 x1 x2) := by
  unfold State.placeStart
  (try dsimp only)
  repeat' (first | (with_reducible assumption) | (with_reducible exact fun _ => rfl) | (with_reducible exact fun x => False.elim x) | (with_reducible apply State.modSeat_keep) | (with_reducible apply foldl_keep) | (with_reducible apply foldl_keep_fst) | split | (intro _) | (dsimp only [id]) | (with_reducible apply Keep.upd; first | (with_reducible assumption) | (with_reducible exact fun _ => rfl) | (with_reducible exact fun x => False.elim x) | (with_reducible apply State.modSeat_keep) | (with_reducible apply foldl_keep) | (with_reducible apply foldl_keep_fst) | split | (dsimp only [id])))

theorem State.startable_keep {T U : Prop} {r : State} {x0} {x1} {x2} (h : Keep T U r x0) (g2 : ∀ y0, Keep T U r y0 → Keep T U r (x2 y0)) : Keep T U r (@State.startable x0 x1 x2) := by
  unfold State.startable
  (try dsimp only)
  repeat' (first | (with_reducible assumption) | (with_reducible exact fun _ => rfl) | (with_reducible exact fun x => False.elim x) | (with_reducible apply g2) | (with_reducible apply State.respond_keep) | (with_reducible apply foldl_keep) | (with_reducible apply foldl_keep_fst) | split | (intro _) | (dsimp only [id]) | (with_reducible apply Keep.upd; first | (with_reducible assumption) | (with_reducible exact fun _ => rfl) | (with_reducible exact fun x => False.elim x) | (with_reducible apply g2) | (with_reducible apply State.respond_keep) | (with_reducible apply foldl_keep) | (with_reducible apply foldl_keep_fst) | split | (dsimp only [id])))

theorem State.historiesEmpty_keep {T U : Prop} {r : State} {x0} {x1} {x2} (h : Keep T U r x0) : Keep T U r (@State.historiesEmpty x0 x1 x2).1 := by
  unfold State.historiesEmpty
  (try dsimp only)
  repeat' (first | (with_reducible assumption) | (with_reducible exact fun _ => rfl) | (with_reducible exact fun x => False.elim x) | (with_reducible apply State.libRead_keep) | (with_reducible apply foldl_keep) | (with_reducible apply foldl_keep_fst) | (refine Keep.of_pair (by assumption) ?_) | split | (intro _) | (dsimp only [id]) | (with_reducible apply Keep.upd; first | (with_reducible assumption) | (with_reducible exact fun _ => rfl) | (with_reducible exact fun x => False.elim x) | (with_reducible apply State.libRead_keep) | (with_reducible apply foldl_keep) | (with_reducible apply foldl_keep_fst) | (refine Keep.of_pair (by assumption) ?_) | split | (dsimp only [id])))

theorem State.basicEntry_keep {T U : Prop} {r : State} {x0} {x1} {x2} (h : Keep T U r x0) : Keep T U r (@State.basicEntry x0 x1 x2).1 := by
  unfold State.basicEntry
  (try dsimp only)
  repeat' (first | (with_reducible assumption) | (with_reducible exact fun _ => rfl) | (with_reducible exact fun x => False.elim x) | (with_reducible apply State.historiesEmpty_keep) | (with_reducible apply foldl_keep) | (with_reducible apply foldl_keep_fst) | (refine Keep.of_pair (by assumption) ?_) | split | (intro _) | (dsimp only [id]) | (with_reducible apply Keep.upd; first | (with_reducible assumption) | (with_reducible exact fun _ => rfl) | (with_reducible exact fun x => False.elim x) | (with_reducible apply State.historiesEmpty_keep) | (with_reducible apply foldl_keep) | (with_reducible apply foldl_keep_fst) | (refine Keep.of_pair (by assumption) ?_) | split | (dsimp only [id])))

theorem doRunStart_keep {T : Prop} {r : State} {x0} {x1} {x2} {x3} {x4} {x5} (h : Keep T False r x5) : Keep T False r (@doRunStart x0 x1 x2 x3 x4 x5) := by
  unfold doRunStart
  (try dsimp only)
  repeat' (first | (with_reducible assumption) | (with_reducible exact fun _ => rfl) | (with_reducible exact fun x => False.elim x) | (with_reducible apply State.expertOnly_keep) | (with_reducible apply State.planned_keep) | (with_reducible apply State.startable_keep) | (with_reducible apply State.basicEntry_keep) | (with_reducible apply State.respond_keep) | (with_reducible apply State.placeStart_keep) | (with_reducible apply State.badField_keep) | (with_reducible apply foldl_keep) | (with_reducible apply foldl_keep_fst) | (refine Keep.of_pair (by assumption) ?_) | split | (intro _) | (dsimp only [id]) | (with_reducible apply Keep.upd; first | (with_reducible assumption) | (with_reducible exact fun _ => rfl) | (with_reducible exact fun x => False.elim x) | (with_reducible apply State.expertOnly_keep) | (with_reducible apply State.planned_keep) | (with_reducible apply State.startable_keep) | (with_reducible apply State.basicEntry_keep) | (with_reducible apply State.respond_keep) | (with_reducible apply State.placeStart_keep) | (with_reducible apply State.badField_keep) | (with_reducible apply foldl_keep) | (with_reducible apply foldl_keep_fst) | (refine Keep.of_pair (by assumption) ?_) | split | (dsimp only [id])))

theorem execRunStart_keep {T : Prop} {r : State} {x0} {x1} {x2} {x3} {x4} {x5} (h : Keep T False r x5) : Keep T False r (@execRunStart x0 x1 x2 x3 x4 x5) := by
  unfold execRunStart
  (try dsimp only)
  repeat' (first | (with_reducible assumption) | (with_reducible exact fun _ => rfl) | (with_reducible exact fun x => False.elim x) | (with_reducible apply State.request_keep) | (with_reducible apply doRunStart_keep) | (with_reducible apply foldl_keep) | (with_reducible apply foldl_keep_fst) | split | (intro _) | (dsimp only [id]) | (with_reducible apply Keep.upd; first | (with_reducible assumption) | (with_reducible exact fun _ => rfl) | (with_reducible exact fun x => False.elim x) | (with_reducible apply State.request_keep) | (with_reducible apply doRunStart_keep) | (with_reducible apply foldl_keep) | (with_reducible apply foldl_keep_fst) | split | (dsimp only [id])))

theorem doRunStop_keep {T : Prop} {r : State} {x0} {x1} {x2} (h : Keep T False r x2) : Keep T False r (@doRunStop x0 x1 x2) := by
  unfold doRunStop
  (try dsimp only)
  repeat' (first | (with_reducible assumption) | (with_reducible exact fun _ => rfl) | (with_reducible exact fun x => False.elim x) | (with_reducible apply State.expertOnly_keep) | (with_reducible apply State.planned_keep) | (with_reducible apply State.respond_keep) | (with_reducible apply State.modSeat_keep) | (with_reducible apply foldl_keep) | (with_reducible apply foldl_keep_fst) | split | (intro _) | (dsimp only [id]) | (with_reducible apply Keep.upd; first | (with_reducible assumption) | (with_reducible exact fun _ => rfl) | (with_reducible exact fun x => False.elim x) | (with_reducible apply State.expertOnly_keep) | (with_reducible apply State.planned_keep) | (with_reducible apply State.respond_keep) | (with_reducible apply State.modSeat_keep) | (with_reducible apply foldl_keep) | (with_reducible apply foldl_keep_fst) | split | (dsimp only [id])))

theorem execRunStop_keep {T : Prop} {r : State} {x0} {x1} {x2} (h : Keep T False r x2) : Keep T False r (@execRunStop x0 x1 x2) := by
  unfold execRunStop
  (try dsimp only)
  repeat' (first | (with_reducible assumption) | (with_reducible exact fun _ => rfl) | (with_reducible exact fun x => False.elim x) | (with_reducible apply State.request_keep) | (with_reducible apply doRunStop_keep) | (with_reducible apply foldl_keep) | (with_reducible apply foldl_keep_fst) | split | (intro _) | (dsimp only [id]) | (with_reducible apply Keep.upd; first | (with_reducible assumption) | (with_reducible exact fun _ => rfl) | (with_reducible exact fun x => False.elim x) | (with_reducible apply State.request_keep) | (with_reducible apply doRunStop_keep) | (with_reducible apply foldl_keep) | (with_reducible apply foldl_keep_fst) | split | (dsimp only [id])))

theorem State.openRead_keep {T U : Prop} {r : State} {x0} {x1} {x2} {x3} {x4} {x5} {x6} (h : Keep T U r x0) : Keep T U r (@State.openRead x0 x1 x2 x3 x4 x5 x6) := by
  unfold State.openRead
  (try dsimp only)
  repeat' (first | (with_reducible assumption) | (with_reducible exact fun _ => rfl) | (with_reducible exact fun x => False.elim x) | (with_reducible apply State.respond_keep) | (with_reducible apply State.setSeat_keep) | (with_reducible apply foldl_keep) | (with_reducible apply foldl_keep_fst) | split | (intro _) | (dsimp only [id]) | (with_reducible apply Keep.upd; first | (with_reducible assumption) | (with_reducible exact fun _ => rfl) | (with_reducible exact fun x => False.elim x) | (with_reducible apply State.respond_keep) | (with_reducible apply State.setSeat_keep) | (with_reducible apply foldl_keep) | (with_reducible apply foldl_keep_fst) | split | (dsimp only [id])))

theorem doReadOpen_keep {T U : Prop} {r : State} {x0} {x1} {x2} {x3} {x4} (h : Keep T U r x4) : Keep T U r (@doReadOpen x0 x1 x2 x3 x4) := by
  unfold doReadOpen
  (try dsimp only)
  repeat' (first | (with_reducible assumption) | (with_reducible exact fun _ => rfl) | (with_reducible exact fun x => False.elim x) | (with_reducible apply State.expertOnly_keep) | (with_reducible apply State.planned_keep) | (with_reducible apply State.respond_keep) | (with_reducible apply State.openRead_keep) | (with_reducible apply State.modSeat_keep) | (with_reducible apply foldl_keep) | (with_reducible apply foldl_keep_fst) | split | (intro _) | (dsimp only [id]) | (with_reducible apply Keep.upd; first | (with_reducible assumption) | (with_reducible exact fun _ => rfl) | (with_reducible exact fun x => False.elim x) | (with_reducible apply State.expertOnly_keep) | (with_reducible apply State.planned_keep) | (with_reducible apply State.respond_keep) | (with_reducible apply State.openRead_keep) | (with_reducible apply State.modSeat_keep) | (with_reducible apply foldl_keep) | (with_reducible apply foldl_keep_fst) | split | (dsimp only [id])))

theorem execReadOpen_keep {T U : Prop} {r : State} {x0} {x1} {x2} {x3} {x4} (h : Keep T U r x4) : Keep T U r (@execReadOpen x0 x1 x2 x3 x4) := by
  unfold execReadOpen
  (try dsimp only)
  repeat' (first | (with_reducible assumption) | (with_reducible exact fun _ => rfl) | (with_reducible exact fun x => False.elim x) | (with_reducible apply State.request_keep) | (with_reducible apply doReadOpen_keep) | (with_reducible apply foldl_keep) | (with_reducible apply foldl_keep_fst) | split | (intro _) | (dsimp only [id]) | (with_reducible apply Keep.upd; first | (with_reducible assumption) | (with_reducible exact fun _ => rfl) | (with_reducible exact fun x => False.elim x) | (with_reducible apply State.request_keep) | (with_reducible apply doReadOpen_keep) | (with_reducible apply foldl_keep) | (with_reducible apply foldl_keep_fst) | split | (dsimp only [id])))

theorem State.pieceBytes_keep {T U : Prop} {r : State} {x0} {x1} {x2} {x3} {x4} (h : Keep T U r x0) : Keep T U r (@State.pieceBytes x0 x1 x2 x3 x4).1 := by
  unfold State.pieceBytes
  (try dsimp only)
  repeat' (first | (with_reducible assumption) | (with_reducible exact fun _ => rfl) | (with_reducible exact fun x => False.elim x) | (with_reducible apply State.libRead_keep) | (with_reducible apply foldl_keep) | (with_reducible apply foldl_keep_fst) | (refine Keep.of_pair (by assumption) ?_) | split | (intro _) | (dsimp only [id]) | (with_reducible apply Keep.upd; first | (with_reducible assumption) | (with_reducible exact fun _ => rfl) | (with_reducible exact fun x => False.elim x) | (with_reducible apply State.libRead_keep) | (with_reducible apply foldl_keep) | (with_reducible apply foldl_keep_fst) | (refine Keep.of_pair (by assumption) ?_) | split | (dsimp only [id])))

theorem State.putRead_keep {T U : Prop} {r : State} {x0} {x1} {x2} {x3} (h : Keep T U r x0) : Keep T U r (@State.putRead x0 x1 x2 x3) := by
  unfold State.putRead
  (try dsimp only)
  repeat' (first | (with_reducible assumption) | (with_reducible exact fun _ => rfl) | (with_reducible exact fun x => False.elim x) | (with_reducible apply State.modSeat_keep) | (with_reducible apply foldl_keep) | (with_reducible apply foldl_keep_fst) | split | (intro _) | (dsimp only [id]) | (with_reducible apply Keep.upd; first | (with_reducible assumption) | (with_reducible exact fun _ => rfl) | (with_reducible exact fun x => False.elim x) | (with_reducible apply State.modSeat_keep) | (with_reducible apply foldl_keep) | (with_reducible apply foldl_keep_fst) | split | (dsimp only [id])))

theorem State.servePiece_keep {T U : Prop} {r : State} {x0} {x1} {x2} {x3} {x4} {x5} (h : Keep T U r x0) : Keep T U r (@State.servePiece x0 x1 x2 x3 x4 x5) := by
  unfold State.servePiece
  (try dsimp only)
  repeat' (first | (with_reducible assumption) | (with_reducible exact fun _ => rfl) | (with_reducible exact fun x => False.elim x) | (with_reducible apply State.respond_keep) | (with_reducible apply State.pieceBytes_keep) | (with_reducible apply State.internalDump_keep) | (with_reducible apply foldl_keep) | (with_reducible apply foldl_keep_fst) | (refine Keep.of_pair (by assumption) ?_) | split | (intro _) | (dsimp only [id]) | (with_reducible apply Keep.upd; first | (with_reducible assumption) | (with_reducible exact fun _ => rfl) | (with_reducible exact fun x => False.elim x) | (with_reducible apply State.respond_keep) | (with_reducible apply State.pieceBytes_keep) | (with_reducible apply State.internalDump_keep) | (with_reducible apply foldl_keep) | (with_reducible apply foldl_keep_fst) | (refine Keep.of_pair (by assumption) ?_) | split | (dsimp only [id])))

theorem State.piece_keep {T U : Prop} {r : State} {x0} {x1} {x2} {x3} {x4} {x5} (h : Keep T U r x0) : Keep T U r (@State.piece x0 x1 x2 x3 x4 x5) := by
  unfold State.piece
  (try dsimp only)
  repeat' (first | (with_reducible assumption) | (with_reducible exact fun _ => rfl) | (with_reducible exact fun x => False.elim x) | (with_reducible apply State.respond_keep) | (with_reducible apply State.badField_keep) | (with_reducible apply State.putRead_keep) | (with_reducible apply State.servePiece_keep) | (with_reducible apply State.modSeat_keep) | (with_reducible apply foldl_keep) | (with_reducible apply foldl_keep_fst) | split | (intro _) | (dsimp only [id]) | (with_reducible apply Keep.upd; first | (with_reducible assumption) | (with_reducible exact fun _ => rfl) | (with_reducible exact fun x => False.elim x) | (with_reducible apply State.respond_keep) | (with_reducible apply State.badField_keep) | (with_reducible apply State.putRead_keep) | (with_reducible apply State.servePiece_keep) | (with_reducible apply State.modSeat_keep) | (with_reducible apply foldl_keep) | (with_reducible apply foldl_keep_fst) | split | (dsimp only [id])))

theorem doReadPiece_keep {T U : Prop} {r : State} {x0} {x1} {x2} {x3} {x4} (h : Keep T U r x4) : Keep T U r (@doReadPiece x0 x1 x2 x3 x4) := by
  unfold doReadPiece
  (try dsimp only)
  repeat' (first | (with_reducible assumption) | (with_reducible exact fun _ => rfl) | (with_reducible exact fun x => False.elim x) | (with_reducible apply State.planned_keep) | (with_reducible apply State.piece_keep) | (with_reducible apply foldl_keep) | (with_reducible apply foldl_keep_fst) | split | (intro _) | (dsimp only [id]) | (with_reducible apply Keep.upd; first | (with_reducible assumption) | (with_reducible exact fun _ => rfl) | (with_reducible exact fun x => False.elim x) | (with_reducible apply State.planned_keep) | (with_reducible apply State.piece_keep) | (with_reducible apply foldl_keep) | (with_reducible apply foldl_keep_fst) | split | (dsimp only [id])))

theorem execReadPiece_keep {T U : Prop} {r : State} {x0} {x1} {x2} {x3} {x4} (h : Keep T U r x4) : Keep T U r (@execReadPiece x0 x1 x2 x3 x4) := by
  unfold execReadPiece
  (try dsimp only)
  repeat' (first | (with_reducible assumption) | (with_reducible exact fun _ => rfl) | (with_reducible exact fun x => False.elim x) | (with_reducible apply State.request_keep) | (with_reducible apply doReadPiece_keep) | (with_reducible apply foldl_keep) | (with_reducible apply foldl_keep_fst) | split | (intro _) | (dsimp only [id]) | (with_reducible apply Keep.upd; first | (with_reducible assumption) | (with_reducible exact fun _ => rfl) | (with_reducible exact fun x => False.elim x) | (with_reducible apply State.request_keep) | (with_reducible apply doReadPiece_keep) | (with_reducible apply foldl_keep) | (with_reducible apply foldl_keep_fst) | split | (dsimp only [id])))

theorem execReadClose_keep {T U : Prop} {r : State} {x0} {x1} {x2} (h : Keep T U r x2) : Keep T U r (@execReadClose x0 x1 x2) := by
  unfold execReadClose
  (try dsimp only)
  repeat' (first | (with_reducible assumption) | (with_reducible exact fun _ => rfl) | (with_reducible exact fun x => False.elim x) | (with_reducible apply State.request_keep) | (with_reducible apply State.badField_keep) | (with_reducible apply State.respond_keep) | (with_reducible apply State.putRead_keep) | (with_reducible apply foldl_keep) | (with_reducible apply foldl_keep_fst) | split | (intro _) | (dsimp only [id]) | (with_reducible apply Keep.upd; first | (with_reducible assumption) | (with_reducible exact fun _ => rfl) | (with_reducible exact fun x => False.elim x) | (with_reducible apply State.request_keep) | (with_reducible apply State.badField_keep) | (with_reducible apply State.respond_keep) | (with_reducible apply State.putRead_keep) | (with_reducible apply foldl_keep) | (with_reducible apply foldl_keep_fst) | split | (dsimp only [id])))

theorem execReadOpenAnswer_keep {T U : Prop} {r : State} {x0} {x1} (h : Keep T U r x1) : Keep T U r (@execReadOpenAnswer x0 x1) := by
  unfold execReadOpenAnswer
  (try dsimp only)
  repeat' (first | (with_reducible assumption) | (with_reducible exact fun _ => rfl) | (with_reducible exact fun x => False.elim x) | (with_reducible apply State.respond_keep) | (with_reducible apply State.modSeat_keep) | (with_reducible apply State.openRead_keep) | (with_reducible apply State.piece_keep) | (with_reducible apply foldl_keep) | (with_reducible apply foldl_keep_fst) | split | (intro _) | (dsimp only [id]) | (with_reducible apply Keep.upd; first | (with_reducible assumption) | (with_reducible exact fun _ => rfl) | (with_reducible exact fun x => False.elim x) | (with_reducible apply State.respond_keep) | (with_reducible apply State.modSeat_keep) | (with_reducible apply State.openRead_keep) | (with_reducible apply State.piece_keep) | (with_reducible apply foldl_keep) | (with_reducible apply foldl_keep_fst) | split | (dsimp only [id])))

theorem execReadWaitTimeout_keep {T U : Prop} {r : State} {x0} {x1} (h : Keep T U r x1) : Keep T U r (@execReadWaitTimeout x0 x1) := by
  unfold execReadWaitTimeout
  (try dsimp only)
  repeat' (first | (with_reducible assumption) | (with_reducible exact fun _ => rfl) | (with_reducible exact fun x => False.elim x) | (with_reducible apply State.respond_keep) | (with_reducible apply State.modSeat_keep) | (with_reducible apply foldl_keep) | (with_reducible apply foldl_keep_fst) | split | (intro _) | (dsimp only [id]) | (with_reducible apply Keep.upd; first | (with_reducible assumption) | (with_reducible exact fun _ => rfl) | (with_reducible exact fun x => False.elim x) | (with_reducible apply State.respond_keep) | (with_reducible apply State.modSeat_keep) | (with_reducible apply foldl_keep) | (with_reducible apply foldl_keep_fst) | split | (dsimp only [id])))

theorem State.denyAddr_keep {T U : Prop} {r : State} {x0} {x1} {x2} {x3} {x4} (h : Keep T U r x0) : Keep T U r (@State.denyAddr x0 x1 x2 x3 x4) := by
  unfold State.denyAddr
  (try dsimp only)
  repeat' (first | (with_reducible assumption) | (with_reducible exact fun _ => rfl) | (with_reducible exact fun x => False.elim x) | (with_reducible apply State.respond_keep) | (with_reducible apply State.vlog_keep) | (with_reducible apply State.modVlog_keep) | (with_reducible apply foldl_keep) | (with_reducible apply foldl_keep_fst) | split | (intro _) | (dsimp only [id]) | (with_reducible apply Keep.upd; first | (with_reducible assumption) | (with_reducible exact fun _ => rfl) | (with_reducible exact fun x => False.elim x) | (with_reducible apply State.respond_keep) | (with_reducible apply State.vlog_keep) | (with_reducible apply State.modVlog_keep) | (with_reducible apply foldl_keep) | (with_reducible apply foldl_keep_fst) | split | (dsimp only [id])))

theorem doReadRegs_keep {T U : Prop} {r : State} {x0} {x1} {x2} (h : Keep T U r x2) : Keep T U r (@doReadRegs x0 x1 x2) := by
  unfold doReadRegs
  (try dsimp only)
  repeat' (first | (with_reducible assumption) | (with_reducible exact fun _ => rfl) | (with_reducible exact fun x => False.elim x) | (with_reducible apply State.badField_keep) | (with_reducible apply State.denyAddr_keep) | (with_reducible apply State.respond_keep) | (with_reducible apply foldl_keep) | (with_reducible apply foldl_keep_fst) | split | (intro _) | (dsimp only [id]) | (with_reducible apply Keep.upd; first | (with_reducible assumption) | (with_reducible exact fun _ => rfl) | (with_reducible exact fun x => False.elim x) | (with_reducible apply State.badField_keep) | (with_reducible apply State.denyAddr_keep) | (with_reducible apply State.respond_keep) | (with_reducible apply foldl_keep) | (with_reducible apply foldl_keep_fst) | split | (dsimp only [id])))

theorem execReadRegs_keep {T U : Prop} {r : State} {x0} {x1} {x2} (h : Keep T U r x2) : Keep T U r (@execReadRegs x0 x1 x2) := by
  unfold execReadRegs
  (try dsimp only)
  repeat' (first | (with_reducible assumption) | (with_reducible exact fun _ => rfl) | (with_reducible exact fun x => False.elim x) | (with_reducible apply State.request_keep) | (with_reducible apply doReadRegs_keep) | (with_reducible apply foldl_keep) | (with_reducible apply foldl_keep_fst) | split | (intro _) | (dsimp only [id]) | (with_reducible apply Keep.upd; first | (with_reducible assumption) | (with_reducible exact fun _ => rfl) | (with_reducible exact fun x => False.elim x) | (with_reducible apply State.request_keep) | (with_reducible apply doReadRegs_keep) | (with_reducible apply foldl_keep) | (with_reducible apply foldl_keep_fst) | split | (dsimp only [id])))

theorem execHealthClear_keep {T U : Prop} {r : State} {x0} {x1} {x2} (h : Keep T U r x2) : Keep T U r (@execHealthClear x0 x1 x2) := by
  unfold execHealthClear
  (try dsimp only)
  repeat' (first | (with_reducible assumption) | (with_reducible exact fun _ => rfl) | (with_reducible exact fun x => False.elim x) | (with_reducible apply State.request_keep) | (with_reducible apply State.badField_keep) | (with_reducible apply State.denyAddr_keep) | (with_reducible apply State.respond_keep) | (with_reducible apply State.clearCounter_keep) | (with_reducible apply foldl_keep) | (with_reducible apply foldl_keep_fst) | split | (intro _) | (dsimp only [id]) | (with_reducible apply Keep.upd; first | (with_reducible assumption) | (with_reducible exact fun _ => rfl) | (with_reducible exact fun x => False.elim x) | (with_reducible apply State.request_keep) | (with_reducible apply State.badField_keep) | (with_reducible apply State.denyAddr_keep) | (with_reducible apply State.respond_keep) | (with_reducible apply State.clearCounter_keep) | (with_reducible apply foldl_keep) | (with_reducible apply foldl_keep_fst) | split | (dsimp only [id])))

theorem execReadLog_keep {T U : Prop} {r : State} {x0} {x1} {x2} {x3} {x4} (h : Keep T U r x4) : Keep T U r (@execReadLog x0 x1 x2 x3 x4) := by
  unfold execReadLog
  (try dsimp only)
  repeat' (first | (with_reducible assumption) | (with_reducible exact fun _ => rfl) | (with_reducible exact fun x => False.elim x) | (with_reducible apply State.request_keep) | (with_reducible apply State.expertOnly_keep) | (with_reducible apply State.badField_keep) | (with_reducible apply State.respond_keep) | (with_reducible apply State.modSeat_keep) | (with_reducible apply State.setCounter_keep) | (with_reducible apply foldl_keep) | (with_reducible apply foldl_keep_fst) | split | (intro _) | (dsimp only [id]) | (with_reducible apply Keep.upd; first | (with_reducible assumption) | (with_reducible exact fun _ => rfl) | (with_reducible exact fun x => False.elim x) | (with_reducible apply State.request_keep) | (with_reducible apply State.expertOnly_keep) | (with_reducible apply State.badField_keep) | (with_reducible apply State.respond_keep) | (with_reducible apply State.modSeat_keep) | (with_reducible apply State.setCounter_keep) | (with_reducible apply foldl_keep) | (with_reducible apply foldl_keep_fst) | split | (dsimp only [id])))

theorem State.endEngine_keep {T U : Prop} {r : State} {x0} {x1} (h : Keep T U r x0) : Keep T U r (@State.endEngine x0 x1) := by
  unfold State.endEngine
  (try dsimp only)
  repeat' (first | (with_reducible assumption) | (with_reducible exact fun _ => rfl) | (with_reducible exact fun x => False.elim x) | (with_reducible apply State.modCore_keep) | (with_reducible apply State.modLink_keep) | (with_reducible apply State.modLb_keep) | (with_reducible apply foldl_keep) | (with_reducible apply foldl_keep_fst) | split | (intro _) | (dsimp only [id]) | (with_reducible apply Keep.upd; first | (with_reducible assumption) | (with_reducible exact fun _ => rfl) | (with_reducible exact fun x => False.elim x) | (with_reducible apply State.modCore_keep) | (with_reducible apply State.modLink_keep) | (with_reducible apply State.modLb_keep) | (with_reducible apply foldl_keep) | (with_reducible apply foldl_keep_fst) | split | (dsimp only [id])))

theorem State.abandonReset_keep {T U : Prop} {r : State} {x0} {x1} (h : Keep T U r x0) : Keep T U r (@State.abandonReset x0 x1) := by
  unfold State.abandonReset
  (try dsimp only)
  repeat' (first | (with_reducible assumption) | (with_reducible exact fun _ => rfl) | (with_reducible exact fun x => False.elim x) | (with_reducible apply State.modSeat_keep) | (with_reducible apply State.endEngine_keep) | (with_reducible apply State.respond_keep) | (with_reducible apply foldl_keep) | (with_reducible apply foldl_keep_fst) | split | (intro _) | (dsimp only [id]) | (with_reducible apply Keep.upd; first | (with_reducible assumption) | (with_reducible exact fun _ => rfl) | (with_reducible exact fun x => False.elim x) | (with_reducible apply State.modSeat_keep) | (with_reducible apply State.endEngine_keep) | (with_reducible apply State.respond_keep) | (with_reducible apply foldl_keep) | (with_reducible apply foldl_keep_fst) | split | (dsimp only [id])))

theorem State.askReset_keep {T U : Prop} {r : State} {x0} {x1} {x2} (h : Keep T U r x0) : Keep T U r (@State.askReset x0 x1 x2) := by
  unfold State.askReset
  (try dsimp only)
  repeat' (first | (with_reducible assumption) | (with_reducible exact fun _ => rfl) | (with_reducible exact fun x => False.elim x) | (with_reducible apply State.respond_keep) | (with_reducible apply State.abandonReset_keep) | (with_reducible apply State.startResetDumps_keep) | (with_reducible apply foldl_keep) | (with_reducible apply foldl_keep_fst) | split | (intro _) | (dsimp only [id]) | (with_reducible apply Keep.upd; first | (with_reducible assumption) | (with_reducible exact fun _ => rfl) | (with_reducible exact fun x => False.elim x) | (with_reducible apply State.respond_keep) | (with_reducible apply State.abandonReset_keep) | (with_reducible apply State.startResetDumps_keep) | (with_reducible apply foldl_keep) | (with_reducible apply foldl_keep_fst) | split | (dsimp only [id])))

theorem State.partRung_keep {T U : Prop} {r : State} {x0} {x1} {x2} {x3} (h : Keep T U r x0) : Keep T U r (@State.partRung x0 x1 x2 x3) := by
  unfold State.partRung
  (try dsimp only)
  repeat' (first | (with_reducible assumption) | (with_reducible exact fun _ => rfl) | (with_reducible exact fun x => False.elim x) | (with_reducible apply State.badField_keep) | (with_reducible apply State.askReset_keep) | (with_reducible apply foldl_keep) | (with_reducible apply foldl_keep_fst) | split | (intro _) | (dsimp only [id]) | (with_reducible apply Keep.upd; first | (with_reducible assumption) | (with_reducible exact fun _ => rfl) | (with_reducible exact fun x => False.elim x) | (with_reducible apply State.badField_keep) | (with_reducible apply State.askReset_keep) | (with_reducible apply foldl_keep) | (with_reducible apply foldl_keep_fst) | split | (dsimp only [id])))

theorem execResetEngineCore_keep {T U : Prop} {r : State} {x0} {x1} {x2} (h : Keep T U r x2) : Keep T U r (@execResetEngineCore x0 x1 x2) := by
  unfold execResetEngineCore
  (try dsimp only)
  repeat' (first | (with_reducible assumption) | (with_reducible exact fun _ => rfl) | (with_reducible exact fun x => False.elim x) | (with_reducible apply State.request_keep) | (with_reducible apply State.expertOnly_keep) | (with_reducible apply State.partRung_keep) | (with_reducible apply foldl_keep) | (with_reducible apply foldl_keep_fst) | split | (intro _) | (dsimp only [id]) | (with_reducible apply Keep.upd; first | (with_reducible assumption) | (with_reducible exact fun _ => rfl) | (with_reducible exact fun x => False.elim x) | (with_reducible apply State.request_keep) | (with_reducible apply State.expertOnly_keep) | (with_reducible apply State.partRung_keep) | (with_reducible apply foldl_keep) | (with_reducible apply foldl_keep_fst) | split | (dsimp only [id])))

theorem execResetEngineLink_keep {T U : Prop} {r : State} {x0} {x1} {x2} (h : Keep T U r x2) : Keep T U r (@execResetEngineLink x0 x1 x2) := by
  unfold execResetEngineLink
  (try dsimp only)
  repeat' (first | (with_reducible assumption) | (with_reducible exact fun _ => rfl) | (with_reducible exact fun x => False.elim x) | (with_reducible apply State.request_keep) | (with_reducible apply State.expertOnly_keep) | (with_reducible apply State.partRung_keep) | (with_reducible apply foldl_keep) | (with_reducible apply foldl_keep_fst) | split | (intro _) | (dsimp only [id]) | (with_reducible apply Keep.upd; first | (with_reducible assumption) | (with_reducible exact fun _ => rfl) | (with_reducible exact fun x => False.elim x) | (with_reducible apply State.request_keep) | (with_reducible apply State.expertOnly_keep) | (with_reducible apply State.partRung_keep) | (with_reducible apply foldl_keep) | (with_reducible apply foldl_keep_fst) | split | (dsimp only [id])))

theorem execResetEngineChannel_keep {T U : Prop} {r : State} {x0} {x1} {x2} {x3} (h : Keep T U r x3) : Keep T U r (@execResetEngineChannel x0 x1 x2 x3) := by
  unfold execResetEngineChannel
  (try dsimp only)
  repeat' (first | (with_reducible assumption) | (with_reducible exact fun _ => rfl) | (with_reducible exact fun x => False.elim x) | (with_reducible apply State.request_keep) | (with_reducible apply State.expertOnly_keep) | (with_reducible apply State.partRung_keep) | (with_reducible apply foldl_keep) | (with_reducible apply foldl_keep_fst) | split | (intro _) | (dsimp only [id]) | (with_reducible apply Keep.upd; first | (with_reducible assumption) | (with_reducible exact fun _ => rfl) | (with_reducible exact fun x => False.elim x) | (with_reducible apply State.request_keep) | (with_reducible apply State.expertOnly_keep) | (with_reducible apply State.partRung_keep) | (with_reducible apply foldl_keep) | (with_reducible apply foldl_keep_fst) | split | (dsimp only [id])))

theorem doResetContext_keep {T U : Prop} {r : State} {x0} {x1} (h : Keep T U r x1) : Keep T U r (@doResetContext x0 x1) := by
  unfold doResetContext
  (try dsimp only)
  repeat' (first | (with_reducible assumption) | (with_reducible exact fun _ => rfl) | (with_reducible exact fun x => False.elim x) | (with_reducible apply State.partRung_keep) | (with_reducible apply foldl_keep) | (with_reducible apply foldl_keep_fst) | split | (intro _) | (dsimp only [id]) | (with_reducible apply Keep.upd; first | (with_reducible assumption) | (with_reducible exact fun _ => rfl) | (with_reducible exact fun x => False.elim x) | (with_reducible apply State.partRung_keep) | (with_reducible apply foldl_keep) | (with_reducible apply foldl_keep_fst) | split | (dsimp only [id])))

theorem execResetContext_keep {T U : Prop} {r : State} {x0} {x1} (h : Keep T U r x1) : Keep T U r (@execResetContext x0 x1) := by
  unfold execResetContext
  (try dsimp only)
  repeat' (first | (with_reducible assumption) | (with_reducible exact fun _ => rfl) | (with_reducible exact fun x => False.elim x) | (with_reducible apply State.request_keep) | (with_reducible apply doResetContext_keep) | (with_reducible apply foldl_keep) | (with_reducible apply foldl_keep_fst) | split | (intro _) | (dsimp only [id]) | (with_reducible apply Keep.upd; first | (with_reducible assumption) | (with_reducible exact fun _ => rfl) | (with_reducible exact fun x => False.elim x) | (with_reducible apply State.request_keep) | (with_reducible apply doResetContext_keep) | (with_reducible apply foldl_keep) | (with_reducible apply foldl_keep_fst) | split | (dsimp only [id])))

theorem doResetPartition_keep {T U : Prop} {r : State} {x0} {x1} (h : Keep T U r x1) : Keep T U r (@doResetPartition x0 x1) := by
  unfold doResetPartition
  (try dsimp only)
  repeat' (first | (with_reducible assumption) | (with_reducible exact fun _ => rfl) | (with_reducible exact fun x => False.elim x) | (with_reducible apply State.partRung_keep) | (with_reducible apply foldl_keep) | (with_reducible apply foldl_keep_fst) | split | (intro _) | (dsimp only [id]) | (with_reducible apply Keep.upd; first | (with_reducible assumption) | (with_reducible exact fun _ => rfl) | (with_reducible exact fun x => False.elim x) | (with_reducible apply State.partRung_keep) | (with_reducible apply foldl_keep) | (with_reducible apply foldl_keep_fst) | split | (dsimp only [id])))

theorem execResetPartition_keep {T U : Prop} {r : State} {x0} {x1} (h : Keep T U r x1) : Keep T U r (@execResetPartition x0 x1) := by
  unfold execResetPartition
  (try dsimp only)
  repeat' (first | (with_reducible assumption) | (with_reducible exact fun _ => rfl) | (with_reducible exact fun x => False.elim x) | (with_reducible apply State.request_keep) | (with_reducible apply doResetPartition_keep) | (with_reducible apply foldl_keep) | (with_reducible apply foldl_keep_fst) | split | (intro _) | (dsimp only [id]) | (with_reducible apply Keep.upd; first | (with_reducible assumption) | (with_reducible exact fun _ => rfl) | (with_reducible exact fun x => False.elim x) | (with_reducible apply State.request_keep) | (with_reducible apply doResetPartition_keep) | (with_reducible apply foldl_keep) | (with_reducible apply foldl_keep_fst) | split | (dsimp only [id])))

theorem doResetChip_keep {T U : Prop} {r : State} {x0} {x1} {x2} (h : Keep T U r x2) : Keep T U r (@doResetChip x0 x1 x2) := by
  unfold doResetChip
  (try dsimp only)
  repeat' (first | (with_reducible assumption) | (with_reducible exact fun _ => rfl) | (with_reducible exact fun x => False.elim x) | (with_reducible apply State.expertOnly_keep) | (with_reducible apply State.badField_keep) | (with_reducible apply State.askReset_keep) | (with_reducible apply foldl_keep) | (with_reducible apply foldl_keep_fst) | split | (intro _) | (dsimp only [id]) | (with_reducible apply Keep.upd; first | (with_reducible assumption) | (with_reducible exact fun _ => rfl) | (with_reducible exact fun x => False.elim x) | (with_reducible apply State.expertOnly_keep) | (with_reducible apply State.badField_keep) | (with_reducible apply State.askReset_keep) | (with_reducible apply foldl_keep) | (with_reducible apply foldl_keep_fst) | split | (dsimp only [id])))

theorem execResetChip_keep {T U : Prop} {r : State} {x0} {x1} {x2} (h : Keep T U r x2) : Keep T U r (@execResetChip x0 x1 x2) := by
  unfold execResetChip
  (try dsimp only)
  repeat' (first | (with_reducible assumption) | (with_reducible exact fun _ => rfl) | (with_reducible exact fun x => False.elim x) | (with_reducible apply State.request_keep) | (with_reducible apply doResetChip_keep) | (with_reducible apply foldl_keep) | (with_reducible apply foldl_keep_fst) | split | (intro _) | (dsimp only [id]) | (with_reducible apply Keep.upd; first | (with_reducible assumption) | (with_reducible exact fun _ => rfl) | (with_reducible exact fun x => False.elim x) | (with_reducible apply State.request_keep) | (with_reducible apply doResetChip_keep) | (with_reducible apply foldl_keep) | (with_reducible apply foldl_keep_fst) | split | (dsimp only [id])))

theorem State.cancelService_keep {T U : Prop} {r : State} {x0} {x1} (h : Keep T U r x0) : Keep T U r (@State.cancelService x0 x1) := by
  unfold State.cancelService
  (try dsimp only)
  repeat' (first | (with_reducible assumption) | (with_reducible exact fun _ => rfl) | (with_reducible exact fun x => False.elim x) | (with_reducible apply State.endSequence_keep) | (with_reducible apply foldl_keep) | (with_reducible apply foldl_keep_fst) | split | (intro _) | (dsimp only [id]) | (with_reducible apply Keep.upd; first | (with_reducible assumption) | (with_reducible exact fun _ => rfl) | (with_reducible exact fun x => False.elim x) | (with_reducible apply State.endSequence_keep) | (with_reducible apply foldl_keep) | (with_reducible apply foldl_keep_fst) | split | (dsimp only [id])))

theorem State.engineCore_keep {T U : Prop} {r : State} {x0} {x1} (h : Keep T U r x0) : Keep T U r (@State.engineCore x0 x1) := by
  unfold State.engineCore
  (try dsimp only)
  repeat' (first | (with_reducible assumption) | (with_reducible exact fun _ => rfl) | (with_reducible exact fun x => False.elim x) | (with_reducible apply State.modCore_keep) | (with_reducible apply State.cancelCore_keep) | (with_reducible apply State.cancelService_keep) | (with_reducible apply State.setCounter_keep) | (with_reducible apply State.taint_keep) | (with_reducible apply foldl_keep) | (with_reducible apply foldl_keep_fst) | split | (intro _) | (dsimp only [id]) | (with_reducible apply Keep.upd; first | (with_reducible assumption) | (with_reducible exact fun _ => rfl) | (with_reducible exact fun x => False.elim x) | (with_reducible apply State.modCore_keep) | (with_reducible apply State.cancelCore_keep) | (with_reducible apply State.cancelService_keep) | (with_reducible apply State.setCounter_keep) | (with_reducible apply State.taint_keep) | (with_reducible apply foldl_keep) | (with_reducible apply foldl_keep_fst) | split | (dsimp only [id])))

theorem State.sentBlocks_keep {T U : Prop} {r : State} {x0} {x1} {x2} (h : Keep T U r x0) : Keep T U r (@State.sentBlocks x0 x1 x2).1 := by
  unfold State.sentBlocks
  (try dsimp only)
  repeat' (first | (with_reducible assumption) | (with_reducible exact fun _ => rfl) | (with_reducible exact fun x => False.elim x) | (with_reducible apply State.libRead_keep) | (with_reducible apply foldl_keep) | (with_reducible apply foldl_keep_fst) | (refine Keep.of_pair (by assumption) ?_) | split | (intro _) | (dsimp only [id]) | (with_reducible apply Keep.upd; first | (with_reducible assumption) | (with_reducible exact fun _ => rfl) | (with_reducible exact fun x => False.elim x) | (with_reducible apply State.libRead_keep) | (with_reducible apply foldl_keep) | (with_reducible apply foldl_keep_fst) | (refine Keep.of_pair (by assumption) ?_) | split | (dsimp only [id])))

theorem State.engineChannel_keep {T U : Prop} {r : State} {x0} {x1} {x2} (h : Keep T U r x0) : Keep T U r (@State.engineChannel x0 x1 x2) := by
  unfold State.engineChannel
  (try dsimp only)
  repeat' (first | (with_reducible assumption) | (with_reducible exact fun _ => rfl) | (with_reducible exact fun x => False.elim x) | (with_reducible apply State.sentBlocks_keep) | (with_reducible apply State.modLb_keep) | (with_reducible apply State.modSeat_keep) | (with_reducible apply eachOf_keep) | (with_reducible apply State.endOp_keep) | (with_reducible apply foldl_keep) | (with_reducible apply foldl_keep_fst) | (refine Keep.of_pair (by assumption) ?_) | split | (intro _) | (dsimp only [id]) | (with_reducible apply Keep.upd; first | (with_reducible assumption) | (with_reducible exact fun _ => rfl) | (with_reducible exact fun x => False.elim x) | (with_reducible apply State.sentBlocks_keep) | (with_reducible apply State.modLb_keep) | (with_reducible apply State.modSeat_keep) | (with_reducible apply eachOf_keep) | (with_reducible apply State.endOp_keep) | (with_reducible apply foldl_keep) | (with_reducible apply foldl_keep_fst) | (refine Keep.of_pair (by assumption) ?_) | split | (dsimp only [id])))

end Sys2Proof.Machine
end

