-- ==== Sys2Proof/Laws/Keep6.lean ====
section
/-! SUPPORT. What the model's operations keep (Keep: the queue and the canonical form), one lemma per operation, part 6. -/

set_option linter.unusedTactic false
set_option linter.unreachableTactic false

namespace Sys2Proof.Machine

theorem State.rungActs_keep {r : State} {x0} {x1} (h : Keep False False r x0) : Keep False False r (@State.rungActs x0 x1) := by
  unfold State.rungActs
  (try dsimp only)
  repeat' (first | (with_reducible assumption) | (with_reducible exact fun _ => rfl) | (with_reducible exact fun x => False.elim x) | (with_reducible apply State.engineCore_keep) | (with_reducible apply State.modLink_keep) | (with_reducible apply State.engineChannel_keep) | (with_reducible apply State.modSeat_keep) | (with_reducible apply State.partitionReset_keep) | (with_reducible apply State.chipReset_keep) | (with_reducible apply foldl_keep) | (with_reducible apply foldl_keep_fst) | split | (intro _) | (dsimp only [id]) | (with_reducible apply Keep.upd; first | (with_reducible assumption) | (with_reducible exact fun _ => rfl) | (with_reducible exact fun x => False.elim x) | (with_reducible apply State.engineCore_keep) | (with_reducible apply State.modLink_keep) | (with_reducible apply State.engineChannel_keep) | (with_reducible apply State.modSeat_keep) | (with_reducible apply State.partitionReset_keep) | (with_reducible apply State.chipReset_keep) | (with_reducible apply foldl_keep) | (with_reducible apply foldl_keep_fst) | split | (dsimp only [id])) | (with_reducible apply Keep.updClk; first | (with_reducible assumption) | (with_reducible exact fun _ => rfl) | (with_reducible exact fun x => False.elim x) | (with_reducible apply State.engineCore_keep) | (with_reducible apply State.modLink_keep) | (with_reducible apply State.engineChannel_keep) | (with_reducible apply State.modSeat_keep) | (with_reducible apply State.partitionReset_keep) | (with_reducible apply State.chipReset_keep) | (with_reducible apply foldl_keep) | (with_reducible apply foldl_keep_fst) | split | (dsimp only [id]) | (with_reducible apply Keep.upd; first | (with_reducible assumption) | (with_reducible exact fun _ => rfl) | (with_reducible exact fun x => False.elim x) | (with_reducible apply State.engineCore_keep) | (with_reducible apply State.modLink_keep) | (with_reducible apply State.engineChannel_keep) | (with_reducible apply State.modSeat_keep) | (with_reducible apply State.partitionReset_keep) | (with_reducible apply State.chipReset_keep) | (with_reducible apply foldl_keep) | (with_reducible apply foldl_keep_fst) | split | (dsimp only [id]))))

theorem State.resetDumped_keep {r : State} {x0} {x1} (h : Keep False False r x0) : Keep False False r (@State.resetDumped x0 x1) := by
  unfold State.resetDumped
  (try dsimp only)
  repeat' (first | (with_reducible assumption) | (with_reducible exact fun _ => rfl) | (with_reducible exact fun x => False.elim x) | (with_reducible apply State.rungActs_keep) | (with_reducible apply State.respond_keep) | (with_reducible apply foldl_keep) | (with_reducible apply foldl_keep_fst) | split | (intro _) | (dsimp only [id]) | (with_reducible apply Keep.upd; first | (with_reducible assumption) | (with_reducible exact fun _ => rfl) | (with_reducible exact fun x => False.elim x) | (with_reducible apply State.rungActs_keep) | (with_reducible apply State.respond_keep) | (with_reducible apply foldl_keep) | (with_reducible apply foldl_keep_fst) | split | (dsimp only [id])) | (with_reducible apply Keep.updClk; first | (with_reducible assumption) | (with_reducible exact fun _ => rfl) | (with_reducible exact fun x => False.elim x) | (with_reducible apply State.rungActs_keep) | (with_reducible apply State.respond_keep) | (with_reducible apply foldl_keep) | (with_reducible apply foldl_keep_fst) | split | (dsimp only [id]) | (with_reducible apply Keep.upd; first | (with_reducible assumption) | (with_reducible exact fun _ => rfl) | (with_reducible exact fun x => False.elim x) | (with_reducible apply State.rungActs_keep) | (with_reducible apply State.respond_keep) | (with_reducible apply foldl_keep) | (with_reducible apply foldl_keep_fst) | split | (dsimp only [id]))))

theorem execDumpCollectDone_keep {r : State} {x0} {x1} {x2} (h : Keep False False r x2) : Keep False False r (@execDumpCollectDone x0 x1 x2) := by
  unfold execDumpCollectDone
  (try dsimp only)
  repeat' (first | (with_reducible assumption) | (with_reducible exact fun _ => rfl) | (with_reducible exact fun x => False.elim x) | (with_reducible apply State.keepDump_keep) | (with_reducible apply State.startResetDumps_keep) | (with_reducible apply State.resetDumped_keep) | (with_reducible apply State.respondTo_keep) | (with_reducible apply foldl_keep) | (with_reducible apply foldl_keep_fst) | split | (intro _) | (dsimp only [id]) | (with_reducible apply Keep.upd; first | (with_reducible assumption) | (with_reducible exact fun _ => rfl) | (with_reducible exact fun x => False.elim x) | (with_reducible apply State.keepDump_keep) | (with_reducible apply State.startResetDumps_keep) | (with_reducible apply State.resetDumped_keep) | (with_reducible apply State.respondTo_keep) | (with_reducible apply foldl_keep) | (with_reducible apply foldl_keep_fst) | split | (dsimp only [id])) | (with_reducible apply Keep.updClk; first | (with_reducible assumption) | (with_reducible exact fun _ => rfl) | (with_reducible exact fun x => False.elim x) | (with_reducible apply State.keepDump_keep) | (with_reducible apply State.startResetDumps_keep) | (with_reducible apply State.resetDumped_keep) | (with_reducible apply State.respondTo_keep) | (with_reducible apply foldl_keep) | (with_reducible apply foldl_keep_fst) | split | (dsimp only [id]) | (with_reducible apply Keep.upd; first | (with_reducible assumption) | (with_reducible exact fun _ => rfl) | (with_reducible exact fun x => False.elim x) | (with_reducible apply State.keepDump_keep) | (with_reducible apply State.startResetDumps_keep) | (with_reducible apply State.resetDumped_keep) | (with_reducible apply State.respondTo_keep) | (with_reducible apply foldl_keep) | (with_reducible apply foldl_keep_fst) | split | (dsimp only [id]))))

theorem execContextResetEffect_keep {T : Prop} {r : State} {x0} {x1} (h : Keep T False r x1) : Keep T False r (@execContextResetEffect x0 x1) := by
  unfold execContextResetEffect
  (try dsimp only)
  repeat' (first | (with_reducible assumption) | (with_reducible exact fun _ => rfl) | (with_reducible exact fun x => False.elim x) | (with_reducible apply eachOf_keep) | (with_reducible apply State.cancelCore_keep) | (with_reducible apply State.modSeat_keep) | (with_reducible apply State.enterHold_keep) | (with_reducible apply foldl_keep) | (with_reducible apply foldl_keep_fst) | split | (intro _) | (dsimp only [id]) | (with_reducible apply Keep.upd; first | (with_reducible assumption) | (with_reducible exact fun _ => rfl) | (with_reducible exact fun x => False.elim x) | (with_reducible apply eachOf_keep) | (with_reducible apply State.cancelCore_keep) | (with_reducible apply State.modSeat_keep) | (with_reducible apply State.enterHold_keep) | (with_reducible apply foldl_keep) | (with_reducible apply foldl_keep_fst) | split | (dsimp only [id])))

theorem execResetRungComplete_keep {T U : Prop} {r : State} {x0} {x1} (h : Keep T U r x1) : Keep T U r (@execResetRungComplete x0 x1) := by
  unfold execResetRungComplete
  (try dsimp only)
  repeat' (first | (with_reducible assumption) | (with_reducible exact fun _ => rfl) | (with_reducible exact fun x => False.elim x) | (with_reducible apply State.endEngine_keep) | (with_reducible apply foldl_keep) | (with_reducible apply foldl_keep_fst) | split | (intro _) | (dsimp only [id]) | (with_reducible apply Keep.upd; first | (with_reducible assumption) | (with_reducible exact fun _ => rfl) | (with_reducible exact fun x => False.elim x) | (with_reducible apply State.endEngine_keep) | (with_reducible apply foldl_keep) | (with_reducible apply foldl_keep_fst) | split | (dsimp only [id])))

theorem execChipResetWaitExpiry_keep {r : State} {x0} (h : Keep False False r x0) : Keep False False r (@execChipResetWaitExpiry x0) := by
  unfold execChipResetWaitExpiry
  (try dsimp only)
  repeat' (first | (with_reducible assumption) | (with_reducible exact fun _ => rfl) | (with_reducible exact fun x => False.elim x) | (with_reducible apply State.chipReset_keep) | (with_reducible apply foldl_keep) | (with_reducible apply foldl_keep_fst) | split | (intro _) | (dsimp only [id]) | (with_reducible apply Keep.upd; first | (with_reducible assumption) | (with_reducible exact fun _ => rfl) | (with_reducible exact fun x => False.elim x) | (with_reducible apply State.chipReset_keep) | (with_reducible apply foldl_keep) | (with_reducible apply foldl_keep_fst) | split | (dsimp only [id])) | (with_reducible apply Keep.updClk; first | (with_reducible assumption) | (with_reducible exact fun _ => rfl) | (with_reducible exact fun x => False.elim x) | (with_reducible apply State.chipReset_keep) | (with_reducible apply foldl_keep) | (with_reducible apply foldl_keep_fst) | split | (dsimp only [id]) | (with_reducible apply Keep.upd; first | (with_reducible assumption) | (with_reducible exact fun _ => rfl) | (with_reducible exact fun x => False.elim x) | (with_reducible apply State.chipReset_keep) | (with_reducible apply foldl_keep) | (with_reducible apply foldl_keep_fst) | split | (dsimp only [id]))))

theorem doDumpCollect_keep {T U : Prop} {r : State} {x0} {x1} {x2} (h : Keep T U r x2) : Keep T U r (@doDumpCollect x0 x1 x2) := by
  unfold doDumpCollect
  (try dsimp only)
  repeat' (first | (with_reducible assumption) | (with_reducible exact fun _ => rfl) | (with_reducible exact fun x => False.elim x) | (with_reducible apply State.expertOnly_keep) | (with_reducible apply State.respond_keep) | (with_reducible apply State.startDump_keep) | (with_reducible apply foldl_keep) | (with_reducible apply foldl_keep_fst) | split | (intro _) | (dsimp only [id]) | (with_reducible apply Keep.upd; first | (with_reducible assumption) | (with_reducible exact fun _ => rfl) | (with_reducible exact fun x => False.elim x) | (with_reducible apply State.expertOnly_keep) | (with_reducible apply State.respond_keep) | (with_reducible apply State.startDump_keep) | (with_reducible apply foldl_keep) | (with_reducible apply foldl_keep_fst) | split | (dsimp only [id])))

theorem execDumpCollect_keep {T U : Prop} {r : State} {x0} {x1} {x2} (h : Keep T U r x2) : Keep T U r (@execDumpCollect x0 x1 x2) := by
  unfold execDumpCollect
  (try dsimp only)
  repeat' (first | (with_reducible assumption) | (with_reducible exact fun _ => rfl) | (with_reducible exact fun x => False.elim x) | (with_reducible apply State.request_keep) | (with_reducible apply doDumpCollect_keep) | (with_reducible apply foldl_keep) | (with_reducible apply foldl_keep_fst) | split | (intro _) | (dsimp only [id]) | (with_reducible apply Keep.upd; first | (with_reducible assumption) | (with_reducible exact fun _ => rfl) | (with_reducible exact fun x => False.elim x) | (with_reducible apply State.request_keep) | (with_reducible apply doDumpCollect_keep) | (with_reducible apply foldl_keep) | (with_reducible apply foldl_keep_fst) | split | (dsimp only [id])))

theorem execDumpList_keep {T U : Prop} {r : State} {x0} {x1} (h : Keep T U r x1) : Keep T U r (@execDumpList x0 x1) := by
  unfold execDumpList
  (try dsimp only)
  repeat' (first | (with_reducible assumption) | (with_reducible exact fun _ => rfl) | (with_reducible exact fun x => False.elim x) | (with_reducible apply State.request_keep) | (with_reducible apply State.respond_keep) | (with_reducible apply foldl_keep) | (with_reducible apply foldl_keep_fst) | split | (intro _) | (dsimp only [id]) | (with_reducible apply Keep.upd; first | (with_reducible assumption) | (with_reducible exact fun _ => rfl) | (with_reducible exact fun x => False.elim x) | (with_reducible apply State.request_keep) | (with_reducible apply State.respond_keep) | (with_reducible apply foldl_keep) | (with_reducible apply foldl_keep_fst) | split | (dsimp only [id])))

theorem doDumpFetch_keep {r : State} {x0} {x1} {x2} {x3} (h : Keep False False r x3) : Keep False False r (@doDumpFetch x0 x1 x2 x3) := by
  unfold doDumpFetch
  (try dsimp only)
  repeat' (first | (with_reducible assumption) | (with_reducible exact fun _ => rfl) | (with_reducible exact fun x => False.elim x) | (with_reducible apply State.badField_keep) | (with_reducible apply State.respond_keep) | (with_reducible apply eachOf_keep) | (with_reducible apply State.modHm_keep) | (with_reducible apply State.chipReset_keep) | (with_reducible apply foldl_keep) | (with_reducible apply foldl_keep_fst) | split | (intro _) | (dsimp only [id]) | (with_reducible apply Keep.upd; first | (with_reducible assumption) | (with_reducible exact fun _ => rfl) | (with_reducible exact fun x => False.elim x) | (with_reducible apply State.badField_keep) | (with_reducible apply State.respond_keep) | (with_reducible apply eachOf_keep) | (with_reducible apply State.modHm_keep) | (with_reducible apply State.chipReset_keep) | (with_reducible apply foldl_keep) | (with_reducible apply foldl_keep_fst) | split | (dsimp only [id])) | (with_reducible apply Keep.updClk; first | (with_reducible assumption) | (with_reducible exact fun _ => rfl) | (with_reducible exact fun x => False.elim x) | (with_reducible apply State.badField_keep) | (with_reducible apply State.respond_keep) | (with_reducible apply eachOf_keep) | (with_reducible apply State.modHm_keep) | (with_reducible apply State.chipReset_keep) | (with_reducible apply foldl_keep) | (with_reducible apply foldl_keep_fst) | split | (dsimp only [id]) | (with_reducible apply Keep.upd; first | (with_reducible assumption) | (with_reducible exact fun _ => rfl) | (with_reducible exact fun x => False.elim x) | (with_reducible apply State.badField_keep) | (with_reducible apply State.respond_keep) | (with_reducible apply eachOf_keep) | (with_reducible apply State.modHm_keep) | (with_reducible apply State.chipReset_keep) | (with_reducible apply foldl_keep) | (with_reducible apply foldl_keep_fst) | split | (dsimp only [id]))))

theorem execDumpFetch_keep {r : State} {x0} {x1} {x2} {x3} (h : Keep False False r x3) : Keep False False r (@execDumpFetch x0 x1 x2 x3) := by
  unfold execDumpFetch
  (try dsimp only)
  repeat' (first | (with_reducible assumption) | (with_reducible exact fun _ => rfl) | (with_reducible exact fun x => False.elim x) | (with_reducible apply State.request_keep) | (with_reducible apply doDumpFetch_keep) | (with_reducible apply foldl_keep) | (with_reducible apply foldl_keep_fst) | split | (intro _) | (dsimp only [id]) | (with_reducible apply Keep.upd; first | (with_reducible assumption) | (with_reducible exact fun _ => rfl) | (with_reducible exact fun x => False.elim x) | (with_reducible apply State.request_keep) | (with_reducible apply doDumpFetch_keep) | (with_reducible apply foldl_keep) | (with_reducible apply foldl_keep_fst) | split | (dsimp only [id])) | (with_reducible apply Keep.updClk; first | (with_reducible assumption) | (with_reducible exact fun _ => rfl) | (with_reducible exact fun x => False.elim x) | (with_reducible apply State.request_keep) | (with_reducible apply doDumpFetch_keep) | (with_reducible apply foldl_keep) | (with_reducible apply foldl_keep_fst) | split | (dsimp only [id]) | (with_reducible apply Keep.upd; first | (with_reducible assumption) | (with_reducible exact fun _ => rfl) | (with_reducible exact fun x => False.elim x) | (with_reducible apply State.request_keep) | (with_reducible apply doDumpFetch_keep) | (with_reducible apply foldl_keep) | (with_reducible apply foldl_keep_fst) | split | (dsimp only [id]))))

theorem execDumpDelete_keep {T U : Prop} {r : State} {x0} {x1} {x2} (h : Keep T U r x2) : Keep T U r (@execDumpDelete x0 x1 x2) := by
  unfold execDumpDelete
  (try dsimp only)
  repeat' (first | (with_reducible assumption) | (with_reducible exact fun _ => rfl) | (with_reducible exact fun x => False.elim x) | (with_reducible apply State.request_keep) | (with_reducible apply State.badField_keep) | (with_reducible apply State.respond_keep) | (with_reducible apply eachOf_keep) | (with_reducible apply State.modHm_keep) | (with_reducible apply foldl_keep) | (with_reducible apply foldl_keep_fst) | split | (intro _) | (dsimp only [id]) | (with_reducible apply Keep.upd; first | (with_reducible assumption) | (with_reducible exact fun _ => rfl) | (with_reducible exact fun x => False.elim x) | (with_reducible apply State.request_keep) | (with_reducible apply State.badField_keep) | (with_reducible apply State.respond_keep) | (with_reducible apply eachOf_keep) | (with_reducible apply State.modHm_keep) | (with_reducible apply foldl_keep) | (with_reducible apply foldl_keep_fst) | split | (dsimp only [id])))

theorem State.atBellOr_keep {T U : Prop} {r : State} {x0} {x1} {x2} {x3} (h : Keep T U r x0) (g3 : ∀ y0, Keep T U r y0 → Keep T U r (x3 y0)) : Keep T U r (@State.atBellOr x0 x1 x2 x3) := by
  unfold State.atBellOr
  (try dsimp only)
  repeat' (first | (with_reducible assumption) | (with_reducible exact fun _ => rfl) | (with_reducible exact fun x => False.elim x) | (with_reducible apply g3) | (with_reducible apply State.modSeat_keep) | (with_reducible apply foldl_keep) | (with_reducible apply foldl_keep_fst) | split | (intro _) | (dsimp only [id]) | (with_reducible apply Keep.upd; first | (with_reducible assumption) | (with_reducible exact fun _ => rfl) | (with_reducible exact fun x => False.elim x) | (with_reducible apply g3) | (with_reducible apply State.modSeat_keep) | (with_reducible apply foldl_keep) | (with_reducible apply foldl_keep_fst) | split | (dsimp only [id])))

theorem execJobSeat_keep {T U : Prop} {r : State} {x0} {x1} {x2} {x3} {x4} (h : Keep T U r x4) : Keep T U r (@execJobSeat x0 x1 x2 x3 x4) := by
  unfold execJobSeat
  (try dsimp only)
  repeat' (first | (with_reducible assumption) | (with_reducible exact fun _ => rfl) | (with_reducible exact fun x => False.elim x) | (with_reducible apply State.request_keep) | (with_reducible apply State.deny_keep) | (with_reducible apply State.badField_keep) | (with_reducible apply State.respond_keep) | (with_reducible apply State.atBellOr_keep) | (with_reducible apply State.takeSeat_keep) | (with_reducible apply foldl_keep) | (with_reducible apply foldl_keep_fst) | split | (intro _) | (dsimp only [id]) | (with_reducible apply Keep.upd; first | (with_reducible assumption) | (with_reducible exact fun _ => rfl) | (with_reducible exact fun x => False.elim x) | (with_reducible apply State.request_keep) | (with_reducible apply State.deny_keep) | (with_reducible apply State.badField_keep) | (with_reducible apply State.respond_keep) | (with_reducible apply State.atBellOr_keep) | (with_reducible apply State.takeSeat_keep) | (with_reducible apply foldl_keep) | (with_reducible apply foldl_keep_fst) | split | (dsimp only [id])))
  all_goals rfl

theorem execJobPartner_keep {T U : Prop} {r : State} {x0} {x1} {x2} {x3} (h : Keep T U r x3) : Keep T U r (@execJobPartner x0 x1 x2 x3) := by
  unfold execJobPartner
  (try dsimp only)
  repeat' (first | (with_reducible assumption) | (with_reducible exact fun _ => rfl) | (with_reducible exact fun x => False.elim x) | (with_reducible apply State.request_keep) | (with_reducible apply State.atRestOnly_keep) | (with_reducible apply State.modCm_keep) | (with_reducible apply State.respond_keep) | (with_reducible apply State.tell_keep) | (with_reducible apply foldl_keep) | (with_reducible apply foldl_keep_fst) | split | (intro _) | (dsimp only [id]) | (with_reducible apply Keep.upd; first | (with_reducible assumption) | (with_reducible exact fun _ => rfl) | (with_reducible exact fun x => False.elim x) | (with_reducible apply State.request_keep) | (with_reducible apply State.atRestOnly_keep) | (with_reducible apply State.modCm_keep) | (with_reducible apply State.respond_keep) | (with_reducible apply State.tell_keep) | (with_reducible apply foldl_keep) | (with_reducible apply foldl_keep_fst) | split | (dsimp only [id])))

theorem execJobFill_keep {T U : Prop} {r : State} {x0} {x1} {x2} {x3} {x4} {x5} {x6} (h : Keep T U r x6) : Keep T U r (@execJobFill x0 x1 x2 x3 x4 x5 x6) := by
  unfold execJobFill
  (try dsimp only)
  repeat' (first | (with_reducible assumption) | (with_reducible exact fun _ => rfl) | (with_reducible exact fun x => False.elim x) | (with_reducible apply State.request_keep) | (with_reducible apply State.expertOnly_keep) | (with_reducible apply State.planned_keep) | (with_reducible apply State.respond_keep) | (with_reducible apply State.badField_keep) | (with_reducible apply State.modCm_keep) | (with_reducible apply State.modLbs_keep) | (with_reducible apply State.tell_keep) | (with_reducible apply State.xferDone_keep) | (with_reducible apply foldl_keep) | (with_reducible apply foldl_keep_fst) | split | (intro _) | (dsimp only [id]) | (with_reducible apply Keep.upd; first | (with_reducible assumption) | (with_reducible exact fun _ => rfl) | (with_reducible exact fun x => False.elim x) | (with_reducible apply State.request_keep) | (with_reducible apply State.expertOnly_keep) | (with_reducible apply State.planned_keep) | (with_reducible apply State.respond_keep) | (with_reducible apply State.badField_keep) | (with_reducible apply State.modCm_keep) | (with_reducible apply State.modLbs_keep) | (with_reducible apply State.tell_keep) | (with_reducible apply State.xferDone_keep) | (with_reducible apply foldl_keep) | (with_reducible apply foldl_keep_fst) | split | (dsimp only [id])))

theorem execJobStandby_keep {T U : Prop} {r : State} {x0} {x1} (h : Keep T U r x1) : Keep T U r (@execJobStandby x0 x1) := by
  unfold execJobStandby
  (try dsimp only)
  repeat' (first | (with_reducible assumption) | (with_reducible exact fun _ => rfl) | (with_reducible exact fun x => False.elim x) | (with_reducible apply State.request_keep) | (with_reducible apply State.badField_keep) | (with_reducible apply State.deny_keep) | (with_reducible apply State.respond_keep) | (with_reducible apply State.modSeat_keep) | (with_reducible apply eachOf_keep) | (with_reducible apply State.modLink_keep) | (with_reducible apply foldl_keep) | (with_reducible apply foldl_keep_fst) | split | (intro _) | (dsimp only [id]) | (with_reducible apply Keep.upd; first | (with_reducible assumption) | (with_reducible exact fun _ => rfl) | (with_reducible exact fun x => False.elim x) | (with_reducible apply State.request_keep) | (with_reducible apply State.badField_keep) | (with_reducible apply State.deny_keep) | (with_reducible apply State.respond_keep) | (with_reducible apply State.modSeat_keep) | (with_reducible apply eachOf_keep) | (with_reducible apply State.modLink_keep) | (with_reducible apply foldl_keep) | (with_reducible apply foldl_keep_fst) | split | (dsimp only [id])))

theorem execJobAssume_keep {T U : Prop} {r : State} {x0} {x1} {x2} {x3} {x4} {x5} {x6} {x7} (h : Keep T U r x7) : Keep T U r (@execJobAssume x0 x1 x2 x3 x4 x5 x6 x7) := by
  unfold execJobAssume
  (try dsimp only)
  repeat' (first | (with_reducible assumption) | (with_reducible exact fun _ => rfl) | (with_reducible exact fun x => False.elim x) | (with_reducible apply State.request_keep) | (with_reducible apply State.badField_keep) | (with_reducible apply State.deny_keep) | (with_reducible apply State.respond_keep) | (with_reducible apply State.modSeat_keep) | (with_reducible apply State.givePeers_keep) | (with_reducible apply foldl_keep) | (with_reducible apply foldl_keep_fst) | split | (intro _) | (dsimp only [id]) | (with_reducible apply Keep.upd; first | (with_reducible assumption) | (with_reducible exact fun _ => rfl) | (with_reducible exact fun x => False.elim x) | (with_reducible apply State.request_keep) | (with_reducible apply State.badField_keep) | (with_reducible apply State.deny_keep) | (with_reducible apply State.respond_keep) | (with_reducible apply State.modSeat_keep) | (with_reducible apply State.givePeers_keep) | (with_reducible apply foldl_keep) | (with_reducible apply foldl_keep_fst) | split | (dsimp only [id])))
  all_goals rfl

theorem execJobHandover_keep {T U : Prop} {r : State} {x0} {x1} {x2} (h : Keep T U r x2) : Keep T U r (@execJobHandover x0 x1 x2) := by
  unfold execJobHandover
  (try dsimp only)
  repeat' (first | (with_reducible assumption) | (with_reducible exact fun _ => rfl) | (with_reducible exact fun x => False.elim x) | (with_reducible apply State.request_keep) | (with_reducible apply State.planned_keep) | (with_reducible apply State.respond_keep) | (with_reducible apply State.modCm_keep) | (with_reducible apply State.handGo_keep) | (with_reducible apply foldl_keep) | (with_reducible apply foldl_keep_fst) | split | (intro _) | (dsimp only [id]) | (with_reducible apply Keep.upd; first | (with_reducible assumption) | (with_reducible exact fun _ => rfl) | (with_reducible exact fun x => False.elim x) | (with_reducible apply State.request_keep) | (with_reducible apply State.planned_keep) | (with_reducible apply State.respond_keep) | (with_reducible apply State.modCm_keep) | (with_reducible apply State.handGo_keep) | (with_reducible apply foldl_keep) | (with_reducible apply foldl_keep_fst) | split | (dsimp only [id])))

theorem execJobPeers_keep {T U : Prop} {r : State} {x0} {x1} {x2} (h : Keep T U r x2) : Keep T U r (@execJobPeers x0 x1 x2) := by
  unfold execJobPeers
  (try dsimp only)
  repeat' (first | (with_reducible assumption) | (with_reducible exact fun _ => rfl) | (with_reducible exact fun x => False.elim x) | (with_reducible apply State.request_keep) | (with_reducible apply State.badField_keep) | (with_reducible apply State.respond_keep) | (with_reducible apply State.atBellOr_keep) | (with_reducible apply State.givePeers_keep) | (with_reducible apply foldl_keep) | (with_reducible apply foldl_keep_fst) | split | (intro _) | (dsimp only [id]) | (with_reducible apply Keep.upd; first | (with_reducible assumption) | (with_reducible exact fun _ => rfl) | (with_reducible exact fun x => False.elim x) | (with_reducible apply State.request_keep) | (with_reducible apply State.badField_keep) | (with_reducible apply State.respond_keep) | (with_reducible apply State.atBellOr_keep) | (with_reducible apply State.givePeers_keep) | (with_reducible apply foldl_keep) | (with_reducible apply foldl_keep_fst) | split | (dsimp only [id])))

theorem execJobLeave_keep {T : Prop} {r : State} {x0} {x1} (h : Keep T False r x1) : Keep T False r (@execJobLeave x0 x1) := by
  unfold execJobLeave
  (try dsimp only)
  repeat' (first | (with_reducible assumption) | (with_reducible exact fun _ => rfl) | (with_reducible exact fun x => False.elim x) | (with_reducible apply State.request_keep) | (with_reducible apply State.respond_keep) | (with_reducible apply State.atBellOr_keep) | (with_reducible apply State.leaveSeat_keep) | (with_reducible apply foldl_keep) | (with_reducible apply foldl_keep_fst) | split | (intro _) | (dsimp only [id]) | (with_reducible apply Keep.upd; first | (with_reducible assumption) | (with_reducible exact fun _ => rfl) | (with_reducible exact fun x => False.elim x) | (with_reducible apply State.request_keep) | (with_reducible apply State.respond_keep) | (with_reducible apply State.atBellOr_keep) | (with_reducible apply State.leaveSeat_keep) | (with_reducible apply foldl_keep) | (with_reducible apply foldl_keep_fst) | split | (dsimp only [id])))
  all_goals rfl

theorem execJobPool_keep {T U : Prop} {r : State} {x0} {x1} {x2} {x3} (h : Keep T U r x3) : Keep T U r (@execJobPool x0 x1 x2 x3) := by
  unfold execJobPool
  (try dsimp only)
  repeat' (first | (with_reducible assumption) | (with_reducible exact fun _ => rfl) | (with_reducible exact fun x => False.elim x) | (with_reducible apply State.request_keep) | (with_reducible apply State.respond_keep) | (with_reducible apply State.modCk_keep) | (with_reducible apply foldl_keep) | (with_reducible apply foldl_keep_fst) | split | (intro _) | (dsimp only [id]) | (with_reducible apply Keep.upd; first | (with_reducible assumption) | (with_reducible exact fun _ => rfl) | (with_reducible exact fun x => False.elim x) | (with_reducible apply State.request_keep) | (with_reducible apply State.respond_keep) | (with_reducible apply State.modCk_keep) | (with_reducible apply foldl_keep) | (with_reducible apply foldl_keep_fst) | split | (dsimp only [id])))

theorem execJobCkptSecret_keep {T U : Prop} {r : State} {x0} {x1} {x2} {x3} (h : Keep T U r x3) : Keep T U r (@execJobCkptSecret x0 x1 x2 x3) := by
  unfold execJobCkptSecret
  (try dsimp only)
  repeat' (first | (with_reducible assumption) | (with_reducible exact fun _ => rfl) | (with_reducible exact fun x => False.elim x) | (with_reducible apply State.request_keep) | (with_reducible apply State.respond_keep) | (with_reducible apply State.modCk_keep) | (with_reducible apply foldl_keep) | (with_reducible apply foldl_keep_fst) | split | (intro _) | (dsimp only [id]) | (with_reducible apply Keep.upd; first | (with_reducible assumption) | (with_reducible exact fun _ => rfl) | (with_reducible exact fun x => False.elim x) | (with_reducible apply State.request_keep) | (with_reducible apply State.respond_keep) | (with_reducible apply State.modCk_keep) | (with_reducible apply foldl_keep) | (with_reducible apply foldl_keep_fst) | split | (dsimp only [id])))

theorem execJobCheckpoint_keep {T U : Prop} {r : State} {x0} {x1} {x2} {x3} (h : Keep T U r x3) : Keep T U r (@execJobCheckpoint x0 x1 x2 x3) := by
  unfold execJobCheckpoint
  (try dsimp only)
  repeat' (first | (with_reducible assumption) | (with_reducible exact fun _ => rfl) | (with_reducible exact fun x => False.elim x) | (with_reducible apply State.request_keep) | (with_reducible apply State.expertOnly_keep) | (with_reducible apply State.planned_keep) | (with_reducible apply State.ckNote_keep) | (with_reducible apply State.modCk_keep) | (with_reducible apply foldl_keep) | (with_reducible apply foldl_keep_fst) | split | (intro _) | (dsimp only [id]) | (with_reducible apply Keep.upd; first | (with_reducible assumption) | (with_reducible exact fun _ => rfl) | (with_reducible exact fun x => False.elim x) | (with_reducible apply State.request_keep) | (with_reducible apply State.expertOnly_keep) | (with_reducible apply State.planned_keep) | (with_reducible apply State.ckNote_keep) | (with_reducible apply State.modCk_keep) | (with_reducible apply foldl_keep) | (with_reducible apply foldl_keep_fst) | split | (dsimp only [id])))

theorem execJobScan_keep {T U : Prop} {r : State} {x0} {x1} (h : Keep T U r x1) : Keep T U r (@execJobScan x0 x1) := by
  unfold execJobScan
  (try dsimp only)
  repeat' (first | (with_reducible assumption) | (with_reducible exact fun _ => rfl) | (with_reducible exact fun x => False.elim x) | (with_reducible apply State.request_keep) | (with_reducible apply State.respond_keep) | (with_reducible apply State.ckAnswer_keep) | (with_reducible apply State.issueScan_keep) | (with_reducible apply State.modCk_keep) | (with_reducible apply foldl_keep) | (with_reducible apply foldl_keep_fst) | split | (intro _) | (dsimp only [id]) | (with_reducible apply Keep.upd; first | (with_reducible assumption) | (with_reducible exact fun _ => rfl) | (with_reducible exact fun x => False.elim x) | (with_reducible apply State.request_keep) | (with_reducible apply State.respond_keep) | (with_reducible apply State.ckAnswer_keep) | (with_reducible apply State.issueScan_keep) | (with_reducible apply State.modCk_keep) | (with_reducible apply foldl_keep) | (with_reducible apply foldl_keep_fst) | split | (dsimp only [id])))

theorem execJobRestore_keep {T U : Prop} {r : State} {x0} {x1} {x2} (h : Keep T U r x2) : Keep T U r (@execJobRestore x0 x1 x2) := by
  unfold execJobRestore
  (try dsimp only)
  repeat' (first | (with_reducible assumption) | (with_reducible exact fun _ => rfl) | (with_reducible exact fun x => False.elim x) | (with_reducible apply State.request_keep) | (with_reducible apply State.planned_keep) | (with_reducible apply State.atRestOnly_keep) | (with_reducible apply State.ckNote_keep) | (with_reducible apply State.modSeat_keep) | (with_reducible apply State.respond_keep) | (with_reducible apply State.modCk_keep) | (with_reducible apply State.restoreGo_keep) | (with_reducible apply State.issueScan_keep) | (with_reducible apply foldl_keep) | (with_reducible apply foldl_keep_fst) | split | (intro _) | (dsimp only [id]) | (with_reducible apply Keep.upd; first | (with_reducible assumption) | (with_reducible exact fun _ => rfl) | (with_reducible exact fun x => False.elim x) | (with_reducible apply State.request_keep) | (with_reducible apply State.planned_keep) | (with_reducible apply State.atRestOnly_keep) | (with_reducible apply State.ckNote_keep) | (with_reducible apply State.modSeat_keep) | (with_reducible apply State.respond_keep) | (with_reducible apply State.modCk_keep) | (with_reducible apply State.restoreGo_keep) | (with_reducible apply State.issueScan_keep) | (with_reducible apply foldl_keep) | (with_reducible apply foldl_keep_fst) | split | (dsimp only [id])))

theorem doHealthCards_keep {T U : Prop} {r : State} {x0} {x1} {x2} {x3} {x4} {x5} (h : Keep T U r x5) : Keep T U r (@doHealthCards x0 x1 x2 x3 x4 x5) := by
  unfold doHealthCards
  (try dsimp only)
  repeat' (first | (with_reducible assumption) | (with_reducible exact fun _ => rfl) | (with_reducible exact fun x => False.elim x) | (with_reducible apply State.expertOnly_keep) | (with_reducible apply State.badField_keep) | (with_reducible apply State.deny_keep) | (with_reducible apply State.respond_keep) | (with_reducible apply foldl_keep) | (with_reducible apply foldl_keep_fst) | split | (intro _) | (dsimp only [id]) | (with_reducible apply Keep.upd; first | (with_reducible assumption) | (with_reducible exact fun _ => rfl) | (with_reducible exact fun x => False.elim x) | (with_reducible apply State.expertOnly_keep) | (with_reducible apply State.badField_keep) | (with_reducible apply State.deny_keep) | (with_reducible apply State.respond_keep) | (with_reducible apply foldl_keep) | (with_reducible apply foldl_keep_fst) | split | (dsimp only [id])))

theorem execHealthCards_keep {T U : Prop} {r : State} {x0} {x1} {x2} {x3} {x4} {x5} (h : Keep T U r x5) : Keep T U r (@execHealthCards x0 x1 x2 x3 x4 x5) := by
  unfold execHealthCards
  (try dsimp only)
  repeat' (first | (with_reducible assumption) | (with_reducible exact fun _ => rfl) | (with_reducible exact fun x => False.elim x) | (with_reducible apply State.request_keep) | (with_reducible apply doHealthCards_keep) | (with_reducible apply foldl_keep) | (with_reducible apply foldl_keep_fst) | split | (intro _) | (dsimp only [id]) | (with_reducible apply Keep.upd; first | (with_reducible assumption) | (with_reducible exact fun _ => rfl) | (with_reducible exact fun x => False.elim x) | (with_reducible apply State.request_keep) | (with_reducible apply doHealthCards_keep) | (with_reducible apply foldl_keep) | (with_reducible apply foldl_keep_fst) | split | (dsimp only [id])))

theorem execHealthPasses_keep {T U : Prop} {r : State} {x0} {x1} (h : Keep T U r x1) : Keep T U r (@execHealthPasses x0 x1) := by
  unfold execHealthPasses
  (try dsimp only)
  repeat' (first | (with_reducible assumption) | (with_reducible exact fun _ => rfl) | (with_reducible exact fun x => False.elim x) | (with_reducible apply State.request_keep) | (with_reducible apply State.respond_keep) | (with_reducible apply foldl_keep) | (with_reducible apply foldl_keep_fst) | split | (intro _) | (dsimp only [id]) | (with_reducible apply Keep.upd; first | (with_reducible assumption) | (with_reducible exact fun _ => rfl) | (with_reducible exact fun x => False.elim x) | (with_reducible apply State.request_keep) | (with_reducible apply State.respond_keep) | (with_reducible apply foldl_keep) | (with_reducible apply foldl_keep_fst) | split | (dsimp only [id])))

theorem State.busyPass_keep {T U : Prop} {r : State} {x0} {x1} {x2} {x3} (h : Keep T U r x0) : Keep T U r (@State.busyPass x0 x1 x2 x3) := by
  unfold State.busyPass
  (try dsimp only)
  repeat' (first | (with_reducible assumption) | (with_reducible exact fun _ => rfl) | (with_reducible exact fun x => False.elim x) | (with_reducible apply State.respond_keep) | (with_reducible apply State.noteBusy_keep) | (with_reducible apply foldl_keep) | (with_reducible apply foldl_keep_fst) | split | (intro _) | (dsimp only [id]) | (with_reducible apply Keep.upd; first | (with_reducible assumption) | (with_reducible exact fun _ => rfl) | (with_reducible exact fun x => False.elim x) | (with_reducible apply State.respond_keep) | (with_reducible apply State.noteBusy_keep) | (with_reducible apply foldl_keep) | (with_reducible apply foldl_keep_fst) | split | (dsimp only [id])))

theorem execMaintRotate_keep {T U : Prop} {r : State} {x0} {x1} {x2} {x3} (h : Keep T U r x3) : Keep T U r (@execMaintRotate x0 x1 x2 x3) := by
  unfold execMaintRotate
  (try dsimp only)
  repeat' (first | (with_reducible assumption) | (with_reducible exact fun _ => rfl) | (with_reducible exact fun x => False.elim x) | (with_reducible apply State.request_keep) | (with_reducible apply State.expertOnly_keep) | (with_reducible apply State.badField_keep) | (with_reducible apply State.respond_keep) | (with_reducible apply State.busyPass_keep) | (refine Keep.of_ok (by assumption) ?_; with_reducible apply State.takePasses_keep) | (with_reducible apply State.modSeat_keep) | (with_reducible apply foldl_keep) | (with_reducible apply foldl_keep_fst) | split | (intro _) | (dsimp only [id]) | (with_reducible apply Keep.upd; first | (with_reducible assumption) | (with_reducible exact fun _ => rfl) | (with_reducible exact fun x => False.elim x) | (with_reducible apply State.request_keep) | (with_reducible apply State.expertOnly_keep) | (with_reducible apply State.badField_keep) | (with_reducible apply State.respond_keep) | (with_reducible apply State.busyPass_keep) | (refine Keep.of_ok (by assumption) ?_; with_reducible apply State.takePasses_keep) | (with_reducible apply State.modSeat_keep) | (with_reducible apply foldl_keep) | (with_reducible apply foldl_keep_fst) | split | (dsimp only [id])))

theorem execMaintRetrain_keep {T U : Prop} {r : State} {x0} {x1} {x2} (h : Keep T U r x2) : Keep T U r (@execMaintRetrain x0 x1 x2) := by
  unfold execMaintRetrain
  (try dsimp only)
  repeat' (first | (with_reducible assumption) | (with_reducible exact fun _ => rfl) | (with_reducible exact fun x => False.elim x) | (with_reducible apply State.request_keep) | (with_reducible apply State.badField_keep) | (with_reducible apply State.respond_keep) | (refine Keep.of_ok (by assumption) ?_; with_reducible apply State.takePass_keep) | (with_reducible apply State.busyPass_keep) | (with_reducible apply State.modSeat_keep) | (with_reducible apply foldl_keep) | (with_reducible apply foldl_keep_fst) | split | (intro _) | (dsimp only [id]) | (with_reducible apply Keep.upd; first | (with_reducible assumption) | (with_reducible exact fun _ => rfl) | (with_reducible exact fun x => False.elim x) | (with_reducible apply State.request_keep) | (with_reducible apply State.badField_keep) | (with_reducible apply State.respond_keep) | (refine Keep.of_ok (by assumption) ?_; with_reducible apply State.takePass_keep) | (with_reducible apply State.busyPass_keep) | (with_reducible apply State.modSeat_keep) | (with_reducible apply foldl_keep) | (with_reducible apply foldl_keep_fst) | split | (dsimp only [id])))

theorem execMaintWipe_keep {T U : Prop} {r : State} {x0} {x1} (h : Keep T U r x1) : Keep T U r (@execMaintWipe x0 x1) := by
  unfold execMaintWipe
  (try dsimp only)
  repeat' (first | (with_reducible assumption) | (with_reducible exact fun _ => rfl) | (with_reducible exact fun x => False.elim x) | (with_reducible apply State.request_keep) | (with_reducible apply State.askWipe_keep) | (with_reducible apply State.respond_keep) | (with_reducible apply foldl_keep) | (with_reducible apply foldl_keep_fst) | split | (intro _) | (dsimp only [id]) | (with_reducible apply Keep.upd; first | (with_reducible assumption) | (with_reducible exact fun _ => rfl) | (with_reducible exact fun x => False.elim x) | (with_reducible apply State.request_keep) | (with_reducible apply State.askWipe_keep) | (with_reducible apply State.respond_keep) | (with_reducible apply foldl_keep) | (with_reducible apply foldl_keep_fst) | split | (dsimp only [id])))

theorem execMaintMargin_keep {T U : Prop} {r : State} {x0} {x1} {x2} {x3} {x4} {x5} (h : Keep T U r x5) : Keep T U r (@execMaintMargin x0 x1 x2 x3 x4 x5) := by
  unfold execMaintMargin
  (try dsimp only)
  repeat' (first | (with_reducible assumption) | (with_reducible exact fun _ => rfl) | (with_reducible exact fun x => False.elim x) | (with_reducible apply State.request_keep) | (with_reducible apply State.expertOnly_keep) | (with_reducible apply State.badField_keep) | (with_reducible apply State.respond_keep) | (refine Keep.of_ok (by assumption) ?_; with_reducible apply State.takePass_keep) | (with_reducible apply State.busyPass_keep) | (with_reducible apply State.modHm_keep) | (with_reducible apply foldl_keep) | (with_reducible apply foldl_keep_fst) | split | (intro _) | (dsimp only [id]) | (with_reducible apply Keep.upd; first | (with_reducible assumption) | (with_reducible exact fun _ => rfl) | (with_reducible exact fun x => False.elim x) | (with_reducible apply State.request_keep) | (with_reducible apply State.expertOnly_keep) | (with_reducible apply State.badField_keep) | (with_reducible apply State.respond_keep) | (refine Keep.of_ok (by assumption) ?_; with_reducible apply State.takePass_keep) | (with_reducible apply State.busyPass_keep) | (with_reducible apply State.modHm_keep) | (with_reducible apply foldl_keep) | (with_reducible apply foldl_keep_fst) | split | (dsimp only [id])))

theorem execMaintNetcfg_keep {T U : Prop} {r : State} {x0} {x1} {x2} {x3} (h : Keep T U r x3) : Keep T U r (@execMaintNetcfg x0 x1 x2 x3) := by
  unfold execMaintNetcfg
  (try dsimp only)
  repeat' (first | (with_reducible assumption) | (with_reducible exact fun _ => rfl) | (with_reducible exact fun x => False.elim x) | (with_reducible apply State.request_keep) | (with_reducible apply State.respond_keep) | (with_reducible apply foldl_keep) | (with_reducible apply foldl_keep_fst) | split | (intro _) | (dsimp only [id]) | (with_reducible apply Keep.upd; first | (with_reducible assumption) | (with_reducible exact fun _ => rfl) | (with_reducible exact fun x => False.elim x) | (with_reducible apply State.request_keep) | (with_reducible apply State.respond_keep) | (with_reducible apply foldl_keep) | (with_reducible apply foldl_keep_fst) | split | (dsimp only [id])))

theorem execMaintReturn_keep {T U : Prop} {r : State} {x0} {x1} (h : Keep T U r x1) : Keep T U r (@execMaintReturn x0 x1) := by
  unfold execMaintReturn
  (try dsimp only)
  repeat' (first | (with_reducible assumption) | (with_reducible exact fun _ => rfl) | (with_reducible exact fun x => False.elim x) | (with_reducible apply State.request_keep) | (with_reducible apply State.deny_keep) | (with_reducible apply State.respond_keep) | (with_reducible apply State.askWipe_keep) | (with_reducible apply foldl_keep) | (with_reducible apply foldl_keep_fst) | split | (intro _) | (dsimp only [id]) | (with_reducible apply Keep.upd; first | (with_reducible assumption) | (with_reducible exact fun _ => rfl) | (with_reducible exact fun x => False.elim x) | (with_reducible apply State.request_keep) | (with_reducible apply State.deny_keep) | (with_reducible apply State.respond_keep) | (with_reducible apply State.askWipe_keep) | (with_reducible apply foldl_keep) | (with_reducible apply foldl_keep_fst) | split | (dsimp only [id])))

theorem execReturnCancel_keep {T U : Prop} {r : State} {x0} {x1} (h : Keep T U r x1) : Keep T U r (@execReturnCancel x0 x1) := by
  unfold execReturnCancel
  (try dsimp only)
  repeat' (first | (with_reducible assumption) | (with_reducible exact fun _ => rfl) | (with_reducible exact fun x => False.elim x) | (with_reducible apply State.request_keep) | (with_reducible apply State.expertOnly_keep) | (with_reducible apply State.respond_keep) | (with_reducible apply State.keep_keep) | (with_reducible apply foldl_keep) | (with_reducible apply foldl_keep_fst) | split | (intro _) | (dsimp only [id]) | (with_reducible apply Keep.upd; first | (with_reducible assumption) | (with_reducible exact fun _ => rfl) | (with_reducible exact fun x => False.elim x) | (with_reducible apply State.request_keep) | (with_reducible apply State.expertOnly_keep) | (with_reducible apply State.respond_keep) | (with_reducible apply State.keep_keep) | (with_reducible apply foldl_keep) | (with_reducible apply foldl_keep_fst) | split | (dsimp only [id])))

theorem State.noteToken_keep {T U : Prop} {r : State} {x0} {x1} {x2} (h : Keep T U r x0) : Keep T U r (@State.noteToken x0 x1 x2) := by
  unfold State.noteToken
  (try dsimp only)
  repeat' (first | (with_reducible assumption) | (with_reducible exact fun _ => rfl) | (with_reducible exact fun x => False.elim x) | (with_reducible apply State.burn_keep) | (with_reducible apply foldl_keep) | (with_reducible apply foldl_keep_fst) | split | (intro _) | (dsimp only [id]) | (with_reducible apply Keep.upd; first | (with_reducible assumption) | (with_reducible exact fun _ => rfl) | (with_reducible exact fun x => False.elim x) | (with_reducible apply State.burn_keep) | (with_reducible apply foldl_keep) | (with_reducible apply foldl_keep_fst) | split | (dsimp only [id])))

theorem State.tokenFail_keep {T U : Prop} {r : State} {x0} {x1} {x2} {x3} {x4} {x5} (h : Keep T U r x0) : Keep T U r (@State.tokenFail x0 x1 x2 x3 x4 x5) := by
  unfold State.tokenFail
  (try dsimp only)
  repeat' (first | (with_reducible assumption) | (with_reducible exact fun _ => rfl) | (with_reducible exact fun x => False.elim x) | (with_reducible apply State.logAt_keep) | (with_reducible apply State.bump_keep) | (with_reducible apply foldl_keep) | (with_reducible apply foldl_keep_fst) | split | (intro _) | (dsimp only [id]) | (with_reducible apply Keep.upd; first | (with_reducible assumption) | (with_reducible exact fun _ => rfl) | (with_reducible exact fun x => False.elim x) | (with_reducible apply State.logAt_keep) | (with_reducible apply State.bump_keep) | (with_reducible apply foldl_keep) | (with_reducible apply foldl_keep_fst) | split | (dsimp only [id])))

theorem State.present_keep {T U : Prop} {r : State} {x0} {x1} {x2} {x3} {x4} {x5} (h : Keep T U r x0) (g5 : ∀ y0, Keep T U r y0 → Keep T U r (x5 y0)) : Keep T U r (@State.present x0 x1 x2 x3 x4 x5) := by
  unfold State.present
  (try dsimp only)
  repeat' (first | (with_reducible assumption) | (with_reducible exact fun _ => rfl) | (with_reducible exact fun x => False.elim x) | (with_reducible apply g5) | (with_reducible apply State.request_keep) | (with_reducible apply State.noteToken_keep) | (with_reducible apply State.respond_keep) | (with_reducible apply State.tokenFail_keep) | (with_reducible apply foldl_keep) | (with_reducible apply foldl_keep_fst) | split | (intro _) | (dsimp only [id]) | (with_reducible apply Keep.upd; first | (with_reducible assumption) | (with_reducible exact fun _ => rfl) | (with_reducible exact fun x => False.elim x) | (with_reducible apply g5) | (with_reducible apply State.request_keep) | (with_reducible apply State.noteToken_keep) | (with_reducible apply State.respond_keep) | (with_reducible apply State.tokenFail_keep) | (with_reducible apply foldl_keep) | (with_reducible apply foldl_keep_fst) | split | (dsimp only [id])))

theorem State.endService_keep {T U : Prop} {r : State} {x0} (h : Keep T U r x0) : Keep T U r (@State.endService x0) := by
  unfold State.endService
  (try dsimp only)
  repeat' (first | (with_reducible assumption) | (with_reducible exact fun _ => rfl) | (with_reducible exact fun x => False.elim x) | (with_reducible apply foldl_keep) | (with_reducible apply foldl_keep_fst) | split | (intro _) | (dsimp only [id]) | (with_reducible apply Keep.upd; first | (with_reducible assumption) | (with_reducible exact fun _ => rfl) | (with_reducible exact fun x => False.elim x) | (with_reducible apply foldl_keep) | (with_reducible apply foldl_keep_fst) | split | (dsimp only [id])))

theorem execTokenServiceMode_keep {T U : Prop} {r : State} {x0} {x1} {x2} (h : Keep T U r x2) : Keep T U r (@execTokenServiceMode x0 x1 x2) := by
  unfold execTokenServiceMode
  (try dsimp only)
  repeat' (first | (with_reducible assumption) | (with_reducible exact fun _ => rfl) | (with_reducible exact fun x => False.elim x) | (with_reducible apply State.present_keep) | (with_reducible apply State.respond_keep) | (with_reducible apply State.endService_keep) | (with_reducible apply foldl_keep) | (with_reducible apply foldl_keep_fst) | split | (intro _) | (dsimp only [id]) | (with_reducible apply Keep.upd; first | (with_reducible assumption) | (with_reducible exact fun _ => rfl) | (with_reducible exact fun x => False.elim x) | (with_reducible apply State.present_keep) | (with_reducible apply State.respond_keep) | (with_reducible apply State.endService_keep) | (with_reducible apply foldl_keep) | (with_reducible apply foldl_keep_fst) | split | (dsimp only [id])))

theorem execServiceModeExpiry_keep {T U : Prop} {r : State} {x0} (h : Keep T U r x0) : Keep T U r (@execServiceModeExpiry x0) := by
  unfold execServiceModeExpiry
  (try dsimp only)
  repeat' (first | (with_reducible assumption) | (with_reducible exact fun _ => rfl) | (with_reducible exact fun x => False.elim x) | (with_reducible apply State.endService_keep) | (with_reducible apply foldl_keep) | (with_reducible apply foldl_keep_fst) | split | (intro _) | (dsimp only [id]) | (with_reducible apply Keep.upd; first | (with_reducible assumption) | (with_reducible exact fun _ => rfl) | (with_reducible exact fun x => False.elim x) | (with_reducible apply State.endService_keep) | (with_reducible apply foldl_keep) | (with_reducible apply foldl_keep_fst) | split | (dsimp only [id])))

theorem execTokenFactoryUnlock_keep {T U : Prop} {r : State} {x0} {x1} {x2} (h : Keep T U r x2) : Keep T U r (@execTokenFactoryUnlock x0 x1 x2) := by
  unfold execTokenFactoryUnlock
  (try dsimp only)
  repeat' (first | (with_reducible assumption) | (with_reducible exact fun _ => rfl) | (with_reducible exact fun x => False.elim x) | (with_reducible apply State.present_keep) | (with_reducible apply State.askWipe_keep) | (with_reducible apply State.respond_keep) | (with_reducible apply foldl_keep) | (with_reducible apply foldl_keep_fst) | split | (intro _) | (dsimp only [id]) | (with_reducible apply Keep.upd; first | (with_reducible assumption) | (with_reducible exact fun _ => rfl) | (with_reducible exact fun x => False.elim x) | (with_reducible apply State.present_keep) | (with_reducible apply State.askWipe_keep) | (with_reducible apply State.respond_keep) | (with_reducible apply foldl_keep) | (with_reducible apply foldl_keep_fst) | split | (dsimp only [id])))

theorem execTokenReinstatement_keep {T U : Prop} {r : State} {x0} {x1} {x2} (h : Keep T U r x2) : Keep T U r (@execTokenReinstatement x0 x1 x2) := by
  unfold execTokenReinstatement
  (try dsimp only)
  repeat' (first | (with_reducible assumption) | (with_reducible exact fun _ => rfl) | (with_reducible exact fun x => False.elim x) | (with_reducible apply State.present_keep) | (with_reducible apply State.respond_keep) | (with_reducible apply State.keep_keep) | (with_reducible apply foldl_keep) | (with_reducible apply foldl_keep_fst) | split | (intro _) | (dsimp only [id]) | (with_reducible apply Keep.upd; first | (with_reducible assumption) | (with_reducible exact fun _ => rfl) | (with_reducible exact fun x => False.elim x) | (with_reducible apply State.present_keep) | (with_reducible apply State.respond_keep) | (with_reducible apply State.keep_keep) | (with_reducible apply foldl_keep) | (with_reducible apply foldl_keep_fst) | split | (dsimp only [id])))

theorem State.installOwner_keep {T U : Prop} {r : State} {x0} {x1} (h : Keep T U r x0) : Keep T U r (@State.installOwner x0 x1) := by
  unfold State.installOwner
  (try dsimp only)
  repeat' (first | (with_reducible assumption) | (with_reducible exact fun _ => rfl) | (with_reducible exact fun x => False.elim x) | (with_reducible apply State.keep_keep) | (with_reducible apply foldl_keep) | (with_reducible apply foldl_keep_fst) | split | (intro _) | (dsimp only [id]) | (with_reducible apply Keep.upd; first | (with_reducible assumption) | (with_reducible exact fun _ => rfl) | (with_reducible exact fun x => False.elim x) | (with_reducible apply State.keep_keep) | (with_reducible apply foldl_keep) | (with_reducible apply foldl_keep_fst) | split | (dsimp only [id])))

theorem execTokenOwnerTransfer_keep {T U : Prop} {r : State} {x0} {x1} {x2} (h : Keep T U r x2) : Keep T U r (@execTokenOwnerTransfer x0 x1 x2) := by
  unfold execTokenOwnerTransfer
  (try dsimp only)
  repeat' (first | (with_reducible assumption) | (with_reducible exact fun _ => rfl) | (with_reducible exact fun x => False.elim x) | (with_reducible apply State.present_keep) | (with_reducible apply State.respond_keep) | (with_reducible apply State.installOwner_keep) | (with_reducible apply foldl_keep) | (with_reducible apply foldl_keep_fst) | split | (intro _) | (dsimp only [id]) | (with_reducible apply Keep.upd; first | (with_reducible assumption) | (with_reducible exact fun _ => rfl) | (with_reducible exact fun x => False.elim x) | (with_reducible apply State.present_keep) | (with_reducible apply State.respond_keep) | (with_reducible apply State.installOwner_keep) | (with_reducible apply foldl_keep) | (with_reducible apply foldl_keep_fst) | split | (dsimp only [id])))

theorem execOwnershipToken_keep {T U : Prop} {r : State} {x0} {x1} {x2} {x3} (h : Keep T U r x3) : Keep T U r (@execOwnershipToken x0 x1 x2 x3) := by
  unfold execOwnershipToken
  (try dsimp only)
  repeat' (first | (with_reducible assumption) | (with_reducible exact fun _ => rfl) | (with_reducible exact fun x => False.elim x) | (with_reducible apply State.finishFrame_keep) | (with_reducible apply State.noteToken_keep) | (with_reducible apply State.installOwner_keep) | (with_reducible apply State.finish_keep) | (with_reducible apply State.tokenFail_keep) | (with_reducible apply foldl_keep) | (with_reducible apply foldl_keep_fst) | split | (intro _) | (dsimp only [id]) | (with_reducible apply Keep.upd; first | (with_reducible assumption) | (with_reducible exact fun _ => rfl) | (with_reducible exact fun x => False.elim x) | (with_reducible apply State.finishFrame_keep) | (with_reducible apply State.noteToken_keep) | (with_reducible apply State.installOwner_keep) | (with_reducible apply State.finish_keep) | (with_reducible apply State.tokenFail_keep) | (with_reducible apply foldl_keep) | (with_reducible apply foldl_keep_fst) | split | (dsimp only [id])))

theorem execAttestReport_keep {T U : Prop} {r : State} {x0} {x1} {x2} (h : Keep T U r x2) : Keep T U r (@execAttestReport x0 x1 x2) := by
  unfold execAttestReport
  (try dsimp only)
  repeat' (first | (with_reducible assumption) | (with_reducible exact fun _ => rfl) | (with_reducible exact fun x => False.elim x) | (with_reducible apply State.request_keep) | (with_reducible apply State.respond_keep) | (with_reducible apply State.burn_keep) | (with_reducible apply foldl_keep) | (with_reducible apply foldl_keep_fst) | split | (intro _) | (dsimp only [id]) | (with_reducible apply Keep.upd; first | (with_reducible assumption) | (with_reducible exact fun _ => rfl) | (with_reducible exact fun x => False.elim x) | (with_reducible apply State.request_keep) | (with_reducible apply State.respond_keep) | (with_reducible apply State.burn_keep) | (with_reducible apply foldl_keep) | (with_reducible apply foldl_keep_fst) | split | (dsimp only [id])))

theorem execAttestCerts_keep {T U : Prop} {r : State} {x0} {x1} (h : Keep T U r x1) : Keep T U r (@execAttestCerts x0 x1) := by
  unfold execAttestCerts
  (try dsimp only)
  repeat' (first | (with_reducible assumption) | (with_reducible exact fun _ => rfl) | (with_reducible exact fun x => False.elim x) | (with_reducible apply State.request_keep) | (with_reducible apply State.respond_keep) | (with_reducible apply foldl_keep) | (with_reducible apply foldl_keep_fst) | split | (intro _) | (dsimp only [id]) | (with_reducible apply Keep.upd; first | (with_reducible assumption) | (with_reducible exact fun _ => rfl) | (with_reducible exact fun x => False.elim x) | (with_reducible apply State.request_keep) | (with_reducible apply State.respond_keep) | (with_reducible apply foldl_keep) | (with_reducible apply foldl_keep_fst) | split | (dsimp only [id])))

theorem State.wipeKeys_keep {T U : Prop} {r : State} {x0} {x1} (h : Keep T U r x0) : Keep T U r (@State.wipeKeys x0 x1) := by
  unfold State.wipeKeys
  (try dsimp only)
  repeat' (first | (with_reducible assumption) | (with_reducible exact fun _ => rfl) | (with_reducible exact fun x => False.elim x) | (with_reducible apply State.newKeys_keep) | (with_reducible apply foldl_keep) | (with_reducible apply foldl_keep_fst) | split | (intro _) | (dsimp only [id]) | (with_reducible apply Keep.upd; first | (with_reducible assumption) | (with_reducible exact fun _ => rfl) | (with_reducible exact fun x => False.elim x) | (with_reducible apply State.newKeys_keep) | (with_reducible apply foldl_keep) | (with_reducible apply foldl_keep_fst) | split | (dsimp only [id])))

theorem State.dropDump_keep {T U : Prop} {r : State} {x0} {x1} (h : Keep T U r x0) : Keep T U r (@State.dropDump x0 x1) := by
  unfold State.dropDump
  (try dsimp only)
  repeat' (first | (with_reducible assumption) | (with_reducible exact fun _ => rfl) | (with_reducible exact fun x => False.elim x) | (with_reducible apply eachOf_keep) | (with_reducible apply State.modHm_keep) | (with_reducible apply State.respond_keep) | (with_reducible apply foldl_keep) | (with_reducible apply foldl_keep_fst) | split | (intro _) | (dsimp only [id]) | (with_reducible apply Keep.upd; first | (with_reducible assumption) | (with_reducible exact fun _ => rfl) | (with_reducible exact fun x => False.elim x) | (with_reducible apply eachOf_keep) | (with_reducible apply State.modHm_keep) | (with_reducible apply State.respond_keep) | (with_reducible apply foldl_keep) | (with_reducible apply foldl_keep_fst) | split | (dsimp only [id])))

theorem State.showWipe_keep {T U : Prop} {r : State} {x0} {x1} {x2} (h : Keep T U r x0) : Keep T U r (@State.showWipe x0 x1 x2) := by
  unfold State.showWipe
  (try dsimp only)
  repeat' (first | (with_reducible assumption) | (with_reducible exact fun _ => rfl) | (with_reducible exact fun x => False.elim x) | (with_reducible apply State.burn_keep) | (with_reducible apply State.keep_keep) | (with_reducible apply foldl_keep) | (with_reducible apply foldl_keep_fst) | split | (intro _) | (dsimp only [id]) | (with_reducible apply Keep.upd; first | (with_reducible assumption) | (with_reducible exact fun _ => rfl) | (with_reducible exact fun x => False.elim x) | (with_reducible apply State.burn_keep) | (with_reducible apply State.keep_keep) | (with_reducible apply foldl_keep) | (with_reducible apply foldl_keep_fst) | split | (dsimp only [id])))

theorem State.dropResets_keep {T U : Prop} {r : State} {x0} {x1} (h : Keep T U r x0) : Keep T U r (@State.dropResets x0 x1) := by
  unfold State.dropResets
  (try dsimp only)
  repeat' (first | (with_reducible assumption) | (with_reducible exact fun _ => rfl) | (with_reducible exact fun x => False.elim x) | (with_reducible apply State.endEngine_keep) | (with_reducible apply foldl_keep) | (with_reducible apply foldl_keep_fst) | split | (intro _) | (dsimp only [id]) | (with_reducible apply Keep.upd; first | (with_reducible assumption) | (with_reducible exact fun _ => rfl) | (with_reducible exact fun x => False.elim x) | (with_reducible apply State.endEngine_keep) | (with_reducible apply foldl_keep) | (with_reducible apply foldl_keep_fst) | split | (dsimp only [id])))

theorem State.beginWipe_keep {T : Prop} {r : State} {x0} {x1} (h : Keep T False r x0) : Keep T False r (@State.beginWipe x0 x1) := by
  unfold State.beginWipe
  (try dsimp only)
  repeat' (first | (with_reducible assumption) | (with_reducible exact fun _ => rfl) | (with_reducible exact fun x => False.elim x) | (with_reducible apply eachOf_keep) | (with_reducible apply State.modSeat_keep) | (with_reducible apply State.dropSeat_keep) | (with_reducible apply State.stopCores_keep) | (with_reducible apply State.modHm_keep) | (with_reducible apply State.dropDump_keep) | (with_reducible apply State.wipeLinks_keep) | (with_reducible apply State.zeroSram_keep) | (with_reducible apply State.wipeKeys_keep) | (with_reducible apply State.dropResets_keep) | (with_reducible apply foldl_keep) | (with_reducible apply foldl_keep_fst) | split | (intro _) | (dsimp only [id]) | (with_reducible apply Keep.upd; first | (with_reducible assumption) | (with_reducible exact fun _ => rfl) | (with_reducible exact fun x => False.elim x) | (with_reducible apply eachOf_keep) | (with_reducible apply State.modSeat_keep) | (with_reducible apply State.dropSeat_keep) | (with_reducible apply State.stopCores_keep) | (with_reducible apply State.modHm_keep) | (with_reducible apply State.dropDump_keep) | (with_reducible apply State.wipeLinks_keep) | (with_reducible apply State.zeroSram_keep) | (with_reducible apply State.wipeKeys_keep) | (with_reducible apply State.dropResets_keep) | (with_reducible apply foldl_keep) | (with_reducible apply foldl_keep_fst) | split | (dsimp only [id])))

theorem execWipeStart_keep {T : Prop} {r : State} {x0} {x1} (h : Keep T False r x1) : Keep T False r (@execWipeStart x0 x1) := by
  unfold execWipeStart
  (try dsimp only)
  repeat' (first | (with_reducible assumption) | (with_reducible exact fun _ => rfl) | (with_reducible exact fun x => False.elim x) | (with_reducible apply State.showWipe_keep) | (with_reducible apply State.wipePass_keep) | (with_reducible apply State.beginWipe_keep) | (with_reducible apply foldl_keep) | (with_reducible apply foldl_keep_fst) | split | (intro _) | (dsimp only [id]) | (with_reducible apply Keep.upd; first | (with_reducible assumption) | (with_reducible exact fun _ => rfl) | (with_reducible exact fun x => False.elim x) | (with_reducible apply State.showWipe_keep) | (with_reducible apply State.wipePass_keep) | (with_reducible apply State.beginWipe_keep) | (with_reducible apply foldl_keep) | (with_reducible apply foldl_keep_fst) | split | (dsimp only [id])))

theorem State.clearField_keep {U : Prop} {r : State} {x0} {x1} (h : Keep False U r x0) : Keep False U r (@State.clearField x0 x1) := by
  unfold State.clearField
  apply State.modHm_keep
  have g := State.zeroLpddr_keep (x1 := x1) h
  exact ⟨g.pending, fun c => let y := g.canonical c
    ⟨y.mem, y.cores, y.fields, y.links, y.seats, Tab.wf_filter _ _ _ y.counters, y.coreIx, y.fieldIx, y.linkIx⟩, fun x => x.elim, fun x => let y := g.place x; ⟨y.layout, y.walk⟩⟩

theorem State.clearPart_keep {T U : Prop} {r : State} {x0} {x1} (h : Keep T U r x0) : Keep T U r (@State.clearPart x0 x1) := by
  unfold State.clearPart
  (try dsimp only)
  repeat' (first | (with_reducible assumption) | (with_reducible exact fun _ => rfl) | (with_reducible exact fun x => False.elim x) | (with_reducible apply State.endTenants_keep) | (with_reducible apply State.modSeat_keep) | (with_reducible apply State.clearLogs_keep) | (with_reducible apply foldl_keep) | (with_reducible apply foldl_keep_fst) | split | (intro _) | (dsimp only [id]) | (with_reducible apply Keep.upd; first | (with_reducible assumption) | (with_reducible exact fun _ => rfl) | (with_reducible exact fun x => False.elim x) | (with_reducible apply State.endTenants_keep) | (with_reducible apply State.modSeat_keep) | (with_reducible apply State.clearLogs_keep) | (with_reducible apply foldl_keep) | (with_reducible apply foldl_keep_fst) | split | (dsimp only [id])))

theorem State.finishWipe_keep {T U : Prop} {r : State} {x0} {x1} {x2} (h : Keep T U r x0) : Keep T U r (@State.finishWipe x0 x1 x2) := by
  unfold State.finishWipe
  (try dsimp only)
  repeat' (first | (with_reducible assumption) | (with_reducible exact fun _ => rfl) | (with_reducible exact fun x => False.elim x) | (with_reducible apply State.endWipePass_keep) | (with_reducible apply State.keep_keep) | (with_reducible apply foldl_keep) | (with_reducible apply foldl_keep_fst) | split | (intro _) | (dsimp only [id]) | (with_reducible apply Keep.upd; first | (with_reducible assumption) | (with_reducible exact fun _ => rfl) | (with_reducible exact fun x => False.elim x) | (with_reducible apply State.endWipePass_keep) | (with_reducible apply State.keep_keep) | (with_reducible apply foldl_keep) | (with_reducible apply foldl_keep_fst) | split | (dsimp only [id])))

theorem State.afterWipe_keep {r : State} {x0} {x1} (h : Keep False False r x0) : Keep False False r (@State.afterWipe x0 x1) := by
  unfold State.afterWipe
  (try dsimp only)
  repeat' (first | (with_reducible assumption) | (with_reducible exact fun _ => rfl) | (with_reducible exact fun x => False.elim x) | (with_reducible apply State.endPartition_keep) | (with_reducible apply State.respond_keep) | (with_reducible apply State.endAllTenants_keep) | (with_reducible apply State.keep_keep) | (with_reducible apply foldl_keep) | (with_reducible apply foldl_keep_fst) | split | (intro _) | (dsimp only [id]) | (with_reducible apply Keep.upd; first | (with_reducible assumption) | (with_reducible exact fun _ => rfl) | (with_reducible exact fun x => False.elim x) | (with_reducible apply State.endPartition_keep) | (with_reducible apply State.respond_keep) | (with_reducible apply State.endAllTenants_keep) | (with_reducible apply State.keep_keep) | (with_reducible apply foldl_keep) | (with_reducible apply foldl_keep_fst) | split | (dsimp only [id])) | (with_reducible apply Keep.updClk; first | (with_reducible assumption) | (with_reducible exact fun _ => rfl) | (with_reducible exact fun x => False.elim x) | (with_reducible apply State.endPartition_keep) | (with_reducible apply State.respond_keep) | (with_reducible apply State.endAllTenants_keep) | (with_reducible apply State.keep_keep) | (with_reducible apply foldl_keep) | (with_reducible apply foldl_keep_fst) | split | (dsimp only [id]) | (with_reducible apply Keep.upd; first | (with_reducible assumption) | (with_reducible exact fun _ => rfl) | (with_reducible exact fun x => False.elim x) | (with_reducible apply State.endPartition_keep) | (with_reducible apply State.respond_keep) | (with_reducible apply State.endAllTenants_keep) | (with_reducible apply State.keep_keep) | (with_reducible apply foldl_keep) | (with_reducible apply foldl_keep_fst) | split | (dsimp only [id]))))

theorem execWipeLpddrDone_keep {r : State} {x0} {x1} (h : Keep False False r x1) : Keep False False r (@execWipeLpddrDone x0 x1) := by
  unfold execWipeLpddrDone
  (try dsimp only)
  repeat' (first | (with_reducible assumption) | (with_reducible exact fun _ => rfl) | (with_reducible exact fun x => False.elim x) | (with_reducible apply eachOf_keep) | (with_reducible apply State.clearField_keep) | (with_reducible apply State.clearPart_keep) | (with_reducible apply State.startResetDumps_keep) | (with_reducible apply State.afterWipe_keep) | (with_reducible apply State.finishWipe_keep) | (with_reducible apply foldl_keep) | (with_reducible apply foldl_keep_fst) | split | (intro _) | (dsimp only [id]) | (with_reducible apply Keep.upd; first | (with_reducible assumption) | (with_reducible exact fun _ => rfl) | (with_reducible exact fun x => False.elim x) | (with_reducible apply eachOf_keep) | (with_reducible apply State.clearField_keep) | (with_reducible apply State.clearPart_keep) | (with_reducible apply State.startResetDumps_keep) | (with_reducible apply State.afterWipe_keep) | (with_reducible apply State.finishWipe_keep) | (with_reducible apply foldl_keep) | (with_reducible apply foldl_keep_fst) | split | (dsimp only [id])) | (with_reducible apply Keep.updClk; first | (with_reducible assumption) | (with_reducible exact fun _ => rfl) | (with_reducible exact fun x => False.elim x) | (with_reducible apply eachOf_keep) | (with_reducible apply State.clearField_keep) | (with_reducible apply State.clearPart_keep) | (with_reducible apply State.startResetDumps_keep) | (with_reducible apply State.afterWipe_keep) | (with_reducible apply State.finishWipe_keep) | (with_reducible apply foldl_keep) | (with_reducible apply foldl_keep_fst) | split | (dsimp only [id]) | (with_reducible apply Keep.upd; first | (with_reducible assumption) | (with_reducible exact fun _ => rfl) | (with_reducible exact fun x => False.elim x) | (with_reducible apply eachOf_keep) | (with_reducible apply State.clearField_keep) | (with_reducible apply State.clearPart_keep) | (with_reducible apply State.startResetDumps_keep) | (with_reducible apply State.afterWipe_keep) | (with_reducible apply State.finishWipe_keep) | (with_reducible apply foldl_keep) | (with_reducible apply foldl_keep_fst) | split | (dsimp only [id]))))

theorem State.solicit_keep {T U : Prop} {r : State} {x0} (h : Keep T U r x0) : Keep T U r (@State.solicit x0) := by
  unfold State.solicit
  (try dsimp only)
  repeat' (first | (with_reducible assumption) | (with_reducible exact fun _ => rfl) | (with_reducible exact fun x => False.elim x) | (with_reducible apply State.send_keep) | (with_reducible apply foldl_keep) | (with_reducible apply foldl_keep_fst) | split | (intro _) | (dsimp only [id]) | (with_reducible apply Keep.upd; first | (with_reducible assumption) | (with_reducible exact fun _ => rfl) | (with_reducible exact fun x => False.elim x) | (with_reducible apply State.send_keep) | (with_reducible apply foldl_keep) | (with_reducible apply foldl_keep_fst) | split | (dsimp only [id])))

theorem execBootSolicit_keep {T U : Prop} {r : State} {x0} (h : Keep T U r x0) : Keep T U r (@execBootSolicit x0) := by
  unfold execBootSolicit
  (try dsimp only)
  repeat' (first | (with_reducible assumption) | (with_reducible exact fun _ => rfl) | (with_reducible exact fun x => False.elim x) | (with_reducible apply State.solicit_keep) | (with_reducible apply foldl_keep) | (with_reducible apply foldl_keep_fst) | split | (intro _) | (dsimp only [id]) | (with_reducible apply Keep.upd; first | (with_reducible assumption) | (with_reducible exact fun _ => rfl) | (with_reducible exact fun x => False.elim x) | (with_reducible apply State.solicit_keep) | (with_reducible apply foldl_keep) | (with_reducible apply foldl_keep_fst) | split | (dsimp only [id])))

theorem State.bootFail_keep {T U : Prop} {r : State} {x0} {x1} (h : Keep T U r x0) : Keep T U r (@State.bootFail x0 x1) := by
  unfold State.bootFail
  (try dsimp only)
  repeat' (first | (with_reducible assumption) | (with_reducible exact fun _ => rfl) | (with_reducible exact fun x => False.elim x) | (with_reducible apply foldl_keep) | (with_reducible apply foldl_keep_fst) | split | (intro _) | (dsimp only [id]) | (with_reducible apply Keep.upd; first | (with_reducible assumption) | (with_reducible exact fun _ => rfl) | (with_reducible exact fun x => False.elim x) | (with_reducible apply foldl_keep) | (with_reducible apply foldl_keep_fst) | split | (dsimp only [id])))

theorem State.bootRead_keep {T U : Prop} {r : State} {x0} {x1} {x2} (h : Keep T U r x0) : Keep T U r (@State.bootRead x0 x1 x2) := by
  unfold State.bootRead
  (try dsimp only)
  repeat' (first | (with_reducible assumption) | (with_reducible exact fun _ => rfl) | (with_reducible exact fun x => False.elim x) | (with_reducible apply State.send_keep) | (with_reducible apply foldl_keep) | (with_reducible apply foldl_keep_fst) | split | (intro _) | (dsimp only [id]) | (with_reducible apply Keep.upd; first | (with_reducible assumption) | (with_reducible exact fun _ => rfl) | (with_reducible exact fun x => False.elim x) | (with_reducible apply State.send_keep) | (with_reducible apply foldl_keep) | (with_reducible apply foldl_keep_fst) | split | (dsimp only [id])))

theorem execBootAdvertise_keep {T U : Prop} {r : State} {x0} {x1} {x2} (h : Keep T U r x2) : Keep T U r (@execBootAdvertise x0 x1 x2) := by
  unfold execBootAdvertise
  (try dsimp only)
  repeat' (first | (with_reducible assumption) | (with_reducible exact fun _ => rfl) | (with_reducible exact fun x => False.elim x) | (with_reducible apply State.bootFail_keep) | (with_reducible apply State.bootRead_keep) | (with_reducible apply foldl_keep) | (with_reducible apply foldl_keep_fst) | split | (intro _) | (dsimp only [id]) | (with_reducible apply Keep.upd; first | (with_reducible assumption) | (with_reducible exact fun _ => rfl) | (with_reducible exact fun x => False.elim x) | (with_reducible apply State.bootFail_keep) | (with_reducible apply State.bootRead_keep) | (with_reducible apply foldl_keep) | (with_reducible apply foldl_keep_fst) | split | (dsimp only [id])))

theorem State.bootNext_keep {T U : Prop} {r : State} {x0} {x1} {x2} (h : Keep T U r x0) : Keep T U r (@State.bootNext x0 x1 x2) := by
  unfold State.bootNext
  (try dsimp only)
  repeat' (first | (with_reducible assumption) | (with_reducible exact fun _ => rfl) | (with_reducible exact fun x => False.elim x) | (with_reducible apply State.bootRead_keep) | (with_reducible apply foldl_keep) | (with_reducible apply foldl_keep_fst) | split | (intro _) | (dsimp only [id]) | (with_reducible apply Keep.upd; first | (with_reducible assumption) | (with_reducible exact fun _ => rfl) | (with_reducible exact fun x => False.elim x) | (with_reducible apply State.bootRead_keep) | (with_reducible apply foldl_keep) | (with_reducible apply foldl_keep_fst) | split | (dsimp only [id])))

theorem State.bootManifest_keep {T U : Prop} {r : State} {x0} {x1} (h : Keep T U r x0) : Keep T U r (@State.bootManifest x0 x1) := by
  unfold State.bootManifest
  (try dsimp only)
  repeat' (first | (with_reducible assumption) | (with_reducible exact fun _ => rfl) | (with_reducible exact fun x => False.elim x) | (with_reducible apply State.bootFail_keep) | (with_reducible apply State.bootRead_keep) | (with_reducible apply foldl_keep) | (with_reducible apply foldl_keep_fst) | split | (intro _) | (dsimp only [id]) | (with_reducible apply Keep.upd; first | (with_reducible assumption) | (with_reducible exact fun _ => rfl) | (with_reducible exact fun x => False.elim x) | (with_reducible apply State.bootFail_keep) | (with_reducible apply State.bootRead_keep) | (with_reducible apply foldl_keep) | (with_reducible apply foldl_keep_fst) | split | (dsimp only [id])))

theorem State.bootImage_keep {T U : Prop} {r : State} {x0} {x1} {x2} (h : Keep T U r x0) : Keep T U r (@State.bootImage x0 x1 x2) := by
  unfold State.bootImage
  (try dsimp only)
  repeat' (first | (with_reducible assumption) | (with_reducible exact fun _ => rfl) | (with_reducible exact fun x => False.elim x) | (with_reducible apply State.bootFail_keep) | (with_reducible apply State.showWipe_keep) | (with_reducible apply State.wipePass_keep) | (with_reducible apply foldl_keep) | (with_reducible apply foldl_keep_fst) | split | (intro _) | (dsimp only [id]) | (with_reducible apply Keep.upd; first | (with_reducible assumption) | (with_reducible exact fun _ => rfl) | (with_reducible exact fun x => False.elim x) | (with_reducible apply State.bootFail_keep) | (with_reducible apply State.showWipe_keep) | (with_reducible apply State.wipePass_keep) | (with_reducible apply foldl_keep) | (with_reducible apply foldl_keep_fst) | split | (dsimp only [id])))

theorem execBootReadResponse_keep {T U : Prop} {r : State} {x0} {x1} {x2} {x3} (h : Keep T U r x3) : Keep T U r (@execBootReadResponse x0 x1 x2 x3) := by
  unfold execBootReadResponse
  (try dsimp only)
  repeat' (first | (with_reducible assumption) | (with_reducible exact fun _ => rfl) | (with_reducible exact fun x => False.elim x) | (with_reducible apply State.bootNext_keep) | (with_reducible apply State.bootManifest_keep) | (with_reducible apply State.bootImage_keep) | (with_reducible apply foldl_keep) | (with_reducible apply foldl_keep_fst) | split | (intro _) | (dsimp only [id]) | (with_reducible apply Keep.upd; first | (with_reducible assumption) | (with_reducible exact fun _ => rfl) | (with_reducible exact fun x => False.elim x) | (with_reducible apply State.bootNext_keep) | (with_reducible apply State.bootManifest_keep) | (with_reducible apply State.bootImage_keep) | (with_reducible apply foldl_keep) | (with_reducible apply foldl_keep_fst) | split | (dsimp only [id])))

theorem execBootReadRetry_keep {T U : Prop} {r : State} {x0} (h : Keep T U r x0) : Keep T U r (@execBootReadRetry x0) := by
  unfold execBootReadRetry
  (try dsimp only)
  repeat' (first | (with_reducible assumption) | (with_reducible exact fun _ => rfl) | (with_reducible exact fun x => False.elim x) | (with_reducible apply State.bootRead_keep) | (with_reducible apply foldl_keep) | (with_reducible apply foldl_keep_fst) | split | (intro _) | (dsimp only [id]) | (with_reducible apply Keep.upd; first | (with_reducible assumption) | (with_reducible exact fun _ => rfl) | (with_reducible exact fun x => False.elim x) | (with_reducible apply State.bootRead_keep) | (with_reducible apply foldl_keep) | (with_reducible apply foldl_keep_fst) | split | (dsimp only [id])))

theorem execBootRetryTimer_keep {T U : Prop} {r : State} {x0} (h : Keep T U r x0) : Keep T U r (@execBootRetryTimer x0) := by
  unfold execBootRetryTimer
  (try dsimp only)
  repeat' (first | (with_reducible assumption) | (with_reducible exact fun _ => rfl) | (with_reducible exact fun x => False.elim x) | (with_reducible apply State.solicit_keep) | (with_reducible apply foldl_keep) | (with_reducible apply foldl_keep_fst) | split | (intro _) | (dsimp only [id]) | (with_reducible apply Keep.upd; first | (with_reducible assumption) | (with_reducible exact fun _ => rfl) | (with_reducible exact fun x => False.elim x) | (with_reducible apply State.solicit_keep) | (with_reducible apply foldl_keep) | (with_reducible apply foldl_keep_fst) | split | (dsimp only [id])))

theorem execBootWipeDone_keep {U : Prop} {r : State} {x0} (h : Keep False U r x0) : Keep False U r (@execBootWipeDone x0) := by
  unfold execBootWipeDone
  (try dsimp only)
  repeat' (first | (with_reducible assumption) | (with_reducible exact fun _ => rfl) | (with_reducible exact fun x => False.elim x) | (with_reducible apply State.wipeKeys_keep) | (with_reducible apply eachOf_keep) | (with_reducible apply State.zeroSram_keep) | (with_reducible apply State.clearField_keep) | (with_reducible apply State.finishWipe_keep) | (with_reducible apply foldl_keep) | (with_reducible apply foldl_keep_fst) | split | (intro _) | (dsimp only [id]) | (with_reducible apply Keep.upd; first | (with_reducible assumption) | (with_reducible exact fun _ => rfl) | (with_reducible exact fun x => False.elim x) | (with_reducible apply State.wipeKeys_keep) | (with_reducible apply eachOf_keep) | (with_reducible apply State.zeroSram_keep) | (with_reducible apply State.clearField_keep) | (with_reducible apply State.finishWipe_keep) | (with_reducible apply foldl_keep) | (with_reducible apply foldl_keep_fst) | split | (dsimp only [id])) | (with_reducible apply Keep.updClk; first | (with_reducible assumption) | (with_reducible exact fun _ => rfl) | (with_reducible exact fun x => False.elim x) | (with_reducible apply State.wipeKeys_keep) | (with_reducible apply eachOf_keep) | (with_reducible apply State.zeroSram_keep) | (with_reducible apply State.clearField_keep) | (with_reducible apply State.finishWipe_keep) | (with_reducible apply foldl_keep) | (with_reducible apply foldl_keep_fst) | split | (dsimp only [id]) | (with_reducible apply Keep.upd; first | (with_reducible assumption) | (with_reducible exact fun _ => rfl) | (with_reducible exact fun x => False.elim x) | (with_reducible apply State.wipeKeys_keep) | (with_reducible apply eachOf_keep) | (with_reducible apply State.zeroSram_keep) | (with_reducible apply State.clearField_keep) | (with_reducible apply State.finishWipe_keep) | (with_reducible apply foldl_keep) | (with_reducible apply foldl_keep_fst) | split | (dsimp only [id]))))

theorem State.seat2_keep {T U : Prop} {r : State} {x0} (h : Keep T U r x0) : Keep T U r (@State.seat2 x0) := by
  unfold State.seat2
  (try dsimp only)
  repeat' (first | (with_reducible assumption) | (with_reducible exact fun _ => rfl) | (with_reducible exact fun x => False.elim x) | (with_reducible apply State.modSeat_keep) | (with_reducible apply State.ckInterrupt_keep) | (with_reducible apply foldl_keep) | (with_reducible apply foldl_keep_fst) | split | (intro _) | (dsimp only [id]) | (with_reducible apply Keep.upd; first | (with_reducible assumption) | (with_reducible exact fun _ => rfl) | (with_reducible exact fun x => False.elim x) | (with_reducible apply State.modSeat_keep) | (with_reducible apply State.ckInterrupt_keep) | (with_reducible apply foldl_keep) | (with_reducible apply foldl_keep_fst) | split | (dsimp only [id])))

theorem execGen2Open_keep {T U : Prop} {r : State} {x0} {x1} {x2} {x3} {x4} (h : Keep T U r x4) : Keep T U r (@execGen2Open x0 x1 x2 x3 x4) := by
  unfold execGen2Open
  (try dsimp only)
  repeat' (first | (with_reducible assumption) | (with_reducible exact fun _ => rfl) | (with_reducible exact fun x => False.elim x) | (with_reducible apply State.bump_keep) | (with_reducible apply State.refuse2_keep) | (with_reducible apply State.answer2_keep) | (with_reducible apply State.seat2_keep) | (with_reducible apply State.setSlot_keep) | (with_reducible apply State.burn_keep) | (with_reducible apply foldl_keep) | (with_reducible apply foldl_keep_fst) | split | (intro _) | (dsimp only [id]) | (with_reducible apply Keep.upd; first | (with_reducible assumption) | (with_reducible exact fun _ => rfl) | (with_reducible exact fun x => False.elim x) | (with_reducible apply State.bump_keep) | (with_reducible apply State.refuse2_keep) | (with_reducible apply State.answer2_keep) | (with_reducible apply State.seat2_keep) | (with_reducible apply State.setSlot_keep) | (with_reducible apply State.burn_keep) | (with_reducible apply foldl_keep) | (with_reducible apply foldl_keep_fst) | split | (dsimp only [id])))

theorem execGen2Close_keep {T U : Prop} {r : State} {x0} {x1} (h : Keep T U r x1) : Keep T U r (@execGen2Close x0 x1) := by
  unfold execGen2Close
  (try dsimp only)
  repeat' (first | (with_reducible assumption) | (with_reducible exact fun _ => rfl) | (with_reducible exact fun x => False.elim x) | (with_reducible apply State.request2_keep) | (with_reducible apply doSessionClose_keep) | (with_reducible apply foldl_keep) | (with_reducible apply foldl_keep_fst) | split | (intro _) | (dsimp only [id]) | (with_reducible apply Keep.upd; first | (with_reducible assumption) | (with_reducible exact fun _ => rfl) | (with_reducible exact fun x => False.elim x) | (with_reducible apply State.request2_keep) | (with_reducible apply doSessionClose_keep) | (with_reducible apply foldl_keep) | (with_reducible apply foldl_keep_fst) | split | (dsimp only [id])))

theorem execGen2Info_keep {T U : Prop} {r : State} {x0} {x1} (h : Keep T U r x1) : Keep T U r (@execGen2Info x0 x1) := by
  unfold execGen2Info
  (try dsimp only)
  repeat' (first | (with_reducible assumption) | (with_reducible exact fun _ => rfl) | (with_reducible exact fun x => False.elim x) | (with_reducible apply State.request2_keep) | (with_reducible apply doSessionStatus_keep) | (with_reducible apply foldl_keep) | (with_reducible apply foldl_keep_fst) | split | (intro _) | (dsimp only [id]) | (with_reducible apply Keep.upd; first | (with_reducible assumption) | (with_reducible exact fun _ => rfl) | (with_reducible exact fun x => False.elim x) | (with_reducible apply State.request2_keep) | (with_reducible apply doSessionStatus_keep) | (with_reducible apply foldl_keep) | (with_reducible apply foldl_keep_fst) | split | (dsimp only [id])))

theorem execGen2Load_keep {T : Prop} {r : State} {x0} {x1} {x2} (h : Keep T False r x2) : Keep T False r (@execGen2Load x0 x1 x2) := by
  unfold execGen2Load
  (try dsimp only)
  repeat' (first | (with_reducible assumption) | (with_reducible exact fun _ => rfl) | (with_reducible exact fun x => False.elim x) | (with_reducible apply State.request2_keep) | (with_reducible apply doPlanBegin_keep) | (with_reducible apply doPlanData_keep) | (with_reducible apply doPlanCommit_keep) | (with_reducible apply foldl_keep) | (with_reducible apply foldl_keep_fst) | split | (intro _) | (dsimp only [id]) | (with_reducible apply Keep.upd; first | (with_reducible assumption) | (with_reducible exact fun _ => rfl) | (with_reducible exact fun x => False.elim x) | (with_reducible apply State.request2_keep) | (with_reducible apply doPlanBegin_keep) | (with_reducible apply doPlanData_keep) | (with_reducible apply doPlanCommit_keep) | (with_reducible apply foldl_keep) | (with_reducible apply foldl_keep_fst) | split | (dsimp only [id])))

theorem execGen2Weights_keep {T U : Prop} {r : State} {x0} {x1} {x2} (h : Keep T U r x2) : Keep T U r (@execGen2Weights x0 x1 x2) := by
  unfold execGen2Weights
  (try dsimp only)
  repeat' (first | (with_reducible assumption) | (with_reducible exact fun _ => rfl) | (with_reducible exact fun x => False.elim x) | (with_reducible apply State.request2_keep) | (with_reducible apply doShardData_keep) | (with_reducible apply doShardCommit_keep) | (with_reducible apply foldl_keep) | (with_reducible apply foldl_keep_fst) | split | (intro _) | (dsimp only [id]) | (with_reducible apply Keep.upd; first | (with_reducible assumption) | (with_reducible exact fun _ => rfl) | (with_reducible exact fun x => False.elim x) | (with_reducible apply State.request2_keep) | (with_reducible apply doShardData_keep) | (with_reducible apply doShardCommit_keep) | (with_reducible apply foldl_keep) | (with_reducible apply foldl_keep_fst) | split | (dsimp only [id])))

theorem execGen2Feed_keep {T U : Prop} {r : State} {x0} {x1} {x2} (h : Keep T U r x2) : Keep T U r (@execGen2Feed x0 x1 x2) := by
  unfold execGen2Feed
  (try dsimp only)
  repeat' (first | (with_reducible assumption) | (with_reducible exact fun _ => rfl) | (with_reducible exact fun x => False.elim x) | (with_reducible apply State.request2_keep) | (with_reducible apply doDeliverBegin_keep) | (with_reducible apply doDeliverData_keep) | (with_reducible apply foldl_keep) | (with_reducible apply foldl_keep_fst) | split | (intro _) | (dsimp only [id]) | (with_reducible apply Keep.upd; first | (with_reducible assumption) | (with_reducible exact fun _ => rfl) | (with_reducible exact fun x => False.elim x) | (with_reducible apply State.request2_keep) | (with_reducible apply doDeliverBegin_keep) | (with_reducible apply doDeliverData_keep) | (with_reducible apply foldl_keep) | (with_reducible apply foldl_keep_fst) | split | (dsimp only [id])))

theorem execGen2Go_keep {T : Prop} {r : State} {x0} {x1} (h : Keep T False r x1) : Keep T False r (@execGen2Go x0 x1) := by
  unfold execGen2Go
  (try dsimp only)
  repeat' (first | (with_reducible assumption) | (with_reducible exact fun _ => rfl) | (with_reducible exact fun x => False.elim x) | (with_reducible apply State.request2_keep) | (with_reducible apply doRunStart_keep) | (with_reducible apply foldl_keep) | (with_reducible apply foldl_keep_fst) | split | (intro _) | (dsimp only [id]) | (with_reducible apply Keep.upd; first | (with_reducible assumption) | (with_reducible exact fun _ => rfl) | (with_reducible exact fun x => False.elim x) | (with_reducible apply State.request2_keep) | (with_reducible apply doRunStart_keep) | (with_reducible apply foldl_keep) | (with_reducible apply foldl_keep_fst) | split | (dsimp only [id])))

theorem execGen2Halt_keep {T : Prop} {r : State} {x0} {x1} (h : Keep T False r x1) : Keep T False r (@execGen2Halt x0 x1) := by
  unfold execGen2Halt
  (try dsimp only)
  repeat' (first | (with_reducible assumption) | (with_reducible exact fun _ => rfl) | (with_reducible exact fun x => False.elim x) | (with_reducible apply State.request2_keep) | (with_reducible apply doRunStop_keep) | (with_reducible apply foldl_keep) | (with_reducible apply foldl_keep_fst) | split | (intro _) | (dsimp only [id]) | (with_reducible apply Keep.upd; first | (with_reducible assumption) | (with_reducible exact fun _ => rfl) | (with_reducible exact fun x => False.elim x) | (with_reducible apply State.request2_keep) | (with_reducible apply doRunStop_keep) | (with_reducible apply foldl_keep) | (with_reducible apply foldl_keep_fst) | split | (dsimp only [id])))

theorem State.fetch2_keep {T U : Prop} {r : State} {x0} {x1} {x2} {x3} {x4} (h : Keep T U r x0) : Keep T U r (@State.fetch2 x0 x1 x2 x3 x4) := by
  unfold State.fetch2
  (try dsimp only)
  repeat' (first | (with_reducible assumption) | (with_reducible exact fun _ => rfl) | (with_reducible exact fun x => False.elim x) | (with_reducible apply State.respond_keep) | (with_reducible apply State.piece_keep) | (with_reducible apply State.setSeat_keep) | (with_reducible apply foldl_keep) | (with_reducible apply foldl_keep_fst) | split | (intro _) | (dsimp only [id]) | (with_reducible apply Keep.upd; first | (with_reducible assumption) | (with_reducible exact fun _ => rfl) | (with_reducible exact fun x => False.elim x) | (with_reducible apply State.respond_keep) | (with_reducible apply State.piece_keep) | (with_reducible apply State.setSeat_keep) | (with_reducible apply foldl_keep) | (with_reducible apply foldl_keep_fst) | split | (dsimp only [id])))

theorem execGen2Fetch_keep {T U : Prop} {r : State} {x0} {x1} {x2} {x3} {x4} (h : Keep T U r x4) : Keep T U r (@execGen2Fetch x0 x1 x2 x3 x4) := by
  unfold execGen2Fetch
  (try dsimp only)
  repeat' (first | (with_reducible assumption) | (with_reducible exact fun _ => rfl) | (with_reducible exact fun x => False.elim x) | (with_reducible apply State.request2_keep) | (with_reducible apply State.fetch2_keep) | (with_reducible apply foldl_keep) | (with_reducible apply foldl_keep_fst) | split | (intro _) | (dsimp only [id]) | (with_reducible apply Keep.upd; first | (with_reducible assumption) | (with_reducible exact fun _ => rfl) | (with_reducible exact fun x => False.elim x) | (with_reducible apply State.request2_keep) | (with_reducible apply State.fetch2_keep) | (with_reducible apply foldl_keep) | (with_reducible apply foldl_keep_fst) | split | (dsimp only [id])))

theorem execGen2Regs_keep {T U : Prop} {r : State} {x0} {x1} {x2} (h : Keep T U r x2) : Keep T U r (@execGen2Regs x0 x1 x2) := by
  unfold execGen2Regs
  (try dsimp only)
  repeat' (first | (with_reducible assumption) | (with_reducible exact fun _ => rfl) | (with_reducible exact fun x => False.elim x) | (with_reducible apply State.request2_keep) | (with_reducible apply doReadRegs_keep) | (with_reducible apply foldl_keep) | (with_reducible apply foldl_keep_fst) | split | (intro _) | (dsimp only [id]) | (with_reducible apply Keep.upd; first | (with_reducible assumption) | (with_reducible exact fun _ => rfl) | (with_reducible exact fun x => False.elim x) | (with_reducible apply State.request2_keep) | (with_reducible apply doReadRegs_keep) | (with_reducible apply foldl_keep) | (with_reducible apply foldl_keep_fst) | split | (dsimp only [id])))

theorem execGen2Health_keep {T U : Prop} {r : State} {x0} {x1} (h : Keep T U r x1) : Keep T U r (@execGen2Health x0 x1) := by
  unfold execGen2Health
  (try dsimp only)
  repeat' (first | (with_reducible assumption) | (with_reducible exact fun _ => rfl) | (with_reducible exact fun x => False.elim x) | (with_reducible apply State.request2_keep) | (with_reducible apply doHealthCards_keep) | (with_reducible apply foldl_keep) | (with_reducible apply foldl_keep_fst) | split | (intro _) | (dsimp only [id]) | (with_reducible apply Keep.upd; first | (with_reducible assumption) | (with_reducible exact fun _ => rfl) | (with_reducible exact fun x => False.elim x) | (with_reducible apply State.request2_keep) | (with_reducible apply doHealthCards_keep) | (with_reducible apply foldl_keep) | (with_reducible apply foldl_keep_fst) | split | (dsimp only [id])))

theorem execGen2Reset_keep {T U : Prop} {r : State} {x0} {x1} {x2} (h : Keep T U r x2) : Keep T U r (@execGen2Reset x0 x1 x2) := by
  unfold execGen2Reset
  (try dsimp only)
  repeat' (first | (with_reducible assumption) | (with_reducible exact fun _ => rfl) | (with_reducible exact fun x => False.elim x) | (with_reducible apply State.request2_keep) | (with_reducible apply doResetContext_keep) | (with_reducible apply doResetPartition_keep) | (with_reducible apply State.deny_keep) | (with_reducible apply State.badField_keep) | (with_reducible apply foldl_keep) | (with_reducible apply foldl_keep_fst) | split | (intro _) | (dsimp only [id]) | (with_reducible apply Keep.upd; first | (with_reducible assumption) | (with_reducible exact fun _ => rfl) | (with_reducible exact fun x => False.elim x) | (with_reducible apply State.request2_keep) | (with_reducible apply doResetContext_keep) | (with_reducible apply doResetPartition_keep) | (with_reducible apply State.deny_keep) | (with_reducible apply State.badField_keep) | (with_reducible apply foldl_keep) | (with_reducible apply foldl_keep_fst) | split | (dsimp only [id])))

theorem execGen2Dump_keep {r : State} {x0} {x1} {x2} {x3} (h : Keep False False r x3) : Keep False False r (@execGen2Dump x0 x1 x2 x3) := by
  unfold execGen2Dump
  (try dsimp only)
  repeat' (first | (with_reducible assumption) | (with_reducible exact fun _ => rfl) | (with_reducible exact fun x => False.elim x) | (with_reducible apply State.request2_keep) | (with_reducible apply doDumpCollect_keep) | (with_reducible apply doDumpFetch_keep) | (with_reducible apply foldl_keep) | (with_reducible apply foldl_keep_fst) | split | (intro _) | (dsimp only [id]) | (with_reducible apply Keep.upd; first | (with_reducible assumption) | (with_reducible exact fun _ => rfl) | (with_reducible exact fun x => False.elim x) | (with_reducible apply State.request2_keep) | (with_reducible apply doDumpCollect_keep) | (with_reducible apply doDumpFetch_keep) | (with_reducible apply foldl_keep) | (with_reducible apply foldl_keep_fst) | split | (dsimp only [id])) | (with_reducible apply Keep.updClk; first | (with_reducible assumption) | (with_reducible exact fun _ => rfl) | (with_reducible exact fun x => False.elim x) | (with_reducible apply State.request2_keep) | (with_reducible apply doDumpCollect_keep) | (with_reducible apply doDumpFetch_keep) | (with_reducible apply foldl_keep) | (with_reducible apply foldl_keep_fst) | split | (dsimp only [id]) | (with_reducible apply Keep.upd; first | (with_reducible assumption) | (with_reducible exact fun _ => rfl) | (with_reducible exact fun x => False.elim x) | (with_reducible apply State.request2_keep) | (with_reducible apply doDumpCollect_keep) | (with_reducible apply doDumpFetch_keep) | (with_reducible apply foldl_keep) | (with_reducible apply foldl_keep_fst) | split | (dsimp only [id]))))

theorem State.scalarLoad_keep {T U : Prop} {r : State} {x0} {x1} {x2} {x3} {x4} (h : Keep T U r x0) : Keep T U r (@State.scalarLoad x0 x1 x2 x3 x4).1 := by
  unfold State.scalarLoad
  (try dsimp only)
  repeat' (first | (with_reducible assumption) | (with_reducible exact fun _ => rfl) | (with_reducible exact fun x => False.elim x) | (with_reducible apply State.recordFault_keep) | (with_reducible apply State.noteCorrected_keep) | (with_reducible apply State.noteErr_keep) | (with_reducible apply foldl_keep) | (with_reducible apply foldl_keep_fst) | split | (intro _) | (dsimp only [id]) | (with_reducible apply Keep.upd; first | (with_reducible assumption) | (with_reducible exact fun _ => rfl) | (with_reducible exact fun x => False.elim x) | (with_reducible apply State.recordFault_keep) | (with_reducible apply State.noteCorrected_keep) | (with_reducible apply State.noteErr_keep) | (with_reducible apply foldl_keep) | (with_reducible apply foldl_keep_fst) | split | (dsimp only [id])))

theorem State.landStore_keep {T U : Prop} {r : State} {x0} {x1} {x2} {x3} (h : Keep T U r x0) : Keep T U r (@State.landStore x0 x1 x2 x3) := by
  unfold State.landStore
  (try dsimp only)
  repeat' (first | (with_reducible assumption) | (with_reducible exact fun _ => rfl) | (with_reducible exact fun x => False.elim x) | (refine Keep.of_ok (by assumption) ?_; with_reducible apply State.writeRange_keep) | (with_reducible apply State.noteErr_keep) | (with_reducible apply foldl_keep) | (with_reducible apply foldl_keep_fst) | split | (intro _) | (dsimp only [id]) | (with_reducible apply Keep.upd; first | (with_reducible assumption) | (with_reducible exact fun _ => rfl) | (with_reducible exact fun x => False.elim x) | (refine Keep.of_ok (by assumption) ?_; with_reducible apply State.writeRange_keep) | (with_reducible apply State.noteErr_keep) | (with_reducible apply foldl_keep) | (with_reducible apply foldl_keep_fst) | split | (dsimp only [id])))

theorem State.scalarStore_keep {T U : Prop} {r : State} {x0} {x1} {x2} {x3} {x4} (h : Keep T U r x0) : Keep T U r (@State.scalarStore x0 x1 x2 x3 x4) := by
  unfold State.scalarStore
  (try dsimp only)
  repeat' (first | (with_reducible assumption) | (with_reducible exact fun _ => rfl) | (with_reducible exact fun x => False.elim x) | (with_reducible apply State.advance_keep) | (with_reducible apply State.recordFault_keep) | (with_reducible apply State.modCore_keep) | (with_reducible apply State.landStore_keep) | (with_reducible apply foldl_keep) | (with_reducible apply foldl_keep_fst) | split | (intro _) | (dsimp only [id]) | (with_reducible apply Keep.upd; first | (with_reducible assumption) | (with_reducible exact fun _ => rfl) | (with_reducible exact fun x => False.elim x) | (with_reducible apply State.advance_keep) | (with_reducible apply State.recordFault_keep) | (with_reducible apply State.modCore_keep) | (with_reducible apply State.landStore_keep) | (with_reducible apply foldl_keep) | (with_reducible apply foldl_keep_fst) | split | (dsimp only [id])))

theorem execLd_keep {T U : Prop} {r : State} {x0} {x1} {x2} (h : Keep T U r x2) : Keep T U r (@execLd x0 x1 x2) := by
  unfold execLd
  (try dsimp only)
  repeat' (first | (with_reducible assumption) | (with_reducible exact fun _ => rfl) | (with_reducible exact fun x => False.elim x) | (with_reducible apply issue_keep) | (with_reducible apply State.scalarLoad_keep) | (with_reducible apply State.advance_keep) | (with_reducible apply State.modCore_keep) | (with_reducible apply foldl_keep) | (with_reducible apply foldl_keep_fst) | (refine Keep.of_pair (by assumption) ?_) | split | (intro _) | (dsimp only [id]) | (with_reducible apply Keep.upd; first | (with_reducible assumption) | (with_reducible exact fun _ => rfl) | (with_reducible exact fun x => False.elim x) | (with_reducible apply issue_keep) | (with_reducible apply State.scalarLoad_keep) | (with_reducible apply State.advance_keep) | (with_reducible apply State.modCore_keep) | (with_reducible apply foldl_keep) | (with_reducible apply foldl_keep_fst) | (refine Keep.of_pair (by assumption) ?_) | split | (dsimp only [id])))

theorem execSt_keep {T U : Prop} {r : State} {x0} {x1} {x2} (h : Keep T U r x2) : Keep T U r (@execSt x0 x1 x2) := by
  unfold execSt
  (try dsimp only)
  repeat' (first | (with_reducible assumption) | (with_reducible exact fun _ => rfl) | (with_reducible exact fun x => False.elim x) | (with_reducible apply issue_keep) | (with_reducible apply State.scalarStore_keep) | (with_reducible apply State.modCore_keep) | (with_reducible apply foldl_keep) | (with_reducible apply foldl_keep_fst) | split | (intro _) | (dsimp only [id]) | (with_reducible apply Keep.upd; first | (with_reducible assumption) | (with_reducible exact fun _ => rfl) | (with_reducible exact fun x => False.elim x) | (with_reducible apply issue_keep) | (with_reducible apply State.scalarStore_keep) | (with_reducible apply State.modCore_keep) | (with_reducible apply foldl_keep) | (with_reducible apply foldl_keep_fst) | split | (dsimp only [id])))

theorem execLdd_keep {T U : Prop} {r : State} {x0} {x1} {x2} (h : Keep T U r x2) : Keep T U r (@execLdd x0 x1 x2) := by
  unfold execLdd
  (try dsimp only)
  repeat' (first | (with_reducible assumption) | (with_reducible exact fun _ => rfl) | (with_reducible exact fun x => False.elim x) | (with_reducible apply issue_keep) | (with_reducible apply State.scalarLoad_keep) | (with_reducible apply State.advance_keep) | (with_reducible apply State.modCore_keep) | (with_reducible apply foldl_keep) | (with_reducible apply foldl_keep_fst) | (refine Keep.of_pair (by assumption) ?_) | split | (intro _) | (dsimp only [id]) | (with_reducible apply Keep.upd; first | (with_reducible assumption) | (with_reducible exact fun _ => rfl) | (with_reducible exact fun x => False.elim x) | (with_reducible apply issue_keep) | (with_reducible apply State.scalarLoad_keep) | (with_reducible apply State.advance_keep) | (with_reducible apply State.modCore_keep) | (with_reducible apply foldl_keep) | (with_reducible apply foldl_keep_fst) | (refine Keep.of_pair (by assumption) ?_) | split | (dsimp only [id])))

theorem execStd_keep {T U : Prop} {r : State} {x0} {x1} {x2} (h : Keep T U r x2) : Keep T U r (@execStd x0 x1 x2) := by
  unfold execStd
  (try dsimp only)
  repeat' (first | (with_reducible assumption) | (with_reducible exact fun _ => rfl) | (with_reducible exact fun x => False.elim x) | (with_reducible apply issue_keep) | (with_reducible apply State.scalarStore_keep) | (with_reducible apply foldl_keep) | (with_reducible apply foldl_keep_fst) | split | (intro _) | (dsimp only [id]) | (with_reducible apply Keep.upd; first | (with_reducible assumption) | (with_reducible exact fun _ => rfl) | (with_reducible exact fun x => False.elim x) | (with_reducible apply issue_keep) | (with_reducible apply State.scalarStore_keep) | (with_reducible apply foldl_keep) | (with_reducible apply foldl_keep_fst) | split | (dsimp only [id])))

theorem execSealedWriteRelease_keep {T U : Prop} {r : State} {x0} {x1} (h : Keep T U r x1) : Keep T U r (@execSealedWriteRelease x0 x1) := by
  unfold execSealedWriteRelease
  (try dsimp only)
  repeat' (first | (with_reducible assumption) | (with_reducible exact fun _ => rfl) | (with_reducible exact fun x => False.elim x) | (with_reducible apply State.advance_keep) | (with_reducible apply State.landStore_keep) | (with_reducible apply State.modCore_keep) | (with_reducible apply foldl_keep) | (with_reducible apply foldl_keep_fst) | split | (intro _) | (dsimp only [id]) | (with_reducible apply Keep.upd; first | (with_reducible assumption) | (with_reducible exact fun _ => rfl) | (with_reducible exact fun x => False.elim x) | (with_reducible apply State.advance_keep) | (with_reducible apply State.landStore_keep) | (with_reducible apply State.modCore_keep) | (with_reducible apply foldl_keep) | (with_reducible apply foldl_keep_fst) | split | (dsimp only [id])))

theorem State.queueDma_keep {T U : Prop} {r : State} {x0} {x1} {x2} {x3} {x4} (h : Keep T U r x0) : Keep T U r (@State.queueDma x0 x1 x2 x3 x4) := by
  unfold State.queueDma
  (try dsimp only)
  repeat' (first | (with_reducible assumption) | (with_reducible exact fun _ => rfl) | (with_reducible exact fun x => False.elim x) | (with_reducible apply State.modMc_keep) | (with_reducible apply State.advance_keep) | (with_reducible apply State.setCore_keep) | (with_reducible apply foldl_keep) | (with_reducible apply foldl_keep_fst) | split | (intro _) | (dsimp only [id]) | (with_reducible apply Keep.upd; first | (with_reducible assumption) | (with_reducible exact fun _ => rfl) | (with_reducible exact fun x => False.elim x) | (with_reducible apply State.modMc_keep) | (with_reducible apply State.advance_keep) | (with_reducible apply State.setCore_keep) | (with_reducible apply foldl_keep) | (with_reducible apply foldl_keep_fst) | split | (dsimp only [id])))

theorem execDma_keep {T U : Prop} {r : State} {x0} {x1} {x2} (h : Keep T U r x2) : Keep T U r (@execDma x0 x1 x2) := by
  unfold execDma
  (try dsimp only)
  repeat' (first | (with_reducible assumption) | (with_reducible exact fun _ => rfl) | (with_reducible exact fun x => False.elim x) | (with_reducible apply issue_keep) | (with_reducible apply State.advance_keep) | (with_reducible apply State.recordFaultOpen_keep) | (with_reducible apply State.recordFault_keep) | (with_reducible apply State.queueDma_keep) | (with_reducible apply foldl_keep) | (with_reducible apply foldl_keep_fst) | split | (intro _) | (dsimp only [id]) | (with_reducible apply Keep.upd; first | (with_reducible assumption) | (with_reducible exact fun _ => rfl) | (with_reducible exact fun x => False.elim x) | (with_reducible apply issue_keep) | (with_reducible apply State.advance_keep) | (with_reducible apply State.recordFaultOpen_keep) | (with_reducible apply State.recordFault_keep) | (with_reducible apply State.queueDma_keep) | (with_reducible apply foldl_keep) | (with_reducible apply foldl_keep_fst) | split | (dsimp only [id])))

theorem execDmad_keep {T U : Prop} {r : State} {x0} {x1} {x2} (h : Keep T U r x2) : Keep T U r (@execDmad x0 x1 x2) := by
  unfold execDmad
  (try dsimp only)
  repeat' (first | (with_reducible assumption) | (with_reducible exact fun _ => rfl) | (with_reducible exact fun x => False.elim x) | (with_reducible apply issue_keep) | (with_reducible apply State.advance_keep) | (with_reducible apply State.recordFaultOpen_keep) | (with_reducible apply State.recordFault_keep) | (with_reducible apply State.queueDma_keep) | (with_reducible apply foldl_keep) | (with_reducible apply foldl_keep_fst) | split | (intro _) | (dsimp only [id]) | (with_reducible apply Keep.upd; first | (with_reducible assumption) | (with_reducible exact fun _ => rfl) | (with_reducible exact fun x => False.elim x) | (with_reducible apply issue_keep) | (with_reducible apply State.advance_keep) | (with_reducible apply State.recordFaultOpen_keep) | (with_reducible apply State.recordFault_keep) | (with_reducible apply State.queueDma_keep) | (with_reducible apply foldl_keep) | (with_reducible apply foldl_keep_fst) | split | (dsimp only [id])))

theorem State.copyUnits_keep {T U : Prop} {r : State} {x0} {x1} {x2} {x3} {x4} {x5} (h : Keep T U r x0) : Keep T U r (@State.copyUnits x0 x1 x2 x3 x4 x5).1 := by
  induction x2 generalizing x0 x3 x4 x5 with
  | zero => exact h
  | succ n ih =>
    unfold State.copyUnits
    split
    · exact h
    · dsimp only
      split
      · exact h
      · split
        · exact h
        · exact ih (State.writeRange_keep h _ (by assumption))

end Sys2Proof.Machine
end

