-- ==== Sys2Proof/Laws/Slate.lean ====
section
/-! SUPPORT. What a Slate request meets and what a response changes; counting an event. -/

namespace Sys2Proof.Machine

/-! ### Counting an event -/

theorem UnitsKept.refl (s : State) : UnitsKept s s := ⟨rfl, rfl, rfl, fun _ => rfl⟩

theorem UnitsKept.trans {s t u : State} (h : UnitsKept s t) (g : UnitsKept t u) : UnitsKept s u := by
  refine ⟨g.1.trans h.1, g.2.1.trans h.2.1, g.2.2.1.trans h.2.2.1, fun f => ?_⟩
  rw [g.2.2.2 f, h.2.2.2 f]

/-- A state that differs from `s` in no unit. -/
theorem UnitsKept.of_eq {s t : State} (h1 : t.mem = s.mem) (h2 : t.cores = s.cores) (h3 : t.links = s.links) (h4 : t.fields = s.fields) :
    UnitsKept s t := ⟨h1, h2, h3, fun f => by rw [State.field_congr f h4]⟩

/-- Counting an event changes counters, and HM_SAT_LAST of the owner of the counter's block, alone (R360). -/
theorem State.bump_frame (s : State) (a : Nat) :
    (s.bump a).mem = s.mem ∧ (s.bump a).cores = s.cores ∧ (s.bump a).links = s.links ∧ (s.bump a).seats = s.seats ∧ (s.bump a).host = s.host ∧
    (s.bump a).px = s.px ∧ (s.bump a).store = s.store ∧ (s.bump a).pw = s.pw ∧ (s.bump a).lpTags = s.lpTags ∧ (s.bump a).bad = s.bad ∧ (s.bump a).ce = s.ce ∧ (s.bump a).flaws = s.flaws ∧ (s.bump a).held = s.held ∧
    (s.bump a).latched = s.latched ∧ (s.bump a).free = s.free ∧ (s.bump a).nv = s.nv ∧ (s.bump a).hmClk = s.hmClk ∧
    (s.bump a).pending = s.pending ∧ (s.bump a).coord.passes = s.coord.passes := by
  unfold State.bump
  dsimp only
  split
  · simp
  split
  · unfold State.satEvent
    dsimp only
    split <;> simp [State.setCounter, State.modHm]
  · simp [State.setCounter]

/-- A field that differs in HM_SAT_LAST alone. -/
theorem State.modHm_sat (s : State) (o : Nat) (v : BitVec 48) (f : Nat) :
    ((s.modHm o (fun h => { h with satAddr := v })).field f) =
      { s.field f with hm := { (s.field f).hm with satAddr := ((s.modHm o (fun h => { h with satAddr := v })).field f).hm.satAddr } } := by
  have e : ∀ x : Field, x = { x with hm := { x.hm with satAddr := x.hm.satAddr } } := fun _ => rfl
  by_cases ho : o < 4
  · by_cases hf : f = o
    · subst hf
      unfold State.modHm
      rw [State.field_setField_self _ _ ho]
    · unfold State.modHm
      rw [State.field_setField_ne _ _ hf]
  · have : s.modHm o (fun h => { h with satAddr := v }) = s := by simp [State.modHm, State.setField, ho]
    rw [this]

theorem State.satEvent_cases (s : State) (a : Nat) : ∃ u : State, u.fields = s.fields ∧
    (s.satEvent a = u.modHm (counterOwner a) (fun h => { h with satAddr := BitVec.ofNat 48 a }) ∨ s.satEvent a = u) := by
  unfold State.satEvent
  dsimp only
  split
  · refine ⟨_, ?_, .inl rfl⟩; rfl
  · refine ⟨_, ?_, .inr rfl⟩; rfl

/-- Two fields that agree but for HM_SAT_LAST. -/
theorem Field.sat_of_eq {x y : Field} (h : x = y) : x = { y with hm := { y.hm with satAddr := x.hm.satAddr } } := by subst h; rfl

theorem State.satEvent_field (s : State) (a f : Nat) :
    (s.satEvent a).field f = { s.field f with hm := { (s.field f).hm with satAddr := ((s.satEvent a).field f).hm.satAddr } } := by
  obtain ⟨u, hu, h⟩ := s.satEvent_cases a
  have hf : u.field f = s.field f := State.field_congr f hu
  rcases h with h | h
  · rw [h, ← hf]
    exact State.modHm_sat _ _ _ _
  · rw [h]
    exact Field.sat_of_eq hf

theorem State.bump_units (s : State) (a : Nat) : UnitsKept s (s.bump a) := by
  obtain ⟨h1, h2, h3, -⟩ := s.bump_frame a
  refine ⟨h1, h2, h3, fun f => ?_⟩
  unfold State.bump
  dsimp only
  split
  · exact Field.sat_of_eq rfl
  split
  · exact State.satEvent_field _ a f
  · exact Field.sat_of_eq rfl

@[simp] theorem State.bump_host (s : State) (a : Nat) : (s.bump a).host = s.host := (s.bump_frame a).2.2.2.2.1
@[simp] theorem State.bump_seats (s : State) (a : Nat) : (s.bump a).seats = s.seats := (s.bump_frame a).2.2.2.1
@[simp] theorem State.bump_px (s : State) (a : Nat) : (s.bump a).px = s.px := (s.bump_frame a).2.2.2.2.2.1
@[simp] theorem State.bump_store (s : State) (a : Nat) : (s.bump a).store = s.store := (s.bump_frame a).2.2.2.2.2.2.1
@[simp] theorem State.bump_cores (s : State) (a : Nat) : (s.bump a).cores = s.cores := (s.bump_frame a).2.1
@[simp] theorem State.bump_links (s : State) (a : Nat) : (s.bump a).links = s.links := (s.bump_frame a).2.2.1

@[simp] theorem State.seat_bump (s : State) (a f : Nat) : (s.bump a).seat f = s.seat f := State.seat_congr f (by simp) (by simp)

/-! ### Sessions -/

theorem State.session_some {s : State} {id : BitVec 32} {i : Nat} {k : Session} (h : s.session id = some (i, k)) :
    i < 4 ∧ s.slot i = some k ∧ k.id = id := by
  obtain ⟨j, hj, e⟩ := List.exists_of_findSome?_eq_some h
  have hj : j < 4 := List.mem_range.mp hj
  cases hs : s.slot j with
  | none => rw [hs] at e; simp at e
  | some m =>
    rw [hs] at e
    by_cases hm : m.id = id
    · simp only [hm, if_true, Option.some.injEq, Prod.mk.injEq] at e
      obtain ⟨rfl, rfl⟩ := e
      exact ⟨hj, hs, hm⟩
    · simp [hm] at e

@[simp] theorem State.slot_setSlot_self (s : State) (i : Nat) (k : Option Session) : (s.setSlot i k).slot i = k := by
  simp [State.slot, State.setSlot]
theorem State.slot_setSlot_ne (s : State) {i j : Nat} (k : Option Session) (h : j ≠ i) : (s.setSlot i k).slot j = s.slot j := by
  simp [State.slot, State.setSlot, h]

/-- A session that is replaced by one of the same id is found where it was. -/
theorem State.session_setSlot {s : State} {id : BitVec 32} {i : Nat} {k : Session} (k' : Session) (h : s.session id = some (i, k))
    (hk : k'.id = id) : (s.setSlot i (some k')).session id = some (i, k') := by
  have hs := State.session_some h
  unfold State.session at *
  rw [List.findSome?_eq_some_iff] at h ⊢
  obtain ⟨l₁, a, l₂, hl, he, hn⟩ := h
  have ha : a = i := by
    cases hsa : s.slot a with
    | none => rw [hsa] at he; simp at he
    | some m =>
      rw [hsa] at he
      by_cases hm : m.id = id
      · simp only [hm, if_true, Option.some.injEq, Prod.mk.injEq] at he; exact he.1
      · simp [hm] at he
  subst ha
  refine ⟨l₁, a, l₂, hl, by simp [hk], fun x hx => ?_⟩
  have hne : x ≠ a := by
    rintro rfl
    have := hn x hx
    rw [he] at this
    exact absurd this (by simp)
  rw [State.slot_setSlot_ne _ _ hne]
  exact hn x hx

theorem State.modSession_eq {s : State} {id : BitVec 32} {i : Nat} {k : Session} (g : Session → Session) (h : s.session id = some (i, k)) :
    s.modSession id g = s.setSlot i (some (g k)) := by unfold State.modSession; rw [h]

theorem State.session_congr {s t : State} (id : BitVec 32) (h : t.host.sessions = s.host.sessions) : t.session id = s.session id := by
  unfold State.session State.slot; rw [h]

/-! ### Requests -/

/-- What a request that passes the common checks finds: its command's own effect, on the state that remembers and counts it. -/
theorem State.request_heard {s : State} {r : Req} {i : Nat} {k : Session} {cls cmd : Nat} {x : Rights} {go : State → State}
    (h : Heard s r i k cls cmd x) (hw : s.wipingTarget r.part = false ∨ (cls = 1 ∧ cmd = 5)) :
    s.request r cls cmd x go = go (s.admitted r k) := by
  obtain ⟨h1, ht, h2, h3, h4, h5, h6, h7, h8⟩ := h
  have hal : (s.modSession r.sess (fun k => k.accept r.seq)).allowed k r.part x = s.allowed k r.part x := by
    rw [State.modSession_eq _ h2]
    have hb : ∀ p, (s.setSlot i (some (k.accept r.seq))).hasBound p = s.hasBound p := by
      intro p
      unfold State.hasBound
      congr 1
      funext j
      by_cases hj : j = i
      · subst hj; simp [(State.session_some h2).2.1, Session.accept]
      · rw [State.slot_setSlot_ne _ _ hj]
    have hp : ∀ p, (s.setSlot i (some (k.accept r.seq))).partLive p = s.partLive p := fun _ => rfl
    unfold State.allowed State.boundTo
    simp only [hb, hp]
  have hst : (s.modSession r.sess (fun k => k.accept r.seq)).store = s.store := by rw [State.modSession_eq _ h2]; rfl
  unfold State.request
  simp only [h1, ht, ne_eq, not_true_eq_false, if_false, h2, h3, Bool.false_eq_true, Bool.not_true]
  unfold State.serve
  simp only [h2]
  have hs : (s.wipingTarget r.part && !(cls == 1 && cmd == 5)) = false := by
    rcases hw with hw | ⟨rfl, rfl⟩
    · simp [hw]
    · simp
  rw [hs, if_neg (by decide), if_neg (by push Not; exact ⟨h4, by omega⟩), if_neg (by rw [h6]; decide)]
  rw [if_neg]
  · rfl
  · rw [hal, hst, h7]
    rcases h8 with h8 | h8 <;> simp [h8]

theorem State.request_admitted {s : State} {r : Req} {i : Nat} {k : Session} {cls cmd : Nat} {x : Rights} {go : State → State}
    (h : Admitted s r i k cls cmd x) : s.request r cls cmd x go = go (s.admitted r k) := State.request_heard h.1 (.inl h.2)

/-- An admitted request changes no unit and no seat; its session stands in its slot. -/
theorem State.admitted_frame {s : State} {r : Req} {i : Nat} {k : Session} {cls cmd : Nat} {x : Rights} (h : Heard s r i k cls cmd x) :
    UnitsKept s (s.admitted r k) ∧ (s.admitted r k).seats = s.seats ∧ (s.admitted r k).px = s.px ∧ (s.admitted r k).store = s.store ∧
    (s.admitted r k).host = { s.host with sessions := (s.admitted r k).host.sessions } ∧
    (s.admitted r k).session r.sess = some (i, k.accept r.seq) := by
  obtain ⟨h1, -, h2, -⟩ := h
  unfold State.admitted State.countReq
  rw [State.modSession_eq _ h2]
  have hs : (s.setSlot i (some (k.accept r.seq))).session r.sess = some (i, k.accept r.seq) :=
    State.session_setSlot _ h2 (State.session_some h2).2.2
  have hu : UnitsKept s (s.setSlot i (some (k.accept r.seq))) := UnitsKept.of_eq rfl rfl rfl rfl
  split
  · exact ⟨hu, rfl, rfl, rfl, rfl, hs⟩
  · exact ⟨hu.trans (State.bump_units _ _), by simp [State.setSlot], by simp [State.setSlot], by simp [State.setSlot], by simp [State.setSlot],
      (State.session_congr _ (by simp)).trans hs⟩

/-! ### Responses -/

/-- A response goes out, and its session keeps it; nothing else changes. -/
theorem State.respond_frame {s : State} {r : Req} {i : Nat} {k : Session} (h : s.session r.sess = some (i, k)) (st : BitVec 16) (d : BitVec 64)
    (b : Body) : s.respond r st d b = { s with host := (s.respond r st d b).host } ∧
    (s.respond r st d b).host = { s.host with sessions := (s.respond r st d b).host.sessions, sent := (s.respond r st d b).host.sent,
                                                wire := (s.respond r st d b).host.wire, dests := (s.respond r st d b).host.dests,
                                                tag := (s.respond r st d b).host.tag } := by
  unfold State.respond
  rw [h]
  exact ⟨rfl, rfl⟩

theorem State.respond_answered {s : State} {r : Req} {i : Nat} {k : Session} (h : s.session r.sess = some (i, k)) (hg : k.gen2 = false)
    (st : BitVec 16) (d : BitVec 64) (b : Body) : Answered (s.respond r st d b) r st d b := by
  unfold State.respond
  rw [h]
  exact ⟨s.respOf r st d b, s.host.sent, by simp [State.sendTo, State.send, frameOf, hg, State.setSlot], rfl, rfl, rfl, rfl, rfl, rfl⟩

theorem State.respond_units {s : State} {r : Req} {i : Nat} {k : Session} (h : s.session r.sess = some (i, k)) (st : BitVec 16) (d : BitVec 64)
    (b : Body) : UnitsKept s (s.respond r st d b) := by
  rw [(State.respond_frame h st d b).1]
  exact UnitsKept.of_eq rfl rfl rfl rfl

theorem State.seat_respond {s : State} {r : Req} {i : Nat} {k : Session} (h : s.session r.sess = some (i, k)) (st : BitVec 16) (d : BitVec 64)
    (b : Body) (f : Nat) : (s.respond r st d b).seat f = s.seat f := by
  rw [(State.respond_frame h st d b).1]
  exact State.seat_congr f rfl (by show ((s.respond r st d b).host).layout = _; rw [(State.respond_frame h st d b).2])

/-- A heard request that is only answered changes no unit and no seat. -/
theorem replies_heard {c : Instr} {s : State} {r : Req} {i : Nat} {k : Session} {cls cmd : Nat} {x : Rights} {st : BitVec 16} {d : BitVec 64}
    {b : Body} (h : Heard s r i k cls cmd x) (e : exec c s = .next ((s.admitted r k).respond r st d b)) : Replies c s r st d b := by
  obtain ⟨f1, f2, -, -, f5, f6⟩ := State.admitted_frame h
  have hg : (k.accept r.seq).gen2 = false := h.2.2.2.1
  refine ⟨_, e, State.respond_answered f6 hg st d b, f1.trans (State.respond_units f6 st d b), fun f => ?_⟩
  rw [State.seat_respond f6]
  exact State.seat_congr f f2 (by rw [f5])

end Sys2Proof.Machine
end

