-- ==== Sys2Proof/Tests/Slice0.lean ====
section
/-! SUPPORT. The model's own tests: ill-formed commands that the checks refuse, Chalk words written out from Table 03-5, and for every
statement with hypotheses a state and operands that meet them. -/

namespace Sys2Proof.Tests

open Sys2Proof Sys2Proof.Machine

set_option Elab.async false

/-! ### Ill-formed commands -/

theorem test_wf_core : Instr.wf (.nop 2000 {}) = false := by decide
theorem test_wf_unused_field : Instr.wf (.nop 0 { imm := 1 }) = false := by decide
theorem test_wf_register : Instr.wf (.cmpeq 0 { dst := 8 }) = false := by decide
theorem test_wf_immediate : Instr.wf (.slli 0 { imm := 64 }) = false := by decide
theorem test_wf_vop_code : Instr.wf (.vopAdd 0 { imm := 3 }) = false := by decide
theorem test_wf_good : Instr.wf (.add 1999 { dst := 3, sa := 1, sb := 2 }) = true := by decide
theorem test_wf_field : Instr.wf (.bell 4 0) = false := by decide
theorem test_wf_link : Instr.wf (.fecAligned 24) = false := by decide
theorem test_wf_slot : Instr.wf (.txSlot 0 131072) = false := by decide
theorem test_wf_flit : Instr.wf (.flitReceive 0 0 0 (.intact {} []) []) = false := by decide
theorem test_wf_symbols : Instr.wf (.flitReceive 0 0 0 (.damaged false) [(9, 1)]) = false := by decide
theorem test_wf_tile_words : Instr.wf (.mmaResultReady 0 [(4096, 1)]) = false := by decide
theorem test_wf_status : Instr.wf (.statusFlitReceive 0 (some { words := [], down := true })) = false := by decide
theorem test_wf_lane : Instr.wf (.swapReq 0 false 8 0) = false := by decide
theorem test_wf_card : Instr.wf (.remedyRelaxTimer 0 1 528) = false := by decide
theorem test_wf_tiles : Instr.wf (.popQuizStart 0 3 3) = false := by decide
theorem test_wf_measure : Instr.wf (.marginMeasureDone 0 5 33 0) = false := by decide
theorem test_wf_plan : Instr.wf (.planBegin { sess := 1, seq := 2, part := 6 }
    { hdr := { version := 1, blockLens := [] }, blocks := [], bulk := [{ field := 4, chan := 0, stream := 0, kind := .tray, base := 0, units := 0 }] } 0 0) = false := by decide
theorem test_wf_peers : Instr.wf (.jobPeers { sess := 1, seq := 2, part := 6 } [{ link := 24, node := 0, serial := 0 }]) = false := by decide
theorem test_wf_fill : Instr.wf (.jobFill { sess := 1, seq := 2, part := 6 } 2 1 ⟨0, 0⟩ 0) = false := by decide
theorem test_wf_channel : Instr.wf (.resetEngineChannel { sess := 1, seq := 2, part := 6 } 0 32) = false := by decide
theorem test_wf_phase : Instr.wf (.phase 0 22) = false := by decide
theorem test_wf_alert : Instr.wf (.alertConditionEnd 7) = false := by decide
theorem test_wf_telemetry : Instr.wf (.telemetryWindow { grade := 3, watts := 0, levels := [⟨0, 4, 54, 0, 9000⟩] }) = false ∧
    Instr.wf (.telemetryWindow { grade := 3, watts := 0, optics := [⟨24, 0, 0, 0, 0⟩] }) = false := by decide
theorem test_wf_piece : Instr.wf (.bootReadResponse ⟨List.replicate 8192 0, true, true⟩) = true ∧ Instr.wf (.bootReadResponse ⟨List.replicate 8193 0, true, true⟩) = false := by
  decide +kernel

/-! ### Chalk words, bit by bit (Table 03-5): OP, PRED, PNEG, DST, SA, SB, SC, IMM -/

theorem test_word_add : decodeIns 7 (0b00000001#8 ++ 0b000#3 ++ 0b0#1 ++ 0b00011#5 ++ 0b00001#5 ++ 0b00010#5 ++ 0b00000#5 ++ 0#32) =
    some (.add 7 { dst := 3, sa := 1, sb := 2 }) := by decide
theorem test_word_addi : decodeIns 7 (0b00010000#8 ++ 0b010#3 ++ 0b1#1 ++ 0b11111#5 ++ 0b00001#5 ++ 0b00000#5 ++ 0b00000#5 ++ 0xFFFFFFFF#32) =
    some (.addi 7 { pred := 2, pneg := true, dst := 31, sa := 1, imm := 0xFFFFFFFF }) := by decide
theorem test_word_plog : decodeIns 7 (0b00100110#8 ++ 0b000#3 ++ 0b0#1 ++ 0b00001#5 ++ 0b00010#5 ++ 0b00111#5 ++ 0b00011#5 ++ 0#32) =
    some (.plog 7 { dst := 1, sa := 2, sb := 7, sc := 3 }) := by decide
theorem test_word_adda : decodeIns 7 (0b00110000#8 ++ 0b000#3 ++ 0b0#1 ++ 0b01111#5 ++ 0b00001#5 ++ 0b11111#5 ++ 0b00000#5 ++ 0#32) =
    some (.adda 7 { dst := 15, sa := 1, sb := 31 }) := by decide
theorem test_word_br : decodeIns 7 (0b01000000#8 ++ 0b001#3 ++ 0b0#1 ++ 0b00000#5 ++ 0b00000#5 ++ 0b00000#5 ++ 0b00000#5 ++ 0xFFFFFFFE#32) =
    some (.br 7 { pred := 1, imm := 0xFFFFFFFE }) := by decide
theorem test_word_loop : decodeIns 7 (0b01000011#8 ++ 0b000#3 ++ 0b0#1 ++ 0b00000#5 ++ 0b00100#5 ++ 0b00000#5 ++ 0b00000#5 ++ 0x1000#32) =
    some (.loop 7 { sa := 4, imm := 4096 }) := by decide
theorem test_word_ld : decodeIns 7 (0b01010000#8 ++ 0b000#3 ++ 0b0#1 ++ 0b00101#5 ++ 0b00001#5 ++ 0b00000#5 ++ 0b01011#5 ++ 0x8#32) =
    some (.ld 7 { dst := 5, sa := 1, sc := 11, imm := 8 }) := by decide
theorem test_word_dma : decodeIns 7 (0b01100000#8 ++ 0b000#3 ++ 0b0#1 ++ 0b00000#5 ++ 0b00001#5 ++ 0b00010#5 ++ 0b00011#5 ++ 0#32) =
    some (.dma 7 { sa := 1, sb := 2, sc := 3 }) := by decide
theorem test_word_mma : decodeIns 7 (0b01110000#8 ++ 0b000#3 ++ 0b0#1 ++ 0b00111#5 ++ 0b00001#5 ++ 0b00010#5 ++ 0b00011#5 ++ 0x80000000#32) =
    some (.mma 7 { dst := 7, sa := 1, sb := 2, sc := 3, imm := 0x80000000 }) := by decide
theorem test_word_vop : decodeIns 7 (0b10000000#8 ++ 0b000#3 ++ 0b0#1 ++ 0b00000#5 ++ 0b00001#5 ++ 0b00010#5 ++ 0b01111#5 ++ 0x00130008#32) =
    some (.vopFma 7 { sa := 1, sb := 2, sc := 15, imm := 0x00130008 }) := by decide
theorem test_word_seal : decodeIns 7 (0b10010010#8 ++ 0b000#3 ++ 0b0#1 ++ 0b00000#5 ++ 0b00000#5 ++ 0b00000#5 ++ 0b00000#5 ++ 0xFF#32) =
    some (.seal 7 { imm := 255 }) := by decide
theorem test_word_rdcr : decodeIns 7 (0b10100000#8 ++ 0b000#3 ++ 0b0#1 ++ 0b00010#5 ++ 0b01111#5 ++ 0b00000#5 ++ 0b00000#5 ++ 0x10#32) =
    some (.rdcr 7 { dst := 2, sa := 15, imm := 16 }) := by decide
theorem test_word_raise : decodeIns 7 (0b10111001#8 ++ 0b000#3 ++ 0b0#1 ++ 0b00000#5 ++ 0b00001#5 ++ 0b00000#5 ++ 0b00000#5 ++ 0x8#32) =
    some (.raise 7 { sa := 1, imm := 8 }) := by decide
theorem test_word_unknown_op : decodeIns 7 (0x0F#8 ++ 0#56) = none := by decide
theorem test_word_reserved_field : decodeIns 7 (0x01#8 ++ 0#24 ++ 1#32) = none := by decide
theorem test_word_unlisted_vop : decodeIns 7 (0x80#8 ++ 0#24 ++ 0x13#32) = some (.vopCvt 7 { imm := 0x13 }) := by decide

/-! ### Witnesses: Chalk -/

/-- Core 0 running in a code region of 64 words, at index 8. -/
def k0 : Core := { Core.reset 0 with mode := .running, codeLen := 64, pc := 8 }
/-- A module with one core in the given state. -/
def at0 (k : Core) : State := { cores := [(0, k)] }

theorem test_meets_RegisterInstructionsWriteTheirResult : Able (at0 k0) 0 {} ∧ ((at0 k0).core 0).inside  := by decide +kernel

theorem test_meets_IssueNeedsCoreGuardAndWord :
    (opOf (.raise 0 { pneg := true }) = some (0xB9, 0, { pneg := true }) ∧ ((at0 k0).core 0).ready = true ∧
      (at0 k0).bad.contains (fetchAddr 0 ((at0 k0).core 0)) = false ∧ ((at0 k0).core 0).guardOk { pneg := true } = false ∧ ((at0 k0).core 0).inside) ∧
    ({ k0 with mode := .parked } : Core).ready = false ∧ k0.ready = true ∧ ({ at0 k0 with bad := [0x900000000040] } : State).bad.contains (fetchAddr 0 k0) = true ∧
    k0.fault.toNat % 256 = 0  := by decide +kernel

theorem test_meets_IssueNeedsCoreGuardAndWord_corrected :
    let s (a : Nat) : State := { at0 k0 with ce := [a] }
    (s 0x900000000040).ce.contains (fetchAddr 0 k0) = true ∧ (s 0x900000000048).ce.contains (fetchAddr 0 k0) = false ∧
    (∀ w ∈ (s 0x900000000000).ce, touches [(0x900000000008, 8)] w 8 = false) ∧ (∀ e ∈ ({ flaws := [(544, 1)] } : State).flaws, touches [(0, 512)] (512 * (e.1 / 544)) 512 = false) ∧
    regionOf 0x900000000040 = .slate 0 ∧ ((s 0).counter (hmBase 0 + 0x48)).sat = false ∧ ((s 0).counter (hmBase 0 + 0x48)).count ≠ 0xFFFFFFFF := by
  decide +kernel

theorem test_meets_BranchesAndLoopsReachTheirTarget :
    Able (at0 k0) 0 { imm := 0xFFFFFFF8 } ∧ (0 : Int) ≤ k0.pc.toNat + (0xFFFFFFF8#32).toInt ∧ (k0.pc.toNat + (0xFFFFFFF8#32).toInt) < k0.codeLen ∧
    (k0.sreg 2).toNat < k0.codeLen ∧ k0.codeLen ≤ ((k0.setS 2 64).sreg 2).toNat  := by decide +kernel

theorem test_meets_BranchesAndLoopsReachTheirTarget_loops :
    let l : LoopReg := { count := 2, start := 4, last := 8 }
    (Able (at0 (k0.setS 4 3)) 0 { sa := 4, imm := 1 } ∧ (k0.setS 4 3).sreg 4 ≠ 0 ∧ k0.lc0 = none ∧ k0.lc1 = none ∧ k0.pc.toNat + 1 < k0.codeLen) ∧
    (Able (at0 { k0 with lc0 := some l }) 0 { sa := 4, imm := 1 } ∧ ({ k0 with lc0 := some l } : Core).lc0.isSome = true) ∧
    (Able (at0 k0) 0 { sa := 4, imm := 1 } ∧ k0.sreg 4 = 0 ∧ k0.pc.toNat + 1 + 1 < k0.codeLen) ∧
    (({ k0 with lc0 := some l, lc1 := some l } : Core).inside) ∧
    ({ k0 with lc0 := some l, lc1 := some { l with count := 1 } } : Core).seqNext 8 = ({ k0 with lc0 := some { l with count := 1 } }, 4) ∧
    ¬ ({ k0 with pc := 63 } : Core).inside  := by decide +kernel

/-- Addresses in core 0's desk. -/
def desk0 : Nat := 0x800000000000

theorem test_meets_LoadsAndStoresReachOwnMemory :
    Able (at0 k0) 0 { dst := 5, sa := 1, sc := 3, imm := 0x7FFFF8 } ∧ k0.inside ∧ k0.effAddr { sa := 1, imm := 0x7FFFF8 } + 8 = desk0 + 0x800000 ∧
    (List.range 8).all (fun j => ((at0 k0).readErr ((at0 k0).seatFields 0) (desk0 + 0x7FFFF8 + j)).isNone) = true  := by decide +kernel

theorem test_meets_LoadsAndStoresReachOwnMemory_stores :
    Able (at0 k0) 0 { sa := 1, sb := 2, sc := 3 } ∧ k0.effAddr { sa := 1 } = desk0 ∧ (at0 k0).hitsCode desk0 64 = false ∧
    (at0 k0).meetsSeal desk0 64 = false ∧ (List.range 64).all (fun j => ((at0 k0).writeErr ((at0 k0).seatFields 0) desk0 64 (desk0 + j)).isNone) = true  := by decide +kernel

theorem test_meets_RefusedAndHeldAccesses :
    (Able (at0 k0) 0 { dst := 5, sa := 1, sc := 3, imm := 0x7FFFFC } ∧ k0.inside ∧ k0.fault.toNat % 256 = 0 ∧
      ¬ (k0.effAddr { sa := 1, imm := 0x7FFFFC } + 8 ≤ desk0 + 0x800000)) ∧
    k0.effAddr { sa := 1, imm := 4 } % 8 ≠ 0 ∧ accessFault 0 desk0 8 = none ∧ (at0 k0).hitsCode desk0 8 = false  := by decide +kernel

theorem test_meets_DmaJoinsAndMoves :
    let k : Core := { (k0.setA 2 0x800000000040).setS 3 64 with dmaQ := [{ kind := .copy desk0 (desk0 + 64) 64, tag := 1, pc := 0, op := 0x60 }] }
    (Able (at0 k) 0 { dst := 1, sa := 2, sb := 3 } ∧ (k.areg 1).toNat % 64 = 0 ∧ (k.areg 2).toNat % 64 = 0 ∧ (k.sreg 3).toNat = 64 ∧
      (at0 k).hitsCode desk0 64 = false ∧ k.dmaQ.length < 16) ∧
    (at0 k).meetsSeal desk0 64 = false ∧ ((descOf 0).legal allFmts allKinds true = true ∧ (at0 k).codeHit (descOf 0).ranges = none) ∧
    ((k.setS 3 0x1000040).sreg 3).toNat > 0x1000000 ∧
    (List.range 64).all (fun j => ((at0 k).readErr ((at0 k).seatFields 0) (desk0 + 64 + j)).isNone) = true ∧
    (List.range 64).all (fun j => ((at0 k).writeErr ((at0 k).seatFields 0) desk0 64 (desk0 + j)).isNone) = true  := by decide +kernel

/-- A descriptor of 64 × 64 elements of a format at an address, rows `st` bytes apart. -/
def tile (base fmt st : Nat) : BitVec 512 := BitVec.ofNat 512 (base + fmt * 2 ^ 48 + 64 * 2 ^ 64 + 64 * 2 ^ 88 + 2 ^ 112 + 2 ^ 128 + st * 2 ^ 144)

/-- A timetable entry: its TYPE and (value, lowest bit) of its fields (Tables 02-4 to 02-9). -/
def ent (t : Nat) (l : List (Nat × Nat)) : BitVec 128 := BitVec.ofNat 128 (l.foldl (fun n e => n + e.1 * 2 ^ e.2) (t * 2 ^ 124))

/-- A plan for one field: parent by link 0, child by link 2; one template that sends core 0's first 512 desk bytes on link 0 from slot 27 under
seal 3, and receives into core 1's desk from link 1 in slot 100. -/
def plan1 : Plan :=
  { hdr := { version := 3, blockLens := [5], resendSlots := 0, mainEntry := 1, shardLen := 4096 },
    blocks := [[ent 5 [(1, 122), (0, 117), (4, 93)], ent 1 [(2, 107), (8, 75)],
      ent 2 [(0, 121), (27, 100), (2, 83), (0, 58), (3, 34)], ent 2 [(1, 121), (1, 120), (100, 100), (1, 83), (9, 67), (1, 58), (1, 32)], ent 7 []]] }

/-- Field 0 alone in its partition, with a seat. -/
def one (k : Seat) : State := { host := { layout := 0x688 }, seats := [(0, k)] }
/-- The plan runs its first template. -/
def seat1 : Seat := { plan := some plan1, running := true, tt := { hold := false, entry := 1, left := 8, bell := 100 } }
/-- Core 0 has sealed the buffer that the run sends. -/
def sealed0 : State := { one seat1 with cores := [(0, { k0 with seals := 8 })] }

theorem test_meets_SealedBuffer : Able sealed0 0 { sa := 1, sc := 3 } ∧ sealed0.meetsSeal desk0 8 = true ∧ accessFault 0 desk0 8 = none ∧
    sealed0.hitsCode desk0 8 = false ∧ planFault plan1 [0] = none := by decide +kernel

/-! ### Witnesses: engines of a core -/

theorem test_meets_ArrayAndUpdateInstructionsQueue :
    Able (at0 k0) 0 { dst := 1, sa := 1, sb := 2, sc := 3 } ∧ k0.inside ∧ k0.arrQ.length < 8 ∧ k0.vecQ.length < 8 ∧
    -- MXST of FP32 by an accumulator that no chain has used
    (let d : BitVec 512 := tile desk0 7 256
     mxstLegal 0 0 (descOf d) (k0.clsAt 0) = true ∧ ((descOf d).ranges.find? (fun r => (at0 k0).hitsCode r.1 r.2)) = none ∧
     (descOf d).ok 0 [7, 8] [0, 2, 3, 4] false = true ∧ (descOf d).d0 = 64 ∧ (descOf d).d1 = 64 ∧ (descOf d).d2 = 1 ∧ (descOf d).d3 = 1) ∧
    (let a : BitVec 512 := tile desk0 0 128
     mmaLegal 0 0 (descOf a) (descOf a) = true ∧ chainTakes (k0.clsAt 1) 0 = true ∧ (descOf a).ok 0 allFmts allKinds false = true ∧
     (homeRanges 0 (descOf a) false).find? (fun r => (at0 k0).hitsCode r.1 r.2) = none) ∧
    (let e (base fmt st : Nat) : Desc := descOf (tile base fmt st)
     let d : Desc := descOf (tile desk0 7 256 + 0x900000000400#512 <<< 256)
     fupdLegal 0 d (e (desk0 + 0x8000) 0 128) (e (desk0 + 0x10000) 0 128) (e (desk0 + 0x18000) 1 128) = true ∧
     (updRecOf (Memory.readN [] d.aux 64)).layer = 0) := by decide +kernel

theorem test_meets_VectorInstructionsQueue :
    (Able (at0 k0) 0 { imm := 1 } ∧ k0.inside ∧ k0.vecQ.length < 8) ∧
    (vopCodes.filter (fun p => vopLegal 0 p.2 0 (descOf (tile desk0 7 256)) (descOf (tile (desk0 + 0x8000) 7 256))
      (descOf (tile (desk0 + 0x10000) 7 256)) (descOf (tile (desk0 + 0x18000) 7 256)))).length = 25 ∧
    vopLegal 0 1 3 (descOf 0) (descOf 0) (descOf 0) (descOf 0) = false ∧ k0.fault.toNat % 256 = 0 := by decide +kernel

theorem test_meets_WaitingInstructionsHoldAndComplete :
    let op : VecOp := { kind := .vop 1, d := tile desk0 7 256, a := tile (desk0 + 0x8000) 7 256, tag := 1, pc := 0, op := 0x80 }
    let k : Core := { k0.tagAdd 1 with vecQ := [op] }
    (Able (at0 k0) 0 { sc := 1, imm := 0xFFFF } ∧ k0.inside ∧ k0.tag 1 = 0 ∧ k0.fenceDone 0xF = true ∧ k0.writesDone = true ∧
      (List.range 16).all (fun j => k0.tag (BitVec.ofNat 4 j) == 0) = true) ∧
    (Able (at0 k) 0 { sc := 1 } ∧ k.tag 1 ≠ 0 ∧ k.writesDone = false) ∧
    (k0.mode = .running ∧ ({ k0 with stall := some (.sealing 255) } : Core).inside) ∧
    ({ k with stall := some (.sealing 0) } : Core).writesDone = false ∧ k.fenceDone 8 = false ∧ k.tagsDone 2 = false ∧ k0.tagsDone 0xFFFF = true := by
  decide +kernel

theorem test_meets_ControlInstructionsHaveTheirEffect :
    let s := at0 k0
    (Able s 0 {} ∧ k0.inside ∧ k0.fault.toNat % 256 = 0) ∧
    (s.lessonRead 0 (mxBase 0)).isSome = true ∧ (k0.lessonWrite 0 (mxBase 0) 0).isSome = true ∧
    s.lessonRead 0 (pxBase + 8) = none ∧ k0.lessonWrite 0 (mxBase 1) 0 = none := by decide +kernel

/-- An MXST of core 0 into its desk, at a stage of its sequence. -/
def mx (g : MxStage) : Mxst := { acc := 0, d := tile desk0 7 256, imm := 0, tag := 2, pc := 4, stage := g }
/-- An accumulator whose one element does not agree with its check sums. -/
def missed : Acc := { elems := [(0, 1)], cls := .int, chain := [.mma 0 0 5] }

theorem test_meets_ArrayOperationsComplete :
    let o (k : ArrKind) : ArrOp := { kind := k, tag := 1, pc := 0, op := 0x70 }
    let s (k : ArrKind) : State := at0 { k0 with arrQ := [o k] }
    ((s (.mma 0 0 0 0)).core 0).arrQ = [o (.mma 0 0 0 0)] ∧ (o (.mma 0 0 0 0)).started = false ∧ ((s (.mxz 7)).core 0).mxst = none ∧
    (s (.mma 0 0 0 0)).tensorErr 0 (descOf 0) = none ∧ (s (.mxld 0 0)).tensorErr 0 (descOf 0) = none := by decide +kernel

theorem test_meets_AbftSequenceAndBuddyServiceRun :
    let s (g : MxStage) (a : Acc) : State := at0 { k0 with mxst := some (mx g), acc := [(0, a)] }
    ((s .checking {}).core 0).mxst = some (mx .checking) ∧ ({} : Acc).check = none ∧ missed.check.isSome = true ∧ missed.chain.length ≤ 16 ∧
    16 < ({ missed with chain := List.replicate 17 .zero } : Acc).chain.length ∧
    (s .failedFirst missed).fits 0 (chainReload missed.chain + chainOcc missed.chain false + 72 + 16 + (mxWrite 0 - 16)) = true ∧
    ({ s .failedFirst missed with hmClk := 8500 } : State).fits 0 (chainReload missed.chain + chainOcc missed.chain false + 72 + 16 + (mxWrite 0 - 16)) = false ∧
    (s .recomputing missed).chainErr 0 missed.chain = none ∧ ((Acc.replay [] missed.chain).disturbed []).check = none ∧
    ((Acc.replay [] missed.chain).disturbed [(5, 0x40000000)]).check.isSome = true := by decide +kernel

theorem test_meets_AbftSequenceAndBuddyServiceRun_buddy :
    let s (g : MxStage) (k : Core) : State := { cores := [(0, k), (250, { Core.reset 250 with mxst := some (mx g), acc := [(0, missed)] })] }
    let v : Svc := { requester := 250, started := true }
    buddyOf 0 = 250 ∧ (((s .buddyAsked k0).core 250).accreg 0) = missed ∧ ((s .failedSecond k0).core 250).mxst = some (mx .failedSecond) ∧ (s .failedSecond k0).fits 0 ((s .failedSecond k0).cellsLeft 0 + chainOcc missed.chain true + 72 + 16 + 64 + mxWrite 0) = true ∧
    ((s .buddyAsked { k0 with svc := some v }).core 0).svc = some v ∧ (s .buddyAsked k0).chainErr 250 missed.chain = none ∧
    ((Acc.replay [] missed.chain).disturbed []).check = none ∧ ((Acc.replay [] missed.chain).disturbed [(5, 0x40000000)]).check.isSome = true ∧
    ((s .buddyPassed { k0 with svcResult := some (false, []) }).core 0).svcResult = some (false, []) := by decide +kernel

theorem test_meets_MxstWritesItsTile :
    let s : State := at0 { k0 with mxst := some { mx .writing with d := tile (desk0 + 0x100) 7 256 } }
    (s.core 0).mxst.isSome = true ∧ s.anySeal [(desk0, 0x4000)] = false ∧ s.rangesErr 0 [(desk0, 64)] = none ∧
    sealed0.anySeal [(desk0, 0x4000)] = true := by decide +kernel

theorem test_meets_VectorEngineRuns :
    let o : VecOp := { kind := .vop 1, tag := 1, pc := 0, op := 0x80 }
    let n : VecOp := { kind := .crc, a := tile desk0 7 256 &&& ~~~(64#512 <<< 88), tag := 1, pc := 0, op := 0x82 }
    ((at0 { k0 with vecQ := [o] }).core 0).vecQ = [o] ∧ o.empty = true ∧ (at0 k0).anySeal (o.writes 0) = false ∧
    n.empty = true ∧ sealed0.anySeal [(desk0 + 511, 1)] = true ∧ sealed0.anySeal [(desk0 + 512, 1)] = false := by decide +kernel

theorem test_meets_VectorFunctionCorners : divF (.fin true 3 1) (.fin false 0 0) = (.inf true, flDivz) := by decide +kernel

/-! ### Witnesses: bells, the timetable, links -/

/-- A state with one link. -/
def lk (l : Nat) (k : Link) (s : State) : State := { s with links := [(l, k)] }
def up : Link := { st := .locked }

theorem test_meets_BellAdvancesTheCount :
    let k : Seat := { seat1 with start := some { bell := 0, entry := 1, setCount := true }, tt := { seat1.tt with isRoot := true } }
    (State.seat (one k) 0).start = some { bell := 0, entry := 1, setCount := true } ∧ ((one k).seat 0).tt.isRoot = true ∧
    (one k).seatIx 3 ≠ (one k).seatIx 0 ∧ ((one {}).seat 3).start = none := by decide +kernel

theorem test_meets_OnlyBellsAndResetsMoveTime : ∃ t, exec (.sweepBlock 0) State.reset = .next t := ⟨_, rfl⟩
theorem test_meets_OnlyTheTimetableMovesTheWalk : ∃ t, exec (.txSlot 0 27) State.reset = .next t := ⟨_, rfl⟩

theorem test_meets_StartsStopsAndSilence :
    let s (e : Nat) (b : BitVec 64) : State := one { seat1 with start := some { bell := b, entry := e } }
    (((s 1 100).seat 0).start = some { bell := 100, entry := 1 } ∧ ((s 1 100).seat 0).tt.bell = 100 ∧ ((s 1 100).seat 0).plan.isSome = true) ∧
    (1 < ((s 1 100).block ((s 1 100).seatIx 0)).length ∧ etype (((s 1 100).block ((s 1 100).seatIx 0)).getD 1 0) = 1) ∧
    (etype (((s 4 100).block ((s 4 100).seatIx 0)).getD 4 0) = 7) ∧ (((s 1 101).seat 0).start = some { bell := 101, entry := 1 }) ∧
    (let k : Seat := { seat1 with stop := some (.atBell 100), tt := { seat1.tt with silent := 16 } }
     ((one k).seat 0).stop = some (.atBell 100) ∧ ((one k).seat 0).tt.hold = false ∧ ((one k).seat 0).tt.silent = 16 ∧
     ((one k).seat 0).tt.isRoot = false) := by decide +kernel

theorem test_meets_StatusWordsCombine :
    let k : Seat := { seat1 with tt := { seat1.tt with combined := [(99, 5)] } }
    let s : State := lk 2 up (one k)
    (s.treeChildren 0).contains 2 = true ∧ Tab.find (s.seat 0).tt.combined ((s.seat 0).tt.bell - 1).toNat = some 5 ∧
    (s.seat 0).tt.childGot = [] ∧ (s.link 2).st = .locked ∧
    (let s : State := lk 0 up (one k)
     (s.treeChildren 0).contains 0 = false ∧ s.isParentLink 0 = true ∧ (s.link 0).st = .locked ∧ (s.seat 0).tt.reduced = []) := by decide +kernel

theorem test_meets_SealDeadlineDecidesTheRun :
    ((sealed0.runs 0).find? (fun r => r.link == 0 % 6 && !r.rx && r.kind == 0 && r.start == 27)).isSome = true ∧
    (∀ r ∈ sealed0.runs 0, r.rx = false → (sealed0.core r.core).sealed r.sealId = true ∧ ((one seat1).core r.core).sealed r.sealId = false) ∧
    (sealed0.seat 0).tt.hold = false ∧ ((one { seat1 with tt := { seat1.tt with hold := true, entry := 1 } }).seat 0).tt.hold = true := by decide +kernel

theorem test_meets_TxSlotSendsItsFlit :
    let s (k : Link) : State := lk 0 k sealed0
    (runOn ((s up).runs 0) 0 false 27).isSome = true ∧ (runOn ((s up).runs 0) 0 false 26) = none ∧ (runOn ((s up).runs 0) 0 false 29) = none ∧
    ((s up).runs 0).all (fun r => r.rx || (r.kind == 0 &&
      (match (s up).readRange [0] (r.bufAddr 0 + 256 * (28 - r.start)) 256 with | .ok _ => true | _ => false))) = true ∧
    ((s { up with absent := true }).link 0).absent = true ∧ ((one { seat1 with wiping := true }).seat 0).wiping = true ∧
    ((s { up with pulled := [27] }).link 0).pulled.contains 27 = true := by decide +kernel

/-- A DATA flit of a run. -/
def data1 (c : Nat) : Flit := { kind := 1, src := 9, bell := 100, slot := c, payload := List.replicate 256 1 }

theorem test_meets_FlitsAreTakenRefusedOrKept :
    let s : State := lk 1 up (one seat1)
    (s.link 1).st = .locked ∧ (runOn (s.runsAt 0 100).1 1 true 100).isSome = true ∧ (runOn (s.runsAt 0 100).1 1 true 101) = none ∧
    (let r := runOn (s.runsAt 0 100).1 1 true 100
     s.flitErr 1 100 100 (data1 100) r r 100 (s.runsAt 0 100).2 ((s.link 1).accepted 100 100) = 0 ∧
     s.flitErr 1 100 100 (data1 101) r r 100 (s.runsAt 0 100).2 ((s.link 1).accepted 100 101) ≠ 0) ∧
    100 < (s.seat 0).tt.slots.toNat ∧ (s.link 1).resetting = false ∧ (s.link 1).arrivals = [] ∧
    (s.seat 0).tt.slots.toNat ≤ 6944 ∧ (s.seat 0).tt.bell < 100 + 2 ∧ ((s.link 1).kept.all (fun x => (s.link 1).spent 100 x == false)) = true := by decide +kernel

theorem test_meets_LinksFollowTheirStates :
    (waves 0x0FF).length = 8 ∧ (waves 0x07F).length = 7 ∧ ((lk 23 { st := .dark } {}).link 23).st = .dark ∧
    ((lk 23 { st := .dark } {}).link 23).combDark = false ∧ ((lk 23 up {}).link 23).ops = [] := by decide +kernel

theorem test_meets_IdentReceiveChecksItsPeer :
    let k (g : LinkState) : Link := { st := g, serial := 7, node := 4, keyEpoch := some 1, nodeOk := true }
    let d : Ident := { serial := 7, node := 4, jobEpoch := 1, map := laneMap 0, echo := true, link := 0 }
    (d.link.toNat = (k .ident).wantLink ∧ d.retired = 0 ∧ d.serial = (k .ident).serial ∧ d.node = (k .ident).node ∧ d.pool = (k .ident).pool ∧ d.jobEpoch = 1) ∧ (k .ranging).keyEpoch = some 1 ∧
    (k .ident).map = laneMap 0 ∧ ({ k .ident with keyEpoch := none } : Link).keyEpoch = none ∧ (k .ident).retired = 0 := by decide +kernel

theorem test_meets_LaneSwapsInStep :
    let pass : Field := { hm := { passes := [(0, { code := 4, resource := 1 })] } }
    let s : State := { lk 1 up (one { tt := { bell := 98, judgedAt := some 98 } }) with fields := [(0, pass)] }
    (s.swapPass 1 = true ∧ (s.link 1).swap = none ∧ (s.seat 0).tt.bell + 2 ≤ 100) ∧
    ((lk 1 up (one {})).blocker 0 { code := 4, resource := 1 }).isSome = false ∧ ((lk 1 up (one {})).field 0).hm.freePass = some 0 ∧
    (let w : Swap := { lane := 7, bell := 98, acked := true }
     ({ up with swap := some w } : Link).swap = some w ∧ w.bell = (s.seat 0).tt.bell ∧ w.lane < 8 ∧ w.fromPeer = false ∧ (s.seat 0).tt.judgedAt = some w.bell ∧
     w.bell ≤ (s.seat 0).tt.bell + 1 ∧ (s.seat 0).tt.bell + 1 < ({ w with bell := 100 } : Swap).bell ∧ (s.link 1).spareUsed = false) := by decide +kernel

/-! ### Witnesses: the pool, memory upkeep, the cubby, the mirror -/

theorem test_meets_PoolOperationsEnd :
    let o (op : BitVec 8) (n : Nat) : PoolOp := { tag := 127, op := op, addr := 0, len := 64, field := 0, chunk := some 0, retries := n }
    let s (op : BitVec 8) (n : Nat) : State := lk 5 { up with ops := [o op n], pool := true, nodeOk := true } (one { ck := { state := 5 } })
    (({} : State).link 5).op 127 = none ∧ ((s 3 3).link 5).op 127 = some (o 3 3) ∧ ((s 3 2).link 5).op 127 = some (o 3 2) ∧
    (s 3 2).poolLink 0 0 = some 5 ∧ ((s 3 2).seat 0).ck.state = 5 ∧ ((s 2 0).link 5).op 127 = some (o 2 0) ∧ (o 2 0).whole 64 = false ∧
    ({ o 2 3 with got := [(0, List.replicate 64 7)] } : PoolOp).whole 64 = true := by decide +kernel

/-- A leaf that is not the digest of a chunk's data. -/
theorem test_meets_PoolOperationsEnd_leaf (x : BitVec 256) : x ≠ Tab.get (fun _ => 0) [(0, ~~~x)] 0 := by
  show x ≠ ~~~x
  intro h
  have := congrArg (fun v => v.getLsbD 0) h
  simp at this

theorem test_meets_MemoryUpkeepKeepsData :
    let s (m : Mc) : State := { one { rotateAt := some (9, 4), tt := { bell := 9 } } with fields := [(0, { mc := m })] }
    ((s {}).seat 0).rotateAt = some (9, 4) ∧ ((one { rotateAt := some (9, 4), tt := { bell := 8 } }).seat 0).tt.bell < 9 ∧
    ((s {}).field 0).mc.oldLive = false ∧ ((s { sweeping := true, next := lpField - 512 }).field 0).mc.sweeping = true ∧
    ((s { gen := some 0 }).readErr [0] (lpField - 512)) = none ∧
    ((s { oldLive := true }).field 0).mc.inflight = 0 ∧ ((s { oldLive := true, inflight := 1 }).field 0).mc.inflight ≠ 0 ∧
    ((s { copying := [3] }).field 0).mc.copying.contains 3 = true := by decide +kernel

/-- Core 0's CCB at its slate base: HEAD, SPILL, ring size, WATER and flags. -/
def ccbState (head spill size water flags : Nat) (b : Lb) : State :=
  let cell (o v : Nat) : Memory := if v = 0 then [] else [(0x900000000000 + o, BitVec.ofNat 8 v)]
  { mem := cell 0 head ++ cell 8 spill ++ cell 0x2C size ++ cell 0x30 water ++ cell 0x34 flags,
    fields := [(0, { lb := { b with enable := true, segs := [{ core := 0, offset := 0, pages := 1 }] } })] }

theorem test_meets_CubbyServesItsBlocks :
    let ok (s : State) (p : Ccb → Bool) : Bool := (match (s.readCcb 0 0).2 with | some k => !k.failed && p k | none => false)
    ok (ccbState 1 2 64 0 0 {}) (fun k => k.size == 64 && !k.turn && decide (k.head < k.spill)) = true ∧
    ok (ccbState 4 2 64 2 0 {}) (fun k => !k.turn && decide (k.spill ≤ k.head ∧ k.head - k.spill ≤ k.water)) = true ∧
    ok (ccbState 4 2 64 2 2 {}) (fun k => k.turn) = true ∧ ok (ccbState 0 0 0 0 0 { redirect := true }) (fun _ => true) = true ∧
    ((ccbState 0 0 0 0 0 { redirect := true, redirectFirst := true }).field 0).lb.redirect = true ∧ ((ccbState 4 2 64 2 2 {}).field 0).lb.turned.contains 0 = false := by
  decide +kernel

/-- A seat of a plan with one unit of sixteen elements, applying step 6. -/
def unit1 : ShardUnit := { core := 0, record := 0, count := 16, offset := 0, trayOff := 0 }
def applying (r : UnitRes) : State :=
  { one { plan := some { plan1 with units := [unit1], mirrorUnits := [unit1], regions := { mirror := 0x10000, tray0 := 0x20000, tray1 := 0x30000, shard1 := 0x40000 } },
          cm := { applyStep := some 6, partnerOk := true, units := [(0, r)] } } with
    fields := [(0, { mc := { gen := some 0 }, lb := { mState := 3 } })] }

theorem test_meets_CrossCheckVotes :
    let s := applying {}
    (s.seat 0).unit 0 0 = some unit1 ∧ (s.seat 0).cm.applyStep = some 6 ∧ ((s.seat 0).cm.res unit1).outcome = 0 ∧ (s.field 0).lb.mState = 3 ∧
    (s.seat 0).cm.applyClip = false ∧ (((applying { asked := true, ownerCrc := some 1, second := [] }).seat 0).cm.res unit1).asked = true ∧
    (s.applyInput 0 unit1 6).2.isSome = true ∧ s.holderField 0 unit1 = 0 ∧
    (s.seat 0).mirrorUnit 0 0 = some unit1 ∧ (s.seat 0).cm.serving = false ∧ ({ again := true } : UnitRes).again = true ∧
    (List.replicate (unitLen unit1) (0 : Byte)).length = unitLen unit1 ∧ crc32c [] ≠ crc32c [1] := by decide +kernel

theorem test_meets_OwnerRecomputesAndTransfersCheck :
    let s := applying {}
    ((s.seat 0).beforeDeadline = true ∧ (List.replicate (trayUnitLen unit1) (0 : Byte)).length = trayUnitLen unit1 ∧
      (s.libRead 0 ((s.seat 0).workingBase + 0) (unitLen unit1)).2.isSome = true) ∧
    ((s.seat 0).unit 0 0).isSome = true ∧ ((s.seat 0).mirrorUnit 0 0).isSome = true ∧ (s.seat 0).cm.seatState ≠ 2 ∧ (s.seat 0).cm.partnerOk = true ∧
    ({ cm := { live := 1, deadline := 5 }, tt := { stepPeriod := 5 } } : Seat).beforeDeadline = false ∧
    (let x : Xfer := { kind := .fill, step := 6, due := [(0, 0)] }
     ({ cm := { seatState := 4, xfers := [x] } } : Seat).xfer = some x ∧ x.due.contains (0, 0) = true ∧ x.failed.contains (0, 0) = false ∧
     ({ x with failed := [(0, 0)] } : Xfer).failed.contains (0, 0) = true) := by decide +kernel

theorem test_meets_AppliesAndPullsEnd :
    let s := applying { outcome := 1 }
    (s.seat 0).cm.applyStep = some 6 ∧ (s.seat 0).cm.handReq = none ∧ (∀ u ∈ (s.seat 0).mirrorUnits, ((s.seat 0).cm.res u).outcome ≠ 0) ∧
    (∀ g ∈ s.seatFields 0, 2 ≤ (s.field g).lb.mState.toNat) ∧ (s.seat 0).cm.partnerOk = true ∧ (s.seat 0).ck.state = 0 ∧
    (s.seat 0).ck.waitLand = false ∧ (s.seat 0).mirrorUnit 0 0 = some unit1 ∧ ({ resent := [(false, 0, 0)] } : Cm).resent.contains (false, 0, 0) = true ∧
    (s.seat 0).cm.resent.contains (false, 0, 0) = false ∧ (6 : BitVec 64) ≠ (s.seat 0).cm.committed ∧ ((one { cm := { seatState := 3 } }).seat 0).cm.xfers = [] ∧
    ((one { cm := { seatState := 3 } }).seat 0).cm.seatState = 3 ∧ ((one { cm := { seatState := 4, serving := true } }).seat 0).cm.serving = true := by
  decide +kernel

/-! ### Witnesses: Slate -/

/-- The owner's session, bound to partition 0, and a request of it. -/
def own : Session := { id := 1, owner := true, part := 0, bound := true }
def rq : Req := { sess := 1, seq := 1, part := 0 }
/-- Firmware runs, the owner's session is open in slot 0, and field 0's seat is as given. -/
def slate (k : Seat) : State := { one k with host := { layout := 0x688, sessions := [(0, some own)] }, px := { stage := 6 } }

/-- The request is admitted whatever its command needs, at any seat that is not wiped; in the expert form too. -/
theorem test_admitted (k : Seat) (h : k.wiping = false) (e : Bool) (cls cmd : Nat) (x : Rights) :
    Admitted (slate k) { rq with expert := e } 0 own cls cmd x := by
  refine ⟨⟨rfl, rfl, rfl, rfl, by show (1 : BitVec 64) ≠ 0; decide, by show (0 : Nat) < 1 + 4096; decide, rfl, ?_, .inl rfl⟩, ?_⟩
  · show (slate {}).allowed own 0 x = true
    cases x <;> decide +kernel
  · have hs : (slate k).seatIx 0 = 0 := by
      show (slate {}).seatIx 0 = 0
      decide +kernel
    have hk : ((slate k).seat 0).wiping = false := by
      unfold State.seat
      rw [hs]
      exact h
    show (false || (true && (slate k).partLive 0) && ((slate k).seat 0).wiping) = false
    rw [hk]
    simp

theorem test_meets_SlateAdmitsRequests :
    let s := slate {}
    let on (k : Session) : State := { s with host := { s.host with sessions := [(0, some k)] } }
    slateOf (.runStop rq 0) = some (rq, 4, 2, .bound) ∧ ({} : State).px.stage ≠ 6 ∧ ({ s with host := {} } : State).session 1 = none ∧
    s.session 1 = some (0, own) ∧ own.gen2 = false ∧ (on { own with gen2 := true }).session 1 = some (0, { own with gen2 := true }) ∧
    (slate { wiping := true }).wipingTarget 0 = true ∧ s.wipingTarget 0 = false ∧ (rq.seq ≠ 0 ∧ own.h.toNat < rq.seq.toNat + 4096) ∧
    ¬ (({ own with h := 4097 } : Session).h.toNat < rq.seq.toNat + 4096) ∧
    (let k : Session := { own with seen := [1], done := [(1, 0)] }
     k.seen.contains rq.seq = true ∧ k.busy.contains rq.seq = false ∧ k.kept.find? (fun z => z.seq == rq.seq) = none ∧
     k.done.find? (fun z => z.1 == rq.seq) = some (1, 0)) ∧
    ({ own with seen := [1], busy := [1] } : Session).busy.contains rq.seq = true ∧ s.tagOk rq.vlan = true ∧ s.tagOk (some 0) = false ∧
    ({ s with host := { s.host with vlan := 5 } } : State).tagOk (some 5) = true ∧ s.allowed { own with bound := false } 0 .bound = false := by
  decide +kernel

/-- A handshake of the owner for partition 0. -/
def hand1 : Handshake := { id := 9, owner := true, part := 0, small := false, keys := 0 }

theorem test_meets_SessionsAndPartitions :
    let s := slate {}
    let h (k : State) : State := { k with host := { k.host with pending := [hand1] }, store := { k.store with owner := some 5 } }
    (s.px.certsOk = true ∧ s.wipingTarget 0 = false ∧ s.host.pending.length < 4 ∧ (3 : BitVec 8).toNat < 4) ∧
    ((h s).session 9 = none ∧ (h s).host.pending.find? (fun x => x.id == 9) = some hand1 ∧ (h s).credOk hand1 ⟨5, true⟩ = true ∧
      (h s).credOk hand1 ⟨5, false⟩ = false ∧ (h s).ownerSlot = some 0) ∧
    (let e := h { s with host := { layout := 0x688 } }
     e.ownerSlot = none ∧ e.boundSlot 0 = none ∧ e.freeSlot = some 0 ∧ e.px.service = false) ∧
    (let t := h (slate {})
     t.boundSlot 0 = some 0 ∧ ({ hand1 with owner := false } : Handshake).part ≠ 7) ∧
    True := by decide +kernel

theorem test_meets_SessionsAndPartitions_status : Heard (slate { wiping := true }) rq 0 own 1 5 .any := by decide +kernel

theorem test_meets_SessionsAndPartitions_layout :
    let s := slate {}
    (layoutOk 0x688 = true ∧ layoutOk 0xDB6 = true ∧ layoutOk 0 = false ∧ s.changed 0x688 = [] ∧ s.changed 0xDB6 = [0, 1, 2, 3] ∧
      (∀ f ∈ s.changed 0xDB6, (s.seat f).plan = none) ∧ s.px.wipes = [] ∧ ((slate seat1).changed 0xDB6).find? (fun f => ((slate seat1).seat f).plan.isSome) = some 0) := by decide +kernel

/-- A seat with a plan, at rest. -/
def rest1 : Seat := { plan := some plan1 }

theorem test_meets_PlansAreStagedAndLoaded :
    let st : Staging := { plan := plan1, len := 100, addr := none, arrived := [(0, 100)] }
    let s := slate { rest1 with staging := some st }
    s.atRest 0 = true ∧ (slate seat1).atRest 0 = false ∧ (s.seat 0).staging = some st ∧ spansCover st.arrived 100 = true ∧ spansCover [(0, 99)] 100 = false ∧
    inLpddr (s.seatFields 0) (lpField - 100) 100 = true ∧ inLpddr (s.seatFields 0) (lpField - 99) 100 = false ∧
    planFault plan1 (s.seatFields 0) = none ∧ (planFault { plan1 with blocks := [] } (s.seatFields 0)).isSome = true := by decide +kernel

theorem test_meets_PlansAreStagedAndLoaded_admitted (st : Option Staging) (cmd : Nat) : Admitted (slate { rest1 with staging := st }) rq 0 own 3 cmd .bound :=
  test_admitted { rest1 with staging := st } rfl false 3 cmd .bound

/-- The header of step 7's inputs: no bytes, or four bytes of zero. -/
def hdr7 (n : Nat) : SatHeader := { step := 7, seed := 0, jobEpoch := 0, planVer := 3, inputLen := n, inputCrc := if n = 0 then 0 else 0x48674BC7 }

theorem test_meets_DeliveriesAndShardsLand :
    let s (x : SlotState) : State := slate { rest1 with cm := { own := [(1, { st := x, hdr := some (hdr7 4) })] } }
    (Admitted (slate rest1) rq 0 own 3 4 .bound ∧ (slate rest1).headerBad 0 false plan1 (hdr7 0) = none ∧
      ((slate rest1).headerBad 0 false plan1 { hdr7 0 with planVer := 4 }).isSome = true ∧ (((slate rest1).seat 0).cm.ownSlot 1).st = .free ∧ (hdr7 1).inputLen ≠ 0) ∧
    ((((s .live).seat 0).cm.ownSlot 1).holds 7 = true ∧ (((s .filling).seat 0).cm.ownSlot 1).holds 10 = false) := by decide +kernel

theorem test_meets_DeliveriesAndShardsLand_data :
    let s (x : SlotState) : State := { slate { rest1 with cm := { own := [(1, { st := x, hdr := some (hdr7 4) })] } } with fields := [(0, { mc := { gen := some 0 } })] }
    let w (g : Option Nat) : State := ({ s .filling with fields := [(0, { mc := { gen := g } })] } : State).libWrite 0 (((s .filling).seat 0).satchelBase 1 + 64) [0, 0, 0, 0]
    firstErr ((w (some 0)).readErr [0]) 64 4 = none ∧ firstErr ((w none).readErr [0]) 64 4 ≠ none ∧ (rest1.cm.hist = []) ∧
    (Admitted (s .filling) rq 0 own 3 5 .bound ∧ (((s .filling).seat 0).cm.ownSlot 1).st = .filling ∧ spansCover (addSpan [] 0 4) 4 = true ∧
      spansCover (addSpan [] 0 3) 4 = false ∧
      crc32c (Memory.readN ((s .filling).libWrite 0 (((s .filling).seat 0).satchelBase 1 + 64) [0, 0, 0, 0]).mem 64 4) = (hdr7 4).inputCrc) ∧
    Admitted (slate rest1) rq 0 own 3 6 .bound ∧ Admitted (slate rest1) rq 0 own 3 7 .bound ∧ (slate rest1).atRest 0 = true ∧
    ((slate rest1).seat 0).shardLen = 4096 ∧ ((slate {}).seat 0).plan = none := by decide +kernel

theorem test_meets_StartsAndStopsArePlaced :
    (1 : BitVec 64).toNat + 8192 ≤ 2 ^ 64 ∧ (basicBell 0).toNat = 4096 ∧ (basicBell 1).toNat = 8192 ∧
    Admitted (slate rest1) rq 0 own 4 1 .bound ∧ Admitted (slate rest1) { rq with expert := true } 0 own 4 2 .bound ∧
    (let s := slate { rest1 with cm := { seatState := 4, partnerOk := true } }
     (s.seat 0).cm.partnerOk = true ∧ s.mirrorStale 0 = true ∧ ({ s with fields := [(0, { lb := { mirrorFor := 0 } })] } : State).mirrorStale 0 = false) ∧
    ((slate rest1).seat 0).noShard = false ∧ ((slate { rest1 with noShard := true }).seat 0).noShard = true ∧
    (1 < ((slate rest1).block 0).length ∧ etype (((slate rest1).block 0).getD 1 0) = 1 ∧ etype (((slate rest1).block 0).getD 0 0) ≠ 1) := by decide +kernel

/-! ### Witnesses: reads, registers, the job, health, resets, dumps -/

/-- A seated seat with a plan of one unit and its memory readable. -/
def seated : Seat := { plan := some { plan1 with units := [unit1], mirrorUnits := [unit1], regions := { mirror := 0x10000, shard1 := 0x40000, tray0 := 0x20000 } }, cm := { seatState := 4 } }
def slateM (k : Seat) (b : Lb) : State := { slate k with fields := [(0, { mc := { gen := some 0 }, lb := b })] }

theorem test_meets_ReadsFollowTheCommit :
    let rd : OpenRead := { id := 1, sess := 1, step := 0 }
    let s := slateM { seated with reads := [rd] } {}
    Admitted s rq 0 own 5 1 .bound ∧ (s.seat 0).cm.seatState = 4 ∧ s.readsOf 1 < 8 ∧ (slateM { seated with reads := List.replicate 8 rd } {}).readsOf 1 = 8 ∧
    s.mirrorHeld 0 = false ∧ (slateM { seated with cm := { seatState := 4, partnerOk := true } } { mState := 2 }).mirrorHeld 0 = true ∧
    s.stepProven 0 0 = true ∧ (slateM { seated with cm := { partnerOk := true } } {}).stepProven 0 0 = false ∧
    ((s.seat 0).reads.find? (fun x => x.id == 1 && x.sess == rq.sess)) = some rd ∧ s.pieceReady 0 rd 0 64 = true := by decide +kernel

theorem test_meets_ReadsFollowTheCommit_serve :
    let rd : OpenRead := { id := 1, sess := 1, step := 0 }
    let mr : OpenRead := { rd with mirror := true, step := 5, restarts := 2, told := 2 }
    let s := slateM { seated with reads := [rd] } {}
    let u := s.admitted rq own
    (u.pieceBytes 0 rd 0 64).2.isSome = true ∧ (s.seat 0).readLen false false = 176 ∧ seated.cm.seatState = 4 ∧ rest1.cm.seatState ≠ 4 ∧
    (mr.now 6).told < (mr.now 6).restarts ∧ 3 ≤ (mr.now 6).restarts ∧ ¬ (rd.now 6).told < (rd.now 6).restarts ∧
    ((slateM { seated with waits := [⟨rq, some 0, false⟩] } {}).seat 0).waits = [⟨rq, some 0, false⟩] ∧
    ((slateM { seated with waits := [⟨rq, some 0, false⟩] } {}).session 1) = some (0, own) := by decide +kernel

theorem test_meets_RegistersAndLogsAreReadAndWritten :
    let s := slate {}
    (Admitted s rq 0 own 5 4 .boundOwner ∧ ((BitVec.ofNat 48 (ttBase 0) : Addr).toNat = ttBase 0) ∧ (regAddr (ttBase 0)).isSome = true ∧
      ((s.admitted rq own).sessionRead own (ttBase 0)).isSome = true ∧ own.mayRead ((regAddr (ttBase 0)).getD ⟨0, 0, 0⟩) = true) ∧
    (own.mayClear ((regAddr (prBase 0 + 0x38)).getD ⟨0, 0, 0⟩) = true ∧ own.mayClear ((regAddr (ttBase 0)).getD ⟨0, 0, 0⟩) = false) ∧
    (regAddr (mxBase 1999) = some ⟨2, 1999, 0⟩ ∧ regAddr (vxBase 1999 + 0x10) = some ⟨3, 1999, 0x10⟩ ∧ regAddr (mxBase 1999 + 0x20) = some ⟨2, 1999, 0x20⟩) ∧
    (256 : BitVec 64).getLsbD 8 = true ∧ regAddr (mxBase 1999 + 0x20 + 1) = none ∧ s.session 9 = none := by decide +kernel

theorem test_meets_SeatsArePairedAndHandedOver :
    let q : Seat := { seated with cm := { seatState := 4, partnerOk := true } }
    let s := slateM q { mState := 2, mirrorFor := 9 }
    let p : PeerSpec := { link := 5, node := 4, serial := 7 }
    (Admitted s rq 0 own 6 6 .bound ∧ s.px.factoryOpened = false ∧ peersOk rq [p] = true ∧ peersOk rq [{ p with link := 6 }] = false ∧ s.atRest 0 = true) ∧
    ((s.seat 0).xfer = none ∧ s.appliesEnded 0 = true ∧ (s.seat 0).fillUnits false 0 0 ≠ [] ∧ (s.seat 0).units.length = 1) ∧
    (s.seatOfReq rq).isSome = true ∧ ((slate { cm := { seatState := 1 } }).seat 0).cm.seatState = 1 ∧
    ((∀ g ∈ s.seatFields 0, 2 ≤ (s.field g).lb.mState ∧ 9 ≤ (s.field g).lb.mirrorFor) ∧ (s.seat 0).unitsWith 6 = [] ∧ (s.seat 0).unitsWith 5 = [] ∧
      (s.field 0).lb.unresolved = false ∧ (s.field 0).lb.selfChecked = false ∧ (s.field 0).lb.mState ≠ 4) ∧
    (slateM q { unresolved := true, selfChecked := true }).field 0 = { mc := { gen := some 0 }, lb := { unresolved := true, selfChecked := true } } ∧
    firstErr (s.readErr (s.seatFields 0)) ((s.seat 0).regions.mirror + unit1.offset) (unitLen unit1) = none ∧ (s.seatLinks 0).contains p.link = true := by decide +kernel

theorem test_meets_SeatsArePairedAndHandedOver_votes :
    let q (n : BitVec 3) : Seat := { seated with cm := { seatState := 4, partnerOk := true, units := [(0, { outcome := n })] } }
    (q 6).unitsWith 6 = [unit1] ∧ (q 5).unitsWith 5 ≠ [] ∧ (slateM (q 1) { mState := 3 }).appliesEnded 0 = false ∧ ∀ e ∈ (q 5).cm.units, e.2.unacked = false := by
  decide +kernel

theorem test_meets_CheckpointsAreCommanded :
    let x : SealRec := { gen := true, state := 2, step := 9, moduleId := 0 }
    let q : Seat := { rest1 with ck := { regionOk := true, keyOk := true, held := true, recB := some x, node := 4, lastCommit := some 7 } }
    let s : State := { slate q with links := [(3, { node := 4, pool := true, nodeOk := true })] }
    Admitted s rq 0 own 6 8 .bound ∧ (s.seat 0).plan.isSome = true ∧ (7 : BitVec 64) ≤ 7 ∧ ¬ (8 : BitVec 64) ≤ 7 ∧ (s.seat 0).ck.state = 0 ∧
    s.poolLink 0 (s.seatIx 0) = some 3 ∧ (slate q).poolLink 0 0 = none ∧ s.atRest 0 = true ∧
    recordOf (s.seat 0).ck 0 9 = some x ∧ recordOf (s.seat 0).ck 0 8 = none := by decide +kernel

theorem test_meets_HealthAndMaintenanceAct :
    let s := slate {}
    Admitted s rq 0 own 7 1 .any ∧ (∀ g ∈ s.seatFields 0, (s.field g).mc.oldLive = false ∧ (s.field g).hm.passes = []) ∧ s.coord.passes = [] ∧ s.coord.more = [] ∧
    inTarget rq (fieldOfLink 5) = true ∧ inTarget rq (fieldOfLink 6) = false ∧ ((lk 5 { st := .failed } s).link 5).ops = [] ∧ s.px.wipes = [] ∧
    scopeFields rq.part ≠ [] ∧ s.measurable 0 [527] = true ∧ (slate seat1).measurable 0 [0] = false ∧ (139 : BitVec 8).toNat = 139 ∧ s.store.sealed = false := by
  decide +kernel

theorem test_meets_HealthAndMaintenanceAct_sealed :
    let s : State := { slate {} with store := { sealed := true } }
    Admitted s rq 0 own 8 8 .owner ∧ (∀ g, g < 4 → (s.seat g).plan = none) ∧
    ((List.range 4).find? (fun g => ((slate rest1).seat g).plan.isSome)) = some 0 := by decide +kernel

/-- A dump of field 0 under way, and the reset that it belongs to. -/
def dump1 (x : Option Req) : Dump := { id := 4, cause := 2, part := 0, bell := 0, committed := 0, live := 0, planVer := 3, req := x }
def during (g : Rung) (done : Bool) (x : Option Req) : State :=
  { slate {} with px := { stage := 6, resets := [⟨g, 0, rq, some 4, done⟩] }, fields := [(0, { hm := { collecting := some (dump1 x) } })] }

theorem test_meets_ResetsCollectThenAct :
    (Admitted (slate {}) rq 0 own 8 4 .bound7 ∧ (slate {}).px.resets = [] ∧ (slate {}).collecting [0] = false) ∧
    (⟨.engineCore 7, 0, rq, none, false⟩ : ResetJob).inside ⟨.partition, 0, rq, none, false⟩ = true ∧ inTarget rq (fieldOfCore 499) = true ∧ inTarget rq (fieldOfCore 500) = false ∧
    (let s := during (.engineCore 499) false none
     (s.field 0).hm.collecting = some (dump1 none) ∧ (dump1 none).req = none ∧ s.session rq.sess = some (0, own)) ∧
    ((slate { ctxReset := true }).seat 0).ctxReset = true ∧ (during (.engineLink 5) true none).px.resets = [⟨.engineLink 5, 0, rq, some 4, true⟩] ∧
    (⟨.chip 30, 7, rq, some 4, true⟩ : ResetJob).waits = true := by decide +kernel

theorem test_meets_DumpsAreKeptAndFetched :
    let d : Dump := { dump1 none with data := [1, 2] }
    let s : State := { slate {} with fields := [(0, { hm := { dumps := [d] } })] }
    Admitted s rq 0 own 9 1 .bound7 ∧ recipeOk [{ kind := 4, arg := 7 }] = true ∧ recipeOk [{ kind := 4, arg := 8 }] = false ∧ s.collecting (dumpFields 0) = false ∧
    ({ during .context false (some rq) with px := { stage := 6 } } : State).collecting (dumpFields 0) = true ∧ s.shares 0 4 = [d] ∧ s.shares 0 5 = [] ∧
    (∀ w ∈ s.px.resets, w.waits = false) ∧ d.data.length = 2 := by decide +kernel

/-! ### Witnesses: wipes, boot, tokens, generation 2 -/

theorem test_meets_WipesClearTheirScope :
    let w : WipeJob := { scope := 0 }
    let s (w : WipeJob) : State := { slate {} with px := { stage := 6, wipes := [w] } }
    ((s w).px.wipes.find? (fun x => x.scope == 0 && !x.started) = some w ∧ (s w).seatIx 0 = 0 ∧ (s w).partLive 0 = true ∧ w.why = .request) ∧
    (s { w with started := true }).px.wipes.find? (fun x => x.scope == 0 && x.started) = some { w with started := true } ∧ scopeFields 7 = [0, 1, 2, 3] ∧
    (∀ j, j < 4 → ∀ x, (slate {}).slot j = some x → (slate {}).session x.id = some (j, x)) ∧ (slate {}).session rq.sess = some (0, own) := by
  refine ⟨by decide +kernel, by decide +kernel, by decide +kernel, ?_, by decide +kernel⟩
  intro j hj x h
  match j, hj, h with
  | 0, _, h => cases h; decide +kernel

/-- Bytes of zeros. -/
def zeros (n : Nat) : List Byte := List.replicate n 0

/-- A manifest with good signatures: a stepping, an SVN, an image length and an image digest. -/
def man (step svn len : Nat) (digest : List Byte) : Manifest :=
  { bytes := leBytes 4 0x4E415A53 ++ leBytes 2 1 ++ leBytes 1 step ++ [0] ++ leBytes 1 svn ++ zeros 7 ++ leBytes 8 len ++ zeros 16 ++ digest ++ zeros 5357,
    edOk := true, mldsaOk := true }

theorem test_meets_BootRunsItsStages :
    let m := man 0xA1 64 9 (zeros 48)
    State.reset.romRuns = true ∧ State.reset.px.stage ≤ 1 ∧ m.bytes.length = 5445 ∧ m.magicOk = true ∧ m.reservedOk = true ∧ m.svn = 64 ∧ m.stepping = 0xA1 ∧
    m.imageLen = 9 ∧ (man 0xA1 65 9 (zeros 48)).svn = 65 ∧ (man 0 64 9 (zeros 48)).stepping = 0 ∧
    ({ State.reset with px := { stage := 3, manifest := some m } } : State).romRuns = true := by decide +kernel

/-- The ROM whose keys are the manifest's accepts it. -/
theorem test_meets_BootRunsItsStages_accepts : manifestFault (man 0xA1 64 9 (zeros 48)) (man 0xA1 64 9 (zeros 48)).keyDigest 64 = none ∧
    manifestFault (man 0xA1 63 9 (zeros 48)) (man 0xA1 63 9 (zeros 48)).keyDigest 64 = some 6 ∧
    manifestFault (man 0xA1 65 9 (zeros 48)) 0 0 = some 1 ∧ manifestFault (man 0xA2 64 9 (zeros 48)) 0 0 = some 2 := by
  have fits (n : Nat) (h1 : ¬ (!(man 0xA1 n 9 (zeros 48)).magicOk ∨ !(man 0xA1 n 9 (zeros 48)).reservedOk ∨ 64 < (man 0xA1 n 9 (zeros 48)).svn))
      (h2 : ¬ (man 0xA1 n 9 (zeros 48)).stepping ≠ 0xA1) :
      manifestFault (man 0xA1 n 9 (zeros 48)) (man 0xA1 n 9 (zeros 48)).keyDigest 64 = if (man 0xA1 n 9 (zeros 48)).svn < 64 then some 6 else none := by
    unfold manifestFault
    rw [if_neg h1, if_neg h2, if_neg (fun h => h rfl), if_neg (by simp [man]), if_neg (by simp [man])]
  refine ⟨(fits 64 (by decide +kernel) (by decide +kernel)).trans (by decide +kernel),
    (fits 63 (by decide +kernel) (by decide +kernel)).trans (by decide +kernel), by decide +kernel, by decide +kernel⟩

/-- A token with good signatures for the module of serial 0 and challenge 0: its kind, signer, OWNER_GEN and DURATION. -/
def tok (kind signer gen dur : Nat) : Token :=
  { bytes := leBytes 4 0x4B545A53 ++ leBytes 2 1 ++ leBytes 1 kind ++ leBytes 1 signer ++ zeros 48 ++ leBytes 4 gen ++ leBytes 4 dur ++ zeros 5357, sigsOk := true }

theorem test_meets_TokensAndReports :
    let x (n : Nat) : Token := tok 2 0 0 n
    let y (n : Nat) : Token := tok 5 1 n 0
    let s : State := { slate {} with px := { stage := 6, challenge := 0 }, store := { (slate {}).store with serial := 0, owner := some 5 } }
    let h : State := { s with host := { layout := 0x688, pending := [hand1] } }
    Admitted s rq 0 own 8 7 .owner ∧ s.tokenResult (x 86400) 2 true = 1 ∧ s.tokenResult (x 86401) 2 true = 7 ∧ s.tokenResult (y 1) 5 true = 1 ∧
    s.tokenResult (y 0) 5 true = 5 ∧ h.session 9 = none ∧ h.host.pending.find? (fun x => x.id == 9) = some hand1 ∧
    h.tokenResult (tok 1 0 1 0) 1 true = 1 ∧ h.ownerSlot = none ∧ h.freeSlot = some 0 ∧ ({ s with px := { service := true } } : State).px.service = true := by
  decide +kernel

/-- A generation 2 session on the whole module. -/
def tenant2 : Session := { id := 1, owner := false, part := 6, bound := true, gen2 := true }
def q2 : Req2 := { sess := 1, seq := 1 }
def slate2 (k : Seat) : State := { seats := [(0, k)], host := { gen2En := true, sessions := [(0, some tenant2)] }, px := { stage := 6 } }

theorem test_meets_Generation2StandsForGeneration3 :
    let s := slate2 rest1
    (∀ e ∈ [(1, 4, Rights.any), (1, 5, .any), (3, 1, .bound), (3, 3, .bound), (4, 1, .bound), (5, 4, .boundOwner), (8, 4, .bound7), (9, 1, .bound7), (9, 3, .bound7)],
      Admitted2 s q2 0 tenant2 e.1 e.2.1 e.2.2) ∧ s.atRest 0 = true ∧ gen2Of (.gen2Halt q2) = some q2 ∧ s.partLive 6 = true ∧ (s.boundSlot 6).isSome = true ∧
    s.collecting [0, 1, 2, 3] = false ∧ s.tagOk q2.vlan = true ∧ (s.seat 0).noShard = false ∧ (s.seat 0).cm.partnerOk = false ∧ (s.seat 0).cm.hist = [] ∧ (s.seat 0).cm.seatState ≠ 1 ∧ (s.seat 0).ck.state = 0 ∧ s.host.pending.length ≤ 4 ∧
    (let e : State := { s with host := { gen2En := true, grants := [⟨6, 5, 0⟩] } }
     e.boundSlot 6 = none ∧ e.freeSlot = some 0 ∧ e.session 1 = none ∧ e.cred2 ⟨5, true⟩ = true ∧ e.px.certsOk = true ∧ e.wipingTarget 6 = false) := by
  decide +kernel

/-- A plan for the whole module that only holds. -/
def plan4 : Plan := { plan1 with hdr := { plan1.hdr with blockLens := [3, 3, 3, 3] },
                                 blocks := List.replicate 4 [ent 5 [(1, 122), (0, 117), (0, 93)], ent 1 [(0, 107), (8, 75)], ent 7 []] }

theorem test_meets_Generation2StandsForGeneration3_owner :
    let k : Session := { tenant2 with owner := true }
    let s : State := { slate2 rest1 with host := { gen2En := true, sessions := [(0, some k)] } }
    Admitted2 s q2 0 k 8 4 .owner ∧ s.headerBad 0 false plan1 (hdr7 4) = none ∧ planFault plan1 (s.seatFields 0) ≠ none ∧ planFault plan4 (s.seatFields 0) = none ∧
    ((s.seat 0).cm.ownSlot 1).st = .free ∧ (s.seat 0).shardLen = 4096 := by decide +kernel

/-! ### Witnesses: the port, power, the Hall Monitor, counters, the queue -/

theorem test_meets_PortPowerResetAndSidebandAct :
    let s := State.reset
    s.romRuns = true ∧ s.pw.powered = true ∧ s.pw.trip = false ∧ s.pw.pg = true ∧ ({ s with host := { up := true } } : State).host.up = true ∧
    ({ s with pw := { powered := false } } : State).pw.powered = false ∧ ({ s with pw := { pwrEn := false } } : State).pw.pwrEn = false ∧
    (let t : State := { s with pw := { trip := true, rstN := false, die := 99 } }
     t.pw.trip = true ∧ t.pw.rstN = false ∧ t.pw.die.toNat < 100 ∧ t.pw.pg = true ∧ t.pw.powered = true) ∧ (100 : BitVec 8).toNat = 100 ∧
    s.pw.i3cAddr = none ∧ ({ i3cAddr := some 8 } : Power).i3cAddr.isSome = true ∧ (s.host.own6 ++ s.host.groups true) ≠ [] ∧
    s.i3cHeard = false ∧ ({ s with pw := { s.pw with i3cAddr := some 8 } } : State).i3cHeard = true ∧ s.host.ipv4 = none ∧ s.pw.vio = true ∧
    s.tagOk (some 0) = false ∧ s.tagOk none = true ∧ s.host.own6.contains ((s.host.own6).headD 0) = true ∧
    (s.counter (pwBase + 0x40)).count.toNat < 0xFFFFFFFF := by decide +kernel

theorem test_meets_PortPowerResetAndSidebandAct_rstN :
    State.reset.romRuns = true ∧ (lk 3 up {}).romRuns = true ∧ ((lk 3 up {}).link 3).st.active = true ∧ Tab.wf (fun _ => ({} : Link)) (lk 3 up {}).links = true ∧
    ({ pw := { rstN := false } } : State).romRuns = false ∧ ({ rstN := false } : Power).trip = false ∧ ({ pg := false } : Power).pg = false := by decide +kernel

theorem test_meets_HallMonitorActs :
    let s (h : Hm) : State := { fields := [(0, { hm := h, mc := { due := [35] } })] }
    let a : Pass := { code := 1, resource := 3 }
    (Tab.wf (fun _ => ({} : Card)) (({} : State).field 0).hm.cards = true ∧ (s {}).quizReady 0 526 = true ∧ (s {}).quizReady 0 527 = true ∧
      ((s { quiz := some ⟨526, 527, none⟩ }).field 0).hm.quiz = some ⟨526, 527, none⟩) ∧
    ((s { measuring := [(5, 32)] }).field 0).hm.measuring.contains (5, 32) = true ∧
    ((s { copies := [⟨4, 4, 527, false⟩] }).field 0).hm.copies.find? (fun c => !c.done) = some ⟨4, 4, 527, false⟩ ∧
    (((s { waiting := [a] }).field 0).hm.passes = [] ∧ (s {}).coord.passes = [] ∧ (s {}).coord.more = [] ∧ ({ comb := true } : Hm).comb = true ∧ ((s { waiting := [a] }).field 0).hm.waiting = [a] ∧ a.code = 1 ∧
      ((s {}).field 0).mc.due.find? (fun q => q % 32 == a.resource.toNat) = some 35) ∧
    ((s {}).field 0).hm.coreOn 4 = some 4 ∧ (((s {}).field 0).hm.bestSpare).isSome = true ∧ ((lk 2 up {}).link (6 * 0 + 2)).st = .locked ∧
    (s {}).idleSeat 0 = true ∧ (s {}).measurable 0 [512] = true := by decide +kernel

theorem test_meets_HallMonitorActs_cards :
    let h : Hm := { cards := [(3, { st := .remedial, d := 0x12C00 })] }
    (h.card 0 3).st = .remedial ∧ (h.card 0 3).score = 300 ∧ ({ cards := [(3, { st := .remedial, d := 0xC700 })] } : Hm).cardAt 3 = { st := .remedial, d := 0xC700 } ∧
    (({ cards := [(3, { st := .remedial, d := 0xC700 })] } : Hm).card 0 3).score < 200 ∧
    State.reset.pw.powered = true ∧ 53 < cardCount 4 ∧ ¬ 54 < cardCount 4 := by decide +kernel

/-- R365: 2,000 × (0.75 − 0.70) = 100 points. -/
theorem test_level_term :
    (let s := execTelemetryWindow { grade := 3, watts := 0, levels := [⟨1, 4, 7, 0, 7000⟩] } State.reset
     ((s.field 1).hm.card 4 7).level = 100 ∧ ((s.field 1).hm.card 4 7).score = 100) := by decide +kernel

theorem test_meets_CountersFollowR360 :
    let s (k : Counter) : State := { host := { sessions := [(0, some own)] }, counters := [(prBase 0 + 0x38, k)] }
    (s { count := 0xFFFFFFFF, sat := true }).counter (prBase 0 + 0x38) = { count := 0xFFFFFFFF, sat := true } ∧
    ((s { count := 0xFFFFFFFF }).counter (prBase 0 + 0x38)).count = 0xFFFFFFFF ∧ prBase 0 + 0x38 ≠ satCountAddr (counterOwner (prBase 0 + 0x38)) ∧
    (counterOwner (prBase 0 + 0x38) = 0 ∧ counterOwner (pwBase + 0x40) = 4) ∧
    (regAddr (prBase 0 + 0x38)).isSome = true ∧ ((regAddr (prBase 0 + 0x38)).getD ⟨0, 0, 0⟩).isCounter = true ∧ (s {}).session 1 = some (0, own) ∧
    own.mayClear ((regAddr (prBase 0 + 0x38)).getD ⟨0, 0, 0⟩) = true ∧ (0x100000000 : BitVec 64).setWidth 32 = (0 : BitVec 32) ∧
    (regAddr (ttBase 0)).isSome = true ∧ ((regAddr (ttBase 0)).getD ⟨0, 0, 0⟩).isCounter = false ∧ (s {}).session 9 = none ∧ (k0.fault.toNat % 256 = 0) := by
  decide +kernel

/-! ### Witnesses: where the commands complete -/

theorem test_meets_RegisterAndLogCommandsComplete :
    let s := slate {}
    let x := (regAddr (prBase 0 + 0x38)).getD ⟨0, 0, 0⟩
    (regAddr (prBase 0 + 0x38) = some x ∧ s.mayClear (.session 1) x = true ∧ s.mayClear .sideband x = false ∧
      ({ s with pw := { s.pw with i3cAddr := some 8 } } : State).mayClear .sideband ((regAddr (pwBase + 0x40)).getD ⟨0, 0, 0⟩) = true ∧ own.mayClear x = true) ∧
    ((256 : BitVec 64).getLsbD 8 = true ∧ (k0.lessonWrite 0 (mxBase 0 + 0x18) 5).isSome = true ∧ (k0.lessonWrite 0 (vxBase 0 + 0x10) 5).isSome = true) ∧
    ((BitVec.ofNat 48 (ttBase 0) : Addr).toNat = ttBase 0 ∧ own.mayRead ((regAddr (ttBase 0)).getD ⟨0, 0, 0⟩) = true ∧
      ((s.admitted rq own).sessionRead own (ttBase 0)).isSome = true) ∧
    Admitted s rq 0 own 7 3 .boundOwner ∧ Admitted s rq 0 own 5 4 .boundOwner ∧ Admitted s rq 0 own 5 5 .bound7 ∧ rq.part ≠ 7 := by decide +kernel

theorem test_meets_RegisterAndLogCommandsComplete_module :
    Admitted (slate {}) { rq with part := 7 } 0 own 5 5 .bound7 := by decide +kernel

theorem test_meets_RunAndReadCommandsComplete :
    let s := slate rest1
    (Admitted s rq 0 own 4 1 .bound ∧ Admitted s { rq with expert := true } 0 own 4 1 .bound ∧ Admitted s rq 0 own 4 2 .bound) ∧
    ((s.seat 0).plan = some plan1 ∧ (s.seat 0).noShard = false ∧ (s.seat 0).cm.partnerOk = false ∧ 1 < (s.block (s.seatIx 0)).length ∧
      etype ((s.block (s.seatIx 0)).getD 1 0) = 1 ∧ (s.seat 0).tt.bell.toNat + 16 ≤ (16 : BitVec 64).toNat ∧ (s.seat 0).tt.bell < 1) := by decide +kernel

theorem test_meets_RunAndReadCommandsComplete_reads :
    let rd : OpenRead := { id := 1, sess := 1, step := 0 }
    let s := slateM { seated with reads := [rd] } {}
    let w := slateM { seated with waits := [⟨rq, some 0, false⟩] } {}
    (Admitted s rq 0 own 5 1 .bound ∧ (s.seat 0).plan.isSome = true ∧ (s.seat 0).cm.seatState = 4 ∧ s.readsOf rq.sess < 8 ∧ (s.seat 0).cm.clipDue = false ∧
      (slateM { seated with cm := { seatState := 4, partnerOk := true } } { mState := 2 }).mirrorHeld 0 = true) ∧
    ((w.seat 0).waits = [⟨rq, some 0, false⟩] ∧ (w.seat 0).pieces = [] ∧ w.session rq.sess = some (0, own) ∧ own.gen2 = false ∧
      w.stepProven 0 (w.seat 0).cm.committed = true) ∧
    ((s.seat 0).reads.find? (fun x => x.id == 1 && x.sess == rq.sess) = some rd ∧ Admitted s rq 0 own 5 3 .bound ∧ Admitted s rq 0 own 5 2 .bound ∧
      rd.restarts ≤ rd.told ∧ 0 + 64 ≤ (s.seat 0).readLen false rd.history ∧ s.pieceReady 0 rd 0 64 = true ∧
      ((s.admitted rq own).pieceBytes 0 rd 0 64).2.isSome = true) := by decide +kernel

theorem test_meets_BootAndWipeCommandsComplete :
    let s (p : Proctor) : State := { px := p }
    let w : WipeJob := { scope := 0 }
    ((s {}).romRuns = true ∧ (s {}).px.stage ≤ 1 ∧ (s { stage := 1 }).px.stage = 1 ∧ (s { stage := 2 }).romRuns = true ∧ (s { stage := 4 }).px.stage = 4 ∧
      ((s { stage := 2 }).px.buf ++ zeros 5444).length < 5445 ∧ 5445 ≤ ((s { stage := 2, buf := [1] }).px.buf ++ zeros 5444).length ∧ (6 : Nat) < 7) ∧
    (s { stage := 5 }).px.stage = 5 ∧ (s { wipes := [w] }).px.wipes.find? (fun x => x.scope == 0 && !x.started) = some w ∧
    (s { wipes := [{ w with started := true }] }).px.wipes.find? (fun x => x.scope == 0 && x.started) = some { w with started := true } := by decide +kernel

/-- An image of one byte, and the manifest that names its digest and its length. -/
theorem test_meets_BootAndWipeCommandsComplete_image :
    let m := man 0xA1 64 1 (leBytes 48 (Config.sha384 [7]).toNat)
    Config.sha384 ([] ++ [7]) = m.imageDigest ∧ ([] ++ [(7 : Byte)]).length = m.imageLen := by
  refine ⟨?_, by show 1 = ofLe ((leBytes 8 1 ++ _).take 8); rfl⟩
  have hd : ((man 0xA1 64 1 (leBytes 48 (Config.sha384 [7]).toNat)).bytes.drop 0x28).take 48 = leBytes 48 (Config.sha384 [7]).toNat := by
    show (leBytes 48 _ ++ zeros 5357).take 48 = _
    rw [List.take_append_of_le_length (by simp), List.take_of_length_le (by simp)]
  show _ = BitVec.ofNat 384 (ofLe _)
  rw [hd, ofLe_leBytes, Nat.mod_eq_of_lt (by have := (Config.sha384 [7]).isLt; omega), BitVec.ofNat_toNat, BitVec.setWidth_eq]
  rfl

theorem test_meets_Generation2CommandsComplete :
    let s := slate2 rest1
    let st : Staging := { plan := plan4, len := 100, addr := none, arrived := [(0, 100)] }
    let t := slate2 { rest1 with staging := some st, cm := { seatState := 4, own := [(1, { st := .filling, hdr := some (hdr7 4) })] } }
    (∀ e ∈ [(3, 2, Rights.bound), (3, 6, .bound), (3, 7, .bound), (3, 5, .bound), (4, 2, .bound), (5, 1, .bound), (7, 1, .any)], Admitted2 s q2 0 tenant2 e.1 e.2.1 e.2.2) ∧
    s.atRest 0 = true ∧ (s.seat 0).noShard = false ∧ (s.seat 0).cm.partnerOk = false ∧ s.headerBad 0 false plan1 (hdr7 4) = none ∧
    ((s.seat 0).cm.ownSlot 1).st = .free ∧ 0 + 4096 ≤ (s.seat 0).shardLen ∧ s.px.resets = [] ∧ s.collecting [0, 1, 2, 3] = false ∧
    (t.atRest 0 = true ∧ (t.seat 0).staging = some st ∧ spansCover st.arrived st.len = true ∧ (t.seat 0).cm.seatState = 4 ∧
      ((t.seat 0).cm.ownSlot 1).holds 7 = true ∧ ((t.seat 0).cm.ownSlot 1).st = .filling ∧ spansCover (addSpan [] 0 3) 4 = false) ∧
    tenant2.mayRead ((regAddr (ttBase 0)).getD ⟨0, 0, 0⟩) = true ∧ ((s.admitted { rq with part := 6 } tenant2).sessionRead tenant2 (ttBase 0)).isSome = true := by
  decide +kernel

theorem test_meets_StepTakesTheFront :
    ({ pending := [.nop 0 {}, .bell 0 0] } : State).pending = .nop 0 {} :: [.bell 0 0] ∧ State.reset.pending = [] := by decide +kernel

theorem test_meets_EveryStepKeepsTheCanonicalForm : ∃ t, step State.reset = .next t := ⟨_, rfl⟩

theorem test_meets_ChalkWordsRoundTrip :
    WellFormed.wfIns (.add 1999 { dst := 31, sa := 31, sb := 31 }) = true ∧ (opOf (.add 1999 { dst := 31, sa := 31, sb := 31 })).isSome = true ∧
    decodeIns 1999 (encodeIns (.add 1999 { dst := 31, sa := 31, sb := 31 })).get! = some (.add 1999 { dst := 31, sa := 31, sb := 31 }) := by decide +kernel

theorem test_meets_RefusedAndHeldAccesses_forms :
    let e (n : Nat) : Nat := k0.effAddr { sa := 1, imm := BitVec.ofNat 32 n }
    (e 0x7FFFF8 + 64 > desk0 + 0x800000 ∧ desk0 ≤ e 8 ∧ e 8 + 64 ≤ desk0 + 0x800000 ∧ e 8 % 64 ≠ 0) ∧
    (k0.effAddr { sa := 0 } = slateBase 0 ∧ slateBase 0 % 64 = 0 ∧ slateBase 0 < slateBase 0 + 8 * k0.codeLen) ∧
    (k0.areg 1).toNat = desk0 ∧ ({ k0 with fault := 0x100000002 } : Core).fault.toNat % 256 ≠ 0 ∧
    (let s : State := at0 { k0 with stall := some (.store desk0 [1]) }
     (s.core 0).mode = .running ∧ (s.core 0).inside ∧ (s.core 0).stall = some (.store desk0 [1]) ∧ s.meetsSeal desk0 1 = false ∧
     (s.writeErr (s.seatFields 0) desk0 1 desk0).isNone = true) ∧
    ({ sealed0 with cores := [(0, { k0 with seals := 8, stall := some (.store desk0 [1]) })] } : State).meetsSeal desk0 1 = true := by decide +kernel

/-- A descriptor of sixteen FP32 elements at an address. -/
def row16 (base : Nat) : BitVec 512 := BitVec.ofNat 512 (base + 7 * 2 ^ 48 + 2 ^ 64 + 16 * 2 ^ 88 + 2 ^ 112 + 2 ^ 128 + 64 * 2 ^ 144)

theorem test_meets_DmaJoinsAndMoves_elements :
    let d := row16 desk0
    let a := row16 (desk0 + 0x8000)
    let k : Core := { k0 with dmaQ := [{ kind := .elements d a, tag := 1, pc := 0, op := 0x61 }] }
    let s := at0 k
    (s.core 0).dmaQ[0]? = some { kind := .elements d a, tag := 1, pc := 0, op := 0x61 } ∧ (descOf d).legal allFmts allKinds true = true ∧
    (descOf a).legal allFmts allKinds false = true ∧ (descOf d).fmt = (descOf a).fmt ∧ (descOf d).count = (descOf a).count ∧
    s.anySeal (descOf d).ranges = false ∧ 15 < (descOf d).count ∧
    (∀ r ∈ (descOf d).ranges, ∀ q ∈ (descOf a).ranges, r.1 + r.2 ≤ q.1 ∨ q.1 + q.2 ≤ r.1) ∧
    s.rangesErr 0 (descOf d).ranges = none ∧ s.tensorErr 0 (descOf a) = none ∧
    (({ s with bad := [desk0 + 64] } : State).readErr [0] (desk0 + 64)).isSome = true := by decide +kernel

theorem test_meets_WaitingInstructionsHoldAndComplete_stalls :
    let op : VecOp := { kind := .vop 1, d := tile desk0 7 256, a := tile (desk0 + 0x8000) 7 256, tag := 1, pc := 0, op := 0x80 }
    let k (n : Nat) (w : Stall) : Core := { (if n = 0 then k0 else { k0.tagAdd 1 with vecQ := [op] }) with stall := some w }
    ((k 0 (.vflg 3 1)).tag 1 = 0 ∧ (k 1 (.vflg 3 1)).tag 1 ≠ 0 ∧ (k 0 (.vget 3 1)).tag 1 = 0 ∧ (k 1 (.vget 3 1)).tag 1 ≠ 0) ∧
    ((k 0 (.fence 8)).fenceDone 8 = true ∧ (k 1 (.fence 8)).fenceDone 8 = false ∧ (k 0 (.sealing 3)).writesDone = true ∧
      (k 1 (.sealing 3)).writesDone = false) ∧
    ((2 : BitVec 16).getLsbD 1 = true ∧ (k 1 (.tags 2)).tag 1 ≠ 0 ∧ (k 1 (.tags 2)).mode = .running ∧ (k 1 (.tags 2)).inside) := by decide +kernel

theorem test_meets_ControlInstructionsHaveTheirEffect_parks :
    let s := at0 k0
    (s.seat (fieldOfCore 0)).tt.stepPeriod < (1 : BitVec 32) ∧ (0 : BitVec 32) ≤ (s.seat (fieldOfCore 0)).tt.stepPeriod ∧
    (s.seat (fieldOfCore 0)).tt.stepPeriod < ((k0.setS 1 5).sreg 1).setWidth 32 := by decide +kernel

theorem test_meets_ArrayOperationsComplete_service :
    let v : Svc := { requester := 250, started := false }
    ({ k0 with svc := some v } : Core).svc = some v ∧ v.started = false ∧ k0.svc = none := by decide +kernel

theorem test_meets_VectorEngineRuns_adds :
    let o : VecOp := { kind := .vop 2, d := row16 desk0, a := row16 (desk0 + 0x8000), b := row16 (desk0 + 0x10000), tag := 1, pc := 0, op := 0x80 }
    let s := at0 { k0 with vecQ := [o], vecBusy := true }
    (s.core 0).vecQ = [o] ∧ o.empty = false ∧ s.vecErr 0 o = none ∧ s.anySeal (o.writes 0) = false ∧
    vopLegal 0 2 0 (descOf o.d) (descOf o.a) (descOf o.b) (descOf o.c) = true ∧ (descOf o.d).fmt = 7 ∧ (descOf o.a).fmt = 7 ∧ (descOf o.b).fmt = 7 ∧
    (descOf o.d).count = (descOf o.a).count ∧ (descOf o.b).count = (descOf o.a).count ∧ (descOf o.d).histoff = 0 ∧ (descOf o.d).flagoff = 0 ∧
    (∀ r ∈ (descOf o.d).ranges, ∀ q ∈ (descOf o.a).ranges ++ (descOf o.b).ranges, r.1 + r.2 ≤ q.1 ∨ q.1 + q.2 ≤ r.1) := by decide +kernel

/-- Step 7's attempt 4 awaits its verdict: its slot LIVE, the word of its periods as given. -/
def judged (w : BitVec 64) : Seat :=
  { seat1 with cm := { own := [(0, { st := .held, hdr := some { step := 6, seed := 0, jobEpoch := 0, planVer := 3, inputLen := 0, inputCrc := 0 } }),
                               (1, { st := .live, hdr := some { step := 7, seed := 0, jobEpoch := 0, planVer := 3, inputLen := 0, inputCrc := 0 } })] },
               tt := { seat1.tt with accs := [(4, w)] } }

theorem test_meets_BellAdvancesTheCount_verdicts :
    let q (w : BitVec 64) : Seat := judged w
    let good := emptyWord 3
    let v (w : BitVec 64) : Verdict := judgeWord w false 0 2
    (Tab.wf (fun _ => ({} : Slot)) (q good).cm.own = true ∧ Tab.wf (fun _ => ({} : Slot)) (q good).cm.copy = true) ∧
    ((v good).commit = true ∧ wordMirror good = true ∧ (v (good ||| 1)).commit = false ∧ (q good).tt.accs = [(4, good)]) ∧
    (((q good).cm.ownSlot 1).holds 7 = true ∧ ((q good).cm.ownSlot 1).st = .live ∧ ((q good).cm.ownSlot 0).holds 6 = true ∧
      ((q good).cm.ownSlot 0).st = .held) := by decide +kernel

theorem test_meets_BellAdvancesTheCount_cores :
    let r : BitVec 64 := BitVec.ofNat 64 (1 + 5 * 131072 + 9 * 2 ^ 32)
    let s : State := { one seat1 with cores := [(0, { k0 with entries := [r] })] }
    (s.partLive (s.partOf 0) = true ∧ (s.seat 0).plan.isSome = true ∧ (s.seat 0).tt.hold = false ∧ fieldOfCore 0 ∈ s.seatFields 0 ∧
      (s.core 0).mode = .running ∧ (s.seat 0).sealMissed = false) ∧
    (∀ c, ¬ (((one seat1).core c).mode = .running ∨ ((one seat1).core c).mode = .faulted)) ∧
    ((s.core 0).codeLen ≠ 0 ∧ (s.core 0).entries.find? (fun x => x.toNat % 131072 == 1) = some r ∧
      (s.core 0).entries.find? (fun x => x.toNat % 131072 == 2) = none) ∧
    Tab.wf (fun _ => ({} : Counter)) s.counters = true ∧ Tab.wf (fun _ => ({} : Counter)) s.latched = true ∧
    (counterOwner (pxBase + 0x50) = 4 ∧ counterOwner (ttBase 0 + 0x50) ∈ s.seatFields 0 ∧ counterOwner (ttBase 1 + 0x50) ∉ s.seatFields 0) := by
  refine ⟨by decide +kernel, ?_, by decide +kernel, by decide +kernel, by decide +kernel, by decide +kernel⟩
  intro c h
  have hc : (one seat1).core c = Core.reset c := rfl
  rw [hc] at h
  exact h.elim (fun h => nomatch h) (fun h => nomatch h)

theorem test_meets_StartsStopsAndSilence_sync :
    let s (n : BitVec 2) (root : Bool) : State := lk 0 up (one { seat1 with tt := { seat1.tt with syncState := n, isRoot := root } })
    ((s 2 true).seat 0).tt.isRoot = true ∧ ((s 2 false).seat 0).tt.syncState = 2 ∧ ((s 0 false).seat 0).tt.syncState = 0 ∧
    ((10000 : BitVec 32).toInt.natAbs ≤ 10000 ∧ 10000 < (0xFFFFD8EF#32).toInt.natAbs ∧ (100000 : BitVec 32).toInt.natAbs ≤ 100000 ∧
      100000 < (100001 : BitVec 32).toInt.natAbs) ∧ 0 ∈ (s 2 false).seatLinks 0 ∧ ((s 2 false).link 0).st = .locked := by decide +kernel

theorem test_meets_StatusWordsCombine_fold :
    let s (k : Tt) : State := one { seat1 with tt := { k with hold := false, bell := 100 } }
    ((s { isRoot := true, combined := [(97, 5)], periodOf := [(97, 4)] }).effective 0 97).isSome = true ∧
    (s { periodOf := [(97, 4)] }).effective 0 97 = none ∧ (100 : BitVec 64) - 1 - ((s {}).seat 0).tt.lag.setWidth 64 = 97 ∧
    Tab.find ((s {}).seat 0).tt.periodOf 97 = none := by decide +kernel

/-- A branch of Table 02-8 whose masks are 1, 2 and 4; with IDX1 a table of one JUMP behind it for layer 5. -/
def branchAt (idx : Nat) (w : BitVec 64) : Walk × List Entry :=
  ({ s := one { seat1 with tt := { seat1.tt with win := some w } } }, [ent 3 [(idx, 122), (2, 105), (1, 88), (3, 71), (4, 54), (1, 44), (2, 34), (4, 24), (5, 8)],
    ent 6 [(9, 107)]])

theorem test_meets_StatusWordsCombine_branch :
    let e := (branchAt 1 0).2.getD 0 0
    (efield e 53 44 = 1 ∧ efield e 43 34 = 2 ∧ efield e 33 24 = 4 ∧ efield e 122 122 = 1 ∧ efield e 23 8 = 5 ∧ efield e 104 88 = 1) ∧
    jumpTableEnd (branchAt 1 0).2 2 1 = 2 ∧ efield ((branchAt 0 0).2.getD 0 0) 122 122 = 0 ∧
    (let v (w : BitVec 64) : Nat := (condWord w).toNat
     let w := emptyWord 3
     v w &&& 7 = 0 ∧ v (w ||| 1) &&& 1 ≠ 0 ∧ (v (w ||| 2) &&& 1 = 0 ∧ v (w ||| 2) &&& 2 ≠ 0) ∧ (v (w ||| 4) &&& 3 = 0 ∧ v (w ||| 4) &&& 4 ≠ 0)) := by decide +kernel

/-- The first template of `plan1` with a status slot 30 and a quiz slot 40 on link 0 in place of its core data. -/
def plan2 : Plan := { plan1 with blocks := [[ent 5 [(1, 122), (0, 117), (4, 93)], ent 1 [(2, 107), (8, 75)],
  ent 2 [(0, 121), (2, 117), (30, 100), (1, 83)], ent 2 [(0, 121), (4, 117), (40, 100), (1, 83)], ent 7 []]] }

theorem test_meets_TxSlotSendsItsFlit_kinds :
    let s : State := lk 0 up (one { seat1 with plan := some plan2 })
    let h : State := lk 0 up (one { seat1 with ctxHeld := true, lateEntry := some 1, tt := { seat1.tt with hold := true, entry := 0 } })
    ((runOn (s.runs 0) 0 false 30).map (·.kind) = some 2 ∧ (runOn (s.runs 0) 0 false 40).map (·.kind) = some 4) ∧
    (runOn (h.runs 0) 0 false 27 = none ∧ (h.lateRun 0 27).isSome = true ∧ s.lateRun 0 27 = none ∧ (h.seat 0).wiping = false ∧
      (h.link 0).absent = false ∧ (h.link 0).st = .locked ∧ 27 < (h.seat 0).tt.slots.toNat) := by decide +kernel

theorem test_meets_FlitsAreTakenRefusedOrKept_tray :
    let q : Seat := { seat1 with plan := some { plan1 with trays := [⟨0, 1, 0, 512⟩] } }
    let s : State := lk 1 up (one q)
    (runOn (s.runsAt 0 100).1 1 true 100).any (fun r => decide (r.kind = 0 ∧ (s.seat 0).trayRun 0 r = some ⟨0, 1, 0, 512⟩ ∧
      (s.seat 0).tt.bell < 100 + BitVec.ofNat 64 (r.deliver + 1))) = true ∧ (s.seat 0).stepAt 100 = some 0 ∧ (data1 100).resend = false ∧ (data1 100).ackCode = 0 ∧
    (let a : Arrival := { period := 98, slot := 100, deliver := 100 }
     let t : State := lk 1 { up with arrivals := [a] } (one q)
     1 ∈ t.seatLinks (fieldOfLink 1) ∧ (t.link 1).arrivals = [a] ∧ a.deliver = (t.seat (fieldOfLink 1)).tt.bell ∧ a.pool = none ∧
     (t.counter (flBase 1 + 0x38)).sat = false ∧ (t.counter (flBase 1 + 0x38)).count ≠ 0xFFFFFFFF) := by decide +kernel

/-- Whatever a link's keys are, some bytes open as a given flit and some do not. -/
theorem test_meets_FlitsAreTakenRefusedOrKept_opens (k : BitVec 256) (b : BitVec 64) (x : Flit) :
    let c := (Config.gcm k (flitNonce b 100) (flitHeader x) x.payload).take 272
    c = c ∧ c ≠ c ++ [0] := by
  refine ⟨rfl, fun h => ?_⟩
  have := congrArg List.length h
  simp at this

theorem test_meets_FlitsAreTakenRefusedOrKept_quiet :
    let s : State := lk 1 { up with arrivals := [{ period := 98, slot := 100, deliver := 100 }] } (one seat1)
    ∀ j, (s.link j).kept = [] ∧ (j ≠ 1 → (s.link j).arrivals = []) := by
  intro s j
  rcases Nat.lt_trichotomy j 1 with h | h | h
  · rw [show j = 0 by omega]
    decide +kernel
  · rw [h]
    decide +kernel
  · have hl : s.link j = {} := by
      show Tab.get (fun _ => ({} : Link)) [(1, _)] j = {}
      simp [Tab.get, Tab.find, show ¬ (1 = j) by omega]
    rw [hl]
    exact ⟨rfl, fun _ => rfl⟩

/-- Core 0's control block over a ring of two records of 64 bytes in its desk, with a segment at LPDDR 0: HEAD 128, SPILL, LOW, RELEASE and flags. -/
def ccbTwo (spill low release flags water : Nat) (turned : List Nat) : State :=
  let cell (a v : Nat) : Memory := if v = 0 then [] else [(a, BitVec.ofNat 8 v)]
  { mem := [(64, 64), (desk0, 64), (desk0 + 64, 64), (0x900000000000, 128)] ++ cell 0x900000000008 spill ++ cell 0x900000000010 low ++
      cell 0x900000000018 release ++ cell 0x90000000002C 128 ++ cell 0x900000000030 water ++ cell 0x900000000034 flags,
    fields := [(0, { mc := { gen := some 0 }, lb := { enable := true, turned := turned, segs := [{ core := 0, offset := 0, pages := 1 }] } })] }

theorem test_meets_CubbyServesItsBlocks_ccb :
    (((ccbTwo 0 0 0 0 64 []).readCcb 0 0).2.any (fun k => k.head == 128 && k.spill == 0 && k.size == 128 && k.water == 64 &&
      !k.failed && !k.turn)) = true := by decide +kernel

/-- That control block. -/
def ccb2 : Ccb := { at' := 0x900000000000, head := 128, spill := 0, low := 0, release := 0, ring := desk0, size := 128, water := 64, ready := false, turn := false, failed := false }

theorem test_meets_CubbyServesItsBlocks_spill :
    let r := (ccbTwo 0 0 0 0 64 []).boundaries 0 ccb2 0 3 128 []
    r.2 = [0, 64, 128] ∧ ccb2.water < ccb2.head - ccb2.spill ∧ ccb2.head - 64 ≤ ccb2.water ∧ r.1.meetsSeal 0 64 = false := by decide +kernel

theorem test_meets_CubbyServesItsBlocks_moves :
    let s := ccbTwo 0 0 0 0 64 []
    let x := s.libRead 0 desk0 64
    x.2.any (fun bs => x.1.libOk 0 0 bs) = true ∧ sealed0.meetsSeal desk0 64 = true := by decide +kernel

theorem test_meets_CubbyServesItsBlocks_prefetch :
    let u := (ccbTwo 0 128 128 2 64 [0]).readCcb 0 0
    u.2.any (fun k => decide (k.turn = true ∧ k.low = 128 ∧ k.release = 128 ∧ 64 ≤ k.low ∧ k.release - 64 ≤ k.size)) = true ∧
    (u.1.libRead 0 64 4).2.any (fun bs => recLen 128 (ofLe bs) == some 64) = true ∧ u.1.meetsSeal (desk0 + 64) 64 = false ∧
    (u.1.libRead 0 64 64).2.any (fun xs => u.1.libOk 0 (desk0 + 64 % 128) xs) = true ∧
    ((ccbTwo 0 128 255 2 64 [0]).readCcb 0 0).2.any (fun k => decide (k.size < k.release - 64)) = true := by decide +kernel

/-- A unit of no elements: its record alone. -/
def unit0 : ShardUnit := { core := 0, record := 0, count := 0, offset := 0, trayOff := 0 }
/-- A seat applying step 6 to that unit, over the given memory. -/
def applying0 (m : Memory) : State :=
  { one { plan := some { plan1 with units := [unit0], mirrorUnits := [unit0], regions := { mirror := 0x10000, tray0 := 0x20000, tray1 := 0x30000, shard1 := 0x40000 } },
          cm := { applyStep := some 6, partnerOk := true, units := [(0, {})] } } with
    fields := [(0, { mc := { gen := some 0 }, lb := { mState := 3 } })], mem := m }
/-- What the holder's first run makes of it. -/
def good0 (m : Memory) : Option (List Byte) :=
  let s := applying0 m
  (s.applyInput 0 unit0 6).2.map (fun p => applyUnit unit0 p.1 p.2 (s.seat 0).cm.applyC (applyKey unit0 6 (seedOf ((s.seat 0).cm.copySlot 0) 6)))
/-- That record with first byte `b`: clip factor 1.0 and step 6 in it. -/
def rec0 (b : Byte) : List Byte := b :: (List.replicate 21 0 ++ [128, 63] ++ List.replicate 32 0 ++ [6] ++ List.replicate 7 0)

/-- Two trays give the holder two CRCs, so whatever a damaged run gives, one of them differs from it. -/
theorem test_meets_CrossCheckVotes_damaged :
    good0 [] = some (rec0 0) ∧ good0 [(0x20000, 1)] = some (rec0 1) ∧ crc32c (rec0 0) ≠ crc32c (rec0 1) := by decide +kernel

theorem test_meets_CrossCheckVotes_forms :
    let u : Field := { mc := {}, lb := { mState := 3 } }
    let l : Tab (List Byte) := [(0, List.replicate 256 7)]
    (({ applying { ownerCrc := some 1 } with fields := [(0, u)] } : State).applyInput 0 unit1 6).2 = none ∧
    ({ serving := true } : Cm).serving = true ∧ (({ landing := l } : Cm).landed 0 unit1.offset (unitLen unit1)) = some (List.replicate (unitLen unit1) 7) ∧
    ({} : Cm).landed 0 unit1.offset (unitLen unit1) = none ∧
    (({ applying {} with fields := [(0, u)] } : State).libRead 0 (((applying {}).seat 0).workingBase + 0) (unitLen unit1)).2 = none ∧
    (applying {}).seatFields (unit1.core / 500) = (applying {}).seatFields 0 ∧
    ((applying {}).libRead 0 (((applying {}).seat 0).committedBase + unit1.offset) (unitLen unit1)).2.isSome = true := by decide +kernel

theorem test_meets_AppliesAndPullsEnd_owner :
    ({} : Cm).partnerOk = false ∧ (⟨7, false, []⟩ : Summary).step ≠ ({} : Cm).committed ∧ (⟨0, false, []⟩ : Summary).step = ({} : Cm).committed ∧
    ((one { cm := { seatState := 4, serving := true } }).seat 0).cm.seatState ≠ 3 := by decide +kernel

theorem test_meets_SlateAdmitsRequests_known : ∀ b, Instr.runStop rq 0 ≠ .unknownCommand rq b := by
  intro b h
  cases h

theorem test_meets_SessionsAndPartitions_frames :
    let s : State := { slate {} with host := { (slate {}).host with pending := [hand1] } }
    ((3 : BitVec 8) ≠ 1 ∧ (3 : BitVec 8) ≠ 2 ∧ s.tagOk none = true ∧ s.tagOk (some 0) = false ∧ 4 ≤ (4 : BitVec 8).toNat ∧ (1 : BitVec 48) ≠ 0) ∧
    (s.session 9 = none ∧ s.host.pending.find? (fun x => x.id == 9) = some hand1 ∧ s.wipingTarget hand1.part = false ∧ (2 : BitVec 64) ≠ 1 ∧
      s.session 0 = none ∧ s.host.pending.find? (fun x => x.id == 0) = none ∧ s.wipingTarget 0 = false ∧ 4 ≤ (List.replicate 4 hand1).length) := by
  decide +kernel

theorem test_meets_SessionsAndPartitions_slots :
    let h7 : Handshake := { hand1 with part := 7 }
    let ten : Session := { id := 5, owner := false, part := 0, bound := true }
    let full : State := { slate {} with host := { sessions := (List.range 4).map (fun j => (j, some { ten with id := BitVec.ofNat 32 (j + 1), bound := false })) },
                                        store := { owner := some 5 } }
    let two : State := { slate {} with host := { layout := 0x688, sessions := [(0, some own), (1, some ten)] } }
    (full.credOk h7 ⟨5, true⟩ = true ∧ full.ownerSlot = none ∧ full.freeSlot = none) ∧
    ({ hand1 with owner := false } : Handshake).owner = false ∧ ({ slate {} with px := { stage := 6, service := true } } : State).ownerSlot = some 0 ∧
    two.slot 1 = some ten ∧ (∀ j < 4, ∀ x ∈ two.slot j, (x.owner = false ∧ x.bound = true ∧ x.part = 0) → two.session x.id = some (j, x)) := by decide +kernel

theorem test_meets_SessionsAndPartitions_busy :
    let w : WipeJob := { scope := 15, why := .sealing }
    let s : State := { slate {} with px := { stage := 6, wipes := [w] } }
    layoutOk 0xDB6 = true ∧ s.changed 0xDB6 ≠ [] ∧
    s.px.wipes.find? (fun w => (scopeFields w.scope).any (fun f => (scopeFields (scopeOf (s.changed 0xDB6))).contains f)) = some w := by decide +kernel

theorem test_meets_PlansAreStagedAndLoaded_staging :
    let p : Plan := { plan1 with regions := { plan1.regions with staging := some 64 } }
    let st : Staging := { plan := p, len := 100, addr := some 64, arrived := [] }
    let s := slate { rest1 with staging := some st }
    p.regions.staging = some 64 ∧ (s.seat 0).staging = some st ∧ st.len < 1 + 100 ∧ 0 + 100 ≤ st.len ∧ (s.seat 0).cm.seatState ≠ 1 ∧ s.atRest 0 = true ∧
    ((slate { cm := { seatState := 1 } }).seat 0).cm.seatState = 1 ∧ (slate {}).atRest 0 = true ∧ ((slate {}).seat 0).staging = none := by decide +kernel

theorem test_meets_DeliveriesAndShardsLand_slots :
    let x (st : SlotState) : Slot := { st := st, hdr := some (hdr7 4) }
    (x .live).holds 7 = true ∧ (x .held).holds 7 = true ∧ (x .complete).holds 7 = true ∧ (x .filling).hdr = some (hdr7 4) ∧ (x .filling).holds 10 = false ∧
    (x .filling).st ≠ .free ∧ (hdr7 4).inputLen < 1 + 4 ∧ (hdr7 4).inputLen ≠ 0 ∧ rest1.cm.hist = [] ∧
    (slate seat1).atRest 0 = false := by decide +kernel

theorem test_meets_StartsAndStopsArePlaced_jit :
    let v := plan1.hdr.version
    ({ rest1 with shardVer := some (v + 1) } : Seat).shardVer ≠ some v ∧ rest1.cm.partnerOk = false ∧ rest1.noShard = false ∧
    ({ rest1 with cm := { partnerOk := true, seatState := 3 } } : Seat).cm.seatState ≠ 4 ∧ (5 : BitVec 64) ≠ rest1.cm.committed ∧
    (20 : BitVec 64).toNat < ({ rest1 with tt := { bell := 10 } } : Seat).tt.bell.toNat + 16 ∧
    ((slate rest1).block 0).length ≤ 9 ∧ (5 : BitVec 64) ≤ ({ rest1 with tt := { bell := 10 } } : Seat).tt.bell := by decide +kernel

theorem test_meets_ReadsFollowTheCommit_refusals :
    let rd : OpenRead := { id := 1, sess := 1, step := 0 }
    let mr : OpenRead := { rd with mirror := true, step := 5, told := 0 }
    let bad : State := slateM { seated with cm := { seatState := 4, units := [(0, { outcome := 6 })] }, reads := [mr] } { mState := 2, mirrorFor := 5 }
    let gone : State := { slate seated with fields := [(0, { mc := { gen := none } })] }
    ({ seated with cm := { seatState := 4, clipDue := true } } : Seat).cm.clipDue = true ∧ (slateM { seated with noShard := true } {}).mirrorHeld 0 = false ∧
    ({ rd with told := 1 } : OpenRead).restarts ≤ 1 ∧
    (∃ g ∈ (slateM seated {}).seatFields 0, ((slateM seated {}).field g).lb.mState = 0) ∧ (¬ ∃ g ∈ bad.seatFields 0, (bad.field g).lb.mState = 0) ∧
    ((mr.now 5).restarts ≤ (mr.now 5).told ∧ 64 ≤ (bad.seat 0).readLen true false ∧ bad.pieceReady 0 (mr.now 5) 0 64 = true ∧
      ((bad.seat 0).pieceUnits true 0 64).find? (fun z => ((bad.seat 0).cm.res z.1).outcome == 6) = some (unit1, 0)) ∧
    (gone.pieceReady 0 rd 0 64 = true ∧ (gone.pieceBytes 0 rd 0 64).2.isSome = false) ∧
    (slateM { seated with cm := { seatState := 4, clipDue := true }, reads := [rd] } {}).pieceReady 0 { rd with immediate := true } 0 64 = false := by decide +kernel

theorem test_meets_ReadsFollowTheCommit_waits :
    let w : WaitOpen := ⟨rq, none, false⟩
    w.step = none ∧ (one { seated with waits := [w] }).seat 0 = { seated with waits := [w] } ∧ seated.pieces = [] ∧
    (one { seated with waits := [w] }).stepProven 0 seated.cm.committed = true ∧ ({ cm := { seatState := 2 } } : Seat).cm.seatState ≠ 4 := by decide +kernel

theorem test_meets_RegistersAndLogsAreReadAndWritten_writers :
    let s := slate {}
    let free : State := { s with host := { s.host with sessions := [(0, some { own with part := 7, bound := false })] } }
    (s.session 1 = some (0, own) ∧ own.gen2 = false ∧ own.bound = true ∧ free.session 1 = some (0, { own with part := 7, bound := false })) ∧
    (Admitted s { rq with expert := true } 0 own 5 5 .bound7 ∧ own.mayRead ((regAddr (mxBase 0)).getD ⟨0, 0, 0⟩) = true) ∧
    (regAddr (pwBase + 0x28) ≠ none ∧ regAddr (mxBase 1999 + 0x28) = some ⟨2, 1999, 0x28⟩ ∧ (0x28 : Nat) > 0x18) := by decide +kernel

theorem test_meets_SeatsArePairedAndHandedOver_bells :
    let p : PeerSpec := { link := 5, node := 4, serial := 7 }
    (slate seat1).atRest 0 = false ∧ ((slate seat1).seat 0).cm.seatState ≠ 1 ∧ 2 ≤ ((slate { seat1 with cm := { seatState := 4 } }).seat 0).cm.seatState ∧
    (slate {}).px.factoryOpened = false ∧ ({ slate {} with px := { stage := 6, factoryOpened := true } } : State).px.factoryOpened = true ∧
    ({ slate {} with px := { stage := 6, factoryOpened := true } } : State).seatOfReq rq = some 0 ∧ ((slate {}).seat 0).cm.seatState < 2 ∧
    (([p].map (fun p => p.link)).Nodup ∧ (∀ x ∈ [p], x.link ∈ (slate { cm := { seatState := 1 } }).seatLinks 0)) ∧
    (slate {}).seatOfReq { rq with part := 7 } = none := by decide +kernel

theorem test_meets_SeatsArePairedAndHandedOver_fill :
    let q : Seat := { seated with cm := { seatState := 4, partnerOk := true } }
    let s := slateM q { mState := 2, mirrorFor := 9 }
    (q.fillUnits true 1 0 = [] ∧ q.fillUnits true 0 0 ≠ [] ∧ (0 : Nat) < q.mirrorUnits.length ∧ ¬ ((0 : Nat) ≤ 1 ∧ 1 < q.mirrorUnits.length)) ∧
    ((slateM q { mState := 2, mirrorFor := 9, selfChecked := true }).field 0).lb.selfChecked = true ∧
    (∃ g ∈ s.seatFields 0, ¬ (10 : BitVec 64) ≤ (s.field g).lb.mirrorFor) ∧ ((slate {}).seat 0).cm.seatState ≠ 1 ∧ ((slate {}).seat 0).ck.state = 0 ∧
    (∀ l ∈ (slate {}).seatLinks 0, ((slate {}).link l).ops = []) := by decide +kernel

theorem test_meets_CheckpointsAreCommanded_refusals :
    let q (c : Ckpt) : Seat := { rest1 with ck := c }
    (q { state := 6 }).ck.state ≠ 0 ∧ (q {}).ck.regionOk = false ∧ (q { regionOk := true }).ck.keyOk = false ∧ (q { regionOk := true, keyOk := true }).ck.held = false ∧
    ((5 : BitVec 64) ≤ ({ rest1 with cm := { committed := 5 } } : Seat).cm.committed) ∧ (9 : BitVec 64) ≠ 0xFFFFFFFFFFFFFFFF#64 := by decide +kernel

theorem test_meets_HealthAndMaintenanceAct_sweep :
    let p : Pass := { code := 2, resource := 0 }
    let s : State := { slate {} with fields := [(0, { mc := { gen := some 0, oldLive := true }, hm := { passes := [(3, p)] } })] }
    (s.seatFields 0).find? (fun g => (s.field g).mc.oldLive) = some 0 ∧ (s.field 0).hm.passes.find? (fun e => e.2.code == 2) = some (3, p) ∧
    (s.seat 0).tt.bell < 1 ∧ (0 : BitVec 64) ≤ (s.seat 0).tt.bell ∧ rq.part ≠ 7 := by decide +kernel

theorem test_meets_HealthAndMaintenanceAct_forms :
    let s (k : Link) : State := lk 5 k (slate {})
    let t : State := { slate {} with px := { stage := 6, service := true } }
    let w : WipeJob := { scope := 0 }
    ((s { st := .failed }).link 5).st = .failed ∧ ((s { combDark := true }).link 5).combDark = true ∧ ((s {}).link 5).st ≠ .failed ∧
    ((s { st := .failed }).field 0).hm.passes = [] ∧ (own.owner = true ∧ t.px.service = true) ∧
    (({ slate {} with px := { stage := 6, wipes := [w] } } : State).px.wipes = [w] ∧ w.scope = rq.part ∧ scopeFields w.scope ≠ []) ∧
    (0 < 33 ∧ ¬ (33 : Nat) < 33 ∧ (527 : Nat) < 528) := by decide +kernel

theorem test_meets_ResetsCollectThenAct_rungs :
    let w (g : Rung) : ResetJob := ⟨g, 0, rq, some 4, false⟩
    ((during (.engineChannel 0 3) false none).px.resets = [w (.engineChannel 0 3)] ∧ (∀ l ∈ linksOfField 0, ((during (.engineChannel 0 3) false none).link l).ops = [])) ∧
    (during .context false none).px.resets = [w .context] ∧ (w .context).dumped = false ∧ (w .context).dumpId = some (dump1 none).id ∧ own.gen2 = false ∧
    (during .partition false none).px.resets = [w .partition] ∧ (during (.chip 30) false none).px.resets = [w (.chip 30)] ∧ (30 : Nat) ≠ 0 ∧
    (during (.chip 0) false none).px.resets = [w (.chip 0)] ∧ ((slate seat1).seat 0).ctxReset = false ∧ inTarget rq 0 = true := by decide +kernel

theorem test_meets_WipesClearTheirScope_layout :
    let w : WipeJob := { scope := 1, why := .layout 0xDB6 rq, started := true }
    let s : State := { slate {} with px := { stage := 6, wipes := [w] } }
    s.px.wipes.find? (fun x => x.scope == 1 && x.started) = some w ∧ s.px.wipes.find? (fun x => x.scope == 1 && !x.started) = none ∧
    (∀ x ∈ s.px.wipes, x ≠ w → x.started = false) ∧ s.session rq.sess = some (0, own) ∧ own.owner = true ∧
    scopeFields 1 = [1] ∧ (∀ f ∈ scopeFields 1, s.seatIx f = f) ∧
    s.changed (mergeLayout s.host.layout 0xDB6 (scopeFields 1)) ≠ [] := by decide +kernel

theorem test_meets_BootRunsItsStages_pieces :
    let m := man 0xA1 64 9 (zeros 48)
    let s (p : Proctor) : State := { px := p }
    ((s { stage := 3, manifest := some m, imageLen := 9 }).romRuns = true ∧ ([1] : List Byte).length < 9 ∧ 9 ≤ (zeros 9).length ∧ (10 : Nat) ≠ m.imageLen) ∧
    (s { stage := 2, tries := 7 }).px.tries = 7 ∧ (s { stage := 2, tries := 6 }).px.tries < 7 ∧ (s { stage := 1 }).px.stage = 1 ∧ (5 : Nat) ≠ 5445 ∧
    (s { stage := 5 }).romRuns = true := by decide +kernel

theorem test_meets_TokensAndReports_kinds :
    let s : State := { slate {} with px := { stage := 6, challenge := 0 }, store := { (slate {}).store with serial := 0, owner := some 5, sealed := true } }
    let h : State := { s with host := { layout := 0x688, pending := [hand1] } }
    s.tokenResult (tok 3 0 0 0) 3 s.px.wipes.isEmpty = 1 ∧ s.tokenResult (tok 4 0 0 0) 4 s.store.sealed = 1 ∧ s.tokenResult (tok 3 0 0 0) 3 false ≠ 1 ∧
    ({ s with store := { s.store with sealed := false } } : State).tokenResult (tok 4 0 0 0) 4 false ≠ 1 ∧
    h.wipingTarget hand1.part = false ∧ h.partLive hand1.part.toNat = true ∧ h.boundSlot hand1.part = none ∧ hand1.owner = true ∧
    h.tokenResult (tok 1 0 0 0) 1 true ≠ 1 := by decide +kernel

theorem test_meets_Generation2StandsForGeneration3_refusals :
    let s := slate2 rest1
    let t : State := { s with host := { s.host with sessions := [] } }
    let full : State := { s with host := { gen2En := true, grants := [⟨6, 5, 0⟩],
                                           sessions := (List.range 4).map (fun j => (j, some { tenant2 with id := BitVec.ofNat 32 (j + 2), bound := false })) } }
    s.host.gen2En = true ∧ s.tagOk (some 0) = false ∧ t.session q2.sess = none ∧ ({ s with host := { s.host with layout := 0x688 } } : State).partLive 6 = false ∧
    (t.cred2 ⟨5, true⟩ = false) ∧ (full.boundSlot 6 = none ∧ full.cred2 ⟨5, true⟩ = true ∧ full.freeSlot = none) ∧
    (Admitted2 s q2 0 tenant2 0 0 .any ∧ t.session 0 = none ∧ t.wipingTarget 6 = false) ∧
    (slate2 { rest1 with noShard := true }).seat 0 = { rest1 with noShard := true } ∧ (slate2 seat1).atRest 0 = false := by decide +kernel

theorem test_meets_DumpsAreKeptAndFetched_recipe :
    let s (n : Nat) : State := { slate {} with fields := [(0, { hm := { dumps := [{ dump1 none with data := List.replicate n 0 }] } })],
                                               px := { stage := 6, resets := [⟨.chip 30, 7, rq, some 4, true⟩] } }
    (recipeBad [{ kind := 4, arg := 8 }]).isSome = true ∧ recipeOk [{ kind := 4, arg := 7 }] = true ∧
    (⟨.chip 30, 7, rq, some 4, true⟩ : ResetJob).waits = true ∧ (⟨.chip 30, 7, rq, some 4, true⟩ : ResetJob).dumpId = some 4 ∧
    0 < (((s 2).shares 0 4).flatMap (fun (d : Dump) => d.data)).length ∧ (s 2).shares 0 4 ≠ [] ∧ (s 2).shares 0 9 = [] := by decide +kernel

theorem test_meets_PortPowerResetAndSidebandAct_states :
    let p (p : Power) : State := { pw := p }
    (p { pwrEn := false, powered := false }).pw.vio = true ∧ (p { vio := false }).pw.vio = false ∧ ({ State.reset with host := { up := false } } : State).host.up = false ∧
    ((p { pg := false, i3cAddr := some 8 }).i3cHeard = false ∧ (p { i3cAddr := some 8 }).i3cHeard = true) ∧
    ((p { alert := 1 }).pw.alert.getLsbD 0 = true) ∧ (p { rstN := false, pg := false }).pw.pg = false ∧ (p { trip := true, rstN := false, die := 100 }).pw.trip = true ∧
    (p {}).pw.trip = false ∧ (p { rstN := false }).pw.trip = false ∧ (5 : Nat) < 24 ∧ ({ grade := 1, watts := 3 } : Telemetry).grade = 1 ∧
    ({ State.reset with host := { ipv4 := some 1 } } : State).host.ipv4 ≠ none := by decide +kernel

theorem test_meets_HallMonitorActs_quiz :
    let s (h : Hm) : State := { fields := [(0, { hm := h, mc := { due := [35] } })] }
    let q : Quiz := ⟨526, 527, none⟩
    let b : Pass := { code := 7, resource := 525 }
    let e (n : Nat) : Pass := { code := 7, resource := BitVec.ofNat 32 n }
    ((s { quizAsked := some q }).field 0).hm.quizAsked = some q ∧ ((s {}).blocker 0 b).isSome = false ∧ ({ passes := [(0, e 1)] } : Hm).freePass = some 1 ∧
    ((s { passes := [(0, { code := 8, resource := 525 })] }).blocker 0 b).isSome = true ∧ (s { quiz := some q }).quizReady 0 525 = true ∧
    ((s { quiz := some ⟨526, 527, some (525, 1, 2)⟩ }).field 0).hm.quiz = some ⟨526, 527, some (525, 1, 2)⟩ ∧
    ({ cards := [(cardIx 1 526, { st := .substituted, quizzes := 999 })] } : Hm).card 1 526 = { st := .substituted, quizzes := 999 } ∧
    (let w := s { waiting := [e 527], passes := [(0, e 526)], quizAsked := some q }
     (w.field 0).hm.waiting = [e 527] ∧ (w.field 0).hm.passes = [(0, e 526)] ∧ (e 526).resource.toNat = q.tileA ∧ (e 527).resource.toNat = q.tileB ∧
     (e 527).onLink = false ∧ w.quizReady 0 526 = true ∧ w.quizReady 0 527 = true) := by decide +kernel

theorem test_meets_HallMonitorActs_passes :
    let s (h : Hm) : State := { fields := [(0, { hm := h })] }
    let m : Pass := { code := 6, resource := 0 }
    let run : State := { (one seat1) with fields := [(0, { hm := { waiting := [m] } })] }
    (run.measurable 0 m.tiles = false ∧ (run.field 0).hm.waiting = [m] ∧ (run.field 0).hm.passes = []) ∧
    (s {}).measurable 0 ({ code := 6, resource := 527 } : Pass).tiles = true ∧ ({} : Hm).isSpare 527 = true ∧ (∃ j, j < 16 ∧ ({} : Hm).isSpare (16 * 32 + j) = true) ∧
    (s {}).measurable 0 ((List.range 16).map (fun j => 16 * 32 + j)) = true ∧ ({} : Hm).measuring.contains (6, 0) = false ∧
    ({ comb := false } : Hm).comb = false ∧ ({ waiting := [] } : Hm).waiting = [] ∧ (one seat1).idleSeat 0 = false := by
  refine ⟨by decide +kernel, by decide +kernel, by decide +kernel, by decide +kernel, by decide +kernel, by decide +kernel, rfl, rfl, by decide +kernel⟩

theorem test_meets_CountersFollowR360_writers :
    let s (k : Counter) : State := { host := { sessions := [(0, some own)] }, counters := [(prBase 0 + 0x38, k)] }
    (s { count := 5 }).store.sealed = false ∧ ((s { count := 5 }).counter (prBase 0 + 0x38)).count ≠ 0xFFFFFFFF ∧ (1 : BitVec 64).setWidth 32 ≠ (0 : BitVec 32) ∧
    ({ State.reset with pw := { i3cAddr := some 8 } } : State).i3cHeard = true ∧ ((regAddr (pwBase + 0x40)).getD ⟨0, 0, 0⟩).block = 11 := by decide +kernel

theorem test_meets_Generation2CommandsComplete_open :
    let e : State := { slate2 rest1 with host := { gen2En := true, grants := [⟨6, 5, 0⟩] } }
    e.boundSlot 6 = none ∧ e.freeSlot = some 0 ∧ e.cred2 ⟨5, true⟩ = true ∧ e.px.certsOk = true ∧ e.wipingTarget 6 = false ∧ e.partLive 6 = true ∧
    e.px.service = false ∧ e.tagOk q2.vlan = true := by decide +kernel

/-! ### The manual's worked examples -/

-- Table 03-16.
theorem test_word_addi_s5 : decodeIns 0 0x10029400FFFFFFFF = some (.addi 0 { dst := 5, sa := 5, imm := 0xFFFFFFFF }) := by decide
theorem test_word_br_p2 : decodeIns 0 0x40400000FFFFFFFC = some (.br 0 { pred := 2, imm := 0xFFFFFFFC }) := by decide
theorem test_word_br_not_p2 : decodeIns 0 0x40500000FFFFFFFC = some (.br 0 { pred := 2, pneg := true, imm := 0xFFFFFFFC }) := by decide
theorem test_word_bellwait : decodeIns 0 0x9000000000000001 = some (.bellwait 0 { imm := 1 }) := by decide
theorem test_word_seal_3 : decodeIns 0 0x9200000000000003 = some (.seal 0 { imm := 3 }) := by decide

-- Table 05-8: M = 0x6000_0000, n = 41, z = −5; the clamp to INT8 comes after.
theorem test_rescale : [2731, 2048, 6144, -2048, 200000].map (fun v => rescale v 0x60000000 41 (-5)) = [-3, -3, -1, -7, 141] := by decide +kernel

-- "Worked example: a tile that fails its check" (R142, R147): M = P = 2,048.0, D = 64; column 9 sums to 2,048.0625, then to 2,048.03125.
theorem test_abft_column_9 : fpLine 16 128 (f32Of 0x45000100) (f32Of 0x45000000) (f32Of 0x45000000) = .miss 0x40000000 := by decide +kernel
theorem test_abft_tolerance : fpLine 16 128 (f32Of 0x45000080) (f32Of 0x45000000) (f32Of 0x45000000) = .agree := by decide +kernel

-- R179's worked example: v = 1029 · 2⁻¹⁰ on BF16's grid of 2⁻⁷.
theorem test_stochastic_up : roundAt (.stoch 0x6000) 1029 (-10) (-7) = 129 := by decide +kernel
theorem test_stochastic_down : roundAt (.stoch 0x5FFF) 1029 (-10) (-7) = 128 := by decide +kernel

-- Single steps, worked by hand from Table 03-6 and R46.
def run1 (c : Instr) (s : State) : State := match exec c s with | .next t => t | _ => s

theorem test_add_wraps : ((run1 (.addi 0 { dst := 5, sa := 5, imm := 0xFFFFFFFF }) (at0 k0)).core 0).sreg 5 = 0xFFFFFFFFFFFFFFFF := by decide +kernel
theorem test_add_pc : ((run1 (.addi 0 { dst := 5, sa := 5, imm := 0xFFFFFFFF }) (at0 k0)).core 0).pc = 9 := by decide +kernel
theorem test_br_back : ((run1 (.br 0 { imm := 0xFFFFFFFC }) (at0 k0)).core 0).pc = 4 := by decide +kernel
theorem test_divu_by_zero : ((run1 (.divu 0 { dst := 5, sa := 2, sb := 0 }) (at0 (k0.setS 2 9))).core 0).sreg 5 = 0xFFFFFFFFFFFFFFFF := by decide +kernel
theorem test_seal_3 : ((run1 (.seal 0 { imm := 3 }) (at0 k0)).core 0).sealed 3 = true := by decide +kernel
theorem test_write_s0 : ((run1 (.li 0 { dst := 0, imm := 7 }) (at0 k0)).core 0).sreg 0 = 0 := by decide +kernel
theorem test_bell_from_reset : ((run1 (.bell 0 0) State.reset).seat 0).tt.bell = 1 := by decide +kernel
theorem test_step_idles : (match step State.reset with | .next t => t.hmClk | _ => 0) = 1 := by decide +kernel

-- R106: the published check value of CRC-32C over "123456789".
theorem test_crc32c : crc32c [0x31, 0x32, 0x33, 0x34, 0x35, 0x36, 0x37, 0x38, 0x39] = 0xE3069283 := by decide +kernel

end Sys2Proof.Tests
end

section
/-! The whole block: what a step keeps. Every command's outcome is a next state, reached by an operation that Laws/ says keeps the queue and
the canonical form. -/

namespace Sys2Proof.Machine

/-- An operation that keeps the queue and the canonical form is an outcome that goes on and keeps them. -/
theorem Keep.goes {s t : State} (g : Keep False False s s → Keep False False s t) :
    ∃ u, (.next t : Host.Outcome State Fault Refusal) = .next u ∧ Keep False False s u := ⟨t, rfl, g (.refl _ _ s)⟩

/-- Every command has a next state, with the queue as it was and the tables canonical if they were. -/
theorem exec_keep (c : Instr) (s : State) : ∃ t, exec c s = .next t ∧ Keep False False s t := by
  cases c with
  | nop => exact Keep.goes execNop_keep
  | add => exact Keep.goes execAdd_keep
  | sub => exact Keep.goes execSub_keep
  | and => exact Keep.goes execAnd_keep
  | or => exact Keep.goes execOr_keep
  | xor => exact Keep.goes execXor_keep
  | sll => exact Keep.goes execSll_keep
  | srl => exact Keep.goes execSrl_keep
  | sra => exact Keep.goes execSra_keep
  | mul => exact Keep.goes execMul_keep
  | mulhu => exact Keep.goes execMulhu_keep
  | min => exact Keep.goes execMin_keep
  | max => exact Keep.goes execMax_keep
  | divu => exact Keep.goes execDivu_keep
  | remu => exact Keep.goes execRemu_keep
  | addi => exact Keep.goes execAddi_keep
  | andi => exact Keep.goes execAndi_keep
  | ori => exact Keep.goes execOri_keep
  | xori => exact Keep.goes execXori_keep
  | slli => exact Keep.goes execSlli_keep
  | srli => exact Keep.goes execSrli_keep
  | srai => exact Keep.goes execSrai_keep
  | li => exact Keep.goes execLi_keep
  | lih => exact Keep.goes execLih_keep
  | cmpeq => exact Keep.goes execCmpeq_keep
  | cmplt => exact Keep.goes execCmplt_keep
  | cmpltu => exact Keep.goes execCmpltu_keep
  | cmpeqi => exact Keep.goes execCmpeqi_keep
  | cmplti => exact Keep.goes execCmplti_keep
  | cmpltui => exact Keep.goes execCmpltui_keep
  | plog => exact Keep.goes execPlog_keep
  | adda => exact Keep.goes execAdda_keep
  | addai => exact Keep.goes execAddai_keep
  | mvsa => exact Keep.goes execMvsa_keep
  | mvas => exact Keep.goes execMvas_keep
  | br => exact Keep.goes execBr_keep
  | call => exact Keep.goes execCall_keep
  | jr => exact Keep.goes execJr_keep
  | loop => exact Keep.goes execLoop_keep
  | ld => exact Keep.goes execLd_keep
  | st => exact Keep.goes execSt_keep
  | ldd => exact Keep.goes execLdd_keep
  | std => exact Keep.goes execStd_keep
  | dma => exact Keep.goes execDma_keep
  | dmad => exact Keep.goes execDmad_keep
  | mma => exact Keep.goes execMma_keep
  | mxz => exact Keep.goes execMxz_keep
  | mxld => exact Keep.goes execMxld_keep
  | mxst => exact Keep.goes execMxst_keep
  | vopCvt => exact Keep.goes execVopCvt_keep
  | vopAdd => exact Keep.goes execVopAdd_keep
  | vopSub => exact Keep.goes execVopSub_keep
  | vopMul => exact Keep.goes execVopMul_keep
  | vopDiv => exact Keep.goes execVopDiv_keep
  | vopMin => exact Keep.goes execVopMin_keep
  | vopMax => exact Keep.goes execVopMax_keep
  | vopFma => exact Keep.goes execVopFma_keep
  | vopAbs => exact Keep.goes execVopAbs_keep
  | vopNeg => exact Keep.goes execVopNeg_keep
  | vopSqrt => exact Keep.goes execVopSqrt_keep
  | vopRsqrt => exact Keep.goes execVopRsqrt_keep
  | vopRecip => exact Keep.goes execVopRecip_keep
  | vopExp => exact Keep.goes execVopExp_keep
  | vopLog => exact Keep.goes execVopLog_keep
  | vopTanh => exact Keep.goes execVopTanh_keep
  | vopSigmoid => exact Keep.goes execVopSigmoid_keep
  | vopSilu => exact Keep.goes execVopSilu_keep
  | vopRsum => exact Keep.goes execVopRsum_keep
  | vopRmax => exact Keep.goes execVopRmax_keep
  | vopAmax => exact Keep.goes execVopAmax_keep
  | vopSumsq => exact Keep.goes execVopSumsq_keep
  | vopSum => exact Keep.goes execVopSum_keep
  | vopSoftmax => exact Keep.goes execVopSoftmax_keep
  | vopLse => exact Keep.goes execVopLse_keep
  | vopRmsnorm => exact Keep.goes execVopRmsnorm_keep
  | vopLayernorm => exact Keep.goes execVopLayernorm_keep
  | vopXent => exact Keep.goes execVopXent_keep
  | vopXgrad => exact Keep.goes execVopXgrad_keep
  | vopQrow => exact Keep.goes execVopQrow_keep
  | vopQtensor => exact Keep.goes execVopQtensor_keep
  | vopMxq => exact Keep.goes execVopMxq_keep
  | vopDeq => exact Keep.goes execVopDeq_keep
  | vopRescale => exact Keep.goes execVopRescale_keep
  | vopHist => exact Keep.goes execVopHist_keep
  | fupd => exact Keep.goes execFupd_keep
  | crc => exact Keep.goes execCrc_keep
  | vget => exact Keep.goes execVget_keep
  | vflg => exact Keep.goes execVflg_keep
  | bellwait => exact Keep.goes execBellwait_keep
  | bellwaits => exact Keep.goes execBellwaits_keep
  | rest => exact Keep.goes execRest_keep
  | rdcr => exact Keep.goes execRdcr_keep
  | wrcr => exact Keep.goes execWrcr_keep
  | rngk => exact Keep.goes execRngk_keep
  | rng => exact Keep.goes execRng_keep
  | fence => exact Keep.goes execFence_keep
  | wait => exact Keep.goes execWait_keep
  | check => exact Keep.goes execCheck_keep
  | raise => exact Keep.goes execRaise_keep
  | rdflt => exact Keep.goes execRdflt_keep
  | sealDrainDone => exact Keep.goes execSealDrainDone_keep
  | fenceDrainDone => exact Keep.goes execFenceDrainDone_keep
  | tagWaitDone => exact Keep.goes execTagWaitDone_keep
  | sealedWriteRelease => exact Keep.goes execSealedWriteRelease_keep
  | mmaStart => exact Keep.goes execMmaStart_keep
  | mmaResultReady => exact Keep.goes execMmaResultReady_keep
  | mxzDone => exact Keep.goes execMxzDone_keep
  | mxldDone => exact Keep.goes execMxldDone_keep
  | mxstStart => exact Keep.goes execMxstStart_keep
  | abftCheckVerdict => exact Keep.goes execAbftCheckVerdict_keep
  | localRecomputeStart => exact Keep.goes execLocalRecomputeStart_keep
  | localRecomputeDone => exact Keep.goes execLocalRecomputeDone_keep
  | buddyServiceRequest => exact Keep.goes execBuddyServiceRequest_keep
  | buddyServiceStart => exact Keep.goes execBuddyServiceStart_keep
  | buddyServiceDone => exact Keep.goes execBuddyServiceDone_keep
  | buddyTileReturn => exact Keep.goes execBuddyTileReturn_keep
  | mxstWriteDone => exact Keep.goes execMxstWriteDone_keep
  | dmaDone => exact Keep.goes execDmaDone_keep
  | vectorOpStart => exact Keep.goes execVectorOpStart_keep
  | vectorOpDone => exact Keep.goes execVectorOpDone_keep
  | bell => exact Keep.goes execBell_keep
  | parentSilenceUnlock => exact Keep.goes execParentSilenceUnlock_keep
  | txSlot => exact Keep.goes execTxSlot_keep
  | sealDeadline => exact Keep.goes execSealDeadline_keep
  | flitReceive => exact Keep.goes execFlitReceive_keep
  | ackTimeout => exact Keep.goes execAckTimeout_keep
  | statusFlitReceive => exact Keep.goes execStatusFlitReceive_keep
  | statusChildMissing => exact Keep.goes execStatusChildMissing_keep
  | absentReceived => exact Keep.goes execAbsentReceived_keep
  | wipeReceived => exact Keep.goes execWipeReceived_keep
  | absentPatternEnd => exact Keep.goes execAbsentPatternEnd_keep
  | wipePatternEnd => exact Keep.goes execWipePatternEnd_keep
  | lightDetected => exact Keep.goes execLightDetected_keep
  | signalTrained => exact Keep.goes execSignalTrained_keep
  | fecAligned => exact Keep.goes execFecAligned_keep
  | fecLockLost => exact Keep.goes execFecLockLost_keep
  | identReceive => exact Keep.goes execIdentReceive_keep
  | swapReq => exact Keep.goes execSwapReq_keep
  | swapAck => exact Keep.goes execSwapAck_keep
  | swapNak => exact Keep.goes execSwapNak_keep
  | laneSwapEffect => exact Keep.goes execLaneSwapEffect_keep
  | poolResponse => exact Keep.goes execPoolResponse_keep
  | poolTimeout => exact Keep.goes execPoolTimeout_keep
  | scheduledStart => exact Keep.goes execScheduledStart_keep
  | scheduledStop => exact Keep.goes execScheduledStop_keep
  | keyRotationEffect => exact Keep.goes execKeyRotationEffect_keep
  | sweepBlock => exact Keep.goes execSweepBlock_keep
  | oldEpochErase => exact Keep.goes execOldEpochErase_keep
  | pageCopyComplete => exact Keep.goes execPageCopyComplete_keep
  | patrolScrubPass => exact Keep.goes execPatrolScrubPass_keep
  | cubbySample => exact Keep.goes execCubbySample_keep
  | cubbyReady => exact Keep.goes execCubbyReady_keep
  | ownerCrcReceive => exact Keep.goes execOwnerCrcReceive_keep
  | unitApplyDone => exact Keep.goes execUnitApplyDone_keep
  | recomputeRequest => exact Keep.goes execRecomputeRequest_keep
  | recomputeReply => exact Keep.goes execRecomputeReply_keep
  | applyComplete => exact Keep.goes execApplyComplete_keep
  | summaryReceive => exact Keep.goes execSummaryReceive_keep
  | unitTransferReceive => exact Keep.goes execUnitTransferReceive_keep
  | handoverPullsDone => exact Keep.goes execHandoverPullsDone_keep
  | cardDecayTick => exact Keep.goes execCardDecayTick_keep
  | cardStoreTimer => exact Keep.goes execCardStoreTimer_keep
  | remedyRelaxTimer => exact Keep.goes execRemedyRelaxTimer_keep
  | popQuizStart => exact Keep.goes execPopQuizStart_keep
  | popQuizResult => exact Keep.goes execPopQuizResult_keep
  | spareMarginTimer => exact Keep.goes execSpareMarginTimer_keep
  | marginMeasureDone => exact Keep.goes execMarginMeasureDone_keep
  | tileCopyComplete => exact Keep.goes execTileCopyComplete_keep
  | passGrant => exact Keep.goes execPassGrant_keep
  | combChangeover => exact Keep.goes execCombChangeover_keep
  | counterClear => exact Keep.goes execCounterClear_keep
  | mxFlagsClear => exact Keep.goes execMxFlagsClear_keep
  | vxFlagsClear => exact Keep.goes execVxFlagsClear_keep
  | outOfTolClear => exact Keep.goes execOutOfTolClear_keep
  | pwAlertClear => exact Keep.goes execPwAlertClear_keep
  | registerWrite => exact Keep.goes execRegisterWrite_keep
  | sessionHello => exact Keep.goes execSessionHello_keep
  | sessionFinish => exact Keep.goes execSessionFinish_keep
  | sessionClose => exact Keep.goes execSessionClose_keep
  | sessionStatus => exact Keep.goes execSessionStatus_keep
  | handshakeTimeout => exact Keep.goes execHandshakeTimeout_keep
  | sessionIdleTimeout => exact Keep.goes execSessionIdleTimeout_keep
  | partitionLayout => exact Keep.goes execPartitionLayout_keep
  | partitionGrant => exact Keep.goes execPartitionGrant_keep
  | partitionRevoke => exact Keep.goes execPartitionRevoke_keep
  | planBegin => exact Keep.goes execPlanBegin_keep
  | planData => exact Keep.goes execPlanData_keep
  | planCommit => exact Keep.goes execPlanCommit_keep
  | deliverBegin => exact Keep.goes execDeliverBegin_keep
  | deliverData => exact Keep.goes execDeliverData_keep
  | shardData => exact Keep.goes execShardData_keep
  | shardCommit => exact Keep.goes execShardCommit_keep
  | unload => exact Keep.goes execUnload_keep
  | runStart => exact Keep.goes execRunStart_keep
  | runStop => exact Keep.goes execRunStop_keep
  | readOpen => exact Keep.goes execReadOpen_keep
  | readOpenAnswer => exact Keep.goes execReadOpenAnswer_keep
  | readWaitTimeout => exact Keep.goes execReadWaitTimeout_keep
  | readPiece => exact Keep.goes execReadPiece_keep
  | readClose => exact Keep.goes execReadClose_keep
  | readRegs => exact Keep.goes execReadRegs_keep
  | readLog => exact Keep.goes execReadLog_keep
  | jobSeat => exact Keep.goes execJobSeat_keep
  | jobPartner => exact Keep.goes execJobPartner_keep
  | jobFill => exact Keep.goes execJobFill_keep
  | jobStandby => exact Keep.goes execJobStandby_keep
  | jobAssume => exact Keep.goes execJobAssume_keep
  | jobHandover => exact Keep.goes execJobHandover_keep
  | jobPeers => exact Keep.goes execJobPeers_keep
  | jobPool => exact Keep.goes execJobPool_keep
  | jobCkptSecret => exact Keep.goes execJobCkptSecret_keep
  | jobCheckpoint => exact Keep.goes execJobCheckpoint_keep
  | jobScan => exact Keep.goes execJobScan_keep
  | jobRestore => exact Keep.goes execJobRestore_keep
  | jobLeave => exact Keep.goes execJobLeave_keep
  | healthCards => exact Keep.goes execHealthCards_keep
  | healthPasses => exact Keep.goes execHealthPasses_keep
  | healthClear => exact Keep.goes execHealthClear_keep
  | maintRotate => exact Keep.goes execMaintRotate_keep
  | maintRetrain => exact Keep.goes execMaintRetrain_keep
  | maintWipe => exact Keep.goes execMaintWipe_keep
  | resetEngineCore => exact Keep.goes execResetEngineCore_keep
  | resetEngineLink => exact Keep.goes execResetEngineLink_keep
  | resetEngineChannel => exact Keep.goes execResetEngineChannel_keep
  | resetContext => exact Keep.goes execResetContext_keep
  | contextResetEffect => exact Keep.goes execContextResetEffect_keep
  | resetPartition => exact Keep.goes execResetPartition_keep
  | resetChip => exact Keep.goes execResetChip_keep
  | chipResetWaitExpiry => exact Keep.goes execChipResetWaitExpiry_keep
  | maintMargin => exact Keep.goes execMaintMargin_keep
  | maintNetcfg => exact Keep.goes execMaintNetcfg_keep
  | maintReturn => exact Keep.goes execMaintReturn_keep
  | returnCancel => exact Keep.goes execReturnCancel_keep
  | ownershipToken => exact Keep.goes execOwnershipToken_keep
  | tokenServiceMode => exact Keep.goes execTokenServiceMode_keep
  | tokenFactoryUnlock => exact Keep.goes execTokenFactoryUnlock_keep
  | tokenReinstatement => exact Keep.goes execTokenReinstatement_keep
  | tokenOwnerTransfer => exact Keep.goes execTokenOwnerTransfer_keep
  | serviceModeExpiry => exact Keep.goes execServiceModeExpiry_keep
  | dumpCollect => exact Keep.goes execDumpCollect_keep
  | dumpCollectDone => exact Keep.goes execDumpCollectDone_keep
  | dumpList => exact Keep.goes execDumpList_keep
  | dumpFetch => exact Keep.goes execDumpFetch_keep
  | dumpDelete => exact Keep.goes execDumpDelete_keep
  | attestReport => exact Keep.goes execAttestReport_keep
  | attestCerts => exact Keep.goes execAttestCerts_keep
  | gen2Open => exact Keep.goes execGen2Open_keep
  | gen2Close => exact Keep.goes execGen2Close_keep
  | gen2Info => exact Keep.goes execGen2Info_keep
  | gen2Load => exact Keep.goes execGen2Load_keep
  | gen2Weights => exact Keep.goes execGen2Weights_keep
  | gen2Feed => exact Keep.goes execGen2Feed_keep
  | gen2Go => exact Keep.goes execGen2Go_keep
  | gen2Halt => exact Keep.goes execGen2Halt_keep
  | gen2Fetch => exact Keep.goes execGen2Fetch_keep
  | gen2Regs => exact Keep.goes execGen2Regs_keep
  | gen2Health => exact Keep.goes execGen2Health_keep
  | gen2Reset => exact Keep.goes execGen2Reset_keep
  | gen2Dump => exact Keep.goes execGen2Dump_keep
  | icmpEcho => exact Keep.goes execIcmpEcho_keep
  | ndpMessage => exact Keep.goes execNdpMessage_keep
  | arpRequest => exact Keep.goes execArpRequest_keep
  | dhcpv4Reply => exact Keep.goes execDhcpv4Reply_keep
  | portModeTimeout => exact Keep.goes execPortModeTimeout_keep
  | bootSolicit => exact Keep.goes execBootSolicit_keep
  | bootAdvertise => exact Keep.goes execBootAdvertise_keep
  | bootReadResponse => exact Keep.goes execBootReadResponse_keep
  | bootReadRetry => exact Keep.goes execBootReadRetry_keep
  | bootRetryTimer => exact Keep.goes execBootRetryTimer_keep
  | bootWipeDone => exact Keep.goes execBootWipeDone_keep
  | wipeStart => exact Keep.goes execWipeStart_keep
  | wipeLpddrDone => exact Keep.goes execWipeLpddrDone_keep
  | entdaa => exact Keep.goes execEntdaa_keep
  | rstdaa => exact Keep.goes execRstdaa_keep
  | getpid => exact Keep.goes execGetpid_keep
  | getbcr => exact Keep.goes execGetbcr_keep
  | getdcr => exact Keep.goes execGetdcr_keep
  | telemetryWindow => exact Keep.goes execTelemetryWindow_keep
  | pwrEnRise => exact Keep.goes execPwrEnRise_keep
  | powerGood => exact Keep.goes execPowerGood_keep
  | pwrEnFall => exact Keep.goes execPwrEnFall_keep
  | rstNAssert => exact Keep.goes execRstNAssert_keep
  | rstNRelease => exact Keep.goes execRstNRelease_keep
  | thermtrip => exact Keep.goes execThermtrip_keep
  | undervolt => exact Keep.goes execUndervolt_keep
  | undervoltShutdown => exact Keep.goes execUndervoltShutdown_keep
  | overvolt => exact Keep.goes execOvervolt_keep
  | inputOvervoltCutoff => exact Keep.goes execInputOvervoltCutoff_keep
  | overcurrent => exact Keep.goes execOvercurrent_keep
  | hotSwapTrip => exact Keep.goes execHotSwapTrip_keep
  | phase => exact Keep.goes execPhase_keep
  | cartLatch => exact Keep.goes execCartLatch_keep
  | cap => exact Keep.goes execCap_keep
  | dieHot => exact Keep.goes execDieHot_keep
  | inletHot => exact Keep.goes execInletHot_keep
  | lpddrHot => exact Keep.goes execLpddrHot_keep
  | lightLost => exact Keep.goes execLightLost_keep
  | cartridgeLatched => exact Keep.goes execCartridgeLatched_keep
  | alertConditionEnd => exact Keep.goes execAlertConditionEnd_keep
  | portLinkUp => exact Keep.goes execPortLinkUp_keep
  | portLinkDown => exact Keep.goes execPortLinkDown_keep
  | resetRungComplete => exact Keep.goes execResetRungComplete_keep
  | unitTransferAck => exact Keep.goes execUnitTransferAck_keep
  | frameDropped => exact Keep.goes execFrameDropped_keep
  | unknownCommand => exact Keep.goes execUnknownCommand_keep
  -- the remaining command is SEAL, whose name is a word of Lean's
  | _ => exact Keep.goes execSeal_keep

/-- The queue is no table. -/
theorem State.canonical_setPending {s : State} (r : List Instr) (h : s.canonical) : ({ s with pending := r } : State).canonical :=
  ⟨h.mem, h.cores, h.fields, h.links, h.seats, h.counters, h.coreIx, h.fieldIx, h.linkIx⟩

/-- A tick of an idle block moves HM_CLK alone. -/
theorem idleTick_keep (s : State) : Keep False False s (idleTick s) := (Keep.refl False False s).updClk

/-- Settles O58: by whether the queue is empty; an idle tick keeps all but HM_CLK, and a command finds the rest of the queue and keeps it, with
the form of the tables. -/
theorem everyStepKeepsTheCanonicalForm : Obligations.EveryStepKeepsTheCanonicalForm := by
  intro s t h
  unfold step at h
  split at h
  next hp =>
    cases h
    exact ⟨(idleTick_keep s).canonical, by rw [(idleTick_keep s).pending, hp, List.tail_nil]⟩
  next c r hp =>
    obtain ⟨u, hu, k⟩ := exec_keep c { s with pending := r }
    cases hu.symm.trans h
    exact ⟨fun hs => k.canonical (State.canonical_setPending r hs), by rw [k.pending, hp, List.tail_cons]⟩

end Sys2Proof.Machine
end

section
/-! Slate: what the shared operations of the host port change. A response, the counting of a request, a log entry, a session put into or
taken from its slot. -/

namespace Sys2Proof.Machine

/-! ### Responses -/

section
variable (s : State) (r : Req) (st : BitVec 16) (d : BitVec 64) (b : Body)

/-- A response changes the host port alone. -/
theorem State.respond_eq : s.respond r st d b = { s with host := (s.respond r st d b).host } := by
  unfold State.respond; split <;> rfl

/-- Of the host port, a response changes the sessions and the frames sent. -/
theorem State.respond_host : (s.respond r st d b).host =
    { s.host with sessions := (s.respond r st d b).host.sessions, sent := (s.respond r st d b).host.sent,
                  wire := (s.respond r st d b).host.wire, dests := (s.respond r st d b).host.dests,
                  tag := (s.respond r st d b).host.tag } := by
  unfold State.respond; split <;> rfl

@[simp] theorem State.respond_mem : (s.respond r st d b).mem = s.mem := by rw [State.respond_eq]
@[simp] theorem State.respond_cores : (s.respond r st d b).cores = s.cores := by rw [State.respond_eq]
@[simp] theorem State.respond_links : (s.respond r st d b).links = s.links := by rw [State.respond_eq]
@[simp] theorem State.respond_fields : (s.respond r st d b).fields = s.fields := by rw [State.respond_eq]
@[simp] theorem State.respond_seats : (s.respond r st d b).seats = s.seats := by rw [State.respond_eq]
@[simp] theorem State.respond_counters : (s.respond r st d b).counters = s.counters := by rw [State.respond_eq]
@[simp] theorem State.respond_px : (s.respond r st d b).px = s.px := by rw [State.respond_eq]
@[simp] theorem State.respond_layout : (s.respond r st d b).host.layout = s.host.layout := by rw [State.respond_host]
@[simp] theorem State.respond_pending : (s.respond r st d b).host.pending = s.host.pending := by rw [State.respond_host]
@[simp] theorem State.respond_grants : (s.respond r st d b).host.grants = s.host.grants := by rw [State.respond_host]
@[simp] theorem State.respond_modVlog : (s.respond r st d b).host.modVlog = s.host.modVlog := by rw [State.respond_host]
@[simp] theorem State.respond_modVdrop : (s.respond r st d b).host.modVdrop = s.host.modVdrop := by rw [State.respond_host]

@[simp] theorem State.respond_seat (f : Nat) : (s.respond r st d b).seat f = s.seat f := State.seat_congr f (by simp) (by simp)

theorem State.respond_unitsKept : UnitsKept s (s.respond r st d b) := UnitsKept.of_eq (by simp) (by simp) (by simp) (by simp)

end

/-! ### Units and seats kept -/

/-- A state that agrees in its table of seats and its layout has the seats of `s`. -/
theorem SeatsKept.of_eq {s t : State} (h : t.seats = s.seats) (hl : t.host.layout = s.host.layout) : SeatsKept s t :=
  fun f => State.seat_congr f h hl

theorem SeatsKept.trans {s t u : State} (h : SeatsKept s t) (g : SeatsKept t u) : SeatsKept s u := fun f => (g f).trans (h f)

/-- From `s` to `t` a violation is logged: a partition's log, or the module's, and no unit. -/
structure Logged (s t : State) : Prop where
  units : UnitsKept s t
  seats : ∀ f, t.seat f = { s.seat f with vlog := (t.seat f).vlog }
  sessions : t.host.sessions = s.host.sessions
  sent : t.host.sent = s.host.sent
  pw : t.pw = s.pw

/-- A seat is replaced in its partition's fields, and stands as it was in every other. -/
theorem State.seat_setSeat {s : State} {f : Nat} (hf : f < 4) (k : Seat) (g : Nat) :
    (s.setSeat f k).seat g = if s.seatIx g = s.seatIx f then k else s.seat g := by
  unfold State.seat
  rw [State.seatIx_setSeat]
  simp only [State.setSeat, hf, if_true]
  exact Tab.get_set _ _ _ _ _

theorem State.setSeat_unitsKept (s : State) (f : Nat) (k : Seat) : UnitsKept s (s.setSeat f k) :=
  UnitsKept.of_eq (by simp) (by simp) (by simp) (by simp)

/-- A seat put back but for its log. -/
theorem State.seat_setVlog (s : State) (f : Nat) (l : List VEntry) (g : Nat) :
    ((s.setSeat f { s.seat f with vlog := l }).seat g) =
      { s.seat g with vlog := ((s.setSeat f { s.seat f with vlog := l }).seat g).vlog } := by
  by_cases hf : f < 4
  · rw [State.seat_setSeat hf]
    split
    next h =>
      have e : s.seat g = s.seat f := by unfold State.seat; rw [h]
      rw [e]
    next => rfl
  · have e : s.setSeat f { s.seat f with vlog := l } = s := by simp [State.setSeat, hf]
    rw [e]

theorem State.vlog_logged (s : State) (f : Nat) (e : VEntry) : Logged s (s.vlog f e) := by
  unfold State.vlog
  dsimp only
  split
  · refine ⟨(State.setSeat_unitsKept _ _ _).trans (State.bump_units _ _), fun g => ?_, by simp, by simp, ?_⟩
    · rw [State.seat_bump]
      exact State.seat_setVlog _ _ _ _
    · obtain ⟨-, -, -, -, -, -, -, hpw, -⟩ := State.bump_frame
        (s.setSeat f { s.seat f with vlog := (vlogAdd (s.seat f).vlog { e with bell := (s.seat f).tt.bell }).1 })
        (prBase ((s.setSeat f { s.seat f with vlog := (vlogAdd (s.seat f).vlog { e with bell := (s.seat f).tt.bell }).1 }).seatIx f) + 0x30)
      exact hpw.trans (State.setSeat_pw _ _ _)
  · exact ⟨State.setSeat_unitsKept _ _ _, State.seat_setVlog _ _ _, by simp, by simp, by simp⟩

theorem State.modVlog_seatsKept (s : State) (e : VEntry) : SeatsKept s (s.modVlog e) := SeatsKept.of_eq rfl rfl

theorem State.modVlog_logged (s : State) (e : VEntry) : Logged s (s.modVlog e) :=
  ⟨UnitsKept.of_eq rfl rfl rfl rfl, fun f => by rw [State.modVlog_seatsKept s e f], rfl, rfl, rfl⟩

/-! ### Sessions in their slots -/

/-- A session that stands in a slot is found. -/
theorem State.session_isSome {s : State} {j : Nat} {k : Session} (hj : j < 4) (h : s.slot j = some k) : (s.session k.id).isSome = true := by
  unfold State.session
  rw [List.findSome?_isSome_iff]
  exact ⟨j, List.mem_range.2 hj, by simp [h]⟩

/-- A slot that holds another session before and after does not matter to where an id is found. -/
theorem State.session_setSlot_ne {s : State} {id : BitVec 32} {i : Nat} {k : Option Session} (h : ∀ m, s.slot i = some m → m.id ≠ id)
    (h' : ∀ m, k = some m → m.id ≠ id) : (s.setSlot i k).session id = s.session id := by
  unfold State.session
  congr 1
  funext j
  by_cases hj : j = i
  · subst hj
    rw [State.slot_setSlot_self]
    cases k <;> cases hs : s.slot j <;> simp_all
  · rw [State.slot_setSlot_ne _ _ hj]

/-- A session of an unused id is found in the slot it is put into. -/
theorem State.session_setSlot_new {s : State} {j : Nat} {k : Session} (hj : j < 4) (h : s.session k.id = none) :
    (s.setSlot j (some k)).session k.id = some (j, k) := by
  have hs : ((s.setSlot j (some k)).session k.id).isSome = true := State.session_isSome hj (State.slot_setSlot_self _ _ _)
  obtain ⟨⟨i, m⟩, e⟩ := Option.isSome_iff_exists.1 hs
  obtain ⟨hi, hm, hid⟩ := State.session_some e
  by_cases hij : i = j
  · subst hij
    rw [State.slot_setSlot_self] at hm
    cases hm
    exact e
  · rw [State.slot_setSlot_ne _ _ hij] at hm
    have := State.session_isSome hi hm
    rw [hid, h] at this
    cases this

/-- The session of a request is open, and of generation 3, so that the request can be answered. -/
def State.answers (s : State) (r : Req) : Prop := ∃ i k, s.session r.sess = some (i, k) ∧ k.gen2 = false

theorem State.answers_congr {s t : State} {r : Req} (h : t.host.sessions = s.host.sessions) (hs : s.answers r) : t.answers r := by
  obtain ⟨i, k, e, hg⟩ := hs
  exact ⟨i, k, (State.session_congr _ h).trans e, hg⟩

/-- The frame that answers a request. -/
theorem State.respond_sent {s : State} {r : Req} (h : s.answers r) (st : BitVec 16) (d : BitVec 64) (b : Body) :
    (s.respond r st d b).host.sent = .slate (s.respOf r st d b) :: s.host.sent := by
  obtain ⟨i, k, e, hg⟩ := h
  unfold State.respond
  rw [e]
  simp [State.sendTo, State.send, frameOf, hg, State.setSlot]

/-- A session once a response has gone out: the response is kept, and its request has been answered (R343). -/
def Session.answered (k : Session) (x : Resp) : Session :=
  { k with busy := k.busy.filter (fun q => q != x.seq), kept := k.keeps (x :: k.kept),
           done := (x.seq, x.status) :: k.done.filter (fun e => seqHeld k.h e.1) }

/-- A response puts its session back as one that has been answered. -/
theorem State.respond_session {s : State} {r : Req} {i : Nat} {k : Session} (h : s.session r.sess = some (i, k)) (st : BitVec 16)
    (d : BitVec 64) (b : Body) :
    (s.respond r st d b).host.sessions = (s.setSlot i (some (k.answered (s.respOf r st d b)))).host.sessions := by
  unfold State.respond
  rw [h]
  rfl

/-- A response leaves the other slots. -/
theorem State.respond_slot_ne {s : State} {r : Req} {i j : Nat} {k : Session} (h : s.session r.sess = some (i, k)) (hj : j ≠ i)
    (st : BitVec 16) (d : BitVec 64) (b : Body) : (s.respond r st d b).slot j = s.slot j := by
  rw [← State.slot_setSlot_ne s (some (k.answered (s.respOf r st d b))) hj]
  unfold State.slot
  rw [State.respond_session h]

theorem State.respond_slot_self {s : State} {r : Req} {i : Nat} {k : Session} (h : s.session r.sess = some (i, k))
    (st : BitVec 16) (d : BitVec 64) (b : Body) : (s.respond r st d b).slot i = some (k.answered (s.respOf r st d b)) := by
  rw [← State.slot_setSlot_self s i (some (k.answered (s.respOf r st d b)))]
  unfold State.slot
  rw [State.respond_session h]

/-! ### Requests -/

/-- A command that acts and then answers its request. -/
theorem does_respond {c : Instr} {s u : State} {r : Req} {st : BitVec 16} {d : BitVec 64} {b : Body} {p : State → Prop}
    (e : exec c s = .next (u.respond r st d b)) (h : u.answers r) (hp : p (u.respond r st d b)) : Does c s r st d b p := by
  obtain ⟨i, k, hs, hg⟩ := h
  exact ⟨_, e, State.respond_answered hs hg st d b, hp⟩

/-- An answer under a handshake's keys, or any other frame sent for a request. -/
theorem does_send {c : Instr} {s u : State} {r : Req} {st : BitVec 16} {d : BitVec 64} {p : State → Prop}
    {w : List (List Byte)} {ds : List (BitVec 144)} {v : Option (BitVec 16)}
    (e : exec c s = .next (u.send (.slate (u.respOf r st d .empty)) w ds v)) (hp : p (u.send (.slate (u.respOf r st d .empty)) w ds v)) :
    Does c s r st d .empty p := ⟨_, e, ⟨_, _, rfl, rfl, rfl, rfl, rfl, rfl, rfl⟩, hp⟩

/-- A change of a session changes the table of sessions alone. -/
theorem State.modSession_host (s : State) (id : BitVec 32) (g : Session → Session) :
    s.modSession id g = { s with host := { s.host with sessions := (s.modSession id g).host.sessions } } := by
  unfold State.modSession; split <;> rfl

/-- A request is counted in one counter, or in none. -/
theorem State.countReq_cases (s : State) (k : Session) (p : BitVec 3) : s.countReq k p = s ∨ ∃ a, s.countReq k p = s.bump a := by
  unfold State.countReq
  split
  · exact .inl rfl
  · exact .inr ⟨_, rfl⟩

/-- Before its command acts a request moves the counters, with HM_SAT_LAST, and the sessions; everything else that a command reads is as it was. -/
theorem State.admitted_parts (s : State) (r : Req) (k : Session) :
    (s.admitted r k).seats = s.seats ∧ (s.admitted r k).px = s.px ∧ (s.admitted r k).free = s.free ∧ (s.admitted r k).mem = s.mem ∧
    (s.admitted r k).host = { s.host with sessions := (s.modSession r.sess (fun x => x.accept r.seq)).host.sessions } := by
  have hm := s.modSession_host r.sess (fun x => x.accept r.seq)
  unfold State.admitted
  rcases State.countReq_cases (s.modSession r.sess (fun x => x.accept r.seq)) k r.part with e | ⟨a, e⟩
  · rw [e]
    exact ⟨by rw [hm], by rw [hm], by rw [hm], by rw [hm], by rw [hm]⟩
  · obtain ⟨b1, -, -, b2, b3, b4, -, -, -, -, -, -, -, -, b5, -⟩ := State.bump_frame (s.modSession r.sess (fun x => x.accept r.seq)) a
    rw [e, b1, b2, b3, b4, b5]
    exact ⟨by rw [hm], by rw [hm], by rw [hm], by rw [hm], by rw [hm]⟩

section
variable (s : State) (r : Req) (k : Session)

@[simp] theorem State.admitted_seats : (s.admitted r k).seats = s.seats := (s.admitted_parts r k).1
@[simp] theorem State.admitted_px : (s.admitted r k).px = s.px := (s.admitted_parts r k).2.1
@[simp] theorem State.admitted_freshWord : (s.admitted r k).freshWord = s.freshWord := by
  unfold State.freshWord; rw [(s.admitted_parts r k).2.2.1]
@[simp] theorem State.admitted_mem : (s.admitted r k).mem = s.mem := (s.admitted_parts r k).2.2.2.1

theorem State.admitted_host : (s.admitted r k).host =
    { s.host with sessions := (s.modSession r.sess (fun x => x.accept r.seq)).host.sessions } := (s.admitted_parts r k).2.2.2.2

@[simp] theorem State.admitted_layout : (s.admitted r k).host.layout = s.host.layout := by rw [State.admitted_host]
@[simp] theorem State.admitted_grants : (s.admitted r k).host.grants = s.host.grants := by rw [State.admitted_host]
@[simp] theorem State.admitted_sent : (s.admitted r k).host.sent = s.host.sent := by rw [State.admitted_host]
@[simp] theorem State.admitted_modVlog : (s.admitted r k).host.modVlog = s.host.modVlog := by rw [State.admitted_host]
@[simp] theorem State.admitted_modVdrop : (s.admitted r k).host.modVdrop = s.host.modVdrop := by rw [State.admitted_host]
@[simp] theorem State.admitted_seat (f : Nat) : (s.admitted r k).seat f = s.seat f := State.seat_congr f (by simp) (by simp)
@[simp] theorem State.admitted_seatIx (f : Nat) : (s.admitted r k).seatIx f = s.seatIx f := State.seatIx_congr f (by simp)

/-- The sessions of other slots are as they were. -/
theorem State.admitted_slot_ne {i j : Nat} (h : s.session r.sess = some (i, k)) (hj : j ≠ i) : (s.admitted r k).slot j = s.slot j := by
  have e : (s.admitted r k).slot j = (s.modSession r.sess (fun x => x.accept r.seq)).slot j := by
    unfold State.slot; rw [State.admitted_host]
  rw [e, State.modSession_eq _ h, State.slot_setSlot_ne _ _ hj]

/-- The sessions of other ids are found where they were. -/
theorem State.admitted_session_ne {i : Nat} {id : BitVec 32} (h : s.session r.sess = some (i, k)) (hid : id ≠ r.sess) :
    (s.admitted r k).session id = s.session id := by
  obtain ⟨-, hk, hk'⟩ := State.session_some h
  have e : (s.admitted r k).session id = (s.modSession r.sess (fun x => x.accept r.seq)).session id :=
    State.session_congr _ (by rw [State.admitted_host])
  rw [e, State.modSession_eq _ h]
  refine State.session_setSlot_ne (fun m hm => ?_) (fun m hm => ?_)
  · rw [hk] at hm
    cases hm
    exact fun hne => hid (hne.symm.trans hk')
  · cases hm
    exact fun hne => hid (hne.symm.trans hk')

end

section
variable {c : Instr} {s : State} {r : Req} {i : Nat} {k : Session} {cls cmd : Nat} {x : Rights}

theorem Admitted.heard (h : Admitted s r i k cls cmd x) : Heard s r i k cls cmd x := h.1

/-- A heard request finds its session open, and can be answered. -/
theorem Heard.admitted_session (h : Heard s r i k cls cmd x) : (s.admitted r k).session r.sess = some (i, k.accept r.seq) := by
  obtain ⟨-, -, -, -, -, hs⟩ := State.admitted_frame h
  exact hs

theorem Heard.answers (h : Heard s r i k cls cmd x) : (s.admitted r k).answers r := by
  have hs := h.admitted_session
  obtain ⟨-, -, -, hg, -⟩ := h
  exact ⟨i, k.accept r.seq, hs, hg⟩

theorem Heard.admitted_units (h : Heard s r i k cls cmd x) : UnitsKept s (s.admitted r k) := (State.admitted_frame h).1

/-- A heard request that acts on what an admitted request finds, and is then answered. -/
theorem Heard.does {u : State} {st : BitVec 16} {d : BitVec 64} {b : Body} {p : State → Prop} (h : Heard s r i k cls cmd x)
    (e : exec c s = .next (u.respond r st d b)) (hu : u.host.sessions = (s.admitted r k).host.sessions) (hp : p (u.respond r st d b)) :
    Does c s r st d b p := does_respond e (State.answers_congr hu h.answers) hp

/-- A payload field is refused: BAD_FIELD, and no unit and no seat changes. -/
theorem Heard.badField (h : Heard s r i k cls cmd x) (e : exec c s = .next ((s.admitted r k).badField r)) :
    Replies c s r stBadField s.freshWord .empty := by
  obtain ⟨j, m, hs, hg⟩ := h.answers
  have ha : Answered ((s.admitted r k).respond r stBadField s.freshWord) r stBadField s.freshWord .empty :=
    State.respond_answered hs hg _ _ _
  unfold State.badField at e
  rw [State.admitted_freshWord] at e
  exact ⟨_, e, ha, h.admitted_units.trans ((State.respond_unitsKept _ _ _ _ _).trans (UnitsKept.of_eq rfl rfl rfl rfl)),
    SeatsKept.of_eq (by simp) (by simp [State.burn])⟩

end

end Sys2Proof.Machine
end

section
/-! Sessions and partitions (R338 to R341, R346, R413): handshakes, the end of sessions, layouts and grants, and O35. -/

namespace Sys2Proof.Machine

/-! ### HELLO -/

/-- A refused HELLO is answered by one frame of session 0, and nothing else changes. -/
theorem State.refuseHello_frame (s : State) (r : Req) (small : Bool) (st : BitVec 16) (d : BitVec 64) :
    ∃ y, (s.refuseHello r small st d).host.sent = .slate y :: s.host.sent ∧ y.sess = 0 ∧ y.status = st ∧ y.detail = d ∧
      (s.refuseHello r small st d).host.pending = s.host.pending ∧ UnitsKept s (s.refuseHello r small st d) ∧
      SeatsKept s (s.refuseHello r small st d) :=
  ⟨_, rfl, rfl, rfl, rfl, rfl, UnitsKept.of_eq rfl rfl rfl rfl, SeatsKept.of_eq rfl rfl⟩

section
variable {s : State} {r : Req} {role options : BitVec 8} {rsv : BitVec 48} {nonce share : BitVec 256} {kem : List Byte}

theorem execSessionHello_refuses (hp : s.px.stage = 6) (hw : s.wipingTarget r.part = false) (hc : s.px.certsOk = true)
    (ht : s.tagOk r.vlan = true) {d : BitVec 64} (hb : helloBad role options rsv = some d) :
    execSessionHello r role options rsv nonce share kem s = s.refuseHello r (options.getLsbD 1) stBadField d := by
  simp [execSessionHello, hp, hw, hc, ht, hb]

theorem execSessionHello_full (hp : s.px.stage = 6) (hw : s.wipingTarget r.part = false) (hc : s.px.certsOk = true)
    (ht : s.tagOk r.vlan = true) (hb : helloBad role options rsv = none) (hl : 4 ≤ s.host.pending.length) :
    execSessionHello r role options rsv nonce share kem s = s.refuseHello r (options.getLsbD 1) stSessionLimit 0 := by
  simp [execSessionHello, hp, hw, hc, ht, hb, hl]

/-- An id in use is 0, an open session's or a handshake's. -/
theorem State.idTaken_mem {s : State} {id : BitVec 32} (h : s.idTaken id = true) :
    id ∈ 0 :: ((List.range 4).filterMap (fun i => (s.slot i).map (·.id)) ++ s.host.pending.map (·.id)) := by
  simp only [State.idTaken, Bool.or_eq_true, beq_iff_eq, List.any_eq_true] at h
  rcases h with (h | h) | ⟨x, hx, h⟩
  · exact h ▸ List.mem_cons_self
  · obtain ⟨⟨i, k⟩, e⟩ := Option.isSome_iff_exists.1 h
    obtain ⟨hi, hk, hid⟩ := State.session_some e
    refine List.mem_cons_of_mem _ (List.mem_append_left _ (List.mem_filterMap.2 ⟨i, List.mem_range.2 hi, ?_⟩))
    rw [hk, Option.map_some, hid]
  · exact List.mem_cons_of_mem _ (List.mem_append_right _ (List.mem_map.2 ⟨x, hx, h⟩))

/-- The id of a new session is not in use: at most eight ids are, and nine are tried. -/
theorem State.newId_fresh (s : State) (h : s.host.pending.length < 4) : s.idTaken s.newId = false := by
  unfold State.newId
  dsimp only
  split
  next =>
    cases hf : ((List.range 9).map (BitVec.ofNat 32)).find? (fun i => !s.idTaken i) with
    | some y => simpa using List.find?_some hf
    | none =>
      exfalso
      have hsub : (List.range 9).map (BitVec.ofNat 32) ⊆
          0 :: ((List.range 4).filterMap (fun i => (s.slot i).map (·.id)) ++ s.host.pending.map (·.id)) := fun x hx =>
        State.idTaken_mem (by simpa using List.find?_eq_none.1 hf x hx)
      have hle := (List.Nodup.subperm (by decide) hsub).length_le
      have hs := List.length_filterMap_le (fun i => (s.slot i).map (·.id)) (List.range 4)
      simp only [List.length_map, List.length_range, List.length_cons, List.length_append] at hle hs
      omega
  next hx => simpa using hx

/-- A good HELLO opens a handshake under a new id. -/
theorem execSessionHello_opens (hp : s.px.stage = 6) (hw : s.wipingTarget r.part = false) (hc : s.px.certsOk = true)
    (ht : s.tagOk r.vlan = true) (hb : helloBad role options rsv = none) (hl : s.host.pending.length < 4) :
    ∃ t h sig, execSessionHello r role options rsv nonce share kem s = t ∧ t.host.pending = s.host.pending ++ [h] ∧ h.id = s.newId ∧
      h.owner = (role == 1) ∧ h.part = r.part ∧ h.small = options.getLsbD 1 ∧
      t.host.sent = .attest s.newId (s.reportBytes nonce s.freshBits r.part) sig (options.getLsbD 0) :: s.host.sent ∧
      UnitsKept s t ∧ SeatsKept s t := by
  have hl' : ¬ 4 ≤ s.host.pending.length := Nat.not_le.2 hl
  simp only [execSessionHello, hp, hw, hc, ht, hb, hl', ne_eq, not_true_eq_false, Bool.false_eq_true, Bool.not_true, or_self, if_false,
    Option.isSome_none]
  exact ⟨_, _, _, rfl, rfl, rfl, rfl, rfl, rfl, rfl, UnitsKept.of_eq rfl rfl rfl rfl, SeatsKept.of_eq rfl rfl⟩

end

/-! ### FINISH -/

section
variable {c : Instr} {s : State} {r : Req} {h : Handshake} {st : BitVec 16} {d : BitVec 64}

/-- A frame that ends a handshake with a refusal: it goes out under the handshake's keys, and no session opens. -/
theorem does_endHandshake (e : exec c s = .next ((s.dropHandshake h).sendHandshake r h st d)) :
    Does c s r st d .empty (fun t => t.host.sessions = s.host.sessions ∧ t.host.pending = s.host.pending.filter (fun x => x.id != h.id) ∧
      UnitsKept s t ∧ SeatsKept s t) :=
  does_send e ⟨rfl, rfl, UnitsKept.of_eq rfl rfl rfl rfl, SeatsKept.of_eq rfl rfl⟩

/-- A FINISH under an open handshake. -/
theorem exec_sessionFinish {cred : Cred} (hp : s.px.stage = 6) (ht : s.tagOk r.vlan = true) (hs : s.session r.sess = none)
    (hf : s.host.pending.find? (fun x => x.id == r.sess) = some h) (hw : s.wipingTarget h.part = false) :
    exec (.sessionFinish r cred) s = .next (if r.seq ≠ 1 then (s.dropHandshake h).sendHandshake r h stBadFrame 0
      else s.finish r h (s.credOk h cred)) := by
  show Host.Outcome.next (s.finishFrame r _) = _
  simp [State.finishFrame, hp, ht, hs, hf, hw]

/-- A FINISH that is refused ends its handshake. -/
theorem State.finish_refused {ok : Bool} (hst : s.finishStatus h ok = (st, d)) (hne : st ≠ stOk) :
    s.finish r h ok = (s.dropHandshake h).sendHandshake r h st d := by
  unfold State.finish
  simp only [hst, hne, if_false]

end

/-- Raising MIN_SVN changes the Proctor alone. -/
theorem State.commitSvn_eq (s : State) : s.commitSvn = { s with px := s.commitSvn.px } := by
  unfold State.commitSvn
  split
  · split <;> rfl
  · rfl

/-- A FINISH that is accepted puts the handshake's session into a free slot. -/
theorem State.finish_opens {s : State} {r : Req} {h : Handshake} {ok : Bool} {j : Nat} (hst : s.finishStatus h ok = (stOk, 0))
    (hj : s.freeSlot = some j) : ∃ u : State, s.finish r h ok = u.respond r stOk ∧
      u.host.sessions = (s.setSlot j (some (sessionOf h))).host.sessions ∧ UnitsKept s u ∧ SeatsKept s u := by
  have hfree : (s.dropHandshake h).freeSlot = some j := hj
  let w := (s.dropHandshake h).setSlot j (some (sessionOf h))
  have hu : (if h.owner = true then w.commitSvn else w) = { w with px := (if h.owner = true then w.commitSvn else w).px } := by
    split
    · exact w.commitSvn_eq
    · rfl
  refine ⟨if h.owner = true then w.commitSvn else w, ?_, ?_⟩
  · unfold State.finish
    simp only [hst, if_true, hfree, w]
  · rw [hu]
    exact ⟨rfl, UnitsKept.of_eq rfl rfl rfl rfl, SeatsKept.of_eq rfl rfl⟩

theorem State.freeSlot_lt {s : State} {j : Nat} (h : s.freeSlot = some j) : j < 4 := List.mem_range.1 (List.mem_of_find?_eq_some h)

/-! ### The end of a session -/

theorem State.seat_modSeat {s : State} {f : Nat} (hf : f < 4) (g : Seat → Seat) (e : Nat) :
    (s.modSeat f g).seat e = if s.seatIx e = s.seatIx f then g (s.seat f) else s.seat e := State.seat_setSeat hf _ _

/-- What a change gives to every seat that it is made to, the seats of all fields meet once it was made in each field. -/
theorem eachOf_modSeat {g : Seat → Seat} {q : Seat → Prop} (hg : ∀ k, q (g k)) (l : List Nat) (hl : ∀ f ∈ l, f < 4) (s : State) (e : Nat)
    (h : e ∈ l ∨ q (s.seat e)) : q ((eachOf l (fun f t => t.modSeat f g) s).seat e) := by
  unfold eachOf
  induction l generalizing s with
  | nil => exact h.resolve_left List.not_mem_nil
  | cons f l ih =>
    refine ih (fun x hx => hl x (List.mem_cons_of_mem _ hx)) _ ?_
    rw [State.seat_modSeat (hl f List.mem_cons_self)]
    split
    next => exact .inr (hg _)
    next hne =>
      rcases h with h | h
      · rcases List.mem_cons.1 h with rfl | h
        · exact absurd rfl hne
        · exact .inl h
      · exact .inr h

/-- The reads, waits and pieces of a session, taken from a seat. -/
def Seat.without (id : BitVec 32) (k : Seat) : Seat :=
  { k with reads := k.reads.filter (fun x => x.sess != id), waits := k.waits.filter (fun w => w.req.sess != id),
           pieces := k.pieces.filter (fun w => w.req.sess != id) }

/-- The slot of a session freed, if it is open. -/
def State.freeSession (s : State) (id : BitVec 32) : State :=
  match s.session id with
  | some (i, _) => s.setSlot i none
  | none => s

theorem State.endSession_eq (s : State) (id : BitVec 32) :
    s.endSession id = eachOf (List.range 4) (fun f t => t.modSeat f (Seat.without id)) (s.freeSession id) := by
  unfold State.endSession State.freeSession Seat.without
  rfl

theorem State.freeSession_units (s : State) (id : BitVec 32) : UnitsKept s (s.freeSession id) := by
  unfold State.freeSession
  split <;> exact UnitsKept.of_eq rfl rfl rfl rfl

/-- The end of a session changes no unit. -/
theorem State.endSession_units (s : State) (id : BitVec 32) : UnitsKept s (s.endSession id) := by
  rw [State.endSession_eq]
  exact eachOf_keeps (UnitsKept s) _ _ (fun f t ht => ht.trans (State.setSeat_unitsKept _ _ _)) _ (s.freeSession_units id)

/-- Of the host port, the end of a session changes the session's slot alone. -/
theorem State.endSession_host (s : State) (id : BitVec 32) : (s.endSession id).host = (s.freeSession id).host := by
  rw [State.endSession_eq]
  exact eachOf_keeps (fun t => t.host = (s.freeSession id).host) _ _ (fun f t ht => (State.setSeat_host t f _).trans ht) _ rfl

@[simp] theorem State.endSession_sent (s : State) (id : BitVec 32) : (s.endSession id).host.sent = s.host.sent := by
  rw [State.endSession_host]
  unfold State.freeSession
  split <;> rfl

/-- No read of a session outlives it. -/
theorem State.endSession_reads (s : State) (id : BitVec 32) {f : Nat} (hf : f < 4) : ∀ x ∈ ((s.endSession id).seat f).reads, x.sess ≠ id := by
  rw [State.endSession_eq]
  refine eachOf_modSeat (q := fun k => ∀ x ∈ k.reads, x.sess ≠ id) (fun k x hx => ?_) _ (fun f h => List.mem_range.1 h) _ f
    (.inl (List.mem_range.2 hf))
  simpa using (List.mem_filter.1 hx).2

theorem State.slot_endSession (s : State) (id : BitVec 32) (j : Nat) : (s.endSession id).slot j = (s.freeSession id).slot j := by
  unfold State.slot; rw [State.endSession_host]

/-- The slot of a session is free once it has ended, and the other slots are as they were. -/
theorem State.slot_endSession_self {s : State} {id : BitVec 32} {i : Nat} {k : Session} (h : s.session id = some (i, k)) :
    (s.endSession id).slot i = none := by
  rw [State.slot_endSession, State.freeSession, h]
  exact State.slot_setSlot_self _ _ _

theorem State.slot_endSession_ne {s : State} {id : BitVec 32} {i j : Nat} {k : Session} (h : s.session id = some (i, k)) (hj : j ≠ i) :
    (s.endSession id).slot j = s.slot j := by
  rw [State.slot_endSession, State.freeSession, h]
  exact State.slot_setSlot_ne _ _ hj

/-- The end of a session leaves every session of another id. -/
theorem State.session_endSession_ne {s : State} {id a : BitVec 32} (h : id ≠ a) : (s.endSession a).session id = s.session id := by
  rw [State.session_congr _ (congrArg HostPort.sessions (s.endSession_host a))]
  unfold State.freeSession
  split
  next i k e =>
    obtain ⟨-, hk, hid⟩ := State.session_some e
    refine State.session_setSlot_ne (fun m hm => ?_) (fun m hm => by cases hm)
    rw [hk] at hm
    cases hm
    exact fun hne => h (hne.symm.trans hid)
  next => rfl

/-- An ended session leaves no new one in a free slot. -/
theorem State.slot_endSession_none {s : State} {j : Nat} (a : BitVec 32) (h : s.slot j = none) : (s.endSession a).slot j = none := by
  rw [State.slot_endSession]
  unfold State.freeSession
  split
  next i k e =>
    by_cases hj : j = i
    · rw [hj, State.slot_setSlot_self]
    · rw [State.slot_setSlot_ne _ _ hj, h]
  next => exact h

section
variable (l : List (BitVec 32))

/-- What the end of every session of a list leaves: units, and the grants and the rest of the host port but the sessions. -/
theorem endSessions_frame (s : State) : UnitsKept s (l.foldl State.endSession s) ∧
    (l.foldl State.endSession s).host = { s.host with sessions := (l.foldl State.endSession s).host.sessions } := by
  induction l generalizing s with
  | nil => exact ⟨UnitsKept.refl s, rfl⟩
  | cons a l ih =>
    obtain ⟨h1, h2⟩ := ih (s.endSession a)
    refine ⟨(s.endSession_units a).trans h1, h2.trans ?_⟩
    rw [State.endSession_host]
    unfold State.freeSession
    split <;> rfl

theorem endSessions_session_ne {s : State} {id : BitVec 32} (h : id ∉ l) : (l.foldl State.endSession s).session id = s.session id := by
  induction l generalizing s with
  | nil => rfl
  | cons a l ih =>
    rw [List.mem_cons, not_or] at h
    exact (ih h.2).trans (State.session_endSession_ne h.1)

theorem endSessions_slot_none {s : State} {j : Nat} (h : s.slot j = none) : (l.foldl State.endSession s).slot j = none := by
  induction l generalizing s with
  | nil => exact h
  | cons a l ih => exact ih (State.slot_endSession_none a h)

/-- Every session of the list that is found under its id has left its slot. -/
theorem endSessions_slot {s : State} {j : Nat} {x : Session} (hs : s.session x.id = some (j, x)) (h : x.id ∈ l) :
    (l.foldl State.endSession s).slot j = none := by
  induction l generalizing s with
  | nil => cases h
  | cons a l ih =>
    by_cases ha : x.id = a
    · exact endSessions_slot_none l (State.slot_endSession_self (ha ▸ hs))
    · exact ih ((State.session_endSession_ne ha).trans hs) ((List.mem_cons.1 h).resolve_left ha)

end

/-- The ids of the sessions that meet a test. -/
theorem State.mem_sessionsWith {s : State} {p : Session → Bool} {id : BitVec 32} :
    id ∈ s.sessionsWith p ↔ ∃ j x, j < 4 ∧ s.slot j = some x ∧ p x = true ∧ x.id = id := by
  unfold State.sessionsWith
  rw [List.mem_filterMap]
  constructor
  · rintro ⟨j, hj, e⟩
    cases hs : s.slot j with
    | none => rw [hs] at e; cases e
    | some x =>
      rw [hs] at e
      dsimp only at e
      split at e
      next hx => cases e; exact ⟨j, x, List.mem_range.1 hj, hs, hx, rfl⟩
      next => cases e
  · rintro ⟨j, x, hj, hs, hx, rfl⟩
    exact ⟨j, List.mem_range.2 hj, by simp [hs, hx]⟩

/-! ### HELLO and FINISH -/

theorem helloBad_role {role options : BitVec 8} {rsv : BitVec 48} (h : ¬ (role = 1 ∨ role = 2)) : helloBad role options rsv = some 0x20 := by
  rw [not_or] at h; exact if_pos h

theorem helloBad_options {role options : BitVec 8} {rsv : BitVec 48} (h : role = 1 ∨ role = 2) (ho : 4 ≤ options.toNat) :
    helloBad role options rsv = some 0x21 := (if_neg (by tauto)).trans (if_pos ho)

theorem helloBad_rsv {role options : BitVec 8} {rsv : BitVec 48} (h : role = 1 ∨ role = 2) (ho : options.toNat < 4) (hr : rsv ≠ 0) :
    helloBad role options rsv = some 0x22 := (if_neg (by tauto)).trans ((if_neg (by omega)).trans (if_pos hr))

theorem helloBad_good {role options : BitVec 8} {rsv : BitVec 48} (h : (role = 1 ∨ role = 2) ∧ options.toNat < 4 ∧ rsv = 0) :
    helloBad role options rsv = none := (if_neg (by tauto)).trans ((if_neg (by omega)).trans (if_neg (by tauto)))

/-- HELLO, where the firmware runs, no wipe runs and the identity certificates match. -/
theorem sessionHello_outcomes (s : State) (r : Req) (role options : BitVec 8) (rsv : BitVec 48) (nonce share : BitVec 256) (kem : List Byte)
    (hp : s.px.stage = 6) (hw : s.wipingTarget r.part = false) (hc : s.px.certsOk = true) :
    let c : Instr := .sessionHello r ⟨role, options, rsv⟩ nonce share kem
    let fails (st : BitVec 16) (d : BitVec 64) : Prop := ∃ t y, exec c s = .next t ∧ t.host.sent = .slate y :: s.host.sent ∧
      y.sess = 0 ∧ y.status = st ∧ y.detail = d ∧ t.host.pending = s.host.pending ∧ UnitsKept s t ∧ SeatsKept s t
    let roleOk : Prop := role = 1 ∨ role = 2
    let good : Prop := roleOk ∧ options.toNat < 4 ∧ rsv = 0
    (s.tagOk r.vlan = false → exec c s = .next (s.bump (prBase (reqField r) + 0x40))) ∧
    (s.tagOk r.vlan = true →
      (¬ roleOk → fails stBadField 0x20) ∧
      (roleOk → 4 ≤ options.toNat → fails stBadField 0x21) ∧
      (roleOk → options.toNat < 4 → rsv ≠ 0 → fails stBadField 0x22) ∧
      (good → 4 ≤ s.host.pending.length → fails stSessionLimit 0) ∧
      (good → s.host.pending.length < 4 → ∃ t id h sig, exec c s = .next t ∧ s.idTaken id = false ∧
        t.host.pending = s.host.pending ++ [h] ∧ h.id = id ∧ h.owner = (role == 1) ∧ h.part = r.part ∧ h.small = options.getLsbD 1 ∧
        t.host.sent = .attest id (s.reportBytes nonce s.freshBits r.part) sig (options.getLsbD 0) :: s.host.sent ∧
        UnitsKept s t ∧ SeatsKept s t)) := by
  intro c fails roleOk good
  have refused {st : BitVec 16} {d : BitVec 64}
      (e : execSessionHello r role options rsv nonce share kem s = s.refuseHello r (options.getLsbD 1) st d) : fails st d := by
    obtain ⟨y, hy⟩ := s.refuseHello_frame r (options.getLsbD 1) st d
    exact ⟨_, y, congrArg Host.Outcome.next e, hy⟩
  refine ⟨fun ht => ?_, fun ht => ⟨fun h => ?_, fun h ho => ?_, fun h ho hr => ?_, fun h hl => ?_, fun h hl => ?_⟩⟩
  · show Host.Outcome.next (execSessionHello r role options rsv nonce share kem s) = _
    simp [execSessionHello, hp, hw, hc, ht]
  · exact refused (execSessionHello_refuses hp hw hc ht (helloBad_role h))
  · exact refused (execSessionHello_refuses hp hw hc ht (helloBad_options h ho))
  · exact refused (execSessionHello_refuses hp hw hc ht (helloBad_rsv h ho hr))
  · exact refused (execSessionHello_full hp hw hc ht (helloBad_good h) hl)
  · obtain ⟨t, x, sig, e, hpd, hid, hrest⟩ := execSessionHello_opens (nonce := nonce) (share := share) (kem := kem) hp hw hc ht (helloBad_good h) hl
    exact ⟨t, s.newId, x, sig, congrArg Host.Outcome.next e, s.newId_fresh hl, hpd, hid, hrest⟩

/-- FINISH, the first request under an open handshake. -/
theorem sessionFinish_outcomes (s : State) (r : Req) (cred : Cred) (h : Handshake) (hp : s.px.stage = 6) (ht : s.tagOk r.vlan = true)
    (hs : s.session r.sess = none) (hf : s.host.pending.find? (fun x => x.id == r.sess) = some h) (hw : s.wipingTarget h.part = false)
    (hq : r.seq = 1) :
    let c : Instr := .sessionFinish r cred
    let fails (st : BitVec 16) (d : BitVec 64) : Prop := Does c s r st d .empty (fun t =>
      t.host.sessions = s.host.sessions ∧ t.host.pending = s.host.pending.filter (fun x => x.id != h.id) ∧ UnitsKept s t ∧ SeatsKept s t)
    let free : Prop := (h.owner = true → s.ownerSlot = none) ∧ (h.part = 7 ∨ s.boundSlot h.part = none) ∧
      (h.owner = false → s.px.service = false)
    (h.owner = true ∨ s.px.service = false → s.credOk h cred = false → fails stAuthFailed 0) ∧
    (∀ j, s.credOk h cred = true → h.owner = true → s.ownerSlot = some j → fails stRoleTaken (BitVec.ofNat 64 j)) ∧
    (∀ j, s.credOk h cred = true → (h.owner = true → s.ownerSlot = none) → (h.owner = false → s.px.service = false) → h.part ≠ 7 →
      s.boundSlot h.part = some j → fails stRoleTaken (BitVec.ofNat 64 j)) ∧
    (∀ j, h.owner = false → s.px.service = true → s.ownerSlot = some j → fails stRoleTaken (BitVec.ofNat 64 j)) ∧
    (s.credOk h cred = true → free → s.freeSlot = none → fails stSessionLimit 0) ∧
    (∀ j, s.credOk h cred = true → free → s.freeSlot = some j → Does c s r stOk 0 .empty (fun t => UnitsKept s t ∧ SeatsKept s t ∧
      ∃ k, t.slot j = some k ∧ k.id = h.id ∧ k.owner = h.owner ∧ k.part = h.part ∧ k.bound = (h.part != 7) ∧ k.gen2 = false ∧ k.h = 1 ∧
        ∀ n, n ≠ j → t.slot n = s.slot n)) := by
  intro c fails free
  have e : exec c s = .next (s.finish r h (s.credOk h cred)) := by
    rw [exec_sessionFinish hp ht hs hf hw, if_neg (by simp [hq])]
  have refused {st : BitVec 16} {d : BitVec 64} (hst : s.finishStatus h (s.credOk h cred) = (st, d)) (hne : st ≠ stOk) : fails st d :=
    does_endHandshake (by rw [e, State.finish_refused hst hne])
  have hid : h.id = r.sess := by simpa using List.find?_some hf
  refine ⟨fun ho hc => ?_, fun j hc ho hj => ?_, fun j hc ho hv hp7 hj => ?_, fun j ho hv hj => ?_, fun hc hfr hj => ?_, fun j hc hfr hj => ?_⟩
  · refine refused ?_ (by decide)
    rcases ho with ho | ho <;> simp [State.finishStatus, ho, hc]
  · exact refused (by simp [State.finishStatus, hc, ho, hj]) (by decide)
  · refine refused ?_ (by decide)
    have hp7' : h.part ≠ 7#3 := hp7
    cases hb : h.owner <;> simp [State.finishStatus, hc, hb, ho, hv, hp7', hj]
  · exact refused (by simp [State.finishStatus, ho, hv, hj]) (by decide)
  · refine refused ?_ (by decide)
    obtain ⟨ho, hb, hv⟩ := hfr
    cases hown : h.owner <;> rcases hb with hb | hb <;> simp [State.finishStatus, hc, hown, ho, hv, hb, hj]
  · have hst : s.finishStatus h (s.credOk h cred) = (stOk, 0) := by
      obtain ⟨ho, hb, hv⟩ := hfr
      cases hown : h.owner <;> rcases hb with hb | hb <;> simp [State.finishStatus, hc, hown, ho, hv, hb, hj]
    obtain ⟨u, hu, hss, huk, hsk⟩ := State.finish_opens (r := r) hst hj
    have hus : u.session r.sess = some (j, sessionOf h) :=
      (State.session_congr _ hss).trans (by rw [← hid] at hs ⊢; exact State.session_setSlot_new (k := sessionOf h) (State.freeSlot_lt hj) hs)
    refine does_respond (e.trans (congrArg Host.Outcome.next hu)) ⟨j, _, hus, rfl⟩ ⟨huk.trans (State.respond_unitsKept _ _ _ _ _),
      hsk.trans (SeatsKept.of_eq (by simp) (by simp)), _, State.respond_slot_self hus _ _ _, rfl, rfl, rfl, rfl, rfl, rfl, fun n hn => ?_⟩
    rw [State.respond_slot_ne hus hn]
    have : u.slot n = (s.setSlot j (some (sessionOf h))).slot n := by unfold State.slot; rw [hss]
    rw [this, State.slot_setSlot_ne _ _ hn]

/-! ### CLOSE and the timers -/

/-- A session that ends leaves its slot, and no read of it stays. -/
theorem sessionClose_ends {s : State} {r : Req} {i : Nat} {k : Session} (h : Admitted s r i k 1 4 .any) :
    ∃ t y, exec (.sessionClose r) s = .next t ∧ t.slot i = none ∧
      (UnitsKept s t ∧ ∀ f, f < 4 → ∀ x ∈ (t.seat f).reads, x.sess ≠ r.sess) ∧
      t.host.sent = .slate y :: s.host.sent ∧ y.seq = r.seq ∧ y.status = stOk := by
  have hh := h.heard
  have e : exec (.sessionClose r) s = .next (((s.admitted r k).respond r stOk).endSession r.sess) :=
    congrArg Host.Outcome.next (State.request_admitted h)
  have hs : ((s.admitted r k).respond r stOk).session r.sess = some (i, (k.accept r.seq).answered ((s.admitted r k).respOf r stOk 0 .empty)) :=
    (State.session_congr _ (State.respond_session hh.admitted_session _ _ _)).trans
      (State.session_setSlot _ hh.admitted_session (State.session_some hh.admitted_session).2.2)
  refine ⟨_, (s.admitted r k).respOf r stOk 0 .empty, e, State.slot_endSession_self hs,
    ⟨hh.admitted_units.trans ((State.respond_unitsKept _ _ _ _ _).trans (State.endSession_units _ _)),
      fun f hf => State.endSession_reads _ _ hf⟩, ?_, rfl, rfl⟩
  rw [State.endSession_sent, State.respond_sent hh.answers, State.admitted_sent]

/-! ### STATUS and unknown commands -/

@[simp] theorem State.admitted_wipingTarget (s : State) (r : Req) (k : Session) (p : BitVec 3) :
    (s.admitted r k).wipingTarget p = s.wipingTarget p := by
  simp [State.wipingTarget, State.partLive, State.partOf]

theorem sessionStatus_replies {s : State} {r : Req} {i : Nat} {k : Session} (h : Heard s r i k 1 5 .any) :
    (s.wipingTarget r.part = true → Replies (.sessionStatus r) s r stWiping (s.px.wPercent.setWidth 64) .empty) ∧
    (s.wipingTarget r.part = false → Replies (.sessionStatus r) s r stOk 0 (.words ((s.admitted r k).statusWords r.part))) := by
  have e : exec (.sessionStatus r) s = .next (doSessionStatus r (s.admitted r k)) :=
    congrArg Host.Outcome.next (State.request_heard h (.inr ⟨rfl, rfl⟩))
  constructor <;> intro hw <;> refine replies_heard h (e.trans ?_) <;> simp [doSessionStatus, hw]

/-- A frame that no command fits, of no open session. -/
theorem exec_unknownCommand_none {s : State} {r : Req} (bad : Bool) (hs : s.session r.sess = none) :
    exec (.unknownCommand r bad) s = .next (s.unknownFrame r (if bad then stBadFrame else stBadCommand)) := by
  show Host.Outcome.next (execUnknownCommand r bad s) = _
  simp [execUnknownCommand, hs]

/-- A frame that no command fits, of an open session. -/
theorem unknownCommand_replies {s : State} {r : Req} {i : Nat} {k : Session} (h : Admitted s r i k 0 0 .any) (bad : Bool) :
    Replies (.unknownCommand r bad) s r (if bad then stBadFrame else stBadCommand) 0 .empty := by
  have hh := h.heard
  obtain ⟨-, -, hs, hg, -⟩ := id hh
  refine replies_heard hh ?_
  show Host.Outcome.next (execUnknownCommand r bad s) = _
  simp only [execUnknownCommand, hs, hg, Bool.false_eq_true, if_false]
  rw [State.request_admitted h]

section
variable {s : State} {r : Req} {st : BitVec 16}

theorem State.unknownFrame_hello (hp : s.px.stage = 6) (ht : s.tagOk r.vlan = true) (h : r.sess = 0 ∧ r.cls = 1 ∧ r.cmd = 1)
    (hw : s.wipingTarget r.part = false) : s.unknownFrame r st = s.refuseHello r false st := by
  simp [State.unknownFrame, hp, ht, h, hw]

variable (h1 : ¬ (r.sess = 0 ∧ r.cls = 1 ∧ r.cmd = 1)) (h2 : ¬ (r.sess = 0 ∧ r.cls = 0 ∧ r.cmd = 1))
include h1 h2

theorem State.unknownFrame_handshake {h : Handshake} (hp : s.px.stage = 6) (ht : s.tagOk r.vlan = true)
    (hf : s.host.pending.find? (fun x => x.id == r.sess) = some h) (hw : s.wipingTarget h.part = false) :
    s.unknownFrame r st = (s.dropHandshake h).sendHandshake r h st 0 := by
  unfold State.unknownFrame
  rw [if_neg (by simp [hp]), if_neg (by simp [ht]), if_neg h1, if_neg h2, hf]
  exact if_neg (by simp [hw])

theorem State.unknownFrame_none (hp : s.px.stage = 6) (ht : s.tagOk r.vlan = true)
    (hf : s.host.pending.find? (fun x => x.id == r.sess) = none) : s.unknownFrame r st = s.bump (prBase (reqField r) + 0x38) := by
  unfold State.unknownFrame
  rw [if_neg (by simp [hp]), if_neg (by simp [ht]), if_neg h1, if_neg h2, hf]

end

/-! ### Layouts and grants -/

@[simp] theorem State.admitted_changed (s : State) (r : Req) (k : Session) (codes : BitVec 12) :
    (s.admitted r k).changed codes = s.changed codes := by simp [State.changed, State.partOf]

@[simp] theorem State.admitted_wrongDetail (s : State) (r : Req) (k : Session) (f : Nat) :
    (s.admitted r k).wrongDetail f = s.wrongDetail f := by simp [State.wrongDetail]

section
variable {s : State} {r : Req} {i : Nat} {k : Session} {codes : BitVec 12} (h : Admitted s r i k 2 1 .owner)
include h

theorem exec_partitionLayout_bad (hl : layoutOk codes = false) :
    exec (.partitionLayout r codes) s = .next ((s.admitted r k).badField r) := by
  show Host.Outcome.next (s.request r 2 1 .owner _) = _
  rw [State.request_admitted h]
  simp [hl]

theorem exec_partitionLayout_plan {f : Nat} (hl : layoutOk codes = true)
    (hf : (s.changed codes).find? (fun f => (s.seat f).plan.isSome) = some f) :
    exec (.partitionLayout r codes) s = .next ((s.admitted r k).respond r stWrongState (s.wrongDetail f)) := by
  show Host.Outcome.next (s.request r 2 1 .owner _) = _
  rw [State.request_admitted h]
  simp [hl, hf]

theorem exec_partitionLayout_noPlan (hl : layoutOk codes = true)
    (hf : (s.changed codes).find? (fun f => (s.seat f).plan.isSome) = none) :
    exec (.partitionLayout r codes) s = .next (if s.changed codes = [] then (s.admitted r k).respond r stOk
      else (s.admitted r k).askWipe r (scopeOf (s.changed codes)) (.layout codes r) id) := by
  show Host.Outcome.next (s.request r 2 1 .owner _) = _
  rw [State.request_admitted h]
  simp [hl, hf]

end

/-- LAYOUT. -/
theorem partitionLayout_outcomes {s : State} {r : Req} {i : Nat} {k : Session} {codes : BitVec 12} (h : Admitted s r i k 2 1 .owner) :
    let c : Instr := .partitionLayout r codes
    let fs := s.changed codes
    (layoutOk codes = false → Replies c s r stBadField s.freshWord .empty) ∧
    (∀ f, layoutOk codes = true → fs.find? (fun f => (s.seat f).plan.isSome) = some f → Replies c s r stWrongState (s.wrongDetail f) .empty) ∧
    (layoutOk codes = true → fs = [] → Replies c s r stOk 0 .empty) ∧
    let meets (w : WipeJob) : Bool := (scopeFields w.scope).any (fun f => (scopeFields (scopeOf fs)).contains f)
    (∀ w, layoutOk codes = true → fs ≠ [] → (∀ f ∈ fs, (s.seat f).plan = none) → s.px.wipes.find? meets = some w →
      Does c s r stBusy (busyDetail 33 { code := 10, resource := w.scope.setWidth 32 }) .empty (fun t => t.mem = s.mem ∧
        t.host.layout = s.host.layout ∧ t.px.wipes = s.px.wipes ∧ SeatsKept s t)) ∧
    (layoutOk codes = true → fs ≠ [] → (∀ f ∈ fs, (s.seat f).plan = none) → s.px.wipes.find? meets = none → Waits c s (fun t => t.mem = s.mem ∧
      t.host.layout = s.host.layout ∧ t.px.wipes = s.px.wipes ++ [{ scope := scopeOf fs, why := .layout codes r }] ∧ SeatsKept s t)) := by
  intro c fs
  have hh := h.heard
  let u := s.admitted r k
  have noPlan (hn : ∀ f ∈ fs, (s.seat f).plan = none) : fs.find? (fun f => (s.seat f).plan.isSome) = none := by
    rw [List.find?_eq_none]
    exact fun f hf => by simp [hn f hf]
  refine ⟨fun hl => hh.badField (exec_partitionLayout_bad h hl), fun f hl hf => replies_heard hh (exec_partitionLayout_plan h hl hf),
    fun hl hf => replies_heard hh ?_, fun w hl hne hn hw => ?_, fun hl hne hn hw => ?_⟩
  · rw [exec_partitionLayout_noPlan h hl (by simp only [fs] at hf; simp [hf]), if_pos hf]
  · have e : exec c s = .next ((u.noteBusy ((scopeFields w.scope).headD 0) 10).respond r stBusy
        (busyDetail 33 { code := 10, resource := w.scope.setWidth 32 })) := by
      rw [exec_partitionLayout_noPlan h hl (noPlan hn), if_neg hne, State.askWipe, State.admitted_px]
      simp only [hw, fs, u]
    exact hh.does e (by simp [u, State.noteBusy]) ⟨by simp [u, State.noteBusy], by simp [u, State.noteBusy], by simp [u, State.noteBusy],
      SeatsKept.of_eq (by simp [u, State.noteBusy]) (by simp [u, State.noteBusy])⟩
  · refine ⟨{ u with px := { u.px with wipes := u.px.wipes ++ [{ scope := scopeOf fs, why := .layout codes r }] } }, ?_, State.admitted_sent s r k,
      State.admitted_mem s r k, State.admitted_layout s r k, by simp [u], SeatsKept.of_eq (State.admitted_seats s r k) (State.admitted_layout s r k)⟩
    rw [exec_partitionLayout_noPlan h hl (noPlan hn), if_neg hne, State.askWipe]
    simp only [State.admitted_px, hw, fs, u, id]

/-- GRANT. -/
theorem partitionGrant_outcomes {s : State} {r : Req} {i : Nat} {k : Session} {p : BitVec 3} {keyHash : BitVec 384} {number : BitVec 32}
    (h : Admitted s r i k 2 2 .owner) :
    (p = 7 → Replies (.partitionGrant r p keyHash number) s r stBadField s.freshWord .empty) ∧
    (p ≠ 7 → Does (.partitionGrant r p keyHash number) s r stOk 0 .empty (fun t => UnitsKept s t ∧ SeatsKept s t ∧
      ∀ g : Grant, g ∈ t.host.grants ↔ (g.part = p ∧ g.keyHash = keyHash ∧ g.number = number) ∨ (g.part ≠ p ∧ g ∈ s.host.grants))) := by
  have hh := h.heard
  let u := s.admitted r k
  let v : State := { u with host := { u.host with grants := u.host.grants.filter (fun x => x.part != p) ++ [⟨p, keyHash, number⟩] } }
  have e : exec (.partitionGrant r p keyHash number) s = .next (if p = 7 then u.badField r else v.respond r stOk) := by
    show Host.Outcome.next (s.request r 2 2 .owner _) = _
    rw [State.request_admitted h]
  refine ⟨fun hp => hh.badField (by rw [e, if_pos hp]), fun hp => ?_⟩
  refine hh.does (u := v) (by rw [e, if_neg hp]) rfl ⟨?_, ?_, fun g => ?_⟩
  · exact hh.admitted_units.trans (UnitsKept.trans (t := v) (UnitsKept.of_eq rfl rfl rfl rfl) (State.respond_unitsKept _ _ _ _ _))
  · exact SeatsKept.of_eq (by simp [u, v]) (by simp [u, v])
  · obtain ⟨gp, gk, gn⟩ := g
    simp only [State.respond_grants, u, v, State.admitted_grants, List.mem_append, List.mem_filter, List.mem_singleton, Grant.mk.injEq, bne_iff_ne, ne_eq]
    tauto

/-- A tenant's session bound to a partition. -/
def Session.tenantOf (x : Session) (p : BitVec 3) : Prop := x.owner = false ∧ x.bound = true ∧ x.part = p

/-- Where each tenant of a partition is found under its own id, the end of them all empties their slots, and the owner's session stays. -/
theorem endTenants_owner {s : State} {p : BitVec 3} {id : BitVec 32} {i : Nat} {k : Session} (hs : s.session id = some (i, k))
    (ho : k.owner = true) (huniq : ∀ j x, j < 4 → s.slot j = some x → x.tenantOf p → s.session x.id = some (j, x)) :
    (s.endTenants p).session id = some (i, k) ∧ ∀ j x, j < 4 → s.slot j = some x → x.tenantOf p → (s.endTenants p).slot j = none := by
  refine ⟨(endSessions_session_ne _ ?_).trans hs, fun j x hj hx ht => endSessions_slot _ (huniq j x hj hx ht) ?_⟩
  · rw [State.mem_sessionsWith]
    rintro ⟨j, x, hj, hx, hp, rfl⟩
    simp only [Bool.and_eq_true, Bool.not_eq_true', beq_iff_eq] at hp
    obtain ⟨⟨hown, hbound⟩, hpart⟩ := hp
    rw [huniq j x hj hx ⟨hown, hbound, hpart⟩] at hs
    cases hs
    rw [ho] at hown
    cases hown
  · obtain ⟨hown, hbound, hpart⟩ := ht
    exact State.mem_sessionsWith.2 ⟨j, x, hj, hx, by simp [hown, hbound, hpart], rfl⟩

/-- The tenants of a partition under an admitted request of the owner's: they stand where they stood, apart from the owner's session. -/
theorem Heard.tenants {s : State} {r : Req} {i : Nat} {k : Session} {cls cmd : Nat} {x : Rights} {p : BitVec 3}
    (h : Heard s r i k cls cmd x) (ho : k.owner = true) (huniq : ∀ j x, s.slot j = some x → j < 4 → x.tenantOf p → s.session x.id = some (j, x)) :
    (∀ j x, s.slot j = some x → x.tenantOf p → j ≠ i) ∧
    ∀ j x, j < 4 → (s.admitted r k).slot j = some x → x.tenantOf p → (s.admitted r k).session x.id = some (j, x) := by
  have hadm := (State.session_some h.admitted_session).2.1
  obtain ⟨-, -, hs, -⟩ := h
  refine ⟨fun j x hj ht hji => ?_, fun j x hj4 hj ht => ?_⟩
  · rw [hji, (State.session_some hs).2.1] at hj
    cases hj
    exact absurd ht.1 (by simp [ho])
  · by_cases hji : j = i
    · rw [hji, hadm] at hj
      cases hj
      exact absurd ht.1 (by simp [Session.accept, ho])
    · rw [State.admitted_slot_ne s r k hs hji] at hj
      have hx := huniq j x hj hj4 ht
      refine (State.admitted_session_ne s r k hs fun hid => ?_).trans hx
      rw [hid, hs] at hx
      cases hx
      exact hji rfl

/-- REVOKE. -/
theorem partitionRevoke_outcomes {s : State} {r : Req} {i : Nat} {k : Session} {p : BitVec 3} (h : Admitted s r i k 2 3 .owner) :
    (p = 7 → Replies (.partitionRevoke r p) s r stBadField s.freshWord .empty) ∧
    (p ≠ 7 → (∀ j x, s.slot j = some x → j < 4 → x.tenantOf p → s.session x.id = some (j, x)) →
      Does (.partitionRevoke r p) s r stOk 0 .empty (fun t => UnitsKept s t ∧
        (∀ g : Grant, g ∈ t.host.grants ↔ g.part ≠ p ∧ g ∈ s.host.grants) ∧
        ∀ j x, s.slot j = some x → j < 4 → x.tenantOf p → t.slot j = none)) := by
  have hh := h.heard
  obtain ⟨-, -, hs, hg, -, -, -, hal, -⟩ := id hh
  have howner : k.owner = true := by
    simp only [State.allowed, Bool.and_eq_true] at hal
    exact hal.1
  let u := s.admitted r k
  let v : State := { u with host := { u.host with grants := u.host.grants.filter (fun x => x.part != p) } }
  have e : exec (.partitionRevoke r p) s = .next (if p = 7 then u.badField r else (v.endTenants p).respond r stOk) := by
    show Host.Outcome.next (s.request r 2 3 .owner _) = _
    rw [State.request_admitted h]
  refine ⟨fun hp => hh.badField (by rw [e, if_pos hp]), fun hp huniq => ?_⟩
  obtain ⟨hapart, huniq'⟩ := hh.tenants howner huniq
  obtain ⟨hunits, hhost⟩ := endSessions_frame (v.sessionsWith (fun k => !k.owner && k.bound && k.part == p)) v
  obtain ⟨hws, hgone⟩ := endTenants_owner (s := v) (p := p) hh.admitted_session howner huniq'
  refine does_respond (u := v.endTenants p) (by rw [e, if_neg hp]) ⟨i, _, hws, hg⟩ ⟨?_, fun g => ?_, fun j x hj hj4 hx => ?_⟩
  · exact hh.admitted_units.trans (UnitsKept.trans (t := v) (UnitsKept.of_eq rfl rfl rfl rfl)
      (hunits.trans (State.respond_unitsKept _ _ _ _ _)))
  · rw [State.respond_grants, State.endTenants, hhost]
    simp [v, u, and_comm]
  · have hji := hapart j x hj hx
    rw [State.respond_slot_ne hws hji]
    exact hgone j x hj4 ((State.admitted_slot_ne s r k hs hji).trans hj) hx

/-- The end of a session by its idle timer. -/
theorem sessionIdleTimeout_ends {s : State} {id : BitVec 32} {i : Nat} {k : Session} (h : s.session id = some (i, k)) :
    ∃ t, exec (.sessionIdleTimeout id) s = .next t ∧ t.slot i = none ∧
      (UnitsKept s t ∧ ∀ f, f < 4 → ∀ x ∈ (t.seat f).reads, x.sess ≠ id) ∧ ∀ j, j ≠ i → t.slot j = s.slot j :=
  ⟨_, rfl, State.slot_endSession_self h, ⟨s.endSession_units id, fun _ hf => s.endSession_reads id hf⟩, fun _ hj => State.slot_endSession_ne h hj⟩

/-- A handshake that has timed out is gone. -/
theorem handshakeTimeout_ends (s : State) (id : BitVec 32) : ∃ t, exec (.handshakeTimeout id) s = .next t ∧
    (∀ h ∈ t.host.pending, h.id ≠ id ∧ h ∈ s.host.pending) ∧ UnitsKept s t ∧ SeatsKept s t :=
  ⟨_, rfl, fun h hh => by simpa [and_comm] using List.mem_filter.1 hh, UnitsKept.of_eq rfl rfl rfl rfl, SeatsKept.of_eq rfl rfl⟩

/-- A frame that no command fits, of no open session: it is a HELLO's, a handshake's FINISH, or fails its tag. -/
theorem unknownCommand_outcomes {s : State} {r : Req} (bad : Bool) (hp : s.px.stage = 6) (ht : s.tagOk r.vlan = true)
    (hs : s.session r.sess = none) :
    let c : Instr := .unknownCommand r bad
    let st := if bad then stBadFrame else stBadCommand
    let hello : Prop := r.sess = 0 ∧ r.cls = 1 ∧ r.cmd = 1
    let opens : Prop := r.sess = 0 ∧ r.cls = 0 ∧ r.cmd = 1
    (hello → s.wipingTarget r.part = false → ∃ t y, exec c s = .next t ∧ t.host.sent = .slate y :: s.host.sent ∧ y.sess = 0 ∧ y.status = st ∧
      t.host.pending = s.host.pending ∧ UnitsKept s t ∧ SeatsKept s t) ∧
    (∀ h, ¬ hello → ¬ opens → s.host.pending.find? (fun x => x.id == r.sess) = some h → s.wipingTarget h.part = false →
      Does c s r st 0 .empty (fun t => t.host.sessions = s.host.sessions ∧ t.host.pending = s.host.pending.filter (fun x => x.id != h.id) ∧
        UnitsKept s t ∧ SeatsKept s t)) ∧
    (¬ hello → ¬ opens → s.host.pending.find? (fun x => x.id == r.sess) = none → exec c s = .next (s.bump (prBase (reqField r) + 0x38))) := by
  intro c st hello opens
  have e : exec c s = .next (s.unknownFrame r st) := exec_unknownCommand_none bad hs
  refine ⟨fun h hw => ?_, fun h h1 h2 hf hw => ?_, fun h1 h2 hf => ?_⟩
  · obtain ⟨y, hy, hy0, hyst, -, hrest⟩ := s.refuseHello_frame r false st 0
    exact ⟨_, y, e.trans (congrArg Host.Outcome.next (State.unknownFrame_hello hp ht h hw)), hy, hy0, hyst, hrest⟩
  · exact does_endHandshake (e.trans (congrArg Host.Outcome.next (State.unknownFrame_handshake h1 h2 hp ht hf hw)))
  · exact e.trans (congrArg Host.Outcome.next (State.unknownFrame_none h1 h2 hp ht hf))

/-- A dropped frame is counted by why it was dropped. -/
theorem frameDropped_counts (s : State) {f : Nat} (hf : f < 4) :
    exec (.frameDropped f .authFail) s = .next (s.bump (prBase f + 0x38)) ∧ exec (.frameDropped f .badPort) s = .next s ∧
      ∀ w, w ≠ .authFail → w ≠ .badPort → exec (.frameDropped f w) s = .next (s.bump (prBase f + 0x40)) := by
  have hf' : ¬ 4 ≤ f := by omega
  have e (w : DropReason) : exec (.frameDropped f w) s = .next (execFrameDropped f w s) := rfl
  refine ⟨?_, ?_, fun w h1 h2 => ?_⟩
  · simp [e, execFrameDropped, hf']
  · simp [e, execFrameDropped, hf']
  · cases w with
    | authFail => exact absurd rfl h1
    | badPort => exact absurd rfl h2
    | _ => simp [e, execFrameDropped, hf']

/-- Settles O35: command by command, each as its outcome lemma says. -/
theorem sessionsAndPartitions : Obligations.SessionsAndPartitions := by
  intro s gone
  refine ⟨fun r role options rsv nonce share kem => sessionHello_outcomes s r role options rsv nonce share kem,
    fun r cred h => sessionFinish_outcomes s r cred h, fun r cred h hp ht hs hf hw hq => ?_,
    fun r i k h => sessionClose_ends h, fun id i k h => sessionIdleTimeout_ends h, fun id => handshakeTimeout_ends s id,
    fun r i k h => sessionStatus_replies h, fun r i k h => ⟨unknownCommand_replies h true, unknownCommand_replies h false⟩,
    fun r bad hp ht hs => unknownCommand_outcomes bad hp ht hs, fun f hf => frameDropped_counts s hf, fun r i k => ⟨fun codes h => partitionLayout_outcomes h,
    fun p keyHash number h => partitionGrant_outcomes h, fun p h => partitionRevoke_outcomes h⟩⟩
  exact does_endHandshake (by rw [exec_sessionFinish hp ht hs hf hw, if_pos hq])

end Sys2Proof.Machine
end

section
/-! Registers and logs (R11, R12, R109, R345, R354, R355, R360, R363, R414, R436): reads and clears through a session, the writers, and O40. -/

namespace Sys2Proof.Machine

/-! ### Refusals of a register -/

/-- A refused access to a register is logged, and answered DENIED with its address. -/
theorem State.denyAddr_logs {s : State} {r : Req} {i : Nat} {k : Session} (h : s.session r.sess = some (i, k)) (cls cmd : Nat) (a : Addr) :
    ∃ u, Logged s u ∧ s.denyAddr r cls cmd a = u.respond r stDenied (a.setWidth 64) := by
  unfold State.denyAddr
  rw [h]
  dsimp only
  split
  · exact ⟨_, s.vlog_logged _ _, rfl⟩
  split
  · exact ⟨_, s.vlog_logged _ _, rfl⟩
  · exact ⟨_, s.modVlog_logged _, rfl⟩

/-- An admitted request that a register refuses: nothing changes but the violation logs. -/
theorem Heard.denied {c : Instr} {s : State} {r : Req} {i : Nat} {k : Session} {cls cmd : Nat} {x : Rights} {n m : Nat} {a : Addr}
    (h : Heard s r i k cls cmd x) (e : exec c s = .next ((s.admitted r k).denyAddr r n m a)) :
    Does c s r stDenied (a.setWidth 64) .empty (fun t => UnitsKept s t ∧ ∀ f, t.seat f = { s.seat f with vlog := (t.seat f).vlog }) := by
  obtain ⟨u, hl, hu⟩ := State.denyAddr_logs h.admitted_session n m a
  refine h.does (e.trans (congrArg Host.Outcome.next hu)) hl.sessions
    ⟨h.admitted_units.trans (hl.units.trans (State.respond_unitsKept _ _ _ _ _)), fun f => ?_⟩
  rw [State.respond_seat, hl.seats f, State.admitted_seat]

/-! ### REGS -/

/-- A session may read the register at an address, and one is there. -/
def State.regReadable (s : State) (k : Session) (a : Addr) : Bool :=
  match regAddr a.toNat with
  | some x => k.mayRead x && (s.sessionRead k a.toNat).isSome
  | none => false

/-- What REGS does: all registers, or the first that is refused. -/
theorem doReadRegs_eq {s : State} {r : Req} {i : Nat} {k : Session} (h : s.session r.sess = some (i, k)) (addrs : List Addr) :
    (¬ (addrs ≠ [] ∧ addrs.length ≤ 128) → doReadRegs r addrs s = s.badField r) ∧
    (addrs ≠ [] ∧ addrs.length ≤ 128 →
      (addrs.find? (fun a => !s.regReadable k a) = none →
        doReadRegs r addrs s = s.respond r stOk 0 (.words (addrs.map (fun a => (s.sessionRead k a.toNat).getD 0)))) ∧
      ∀ a, addrs.find? (fun a => !s.regReadable k a) = some a → doReadRegs r addrs s = s.denyAddr r 5 4 a) := by
  refine ⟨fun hc => ?_, fun hc => ?_⟩
  · unfold doReadRegs
    rw [h]
    exact if_pos (show addrs = [] ∨ 128 < addrs.length by by_contra hn; rw [not_or] at hn; exact hc ⟨hn.1, by omega⟩)
  · have e : doReadRegs r addrs s = match addrs.find? (fun a => !s.regReadable k a) with
        | some a => s.denyAddr r 5 4 a
        | none => s.respond r stOk 0 (.words (addrs.map (fun a => (s.sessionRead k a.toNat).getD 0))) := by
      unfold doReadRegs
      rw [h]
      exact if_neg (show ¬ (addrs = [] ∨ 128 < addrs.length) by rw [not_or]; exact ⟨hc.1, by omega⟩)
    exact ⟨fun hf => by rw [e, hf], fun a hf => by rw [e, hf]⟩

/-! ### Health CLEAR -/

/-- A session may clear the counter at an address, and one is there. -/
def Session.regClearable (k : Session) (a : Addr) : Bool :=
  match regAddr a.toNat with
  | some x => k.mayClear x
  | none => false

/-- The counter that an address names, cleared. -/
def State.clearAt (s : State) (a : Addr) : State :=
  match regAddr a.toNat with
  | some x => s.clearCounter x a.toNat
  | none => s

theorem State.counter_setCounter (s : State) (a : Nat) (k : Counter) (n : Nat) :
    (s.setCounter a k).counter n = if n = a then k else s.counter n := Tab.get_set _ _ _ _ _

/-- Where a counter is kept depends on the layout alone. -/
theorem State.counterHome_congr {s t : State} (h : t.host.layout = s.host.layout) (x : RegAddr) (a : Nat) :
    t.counterHome x a = s.counterHome x a := by
  unfold State.counterHome
  rw [State.seatIx_congr _ h]

/-- Clearing counters changes the table of counters alone. -/
theorem foldl_clearAt_eq (addrs : List Addr) (s : State) :
    addrs.foldl State.clearAt s = { s with counters := (addrs.foldl State.clearAt s).counters } := by
  induction addrs generalizing s with
  | nil => rfl
  | cons a l ih =>
    refine (ih (s.clearAt a)).trans ?_
    rw [List.foldl_cons]
    unfold State.clearAt
    split <;> rfl

theorem State.clearAt_layout (s : State) (a : Addr) : (s.clearAt a).host.layout = s.host.layout := by
  unfold State.clearAt; split <;> rfl

/-- Clearing what an address names leaves every counter that it does not name, and every one that is zero. -/
theorem State.counter_clearAt_ne {s : State} {a : Addr} {n : Nat} (h : ∀ x, regAddr a.toNat = some x → n ≠ s.counterHome x a.toNat) :
    (s.clearAt a).counter n = s.counter n := by
  unfold State.clearAt
  split
  next x hx => exact (State.counter_setCounter _ _ _ _).trans (if_neg (h x hx))
  next => rfl

theorem State.counter_clearAt_self {s : State} {a : Addr} {x : RegAddr} (h : regAddr a.toNat = some x) :
    (s.clearAt a).counter (s.counterHome x a.toNat) = {} := by
  unfold State.clearAt
  rw [h]
  exact (State.counter_setCounter _ _ _ _).trans (if_pos rfl)

theorem State.counter_clearAt_zero {s : State} (a : Addr) {n : Nat} (h : s.counter n = {}) : (s.clearAt a).counter n = {} := by
  unfold State.clearAt
  split
  next x hx =>
    rw [State.clearCounter, State.counter_setCounter, h]
    exact ite_self _
  next => exact h

/-- A list of counters cleared leaves every counter that it does not name. -/
theorem foldl_clearAt_ne (addrs : List Addr) {s : State} {n : Nat}
    (h : ∀ a ∈ addrs, ∀ x, regAddr a.toNat = some x → n ≠ s.counterHome x a.toNat) : (addrs.foldl State.clearAt s).counter n = s.counter n := by
  induction addrs generalizing s with
  | nil => rfl
  | cons a l ih =>
    refine (ih fun b hb x hx => ?_).trans (State.counter_clearAt_ne (h a List.mem_cons_self))
    rw [State.counterHome_congr (s.clearAt_layout a)]
    exact h b (List.mem_cons_of_mem _ hb) x hx

theorem foldl_clearAt_zero (addrs : List Addr) {s : State} {n : Nat} (h : s.counter n = {}) : (addrs.foldl State.clearAt s).counter n = {} := by
  induction addrs generalizing s with
  | nil => exact h
  | cons a l ih => exact ih (State.counter_clearAt_zero a h)

/-- A list of counters cleared: each of them reads zero. -/
theorem foldl_clearAt_mem (addrs : List Addr) {s : State} {a : Addr} {x : RegAddr} (ha : a ∈ addrs) (hx : regAddr a.toNat = some x) :
    (addrs.foldl State.clearAt s).counter (s.counterHome x a.toNat) = {} := by
  induction addrs generalizing s with
  | nil => cases ha
  | cons b l ih =>
    rcases List.mem_cons.1 ha with rfl | ha
    · exact foldl_clearAt_zero l (State.counter_clearAt_self hx)
    · rw [← State.counterHome_congr (s.clearAt_layout b)]
      exact ih ha

section
variable {s : State} {r : Req} {i : Nat} {k : Session} {addrs : List Addr} (h : Admitted s r i k 7 3 .boundOwner)
include h

/-- What Health CLEAR does: it refuses a list that is empty or too long, or clears all counters, or the first that is refused is DENIED. -/
theorem exec_healthClear_count (hc : ¬ (addrs ≠ [] ∧ addrs.length ≤ 128)) :
    exec (.healthClear r addrs) s = .next ((s.admitted r k).badField r) := by
  show Host.Outcome.next (s.request r 7 3 .boundOwner _) = _
  rw [State.request_admitted h, h.heard.admitted_session]
  exact congrArg _ (if_pos (show addrs = [] ∨ 128 < addrs.length by by_contra hn; rw [not_or] at hn; exact hc ⟨hn.1, by omega⟩))

theorem exec_healthClear (hc : addrs ≠ [] ∧ addrs.length ≤ 128) :
    exec (.healthClear r addrs) s = .next (match addrs.find? (fun a => !k.regClearable a) with
      | some a => (s.admitted r k).denyAddr r 7 3 a
      | none => (addrs.foldl State.clearAt (s.admitted r k)).respond r stOk) := by
  show Host.Outcome.next (s.request r 7 3 .boundOwner _) = _
  rw [State.request_admitted h, h.heard.admitted_session]
  exact congrArg _ (if_neg (show ¬ (addrs = [] ∨ 128 < addrs.length) by rw [not_or]; exact ⟨hc.1, by omega⟩))

end

/-! ### LOG -/

theorem reqField_lt (r : Req) : reqField r < 4 := by
  unfold reqField partFields
  split <;> decide

theorem OnlySeat.refl (f : Nat) (s : State) : OnlySeat f (s.seat f) s s := ⟨rfl, fun _ _ => rfl⟩

/-- A change of one seat. -/
theorem State.modSeat_onlySeat (s : State) {f : Nat} (hf : f < 4) (g : Seat → Seat) : OnlySeat f (g (s.seat f)) s (s.modSeat f g) :=
  ⟨State.seat_modSeat_self s g hf, fun e he => by rw [State.seat_modSeat hf, if_neg he]⟩

/-- Only one seat changes, whatever else does that is no seat and not the layout. -/
theorem OnlySeat.congr {f : Nat} {k : Seat} {s t s' t' : State} (h : OnlySeat f k s t) (hs : ∀ g, s.seat g = s'.seat g)
    (hx : ∀ g, s.seatIx g = s'.seatIx g) (ht : ∀ g, t'.seat g = t.seat g) : OnlySeat f k s' t' :=
  ⟨(ht f).trans h.1, fun g hg => (ht g).trans ((h.2 g (by rw [hx, hx]; exact hg)).trans (hs g))⟩

section
variable {s : State} {r : Req} {i : Nat} {k : Session} {numerics clear : Bool} {start : Nat} (h : Admitted s r i k 5 5 .bound7)
include h

theorem exec_readLog_basic (hx : r.expert = false) (hu : start ≠ 0 ∨ clear = true) :
    exec (.readLog r numerics start clear) s = .next ((s.admitted r k).badField r) := by
  show Host.Outcome.next (s.request r 5 5 .bound7 _) = _
  rw [State.request_admitted h]
  rcases hu with hu | hu <;> simp [State.expertOnly, hx, hu]

theorem exec_readLog (hx : r.expert = true ∨ (start = 0 ∧ clear = false)) :
    exec (.readLog r numerics start clear) s = .next (
      if r.part = 7 then
        (if numerics then (s.admitted r k).badField r
         else (if clear then { s.admitted r k with host := { (s.admitted r k).host with modVlog := [], modVdrop := 0 } }
           else s.admitted r k).respond r stOk (BitVec.ofNat 64 s.host.modVdrop) (.vlog (s.host.modVlog.drop start)))
      else if numerics then
        (if clear then (s.admitted r k).modSeat (reqField r) (fun k => { k with numlog := [], numHead := 0, numWrap := false })
          else s.admitted r k).respond r stOk 0 (.numlog ((s.seat (reqField r)).numEntries.drop start))
      else
        (if clear then ((s.admitted r k).modSeat (reqField r) (fun k => { k with vlog := [] })).setCounter
            (prBase (s.seatIx (reqField r)) + 0x30) {}
          else s.admitted r k).respond r stOk 0 (.vlog ((s.seat (reqField r)).vlog.drop start))) := by
  show Host.Outcome.next (s.request r 5 5 .bound7 _) = _
  rw [State.request_admitted h]
  rcases hx with hx | ⟨hx, hy⟩ <;> simp [State.expertOnly, *]

end

/-! ### The three reads and clears of a session -/

/-- REGS. -/
theorem readRegs_outcomes {s : State} {r : Req} {i : Nat} {k : Session} {addrs : List Addr} (h : Admitted s r i k 5 4 .boundOwner) :
    let u := s.admitted r k
    let counted : Prop := addrs ≠ [] ∧ addrs.length ≤ 128
    (¬ counted → Replies (.readRegs r addrs) s r stBadField s.freshWord .empty) ∧
    (counted → (∀ a ∈ addrs, u.regReadable k a = true) →
      Replies (.readRegs r addrs) s r stOk 0 (.words (addrs.map (fun a => (u.sessionRead k a.toNat).getD 0)))) ∧
    (∀ a, counted → addrs.find? (fun a => !u.regReadable k a) = some a → Does (.readRegs r addrs) s r stDenied (a.setWidth 64) .empty (fun t =>
      UnitsKept s t ∧ ∀ f, t.seat f = { s.seat f with vlog := (t.seat f).vlog })) := by
  intro u counted
  have e : exec (.readRegs r addrs) s = .next (doReadRegs r addrs u) := congrArg Host.Outcome.next (State.request_admitted h)
  obtain ⟨hbad, hgood⟩ := doReadRegs_eq h.heard.admitted_session addrs
  refine ⟨fun hc => h.heard.badField ?_, fun hc ha => replies_heard h.heard ?_, fun a hc hf => h.heard.denied (n := 5) (m := 4) ?_⟩
  · rw [e, hbad hc]
  · exact e.trans (congrArg _ ((hgood hc).1 (List.find?_eq_none.2 (fun a haa => by
      have hr : u.regReadable (k.accept r.seq) a = true := ha a haa
      simp [u, hr]))))
  · exact e.trans (congrArg _ ((hgood hc).2 a hf))

/-- Health CLEAR. -/
theorem healthClear_outcomes {s : State} {r : Req} {i : Nat} {k : Session} {addrs : List Addr} (h : Admitted s r i k 7 3 .boundOwner) :
    let u := s.admitted r k
    let counted : Prop := addrs ≠ [] ∧ addrs.length ≤ 128
    (¬ counted → Replies (.healthClear r addrs) s r stBadField s.freshWord .empty) ∧
    (counted → (∀ a ∈ addrs, k.regClearable a = true) → Does (.healthClear r addrs) s r stOk 0 .empty (fun t => UnitsKept s t ∧ SeatsKept s t ∧
      (∀ a ∈ addrs, ∀ x, regAddr a.toNat = some x → t.counter (s.counterHome x a.toNat) = {}) ∧
      ∀ n, (∀ a ∈ addrs, ∀ x, regAddr a.toNat = some x → n ≠ s.counterHome x a.toNat) → t.counter n = u.counter n)) ∧
    (∀ a, counted → addrs.find? (fun a => !k.regClearable a) = some a →
      Does (.healthClear r addrs) s r stDenied (a.setWidth 64) .empty (fun t => UnitsKept s t)) := by
  intro u counted
  have hhome (x : RegAddr) (a : Nat) : u.counterHome x a = s.counterHome x a := State.counterHome_congr (State.admitted_layout s r k) x a
  refine ⟨fun hc => h.heard.badField (exec_healthClear_count h hc), fun hc ha => ?_, fun a hc hf => ?_⟩
  · let v := addrs.foldl State.clearAt u
    have hv : v = { u with counters := v.counters } := foldl_clearAt_eq addrs u
    have hcount (n : Nat) : (v.respond r stOk).counter n = v.counter n := by unfold State.counter; rw [State.respond_counters]
    have hnone : addrs.find? (fun a => !k.regClearable a) = none := List.find?_eq_none.2 (fun a haa => by simp [ha a haa])
    refine h.heard.does (u := v) (by rw [exec_healthClear h hc, hnone]) (by rw [hv]) ⟨?_, ?_, fun a haa x hx => ?_, fun n hn => ?_⟩
    · have huv : UnitsKept u v := by rw [hv]; exact UnitsKept.of_eq rfl rfl rfl rfl
      exact h.heard.admitted_units.trans (huv.trans (State.respond_unitsKept _ _ _ _ _))
    · have hsv : v.seats = u.seats ∧ v.host.layout = u.host.layout := by rw [hv]; exact ⟨rfl, rfl⟩
      exact SeatsKept.of_eq (by rw [State.respond_seats, hsv.1, State.admitted_seats]) (by rw [State.respond_layout, hsv.2, State.admitted_layout])
    · rw [hcount, ← hhome]
      exact foldl_clearAt_mem addrs haa hx
    · rw [hcount]
      exact foldl_clearAt_ne addrs (fun a haa x hx => by rw [hhome]; exact hn a haa x hx)
  · obtain ⟨t, et, hat, hut, -⟩ := h.heard.denied (n := 7) (m := 3) (a := a) (by rw [exec_healthClear h hc, hf])
    exact ⟨t, et, hat, hut⟩

/-- LOG. -/
theorem readLog_outcomes {s : State} {r : Req} {i : Nat} {k : Session} {numerics clear : Bool} {start : Nat} (h : Admitted s r i k 5 5 .bound7) :
    let c : Instr := .readLog r numerics start clear
    let q := s.seat (reqField r)
    (r.expert = false → start ≠ 0 ∨ clear = true → Replies c s r stBadField s.freshWord .empty) ∧
    (r.expert = true ∨ (start = 0 ∧ clear = false) →
      (r.part = 7 → numerics = true → Replies c s r stBadField s.freshWord .empty) ∧
      (r.part = 7 → numerics = false → Does c s r stOk (BitVec.ofNat 64 s.host.modVdrop) (.vlog (s.host.modVlog.drop start)) (fun t =>
        UnitsKept s t ∧ SeatsKept s t ∧ t.host.modVlog = (if clear then [] else s.host.modVlog) ∧
          t.host.modVdrop = (if clear then 0 else s.host.modVdrop))) ∧
      (r.part ≠ 7 → numerics = true → Does c s r stOk 0 (.numlog (q.numEntries.drop start)) (fun t => UnitsKept s t ∧
        OnlySeat (reqField r) (if clear then { q with numlog := [], numHead := 0, numWrap := false } else q) s t)) ∧
      (r.part ≠ 7 → numerics = false → Does c s r stOk 0 (.vlog (q.vlog.drop start)) (fun t => UnitsKept s t ∧
        OnlySeat (reqField r) (if clear then { q with vlog := [] } else q) s t ∧
          (clear = true → t.counter (prBase (s.seatIx (reqField r)) + 0x30) = {})))) := by
  intro c q
  have hh := h.heard
  let u := s.admitted r k
  let f := reqField r
  -- a seat changed as `g` has it, and the request then answered
  have oneSeat {v : State} {st : BitVec 16} {d : BitVec 64} {b : Body} (g : Seat → Seat) (hv : ∀ e, v.seat e = (u.modSeat f g).seat e) :
      OnlySeat f (g q) s (v.respond r st d b) := by
    have ho := State.modSeat_onlySeat u (reqField_lt r) g
    rw [State.admitted_seat] at ho
    exact ho.congr (State.admitted_seat s r k) (State.admitted_seatIx s r k) (fun e => (State.respond_seat _ _ _ _ _ e).trans (hv e))
  have noSeat {st : BitVec 16} {d : BitVec 64} {b : Body} : OnlySeat f q s (u.respond r st d b) :=
    (OnlySeat.refl f s).congr (fun _ => rfl) (fun _ => rfl) (fun e => (State.respond_seat _ _ _ _ _ e).trans (State.admitted_seat s r k e))
  refine ⟨fun hx hu => hh.badField (exec_readLog_basic h hx hu), fun hx => ?_⟩
  have e := exec_readLog (numerics := numerics) h hx
  refine ⟨fun hp hn => hh.badField ?_, fun hp hn => ?_, fun hp hn => ?_, fun hp hn => ?_⟩
  · rw [e, if_pos hp, if_pos hn]
  · rw [if_pos hp, if_neg (by simp [hn])] at e
    cases clear <;> simp only [Bool.false_eq_true, if_false, if_true] at e ⊢
    · exact hh.does e rfl ⟨hh.admitted_units.trans (State.respond_unitsKept _ _ _ _ _), SeatsKept.of_eq (by simp) (by simp), by simp, by simp⟩
    · exact hh.does e rfl ⟨hh.admitted_units.trans (UnitsKept.trans (UnitsKept.of_eq rfl rfl rfl rfl) (State.respond_unitsKept _ _ _ _ _)),
        SeatsKept.of_eq (by simp) (by simp), by simp, by simp⟩
  · rw [if_neg hp, if_pos hn] at e
    cases clear <;> simp only [Bool.false_eq_true, if_false, if_true] at e ⊢
    · exact hh.does e rfl ⟨hh.admitted_units.trans (State.respond_unitsKept _ _ _ _ _), noSeat⟩
    · exact hh.does e (by simp [State.modSeat]) ⟨hh.admitted_units.trans ((State.setSeat_unitsKept _ _ _).trans (State.respond_unitsKept _ _ _ _ _)),
        oneSeat (fun k => { k with numlog := [], numHead := 0, numWrap := false }) (fun _ => rfl)⟩
  · rw [if_neg hp, if_neg (by simp [hn])] at e
    cases clear <;> simp only [Bool.false_eq_true, if_false, if_true] at e ⊢
    · exact hh.does e rfl ⟨hh.admitted_units.trans (State.respond_unitsKept _ _ _ _ _), noSeat, fun hc => by cases hc⟩
    · refine hh.does e (by simp [State.modSeat]) ⟨hh.admitted_units.trans ((State.setSeat_unitsKept u f _).trans
        (UnitsKept.trans (UnitsKept.of_eq rfl rfl rfl rfl) (State.respond_unitsKept _ _ _ _ _))),
        oneSeat (fun k => { k with vlog := [] }) (fun _ => rfl), fun _ => ?_⟩
      unfold State.counter
      rw [State.respond_counters]
      exact (State.counter_setCounter _ _ _ _).trans (if_pos rfl)

/-! ### The writers -/

/-- A change of one core. -/
theorem State.modCore_onlyCore (s : State) {c : Nat} (hc : c < 2000) (g : Core → Core) :
    OnlyCore c s (s.modCore c g) ∧ (s.modCore c g).core c = g (s.core c) := by
  have e := State.core_modCore_self s g hc
  refine ⟨?_, e⟩
  unfold OnlyCore
  rw [e]
  rfl

/-- TT_ENTRY_PTR's OUT_OF_TOL is cleared by writing its bit. -/
theorem outOfTolClear_effect (s : State) {f : Nat} (v : BitVec 64) (hf : f < 4) :
    (v.getLsbD 8 = false → exec (.outOfTolClear f v) s = .next s) ∧
    (v.getLsbD 8 = true → ∃ t, exec (.outOfTolClear f v) s = .next t ∧ UnitsKept s t ∧
      OnlySeat f { s.seat f with tt := { (s.seat f).tt with outOfTol := false } } s t) := by
  have e : exec (.outOfTolClear f v) s = .next (execOutOfTolClear f v s) := rfl
  refine ⟨fun hv => by rw [e, execOutOfTolClear, hv]; rfl, fun hv => ⟨_, e, ?_⟩⟩
  rw [execOutOfTolClear, if_pos hv]
  exact ⟨State.setSeat_unitsKept _ _ _, State.modSeat_onlySeat s hf _⟩

/-- The sideband writes PW_ALERT_MASK and PW_CAP, where the target answers. -/
theorem registerWrite_sideband (s : State) (a : Addr) (v : BitVec 64) : exec (.registerWrite .sideband a v) s = .next (
    if s.i3cHeard = false then s
    else if a.toNat = pwBase + 0x28 then { s with pw := { s.pw with mask := v.setWidth 10 } }
    else if a.toNat = pwBase + 0x30 then { s with pw := { s.pw with cap := v.setWidth 16 } } else s) := by
  show Host.Outcome.next (execRegisterWrite .sideband a v s) = _
  cases hh : s.i3cHeard <;> simp [execRegisterWrite, hh]

/-- The entry that logs the refused write of the session in slot `n`. -/
def writeDenied (n : Nat) (a : Addr) : VEntry :=
  { addr := a.setWidth 64, source := 6, code := 0x20, unitId := BitVec.ofNat 16 n, loc := 0 }

/-- A session's refused write logged: in its partition's log, or in the module's. -/
def State.logWriteDenied (s : State) (n : Nat) (x : Session) (a : Addr) : State :=
  if x.bound then s.vlog ((partFields x.part.toNat).headD 0) (writeDenied n a) else s.modVlog (writeDenied n a)

theorem State.logWriteDenied_logged (s : State) (n : Nat) (x : Session) (a : Addr) : Logged s (s.logWriteDenied n x a) := by
  unfold State.logWriteDenied
  split
  · exact s.vlog_logged _ _
  · exact s.modVlog_logged _

/-- A session's write is refused: logged, and answered DENIED with the address. -/
theorem exec_registerWrite_session {s : State} {id : BitVec 32} {n : Nat} {x : Session} (h : s.session id = some (n, x)) (a : Addr) (v : BitVec 64) :
    ∃ y : Resp, y.status = stDenied ∧ y.detail = a.setWidth 64 ∧
      exec (.registerWrite (.session id) a v) s = .next ((s.logWriteDenied n x a).sendTo x y) := by
  refine ⟨s.respOf { sess := id, seq := x.h, part := x.part } stDenied (a.setWidth 64) .empty, rfl, rfl, ?_⟩
  show Host.Outcome.next (s.refuseWrite (.session id) 0 a) = _
  simp only [State.refuseWrite, h]
  rfl

theorem State.sendTo_unitsKept (s : State) (k : Session) (y : Resp) : UnitsKept s (s.sendTo k y) := UnitsKept.of_eq rfl rfl rfl rfl
theorem State.sendTo_seat (s : State) (k : Session) (y : Resp) (f : Nat) : (s.sendTo k y).seat f = s.seat f := State.seat_congr f rfl rfl

theorem registerWrite_session_denied {s : State} {id : BitVec 32} {n : Nat} {x : Session} {a : Addr} {v : BitVec 64}
    (h : s.session id = some (n, x)) (hg : x.gen2 = false) : ∃ t y, exec (.registerWrite (.session id) a v) s = .next t ∧
      t.host.sent = .slate y :: s.host.sent ∧ y.status = stDenied ∧ y.detail = a.setWidth 64 ∧
      (x.bound = true → ∀ f, t.seat f = (s.vlog ((partFields x.part.toNat).headD 0) (writeDenied n a)).seat f) ∧
      (x.bound = false → SeatsKept s t ∧ t.host.modVlog = (s.modVlog (writeDenied n a)).host.modVlog) := by
  obtain ⟨y, hst, hd, e⟩ := exec_registerWrite_session h a v
  refine ⟨_, y, e, ?_, hst, hd, fun hb f => ?_, fun hb => ?_⟩
  · rw [← (s.logWriteDenied_logged n x a).sent]
    simp [State.sendTo, State.send, frameOf, hg]
  · rw [State.sendTo_seat, State.logWriteDenied, if_pos hb]
  · rw [State.logWriteDenied, if_neg (by simp [hb])]
    exact ⟨s.modVlog_seatsKept (writeDenied n a), rfl⟩

theorem registerWrite_session_kept (s : State) (id : BitVec 32) (a : Addr) (v : BitVec 64) :
    ∃ t, exec (.registerWrite (.session id) a v) s = .next t ∧ UnitsKept s t ∧ t.pw = s.pw ∧
      (∀ f, t.seat f = { s.seat f with vlog := (t.seat f).vlog }) ∧ (s.session id = none → t = s) := by
  cases h : s.session id with
  | none =>
    have e : exec (.registerWrite (.session id) a v) s = .next s := by
      show Host.Outcome.next (s.refuseWrite (.session id) 0 a) = _
      simp only [State.refuseWrite, h]
    exact ⟨s, e, UnitsKept.refl s, rfl, fun _ => rfl, fun _ => rfl⟩
  | some p =>
    obtain ⟨y, -, -, e⟩ := exec_registerWrite_session (n := p.1) (x := p.2) h a v
    have hl := s.logWriteDenied_logged p.1 p.2 a
    exact ⟨_, e, hl.units.trans (State.sendTo_unitsKept _ _ _), hl.pw, fun f => by rw [State.sendTo_seat]; exact hl.seats f,
      fun hn => by cases hn⟩

/-- A core's write: what the core's own registers take, or fault 0x05. -/
theorem exec_registerWrite_core (s : State) {c : Nat} (hc : c < 2000) (a : Addr) (v : BitVec 64) :
    (∀ g, (s.core c).lessonWrite c a.toNat v = some g → exec (.registerWrite (.core c) a v) s = .next (s.setCore c g)) ∧
    ((s.core c).lessonWrite c a.toNat v = none →
      exec (.registerWrite (.core c) a v) s = .next (s.recordFault c 5 (s.core c).pc.toNat 0xA1 a.toNat 1)) := by
  have hc' : ¬ 2000 ≤ c := by omega
  refine ⟨fun g hg => ?_, fun hg => ?_⟩
  · show Host.Outcome.next (execRegisterWrite (.core c) a v s) = _
    simp [execRegisterWrite, hc', hg]
  · show Host.Outcome.next (execRegisterWrite (.core c) a v s) = _
    simp [execRegisterWrite, hc', hg, State.refuseWrite]

theorem Core.lessonWrite_mx {k : Core} {c a off : Nat} {v : BitVec 64} (h : regAddr a = some ⟨2, c, off⟩) :
    k.lessonWrite c a v = k.writeMx off v := by
  unfold Core.lessonWrite
  rw [h]
  exact if_pos rfl

theorem Core.lessonWrite_vx {k : Core} {c a off : Nat} {v : BitVec 64} (h : regAddr a = some ⟨3, c, off⟩) :
    k.lessonWrite c a v = k.writeVx off v := by
  unfold Core.lessonWrite
  rw [h]
  exact if_pos rfl

theorem Core.writeMx_none {k : Core} {off : Nat} {v : BitVec 64} (h : 0x18 < off) : k.writeMx off v = none := by
  unfold Core.writeMx
  split
  iterate 4 · omega
  · rfl

theorem Core.writeVx_none {k : Core} {off : Nat} {v : BitVec 64} (h : 0x10 < off) : k.writeVx off v = none := by
  unfold Core.writeVx
  split
  iterate 3 · omega
  · rfl

/-- A lesson writes no register but the fields of its own MX_ and VX_ blocks. -/
theorem Core.lessonWrite_none {k : Core} {c a : Nat} {v : BitVec 64}
    (h : ∀ b off, regAddr a = some ⟨b, c, off⟩ → (b = 2 → 0x18 < off) ∧ (b = 3 → 0x10 < off)) : k.lessonWrite c a v = none := by
  unfold Core.lessonWrite
  split
  next j off hr =>
    split
    next hj => exact Core.writeMx_none ((h 2 off (hj ▸ hr)).1 rfl)
    next => rfl
  next j off hr =>
    split
    next hj => exact Core.writeVx_none ((h 3 off (hj ▸ hr)).2 rfl)
    next => rfl
  next => rfl

theorem registerWrite_core (s : State) {c : Nat} (a : Addr) (v : BitVec 64) (hc : c < 2000) :
    let w : Instr := .registerWrite (.core c) a v
    let u := s.core c
    (∀ off g, regAddr a.toNat = some ⟨2, c, off⟩ → (off, g) ∈ [(0, { u with oscale := v.setWidth 32 }), (8, { u with cadence := v.getLsbD 0 }),
        (0x10, { u with mxFlags := u.mxFlags &&& ~~~(v.setWidth 9) }), (0x18, { u with mxNorm := v })] → exec w s = .next (s.setCore c g)) ∧
    (∀ off g, regAddr a.toNat = some ⟨3, c, off⟩ → (off, g) ∈ [(0, { u with vxEps := v.setWidth 32 }), (8, { u with vxNorm := v }),
        (0x10, { u with vxFlags := u.vxFlags &&& ~~~(v.setWidth 15) })] → exec w s = .next (s.setCore c g)) ∧
    ((∀ b off, regAddr a.toNat = some ⟨b, c, off⟩ → (b = 2 → 0x18 < off) ∧ (b = 3 → 0x10 < off)) →
      exec w s = .next (s.recordFault c 5 u.pc.toNat 0xA1 a.toNat 1)) := by
  intro w u
  obtain ⟨hsome, hnone⟩ := exec_registerWrite_core s hc a v
  refine ⟨fun off g hr hm => hsome g ?_, fun off g hr hm => hsome g ?_, fun h => hnone (Core.lessonWrite_none h)⟩
  · rw [Core.lessonWrite_mx hr]
    simp only [List.mem_cons, Prod.mk.injEq, List.not_mem_nil, or_false] at hm
    rcases hm with ⟨rfl, rfl⟩ | ⟨rfl, rfl⟩ | ⟨rfl, rfl⟩ | ⟨rfl, rfl⟩ <;> rfl
  · rw [Core.lessonWrite_vx hr]
    simp only [List.mem_cons, Prod.mk.injEq, List.not_mem_nil, or_false] at hm
    rcases hm with ⟨rfl, rfl⟩ | ⟨rfl, rfl⟩ | ⟨rfl, rfl⟩ <;> rfl

/-- Settles O40: each read, clear and writer as its outcome lemma says. -/
theorem registersAndLogsAreReadAndWritten : Obligations.RegistersAndLogsAreReadAndWritten := by
  intro s r i k addrs u counted
  refine ⟨fun h => readRegs_outcomes h, fun h => healthClear_outcomes h, fun numerics start clear h => readLog_outcomes h,
    fun c v hc => ⟨⟨_, rfl, State.modCore_onlyCore s hc _⟩, ⟨_, rfl, State.modCore_onlyCore s hc _⟩⟩, fun f v hf => outOfTolClear_effect s v hf,
    fun a v => registerWrite_sideband s a v, fun id n x a v h hg => registerWrite_session_denied h hg,
    fun id a v => registerWrite_session_kept s id a v, fun c a v hc => registerWrite_core s a v hc⟩

end Sys2Proof.Machine
end

section
/-! Time and the walk, command by command (R21, R48, R68, R346, R349): which commands may move a clock, a bell count or a walk, what every other
command keeps, and O18. -/

namespace Sys2Proof.Machine

/-- The commands that may move HM_CLK, the latched counters, a bell count or the clock at which a period opened. -/
def movesTime : Instr → Prop
  | .bell _ _ | .identReceive _ _ _ _ | .flitReceive _ _ _ _ _ | .wipeLpddrDone _ | .bootWipeDone | .dumpFetch _ _ _ | .gen2Dump _ _ _
  | .dumpCollectDone _ _ | .chipResetWaitExpiry | .rstNAssert | .pwrEnRise | .pwrEnFall | .hotSwapTrip | .thermtrip | .inputOvervoltCutoff
  | .undervoltShutdown => True
  | _ => False

/-- The commands that may move where a seat's walk stands. -/
def movesWalk : Instr → Prop
  | .bell _ _ | .parentSilenceUnlock _ | .scheduledStart _ | .scheduledStop _ | .contextResetEffect _ | .planCommit _ | .unload _
  | .runStart _ _ _ _ _ | .runStop _ _ | .gen2Halt _ | .jobLeave _ | .gen2Load _ _ | .gen2Go _ | .wipeStart _ | .wipeLpddrDone _
  | .dumpFetch _ _ _ | .gen2Dump _ _ _ | .dumpCollectDone _ _ | .chipResetWaitExpiry | .rstNAssert | .pwrEnFall | .hotSwapTrip | .thermtrip
  | .inputOvervoltCutoff | .undervoltShutdown => True
  | _ => False

/-- An operation that keeps time and the walk under weaker conditions. -/
theorem Keep.within {T U T' U' : Prop} {s t : State} (hT : T' → T) (hU : U' → U) (h : Keep T U s t) : Keep T' U' s t :=
  ⟨h.pending, h.canonical, fun x => h.time (hT x), fun x => h.place (hU x)⟩

section
variable {c : Instr} {s t : State}

/-- An operation that moves neither time nor the walk. -/
theorem Keep.still (g : Keep (¬ movesTime c) (¬ movesWalk c) s s → Keep (¬ movesTime c) (¬ movesWalk c) s t) :
    ∃ u, (.next t : Host.Outcome State Fault Refusal) = .next u ∧ Keep (¬ movesTime c) (¬ movesWalk c) s u := ⟨t, rfl, g (.refl _ _ s)⟩

/-- An operation that may move the walk, and no clock. -/
theorem Keep.movedWalk (hc : movesWalk c) (g : Keep (¬ movesTime c) False s s → Keep (¬ movesTime c) False s t) :
    ∃ u, (.next t : Host.Outcome State Fault Refusal) = .next u ∧ Keep (¬ movesTime c) (¬ movesWalk c) s u :=
  ⟨t, rfl, (g (.refl _ _ s)).within id (fun h => h hc)⟩

/-- An operation that may move time, and no walk. -/
theorem Keep.movedTime (hc : movesTime c) (g : Keep False (¬ movesWalk c) s s → Keep False (¬ movesWalk c) s t) :
    ∃ u, (.next t : Host.Outcome State Fault Refusal) = .next u ∧ Keep (¬ movesTime c) (¬ movesWalk c) s u :=
  ⟨t, rfl, (g (.refl _ _ s)).within (fun h => h hc) id⟩

/-- An operation that may move both. -/
theorem Keep.movedBoth (hc : movesTime c) (hw : movesWalk c) (g : Keep False False s s → Keep False False s t) :
    ∃ u, (.next t : Host.Outcome State Fault Refusal) = .next u ∧ Keep (¬ movesTime c) (¬ movesWalk c) s u :=
  ⟨t, rfl, (g (.refl _ _ s)).within (fun h => h hc) (fun h => h hw)⟩

end

/-- Every command has a next state, in which no clock has moved unless it is a command that may move one, and no walk likewise. -/
theorem exec_keep_time_walk (c : Instr) (s : State) :
    ∃ t, exec c s = .next t ∧ Keep (¬ movesTime c) (¬ movesWalk c) s t := by
  cases c with
  | nop => exact Keep.still execNop_keep
  | add => exact Keep.still execAdd_keep
  | sub => exact Keep.still execSub_keep
  | and => exact Keep.still execAnd_keep
  | or => exact Keep.still execOr_keep
  | xor => exact Keep.still execXor_keep
  | sll => exact Keep.still execSll_keep
  | srl => exact Keep.still execSrl_keep
  | sra => exact Keep.still execSra_keep
  | mul => exact Keep.still execMul_keep
  | mulhu => exact Keep.still execMulhu_keep
  | min => exact Keep.still execMin_keep
  | max => exact Keep.still execMax_keep
  | divu => exact Keep.still execDivu_keep
  | remu => exact Keep.still execRemu_keep
  | addi => exact Keep.still execAddi_keep
  | andi => exact Keep.still execAndi_keep
  | ori => exact Keep.still execOri_keep
  | xori => exact Keep.still execXori_keep
  | slli => exact Keep.still execSlli_keep
  | srli => exact Keep.still execSrli_keep
  | srai => exact Keep.still execSrai_keep
  | li => exact Keep.still execLi_keep
  | lih => exact Keep.still execLih_keep
  | cmpeq => exact Keep.still execCmpeq_keep
  | cmplt => exact Keep.still execCmplt_keep
  | cmpltu => exact Keep.still execCmpltu_keep
  | cmpeqi => exact Keep.still execCmpeqi_keep
  | cmplti => exact Keep.still execCmplti_keep
  | cmpltui => exact Keep.still execCmpltui_keep
  | plog => exact Keep.still execPlog_keep
  | adda => exact Keep.still execAdda_keep
  | addai => exact Keep.still execAddai_keep
  | mvsa => exact Keep.still execMvsa_keep
  | mvas => exact Keep.still execMvas_keep
  | br => exact Keep.still execBr_keep
  | call => exact Keep.still execCall_keep
  | jr => exact Keep.still execJr_keep
  | loop => exact Keep.still execLoop_keep
  | ld => exact Keep.still execLd_keep
  | st => exact Keep.still execSt_keep
  | ldd => exact Keep.still execLdd_keep
  | std => exact Keep.still execStd_keep
  | dma => exact Keep.still execDma_keep
  | dmad => exact Keep.still execDmad_keep
  | mma => exact Keep.still execMma_keep
  | mxz => exact Keep.still execMxz_keep
  | mxld => exact Keep.still execMxld_keep
  | mxst => exact Keep.still execMxst_keep
  | vopCvt => exact Keep.still execVopCvt_keep
  | vopAdd => exact Keep.still execVopAdd_keep
  | vopSub => exact Keep.still execVopSub_keep
  | vopMul => exact Keep.still execVopMul_keep
  | vopDiv => exact Keep.still execVopDiv_keep
  | vopMin => exact Keep.still execVopMin_keep
  | vopMax => exact Keep.still execVopMax_keep
  | vopFma => exact Keep.still execVopFma_keep
  | vopAbs => exact Keep.still execVopAbs_keep
  | vopNeg => exact Keep.still execVopNeg_keep
  | vopSqrt => exact Keep.still execVopSqrt_keep
  | vopRsqrt => exact Keep.still execVopRsqrt_keep
  | vopRecip => exact Keep.still execVopRecip_keep
  | vopExp => exact Keep.still execVopExp_keep
  | vopLog => exact Keep.still execVopLog_keep
  | vopTanh => exact Keep.still execVopTanh_keep
  | vopSigmoid => exact Keep.still execVopSigmoid_keep
  | vopSilu => exact Keep.still execVopSilu_keep
  | vopRsum => exact Keep.still execVopRsum_keep
  | vopRmax => exact Keep.still execVopRmax_keep
  | vopAmax => exact Keep.still execVopAmax_keep
  | vopSumsq => exact Keep.still execVopSumsq_keep
  | vopSum => exact Keep.still execVopSum_keep
  | vopSoftmax => exact Keep.still execVopSoftmax_keep
  | vopLse => exact Keep.still execVopLse_keep
  | vopRmsnorm => exact Keep.still execVopRmsnorm_keep
  | vopLayernorm => exact Keep.still execVopLayernorm_keep
  | vopXent => exact Keep.still execVopXent_keep
  | vopXgrad => exact Keep.still execVopXgrad_keep
  | vopQrow => exact Keep.still execVopQrow_keep
  | vopQtensor => exact Keep.still execVopQtensor_keep
  | vopMxq => exact Keep.still execVopMxq_keep
  | vopDeq => exact Keep.still execVopDeq_keep
  | vopRescale => exact Keep.still execVopRescale_keep
  | vopHist => exact Keep.still execVopHist_keep
  | fupd => exact Keep.still execFupd_keep
  | crc => exact Keep.still execCrc_keep
  | vget => exact Keep.still execVget_keep
  | vflg => exact Keep.still execVflg_keep
  | bellwait => exact Keep.still execBellwait_keep
  | bellwaits => exact Keep.still execBellwaits_keep
  | rest => exact Keep.still execRest_keep
  | rdcr => exact Keep.still execRdcr_keep
  | wrcr => exact Keep.still execWrcr_keep
  | rngk => exact Keep.still execRngk_keep
  | rng => exact Keep.still execRng_keep
  | fence => exact Keep.still execFence_keep
  | wait => exact Keep.still execWait_keep
  | check => exact Keep.still execCheck_keep
  | raise => exact Keep.still execRaise_keep
  | rdflt => exact Keep.still execRdflt_keep
  | sealDrainDone => exact Keep.still execSealDrainDone_keep
  | fenceDrainDone => exact Keep.still execFenceDrainDone_keep
  | tagWaitDone => exact Keep.still execTagWaitDone_keep
  | sealedWriteRelease => exact Keep.still execSealedWriteRelease_keep
  | mmaStart => exact Keep.still execMmaStart_keep
  | mmaResultReady => exact Keep.still execMmaResultReady_keep
  | mxzDone => exact Keep.still execMxzDone_keep
  | mxldDone => exact Keep.still execMxldDone_keep
  | mxstStart => exact Keep.still execMxstStart_keep
  | abftCheckVerdict => exact Keep.still execAbftCheckVerdict_keep
  | localRecomputeStart => exact Keep.still execLocalRecomputeStart_keep
  | localRecomputeDone => exact Keep.still execLocalRecomputeDone_keep
  | buddyServiceRequest => exact Keep.still execBuddyServiceRequest_keep
  | buddyServiceStart => exact Keep.still execBuddyServiceStart_keep
  | buddyServiceDone => exact Keep.still execBuddyServiceDone_keep
  | buddyTileReturn => exact Keep.still execBuddyTileReturn_keep
  | mxstWriteDone => exact Keep.still execMxstWriteDone_keep
  | dmaDone => exact Keep.still execDmaDone_keep
  | vectorOpStart => exact Keep.still execVectorOpStart_keep
  | vectorOpDone => exact Keep.still execVectorOpDone_keep
  | bell => exact Keep.movedBoth trivial trivial execBell_keep
  | parentSilenceUnlock => exact Keep.movedWalk trivial execParentSilenceUnlock_keep
  | txSlot => exact Keep.still execTxSlot_keep
  | sealDeadline => exact Keep.still execSealDeadline_keep
  | flitReceive => exact Keep.movedTime trivial execFlitReceive_keep
  | ackTimeout => exact Keep.still execAckTimeout_keep
  | statusFlitReceive => exact Keep.still execStatusFlitReceive_keep
  | statusChildMissing => exact Keep.still execStatusChildMissing_keep
  | absentReceived => exact Keep.still execAbsentReceived_keep
  | wipeReceived => exact Keep.still execWipeReceived_keep
  | absentPatternEnd => exact Keep.still execAbsentPatternEnd_keep
  | wipePatternEnd => exact Keep.still execWipePatternEnd_keep
  | lightDetected => exact Keep.still execLightDetected_keep
  | signalTrained => exact Keep.still execSignalTrained_keep
  | fecAligned => exact Keep.still execFecAligned_keep
  | fecLockLost => exact Keep.still execFecLockLost_keep
  | identReceive => exact Keep.movedTime trivial execIdentReceive_keep
  | swapReq => exact Keep.still execSwapReq_keep
  | swapAck => exact Keep.still execSwapAck_keep
  | swapNak => exact Keep.still execSwapNak_keep
  | laneSwapEffect => exact Keep.still execLaneSwapEffect_keep
  | poolResponse => exact Keep.still execPoolResponse_keep
  | poolTimeout => exact Keep.still execPoolTimeout_keep
  | scheduledStart => exact Keep.movedWalk trivial execScheduledStart_keep
  | scheduledStop => exact Keep.movedWalk trivial execScheduledStop_keep
  | keyRotationEffect => exact Keep.still execKeyRotationEffect_keep
  | sweepBlock => exact Keep.still execSweepBlock_keep
  | oldEpochErase => exact Keep.still execOldEpochErase_keep
  | pageCopyComplete => exact Keep.still execPageCopyComplete_keep
  | patrolScrubPass => exact Keep.still execPatrolScrubPass_keep
  | cubbySample => exact Keep.still execCubbySample_keep
  | cubbyReady => exact Keep.still execCubbyReady_keep
  | ownerCrcReceive => exact Keep.still execOwnerCrcReceive_keep
  | unitApplyDone => exact Keep.still execUnitApplyDone_keep
  | recomputeRequest => exact Keep.still execRecomputeRequest_keep
  | recomputeReply => exact Keep.still execRecomputeReply_keep
  | applyComplete => exact Keep.still execApplyComplete_keep
  | summaryReceive => exact Keep.still execSummaryReceive_keep
  | unitTransferReceive => exact Keep.still execUnitTransferReceive_keep
  | handoverPullsDone => exact Keep.still execHandoverPullsDone_keep
  | cardDecayTick => exact Keep.still execCardDecayTick_keep
  | cardStoreTimer => exact Keep.still execCardStoreTimer_keep
  | remedyRelaxTimer => exact Keep.still execRemedyRelaxTimer_keep
  | popQuizStart => exact Keep.still execPopQuizStart_keep
  | popQuizResult => exact Keep.still execPopQuizResult_keep
  | spareMarginTimer => exact Keep.still execSpareMarginTimer_keep
  | marginMeasureDone => exact Keep.still execMarginMeasureDone_keep
  | tileCopyComplete => exact Keep.still execTileCopyComplete_keep
  | passGrant => exact Keep.still execPassGrant_keep
  | combChangeover => exact Keep.still execCombChangeover_keep
  | counterClear => exact Keep.still execCounterClear_keep
  | mxFlagsClear => exact Keep.still execMxFlagsClear_keep
  | vxFlagsClear => exact Keep.still execVxFlagsClear_keep
  | outOfTolClear => exact Keep.still execOutOfTolClear_keep
  | pwAlertClear => exact Keep.still execPwAlertClear_keep
  | registerWrite => exact Keep.still execRegisterWrite_keep
  | sessionHello => exact Keep.still execSessionHello_keep
  | sessionFinish => exact Keep.still execSessionFinish_keep
  | sessionClose => exact Keep.still execSessionClose_keep
  | sessionStatus => exact Keep.still execSessionStatus_keep
  | handshakeTimeout => exact Keep.still execHandshakeTimeout_keep
  | sessionIdleTimeout => exact Keep.still execSessionIdleTimeout_keep
  | partitionLayout => exact Keep.still execPartitionLayout_keep
  | partitionGrant => exact Keep.still execPartitionGrant_keep
  | partitionRevoke => exact Keep.still execPartitionRevoke_keep
  | planBegin => exact Keep.still execPlanBegin_keep
  | planData => exact Keep.still execPlanData_keep
  | planCommit => exact Keep.movedWalk trivial execPlanCommit_keep
  | deliverBegin => exact Keep.still execDeliverBegin_keep
  | deliverData => exact Keep.still execDeliverData_keep
  | shardData => exact Keep.still execShardData_keep
  | shardCommit => exact Keep.still execShardCommit_keep
  | unload => exact Keep.movedWalk trivial execUnload_keep
  | runStart => exact Keep.movedWalk trivial execRunStart_keep
  | runStop => exact Keep.movedWalk trivial execRunStop_keep
  | readOpen => exact Keep.still execReadOpen_keep
  | readOpenAnswer => exact Keep.still execReadOpenAnswer_keep
  | readWaitTimeout => exact Keep.still execReadWaitTimeout_keep
  | readPiece => exact Keep.still execReadPiece_keep
  | readClose => exact Keep.still execReadClose_keep
  | readRegs => exact Keep.still execReadRegs_keep
  | readLog => exact Keep.still execReadLog_keep
  | jobSeat => exact Keep.still execJobSeat_keep
  | jobPartner => exact Keep.still execJobPartner_keep
  | jobFill => exact Keep.still execJobFill_keep
  | jobStandby => exact Keep.still execJobStandby_keep
  | jobAssume => exact Keep.still execJobAssume_keep
  | jobHandover => exact Keep.still execJobHandover_keep
  | jobPeers => exact Keep.still execJobPeers_keep
  | jobPool => exact Keep.still execJobPool_keep
  | jobCkptSecret => exact Keep.still execJobCkptSecret_keep
  | jobCheckpoint => exact Keep.still execJobCheckpoint_keep
  | jobScan => exact Keep.still execJobScan_keep
  | jobRestore => exact Keep.still execJobRestore_keep
  | jobLeave => exact Keep.movedWalk trivial execJobLeave_keep
  | healthCards => exact Keep.still execHealthCards_keep
  | healthPasses => exact Keep.still execHealthPasses_keep
  | healthClear => exact Keep.still execHealthClear_keep
  | maintRotate => exact Keep.still execMaintRotate_keep
  | maintRetrain => exact Keep.still execMaintRetrain_keep
  | maintWipe => exact Keep.still execMaintWipe_keep
  | resetEngineCore => exact Keep.still execResetEngineCore_keep
  | resetEngineLink => exact Keep.still execResetEngineLink_keep
  | resetEngineChannel => exact Keep.still execResetEngineChannel_keep
  | resetContext => exact Keep.still execResetContext_keep
  | contextResetEffect => exact Keep.movedWalk trivial execContextResetEffect_keep
  | resetPartition => exact Keep.still execResetPartition_keep
  | resetChip => exact Keep.still execResetChip_keep
  | chipResetWaitExpiry => exact Keep.movedBoth trivial trivial execChipResetWaitExpiry_keep
  | maintMargin => exact Keep.still execMaintMargin_keep
  | maintNetcfg => exact Keep.still execMaintNetcfg_keep
  | maintReturn => exact Keep.still execMaintReturn_keep
  | returnCancel => exact Keep.still execReturnCancel_keep
  | ownershipToken => exact Keep.still execOwnershipToken_keep
  | tokenServiceMode => exact Keep.still execTokenServiceMode_keep
  | tokenFactoryUnlock => exact Keep.still execTokenFactoryUnlock_keep
  | tokenReinstatement => exact Keep.still execTokenReinstatement_keep
  | tokenOwnerTransfer => exact Keep.still execTokenOwnerTransfer_keep
  | serviceModeExpiry => exact Keep.still execServiceModeExpiry_keep
  | dumpCollect => exact Keep.still execDumpCollect_keep
  | dumpCollectDone => exact Keep.movedBoth trivial trivial execDumpCollectDone_keep
  | dumpList => exact Keep.still execDumpList_keep
  | dumpFetch => exact Keep.movedBoth trivial trivial execDumpFetch_keep
  | dumpDelete => exact Keep.still execDumpDelete_keep
  | attestReport => exact Keep.still execAttestReport_keep
  | attestCerts => exact Keep.still execAttestCerts_keep
  | gen2Open => exact Keep.still execGen2Open_keep
  | gen2Close => exact Keep.still execGen2Close_keep
  | gen2Info => exact Keep.still execGen2Info_keep
  | gen2Load => exact Keep.movedWalk trivial execGen2Load_keep
  | gen2Weights => exact Keep.still execGen2Weights_keep
  | gen2Feed => exact Keep.still execGen2Feed_keep
  | gen2Go => exact Keep.movedWalk trivial execGen2Go_keep
  | gen2Halt => exact Keep.movedWalk trivial execGen2Halt_keep
  | gen2Fetch => exact Keep.still execGen2Fetch_keep
  | gen2Regs => exact Keep.still execGen2Regs_keep
  | gen2Health => exact Keep.still execGen2Health_keep
  | gen2Reset => exact Keep.still execGen2Reset_keep
  | gen2Dump => exact Keep.movedBoth trivial trivial execGen2Dump_keep
  | icmpEcho => exact Keep.still execIcmpEcho_keep
  | ndpMessage => exact Keep.still execNdpMessage_keep
  | arpRequest => exact Keep.still execArpRequest_keep
  | dhcpv4Reply => exact Keep.still execDhcpv4Reply_keep
  | portModeTimeout => exact Keep.still execPortModeTimeout_keep
  | bootSolicit => exact Keep.still execBootSolicit_keep
  | bootAdvertise => exact Keep.still execBootAdvertise_keep
  | bootReadResponse => exact Keep.still execBootReadResponse_keep
  | bootReadRetry => exact Keep.still execBootReadRetry_keep
  | bootRetryTimer => exact Keep.still execBootRetryTimer_keep
  | bootWipeDone => exact Keep.movedTime trivial execBootWipeDone_keep
  | wipeStart => exact Keep.movedWalk trivial execWipeStart_keep
  | wipeLpddrDone => exact Keep.movedBoth trivial trivial execWipeLpddrDone_keep
  | entdaa => exact Keep.still execEntdaa_keep
  | rstdaa => exact Keep.still execRstdaa_keep
  | getpid => exact Keep.still execGetpid_keep
  | getbcr => exact Keep.still execGetbcr_keep
  | getdcr => exact Keep.still execGetdcr_keep
  | telemetryWindow => exact Keep.still execTelemetryWindow_keep
  | pwrEnRise => exact Keep.movedTime trivial execPwrEnRise_keep
  | powerGood => exact Keep.still execPowerGood_keep
  | pwrEnFall => exact Keep.movedBoth trivial trivial execPwrEnFall_keep
  | rstNAssert => exact Keep.movedBoth trivial trivial execRstNAssert_keep
  | rstNRelease => exact Keep.still execRstNRelease_keep
  | thermtrip => exact Keep.movedBoth trivial trivial execThermtrip_keep
  | undervolt => exact Keep.still execUndervolt_keep
  | undervoltShutdown => exact Keep.movedBoth trivial trivial execUndervoltShutdown_keep
  | overvolt => exact Keep.still execOvervolt_keep
  | inputOvervoltCutoff => exact Keep.movedBoth trivial trivial execInputOvervoltCutoff_keep
  | overcurrent => exact Keep.still execOvercurrent_keep
  | hotSwapTrip => exact Keep.movedBoth trivial trivial execHotSwapTrip_keep
  | phase => exact Keep.still execPhase_keep
  | cartLatch => exact Keep.still execCartLatch_keep
  | cap => exact Keep.still execCap_keep
  | dieHot => exact Keep.still execDieHot_keep
  | inletHot => exact Keep.still execInletHot_keep
  | lpddrHot => exact Keep.still execLpddrHot_keep
  | lightLost => exact Keep.still execLightLost_keep
  | cartridgeLatched => exact Keep.still execCartridgeLatched_keep
  | alertConditionEnd => exact Keep.still execAlertConditionEnd_keep
  | portLinkUp => exact Keep.still execPortLinkUp_keep
  | portLinkDown => exact Keep.still execPortLinkDown_keep
  | resetRungComplete => exact Keep.still execResetRungComplete_keep
  | unitTransferAck => exact Keep.still execUnitTransferAck_keep
  | frameDropped => exact Keep.still execFrameDropped_keep
  | unknownCommand => exact Keep.still execUnknownCommand_keep
  -- the remaining command is SEAL, whose name is a word of Lean's
  | _ => exact Keep.still execSeal_keep


/-- Where no clock moves, HM_CLK, the latched counters and the clock of every seat are as they were. -/
theorem SameTime.clocks {s t : State} (h : SameTime s t) : t.hmClk = s.hmClk ∧ t.latched = s.latched ∧ ∀ f, (t.seat f).clockOf = (s.seat f).clockOf := by
  refine ⟨h.hmClk, h.latched, fun f => ?_⟩
  unfold State.seat
  rw [State.seatIx_congr f h.layout]
  exact h.bell _

/-! ### The count of a flit -/

/-- An action for each element of a list keeps the seats and the host port if each one does. -/
theorem foldl_seats_host {α : Type} (l : List α) {g : State → α → State} (hg : ∀ t x, (g t x).seats = t.seats ∧ (g t x).host = t.host) (s : State) :
    (l.foldl g s).seats = s.seats ∧ (l.foldl g s).host = s.host :=
  List.foldlRecOn (motive := fun t => t.seats = s.seats ∧ t.host = s.host) l g ⟨rfl, rfl⟩
    fun t ht x _ => ⟨(hg t x).1.trans ht.1, (hg t x).2.trans ht.2⟩

/-- Counting corrected symbols leaves the seats and the host port. -/
theorem State.corrected_seats_host (s : State) (l : Nat) (quiz : Bool) (ce : List (Nat × Nat)) :
    (s.corrected l quiz ce).seats = s.seats ∧ (s.corrected l quiz ce).host = s.host := by
  refine foldl_seats_host ce (fun t e => ?_) s
  split
  · obtain ⟨h1, h2⟩ := foldl_seats_host (List.range e.2) (g := fun u _ => u.bump (flBase l + 0x108 + 16 * e.1))
      (fun u _ => ⟨State.bump_seats u _, State.bump_host u _⟩) t
    exact ⟨(State.modLink_seats _ _ _).trans h1, (State.modLink_host _ _ _).trans h2⟩
  · exact ⟨rfl, rfl⟩

/-- Following the count of a parent's flits moves the bell count of the link's own seat, in HOLD, and nothing else of time. -/
theorem State.followCount_clocks (s : State) (l : Nat) (b : BitVec 64) :
    (s.followCount l b).hmClk = s.hmClk ∧ (s.followCount l b).latched = s.latched ∧
      ∀ f, ((s.followCount l b).seat f).tt.opened = (s.seat f).tt.opened ∧
        (((s.followCount l b).seat f).tt.bell = (s.seat f).tt.bell ∨ ((s.seat f).tt.hold = true ∧ s.seatIx f = s.seatIx (fieldOfLink l))) := by
  unfold State.followCount
  dsimp only
  split
  · exact ⟨rfl, rfl, fun f => ⟨rfl, .inl rfl⟩⟩
  next hc =>
    have hold : (s.seat (fieldOfLink l)).tt.hold = true := by
      by_contra h
      exact hc (by simp [h])
    refine ⟨by simp, by simp, fun f => ?_⟩
    by_cases hg : fieldOfLink l < 4
    · rw [State.seat_modSeat hg]
      split
      next hf =>
        have e : s.seat f = s.seat (fieldOfLink l) := by unfold State.seat; rw [hf]
        rw [e]
        exact ⟨rfl, .inr ⟨hold, hf⟩⟩
      next => exact ⟨rfl, .inl rfl⟩
    · rw [State.modSeat, State.setSeat, if_neg hg]
      exact ⟨rfl, .inl rfl⟩

/-- Whether a link leads to the tree parent is read from its seat. -/
theorem State.isParentLink_congr {s t : State} (l : Nat) (h : t.seats = s.seats) (hh : t.host = s.host) : t.isParentLink l = s.isParentLink l := by
  unfold State.isParentLink
  rw [State.seat_congr _ h (congrArg HostPort.layout hh)]

/-- A received flit keeps time and walks, or, one of the parent's, it keeps them but for what following its count moves, from a state with the
seats of `s`. -/
theorem execFlitReceive_keep_but_count (l : Nat) (bell : BitVec 64) (slot : Nat) (rx : Rx) (ce : List (Nat × Nat)) (s : State) :
    Keep True True s (execFlitReceive l bell slot rx ce s) ∨ (s.isParentLink l = true ∧ ∃ u : State, u.seats = s.seats ∧ u.host = s.host ∧
      Keep True True s u ∧ Keep True True (u.followCount l bell) (execFlitReceive l bell slot rx ce s)) := by
  have hs := Keep.refl True True s
  unfold execFlitReceive
  dsimp only
  split
  · exact .inl hs
  split
  · exact .inl (State.missedFlit_keep hs)
  generalize hu : s.corrected l _ ce = u
  obtain ⟨hseats, hhost⟩ : u.seats = s.seats ∧ u.host = s.host := hu ▸ s.corrected_seats_host l _ ce
  have su : Keep True True s u := hu ▸ State.corrected_keep hs
  have taken {r v : State} (h : Keep True True r v) {x : Flit} {run orig : Option Run} {p : BitVec 64} {op : Option (BitVec 64)} {code : Nat} :
      Keep True True r (if code ≠ 0 then v.violation l bell slot x run orig p code
        else v.acceptFlit l bell slot x op (if x.resend then orig else run)) := by
    split
    · exact State.violation_keep h
    · exact State.acceptFlit_keep h
  split
  · exact .inl (State.damagedFlit_keep su)
  by_cases hp : u.isParentLink l = true
  · simp only [if_pos hp]
    exact .inr ⟨(State.isParentLink_congr l hseats hhost).symm.trans hp, u, hseats, hhost, su,
      taken (State.modTt_keep (.refl _ _ _) (fun _ => rfl) (fun _ => rfl))⟩
  · simp only [if_neg hp]
    exact .inl (taken su)

/-- What FLIT_RECEIVE can move of time: the bell count of a seat in HOLD, by a flit of its parent's. -/
theorem execFlitReceive_time (l : Nat) (bell : BitVec 64) (slot : Nat) (rx : Rx) (ce : List (Nat × Nat)) (s : State) :
    let t := execFlitReceive l bell slot rx ce s
    t.hmClk = s.hmClk ∧ t.latched = s.latched ∧ ∀ f, (t.seat f).tt.opened = (s.seat f).tt.opened ∧
      ((t.seat f).tt.bell = (s.seat f).tt.bell ∨ (s.isParentLink l = true ∧ (s.seat f).tt.hold = true ∧ s.seatIx f = s.seatIx (fieldOfLink l))) := by
  rcases execFlitReceive_keep_but_count l bell slot rx ce s with h | ⟨hp, u, hseats, hhost, hsu, hut⟩
  · obtain ⟨h1, h2, h3⟩ := (h.time trivial).clocks
    exact ⟨h1, h2, fun f => ⟨congrArg Prod.snd (h3 f), .inl (congrArg Prod.fst (h3 f))⟩⟩
  · obtain ⟨a1, a2, -⟩ := (hsu.time trivial).clocks
    obtain ⟨b1, b2, b3⟩ := u.followCount_clocks l bell
    obtain ⟨c1, c2, c3⟩ := (hut.time trivial).clocks
    refine ⟨c1.trans (b1.trans a1), c2.trans (b2.trans a2), fun f => ?_⟩
    have e (g : Nat) : u.seat g = s.seat g := State.seat_congr g hseats (congrArg HostPort.layout hhost)
    have eIx (g : Nat) : u.seatIx g = s.seatIx g := State.seatIx_congr g (congrArg HostPort.layout hhost)
    obtain ⟨ho, hb⟩ := b3 f
    rw [e] at ho hb
    rw [eIx, eIx] at hb
    exact ⟨(congrArg Prod.snd (c3 f)).trans ho, hb.imp (congrArg Prod.fst (c3 f)).trans fun h => ⟨hp, h⟩⟩

/-- Settles O18: a command outside the list keeps time, as `exec_keep_time_walk` says, and a received flit moves the count it follows alone. -/
theorem onlyBellsAndResetsMoveTime : Obligations.OnlyBellsAndResetsMoveTime := by
  intro c s t h
  obtain ⟨u, hu, k⟩ := exec_keep_time_walk c s
  cases hu.symm.trans h
  cases c with
  | flitReceive l b n rx ce =>
    cases h
    exact execFlitReceive_time l b n rx ce s
  | bell | identReceive | wipeLpddrDone | bootWipeDone | dumpFetch | gen2Dump | dumpCollectDone | chipResetWaitExpiry | rstNAssert | pwrEnRise
  | pwrEnFall | hotSwapTrip | thermtrip | inputOvervoltCutoff | undervoltShutdown => trivial
  | _ => exact (k.time id).clocks

end Sys2Proof.Machine
end

section
/-! Health and maintenance (R228, R298, R331, R357, R373, R377, R381, R416, R418, R423): what a request finds of the fields and of the
coordinator, hall passes taken, and O43. -/

namespace Sys2Proof.Machine

/-! ### What an admitted request finds -/

/-- Counting an event leaves the passes of the coordinator. -/
theorem State.bump_coord (s : State) (a : Nat) : (s.bump a).coord = { s.coord with satAddr := (s.bump a).coord.satAddr } := by
  unfold State.bump
  dsimp only
  split
  · rfl
  split
  · unfold State.satEvent
    dsimp only
    split <;> simp [State.setCounter, State.modHm]
  · rfl

section
variable (s : State) (r : Req) (k : Session)

theorem State.admitted_module : (s.admitted r k).pw = s.pw ∧ (s.admitted r k).store = s.store ∧ (s.admitted r k).nv = s.nv ∧
    (s.admitted r k).cores = s.cores ∧ (s.admitted r k).links = s.links ∧
    (s.admitted r k).coord = { s.coord with satAddr := (s.admitted r k).coord.satAddr } := by
  have hm := s.modSession_host r.sess (fun x => x.accept r.seq)
  unfold State.admitted
  rcases State.countReq_cases (s.modSession r.sess (fun x => x.accept r.seq)) k r.part with e | ⟨a, e⟩
  · rw [e, hm]
    exact ⟨rfl, rfl, rfl, rfl, rfl, rfl⟩
  · obtain ⟨-, b1, b2, -, -, -, b3, b4, -, -, -, -, -, -, -, b5, -⟩ := State.bump_frame (s.modSession r.sess (fun x => x.accept r.seq)) a
    have b6 := State.bump_coord (s.modSession r.sess (fun x => x.accept r.seq)) a
    rw [e, b1, b2, b3, b4, b5, hm]
    rw [hm] at b6
    exact ⟨rfl, rfl, rfl, rfl, rfl, b6⟩

@[simp] theorem State.admitted_pw : (s.admitted r k).pw = s.pw := (s.admitted_module r k).1
@[simp] theorem State.admitted_store : (s.admitted r k).store = s.store := (s.admitted_module r k).2.1
@[simp] theorem State.admitted_cores : (s.admitted r k).cores = s.cores := (s.admitted_module r k).2.2.2.1
@[simp] theorem State.admitted_links : (s.admitted r k).links = s.links := (s.admitted_module r k).2.2.2.2.1
@[simp] theorem State.admitted_coordPasses : (s.admitted r k).coord.passes = s.coord.passes := by rw [(s.admitted_module r k).2.2.2.2.2]
@[simp] theorem State.admitted_coordMore : (s.admitted r k).coord.more = s.coord.more := by rw [(s.admitted_module r k).2.2.2.2.2]
@[simp] theorem State.admitted_seatFields (f : Nat) : (s.admitted r k).seatFields f = s.seatFields f := by
  simp [State.seatFields, State.partOf]
@[simp] theorem State.admitted_partOf (f : Nat) : (s.admitted r k).partOf f = s.partOf f := by simp [State.partOf]
@[simp] theorem State.admitted_link (l : Nat) : (s.admitted r k).link l = s.link l := State.link_congr l (by simp)
@[simp] theorem State.admitted_core (c : Nat) : (s.admitted r k).core c = s.core c := State.core_congr c (by simp)

end

section
variable {s : State} {r : Req} {i : Nat} {k : Session} {cls cmd : Nat} {x : Rights}

/-- The field a request finds is that of `s` but for HM_SAT_LAST. -/
theorem Heard.admitted_field (h : Heard s r i k cls cmd x) (f : Nat) : (s.admitted r k).field f =
    { s.field f with hm := { (s.field f).hm with satAddr := ((s.admitted r k).field f).hm.satAddr } } := h.admitted_units.2.2.2 f

theorem Heard.field_parts (h : Heard s r i k cls cmd x) (f : Nat) : ((s.admitted r k).field f).mc = (s.field f).mc ∧
    ((s.admitted r k).field f).lb = (s.field f).lb ∧ ((s.admitted r k).field f).hm.passes = (s.field f).hm.passes ∧
    ((s.admitted r k).field f).hm.measuring = (s.field f).hm.measuring := by
  rw [h.admitted_field f]
  exact ⟨rfl, rfl, rfl, rfl⟩

/-- An admitted command does what it does on the state that remembers and counts its request. -/
theorem Admitted.exec_go {c : Instr} {go : State → State} (h : Admitted s r i k cls cmd x)
    (e : exec c s = .next (s.request r cls cmd x go)) : exec c s = .next (go (s.admitted r k)) := by rw [e, State.request_admitted h]

end

/-- A request in expert form, or one that uses no field of the expert form, goes on. -/
theorem State.expertOnly_goes {s : State} {r : Req} {used : Bool} {go : State → State} (h : r.expert = true ∨ used = false) :
    s.expertOnly r used go = go s := by
  unfold State.expertOnly
  rcases h with h | h <;> simp [h]

theorem State.expertOnly_refuses {s : State} {r : Req} {go : State → State} (h : r.expert = false) :
    s.expertOnly r true go = s.badField r := by simp [State.expertOnly, h]

theorem partFields_lt {n f : Nat} (h : f ∈ partFields n) : f < 4 := by
  unfold partFields at h
  split at h <;> simp at h <;> omega

theorem partFields_nodup (n : Nat) : (partFields n).Nodup := by
  unfold partFields
  split <;> simp

/-! ### Responses after a change -/

/-- The seat of field `f` changed, and then a response: that seat reads so, and every other is as before. -/
theorem OnlySeat.modSeat {s v : State} {f : Nat} (hf : f < 4) (hs : v.seats = s.seats) (hl : v.host.layout = s.host.layout) (g : Seat → Seat) :
    OnlySeat f (g (s.seat f)) s (v.modSeat f g) := by
  have e (j : Nat) : v.seat j = s.seat j := State.seat_congr j hs hl
  have eIx (j : Nat) : v.seatIx j = s.seatIx j := State.seatIx_congr j hl
  refine ⟨?_, fun j hj => ?_⟩
  · rw [State.seat_modSeat_self _ _ hf, e]
  · rw [State.seat_modSeat hf, eIx, eIx, if_neg hj, e]

theorem OnlySeat.respond {s t : State} {f : Nat} {k : Seat} (h : OnlySeat f k s t) (r : Req) (st : BitVec 16) (d : BitVec 64) (b : Body) :
    OnlySeat f k s (t.respond r st d b) := ⟨(State.respond_seat t r st d b f).trans h.1, fun g hg => (State.respond_seat t r st d b g).trans (h.2 g hg)⟩

@[simp] theorem State.respond_field (s : State) (r : Req) (st : BitVec 16) (d : BitVec 64) (b : Body) (f : Nat) :
    (s.respond r st d b).field f = s.field f := State.field_congr f (by simp)
@[simp] theorem State.respond_pw (s : State) (r : Req) (st : BitVec 16) (d : BitVec 64) (b : Body) : (s.respond r st d b).pw = s.pw := by
  rw [State.respond_eq]
@[simp] theorem State.respond_store (s : State) (r : Req) (st : BitVec 16) (d : BitVec 64) (b : Body) : (s.respond r st d b).store = s.store := by
  rw [State.respond_eq]

/-! ### Refusals with a log entry -/

theorem State.logAt_logged (s : State) (k : Option Session) (p : BitVec 3) (e : VEntry) : Logged s (s.logAt k p e) := by
  unfold State.logAt
  split
  · exact s.vlog_logged _ _
  split
  · split
    · exact s.vlog_logged _ _
    · exact s.modVlog_logged _
  · exact s.modVlog_logged _

/-- A refusal with DENIED logs the request and answers it. -/
theorem State.deny_logs {s : State} {r : Req} {i : Nat} {k : Session} (h : s.session r.sess = some (i, k)) (cls cmd : Nat) :
    ∃ u, Logged s u ∧ s.deny r cls cmd = u.respond r stDenied (opDetail cls cmd) := by
  unfold State.deny
  rw [h]
  exact ⟨_, s.logAt_logged _ _ _, rfl⟩

/-- An admitted request that its command refuses: nothing changes but the violation logs. -/
theorem Heard.deny {c : Instr} {s : State} {r : Req} {i : Nat} {k : Session} {cls cmd : Nat} {x : Rights} {n m : Nat}
    (h : Heard s r i k cls cmd x) (e : exec c s = .next ((s.admitted r k).deny r n m)) :
    Does c s r stDenied (opDetail n m) .empty (fun t => UnitsKept s t ∧ t.pw = s.pw ∧
      ∀ f, t.seat f = { s.seat f with vlog := (t.seat f).vlog }) := by
  obtain ⟨u, hl, hu⟩ := State.deny_logs h.admitted_session n m
  refine h.does (e.trans (congrArg Host.Outcome.next hu)) hl.sessions
    ⟨h.admitted_units.trans (hl.units.trans (State.respond_unitsKept _ _ _ _ _)), ?_, fun f => ?_⟩
  · rw [State.respond_pw, hl.pw, State.admitted_pw]
  · rw [State.respond_seat, hl.seats f, State.admitted_seat]

/-- What a command answers and changes, with less said of the change. -/
theorem Does.imp {c : Instr} {s : State} {r : Req} {st : BitVec 16} {d : BitVec 64} {b : Body} {p q : State → Prop}
    (h : Does c s r st d b p) (hq : ∀ t, p t → q t) : Does c s r st d b q := by
  obtain ⟨t, e, ha, hp⟩ := h
  exact ⟨t, e, ha, hq t hp⟩

/-! ### Hall passes -/

/-- With no pass held in a field and none of the coordinator's, a pass is taken at entry 0. -/
theorem State.takePass_free {s : State} {f : Nat} (hp : (s.field f).hm.passes = []) (hc : s.coord.passes = []) (hm : s.coord.more = [])
    (code : BitVec 4) (n : Nat) : s.takePass f code n = .ok (s.modHm f (fun h => h.enter 0
      { code := code, resource := BitVec.ofNat 32 n, byHost := true, onLink := false } (s.seat f).tt.bell)) := by
  have hfree : (s.field f).hm.freePass = some 0 := by
    rw [Hm.freePass, hp]
    decide
  have hblock (p : Pass) : s.blocker f p = none := by simp [State.blocker, hp, hc, hm]
  simp only [State.takePass, hblock, hfree]

/-- The Hall Monitor of a field changed. -/
theorem State.field_modHm {s : State} {f : Nat} (hf : f < 4) (g : Hm → Hm) (e : Nat) :
    (s.modHm f g).field e = if e = f then { s.field f with hm := g (s.field f).hm } else s.field e := by
  unfold State.modHm
  split
  next h => rw [h, State.field_setField_self _ _ hf]
  next h => rw [State.field_setField_ne _ _ h]

/-- Two states differ in the table of fields alone. -/
def FieldsOnly (s t : State) : Prop := t = { s with fields := t.fields }

section
variable {s t : State} (h : FieldsOnly s t)
include h

theorem FieldsOnly.mem : t.mem = s.mem := by rw [h]
theorem FieldsOnly.cores : t.cores = s.cores := by rw [h]
theorem FieldsOnly.links : t.links = s.links := by rw [h]
theorem FieldsOnly.seats : t.seats = s.seats := by rw [h]
theorem FieldsOnly.host : t.host = s.host := by rw [h]
theorem FieldsOnly.coord : t.coord = s.coord := by rw [h]

theorem FieldsOnly.trans {u : State} (g : FieldsOnly t u) : FieldsOnly s u := by
  unfold FieldsOnly at *
  rw [g, h]

end

theorem State.modHm_fieldsOnly (s : State) (f : Nat) (g : Hm → Hm) : FieldsOnly s (s.modHm f g) := by
  unfold FieldsOnly State.modHm State.setField
  split <;> rfl

/-- A pass of one activity is the only one that a field holds. -/
def Field.holdsOnly (x : Field) (code : BitVec 4) (n : Nat) : Prop :=
  ∃ p : Pass, x.hm.passes = [(0, p)] ∧ p.code = code ∧ p.resource = BitVec.ofNat 32 n ∧ p.byHost = true

theorem Hm.enter_passes {h : Hm} (hp : h.passes = []) (i : Nat) (p : Pass) (b : BitVec 64) :
    (h.enter i p b).passes = [(i, { p with granted := b.setWidth 27 })] := by simp [Hm.enter, hp, Tab.put]

/-- A pass is taken in a free field: the field holds it alone, and nothing but the table of fields changes. -/
theorem State.takePass_holds {s : State} {f : Nat} (hf : f < 4) (hp : (s.field f).hm.passes = []) (hc : s.coord.passes = [])
    (hm : s.coord.more = []) (code : BitVec 4) (n : Nat) : ∃ t, s.takePass f code n = .ok t ∧ FieldsOnly s t ∧
      (t.field f).holdsOnly code n ∧ (t.field f).hm.measuring = (s.field f).hm.measuring ∧ ∀ g, g ≠ f → t.field g = s.field g := by
  let p : Pass := { code := code, resource := BitVec.ofNat 32 n, byHost := true, granted := (s.seat f).tt.bell.setWidth 27 }
  refine ⟨_, State.takePass_free hp hc hm code n, State.modHm_fieldsOnly _ _ _, ⟨p, ?_, rfl, rfl, rfl⟩, ?_, fun g hg => ?_⟩
  · rw [State.field_modHm hf, if_pos rfl]
    exact Hm.enter_passes hp _ _ _
  · rw [State.field_modHm hf, if_pos rfl]
    rfl
  · rw [State.field_modHm hf, if_neg hg]

/-- Passes of one activity are taken in fields that hold none. -/
theorem State.takePasses_hold {fs : List Nat} (hn : fs.Nodup) (hlt : ∀ f ∈ fs, f < 4) (s : State) (hp : ∀ f ∈ fs, (s.field f).hm.passes = [])
    (hc : s.coord.passes = []) (hm : s.coord.more = []) (code : BitVec 4) (n : Nat) : ∃ t, s.takePasses fs code n = .ok t ∧
      FieldsOnly s t ∧ (∀ f ∈ fs, (t.field f).holdsOnly code n) ∧ ∀ g, g ∉ fs → t.field g = s.field g := by
  unfold State.takePasses
  induction fs generalizing s with
  | nil => exact ⟨s, rfl, rfl, by simp, fun _ _ => rfl⟩
  | cons f fs ih =>
    rw [List.nodup_cons] at hn
    obtain ⟨t, ht, he, hf, -, hne⟩ := State.takePass_holds (hlt f List.mem_cons_self) (hp f List.mem_cons_self) hc hm code n
    obtain ⟨u, hu, hue, hus, huo⟩ := ih hn.2 (fun g hg => hlt g (List.mem_cons_of_mem _ hg)) t
      (fun g hg => by rw [hne g (fun e => hn.1 (e ▸ hg))]; exact hp g (List.mem_cons_of_mem _ hg)) (by rw [he.coord]; exact hc) (by rw [he.coord]; exact hm)
    refine ⟨u, ?_, ?_, fun g hg => ?_, fun g hg => ?_⟩
    · show fs.foldl _ ((s.takePass f code n).mapError _) = _
      rw [ht]
      exact hu
    · exact he.trans hue
    · rcases List.mem_cons.1 hg with rfl | hg
      · rw [huo g hn.1]
        exact hf
      · exact hus g hg
    · rw [List.mem_cons, not_or] at hg
      exact (huo g hg.2).trans (hne g hg.1)

/-! ### Health -/

/-- Cards are read from the field's own cards, which HM_SAT_LAST does not touch. -/
theorem Heard.cardRecords {s : State} {r : Req} {i : Nat} {k : Session} {cls cmd : Nat} {x : Rights} (h : Heard s r i k cls cmd x)
    (g kind st low : Nat) : (s.admitted r k).cardRecords g kind st low = s.cardRecords g kind st low := by
  unfold State.cardRecords
  rw [h.admitted_field g]
  rfl

/-- The power readings depend on the power logic, on service mode and on the session's grade. -/
theorem State.powerBytes_congr {s t : State} {k m : Session} (hpw : t.pw = s.pw) (hpx : t.px = s.px) (ho : m.owner = k.owner) :
    t.powerBytes m = s.powerBytes k := by
  simp [State.powerBytes, State.pwAt, hpw, hpx, ho]

section
variable {s : State} {r : Req} {i : Nat} {k : Session} {kind st low : Nat}

/-- CARDS with no field of the expert form in a basic request, by the reading of PW_FINE that it chooses. -/
theorem exec_healthCards (h : Admitted s r i k 7 1 .any) (hx : r.expert = true ∨ (kind = 0 ∧ st = 0 ∧ low = 0)) (fine : Option (BitVec 8)) :
    let u := s.admitted r k
    let cards (v : State) : Body := .bytes ((k.view r.part).flatMap (fun g => s.cardRecords g kind st low) ++ v.powerBytes k)
    exec (.healthCards r kind st low fine) s = .next (match fine with
      | none => u.respond r stOk 0 (cards s)
      | some x => if 139 < x.toNat then u.badField r else if k.owner && s.px.service then
          ({ u with pw := { s.pw with fineSel := x } } : State).respond r stOk 0 (cards { s with pw := { s.pw with fineSel := x } })
        else u.deny r 7 1) := by
  intro u cards
  have hh := h.heard
  have hs := hh.admitted_session
  have e : exec (.healthCards r kind st low fine) s = .next (doHealthCards r kind st low fine u) :=
    h.exec_go rfl
  have bytes {v w : State} (hf : v.fields = u.fields) (hpw : v.pw = w.pw) (hpx : v.px = w.px) :
      (Body.bytes (((k.accept r.seq).view r.part).flatMap (fun g => v.cardRecords g kind st low) ++ v.powerBytes (k.accept r.seq))) = cards w := by
    have hc (g : Nat) : v.cardRecords g kind st low = s.cardRecords g kind st low := by
      rw [← hh.cardRecords, State.cardRecords, State.cardRecords, State.field_congr g hf]
    have hw : v.powerBytes (k.accept r.seq) = w.powerBytes k := State.powerBytes_congr hpw hpx rfl
    simp only [cards, hc, hw]
    rfl
  have hpx : u.px = s.px := s.admitted_px r k
  have hpw : u.pw = s.pw := s.admitted_pw r k
  rw [e]
  unfold doHealthCards
  rw [State.expertOnly_goes (hx.imp id (by rintro ⟨rfl, rfl, rfl⟩; rfl))]
  simp only [u, hs]
  cases fine with
  | none =>
    rw [← bytes rfl hpw hpx]
    rfl
  | some x =>
    by_cases hb : 139 < x.toNat
    · simp [hb]
    · by_cases ho : (k.owner && s.px.service) = true
      · have hw := bytes (v := { u with pw := { s.pw with fineSel := x } }) (w := { s with pw := { s.pw with fineSel := x } }) rfl rfl hpx
        have hg : ((some x).isSome && !((k.accept r.seq).owner && u.px.service)) = false := by
          rw [hpx]
          simp [show (k.accept r.seq).owner = k.owner from rfl, ho]
        simp only [u] at hg hpw
        dsimp only
        rw [if_neg (by simpa using hb), hg, if_neg (by decide), if_neg hb, if_pos ho, hpw]
        exact congrArg (fun b => Host.Outcome.next (State.respond _ r stOk 0 b)) hw
      · simp [hb, Session.accept, ho]

theorem healthCards_outcomes (h : Admitted s r i k 7 1 .any) (hx : r.expert = true ∨ (kind = 0 ∧ st = 0 ∧ low = 0)) :
    let cards (u : State) : Body := .bytes ((k.view r.part).flatMap (fun g => s.cardRecords g kind st low) ++ u.powerBytes k)
    Replies (.healthCards r kind st low none) s r stOk 0 (cards s) ∧
    ∀ x : BitVec 8, (139 < x.toNat → Replies (.healthCards r kind st low (some x)) s r stBadField s.freshWord .empty) ∧
      (x.toNat ≤ 139 → k.owner = true → s.px.service = true → Does (.healthCards r kind st low (some x)) s r stOk 0
        (cards { s with pw := { s.pw with fineSel := x } }) (fun t => UnitsKept s t ∧ SeatsKept s t ∧ t.pw = { s.pw with fineSel := x })) ∧
      (x.toNat ≤ 139 → k.owner = false ∨ s.px.service = false → Does (.healthCards r kind st low (some x)) s r stDenied (opDetail 7 1) .empty
        (fun t => UnitsKept s t ∧ t.pw = s.pw)) := by
  intro cards
  have hh := h.heard
  let u := s.admitted r k
  refine ⟨replies_heard hh (exec_healthCards h hx none), fun x => ?_⟩
  have e := exec_healthCards h hx (some x)
  dsimp only at e
  refine ⟨fun hb => hh.badField (by rw [e, if_pos hb]), fun hb ho hs => ?_, fun hb ho => ?_⟩
  · let v : State := { u with pw := { s.pw with fineSel := x } }
    refine hh.does (u := v) (by rw [e, if_neg (by omega), if_pos (by simp [ho, hs])]) rfl ⟨?_, ?_, by simp [v]⟩
    · exact hh.admitted_units.trans (UnitsKept.trans (t := v) (UnitsKept.of_eq rfl rfl rfl rfl) (State.respond_unitsKept _ _ _ _ _))
    · exact SeatsKept.of_eq (by simp [v, u]) (by simp [v, u])
  · refine (hh.deny (n := 7) (m := 1) ?_).imp fun t ht => ⟨ht.1, ht.2.1⟩
    rw [e, if_neg (by omega), if_neg (by rcases ho with ho | ho <;> simp [ho])]

theorem healthPasses_replies (h : Admitted s r i k 7 2 .any) : Replies (.healthPasses r) s r stOk 0
    (.words (((k.view r.part).map hmBase ++ (if r.part = 7 ∧ k.owner = true then [hmCoordBase] else [])).flatMap (fun b =>
      ([8] ++ (List.range 34).map (fun n => 0x100 + 8 * n)).map (fun o => ((s.admitted r k).readReg (b + o)).getD 0)))) := by
  refine replies_heard h.heard ((h.exec_go rfl).trans ?_)
  simp only [h.heard.admitted_session]
  rfl

end

/-! ### Maintenance -/

section
variable {s : State} {r : Req} {i : Nat} {k : Session}

/-- The DETAIL of BUSY names the sweep that a request finds. -/
theorem Heard.sweepHolder {cls cmd : Nat} {x : Rights} (h : Heard s r i k cls cmd x) (f g : Nat) :
    (s.admitted r k).sweepHolder f g = s.sweepHolder f g := by
  obtain ⟨-, -, hp, -⟩ := h.field_parts g
  unfold State.sweepHolder
  rw [hp, State.admitted_partOf]

/-- A BUSY over a pass changes no unit of a core or a link, and no seat. -/
theorem Heard.busyPass {c : Instr} {cls cmd : Nat} {x : Rights} {g : Nat} {d : BitVec 64} {n : BitVec 4} (h : Heard s r i k cls cmd x)
    (e : exec c s = .next ((s.admitted r k).busyPass r g (d, n))) :
    Does c s r stBusy d .empty (fun t => t.mem = s.mem ∧ SeatsKept s t ∧ (g < 4 → (t.field g).hm.lastBusy = n)) := by
  refine h.does (u := (s.admitted r k).noteBusy g n) e (by simp [State.noteBusy]) ⟨by simp [State.noteBusy],
    SeatsKept.of_eq (by simp [State.noteBusy]) (by simp [State.noteBusy]), fun hg => ?_⟩
  rw [State.respond_field, State.noteBusy, State.field_modHm hg, if_pos rfl]

theorem maintRotate_outcomes {bell : BitVec 64} {rate : BitVec 4} (h : Admitted s r i k 8 1 .boundOwner)
    (hx : r.expert = true ∨ (bell = 0 ∧ rate = 0)) :
    let f := reqField r
    let q := s.seat f
    let c : Instr := .maintRotate r bell rate
    let fs := s.seatFields f
    (r.part = 7 ∨ (r.expert = true ∧ rate = 0) → Replies c s r stBadField s.freshWord .empty) ∧
    (r.part ≠ 7 → r.expert = true → rate ≠ 0 → bell ≤ q.tt.bell → Replies c s r stTooLate q.tt.bell .empty) ∧
    (∀ g, r.part ≠ 7 → r.expert = false ∨ (rate ≠ 0 ∧ q.tt.bell < bell) → fs.find? (fun g => (s.field g).mc.oldLive) = some g →
      Does c s r stBusy (s.sweepHolder f g) .empty (fun t => t.mem = s.mem ∧ SeatsKept s t ∧ (g < 4 → (t.field g).hm.lastBusy = 2) ∧
        ∀ n p, (s.field g).hm.passes.find? (fun e => e.2.code == 2) = some (n, p) → s.sweepHolder f g = busyDetail n p)) ∧
    (r.part ≠ 7 → r.expert = false ∨ (rate ≠ 0 ∧ q.tt.bell < bell) → (∀ g ∈ fs, (s.field g).mc.oldLive = false) →
      (∀ g ∈ fs, (s.field g).hm.passes = []) → s.coord.passes = [] → s.coord.more = [] →
      Does c s r stOk 0 .empty (fun t => t.mem = s.mem ∧ t.cores = s.cores ∧ t.links = s.links ∧
        OnlySeat f { q with rotateAt := some (if r.expert then (bell, rate) else (q.tt.bell + 1, 1)) } s t ∧
        ∀ g ∈ fs, ∃ p, (t.field g).hm.passes = [(0, p)] ∧ p.code = 2 ∧ p.byHost = true)) := by
  intro f q c fs
  have hh := h.heard
  let u := s.admitted r k
  have old (g : Nat) : (u.field g).mc.oldLive = (s.field g).mc.oldLive := by rw [(hh.field_parts g).1]
  have e : exec c s = .next (if r.part = 7 ∨ (r.expert = true ∧ rate = 0) then u.badField r
      else if r.expert = true ∧ bell ≤ q.tt.bell then u.respond r stTooLate q.tt.bell
      else match fs.find? (fun g => (s.field g).mc.oldLive) with
      | some g => u.busyPass r g (s.sweepHolder f g, 2)
      | none => match u.takePasses fs 2 (s.partOf f) with
        | .error e => u.busyPass r e.1 e.2
        | .ok t => (t.modSeat f (fun k => { k with rotateAt := some (if r.expert then (bell, rate) else (q.tt.bell + 1, 1)) })).respond r stOk) := by
    refine (h.exec_go rfl).trans (congrArg Host.Outcome.next ?_)
    rw [State.expertOnly_goes (hx.imp id (by rintro ⟨rfl, rfl⟩; rfl))]
    simp only [State.admitted_seat, State.admitted_seatFields, State.admitted_partOf, hh.sweepHolder, u, f, fs, q, old] <;> rfl
  have late (hr : r.expert = false ∨ (rate ≠ 0 ∧ q.tt.bell < bell)) : ¬ (r.expert = true ∧ rate = 0) ∧ ¬ (r.expert = true ∧ bell ≤ q.tt.bell) := by
    rcases hr with hr | ⟨hr, hb⟩
    · simp [hr]
    · exact ⟨fun x => hr x.2, fun x => BitVec.not_le.2 hb x.2⟩
  refine ⟨fun hr => hh.badField (by rw [e, if_pos hr]), fun h7 hx hr hb => replies_heard hh ?_, fun g h7 hr hg => ?_, fun h7 hr ho hp hc hm => ?_⟩
  · rw [e, if_neg (not_or.2 ⟨h7, fun h => hr h.2⟩), if_pos ⟨hx, hb⟩]
  · obtain ⟨h1, h2⟩ := late hr
    refine (hh.busyPass (g := g) (d := s.sweepHolder f g) (n := 2) ?_).imp fun t ht => ⟨ht.1, ht.2.1, ht.2.2, fun n p hf => ?_⟩
    · rw [e, if_neg (not_or.2 ⟨h7, h1⟩), if_neg h2, hg]
    · unfold State.sweepHolder
      rw [hf]
  · obtain ⟨h1, h2⟩ := late hr
    obtain ⟨t, ht, heq, hheld, -⟩ := State.takePasses_hold (partFields_nodup _) (fun f hf => partFields_lt hf) u
      (fun g hg => by rw [(hh.field_parts g).2.2.1]; exact hp g hg) (by simp [u, hc]) (by simp [u, hm]) 2 (s.partOf f) (fs := fs)
    have hnone : fs.find? (fun g => (s.field g).mc.oldLive) = none := by
      rw [List.find?_eq_none]
      exact fun g hg => by simp [ho g hg]
    have hseats : t.seats = s.seats := heq.seats.trans (s.admitted_seats r k)
    have hlay : t.host.layout = s.host.layout := (congrArg HostPort.layout heq.host).trans (s.admitted_layout r k)
    have hgo : exec c s = .next ((t.modSeat f (fun k => { k with rotateAt := some (if r.expert then (bell, rate) else (q.tt.bell + 1, 1)) })).respond r stOk) := by
      rw [e, if_neg (not_or.2 ⟨h7, h1⟩), if_neg h2, hnone]
      dsimp only
      rw [ht]
    refine hh.does hgo (by rw [State.modSeat_host, heq.host])
      ⟨by rw [State.respond_mem, State.modSeat_mem, heq.mem, State.admitted_mem],
      by rw [State.respond_cores, State.modSeat_cores, heq.cores, State.admitted_cores],
      by rw [State.respond_links, State.modSeat_links, heq.links, State.admitted_links], (OnlySeat.modSeat (reqField_lt r) hseats hlay _).respond _ _ _ _, fun g hg => ?_⟩
    obtain ⟨p, hp1, hp2, -, hp3⟩ := hheld g hg
    exact ⟨p, by rw [State.respond_field, State.modSeat, State.field_setSeat]; exact hp1, hp2, hp3⟩

theorem maintRetrain_outcomes {l : Nat} (h : Admitted s r i k 8 2 .bound) :
    let c : Instr := .maintRetrain r l
    let g := fieldOfLink l
    (24 ≤ l ∨ inTarget r g = false → Replies c s r stBadField s.freshWord .empty) ∧
    (l < 24 → inTarget r g = true → (s.link l).st ≠ .failed → (s.link l).combDark = false →
      Replies c s r stWrongState (s.wrongDetail (reqField r)) .empty) ∧
    (l < 24 → inTarget r g = true → (s.link l).st = .failed ∨ (s.link l).combDark = true →
      (s.field g).hm.passes = [] → s.coord.passes = [] → s.coord.more = [] → Does c s r stOk 0 .empty (fun t => t.mem = s.mem ∧
        t.cores = s.cores ∧ t.links = s.links ∧ OnlySeat g { s.seat g with atBell := (s.seat g).atBell ++ [.retrain l] } s t ∧
        ∃ p, (t.field g).hm.passes = [(0, p)] ∧ p.code = 3 ∧ p.resource = BitVec.ofNat 32 (l % 6))) := by
  intro c g
  have hh := h.heard
  let u := s.admitted r k
  have e : exec c s = .next (if 24 ≤ l ∨ (!inTarget r g) = true then u.badField r
      else if (s.link l).st ≠ .failed ∧ (!(s.link l).combDark) = true then u.respond r stWrongState (s.wrongDetail (reqField r))
      else match u.takePass g 3 (l % 6) with
        | .error e => u.busyPass r g e
        | .ok t => (t.modSeat g (fun k => { k with atBell := k.atBell ++ [.retrain l] })).respond r stOk) := by
    refine (h.exec_go rfl).trans (congrArg Host.Outcome.next ?_)
    simp only [State.admitted_link, State.admitted_wrongDetail, u, g] <;> rfl
  refine ⟨fun hb => hh.badField ?_, fun hl hi hf hd => replies_heard hh ?_, fun hl hi hf hp hc hm => ?_⟩
  · rw [e, if_pos (hb.imp id (by simp))]
  · rw [e, if_neg (by simp [hl, hi]), if_pos ⟨hf, by simp [hd]⟩]
  · have hg : g < 4 := by simp only [g, fieldOfLink]; omega
    obtain ⟨t, ht, heq, ⟨p, hp1, hp2, hp3, -⟩, -, -⟩ := State.takePass_holds (s := u) hg ((hh.field_parts g).2.2.1.trans hp)
      ((s.admitted_coordPasses r k).trans hc) ((s.admitted_coordMore r k).trans hm) 3 (l % 6)
    have hgo : exec c s = .next ((t.modSeat g (fun k => { k with atBell := k.atBell ++ [.retrain l] })).respond r stOk) := by
      rw [e, if_neg (by simp [hl, hi]), if_neg (by rcases hf with hf | hf <;> simp [hf]), ht]
    refine hh.does hgo (by rw [State.modSeat_host, heq.host]) ⟨by rw [State.respond_mem, State.modSeat_mem, heq.mem, State.admitted_mem],
      by rw [State.respond_cores, State.modSeat_cores, heq.cores, State.admitted_cores],
      by rw [State.respond_links, State.modSeat_links, heq.links, State.admitted_links],
      (OnlySeat.modSeat hg (heq.seats.trans (s.admitted_seats r k)) ((congrArg HostPort.layout heq.host).trans (s.admitted_layout r k)) _).respond _ _ _ _,
      p, by rw [State.respond_field, State.modSeat, State.field_setSeat]; exact hp1, hp2, hp3⟩

@[simp] theorem State.link_taint (s : State) (f l : Nat) : (s.taint f).link l = s.link l := State.link_congr l (State.modTt_links _ _ _)

@[simp] theorem State.link_endLinkPass (s : State) (l : Nat) (c : BitVec 4) (j : Nat) : (s.endLinkPass l c).link j = s.link j :=
  State.link_congr j (State.modHm_links _ _ _)

/-- A link that leaves for DARK with no pool operation open: it is dark, and no other link and no part of the power logic changes. -/
theorem State.linkTo_dark {s : State} {l : Nat} (hl : l < 24) (ho : (s.link l).ops = []) :
    ((s.linkTo l .dark).link l).st = .dark ∧ ((s.linkTo l .dark).link l).combDark = (s.link l).combDark ∧
      ∀ j, j ≠ l → (s.linkTo l .dark).link j = s.link j := by
  unfold State.linkTo
  rw [if_neg (by omega)]
  dsimp only
  rw [if_neg (show ¬ LinkState.dark = LinkState.failed by decide)]
  split
  · rw [State.opsLost]
    split <;> simp +contextual [hl, ho]
  · exact ⟨by simp [hl], by simp [hl], fun j hj => by simp [hj]⟩

/-- A link that is trained anew starts from DARK, without its presets. -/
theorem retrainLink_restarts {s : State} {l : Nat} (hl : l < 24) (hf : (s.link l).st = .failed ∨ (s.link l).combDark = true)
    (ho : (s.link l).ops = []) :
    let t := s.retrainLink l
    (t.link l).st = .dark ∧ (t.link l).preset = false ∧
      (t.link l).combDark = ((s.link l).combDark && !s.pw.latch.getLsbD (fieldOfLink l)) ∧ (∀ j, j ≠ l → t.link j = s.link j) := by
  intro t
  obtain ⟨h1, h2, h3⟩ := State.linkTo_dark hl ho
  have e : t = (s.linkTo l .dark).modLink l (fun k =>
      { k with combDark := k.combDark && !s.pw.latch.getLsbD (fieldOfLink l), preset := false, realigned := false }) :=
    if_neg (by rcases hf with hf | hf <;> simp [hf])
  rw [e, State.link_modLink_self _ _ hl]
  exact ⟨h1, rfl, by rw [h2], fun j hj => by rw [State.link_modLink_ne _ _ hj, h3 j hj]⟩

theorem maintWipe_outcomes (h : Admitted s r i k 8 3 .boundOwner) :
    (s.px.wipes = [] → Does (.maintWipe r) s r stOk ((s.seat (reqField r)).tt.bell + 1) .empty (fun t => t.mem = s.mem ∧ SeatsKept s t ∧
      t.px.wipes = [{ scope := r.part }])) ∧
    (∀ w, s.px.wipes = [w] → w.scope = r.part → scopeFields w.scope ≠ [] → Does (.maintWipe r) s r stBusy
      (busyDetail 33 { code := 10, resource := w.scope.setWidth 32 }) .empty (fun t => t.mem = s.mem ∧ SeatsKept s t ∧ t.px = s.px)) := by
  have hh := h.heard
  let u := s.admitted r k
  have e : exec (.maintWipe r) s = .next (u.askWipe r r.part .request (fun v => v.respond r stOk ((v.seat (reqField r)).tt.bell + 1))) :=
    (h.exec_go rfl).trans rfl
  refine ⟨fun hw => ?_, fun w hw hs hne => ?_⟩
  · let v : State := { u with px := { s.px with wipes := [{ scope := r.part }] } }
    have hv : v.seat (reqField r) = s.seat (reqField r) := (State.seat_congr _ rfl rfl).trans (s.admitted_seat r k _)
    refine hh.does (u := v) ?_ rfl ⟨by simp [v, u], SeatsKept.of_eq (by simp [v, u]) (by simp [v, u]), by simp [v]⟩
    rw [e, State.askWipe, s.admitted_px r k, hw, ← hv]
    rfl
  · refine hh.does (u := u.noteBusy ((scopeFields w.scope).headD 0) 10) ?_ (by simp [u, State.noteBusy]) ⟨by simp [u, State.noteBusy],
      SeatsKept.of_eq (by simp [u, State.noteBusy]) (by simp [u, State.noteBusy]), by simp [u, State.noteBusy]⟩
    obtain ⟨f, hf⟩ := List.exists_mem_of_ne_nil _ hne
    have hmeets : (scopeFields w.scope).any (fun f => (scopeFields r.part).contains f) = true := by
      rw [List.any_eq_true]
      exact ⟨f, hf, by rw [← hs]; simpa using hf⟩
    have hfind : u.px.wipes.find? (fun w => (scopeFields w.scope).any (fun f => (scopeFields r.part).contains f)) = some w := by
      rw [s.admitted_px r k, hw]
      rw [List.find?_cons, hmeets]
    rw [e, State.askWipe, hfind]

/-- Which tile a margin may measure does not depend on HM_SAT_LAST. -/
theorem Heard.measurable {cls cmd : Nat} {x : Rights} (h : Heard s r i k cls cmd x) (g : Nat) (ts : List Nat) :
    (s.admitted r k).measurable g ts = s.measurable g ts := by
  unfold State.measurable State.idleSeat
  rw [h.admitted_field g, State.admitted_seat]
  rfl

theorem maintMargin_outcomes {clock : Bool} {g n : Nat} {limits : BitVec 64} (h : Admitted s r i k 8 5 .owner) (hx : r.expert = true ∨ limits = 0) :
    let c : Instr := .maintMargin r clock g ⟨n, limits⟩
    let ts := if clock then [n] else (List.range 16).map (fun j => 16 * n + j)
    let m := if clock then 6 else 5
    let ok : Prop := g < 4 ∧ n < (if clock then 528 else 33) ∧ (r.part = 7 ∨ inTarget r g = true)
    (¬ ok → Replies c s r stBadField s.freshWord .empty) ∧
    (ok → s.measurable g ts = false → Replies c s r stWrongState (s.wrongDetail g) .empty) ∧
    (ok → s.measurable g ts = true → (s.field g).hm.passes = [] → s.coord.passes = [] → s.coord.more = [] → Does c s r stOk 0 .empty (fun t =>
      t.mem = s.mem ∧ SeatsKept s t ∧ (t.field g).hm.measuring = (s.field g).hm.measuring ++ [(m, n)] ∧
      ∃ p, (t.field g).hm.passes = [(0, p)] ∧ p.code = BitVec.ofNat 4 m ∧ p.resource = BitVec.ofNat 32 n)) := by
  intro c ts m ok
  have hh := h.heard
  let u := s.admitted r k
  have e : exec c s = .next (if 4 ≤ g ∨ (if clock then 528 else 33) ≤ n ∨ (r.part ≠ 7 ∧ (!inTarget r g) = true) then u.badField r
      else if (!s.measurable g ts) = true then u.respond r stWrongState (s.wrongDetail g)
      else match u.takePass g (if clock then 6 else 5) n with
        | .error e => u.busyPass r g e
        | .ok t => (t.modHm g (fun h => { h with measuring := h.measuring ++ [(m, n)] })).respond r stOk) := by
    refine (h.exec_go rfl).trans (congrArg Host.Outcome.next ?_)
    rw [State.expertOnly_goes (hx.imp id (by rintro rfl; rfl))]
    simp only [hh.measurable, State.admitted_wrongDetail, u, ts, m] <;> rfl
  have hok : ok ↔ ¬ (4 ≤ g ∨ (if clock then 528 else 33) ≤ n ∨ (r.part ≠ 7 ∧ (!inTarget r g) = true)) := by
    simp only [ok, not_or, not_and, Nat.not_le, Bool.not_eq_true', Bool.not_eq_false, ne_eq]
    rw [or_iff_not_imp_left]
  refine ⟨fun hb => hh.badField ?_, fun ho hm => replies_heard hh ?_, fun ho hms hp hc hm => ?_⟩
  · rw [e, if_pos (by by_contra hn; exact hb (hok.2 hn))]
  · rw [e, if_neg (hok.1 ho), if_pos (by simp [hm])]
  · have hg : g < 4 := ho.1
    obtain ⟨t, ht, heq, ⟨p, hp1, hp2, hp3, -⟩, hme, -⟩ := State.takePass_holds (s := u) hg ((hh.field_parts g).2.2.1.trans hp)
      ((s.admitted_coordPasses r k).trans hc) ((s.admitted_coordMore r k).trans hm) (if clock then 6 else 5) n
    have hgo : exec c s = .next ((t.modHm g (fun h => { h with measuring := h.measuring ++ [(m, n)] })).respond r stOk) := by
      rw [e, if_neg (hok.1 ho), if_neg (by simp [hms]), ht]
    refine hh.does hgo (by rw [State.modHm_host, heq.host]) ⟨by rw [State.respond_mem, State.modHm_mem, heq.mem, State.admitted_mem],
      SeatsKept.of_eq ?_ ?_, ?_, p, ?_, ?_, hp3⟩
    · rw [State.respond_seats, State.modHm_seats, heq.seats, State.admitted_seats]
    · rw [State.respond_layout, State.modHm_host, heq.host, State.admitted_layout]
    · rw [State.respond_field, State.field_modHm hg, if_pos rfl, ← (hh.field_parts g).2.2.2, ← hme]
    · rw [State.respond_field, State.field_modHm hg, if_pos rfl]
      exact hp1
    · rw [hp2]
      cases clock <;> rfl

theorem maintNetcfg_does {vlan : BitVec 12} {gen2 : Bool} (h : Admitted s r i k 8 6 .owner) :
    Does (.maintNetcfg r vlan gen2) s r stOk 0 .empty (fun t => UnitsKept s t ∧ SeatsKept s t ∧ t.host.vlan = vlan ∧ t.host.gen2En = gen2) := by
  have hh := h.heard
  let u := s.admitted r k
  let v : State := { u with host := { u.host with vlan := vlan, gen2En := gen2 } }
  refine hh.does (u := v) ((h.exec_go rfl).trans rfl) rfl ⟨?_, SeatsKept.of_eq (by simp [v, u]) (by simp [v, u]), ?_, ?_⟩
  · exact hh.admitted_units.trans (UnitsKept.trans (t := v) (UnitsKept.of_eq rfl rfl rfl rfl) (State.respond_unitsKept _ _ _ _ _))
  · rw [State.respond_host]
  · rw [State.respond_host]

theorem maintReturn_outcomes (h : Admitted s r i k 8 8 .owner) :
    (s.store.sealed = false →
      (∀ g, (List.range 4).find? (fun g => (s.seat g).plan.isSome) = some g → Replies (.maintReturn r) s r stWrongState (s.wrongDetail g) .empty) ∧
      ((∀ g, g < 4 → (s.seat g).plan = none) → s.px.wipes = [] → Does (.maintReturn r) s r stOk 0 .empty (fun t => t.mem = s.mem ∧ SeatsKept s t ∧
        t.px.wipes = [{ scope := 7, why := .sealing }] ∧ t.store = s.store))) ∧
    (s.store.sealed = true → Does (.maintReturn r) s r stDenied (opDetail 8 8) .empty (fun t => UnitsKept s t)) := by
  have hh := h.heard
  let u := s.admitted r k
  have e : exec (.maintReturn r) s = .next (if s.store.sealed = true then u.deny r 8 8
      else match (List.range 4).find? (fun f => (s.seat f).plan.isSome) with
      | some f => u.respond r stWrongState (s.wrongDetail f)
      | none => u.askWipe r 7 .sealing (fun v => v.respond r stOk)) := by
    refine (h.exec_go rfl).trans (congrArg Host.Outcome.next ?_)
    simp only [State.admitted_seat, State.admitted_wrongDetail, State.admitted_store, u] <;> rfl
  refine ⟨fun hs => ⟨fun g hg => replies_heard hh (by rw [e, if_neg (by simp [hs]), hg]), fun hn hw => ?_⟩, fun hs => ?_⟩
  · let v : State := { u with px := { s.px with wipes := [{ scope := 7, why := .sealing }] } }
    have hnone : (List.range 4).find? (fun f => (s.seat f).plan.isSome) = none := by
      rw [List.find?_eq_none]
      exact fun g hg => by simp [hn g (List.mem_range.1 hg)]
    refine hh.does (u := v) ?_ rfl ⟨by simp [v, u], SeatsKept.of_eq (by simp [v, u]) (by simp [v, u]), by simp [v], by simp [v, u]⟩
    rw [e, if_neg (by simp [hs]), hnone]
    dsimp only
    rw [State.askWipe, s.admitted_px r k, hw]
    rfl
  · exact (hh.deny (by rw [e, if_pos hs])).imp fun t ht => ht.1

theorem returnCancel_outcomes (h : Admitted s r i k 8 8 .owner) :
    (r.expert = false → Replies (.returnCancel r) s r stBadField s.freshWord .empty) ∧
    (r.expert = true → s.store.sealed = false → Replies (.returnCancel r) s r stWrongState (s.wrongDetail (reqField r)) .empty) ∧
    (r.expert = true → s.store.sealed = true → Does (.returnCancel r) s r stOk 0 .empty (fun t => UnitsKept s t ∧ SeatsKept s t ∧
      t.store = { s.store with sealed := false })) := by
  have hh := h.heard
  let u := s.admitted r k
  let v := u.keep (fun x => { x with sealed := false })
  have e : exec (.returnCancel r) s = .next (u.expertOnly r true (fun w => if w.store.sealed then
      (w.keep (fun x => { x with sealed := false })).respond r stOk else w.respond r stWrongState (w.wrongDetail (reqField r)))) :=
    (h.exec_go rfl).trans rfl
  have hst : u.store = s.store := s.admitted_store r k
  refine ⟨fun hx => hh.badField (by rw [e, State.expertOnly_refuses hx]), fun hx hs => replies_heard hh ?_, fun hx hs => ?_⟩
  · rw [e, State.expertOnly_goes (.inl hx), hst, if_neg (by simp [hs]), State.admitted_wrongDetail]
  · refine hh.does (u := v) ?_ rfl ⟨?_, SeatsKept.of_eq (by simp [v, u, State.keep]) (by simp [v, u, State.keep]), by simp [v, u, State.keep]⟩
    · rw [e, State.expertOnly_goes (.inl hx), hst, if_pos hs]
    · exact hh.admitted_units.trans (UnitsKept.trans (t := v) (UnitsKept.of_eq rfl rfl rfl rfl) (State.respond_unitsKept _ _ _ _ _))

end

/-- Settles O43: each request as its outcome lemma says, and a retrain as a departure for DARK. -/
theorem healthAndMaintenanceAct : Obligations.HealthAndMaintenanceAct := by
  intro s r i k f q wrong
  refine ⟨fun kind st low h hx => healthCards_outcomes h hx, fun h => healthPasses_replies h, fun bell rate h hx => maintRotate_outcomes h hx,
    fun l h => maintRetrain_outcomes h, fun l hl hf ho => retrainLink_restarts hl hf ho, fun h => maintWipe_outcomes h,
    fun clock g u limits h hx => maintMargin_outcomes h hx, fun vlan gen2 h => maintNetcfg_does h, fun h => (maintReturn_outcomes h).1,
    fun h => (maintReturn_outcomes h).2, fun h => returnCancel_outcomes h⟩

end Sys2Proof.Machine
end

section
/-! What the Librarians' reads and writes, the end of pool operations, responses, cancelled cores and links that change state leave as it was: seats
but for their checkpoint, their violation log and the status bits of the running period; fields but for the Hall Monitor, the errors seen and the
counts of reads. -/

namespace Sys2Proof.Machine

/-! ### The relation -/

/-- The seat kept under an index. -/
abbrev State.seatAt (s : State) (j : Nat) : Seat := Tab.get (fun _ => ({} : Seat)) s.seats j

theorem State.seat_eq_seatAt {s : State} {f : Nat} (h : s.seatIx f = f) : s.seat f = s.seatAt f := by
  unfold State.seat
  rw [h]

theorem State.seatAt_congr {s t : State} (h : t.seats = s.seats) (j : Nat) : t.seatAt j = s.seatAt j := by
  unfold State.seatAt
  rw [h]

theorem State.seatAt_setSeat {s : State} {f : Nat} (hf : f < 4) (k : Seat) (j : Nat) :
    (s.setSeat f k).seatAt j = if j = s.seatIx f then k else s.seatAt j := by
  unfold State.seatAt State.setSeat
  rw [if_pos hf, Tab.get_set]

/-- A change of the seat of a partition's lowest field. -/
theorem State.seatAt_modSeat {s : State} {f : Nat} (hf : f < 4) (hi : s.seatIx f = f) (g : Seat → Seat) (j : Nat) :
    (s.modSeat f g).seatAt j = if j = f then g (s.seatAt f) else s.seatAt j := by
  rw [State.modSeat, State.seatAt_setSeat hf, hi, State.seat_eq_seatAt hi]

/-- A seat without its checkpoint, its violation log and the status bits recorded in this period. -/
def Seat.calm (k : Seat) : Seat := { k with ck := {}, vlog := [], tt := { k.tt with cur := 0 } }

/-- A memory controller without its latest error, its pages due and its counts of corrected reads and of reads in flight. -/
def Mc.calm (m : Mc) : Mc := { m with due := [], errAddr := 0, errKind := 0, corrected := [], inflight := 0 }

/-- A field without its Hall Monitor, its channels under a reset and what `Mc.calm` leaves out. -/
def Field.calm (x : Field) : Field := { x with mc := x.mc.calm, lb := { x.lb with resetting := [] }, hm := {}, lateSeen := false }

/-- The layout and the wipes asked for stand in `t` as in `s`, and so do the seats and the fields but for what `Seat.calm` and `Field.calm` leave
out. -/
structure Calm (s t : State) : Prop where
  layout : t.host.layout = s.host.layout
  wipes : t.px.wipes = s.px.wipes
  seat : ∀ j, (t.seatAt j).calm = (s.seatAt j).calm
  field : ∀ f, (t.field f).calm = (s.field f).calm

theorem Calm.refl (s : State) : Calm s s := ⟨rfl, rfl, fun _ => rfl, fun _ => rfl⟩

section
variable {r s t : State}

theorem Calm.trans (h : Calm r s) (g : Calm s t) : Calm r t :=
  ⟨g.layout.trans h.layout, g.wipes.trans h.wipes, fun j => (g.seat j).trans (h.seat j), fun f => (g.field f).trans (h.field f)⟩

theorem Calm.seatIx (h : Calm s t) (f : Nat) : t.seatIx f = s.seatIx f := State.seatIx_congr f h.layout
theorem Calm.seatFields (h : Calm s t) (f : Nat) : t.seatFields f = s.seatFields f := by simp [State.seatFields, State.partOf, h.layout]
theorem Calm.seatLinks (h : Calm s t) (f : Nat) : t.seatLinks f = s.seatLinks f := by simp [State.seatLinks, h.seatFields]

theorem Calm.seat_calm (h : Calm s t) (f : Nat) : (t.seat f).calm = (s.seat f).calm := by
  unfold State.seat
  rw [h.seatIx]
  exact h.seat _

/-- A state with the seats, fields, layout and wipes of a calm one is calm. -/
theorem Calm.of_eq (h : Calm r s) (hs : t.seats = s.seats) (hf : t.fields = s.fields) (hl : t.host.layout = s.host.layout)
    (hw : t.px.wipes = s.px.wipes) : Calm r t :=
  ⟨hl.trans h.layout, hw.trans h.wipes, fun j => by rw [State.seatAt_congr hs]; exact h.seat j, fun f => by rw [State.field_congr f hf]; exact h.field f⟩

theorem Calm.ite {p : Prop} [Decidable p] (h : Calm r s) (g : Calm r t) : Calm r (if p then s else t) := by
  split
  · exact h
  · exact g

/-- A list of calm actions is calm. -/
theorem Calm.foldl {α : Type} (l : List α) {g : State → α → State} (h : Calm r s) (hg : ∀ t x, Calm r t → Calm r (g t x)) : Calm r (l.foldl g s) :=
  List.foldlRecOn (motive := Calm r) l g h fun t ht x _ => hg t x ht

theorem Calm.eachOf (l : List Nat) {g : Nat → State → State} (h : Calm r s) (hg : ∀ x t, Calm r t → Calm r (g x t)) :
    Calm r (Machine.eachOf l g s) := Calm.foldl l h fun t x ht => hg x t ht

/-! ### Setters -/

theorem Calm.setSeat {f : Nat} {k : Seat} (h : Calm r s) (hk : k.calm = (s.seat f).calm) : Calm r (s.setSeat f k) := by
  unfold State.setSeat
  split
  · refine ⟨h.layout, h.wipes, fun j => ?_, h.field⟩
    unfold State.seatAt
    rw [Tab.get_set]
    split
    next hj => rw [hj]; exact hk.trans (h.seat _)
    next => exact h.seat j
  · exact h

theorem Calm.modSeat {f : Nat} {g : Seat → Seat} (h : Calm r s) (hg : ∀ k, (g k).calm = k.calm) : Calm r (s.modSeat f g) :=
  h.setSeat (hg _)
theorem Calm.modCk {f : Nat} {g : Ckpt → Ckpt} (h : Calm r s) : Calm r (s.modCk f g) := h.modSeat fun _ => rfl
theorem Calm.setStatus {f : Nat} {m : BitVec 9} (h : Calm r s) : Calm r (s.setStatus f m) := by
  unfold State.setStatus State.modTt
  exact h.setSeat rfl
theorem Calm.taint {f : Nat} (h : Calm r s) : Calm r (s.taint f) := h.setStatus

theorem Calm.setField {f : Nat} {k : Field} (h : Calm r s) (hk : k.calm = (s.field f).calm) : Calm r (s.setField f k) := by
  by_cases hf : f < 4
  · refine ⟨by rw [State.setField_host]; exact h.layout, by rw [State.setField_px]; exact h.wipes,
      fun j => by rw [State.seatAt_congr (s.setField_seats f k)]; exact h.seat j, fun g => ?_⟩
    by_cases hg : g = f
    · rw [hg, State.field_setField_self _ _ hf, hk]
      exact h.field f
    · rw [State.field_setField_ne _ _ hg]
      exact h.field g
  · rw [State.setField, if_neg hf]
    exact h

theorem Calm.modHm {f : Nat} {g : Hm → Hm} (h : Calm r s) : Calm r (s.modHm f g) := h.setField rfl
theorem Calm.modMc {f : Nat} {g : Mc → Mc} (h : Calm r s) (hg : ∀ m, (g m).calm = m.calm) : Calm r (s.modMc f g) :=
  h.setField (by unfold Field.calm; dsimp only; rw [hg])
theorem Calm.setLink {l : Nat} {k : Link} (h : Calm r s) : Calm r (s.setLink l k) := h.of_eq (by simp) (by simp) (by simp) (by simp)
theorem Calm.modLink {l : Nat} {g : Link → Link} (h : Calm r s) : Calm r (s.modLink l g) := h.setLink
theorem Calm.setCore {c : Nat} {k : Core} (h : Calm r s) : Calm r (s.setCore c k) := h.of_eq (by simp) (by simp) (by simp) (by simp)
theorem Calm.modCore {c : Nat} {g : Core → Core} (h : Calm r s) : Calm r (s.modCore c g) := h.setCore

theorem Calm.bump {a : Nat} (h : Calm r s) : Calm r (s.bump a) :=
  h.trans ⟨by simp, by simp, fun j => congrArg _ (State.seatAt_congr (by simp) j), fun f => by rw [(s.bump_units a).2.2.2 f]; rfl⟩

theorem Calm.respond {q : Req} {st : BitVec 16} {d : BitVec 64} {b : Body} (h : Calm r s) : Calm r (s.respond q st d b) :=
  h.of_eq (by simp) (by simp) (by simp) (by simp)

theorem Calm.demerit {f kind index w : Nat} (h : Calm r s) : Calm r (s.demerit f kind index w) := h.modHm

theorem Calm.vlog {f : Nat} {e : VEntry} (h : Calm r s) : Calm r (s.vlog f e) := by
  unfold State.vlog
  dsimp only
  split
  · exact (h.setSeat (by rfl)).bump
  · exact h.setSeat (by rfl)

/-! ### Memory through the Librarian -/

theorem Calm.duePage {g a : Nat} (h : Calm r s) : Calm r (s.duePage g a) := by
  unfold State.duePage
  dsimp only
  exact h.modMc (by intro; split <;> rfl)

theorem Calm.correctedBlock {f a : Nat} (h : Calm r s) : Calm r (s.correctedBlock f a) := by
  unfold State.correctedBlock
  dsimp only
  split
  · exact Calm.duePage (h.bump.demerit.modMc fun _ => rfl)
  · exact h.bump.demerit.modMc fun _ => rfl

theorem Calm.correctedWord {a : Nat} (h : Calm r s) : Calm r (s.correctedWord a) := by
  unfold State.correctedWord
  split
  · exact h.bump.demerit
  · exact h.bump.demerit
  · exact h

theorem Calm.noteCorrected {l : List (Nat × Nat)} (h : Calm r s) : Calm r (s.noteCorrected l) :=
  Calm.foldl _ (Calm.foldl _ h fun _ _ ht => ht.correctedWord) fun _ _ ht => ht.correctedBlock

theorem Calm.noteErr {f a : Nat} {e : MemErr} (h : Calm r s) : Calm r (s.noteErr f a e) := by
  unfold State.noteErr
  dsimp only
  cases e with
  | firewall => exact h
  | word =>
    dsimp only
    split
    · exact h.bump.demerit.modHm.taint
    · exact h.bump.demerit.taint
    · exact h.taint
  | ue => exact Calm.taint (Calm.duePage (Calm.demerit (h.bump.modMc fun _ => rfl)))
  | mac => exact Calm.taint (Calm.demerit (h.bump.modMc fun _ => rfl))
  | tag => exact Calm.taint (h.bump.modMc fun _ => rfl)

theorem Calm.libErr {f : Nat} {e : Nat × MemErr} (h : Calm r s) : Calm r (s.libErr f e) := by
  unfold State.libErr
  dsimp only
  split
  · exact h.vlog.noteErr
  · exact h.noteErr

theorem Calm.storeBytes {a : Nat} {bs : List Byte} (h : Calm r s) : Calm r (s.storeBytes a bs) := by
  unfold State.storeBytes
  split <;> exact h.of_eq (by rfl) (by rfl) (by rfl) (by rfl)

theorem Calm.libRead {f a n : Nat} (h : Calm r s) : Calm r (s.libRead f a n).1 := by
  unfold State.libRead
  split
  · exact h.noteCorrected
  · exact h.libErr

theorem Calm.libLand {f a : Nat} {bs : List Byte} (h : Calm r s) : Calm r (s.libLand f a bs) := by
  unfold State.libLand
  obtain ⟨e, he⟩ | he := s.writeRange_cases (s.seatFields f) a bs <;> rw [he]
  · exact h.libErr
  · exact h.noteCorrected.storeBytes

theorem Calm.libWrite {f a : Nat} {bs : List Byte} (h : Calm r s) : Calm r (s.libWrite f a bs) := by
  unfold State.libWrite
  split
  · exact h
  split
  · exact h.of_eq rfl rfl rfl rfl
  · exact h.libLand

theorem Calm.flushHeld (h : Calm r s) : Calm r s.flushHeld :=
  Calm.foldl _ (h.of_eq rfl rfl rfl rfl) fun _ _ ht => ht.libWrite

/-! ### Pool operations that fail -/

theorem Calm.endBigPass {entry part : Nat} (h : Calm r s) : Calm r (s.endBigPass entry part) := by
  unfold State.endBigPass
  split
  · exact h.modHm
  dsimp only
  split
  · split <;> exact h.of_eq rfl rfl rfl rfl
  · exact h

theorem Calm.ckEnd {f : Nat} {code : BitVec 8} {b : Body} (h : Calm r s) : Calm r (s.ckEnd f code b) := by
  unfold State.ckEnd
  refine Calm.foldl _ (Calm.modCk (Calm.eachOf _ ?_ fun _ _ ht => ht.modLink)) fun _ _ ht => ht.respond
  have h1 : Calm r (if (s.seat f).ck.trigger = 0 then s
      else Machine.eachOf (s.seatFields f) (fun g t => t.bump (lbBase g + if code = 0 then 0x140 else 0x148)) s) := by
    split
    · exact h
    · exact h.eachOf _ fun _ _ ht => ht.bump
  split
  · exact h1.endBigPass
  · exact h1

theorem Calm.ckInterrupt {f : Nat} (h : Calm r s) : Calm r (s.ckInterrupt f) := by
  unfold State.ckInterrupt
  split
  · exact h
  · exact h.ckEnd

theorem Calm.stageOp {f : Nat} {o : PoolOp} (h : Calm r s) : Calm r (s.stageOp f o) := by
  unfold State.stageOp
  cases (s.seat f).regions.staging
  · exact h
  · exact h.libWrite

theorem Calm.openOp {f : Nat} {o : PoolOp} (h : Calm r s) : Calm r (s.openOp f o) := by
  unfold State.openOp
  dsimp only
  cases (s.stageOp f o).poolLink f o.field
  · exact (Calm.modCk h.stageOp).ckEnd
  · exact h.stageOp.modLink

theorem Calm.opFail {f : Nat} {o : PoolOp} {st : BitVec 8} (h : Calm r s) : Calm r (s.opFail f o st) := by
  unfold State.opFail
  dsimp only
  split
  · exact (Calm.modCk h).openOp
  · exact (Calm.modCk h).ckEnd

/-- An operation that ends with a status other than OK. -/
theorem Calm.endOp {l : Nat} {tag : BitVec 7} {st : BitVec 8} {n : Nat} (h : Calm r s) (hst : st ≠ 0) : Calm r (s.endOp l tag st n) := by
  unfold State.endOp
  split
  · exact h
  · dsimp only
    rw [if_neg hst]
    exact h.modLink.opFail

theorem Calm.opsLost {l : Nat} (h : Calm r s) : Calm r (s.opsLost l) := Calm.foldl _ h fun _ _ ht => ht.endOp (by decide)

/-! ### Links that change state -/

theorem Calm.endLinkPass {l : Nat} {c : BitVec 4} (h : Calm r s) : Calm r (s.endLinkPass l c) := h.modHm

theorem Calm.linkTo {l : Nat} {st : LinkState} {why : BitVec 4} (h : Calm r s) : Calm r (s.linkTo l st why) := by
  unfold State.linkTo
  split
  · exact h
  dsimp only
  have h1 (t : State) (ht : Calm r t) : Calm r (if st = .failed then t.endLinkPass l 3 else t) := by
    split
    · exact ht.endLinkPass
    · exact ht
  split
  · refine Calm.opsLost (Calm.taint ?_)
    split
    · exact (h1 _ h.modLink).modLink.endLinkPass
    · exact (h1 _ h.modLink).modLink
  · exact h1 _ h.modLink

theorem Calm.sendAbsent {l : Nat} (h : Calm r s) : Calm r (s.sendAbsent l) := by
  unfold State.sendAbsent
  split
  · exact h
  dsimp only
  split
  · exact h
  · exact h.linkTo.modLink

theorem Calm.enterIdent {l : Nat} (h : Calm r s) : Calm r (s.enterIdent l) := (h.linkTo.modLink).of_eq rfl rfl rfl rfl

/-! ### Cancelled cores -/

theorem Calm.abftEvent {c : Nat} {x : Mxst} (h : Calm r s) : Calm r (s.abftEvent c x) := by
  unfold State.abftEvent
  dsimp only
  split
  · exact h
  have h1 {t : State} (ht : Calm r t) (p : Prop) [Decidable p] (a : Nat) : Calm r (if p then t.bump a else t) := ht.bump.ite ht
  have h2 {t : State} (ht : Calm r t) (p : Prop) [Decidable p] (f kind ix w : Nat) : Calm r (if p then t.demerit f kind ix w else t) :=
    ht.demerit.ite ht
  exact (h2 (h1 h.modCore.bump _ _).demerit _ _ _ _ _).setStatus.ite (h1 h.modCore.bump _ _).demerit

theorem Calm.cutService {c : Nat} (h : Calm r s) : Calm r (s.cutService c) := by
  unfold State.cutService
  split
  · split
    · exact h.abftEvent
    · exact h
  · exact h

theorem Calm.spoil {c : Nat} {l : List (Nat × Nat)} (h : Calm r s) : Calm r (s.spoil c l) :=
  Calm.foldl _ h fun t x ht => by
    split
    · exact ht
    · exact ht.storeBytes.of_eq rfl rfl rfl rfl

theorem Calm.endReads {o : DmaOp} (h : Calm r s) : Calm r (s.endReads o) := Calm.foldl _ h fun _ _ ht => ht.modMc fun _ => rfl

theorem Calm.cancelCore {c : Nat} (h : Calm r s) : Calm r (s.cancelCore c) :=
  (Calm.foldl _ h.cutService.spoil fun _ _ ht => ht.endReads).setCore

theorem Calm.noLesson {c : Nat} (h : Calm r s) : Calm r (s.noLesson c) := h.cancelCore.modCore

theorem Calm.stopCores {fs : List Nat} (h : Calm r s) : Calm r (s.stopCores fs) := h.eachOf _ fun _ _ ht => ht.noLesson

end

end Sys2Proof.Machine
end

section
/-! The wipe (R418 to R423): what its start takes from cores, seats, links and keys, and what its end leaves. -/

namespace Sys2Proof.Machine

/-! ### The start of a wipe: what stays calm -/

section
variable {r s : State}

theorem Calm.endEngine {g : Rung} (h : Calm r s) : Calm r (s.endEngine g) := by
  cases g with
  | engineCore c => exact h.setCore
  | engineLink l => exact h.setLink
  | engineChannel f ch => exact h.setField rfl
  | context | partition | chip => exact h

theorem Calm.wipeLinks {f : Nat} (h : Calm r s) : Calm r (s.wipeLinks f) :=
  h.eachOf _ fun _ _ ht => (ht.enterIdent.ite ht).modLink

theorem Calm.dropDump {f : Nat} (h : Calm r s) : Calm r (s.dropDump f) := by
  unfold State.dropDump
  split
  · exact h
  next d _ =>
    have hm := h.eachOf (List.range 4) (g := fun g t => t.modHm g fun h =>
      { h with collecting := if (match h.collecting with | some x => x.id == d.id | none => false) then none else h.collecting })
      fun _ _ ht => ht.modHm
    cases d.req
    · exact hm
    · exact hm.respond

theorem Calm.dropResets {w : WipeJob} (h : Calm r s) : Calm r (s.dropResets w) :=
  (Calm.foldl _ h fun _ _ ht => ht.endEngine).of_eq (by rfl) (by rfl) (by rfl) (by rfl)

theorem Calm.zeroSram {f : Nat} (h : Calm r s) : Calm r (s.zeroSram f) := h.of_eq (by rfl) (by rfl) (by rfl) (by rfl)

end

/-! ### The start of a wipe: cores and seats -/

/-- A seat whose partition a wipe has stopped. -/
def Seat.wiped (k : Seat) : Prop := k.plan = none ∧ k.running = false ∧ k.wiping = true

/-- What no step of a wipe's start touches: the layout, the wipes asked for, the bell counts, and the keys' epochs but for errors. -/
structure WipeKeeps (s t : State) : Prop where
  layout : t.host.layout = s.host.layout
  wipes : t.px.wipes = s.px.wipes
  bell : ∀ j, (t.seatAt j).tt.bell = (s.seatAt j).tt.bell
  mc : ∀ f, (t.field f).mc.calm = (s.field f).mc.calm

theorem WipeKeeps.trans {r s t : State} (h : WipeKeeps r s) (g : WipeKeeps s t) : WipeKeeps r t :=
  ⟨g.layout.trans h.layout, g.wipes.trans h.wipes, fun j => (g.bell j).trans (h.bell j), fun f => (g.mc f).trans (h.mc f)⟩

theorem Calm.wipeKeeps {s t : State} (h : Calm s t) : WipeKeeps s t :=
  ⟨h.layout, h.wipes, fun j => (congrArg (fun k : Seat => k.tt.bell) (h.seat j) :), fun f => (congrArg Field.mc (h.field f) :)⟩

theorem Calm.wiped {s t : State} (h : Calm s t) {j : Nat} (w : (s.seatAt j).wiped) : (t.seatAt j).wiped := by
  obtain ⟨hp, hr, hw⟩ := w
  exact ⟨(congrArg Seat.plan (h.seat j)).trans hp, (congrArg Seat.running (h.seat j)).trans hr, (congrArg Seat.wiping (h.seat j)).trans hw⟩

/-- A wipe stops one partition: its cores, then its seat. -/
def State.wipeSeat (s : State) (f : Nat) : State :=
  ((s.stopCores (s.seatFields f)).dropSeat f).modSeat f (fun k => { k with wiping := true })

theorem State.modLbs_keeps (s : State) (f : Nat) (g : Lb → Lb) : (s.modLbs f g).seats = s.seats ∧ (s.modLbs f g).host = s.host ∧
    (s.modLbs f g).px = s.px ∧ ∀ e, ((s.modLbs f g).field e).mc = (s.field e).mc := by
  refine eachOf_keeps (fun t => t.seats = s.seats ∧ t.host = s.host ∧ t.px = s.px ∧ ∀ e, (t.field e).mc = (s.field e).mc) _ _
    (fun i t ht => ?_) s ⟨rfl, rfl, rfl, fun _ => rfl⟩
  obtain ⟨h1, h2, h3, h4⟩ := ht
  refine ⟨by simp [h1], by simp [h2], by simp [h3], fun e => (?_ : _ = (t.field e).mc).trans (h4 e)⟩
  unfold State.modLb
  by_cases hi : i < 4
  · by_cases he : e = i
    · rw [he, State.field_setField_self _ _ hi]
    · rw [State.field_setField_ne _ _ he]
  · rw [State.setField, if_neg hi]

/-- A seat stopped by a wipe: its plan, seat and regions go, its bell count stays. -/
def State.strip (s : State) (f : Nat) : State := ((s.modSeat f Seat.dropped).modLbs f (fun _ => {})).modSeat f (fun k => { k with wiping := true })

theorem State.strip_seatAt {s : State} {f : Nat} (hf : f < 4) (hi : s.seatIx f = f) (j : Nat) :
    (s.strip f).seatAt j = if j = f then { (s.seatAt f).dropped with wiping := true } else s.seatAt j := by
  obtain ⟨hs, hh, -, -⟩ := (s.modSeat f Seat.dropped).modLbs_keeps f (fun _ => {})
  have hix : ((s.modSeat f Seat.dropped).modLbs f (fun _ => {})).seatIx f = f := (State.seatIx_congr f (by rw [hh]; simp)).trans hi
  have hat (j : Nat) : ((s.modSeat f Seat.dropped).modLbs f (fun _ => {})).seatAt j = if j = f then (s.seatAt f).dropped else s.seatAt j := by
    rw [State.seatAt_congr hs, State.seatAt_modSeat hf hi]
  rw [State.strip, State.seatAt_modSeat hf hix, hat, hat, if_pos rfl]
  split <;> rfl

theorem State.strip_keeps {s : State} {f : Nat} (hf : f < 4) (hi : s.seatIx f = f) : WipeKeeps s (s.strip f) := by
  obtain ⟨-, hh, hp, hm⟩ := (s.modSeat f Seat.dropped).modLbs_keeps f (fun _ => {})
  refine ⟨by rw [State.strip, State.modSeat_host, hh, State.modSeat_host], by rw [State.strip, State.modSeat_px, hp, State.modSeat_px], fun j => ?_, fun e => ?_⟩
  · rw [State.strip_seatAt hf hi]
    split
    next hj => rw [hj]; rfl
    next => rfl
  · rw [State.strip, State.modSeat, State.field_setSeat, hm, State.modSeat, State.field_setSeat]

/-- What a wipe does to one partition: its seat is stopped, and every other one stands. -/
theorem State.wipeSeat_step {s : State} {f : Nat} (hf : f < 4) (hi : s.seatIx f = f) : WipeKeeps s (s.wipeSeat f) ∧
    ((s.wipeSeat f).seatAt f).wiped ∧ ∀ j, j ≠ f → (s.seatAt j).wiped → ((s.wipeSeat f).seatAt j).wiped := by
  obtain ⟨v, hv, e⟩ : ∃ v, Calm s v ∧ s.wipeSeat f = v.strip f :=
    ⟨_, Calm.foldl _ (Calm.refl s).stopCores.ckInterrupt fun _ _ ht => ht.respond, rfl⟩
  have hix : v.seatIx f = f := (hv.seatIx f).trans hi
  rw [e]
  refine ⟨hv.wipeKeeps.trans (State.strip_keeps hf hix), ?_, fun j hj hw => ?_⟩
  · rw [State.strip_seatAt hf hix, if_pos rfl]
    exact ⟨rfl, rfl, rfl⟩
  · rw [State.strip_seatAt hf hix, if_neg hj]
    exact hv.wiped hw

/-- A sequence of actions, each of which keeps what all need and gives one index what no other takes away, gives it to every index. -/
theorem eachOf_gives {I : State → Prop} {Q : Nat → State → Prop} {g : Nat → State → State} (l : List Nat) (hI : ∀ f ∈ l, ∀ t, I t → I (g f t))
    (hQ : ∀ f ∈ l, ∀ t, I t → Q f (g f t)) (hk : ∀ e, ∀ f ∈ l, ∀ t, I t → Q e t → Q e (g f t)) {s : State} (hs : I s) :
    I (eachOf l g s) ∧ (∀ f ∈ l, Q f (eachOf l g s)) ∧ ∀ e, Q e s → Q e (eachOf l g s) := by
  unfold eachOf
  induction l generalizing s with
  | nil => exact ⟨hs, by simp, fun _ h => h⟩
  | cons f l ih =>
    have hf := List.mem_cons_self (a := f) (l := l)
    obtain ⟨h1, h2, h3⟩ := ih (fun e he => hI e (List.mem_cons_of_mem _ he)) (fun e he => hQ e (List.mem_cons_of_mem _ he))
      (fun e d hd => hk e d (List.mem_cons_of_mem _ hd)) (hI f hf s hs)
    refine ⟨h1, fun e he => ?_, fun e h => h3 e (hk e f hf s hs h)⟩
    rcases List.mem_cons.1 he with rfl | he
    · exact h3 _ (hQ _ hf s hs)
    · exact h2 e he

/-- Every partition of a wipe's scope is stopped. -/
theorem State.wipeSeats_step (s : State) (l : List Nat) (hl : ∀ f ∈ l, f < 4 ∧ s.seatIx f = f) :
    WipeKeeps s (eachOf l (fun f t => t.wipeSeat f) s) ∧ ∀ f ∈ l, ((eachOf l (fun f t => t.wipeSeat f) s).seatAt f).wiped := by
  have hix {t : State} (ht : WipeKeeps s t) (f : Nat) (hf : f ∈ l) : t.seatIx f = f := (State.seatIx_congr f ht.layout).trans (hl f hf).2
  obtain ⟨h1, h2, -⟩ := eachOf_gives (I := WipeKeeps s) (Q := fun f t => (t.seatAt f).wiped) (g := fun f t => t.wipeSeat f) l
    (fun f hf t ht => ht.trans (State.wipeSeat_step (hl f hf).1 (hix ht f hf)).1)
    (fun f hf t ht => (State.wipeSeat_step (hl f hf).1 (hix ht f hf)).2.1)
    (fun e f hf t ht hw => by
      obtain ⟨-, hme, hne⟩ := State.wipeSeat_step (hl f hf).1 (hix ht f hf)
      by_cases he : e = f
      · rw [he]; exact hme
      · exact hne e he hw)
    ⟨rfl, rfl, fun _ => rfl, fun _ => rfl⟩
  exact ⟨h1, h2⟩

theorem scopeFields_lt {p : BitVec 3} : ∀ f ∈ scopeFields p, f < 4 := by revert p; decide

/-! ### The start of a wipe: keys, memory and the pass -/

/-- New keys for some fields change their memory controllers alone. -/
theorem State.newKeys_step (s : State) {fs : List Nat} (hfs : ∀ f ∈ fs, f < 4) (e : BitVec 8) :
    (s.newKeys fs (fun n _ m => m.fresh e n)).seats = s.seats ∧ (s.newKeys fs (fun n _ m => m.fresh e n)).host = s.host ∧
    (s.newKeys fs (fun n _ m => m.fresh e n)).px.wipes = s.px.wipes ∧
    ∀ f ∈ fs, ((s.newKeys fs (fun n _ m => m.fresh e n)).field f).mc.oldLive = false ∧
      ((s.newKeys fs (fun n _ m => m.fresh e n)).field f).mc.sweeping = false ∧
      ((s.newKeys fs (fun n _ m => m.fresh e n)).field f).mc.epoch = e := by
  unfold State.newKeys
  dsimp only
  generalize (s.px.gens + 1).toNat = n
  let q (m : Mc) : Prop := m.oldLive = false ∧ m.sweeping = false ∧ m.epoch = e
  obtain ⟨⟨h1, h2, h3⟩, hq, -⟩ := eachOf_gives (I := fun t => t.seats = s.seats ∧ t.host = s.host ∧ t.px.wipes = s.px.wipes)
    (Q := fun f t => q (t.field f).mc) (g := fun f t => t.modMc f (Mc.fresh e n)) fs
    (fun f _ t ht => by simpa using ht)
    (fun f hf t _ => by
      rw [State.modMc, State.field_setField_self _ _ (hfs f hf)]
      exact ⟨rfl, rfl, rfl⟩)
    (fun d f hf t _ hd => by
      rw [State.modMc]
      by_cases hdf : d = f
      · rw [hdf, State.field_setField_self _ _ (hfs f hf)]
        exact ⟨rfl, rfl, rfl⟩
      · rwa [State.field_setField_ne _ _ hdf])
    (s := { s with px := { s.px with gens := s.px.gens + 1 } }) ⟨rfl, rfl, rfl⟩
  exact ⟨h1, h2, h3, hq⟩

theorem State.wipeKeys_step (s : State) (w : WipeJob) : (s.wipeKeys w).seats = s.seats ∧ (s.wipeKeys w).host = s.host ∧
    (s.wipeKeys w).px.wipes = s.px.wipes := by
  refine List.foldlRecOn (motive := fun t : State => t.seats = s.seats ∧ t.host = s.host ∧ t.px.wipes = s.px.wipes) _ _ ⟨rfl, rfl, rfl⟩
    fun t ht fs hfs => ?_
  have hlt : ∀ f ∈ fs, f < 4 := by
    obtain ⟨g, -, rfl⟩ := List.mem_map.1 (List.mem_eraseDups.1 hfs)
    exact fun f => partFields_lt
  obtain ⟨h1, h2, h3, -⟩ := t.newKeys_step hlt ((t.field (fs.headD 0)).mc.epoch + 1)
  exact ⟨h1.trans ht.1, h2.trans ht.2.1, h3.trans ht.2.2⟩

/-- A live partition is the only one that a wipe of its fields leaves behind. -/
theorem State.wipeParts_live {s : State} {w : WipeJob} (hp : w.scope ≠ 7) (hl : s.partLive w.scope.toNat = true) (hw : w.why = .request) :
    s.wipeParts w = [scopeFields w.scope] := by
  have hall : ∀ f ∈ scopeFields w.scope, s.partOf f = w.scope.toNat := by
    unfold State.partLive at hl
    rw [Bool.and_eq_true, List.all_eq_true] at hl
    rw [scopeFields, if_neg hp]
    exact fun f hf => by simpa using hl.2 f hf
  unfold State.wipeParts
  rw [hw]
  dsimp only
  rw [List.map_congr_left (g := fun _ => partFields w.scope.toNat) fun f hf => congrArg partFields (hall f hf), List.map_const',
    scopeFields, if_neg hp]
  clear hl hw hall
  generalize w.scope = p at *
  revert p
  decide

theorem State.zeroSram_read (s : State) (f x : Nat) : Memory.read (s.zeroSram f).mem x =
    if slateBase (500 * f) ≤ x ∧ x < slateBase (500 * f) + 500 * 0x80000 then 0
    else if deskBase (500 * f) ≤ x ∧ x < deskBase (500 * f) + 500 * 0x800000 then 0 else Memory.read s.mem x := by
  unfold State.zeroSram State.zeroRange
  dsimp only
  rw [Memory.read_zero, Memory.read_zero]

/-- The slates and the desks of a field read zero. -/
def State.sramZero (s : State) (f : Nat) : Prop := ∀ x, (deskBase (500 * f) ≤ x ∧ x < deskBase (500 * f) + 500 * 0x800000) ∨
  (slateBase (500 * f) ≤ x ∧ x < slateBase (500 * f) + 500 * 0x80000) → Memory.read s.mem x = 0

/-- The fields of a list have their SRAM zeroed. -/
theorem State.zeroSrams_step (s : State) (l : List Nat) : Calm s (eachOf l (fun f t => t.zeroSram f) s) ∧
    ∀ f ∈ l, (eachOf l (fun f t => t.zeroSram f) s).sramZero f := by
  obtain ⟨h1, h2, -⟩ := eachOf_gives (I := Calm s) (Q := fun f t => t.sramZero f) (g := fun f t => t.zeroSram f) l
    (fun f _ t ht => ht.zeroSram)
    (fun f _ t _ x hx => by
      rw [State.zeroSram_read]
      split
      · rfl
      · rw [if_pos (hx.resolve_right ‹_›)])
    (fun e f _ t _ h x hx => by
      rw [State.zeroSram_read, h x hx]
      simp)
    (Calm.refl s)
  exact ⟨h1, h2⟩

/-- What the start of a wipe leaves of memory, seats and keys. -/
theorem State.beginWipe_step (s : State) (w : WipeJob) : (s.beginWipe w).host.layout = s.host.layout ∧ (s.beginWipe w).px.wipes = s.px.wipes ∧
    (∀ f ∈ scopeFields w.scope, (s.beginWipe w).sramZero f) ∧
    (∀ f ∈ scopeFields w.scope, s.seatIx f = f →
      ((s.beginWipe w).seatAt f).wiped ∧ ((s.beginWipe w).seatAt f).tt.bell = (s.seatAt f).tt.bell) ∧
    (w.scope ≠ 7 → s.partLive w.scope.toNat = true → w.why = .request → ∀ f ∈ scopeFields w.scope,
      ((s.beginWipe w).field f).mc.oldLive = false ∧ ((s.beginWipe w).field f).mc.sweeping = false ∧
      ((s.beginWipe w).field f).mc.epoch = (s.field ((scopeFields w.scope).headD 0)).mc.epoch + 1) := by
  let fs := scopeFields w.scope
  have hheads : ∀ f ∈ s.heads fs, f < 4 ∧ s.seatIx f = f := fun f hf => by
    obtain ⟨hf, hi⟩ := List.mem_filter.1 hf
    exact ⟨scopeFields_lt f hf, by simpa using hi⟩
  obtain ⟨k1, w1⟩ := s.wipeSeats_step (s.heads fs) hheads
  generalize e1 : eachOf (s.heads fs) (fun f t => t.wipeSeat f) s = s1 at k1 w1
  have c2 : Calm s1 ((eachOf fs (fun f t => ((t.wipeLinks f).dropDump f).modHm f Hm.stopWork) s1).dropResets w) :=
    Calm.dropResets (Calm.eachOf fs (Calm.refl s1) fun _ _ ht => ht.wipeLinks.dropDump.modHm)
  generalize e2 : (eachOf fs (fun f t => ((t.wipeLinks f).dropDump f).modHm f Hm.stopWork) s1).dropResets w = s2 at c2
  obtain ⟨hs, hh, hw⟩ := s2.wipeKeys_step w
  obtain ⟨c3, z3⟩ := (s2.wipeKeys w).zeroSrams_step fs
  have e : s.beginWipe w = eachOf fs (fun f t => t.zeroSram f) (s2.wipeKeys w) := by rw [← e2, ← e1]; rfl
  have k2 : WipeKeeps s s2 := k1.trans c2.wipeKeeps
  rw [e]
  refine ⟨c3.layout.trans (hh ▸ k2.layout), c3.wipes.trans (hw.trans k2.wipes), z3, fun f hf hi => ⟨?_, ?_⟩, fun hp hl hr f hf => ?_⟩
  · refine c3.wiped ?_
    rw [State.seatAt_congr hs]
    exact c2.wiped (w1 f (List.mem_filter.2 ⟨hf, by simpa using hi⟩))
  · rw [c3.wipeKeeps.bell, State.seatAt_congr hs, k2.bell]
  · have hparts : s2.wipeParts w = [fs] := by
      refine State.wipeParts_live hp ?_ hr
      unfold State.partLive State.partOf at hl ⊢
      rwa [k2.layout]
    have hk : s2.wipeKeys w = s2.newKeys fs (fun n _ m => m.fresh ((s2.field (fs.headD 0)).mc.epoch + 1) n) := by
      unfold State.wipeKeys
      rw [hparts]
      rfl
    obtain ⟨-, -, -, hq⟩ := s2.newKeys_step (fs := fs) scopeFields_lt ((s2.field (fs.headD 0)).mc.epoch + 1)
    rw [← hk] at hq
    obtain ⟨q1, q2, q3⟩ := hq f hf
    have hm : Mc.calm _ = Mc.calm _ := c3.wipeKeeps.mc f
    have he : (s2.field (fs.headD 0)).mc.epoch = (s.field (fs.headD 0)).mc.epoch := (congrArg Mc.epoch (k2.mc _) :)
    rw [he] at q3
    exact ⟨(congrArg Mc.oldLive hm).trans q1, (congrArg Mc.sweeping hm).trans q2, (congrArg Mc.epoch hm).trans q3⟩

/-- A wipe takes its pass in every field of its scope, or the coordinator's for the whole module. -/
theorem State.wipePass_step (s : State) (p : BitVec 3) (b : Bool) : (s.wipePass p b).host = s.host ∧ (s.wipePass p b).px = s.px ∧
    (s.wipePass p b).seats = s.seats ∧ (s.wipePass p b).mem = s.mem ∧ (∀ f, ((s.wipePass p b).field f).mc = (s.field f).mc) ∧
    (p ≠ 7 → ∀ f ∈ scopeFields p, ∃ x, Tab.find ((s.wipePass p b).field f).hm.passes 33 = some x ∧ x.code = 10) ∧
    (p = 7 → ∃ x, Tab.find (s.wipePass p b).coord.passes 33 = some x ∧ x.code = 10) := by
  unfold State.wipePass
  by_cases hp : p = 7
  · dsimp only
    rw [if_pos hp]
    exact ⟨rfl, rfl, rfl, rfl, fun _ => rfl, fun h => absurd hp h, fun _ => ⟨_, Tab.find_put_self _ _ _, rfl⟩⟩
  · dsimp only
    rw [if_neg hp]
    let x (f : Nat) : Pass := { code := 10, resource := p.setWidth 32, byHost := b, granted := (s.seat f).tt.bell.setWidth 27 }
    obtain ⟨⟨h1, h2, h3, h4, h5⟩, hq, -⟩ := eachOf_gives
      (I := fun t => t.host = s.host ∧ t.px = s.px ∧ t.seats = s.seats ∧ t.mem = s.mem ∧ ∀ f, (t.field f).mc = (s.field f).mc)
      (Q := fun f t => ∃ x, Tab.find (t.field f).hm.passes 33 = some x ∧ x.code = 10)
      (g := fun f t => t.modHm f (fun h => { h with passes := Tab.put h.passes 33 (x f) })) (scopeFields p)
      (fun f hf t ht => by
        obtain ⟨h1, h2, h3, h4, h5⟩ := ht
        refine ⟨by simp [h1], by simp [h2], by simp [h3], by simp [h4], fun e => ?_⟩
        rw [State.field_modHm (scopeFields_lt f hf), ← h5 e]
        split
        next he => rw [he]
        next => rfl)
      (fun f hf t _ => by
        rw [State.field_modHm (scopeFields_lt f hf), if_pos rfl]
        exact ⟨_, Tab.find_put_self _ _ _, rfl⟩)
      (fun e f hf t _ h => by
        rw [State.field_modHm (scopeFields_lt f hf)]
        split
        · exact ⟨_, Tab.find_put_self _ _ _, rfl⟩
        · exact h)
      (s := s) ⟨rfl, rfl, rfl, rfl, fun _ => rfl⟩
    exact ⟨h1, h2, h3, h4, h5, fun _ => hq, fun h => absurd h hp⟩

/-- A wipe found by its scope. -/
theorem find_wipe {s : State} {p : BitVec 3} {w : WipeJob} {b : WipeJob → Bool} (h : s.px.wipes.find? (fun x => x.scope == p && b x) = some w) :
    w.scope = p := by
  have hw := List.find?_some h
  simp only [Bool.and_eq_true, beq_iff_eq] at hw
  exact hw.1

/-- The start of a wipe that is asked for. -/
theorem execWipeStart_starts {s : State} {p : BitVec 3} {w : WipeJob}
    (hw : s.px.wipes.find? (fun x => x.scope == p && !x.started) = some w) : ∃ t, exec (.wipeStart p) s = .next t ∧
      t.px.wStage = 4 ∧ t.px.wScope = p ∧ t.px.wBoot = false ∧ t.px.wPercent.toNat ≤ 100 ∧ t.store.wipePending = true ∧
      t.px.wipes = s.px.wipes.map (fun x => if x = w then { w with started := true } else x) ∧
      (∀ f ∈ scopeFields p, t.sramZero f) ∧
      (∀ f ∈ scopeFields p, s.seatIx f = f → (t.seat f).plan = none ∧ (t.seat f).running = false ∧ (t.seat f).wiping = true ∧
        (t.seat f).tt.bell = (s.seat f).tt.bell) ∧
      (p ≠ 7 → s.partLive p.toNat = true → w.why = .request → ∀ f ∈ scopeFields p, (t.field f).mc.oldLive = false ∧
        (t.field f).mc.sweeping = false ∧ (t.field f).mc.epoch = (s.field ((scopeFields p).headD 0)).mc.epoch + 1) ∧
      (p ≠ 7 → ∀ f ∈ scopeFields p, ∃ x, Tab.find (t.field f).hm.passes 33 = some x ∧ x.code = 10) ∧
      (p = 7 → ∃ x, Tab.find t.coord.passes 33 = some x ∧ x.code = 10) := by
  let s0 : State := { s with px := { s.px with wipes := s.px.wipes.map (fun x => if x = w then { w with started := true } else x) } }
  obtain ⟨hlay, hws, hmem, hseat, hkey⟩ := s0.beginWipe_step w
  obtain ⟨ph, pp, ps, pm, pf, pn, pc⟩ := (s0.beginWipe w).wipePass_step p true
  have hp := find_wipe hw
  rw [hp] at hmem hseat hkey
  have e : exec (.wipeStart p) s = .next (((s0.beginWipe w).wipePass p true).showWipe p false) := by
    show Host.Outcome.next (execWipeStart p s) = _
    rw [execWipeStart, hw]
  refine ⟨_, e, rfl, rfl, rfl, ?_, rfl, ?_, fun f hf x hx => ?_, fun f hf hi => ?_, fun h7 hl hr f hf => ?_, pn, pc⟩
  · exact Nat.le_of_lt_succ (lt_of_le_of_lt (Nat.mod_le _ _) (Nat.mod_lt _ (by decide)))
  · exact (congrArg (·.wipes) pp :).trans hws
  · exact (congrArg (Memory.read · x) pm).trans (hmem f hf x hx)
  · obtain ⟨⟨h1, h2, h3⟩, h4⟩ := hseat f hf hi
    have hix : (((s0.beginWipe w).wipePass p true).showWipe p false).seatIx f = f :=
      (State.seatIx_congr f ((congrArg HostPort.layout ph).trans hlay)).trans hi
    rw [State.seat_eq_seatAt hix, State.seat_eq_seatAt hi, State.seatAt_congr (s := s0.beginWipe w) (t := ((s0.beginWipe w).wipePass p true).showWipe p false) ps]
    exact ⟨h1, h2, h3, h4⟩
  · obtain ⟨h1, h2, h3⟩ := hkey h7 hl hr f hf
    exact ⟨(congrArg Mc.oldLive (pf f)).trans h1, (congrArg Mc.sweeping (pf f)).trans h2, (congrArg Mc.epoch (pf f)).trans h3⟩

end Sys2Proof.Machine
end

section
/-! The end of a wipe (R413, R418 to R423). -/

namespace Sys2Proof.Machine

/-! ### The end of a wipe: memory, dumps and counters -/

/-- The LPDDR, the dumps and the counters of a field are gone. -/
def State.fieldClear (s : State) (f : Nat) : Prop :=
  (∀ x, f * lpField ≤ x → x < (f + 1) * lpField → Memory.read s.mem x = 0) ∧ (s.field f).hm.dumps = [] ∧ ∀ a, counterOwner a = f → s.counter a = {}

/-- Memory, dumps and counters of `t` are those of `s`, or gone. -/
structure NoMore (s t : State) : Prop where
  mem : t.mem = s.mem
  dumps : ∀ f, (t.field f).hm.dumps = (s.field f).hm.dumps
  counter : ∀ a, s.counter a = {} → t.counter a = {}

section
variable {r s t : State}

theorem NoMore.trans (h : NoMore r s) (g : NoMore s t) : NoMore r t :=
  ⟨g.mem.trans h.mem, fun f => (g.dumps f).trans (h.dumps f), fun a ha => g.counter a (h.counter a ha)⟩

theorem NoMore.of_eq (hm : t.mem = s.mem) (hf : ∀ f, (t.field f).hm.dumps = (s.field f).hm.dumps) (hc : t.counters = s.counters) : NoMore s t :=
  ⟨hm, hf, fun a ha => by unfold State.counter at *; rwa [hc]⟩

theorem NoMore.fieldClear (h : NoMore s t) {f : Nat} (c : s.fieldClear f) : t.fieldClear f := by
  obtain ⟨hm, hd, hc⟩ := c
  exact ⟨fun x h1 h2 => h.mem ▸ hm x h1 h2, (h.dumps f).trans hd, fun a ha => h.counter a (hc a ha)⟩

end

/-- A table filtered by its indices lists at an index what it listed there, or nothing. -/
theorem Tab.find_filter {α : Type} (t : Tab α) (q : Nat → Bool) (i : Nat) :
    Tab.find (t.filter fun e => q e.1) i = if q i then Tab.find t i else none := by
  induction t with
  | nil => split <;> rfl
  | cons e t ih =>
    obtain ⟨j, v⟩ := e
    by_cases hj : j = i
    · subst hj
      cases hq : q j <;> simp [hq, Tab.find, ih]
    · cases hq : q j <;> simp [hq, Tab.find, ih, hj]

theorem State.clearField_mem (s : State) (f : Nat) : (s.clearField f).mem = Memory.zero s.mem (f * lpField) lpField := by
  unfold State.clearField State.zeroLpddr
  simp [State.zeroRange]

theorem State.clearField_counter (s : State) (f a : Nat) : (s.clearField f).counter a = if counterOwner a = f then {} else s.counter a := by
  have e : (s.clearField f).counters = s.counters.filter fun e => counterOwner e.1 != f := by
    simp [State.clearField, State.zeroLpddr, State.zeroRange]
  unfold State.counter Tab.get
  rw [e, Tab.find_filter _ fun j => counterOwner j != f]
  by_cases h : counterOwner a = f <;> simp [h]

theorem State.field_modMc_hm (s : State) (f : Nat) (g : Mc → Mc) (e : Nat) : ((s.modMc f g).field e).hm = (s.field e).hm := by
  unfold State.modMc
  by_cases hf : f < 4
  · by_cases he : e = f
    · rw [he, State.field_setField_self _ _ hf]
    · rw [State.field_setField_ne _ _ he]
  · rw [State.setField, if_neg hf]

theorem State.clearField_hm {f : Nat} (hf : f < 4) (s : State) (e : Nat) :
    ((s.clearField f).field e).hm = if e = f then { (s.field e).hm with dumps := [] } else (s.field e).hm := by
  have hz : ((s.zeroLpddr f).field e).hm = (s.field e).hm := State.field_modMc_hm _ f _ e
  unfold State.clearField
  rw [State.field_modHm hf]
  split
  next h =>
    rw [← hz, h]
    rfl
  next => exact hz

/-- Clearing a field clears it, and leaves every field that is clear. -/
theorem State.clearField_clears {f : Nat} (hf : f < 4) (s : State) : (s.clearField f).fieldClear f ∧
    ∀ e, s.fieldClear e → (s.clearField f).fieldClear e := by
  refine ⟨⟨fun x h1 h2 => ?_, ?_, fun a ha => ?_⟩, fun e he => ?_⟩
  · rw [State.clearField_mem, Memory.read_zero, if_pos ⟨h1, by rw [Nat.add_mul, Nat.one_mul] at h2; exact h2⟩]
  · rw [State.clearField_hm hf, if_pos rfl]
  · rw [State.clearField_counter, if_pos ha]
  · obtain ⟨h1, h2, h3⟩ := he
    refine ⟨fun x hx hx' => ?_, ?_, fun a ha => ?_⟩
    · rw [State.clearField_mem, Memory.read_zero, h1 x hx hx', ite_self]
    · rw [State.clearField_hm hf]
      split
      · rfl
      · exact h2
    · rw [State.clearField_counter, h3 a ha, ite_self]

theorem State.clearField_rest (s : State) (f : Nat) : (s.clearField f).seats = s.seats ∧ (s.clearField f).host = s.host ∧
    (s.clearField f).px = s.px ∧ (s.clearField f).store = s.store := by
  simp [State.clearField, State.zeroLpddr, State.zeroRange]

theorem State.clearFields_step (s : State) (p : BitVec 3) : let t := eachOf (scopeFields p) (fun f t => t.clearField f) s
    (t.seats = s.seats ∧ t.host = s.host ∧ t.px = s.px ∧ t.store = s.store) ∧ ∀ f ∈ scopeFields p, t.fieldClear f := by
  obtain ⟨h1, h2, -⟩ := eachOf_gives (I := fun t => t.seats = s.seats ∧ t.host = s.host ∧ t.px = s.px ∧ t.store = s.store)
    (Q := fun f t => t.fieldClear f) (g := fun f t => t.clearField f) (scopeFields p)
    (fun f _ t ht => by
      obtain ⟨e1, e2, e3, e4⟩ := t.clearField_rest f
      exact ⟨e1.trans ht.1, e2.trans ht.2.1, e3.trans ht.2.2.1, e4.trans ht.2.2.2⟩)
    (fun f hf t _ => (State.clearField_clears (scopeFields_lt f hf) t).1)
    (fun e f hf t _ he => (State.clearField_clears (scopeFields_lt f hf) t).2 e he)
    (s := s) ⟨rfl, rfl, rfl, rfl⟩
  exact ⟨h1, h2⟩

/-! ### The end of a wipe: sessions -/

/-- Every open session is found under its id. -/
def State.slotsNamed (s : State) : Prop := ∀ j x, j < 4 → s.slot j = some x → s.session x.id = some (j, x)

/-- A session in a slot after the end of one stood there before. -/
theorem State.slot_of_endSession {s : State} {id : BitVec 32} {j : Nat} {x : Session} (h : (s.endSession id).slot j = some x) :
    s.slot j = some x := by
  cases he : s.session id with
  | none =>
    rw [State.slot_endSession, State.freeSession, he] at h
    exact h
  | some e =>
    obtain ⟨i, k⟩ := e
    by_cases hj : j = i
    · rw [hj, State.slot_endSession_self he] at h
      cases h
    · rwa [State.slot_endSession_ne he hj] at h

theorem slot_of_endSessions (l : List (BitVec 32)) {s : State} {j : Nat} {x : Session} (h : (l.foldl State.endSession s).slot j = some x) :
    s.slot j = some x := by
  induction l generalizing s with
  | nil => exact h
  | cons a l ih => exact State.slot_of_endSession (ih h)

/-- Sessions that are found under their ids still are once others have ended, and none that has ended is left. -/
theorem endSessions_named (l : List (BitVec 32)) {s : State} (hs : s.slotsNamed) : (l.foldl State.endSession s).slotsNamed ∧
    ∀ j x, j < 4 → (l.foldl State.endSession s).slot j = some x → x.id ∉ l := by
  have hout (j : Nat) (x : Session) (hj : j < 4) (hx : (l.foldl State.endSession s).slot j = some x) : x.id ∉ l := fun hl => by
    rw [endSessions_slot l (hs j x hj (slot_of_endSessions l hx)) hl] at hx
    cases hx
  exact ⟨fun j x hj hx => (endSessions_session_ne l (hout j x hj hx)).trans (hs j x hj (slot_of_endSessions l hx)), hout⟩

/-- No session that meets a test is left once those have ended. -/
theorem endSessionsWith_none {s : State} (hs : s.slotsNamed) (q : Session → Bool) {j : Nat} {x : Session} (hj : j < 4)
    (hx : ((s.sessionsWith q).foldl State.endSession s).slot j = some x) : q x = false := by
  by_contra hq
  exact (endSessions_named _ hs).2 j x hj hx (State.mem_sessionsWith.2 ⟨j, x, hj, slot_of_endSessions _ hx, by simpa using hq, rfl⟩)

/-- The end of a session takes its reads from the seats, and leaves the units, the stores, the counters and the rest of the host port. -/
structure Ended (s t : State) : Prop where
  units : UnitsKept s t
  host : t.host = { s.host with sessions := t.host.sessions }
  px : t.px = s.px
  store : t.store = s.store
  counters : t.counters = s.counters
  coord : t.coord = s.coord
  seat : ∀ j, (t.seatAt j).wiping = (s.seatAt j).wiping ∧ (t.seatAt j).vlog = (s.seatAt j).vlog

theorem Ended.refl (s : State) : Ended s s := ⟨UnitsKept.refl s, rfl, rfl, rfl, rfl, rfl, fun _ => ⟨rfl, rfl⟩⟩

theorem Ended.trans {r s t : State} (h : Ended r s) (g : Ended s t) : Ended r t :=
  ⟨h.units.trans g.units, by rw [g.host, h.host], g.px.trans h.px, g.store.trans h.store, g.counters.trans h.counters, g.coord.trans h.coord,
    fun j => ⟨(g.seat j).1.trans (h.seat j).1, (g.seat j).2.trans (h.seat j).2⟩⟩

theorem State.without_ended (s : State) (f : Nat) (id : BitVec 32) : Ended s (s.modSeat f (Seat.without id)) := by
  refine ⟨State.setSeat_unitsKept _ _ _, ?_, ?_, ?_, ?_, ?_, fun j => ?_⟩
  · rw [State.modSeat_host]
  · exact State.modSeat_px _ _ _
  · exact State.modSeat_store _ _ _
  · exact State.modSeat_counters _ _ _
  · exact State.modSeat_coord _ _ _
  · unfold State.modSeat
    by_cases hf : f < 4
    · rw [State.seatAt_setSeat hf]
      split
      next hj => rw [hj]; exact ⟨rfl, rfl⟩
      next => exact ⟨rfl, rfl⟩
    · rw [State.setSeat, if_neg hf]
      exact ⟨rfl, rfl⟩

theorem State.endSession_ended (s : State) (id : BitVec 32) : Ended s (s.endSession id) := by
  rw [State.endSession_eq]
  refine eachOf_keeps (Ended s) _ _ (fun f t ht => ht.trans (t.without_ended f id)) _ ?_
  unfold State.freeSession
  split
  · exact ⟨UnitsKept.of_eq rfl rfl rfl rfl, rfl, rfl, rfl, rfl, rfl, fun _ => ⟨rfl, rfl⟩⟩
  · exact Ended.refl s

theorem endSessions_ended (s : State) (l : List (BitVec 32)) : Ended s (l.foldl State.endSession s) :=
  List.foldlRecOn (motive := Ended s) l _ (Ended.refl s) fun t ht id _ => ht.trans (t.endSession_ended id)

/-- The end of sessions leaves memory, dumps, passes and counters. -/
theorem Ended.noMore {s t : State} (h : Ended s t) : NoMore s t := by
  obtain ⟨hm, -, -, hf⟩ := h.units
  exact NoMore.of_eq hm (fun f => by rw [hf f]) h.counters

theorem Ended.passes {s t : State} (h : Ended s t) (f : Nat) : (t.field f).hm.passes = (s.field f).hm.passes := by
  obtain ⟨-, -, -, hf⟩ := h.units
  rw [hf f]

theorem Ended.layout {s t : State} (h : Ended s t) : t.host.layout = s.host.layout := by rw [h.host]

/-! ### The end of a wipe: its partitions -/

/-- The logs of a partition are cleared, and its wipe is over; its tenants' sessions still stand. -/
def State.unwipe (s : State) (f : Nat) : State := (s.clearLogs f).modSeat f (fun k => { k with sealedBell := 0, wiping := false })

theorem State.unwipe_seatAt {s : State} {f : Nat} (hf : f < 4) (hi : s.seatIx f = f) (j : Nat) : ((s.unwipe f).seatAt j).wiping =
    (if j = f then false else (s.seatAt j).wiping) ∧ ((s.unwipe f).seatAt j).vlog = if j = f then [] else (s.seatAt j).vlog := by
  let u := s.modSeat f (fun k => { k with vlog := [], numlog := [], numHead := 0, numWrap := false })
  have hu : u.seatIx f = f := (State.seatIx_congr f (by simp [u])).trans hi
  have hat := State.seatAt_modSeat hf hi (fun k : Seat => { k with vlog := [], numlog := [], numHead := 0, numWrap := false })
  have e : (s.unwipe f).seatAt j = if j = f then { u.seatAt f with sealedBell := 0, wiping := false } else u.seatAt j :=
    State.seatAt_modSeat (s := s.clearLogs f) hf hu _ j
  have e0 : u.seatAt f = _ := hat f
  have e1 : u.seatAt j = _ := hat j
  rw [e, e0, e1, if_pos rfl]
  split
  · exact ⟨rfl, rfl⟩
  · exact ⟨rfl, rfl⟩

theorem State.unwipe_rest (s : State) (f : Nat) : NoMore s (s.unwipe f) ∧ (s.unwipe f).host = s.host ∧ (s.unwipe f).px = s.px ∧
    (s.unwipe f).store = s.store ∧ (s.unwipe f).coord = s.coord := by
  unfold State.unwipe State.clearLogs
  dsimp only
  refine ⟨⟨by simp [State.setCounter], fun e => ?_, fun a ha => ?_⟩, by simp [State.setCounter], by simp [State.setCounter],
    by simp [State.setCounter], by simp [State.setCounter]⟩
  · rw [State.modSeat, State.field_setSeat]
    exact congrArg (fun x : Field => x.hm.dumps) (State.field_setSeat _ _ _ _)
  · rw [State.counter, State.modSeat_counters]
    refine (State.counter_setCounter _ _ _ a).trans ?_
    split
    · rfl
    · rw [State.counter, State.modSeat_counters]
      exact ha

/-- What the end of a wipe leaves where it clears partitions. -/
structure PartsCleared (s t : State) : Prop where
  noMore : NoMore s t
  layout : t.host.layout = s.host.layout
  px : t.px = s.px
  named : s.slotsNamed → t.slotsNamed ∧ ∀ id i k, s.session id = some (i, k) → k.owner = true → t.session id = some (i, k)

theorem State.clearPart_step {s : State} {f : Nat} (hf : f < 4) (hi : s.seatIx f = f) : PartsCleared s (s.clearPart f) ∧
    ∀ j, ((s.clearPart f).seatAt j).wiping = (if j = f then false else (s.seatAt j).wiping) ∧
      ((s.clearPart f).seatAt j).vlog = if j = f then [] else (s.seatAt j).vlog := by
  let q := BitVec.ofNat 3 (s.partOf f)
  have e : s.clearPart f = (s.unwipe f).endTenants q := rfl
  have he : Ended (s.unwipe f) ((s.unwipe f).endTenants q) := endSessions_ended _ _
  obtain ⟨hn, hh, hp, -, -⟩ := s.unwipe_rest f
  have hsess (id : BitVec 32) : (s.unwipe f).session id = s.session id := State.session_congr _ (by rw [hh])
  have hslot (j : Nat) : (s.unwipe f).slot j = s.slot j := by unfold State.slot; rw [hh]
  rw [e]
  refine ⟨⟨hn.trans he.noMore, he.layout.trans (by rw [hh]), he.px.trans hp, fun hs => ?_⟩, fun j => ?_⟩
  · have hs' : (s.unwipe f).slotsNamed := fun j x hj hx => (hsess x.id).trans (hs j x hj ((hslot j).symm.trans hx))
    exact ⟨(endSessions_named _ hs').1, fun id i k hid ho =>
      (endTenants_owner (p := q) ((hsess id).trans hid) ho fun j x hj hx _ => hs' j x hj hx).1⟩
  · obtain ⟨h1, h2⟩ := he.seat j
    obtain ⟨h3, h4⟩ := State.unwipe_seatAt hf hi j
    exact ⟨h1.trans h3, h2.trans h4⟩

/-- Every partition of a wipe's scope is cleared. -/
theorem State.clearParts_step (s : State) (l : List Nat) (hl : ∀ f ∈ l, f < 4 ∧ s.seatIx f = f) :
    PartsCleared s (eachOf l (fun f t => t.clearPart f) s) ∧
    ∀ f ∈ l, ((eachOf l (fun f t => t.clearPart f) s).seatAt f).wiping = false ∧ ((eachOf l (fun f t => t.clearPart f) s).seatAt f).vlog = [] := by
  have hix {t : State} (ht : PartsCleared s t) (f : Nat) (hf : f ∈ l) : t.seatIx f = f := (State.seatIx_congr f ht.layout).trans (hl f hf).2
  obtain ⟨h1, h2, -⟩ := eachOf_gives (I := PartsCleared s) (Q := fun f t => (t.seatAt f).wiping = false ∧ (t.seatAt f).vlog = [])
    (g := fun f t => t.clearPart f) l
    (fun f hf t ht => by
      obtain ⟨h, -⟩ := State.clearPart_step (hl f hf).1 (hix ht f hf)
      refine ⟨ht.noMore.trans h.noMore, h.layout.trans ht.layout, h.px.trans ht.px, fun hs => ?_⟩
      obtain ⟨n1, o1⟩ := ht.named hs
      obtain ⟨n2, o2⟩ := h.named n1
      exact ⟨n2, fun id i k hid ho => o2 id i k (o1 id i k hid ho) ho⟩)
    (fun f hf t ht => by
      obtain ⟨-, h⟩ := State.clearPart_step (hl f hf).1 (hix ht f hf)
      simpa using h f)
    (fun e f hf t ht he => by
      obtain ⟨-, h⟩ := State.clearPart_step (hl f hf).1 (hix ht f hf)
      obtain ⟨hw, hv⟩ := h e
      rw [hw, hv, he.1, he.2]
      simp)
    (s := s) ⟨⟨rfl, fun _ => rfl, fun _ h => h⟩, rfl, rfl, fun hs => ⟨hs, fun _ _ _ h _ => h⟩⟩
  exact ⟨h1, h2⟩

/-! ### The end of a wipe: what follows -/

/-- What the last steps of a wipe leave: memory, dumps and counters, the state of the wipe and the passes held. -/
structure WipeLeft (s t : State) : Prop where
  noMore : NoMore s t
  wipes : t.px.wipes = s.px.wipes
  stage : t.px.wStage = s.px.wStage
  pending : t.store.wipePending = s.store.wipePending
  passes : ∀ f, (t.field f).hm.passes = (s.field f).hm.passes
  coord : t.coord = s.coord

theorem WipeLeft.trans {r s t : State} (h : WipeLeft r s) (g : WipeLeft s t) : WipeLeft r t :=
  ⟨h.noMore.trans g.noMore, g.wipes.trans h.wipes, g.stage.trans h.stage, g.pending.trans h.pending,
    fun f => (g.passes f).trans (h.passes f), g.coord.trans h.coord⟩

theorem Ended.wipeLeft {s t : State} (h : Ended s t) : WipeLeft s t :=
  ⟨h.noMore, by rw [h.px], by rw [h.px], by rw [h.store], h.passes, h.coord⟩

/-- The beginning of dumps leaves all but what the fields collect and the resets that wait for it. -/
structure DumpsBegun (s t : State) : Prop where
  eq : t = { s with fields := t.fields, px := { s.px with resets := t.px.resets } }
  hm : ∀ f, (t.field f).hm.dumps = (s.field f).hm.dumps ∧ (t.field f).hm.passes = (s.field f).hm.passes

theorem DumpsBegun.trans {r s t : State} (h : DumpsBegun r s) (g : DumpsBegun s t) : DumpsBegun r t := by
  refine ⟨?_, fun f => ⟨(g.hm f).1.trans (h.hm f).1, (g.hm f).2.trans (h.hm f).2⟩⟩
  rw [g.eq, h.eq]

theorem State.modHm_dumpsBegun (s : State) (f : Nat) (g : Hm → Hm) (hg : ∀ h, (g h).dumps = h.dumps ∧ (g h).passes = h.passes := by exact fun _ => ⟨rfl, rfl⟩) : DumpsBegun s (s.modHm f g) := by
  unfold State.modHm
  by_cases hf : f < 4
  · refine ⟨?_, fun e => ?_⟩
    · unfold State.setField
      rw [if_pos hf]
    · by_cases he : e = f
      · rw [he, State.field_setField_self _ _ hf]
        exact hg _
      · rw [State.field_setField_ne _ _ he]
        exact ⟨rfl, rfl⟩
  · unfold State.setField
    rw [if_neg hf]
    exact ⟨rfl, fun _ => ⟨rfl, rfl⟩⟩

theorem State.startResetDumps_begun (s : State) : DumpsBegun s s.startResetDumps := by
  refine List.foldlRecOn (motive := DumpsBegun s) _ _ ⟨rfl, fun _ => ⟨rfl, rfl⟩⟩ fun t ht w _ => ht.trans ?_
  split
  · exact ⟨rfl, fun _ => ⟨rfl, rfl⟩⟩
  · have h : DumpsBegun t (t.startDump w.fields w.part (rungCause w.rung) (defaultRecipe w.fields) none) := by
      unfold State.startDump
      dsimp only
      exact eachOf_keeps (DumpsBegun t) _ _ (fun f u hu => hu.trans (u.modHm_dumpsBegun f _)) t
        ⟨rfl, fun _ => ⟨rfl, rfl⟩⟩
    exact h.trans ⟨rfl, fun _ => ⟨rfl, rfl⟩⟩

theorem DumpsBegun.wipeLeft {s t : State} (h : DumpsBegun s t) : WipeLeft s t :=
  ⟨NoMore.of_eq (by rw [h.eq]) (fun f => (h.hm f).1) (by rw [h.eq]), by rw [h.eq], by rw [h.eq], by rw [h.eq], fun f => (h.hm f).2, by rw [h.eq]⟩

theorem endPartitions_ended (s : State) (ps : List (BitVec 3)) : Ended s (ps.foldl State.endPartition s) :=
  List.foldlRecOn (motive := Ended s) ps _ (Ended.refl s) fun t ht _ _ => ht.trans (endSessions_ended t _)

/-- A layout put in force, and its request answered. -/
def State.relaid (s : State) (codes : BitVec 12) (r : Req) : State :=
  ({ s with host := { s.host with layout := codes } }).respond r stOk

/-- The partitions that a layout changes. -/
def State.changedParts (s : State) (codes : BitVec 12) : List (BitVec 3) :=
  (s.heads (s.changed codes)).map (fun f => BitVec.ofNat 3 (s.partOf f))

section
variable (s : State) {w : WipeJob}

theorem State.afterWipe_request (h : w.why = .request) : s.afterWipe w = s := by unfold State.afterWipe; rw [h]

theorem State.afterWipe_sealing (h : w.why = .sealing) : s.afterWipe w = (s.keep (fun x => { x with sealed := true })).endAllTenants := by
  unfold State.afterWipe; rw [h]

theorem State.afterWipe_layout {codes : BitVec 12} {r : Req} (h : w.why = .layout codes r) :
    let c := mergeLayout s.host.layout codes (scopeFields w.scope)
    s.afterWipe w = (s.changedParts c).foldl State.endPartition (s.relaid c r) := by
  unfold State.afterWipe; rw [h]; rfl

theorem State.relaid_left (codes : BitVec 12) (r : Req) : WipeLeft s (s.relaid codes r) := by
  unfold State.relaid
  exact ⟨NoMore.of_eq (by simp) (fun f => by rw [State.respond_field]; rfl) (by simp), by simp, by simp, by simp,
    fun f => by rw [State.respond_field]; rfl, by rw [State.respond_eq]⟩

/-- What follows a wipe leaves memory, dumps, counters, passes and the other wipes. -/
theorem State.afterWipe_left : WipeLeft s (s.afterWipe w) := by
  have hrefl : WipeLeft s s := (Ended.refl s).wipeLeft
  cases h : w.why with
  | request => rwa [s.afterWipe_request h]
  | layout codes r =>
    rw [s.afterWipe_layout h]
    exact (s.relaid_left _ r).trans (endPartitions_ended _ _).wipeLeft
  | sealing =>
    rw [s.afterWipe_sealing h]
    exact WipeLeft.trans (s := s.keep (fun x => { x with sealed := true })) ⟨NoMore.of_eq rfl (fun _ => rfl) rfl, rfl, rfl, rfl, fun _ => rfl, rfl⟩
      (endSessions_ended _ _).wipeLeft
  | unlock =>
    unfold State.afterWipe
    rw [h]
    exact ⟨NoMore.of_eq rfl (fun _ => rfl) rfl, rfl, rfl, rfl, fun _ => rfl, rfl⟩

end

/-- A response leaves every session under its id. -/
theorem State.respond_named {s : State} (hs : s.slotsNamed) (r : Req) (st : BitVec 16) (d : BitVec 64) (b : Body) :
    (s.respond r st d b).slotsNamed := by
  intro j x hj hx
  cases h : s.session r.sess with
  | none =>
    have e : s.respond r st d b = s := by unfold State.respond; rw [h]
    rw [e] at hx ⊢
    exact hs j x hj hx
  | some p =>
    obtain ⟨i, k⟩ := p
    obtain ⟨-, hk, hid⟩ := State.session_some h
    rw [State.session_congr _ (State.respond_session h st d b)]
    by_cases hji : j = i
    · rw [hji, State.respond_slot_self h] at hx
      cases hx
      rw [hji]
      exact State.session_setSlot _ (by rw [← h]; exact congrArg _ hid) rfl
    · rw [State.respond_slot_ne h hji] at hx
      have hne : r.sess ≠ x.id := fun hne => by
        have hxs := hs j x hj hx
        rw [← hne, h] at hxs
        cases hxs
        exact hji rfl
      rw [State.session_setSlot_ne (fun m hm => ?_) (fun m hm => ?_)]
      · exact hs j x hj hx
      · rw [hk] at hm
        cases hm
        rwa [hid]
      · cases hm
        exact fun hx' => hne (hid.symm.trans hx')

/-- No session bound to one of the partitions of a list is left once their sessions have ended. -/
theorem endPartitions_none (ps : List (BitVec 3)) {s : State} (hs : s.slotsNamed) {j : Nat} {x : Session} (hj : j < 4)
    (hx : (ps.foldl State.endPartition s).slot j = some x) (hb : x.bound = true) : x.part ∉ ps ∧ s.slot j = some x := by
  induction ps generalizing s with
  | nil => exact ⟨List.not_mem_nil, hx⟩
  | cons p ps ih =>
    obtain ⟨hps, hp⟩ := ih (s := s.endPartition p) (endSessions_named _ hs).1 hx
    have hq := endSessionsWith_none hs (fun k => k.bound && k.part == p) hj hp
    rw [hb, Bool.true_and, beq_eq_false_iff_ne] at hq
    exact ⟨by simp [hq, hps], slot_of_endSessions _ hp⟩

/-- The end of a wipe's pass takes it from every field of its scope, or from the coordinator. -/
theorem State.endWipePass_step (s : State) (p : BitVec 3) : NoMore s (s.endWipePass p) ∧ (s.endWipePass p).host = s.host ∧
    (s.endWipePass p).px = s.px ∧ (s.endWipePass p).store = s.store ∧ (s.endWipePass p).seats = s.seats ∧
    (p ≠ 7 → ∀ f ∈ scopeFields p, Tab.find ((s.endWipePass p).field f).hm.passes 33 = none) ∧
    (p = 7 → Tab.find (s.endWipePass p).coord.passes 33 = none) := by
  unfold State.endWipePass
  by_cases hp : p = 7
  · rw [if_pos hp]
    exact ⟨NoMore.of_eq rfl (fun _ => rfl) rfl, rfl, rfl, rfl, rfl, fun h => absurd hp h, fun _ => Tab.find_erase_self _ _⟩
  · rw [if_neg hp]
    obtain ⟨⟨h1, h2, h3, h4, h5⟩, hq, -⟩ := eachOf_gives
      (I := fun t => NoMore s t ∧ t.host = s.host ∧ t.px = s.px ∧ t.store = s.store ∧ t.seats = s.seats)
      (Q := fun f t => Tab.find (t.field f).hm.passes 33 = none)
      (g := fun f t => t.modHm f (fun h => { h with passes := Tab.erase h.passes 33 })) (scopeFields p)
      (fun f hf t ht => by
        obtain ⟨h1, h2, h3, h4, h5⟩ := ht
        refine ⟨h1.trans (NoMore.of_eq (by simp) (fun e => ?_) (by simp)), by simp [h2], by simp [h3], by simp [h4], by simp [h5]⟩
        rw [State.field_modHm (scopeFields_lt f hf)]
        split
        next he => rw [he]
        next => rfl)
      (fun f hf t _ => by
        rw [State.field_modHm (scopeFields_lt f hf), if_pos rfl]
        exact Tab.find_erase_self _ _)
      (fun e f hf t _ h => by
        rw [State.field_modHm (scopeFields_lt f hf)]
        split
        · exact Tab.find_erase_self _ _
        · exact h)
      (s := s) ⟨NoMore.of_eq rfl (fun _ => rfl) rfl, rfl, rfl, rfl, rfl⟩
    exact ⟨h1, h2, h3, h4, h5, fun _ => hq, fun h => absurd h hp⟩

/-- What the end of a wipe leaves before what follows it: the scope is clear, its partitions are no longer wiped, the wipe is off the list and its
pass returned. -/
structure WipeDone (s : State) (p : BitVec 3) (w : WipeJob) (u : State) : Prop where
  clear : ∀ f ∈ scopeFields p, u.fieldClear f
  wipes : u.px.wipes = s.px.wipes.filter (fun x => x != w)
  idle : (∀ x ∈ s.px.wipes, x ≠ w → x.started = false) → u.px.wStage = 0 ∧ u.store.wipePending = false
  layout : u.host.layout = s.host.layout
  seat : ∀ f ∈ scopeFields p, s.seatIx f = f → (u.seatAt f).wiping = false ∧ (u.seatAt f).vlog = []
  passes : p ≠ 7 → ∀ f ∈ scopeFields p, Tab.find (u.field f).hm.passes 33 = none
  coord : p = 7 → Tab.find u.coord.passes 33 = none
  named : s.slotsNamed → u.slotsNamed ∧ ∀ id i k, s.session id = some (i, k) → k.owner = true → u.session id = some (i, k)

/-- The end of a wipe under way, up to what follows it. -/
def State.wipeDone (s : State) (p : BitVec 3) (w : WipeJob) : State :=
  let fs := scopeFields p
  let s := eachOf fs (fun f t => t.clearField f) s
  let s := eachOf (s.heads fs) (fun f t => t.clearPart f) s
  let s := if p = 7 then { s with host := { s.host with modVlog := [], modVdrop := 0 } } else s
  s.finishWipe p (s.px.wipes.filter (fun x => x != w))

theorem State.wipeDone_done (s : State) (p : BitVec 3) (w : WipeJob) : WipeDone s p w (s.wipeDone p w) := by
  obtain ⟨⟨s1, h1, p1, t1⟩, c1⟩ := s.clearFields_step p
  generalize e1 : eachOf (scopeFields p) (fun f t => t.clearField f) s = u1 at s1 h1 p1 t1 c1
  have hix (f : Nat) : u1.seatIx f = s.seatIx f := State.seatIx_congr f (by rw [h1])
  have hheads : ∀ f ∈ u1.heads (scopeFields p), f < 4 ∧ u1.seatIx f = f := fun f hf => by
    obtain ⟨hf, hi⟩ := List.mem_filter.1 hf
    exact ⟨scopeFields_lt f hf, by simpa using hi⟩
  obtain ⟨k2, w2⟩ := u1.clearParts_step (u1.heads (scopeFields p)) hheads
  generalize e2 : eachOf (u1.heads (scopeFields p)) (fun f t => t.clearPart f) u1 = u2 at k2 w2
  let u3 : State := if p = 7 then { u2 with host := { u2.host with modVlog := [], modVdrop := 0 } } else u2
  have hu3 : NoMore u2 u3 ∧ u3.host.layout = u2.host.layout ∧ u3.host.sessions = u2.host.sessions ∧ u3.px = u2.px ∧ u3.seats = u2.seats := by
    dsimp only [u3]
    split
    · exact ⟨NoMore.of_eq rfl (fun _ => rfl) rfl, rfl, rfl, rfl, rfl⟩
    · exact ⟨NoMore.of_eq rfl (fun _ => rfl) rfl, rfl, rfl, rfl, rfl⟩
  obtain ⟨n3, l3, ss3, p3, s3⟩ := hu3
  let left := u3.px.wipes.filter (fun x => x != w)
  let run := left.any (fun w => w.started)
  let u4 : State := { u3 with px := { u3.px with wipes := left, wStage := if run then u3.px.wStage else 0, wPercent := if run then u3.px.wPercent else 100 } }.keep
    (fun x => { x with wipePending := run })
  have e : s.wipeDone p w = u4.endWipePass p := by
    unfold State.wipeDone
    dsimp only
    rw [e1, e2]
    rfl
  obtain ⟨n5, h5, p5, t5, s5, q5, c5⟩ := u4.endWipePass_step p
  rw [e]
  have hleft : left = s.px.wipes.filter (fun x => x != w) := by
    dsimp only [left]
    rw [p3, k2.px, p1]
  have hsess : (u4.endWipePass p).host.sessions = u2.host.sessions := (congrArg HostPort.sessions h5).trans ss3
  have hslot (j : Nat) : (u4.endWipePass p).slot j = u2.slot j := by unfold State.slot; rw [hsess]
  refine ⟨fun f hf => ?_, ?_, fun h => ?_, ?_, fun f hf hi => ?_, q5, c5, fun hs => ?_⟩
  · exact ((k2.noMore.trans n3).trans (NoMore.trans (s := u4) (NoMore.of_eq rfl (fun _ => rfl) rfl) n5)).fieldClear (c1 f hf)
  · rw [p5]
    exact hleft
  · have hrun : run = false := by
      dsimp only [run]
      rw [hleft, List.any_eq_false]
      intro x hx
      obtain ⟨hx, hne⟩ := List.mem_filter.1 hx
      rw [h x hx (by simpa using hne)]
      decide
    rw [p5, t5]
    refine ⟨?_, hrun⟩
    show (if run = true then u3.px.wStage else 0) = 0
    rw [hrun]
    rfl
  · exact (congrArg HostPort.layout h5).trans (l3.trans (k2.layout.trans (by rw [h1])))
  · rw [State.seatAt_congr (s5.trans s3)]
    exact w2 f (List.mem_filter.2 ⟨hf, by simpa [hix] using hi⟩)
  · have hs1 : u1.slotsNamed := fun j x hj hx => by
      have hsl : s.slot j = some x := by unfold State.slot at hx ⊢; rwa [h1] at hx
      exact (State.session_congr x.id (congrArg HostPort.sessions h1)).trans (hs j x hj hsl)
    obtain ⟨n2, o2⟩ := k2.named hs1
    refine ⟨fun j x hj hx => ?_, fun id i k hid ho => ?_⟩
    · rw [State.session_congr _ hsess]
      exact n2 j x hj ((hslot j).symm.trans hx)
    · rw [State.session_congr _ hsess]
      exact o2 id i k ((State.session_congr _ (by rw [h1])).trans hid) ho

/-- A wipe under way ends. -/
theorem execWipeLpddrDone_ends {s : State} {p : BitVec 3} {w : WipeJob} (hw : s.px.wipes.find? (fun x => x.scope == p && x.started) = some w) :
    exec (.wipeLpddrDone p) s = .next (((s.wipeDone p w).afterWipe w).startResetDumps) := by
  show Host.Outcome.next (execWipeLpddrDone p s) = _
  rw [execWipeLpddrDone, hw]
  rfl

/-- What the end of a wipe leaves after what follows it, whatever that is. -/
theorem State.afterWipe_clear {s u : State} {p : BitVec 3} {w : WipeJob} (h : WipeDone s p w u) : let t := (u.afterWipe w).startResetDumps
    (∀ f ∈ scopeFields p, t.fieldClear f) ∧ t.px.wipes = s.px.wipes.filter (fun x => x != w) ∧
    ((∀ x ∈ s.px.wipes, x ≠ w → x.started = false) → t.px.wStage = 0 ∧ t.store.wipePending = false) ∧
    (p ≠ 7 → ∀ f ∈ scopeFields p, Tab.find (t.field f).hm.passes 33 = none) ∧ (p = 7 → Tab.find t.coord.passes 33 = none) := by
  have hl : WipeLeft u _ := u.afterWipe_left.trans (u.afterWipe w).startResetDumps_begun.wipeLeft
  refine ⟨fun f hf => hl.noMore.fieldClear (h.clear f hf), hl.wipes.trans h.wipes, fun hx => ?_, fun hp f hf => ?_, fun hp => ?_⟩
  · obtain ⟨h1, h2⟩ := h.idle hx
    exact ⟨hl.stage.trans h1, hl.pending.trans h2⟩
  · rw [hl.passes]
    exact h.passes hp f hf
  · rw [hl.coord]
    exact h.coord hp

/-- The sealed state that a wipe ends in keeps the owner's session alone. -/
theorem State.afterWipe_seals {s u : State} {p : BitVec 3} {w : WipeJob} (h : WipeDone s p w u) (hw : w.why = .sealing) :
    (u.afterWipe w).store.sealed = true ∧
    (s.slotsNamed → ∀ j x, j < 4 → (u.afterWipe w).slot j = some x → x.owner = true) := by
  rw [u.afterWipe_sealing hw]
  let v := u.keep (fun x => { x with sealed := true })
  refine ⟨?_, fun hs j x hj hx => ?_⟩
  · exact congrArg Store.sealed (endSessions_ended v _).store
  · have hv : v.slotsNamed := (h.named hs).1
    simpa using endSessionsWith_none hv (fun k => !k.owner) hj hx

theorem State.afterWipe_unlocks {u : State} {w : WipeJob} (hw : w.why = .unlock) : (u.afterWipe w).px.factoryOpened = true ∧
    (u.afterWipe w).px.secrets = false ∧ (u.afterWipe w).store.owner = none ∧ (u.afterWipe w).store.sealed = false ∧
    (u.afterWipe w).host.grants = [] := by
  unfold State.afterWipe
  rw [hw]
  exact ⟨rfl, rfl, rfl, rfl, rfl⟩

theorem State.relaid_layout (s : State) (codes : BitVec 12) (r : Req) : (s.relaid codes r).host.layout = codes := by
  unfold State.relaid
  rw [State.respond_layout]

/-- A layout that a wipe brings: no session of a changed partition is left, and its request is answered. -/
theorem State.afterWipe_relays {s u : State} {p : BitVec 3} {w : WipeJob} (h : WipeDone s p w u) {codes : BitVec 12} {r : Req}
    (hp : w.scope = p) (hw : w.why = .layout codes r) : let c := mergeLayout s.host.layout codes (scopeFields p)
    (u.afterWipe w).host.layout = c ∧
    (s.slotsNamed → ∀ j x, j < 4 → (u.afterWipe w).slot j = some x → x.bound = true →
      ∀ f ∈ s.changed c, s.seatIx f = f → x.part ≠ BitVec.ofNat 3 (s.partOf f)) ∧
    ∀ i k, s.session r.sess = some (i, k) → k.owner = true → k.gen2 = false → s.slotsNamed → Answered (u.afterWipe w) r stOk 0 .empty := by
  have e := u.afterWipe_layout hw
  dsimp only at e
  rw [hp, h.layout] at e
  dsimp only
  generalize mergeLayout s.host.layout codes (scopeFields p) = c at e ⊢
  have hd := endPartitions_ended (u.relaid c r) (u.changedParts c)
  rw [e]
  refine ⟨hd.layout.trans (u.relaid_layout c r), fun hs j x hj hx hb f hf hi heq => ?_, fun i k hk ho hg hs => ?_⟩
  · have hn : (u.relaid c r).slotsNamed := State.respond_named (s := { u with host := { u.host with layout := c } }) (h.named hs).1 _ _ _ _
    refine (endPartitions_none _ hn hj hx hb).1 ?_
    have hpart (g : Nat) : u.partOf g = s.partOf g := by unfold State.partOf; rw [h.layout]
    refine List.mem_map.2 ⟨f, List.mem_filter.2 ⟨?_, ?_⟩, by rw [hpart, heq]⟩
    · unfold State.changed at hf ⊢
      simpa only [hpart] using hf
    · rw [State.seatIx_congr f h.layout, hi]
      exact beq_self_eq_true f
  · have hk' : ({ u with host := { u.host with layout := c } } : State).session r.sess = some (i, k) := (h.named hs).2 r.sess i k hk ho
    obtain ⟨y, rest, hy, hy'⟩ := State.respond_answered hk' hg stOk 0 .empty
    refine ⟨y, rest, ?_, hy'⟩
    rw [hd.host]
    exact hy

/-- Settles O46: what stops a wipe's cores, seats and links leaves bell counts and key epochs, and what follows the zeroing of LPDDR leaves memory,
dumps, counters and passes. -/
theorem wipesClearTheirScope : Obligations.WipesClearTheirScope := by
  unfold Obligations.WipesClearTheirScope
  intro s p w
  refine ⟨fun hn => ?_, fun hn => ?_, execWipeStart_starts, fun hw => ⟨_, execWipeLpddrDone_ends hw, ?_⟩⟩
  · show Host.Outcome.next (execWipeStart p s) = _
    rw [execWipeStart, hn]
  · show Host.Outcome.next (execWipeLpddrDone p s) = _
    rw [execWipeLpddrDone, hn]
  have h := s.wipeDone_done p w
  have hp := find_wipe hw
  obtain ⟨hclear, hwipes, hidle, hpass, hcoord⟩ := State.afterWipe_clear h
  obtain ⟨heq, -⟩ := ((s.wipeDone p w).afterWipe w).startResetDumps_begun
  refine ⟨hclear, hwipes, hidle, fun hy => ?_, fun hy => ?_, fun hy => ?_, hpass, hcoord, fun codes r hy => ?_, fun codes r i k hy => ?_⟩
  · rw [heq, State.afterWipe_request _ hy]
    refine ⟨h.layout, fun f hf hi => ?_⟩
    have hix : (s.wipeDone p w).seatIx f = f := (State.seatIx_congr f h.layout).trans hi
    exact State.seat_eq_seatAt hix ▸ h.seat f hf hi
  · rw [heq]
    exact State.afterWipe_seals h hy
  · rw [heq]
    exact State.afterWipe_unlocks hy
  · rw [heq]
    exact (State.afterWipe_relays h hp hy).2.1
  · rw [heq]
    obtain ⟨hl, -, ha⟩ := State.afterWipe_relays h hp hy
    exact ⟨hl, fun hk ho hg hs => ha i k hk ho hg hs⟩

end Sys2Proof.Machine
end

section
/-! Committed and mirror reads (R273 to R276, R350), and O39. -/

namespace Sys2Proof.Machine

theorem State.planned_none {v : State} {r : Req} {go : Plan → State → State} (h : (v.seat (reqField r)).plan = none) :
    v.planned r go = v.respond r stNoPlan := by
  unfold State.planned
  rw [h]

theorem State.planned_some {v : State} {r : Req} {go : State → State} (h : (v.seat (reqField r)).plan.isSome = true) :
    v.planned r (fun _ => go) = go v := by
  obtain ⟨p, hp⟩ := Option.isSome_iff_exists.1 h
  unfold State.planned
  rw [hp]

/-! ### READ_OPEN -/

@[simp] theorem State.admitted_readsOf (s : State) (r : Req) (k : Session) (id : BitVec 32) : (s.admitted r k).readsOf id = s.readsOf id := by
  simp [State.readsOf]

/-- What an OPEN that opens a read leaves of the seat. -/
def Opened (s : State) (r : Req) (g : Nat) (imm mir hist : Bool) (step : BitVec 64) (t : State) : Prop :=
  (t.seat g).nextRead = (s.seat g).nextRead + 1 ∧ (t.seat g).reads = (s.seat g).reads ++
    [{ id := (s.seat g).nextRead, sess := r.sess, immediate := imm, mirror := mir, history := hist, step := step }]

/-- The body that answers an OPEN. -/
def State.openWords (s : State) (g : Nat) (mir hist : Bool) (step : BitVec 64) : Body := .words [BitVec.ofNat 64 (s.seat g).nextRead, step,
  BitVec.ofNat 64 ((s.seat g).readLen mir hist), BitVec.ofNat 64 (b2n (mir && (s.seatFields g).any (fun x => (s.field x).lb.selfChecked)))]

section
variable {s : State} {r : Req} {i : Nat} {k : Session}

theorem Heard.mirrorHeld {cls cmd : Nat} {x : Rights} (h : Heard s r i k cls cmd x) (f : Nat) : (s.admitted r k).mirrorHeld f = s.mirrorHeld f := by
  have e (g : Nat) : ((s.admitted r k).field g).lb = (s.field g).lb := (h.field_parts g).2.1
  simp [State.mirrorHeld, e]

/-- What an open read leaves. -/
theorem State.openRead_opens {v : State} {f : Nat} (hf : f < 4) (imm mir hist : Bool) (step : BitVec 64) :
    UnitsKept v (v.openRead f r imm mir hist step) ∧
    ((v.openRead f r imm mir hist step).seat f) = { v.seat f with nextRead := (v.seat f).nextRead + 1, reads := (v.seat f).reads ++
      [{ id := (v.seat f).nextRead, sess := r.sess, immediate := imm, mirror := mir, history := hist, step := step }] } := by
  unfold State.openRead
  dsimp only
  refine ⟨(State.setSeat_unitsKept _ _ _).trans (State.respond_unitsKept _ _ _ _ _), ?_⟩
  rw [State.respond_seat, State.seat_setSeat_self _ _ hf]

/-- An open read answers OK with READ_ID, step, length and SELF_CHECKED. -/
theorem openRead_does {c : Instr} {v : State} {f : Nat} (imm mir hist : Bool) (step : BitVec 64) {p : State → Prop}
    (e : exec c s = .next (v.openRead f r imm mir hist step)) (ha : v.answers r) (hp : p (v.openRead f r imm mir hist step)) :
    Does c s r stOk 0 (.words [BitVec.ofNat 64 (v.seat f).nextRead, step, BitVec.ofNat 64 ((v.seat f).readLen mir hist),
      BitVec.ofNat 64 (b2n (mir && (v.seatFields f).any (fun x => (v.field x).lb.selfChecked)))]) p :=
  does_respond (u := v.setSeat f _) e (State.answers_congr (by simp) ha) hp

section
variable {imm mir hist : Bool} (h : Admitted s r i k 5 1 .bound)
include h

theorem readOpen_basic (hx : r.expert = false) (hu : imm = true ∨ mir = true ∨ hist = true) :
    Replies (.readOpen r imm mir hist) s r stBadField s.freshWord .empty := by
  refine h.heard.badField ((h.exec_go rfl).trans ?_)
  unfold doReadOpen
  rw [show (imm || mir || hist) = true by rcases hu with rfl | rfl | rfl <;> simp, State.expertOnly_refuses hx]

variable (hx : r.expert = true ∨ imm = false ∧ mir = false ∧ hist = false)
include hx

theorem readOpen_noPlan (hp : (s.seat (reqField r)).plan = none) : Replies (.readOpen r imm mir hist) s r stNoPlan 0 .empty := by
  refine replies_heard h.heard ((h.exec_go rfl).trans ?_)
  unfold doReadOpen
  rw [State.expertOnly_goes (hx.imp_right (by rintro ⟨rfl, rfl, rfl⟩; rfl)), State.planned_none (by rwa [State.admitted_seat])]

theorem exec_readOpen (hp : (s.seat (reqField r)).plan.isSome = true) : exec (.readOpen r imm mir hist) s = .next (
    let u := s.admitted r k
    if (s.seat (reqField r)).cm.seatState ≠ 4 then u.respond r stNotSeated ((s.seat (reqField r)).cm.seatState.setWidth 64)
    else if 8 ≤ s.readsOf r.sess then u.respond r stBusy
    else if r.expert ∧ (s.seat (reqField r)).cm.clipDue then u.respond r stHeld (s.seat (reqField r)).cm.committed
    else if mir then
      (if !s.mirrorHeld (reqField r) ∨ (hist ∧ ((s.seat (reqField r)).historyAt true (s.field (reqField r)).lb.mirrorFor).isNone)
       then u.respond r stWrongState (s.wrongDetail (reqField r))
       else u.openRead (reqField r) r false true hist (s.field (reqField r)).lb.mirrorFor)
    else if imm then
      (if (s.seat (reqField r)).noShard then u.respond r stWrongState (s.wrongDetail (reqField r))
       else u.openRead (reqField r) r true false hist (s.seat (reqField r)).cm.committed)
    else u.modSeat (reqField r) (fun k => { k with waits := k.waits ++ [{ req := r, history := hist }] })) := by
  rw [h.exec_go rfl]
  unfold doReadOpen
  have e : ((s.admitted r k).field (reqField r)).lb = (s.field (reqField r)).lb := (h.heard.field_parts _).2.1
  rw [State.expertOnly_goes (hx.imp_right (by rintro ⟨rfl, rfl, rfl⟩; rfl)), State.planned_some (by rwa [State.admitted_seat])]
  dsimp only
  rw [State.admitted_seat, State.admitted_readsOf, h.heard.mirrorHeld, State.admitted_wrongDetail, e]

variable (hp : (s.seat (reqField r)).plan.isSome = true)
include hp

theorem readOpen_notSeated (hs : (s.seat (reqField r)).cm.seatState ≠ 4) :
    Replies (.readOpen r imm mir hist) s r stNotSeated ((s.seat (reqField r)).cm.seatState.setWidth 64) .empty :=
  replies_heard h.heard (by rw [exec_readOpen h hx hp, if_pos hs])

variable (hs : (s.seat (reqField r)).cm.seatState = 4)
include hs

theorem readOpen_busy (hn : 8 ≤ s.readsOf r.sess) : Replies (.readOpen r imm mir hist) s r stBusy 0 .empty :=
  replies_heard h.heard (by rw [exec_readOpen h hx hp, if_neg (not_not.2 hs), if_pos hn])

variable (hn : s.readsOf r.sess < 8)
include hn

theorem readOpen_held (hr : r.expert = true) (hd : (s.seat (reqField r)).cm.clipDue = true) :
    Replies (.readOpen r imm mir hist) s r stHeld (s.seat (reqField r)).cm.committed .empty :=
  replies_heard h.heard (by rw [exec_readOpen h hx hp, if_neg (not_not.2 hs), if_neg (Nat.not_le.2 hn), if_pos ⟨hr, hd⟩])

variable (ho : r.expert = false ∨ (s.seat (reqField r)).cm.clipDue = false)
include ho

/-- An OPEN that no correction holds. -/
theorem exec_readOpen_free : exec (.readOpen r imm mir hist) s = .next (
    let u := s.admitted r k
    if mir then
      (if !s.mirrorHeld (reqField r) ∨ (hist ∧ ((s.seat (reqField r)).historyAt true (s.field (reqField r)).lb.mirrorFor).isNone)
       then u.respond r stWrongState (s.wrongDetail (reqField r))
       else u.openRead (reqField r) r false true hist (s.field (reqField r)).lb.mirrorFor)
    else if imm then
      (if (s.seat (reqField r)).noShard then u.respond r stWrongState (s.wrongDetail (reqField r))
       else u.openRead (reqField r) r true false hist (s.seat (reqField r)).cm.committed)
    else u.modSeat (reqField r) (fun k => { k with waits := k.waits ++ [{ req := r, history := hist }] })) := by
  have hclip : ¬(r.expert = true ∧ (s.seat (reqField r)).cm.clipDue = true) := by
    rintro ⟨h1, h2⟩
    rcases ho with ho | ho
    · rw [ho] at h1; cases h1
    · rw [ho] at h2; cases h2
  rw [exec_readOpen h hx hp, if_neg (not_not.2 hs), if_neg (Nat.not_le.2 hn), if_neg hclip]

theorem readOpen_waits (hm : mir = false) (hi : imm = false) : Waits (.readOpen r imm mir hist) s (fun t => UnitsKept s t ∧
    OnlySeat (reqField r) { s.seat (reqField r) with waits := (s.seat (reqField r)).waits ++ [{ req := r, history := hist }] } s t) := by
  refine ⟨_, exec_readOpen_free h hx hp hs hn ho, ?_⟩
  dsimp only
  rw [if_neg (by simp [hm]), if_neg (by simp [hi])]
  exact ⟨by simp, h.heard.admitted_units.trans (State.setSeat_unitsKept _ _ _),
    OnlySeat.modSeat (reqField_lt r) (by simp) (by simp) fun q : Seat => { q with waits := q.waits ++ [{ req := r, history := hist }] }⟩

omit hx hp hs hn ho in
theorem readOpen_opens {imm' mir' : Bool} {step : BitVec 64}
    (e : exec (.readOpen r imm mir hist) s = .next ((s.admitted r k).openRead (reqField r) r imm' mir' hist step)) :
    Does (.readOpen r imm mir hist) s r stOk 0 (s.openWords (reqField r) mir' hist step)
      (fun t => UnitsKept s t ∧ Opened s r (reqField r) imm' mir' hist step t) := by
  obtain ⟨h1, h2⟩ := State.openRead_opens (r := r) (v := s.admitted r k) (reqField_lt r) imm' mir' hist step
  have hw : (s.admitted r k).openWords (reqField r) mir' hist step = s.openWords (reqField r) mir' hist step := by
    have e (g : Nat) : ((s.admitted r k).field g).lb = (s.field g).lb := (h.heard.field_parts g).2.1
    simp only [State.openWords, State.admitted_seat, State.admitted_seatFields, e]
  rw [← hw]
  refine openRead_does imm' mir' hist step e h.heard.answers ⟨h.heard.admitted_units.trans h1, ?_⟩
  unfold Opened
  rw [h2, State.admitted_seat]
  exact ⟨rfl, rfl⟩

theorem readOpen_immediate (hm : mir = false) (hi : imm = true) :
    ((s.seat (reqField r)).noShard = true → Replies (.readOpen r imm mir hist) s r stWrongState (s.wrongDetail (reqField r)) .empty) ∧
    ((s.seat (reqField r)).noShard = false → Does (.readOpen r imm mir hist) s r stOk 0
      (s.openWords (reqField r) false hist (s.seat (reqField r)).cm.committed)
      (fun t => UnitsKept s t ∧ Opened s r (reqField r) true false hist (s.seat (reqField r)).cm.committed t)) := by
  have e := exec_readOpen_free h hx hp hs hn ho
  dsimp only at e
  rw [if_neg (by simp [hm]), if_pos hi] at e
  refine ⟨fun hd => replies_heard h.heard ?_, fun hd => readOpen_opens h ?_⟩
  · rw [e, if_pos hd]
  · rw [e, if_neg (by simp [hd])]

theorem readOpen_mirror (hm : mir = true) : let mf := (s.field (reqField r)).lb.mirrorFor
    (s.mirrorHeld (reqField r) = false ∨ hist = true ∧ (s.seat (reqField r)).historyAt true mf = none →
      Replies (.readOpen r imm mir hist) s r stWrongState (s.wrongDetail (reqField r)) .empty) ∧
    (s.mirrorHeld (reqField r) = true → hist = false ∨ ((s.seat (reqField r)).historyAt true mf).isSome = true →
      Does (.readOpen r imm mir hist) s r stOk 0 (s.openWords (reqField r) true hist mf)
        (fun t => UnitsKept s t ∧ Opened s r (reqField r) false true hist mf t)) := by
  have e := exec_readOpen_free h hx hp hs hn ho
  dsimp only at e ⊢
  rw [if_pos hm] at e
  refine ⟨fun hd => replies_heard h.heard ?_, fun hd hh => readOpen_opens h ?_⟩
  · rw [e, if_pos (hd.imp (by simp +contextual) (by simp +contextual))]
  · rw [e, if_neg]
    rcases hh with hh | hh
    · simp [hd, hh]
    · simp [hd, Option.isSome_iff_ne_none.1 hh]

end

end

/-! ### READ_OPEN_ANSWER and READ_WAIT_TIMEOUT -/

section
variable {s : State} {i : Nat} {k : Session} {g : Nat} {w : WaitOpen} (hg : g < 4) (hw : (s.seat g).waits = [w])
include hg hw

/-- An OPEN that has waited too long. -/
theorem readWaitTimeout_does (hs : s.session w.req.sess = some (i, k)) (hk : k.gen2 = false) :
    Does (.readWaitTimeout g) s w.req stWaitTimeout 0 .empty (fun t => UnitsKept s t ∧ OnlySeat g { s.seat g with waits := [] } s t) := by
  have e : exec (.readWaitTimeout g) s = .next ((s.modSeat g (fun k => { k with waits := k.waits.drop 1 })).respond w.req stWaitTimeout) := by
    show Host.Outcome.next (execReadWaitTimeout g s) = _
    rw [execReadWaitTimeout, hw]
    dsimp only
    rw [if_neg (Nat.not_le.2 hg)]
  refine does_respond e (State.answers_congr (by simp) ⟨i, k, hs, hk⟩)
    ⟨(State.setSeat_unitsKept _ _ _).trans (State.respond_unitsKept _ _ _ _ _), ?_⟩
  have ho := s.modSeat_onlySeat hg (fun k : Seat => { k with waits := k.waits.drop 1 })
  rw [hw] at ho
  exact ho.respond _ _ _ _

variable (hp : (s.seat g).pieces = [])
include hp

theorem readOpenAnswer_notSeated (hst : (s.seat g).cm.seatState ≠ 4) (hs : s.session w.req.sess = some (i, k)) (hk : k.gen2 = false) :
    Does (.readOpenAnswer g) s w.req stNotSeated ((s.seat g).cm.seatState.setWidth 64) .empty (fun t => UnitsKept s t ∧
      OnlySeat g { s.seat g with waits := [] } s t) := by
  have e : exec (.readOpenAnswer g) s = .next
      ((s.modSeat g (fun k => { k with waits := [], pieces := [] })).respond w.req stNotSeated ((s.seat g).cm.seatState.setWidth 64)) := by
    show Host.Outcome.next (execReadOpenAnswer g s) = _
    rw [execReadOpenAnswer, if_neg (Nat.not_le.2 hg)]
    dsimp only
    rw [if_pos hst, hw, hp]
    rfl
  refine does_respond e (State.answers_congr (by simp) ⟨i, k, hs, hk⟩)
    ⟨(State.setSeat_unitsKept _ _ _).trans (State.respond_unitsKept _ _ _ _ _), ?_⟩
  have hk : ({ s.seat g with waits := [] } : Seat) = { s.seat g with waits := [], pieces := [] } := by rw [← hp]
  rw [hk]
  exact (s.modSeat_onlySeat hg (fun k : Seat => { k with waits := [], pieces := [] })).respond _ _ _ _

/-- What a seated seat's answer does where one OPEN waits and no piece. -/
theorem exec_readOpenAnswer (hst : (s.seat g).cm.seatState = 4) : exec (.readOpenAnswer g) s = .next (
    if s.stepProven g (s.seat g).cm.committed ∧ w.step.isSome then
      (s.modSeat g (fun k => { k with waits := [], pieces := [] })).openRead g w.req false false w.history (s.seat g).cm.committed
    else s.modSeat g (fun k => { k with waits := [w], pieces := [] })) := by
  show Host.Outcome.next (execReadOpenAnswer g s) = _
  rw [execReadOpenAnswer, if_neg (Nat.not_le.2 hg)]
  dsimp only
  rw [if_neg (not_not.2 hst), hw, hp]
  unfold State.modSeat
  dsimp only
  rw [hw]
  by_cases h1 : s.stepProven g (s.seat g).cm.committed = true
  · rw [if_pos h1]
    by_cases h2 : w.step.isSome = true
    · rw [if_pos ⟨h1, h2⟩, List.filter_cons_of_pos (p := fun w : WaitOpen => w.step.isSome) h2]
      simp
    · rw [if_neg fun h => h2 h.2, List.filter_cons_of_neg (p := fun w : WaitOpen => w.step.isSome) h2]
      simp
  · rw [if_neg h1, if_neg fun h => h1 h.1]
    simp

theorem readOpenAnswer_opens (hst : (s.seat g).cm.seatState = 4) (hpr : s.stepProven g (s.seat g).cm.committed = true)
    (hstep : w.step.isSome = true) (hs : s.session w.req.sess = some (i, k)) (hk : k.gen2 = false) :
    Does (.readOpenAnswer g) s w.req stOk 0 (s.openWords g false w.history (s.seat g).cm.committed) (fun t => UnitsKept s t ∧
      (t.seat g).waits = [] ∧ Opened s w.req g false false w.history (s.seat g).cm.committed t) := by
  have e := exec_readOpenAnswer hg hw hp hst
  rw [if_pos ⟨hpr, hstep⟩] at e
  let v := s.modSeat g (fun k => { k with waits := [], pieces := [] })
  have hv : v.seat g = { s.seat g with waits := [], pieces := [] } := State.seat_modSeat_self _ _ hg
  obtain ⟨h1, h2⟩ := State.openRead_opens (r := w.req) (v := v) hg false false w.history (s.seat g).cm.committed
  have hwords : v.openWords g false w.history (s.seat g).cm.committed = s.openWords g false w.history (s.seat g).cm.committed := by
    unfold State.openWords
    rw [hv]
    rfl
  rw [← hwords]
  refine openRead_does false false w.history _ e (State.answers_congr (by simp [v]) ⟨i, k, hs, hk⟩)
    ⟨(State.setSeat_unitsKept s g _).trans h1, ?_, ?_⟩
  · rw [h2, hv]
  · unfold Opened
    rw [h2, hv]
    exact ⟨rfl, rfl⟩

theorem readOpenAnswer_waits (hst : (s.seat g).cm.seatState = 4)
    (hn : s.stepProven g (s.seat g).cm.committed = false ∨ w.step = none) : ∃ t, exec (.readOpenAnswer g) s = .next t ∧ t.host = s.host ∧
      UnitsKept s t ∧ SeatsKept s t := by
  have e := exec_readOpenAnswer hg hw hp hst
  rw [if_neg (by rcases hn with hn | hn <;> simp [hn])] at e
  refine ⟨_, e, by simp, State.setSeat_unitsKept _ _ _, fun f => ?_⟩
  rw [State.seat_modSeat hg, ← hw, ← hp]
  split
  next hf => unfold State.seat; rw [hf]
  next => rfl

end

end Sys2Proof.Machine
end

section
/-! Pieces of committed and mirror reads, what a Librarian's read changes, and O39. -/

namespace Sys2Proof.Machine

/-! ### Reads through the Librarian -/

/-- Memory, its tags and its flaws, cores, links and the host port are as before. -/
structure Noted (s t : State) : Prop where
  mem : t.mem = s.mem
  cores : t.cores = s.cores
  links : t.links = s.links
  host : t.host = s.host
  tags : t.lpTags = s.lpTags
  bad : t.bad = s.bad
  flaws : t.flaws = s.flaws

theorem Noted.refl (s : State) : Noted s s := ⟨rfl, rfl, rfl, rfl, rfl, rfl, rfl⟩
theorem Noted.trans {r s t : State} (h : Noted r s) (g : Noted s t) : Noted r t :=
  ⟨g.mem.trans h.mem, g.cores.trans h.cores, g.links.trans h.links, g.host.trans h.host, g.tags.trans h.tags, g.bad.trans h.bad,
    g.flaws.trans h.flaws⟩

theorem Noted.bump (s : State) (a : Nat) : Noted s (s.bump a) := by
  obtain ⟨hm, hc, hl, -, hh, -, -, -, ht, hb, -, hf, -⟩ := s.bump_frame a
  exact ⟨hm, hc, hl, hh, ht, hb, hf⟩
theorem Noted.demerit (s : State) (f kind index w : Nat) : Noted s (s.demerit f kind index w) := by
  unfold State.demerit
  exact ⟨by simp, by simp, by simp, by simp, by simp, by simp, by simp⟩
theorem Noted.modMc (s : State) (f : Nat) (g : Mc → Mc) : Noted s (s.modMc f g) := ⟨by simp, by simp, by simp, by simp, by simp, by simp, by simp⟩
theorem Noted.modHm (s : State) (f : Nat) (g : Hm → Hm) : Noted s (s.modHm f g) := ⟨by simp, by simp, by simp, by simp, by simp, by simp, by simp⟩
theorem Noted.duePage (s : State) (g a : Nat) : Noted s (s.duePage g a) := by
  unfold State.duePage
  exact Noted.modMc _ _ _
theorem Noted.taint (s : State) (f : Nat) : Noted s (s.taint f) := by
  unfold State.taint State.setStatus
  exact ⟨by simp, by simp, by simp, by simp, by simp, by simp, by simp⟩

theorem Noted.noteErr (s : State) (f a : Nat) (e : MemErr) : Noted s (s.noteErr f a e) := by
  have hb (t : State) (b g kind index w : Nat) : Noted t ((t.bump b).demerit g kind index w) := (Noted.bump t b).trans (Noted.demerit _ _ _ _ _)
  cases e with
  | firewall => exact Noted.refl s
  | word =>
    unfold State.noteErr
    dsimp only
    cases regionOf a with
    | desk c => exact ((hb _ _ _ _ _ _).trans (Noted.modHm _ _ _)).trans (Noted.taint _ _)
    | slate c => exact (hb _ _ _ _ _ _).trans (Noted.taint _ _)
    | _ => exact Noted.taint _ _
  | ue => exact ((((Noted.bump _ _).trans (Noted.modMc _ _ _)).trans (Noted.demerit _ _ _ _ _)).trans (Noted.duePage _ _ _)).trans (Noted.taint _ _)
  | mac => exact (((Noted.bump _ _).trans (Noted.modMc _ _ _)).trans (Noted.demerit _ _ _ _ _)).trans (Noted.taint _ _)
  | tag => exact ((Noted.bump _ _).trans (Noted.modMc _ _ _)).trans (Noted.taint _ _)

theorem Noted.vlog (s : State) (f : Nat) (e : VEntry) : Noted s (s.vlog f e) := by
  unfold State.vlog
  dsimp only
  split
  · exact Noted.trans (s := s.setSeat f _) ⟨by simp, by simp, by simp, by simp, by simp, by simp, by simp⟩ (Noted.bump _ _)
  · exact ⟨by simp, by simp, by simp, by simp, by simp, by simp, by simp⟩

theorem Noted.libErr (s : State) (f : Nat) (e : Nat × MemErr) : Noted s (s.libErr f e) := by
  unfold State.libErr
  dsimp only
  split
  · exact (Noted.vlog _ _ _).trans (Noted.noteErr _ _ _ _)
  · exact Noted.noteErr _ _ _ _

/-- Corrections are counted: seats stand as well. -/
theorem State.noteCorrected_noted (s : State) (l : List (Nat × Nat)) : Noted s (s.noteCorrected l) ∧ (s.noteCorrected l).seats = s.seats := by
  have hw (t : State) (a : Nat) : Noted t (t.correctedWord a) ∧ (t.correctedWord a).seats = t.seats := by
    unfold State.correctedWord
    cases regionOf a with
    | desk c => exact ⟨(Noted.bump _ _).trans (Noted.demerit _ _ _ _ _), by simp [State.demerit]⟩
    | slate c => exact ⟨(Noted.bump _ _).trans (Noted.demerit _ _ _ _ _), by simp [State.demerit]⟩
    | _ => exact ⟨Noted.refl t, rfl⟩
  have hb (t : State) (f a : Nat) : Noted t (t.correctedBlock f a) ∧ (t.correctedBlock f a).seats = t.seats := by
    unfold State.correctedBlock
    dsimp only
    have h (g : Mc → Mc) : Noted t (((t.bump (mcBase f + 32)).demerit f 3 (channelOf a) 1).modMc f g) :=
      ((Noted.bump _ _).trans (Noted.demerit _ _ _ _ _)).trans (Noted.modMc _ _ _)
    split
    · exact ⟨(h _).trans (Noted.duePage _ _ _), by simp [State.duePage, State.demerit]⟩
    · exact ⟨h _, by simp [State.demerit]⟩
  unfold State.noteCorrected
  refine List.foldlRecOn (motive := fun t => Noted s t ∧ t.seats = s.seats) _ _ ?_ fun t ht _ _ =>
    ⟨ht.1.trans (hb t _ _).1, (hb t _ _).2.trans ht.2⟩
  exact List.foldlRecOn (motive := fun t => Noted s t ∧ t.seats = s.seats) _ _ ⟨Noted.refl s, rfl⟩ fun t ht _ _ =>
    ⟨ht.1.trans (hw t _).1, (hw t _).2.trans ht.2⟩

/-- A Librarian's read changes no memory; one that finds its bytes changes no seat. -/
theorem State.libRead_noted (s : State) (f a n : Nat) : Noted s (s.libRead f a n).1 ∧
    ((s.libRead f a n).2.isSome = true → (s.libRead f a n).1.seats = s.seats) := by
  unfold State.libRead
  cases s.readRange (s.seatFields f) a n with
  | ok bs =>
    obtain ⟨h1, h2⟩ := s.noteCorrected_noted [(a, n)]
    exact ⟨h1, fun _ => h2⟩
  | error e => exact ⟨Noted.libErr _ _ _, fun h => by cases h⟩

theorem State.pieceBytes_noted (s : State) (f : Nat) (x : OpenRead) (off n : Nat) : Noted s (s.pieceBytes f x off n).1 ∧
    ((s.pieceBytes f x off n).2.isSome = true → (s.pieceBytes f x off n).1.seats = s.seats) := by
  unfold State.pieceBytes
  dsimp only
  split
  · cases (s.seat f).historyAt x.mirror x.step with
    | none => exact ⟨Noted.refl s, fun _ => rfl⟩
    | some a => exact s.libRead_noted _ _ _
  · refine List.foldlRecOn (motive := fun p : State × Option (List Byte) => Noted s p.1 ∧ (p.2.isSome = true → p.1.seats = s.seats)) _ _
      ⟨Noted.refl s, fun _ => rfl⟩ fun p hp u _ => ?_
    obtain ⟨t, b⟩ := p
    cases b with
    | none => exact hp
    | some bs =>
      dsimp only
      generalize (if x.mirror = true then t.holderField f u.1 else u.1.core / 500) = g
      obtain ⟨h1, h2⟩ := t.libRead_noted g ((if x.mirror = true then (s.seat f).regions.mirror else (s.seat f).committedBase) + u.1.offset +
        (Nat.max off u.2 - u.2)) (Nat.min (off + n) (u.2 + unitLen u.1) - Nat.max off u.2)
      split
      next v cs e =>
        rw [e] at h1 h2
        exact ⟨hp.1.trans h1, fun _ => (h2 rfl).trans (hp.2 rfl)⟩
      next v e =>
        rw [e] at h1
        exact ⟨hp.1.trans h1, fun h => by cases h⟩

/-- A dump for a block that cannot be read changes no memory. -/
theorem State.internalDump_noted (s : State) (f : Nat) : Noted s (s.internalDump f).1 := by
  unfold State.internalDump
  dsimp only
  cases (s.field f).hm.collecting with
  | some d => exact Noted.refl s
  | none =>
    dsimp only
    split
    · exact Noted.refl s
    · unfold State.startDump
      exact eachOf_keeps (Noted s) _ _ (fun _ t ht => ht.trans (Noted.modHm t _ _)) s (Noted.refl s)

/-! ### READ_PIECE -/

/-- What a mirror read that follows CM_MIRROR_FOR keeps. -/
theorem OpenRead.now_fields (x : OpenRead) (m : BitVec 64) : (x.now m).id = x.id ∧ (x.now m).mirror = x.mirror ∧ (x.now m).history = x.history ∧
    (x.now m).immediate = x.immediate := by
  unfold OpenRead.now
  split <;> exact ⟨rfl, rfl, rfl, rfl⟩

/-- The answer to a piece once its bytes have been asked for: `resolved` says that a unit it touches was resolved by the owner. -/
def answerPiece (f : Nat) (r : Req) (y : OpenRead) (resolved : Bool) : State × Option (List Byte) → State
  | (w, none) => (w.internalDump f).1.respond r stInternal (BitVec.ofNat 64 (w.internalDump f).2)
  | (w, some bs) => w.respond r stOk (if y.immediate && w.stepProven f y.step then 1 else 0) (.piece y.step resolved bs)

theorem State.putRead_units (s : State) (f : Nat) (x : OpenRead) (close : Bool) : UnitsKept s (s.putRead f x close) := State.setSeat_unitsKept _ _ _

/-- A read that is closed is none of its seat's reads, and the others are. -/
theorem State.putRead_closes (s : State) {f : Nat} (hf : f < 4) (x : OpenRead) :
    ((s.putRead f x true).seat f) = { s.seat f with reads := ((s.putRead f x true).seat f).reads } ∧
    ∀ z ∈ ((s.putRead f x true).seat f).reads, z.id ≠ x.id ∧ z ∈ (s.seat f).reads := by
  unfold State.putRead
  rw [State.seat_modSeat_self _ _ hf]
  refine ⟨rfl, fun z hz => ?_⟩
  obtain ⟨y, hy, hz⟩ := List.mem_flatMap.1 hz
  split at hz
  · cases hz
  next hne =>
    rw [List.mem_singleton] at hz
    rw [hz]
    exact ⟨hne, hy⟩

section
variable {s : State} {r : Req} {i : Nat} {k : Session}

theorem State.admitted_stepProven (s : State) (r : Req) (k : Session) (f : Nat) (n : BitVec 64) :
    (s.admitted r k).stepProven f n = s.stepProven f n := by simp [State.stepProven]

theorem State.admitted_holderField (s : State) (r : Req) (k : Session) (f : Nat) (u : ShardUnit) :
    (s.admitted r k).holderField f u = s.holderField f u := by simp [State.holderField]

theorem Heard.pieceReady {cls cmd : Nat} {x : Rights} (h : Heard s r i k cls cmd x) (f : Nat) (y : OpenRead) (off n : Nat) :
    (s.admitted r k).pieceReady f y off n = s.pieceReady f y off n := by
  have e (g : Nat) : ((s.admitted r k).field g).lb = (s.field g).lb := (h.field_parts g).2.1
  have eu (m : Bool) (u : ShardUnit) : (s.admitted r k).unitReady f m u = s.unitReady f m u := by
    simp only [State.unitReady, State.admitted_seat, State.admitted_holderField, e]
  simp only [State.pieceReady, State.admitted_stepProven, State.admitted_seat, eu]

section
variable {id off len : Nat} (h : Admitted s r i k 5 2 .bound)
include h

theorem readPiece_noPlan (hp : (s.seat (reqField r)).plan = none) : Replies (.readPiece r id off len) s r stNoPlan 0 .empty :=
  replies_heard h.heard ((h.exec_go rfl).trans (congrArg _ (State.planned_none (by rwa [State.admitted_seat]))))

variable (hp : (s.seat (reqField r)).plan.isSome = true)
include hp

theorem exec_readPiece : exec (.readPiece r id off len) s = .next ((s.admitted r k).piece (reqField r) r id off len) :=
  (h.exec_go rfl).trans (congrArg _ (State.planned_some (by rwa [State.admitted_seat])))

theorem readPiece_notSeated (hs : (s.seat (reqField r)).cm.seatState ≠ 4) :
    Replies (.readPiece r id off len) s r stNotSeated ((s.seat (reqField r)).cm.seatState.setWidth 64) .empty := by
  refine replies_heard h.heard ((exec_readPiece h hp).trans ?_)
  unfold State.piece
  dsimp only
  rw [State.admitted_seat, if_pos hs]

variable (hs : (s.seat (reqField r)).cm.seatState = 4)
include hs

theorem readPiece_unknown (hx : (s.seat (reqField r)).reads.find? (fun x => x.id == id && x.sess == r.sess) = none) :
    Replies (.readPiece r id off len) s r stBadField s.freshWord .empty := by
  refine h.heard.badField ((exec_readPiece h hp).trans ?_)
  unfold State.piece
  dsimp only
  rw [State.admitted_seat, if_neg (not_not.2 hs), hx]

variable {x : OpenRead} (hx : (s.seat (reqField r)).reads.find? (fun x => x.id == id && x.sess == r.sess) = some x)
include hx

/-- A piece of an open read of a seated seat. -/
theorem exec_readPiece_found : exec (.readPiece r id off len) s = .next (
    let f := reqField r
    let u := s.admitted r k
    let y := x.now (s.field f).lb.mirrorFor
    let total := (s.seat f).readLen x.mirror x.history
    let n := Nat.min len (total - off)
    if y.told < y.restarts then
      (if 3 ≤ y.restarts then (u.putRead f y true).respond r stMoved y.step
       else (u.putRead f { y with told := y.restarts } false).respond r stRestarted (BitVec.ofNat 64 y.restarts) (.words [y.step]))
    else if x.mirror ∧ (s.seatFields f).any (fun g => (s.field g).lb.mState == 0) then u.respond r stWrongState (s.wrongDetail f)
    else if total < off ∨ 0x100000 < len then u.badField r
    else if s.pieceReady f y off n then u.servePiece f r y off n
    else u.modSeat f (fun k => { k with pieces := k.pieces ++ [{ req := r, id := id, off := off, len := len }] })) := by
  obtain ⟨-, em, eh, -⟩ := x.now_fields (s.field (reqField r)).lb.mirrorFor
  have e (g : Nat) : ((s.admitted r k).field g).lb = (s.field g).lb := (h.heard.field_parts g).2.1
  refine (exec_readPiece h hp).trans ?_
  unfold State.piece
  dsimp only
  rw [State.admitted_seat, if_neg (not_not.2 hs), hx]
  dsimp only
  simp only [e, em, eh, h.heard.pieceReady, State.admitted_wrongDetail, State.admitted_seatFields]

/-- A restarted mirror read is told so once, and at its third restart it is closed. -/
theorem readPiece_restarts : let y := x.now (s.field (reqField r)).lb.mirrorFor
    (y.told < y.restarts → y.restarts < 3 →
      Does (.readPiece r id off len) s r stRestarted (BitVec.ofNat 64 y.restarts) (.words [y.step]) (fun t => UnitsKept s t)) ∧
    (y.told < y.restarts → 3 ≤ y.restarts → Does (.readPiece r id off len) s r stMoved y.step .empty (fun t => UnitsKept s t ∧
      ∀ z ∈ (t.seat (reqField r)).reads, z.id ≠ x.id)) := by
  intro y
  have e := exec_readPiece_found (off := off) (len := len) h hp hs hx
  have hput (y : OpenRead) (c : Bool) : ((s.admitted r k).putRead (reqField r) y c).host.sessions = (s.admitted r k).host.sessions := by
    simp [State.putRead]
  have hk (y : OpenRead) (c : Bool) : UnitsKept s ((s.admitted r k).putRead (reqField r) y c) :=
    h.heard.admitted_units.trans (State.putRead_units _ _ _ _)
  refine ⟨fun ht hn => h.heard.does (u := (s.admitted r k).putRead (reqField r) { y with told := y.restarts } false) ?_ (hput _ _)
      ((hk _ _).trans (State.respond_unitsKept _ _ _ _ _)),
    fun ht hn => h.heard.does (u := (s.admitted r k).putRead (reqField r) y true) ?_ (hput _ _)
      ⟨(hk _ _).trans (State.respond_unitsKept _ _ _ _ _), fun z hz => ?_⟩⟩
  · dsimp only at e
    rw [e, if_pos ht, if_neg (Nat.not_le.2 hn)]
  · dsimp only at e
    rw [e, if_pos ht, if_pos hn]
  · rw [State.respond_seat] at hz
    have hid : y.id = x.id := (x.now_fields _).1
    rw [← hid]
    exact ((State.putRead_closes _ (reqField_lt r) y).2 z hz).1

variable (ht : (x.now (s.field (reqField r)).lb.mirrorFor).restarts ≤ (x.now (s.field (reqField r)).lb.mirrorFor).told)
include ht

theorem readPiece_lost (hl : x.mirror = true ∧ ∃ g ∈ s.seatFields (reqField r), (s.field g).lb.mState = 0) :
    Replies (.readPiece r id off len) s r stWrongState (s.wrongDetail (reqField r)) .empty := by
  have e := exec_readPiece_found (off := off) (len := len) h hp hs hx
  dsimp only at e
  refine replies_heard h.heard ?_
  rw [e, if_neg (Nat.not_lt.2 ht), if_pos]
  simpa [List.any_eq_true] using hl

variable (hl : ¬(x.mirror = true ∧ ∃ g ∈ s.seatFields (reqField r), (s.field g).lb.mState = 0))
include hl

theorem exec_readPiece_held : exec (.readPiece r id off len) s = .next (
    let f := reqField r
    let u := s.admitted r k
    let y := x.now (s.field f).lb.mirrorFor
    let total := (s.seat f).readLen x.mirror x.history
    let n := Nat.min len (total - off)
    if total < off ∨ 0x100000 < len then u.badField r
    else if s.pieceReady f y off n then u.servePiece f r y off n
    else u.modSeat f (fun k => { k with pieces := k.pieces ++ [{ req := r, id := id, off := off, len := len }] })) := by
  have e := exec_readPiece_found (off := off) (len := len) h hp hs hx
  dsimp only at e
  rw [e, if_neg (Nat.not_lt.2 ht), if_neg]
  simpa [List.any_eq_true] using hl

theorem readPiece_outside (ho : (s.seat (reqField r)).readLen x.mirror x.history < off ∨ 0x100000 < len) :
    Replies (.readPiece r id off len) s r stBadField s.freshWord .empty := by
  have e := exec_readPiece_held (off := off) (len := len) h hp hs hx ht hl
  dsimp only at e
  exact h.heard.badField (by rw [e, if_pos ho])

variable (ho : off ≤ (s.seat (reqField r)).readLen x.mirror x.history) (hlen : len ≤ 0x100000)
include ho hlen

theorem readPiece_waits (hr : s.pieceReady (reqField r) (x.now (s.field (reqField r)).lb.mirrorFor) off
      (Nat.min len ((s.seat (reqField r)).readLen x.mirror x.history - off)) = false) :
    Waits (.readPiece r id off len) s (fun t => UnitsKept s t ∧ OnlySeat (reqField r) { s.seat (reqField r) with
      pieces := (s.seat (reqField r)).pieces ++ [{ req := r, id := id, off := off, len := len }] } s t) := by
  refine ⟨_, exec_readPiece_held h hp hs hx ht hl, ?_⟩
  dsimp only
  rw [if_neg (by omega), if_neg (by simp [hr])]
  exact ⟨by simp, h.heard.admitted_units.trans (State.setSeat_unitsKept _ _ _),
    OnlySeat.modSeat (reqField_lt r) (by simp) (by simp) fun q : Seat => { q with pieces := q.pieces ++ [{ req := r, id := id, off := off, len := len }] }⟩

variable (hr : s.pieceReady (reqField r) (x.now (s.field (reqField r)).lb.mirrorFor) off
  (Nat.min len ((s.seat (reqField r)).readLen x.mirror x.history - off)) = true)
include hr

/-- A piece that is served: the units that it touches, and the unresolved one that refuses it. -/
theorem exec_readPiece_serves : exec (.readPiece r id off len) s = .next (
    let f := reqField r
    let q := s.seat f
    let y := x.now (s.field f).lb.mirrorFor
    let n := Nat.min len (q.readLen x.mirror x.history - off)
    let us := if x.history then [] else q.pieceUnits x.mirror off n
    match (if x.mirror then us.find? (fun u => (q.cm.res u.1).outcome == 6) else none) with
    | some u => (s.admitted r k).respond r stUnresolved (BitVec.ofNat 64 (u.1.core + fieldAt u.1.record 16))
    | none => answerPiece f r y (x.mirror && us.any (fun u => (q.cm.res u.1).outcome == 5)) ((s.admitted r k).pieceBytes f y off n)) := by
  obtain ⟨-, em, eh, -⟩ := x.now_fields (s.field (reqField r)).lb.mirrorFor
  have e := exec_readPiece_held (off := off) (len := len) h hp hs hx ht hl
  dsimp only at e
  rw [e, if_neg (by omega), if_pos hr]
  unfold State.servePiece
  dsimp only
  rw [State.admitted_seat, em, eh] <;> rfl

theorem readPiece_unresolved {z : ShardUnit × Nat} : let q := s.seat (reqField r)
    let us := if x.history then [] else q.pieceUnits x.mirror off (Nat.min len (q.readLen x.mirror x.history - off))
    (if x.mirror then us.find? (fun u => (q.cm.res u.1).outcome == 6) else none) = some z →
    Replies (.readPiece r id off len) s r stUnresolved (BitVec.ofNat 64 (z.1.core + fieldAt z.1.record 16)) .empty := by
  intro q us hz
  have e := exec_readPiece_serves h hp hs hx ht hl ho hlen hr
  dsimp only at e
  rw [hz] at e
  exact replies_heard h.heard e

theorem readPiece_serves : let q := s.seat (reqField r)
    let y := x.now (s.field (reqField r)).lb.mirrorFor
    let n := Nat.min len (q.readLen x.mirror x.history - off)
    let us := if x.history then [] else q.pieceUnits x.mirror off n
    (if x.mirror then us.find? (fun u => (q.cm.res u.1).outcome == 6) else none) = none →
    (∀ bs w, (s.admitted r k).pieceBytes (reqField r) y off n = (w, some bs) →
      Does (.readPiece r id off len) s r stOk (if y.immediate = true ∧ s.stepProven (reqField r) y.step = true then 1 else 0)
        (.piece y.step (x.mirror && us.any (fun z => (q.cm.res z.1).outcome == 5)) bs)
        (fun t => t.mem = s.mem ∧ t.cores = s.cores ∧ t.links = s.links ∧ SeatsKept s t)) ∧
    ∀ w, (s.admitted r k).pieceBytes (reqField r) y off n = (w, none) →
      Does (.readPiece r id off len) s r stInternal (BitVec.ofNat 64 (w.internalDump (reqField r)).2) .empty
        (fun t => t.mem = s.mem ∧ t.cores = s.cores ∧ t.links = s.links) := by
  intro q y n us hz
  have e := exec_readPiece_serves h hp hs hx ht hl ho hlen hr
  have hb := (s.admitted r k).pieceBytes_noted (reqField r) y off n
  dsimp only at e
  rw [hz] at e
  refine ⟨fun bs w hw => ?_, fun w hw => ?_⟩
  · rw [hw] at hb
    obtain ⟨hn, hseat⟩ := hb
    have hw' : w.seats = s.seats := (hseat rfl).trans (s.admitted_seats r k)
    have hl' : w.host.layout = s.host.layout := (congrArg HostPort.layout hn.host).trans (s.admitted_layout r k)
    have hpr : w.stepProven (reqField r) y.step = s.stepProven (reqField r) y.step := by
      unfold State.stepProven
      rw [State.seat_congr _ hw' hl']
    rw [hw, answerPiece, hpr] at e
    simp only [Bool.and_eq_true] at e
    refine h.heard.does e (congrArg HostPort.sessions hn.host) ⟨?_, ?_, ?_, SeatsKept.of_eq ?_ ?_⟩
    · rw [State.respond_mem, hn.mem, State.admitted_mem]
    · rw [State.respond_cores, hn.cores, State.admitted_cores]
    · rw [State.respond_links, hn.links, State.admitted_links]
    · rw [State.respond_seats, hw']
    · rw [State.respond_layout, hl']
  · rw [hw] at hb
    rw [hw, answerPiece] at e
    have hn := hb.1.trans (w.internalDump_noted (reqField r))
    refine h.heard.does e (congrArg HostPort.sessions hn.host) ⟨?_, ?_, ?_⟩
    · rw [State.respond_mem, hn.mem, State.admitted_mem]
    · rw [State.respond_cores, hn.cores, State.admitted_cores]
    · rw [State.respond_links, hn.links, State.admitted_links]

end

/-! ### READ_CLOSE -/

theorem readClose_outcomes {id : Nat} (h : Admitted s r i k 5 3 .bound) : let q := s.seat (reqField r)
    let found := q.reads.find? (fun x => x.id == id && x.sess == r.sess)
    (found = none → Replies (.readClose r id) s r stBadField s.freshWord .empty) ∧
    (found.isSome = true → Does (.readClose r id) s r stOk 0 .empty (fun t => UnitsKept s t ∧
      (∀ z ∈ (t.seat (reqField r)).reads, z.id ≠ id ∧ z ∈ q.reads) ∧ (t.seat (reqField r)).cm = q.cm ∧ (t.seat (reqField r)).tt = q.tt)) := by
  intro q found
  let u := s.admitted r k
  have e : exec (.readClose r id) s = .next (match found with
      | none => u.badField r
      | some x => (u.putRead (reqField r) x true).respond r stOk) := by
    rw [h.exec_go rfl]
    dsimp only
    rw [State.admitted_seat] <;> rfl
  refine ⟨fun hn => h.heard.badField (by rw [e, hn]), fun hx => ?_⟩
  obtain ⟨x, hx⟩ := Option.isSome_iff_exists.1 hx
  have hid : x.id = id := by
    have hp := List.find?_some hx
    simp only [Bool.and_eq_true, beq_iff_eq] at hp
    exact hp.1
  obtain ⟨hs, hr⟩ := u.putRead_closes (reqField_lt r) x
  rw [s.admitted_seat, hid] at hr
  rw [s.admitted_seat] at hs
  refine h.heard.does (u := u.putRead (reqField r) x true) (by rw [e, hx]) (by simp [u, State.putRead]) ⟨?_, ?_, ?_, ?_⟩
  · exact h.heard.admitted_units.trans ((State.putRead_units _ _ _ _).trans (State.respond_unitsKept _ _ _ _ _))
  · rw [State.respond_seat]
    exact hr
  · rw [State.respond_seat, hs]
  · rw [State.respond_seat, hs]

end

/-- Settles O39: each request and each answer as its outcome lemma says. -/
theorem readsFollowTheCommit : Obligations.ReadsFollowTheCommit := by
  intro s r i k f q opened words
  refine ⟨fun imm mir hist h => ?_, fun g w hg hw hp => ?_, fun id off len h => ?_, fun id h => readClose_outcomes h⟩
  · refine ⟨readOpen_basic h, fun hx => ⟨readOpen_noPlan h hx, readOpen_notSeated h hx, readOpen_busy h hx, fun hp hr => readOpen_held h hx hp hr.1 hr.2,
      fun hp hr ho => readOpen_waits h hx hp hr.1 hr.2 ho, fun hp hr ho hm hi => (readOpen_immediate h hx hp hr.1 hr.2 ho hm hi).1,
      fun hp hr ho hm hi => (readOpen_immediate h hx hp hr.1 hr.2 ho hm hi).2, fun hp hr ho hm => (readOpen_mirror h hx hp hr.1 hr.2 ho hm).1,
      fun hp hr ho hm => (readOpen_mirror h hx hp hr.1 hr.2 ho hm).2⟩⟩
  · exact ⟨readOpenAnswer_notSeated hg hw hp, readOpenAnswer_opens hg hw hp, readOpenAnswer_waits hg hw hp, readWaitTimeout_does hg hw⟩
  · refine ⟨readPiece_noPlan h, readPiece_notSeated h, readPiece_unknown h, fun x hp hs hx => ?_⟩
    exact ⟨(readPiece_restarts h hp hs hx).1, (readPiece_restarts h hp hs hx).2, readPiece_lost h hp hs hx, readPiece_outside h hp hs hx,
      readPiece_waits h hp hs hx,
      fun z hv => readPiece_unresolved h hp hs hx hv.1 hv.2.1 hv.2.2.1 hv.2.2.2.1 hv.2.2.2.2,
      fun bs w hv hb => (readPiece_serves h hp hs hx hv.1 hv.2.1 hv.2.2.1 hv.2.2.2.1 hv.2.2.2.2 hb).1 bs w,
      fun w hv hb => (readPiece_serves h hp hs hx hv.1 hv.2.1 hv.2.2.1 hv.2.2.2.1 hv.2.2.2.2 hb).2 w⟩

end Sys2Proof.Machine
end

section
/-! Seats, partners, fills, substitutes and handovers (R252, R253, R267 to R271, R293, R294, R346). -/

namespace Sys2Proof.Machine

/-! ### The keys of links (R294) -/

/-- Only links, and the free bits drawn for them, changed. -/
def LinksOnly (s t : State) : Prop := t = { s with links := t.links, free := t.free }

section
variable {s t : State} (h : LinksOnly s t)
include h

theorem LinksOnly.mem : t.mem = s.mem := by rw [h]
theorem LinksOnly.cores : t.cores = s.cores := by rw [h]
theorem LinksOnly.seats : t.seats = s.seats := by rw [h]
theorem LinksOnly.host : t.host = s.host := by rw [h]
theorem LinksOnly.store : t.store = s.store := by rw [h]
theorem LinksOnly.fields : t.fields = s.fields := by rw [h]

theorem LinksOnly.trans {u : State} (g : LinksOnly t u) : LinksOnly s u := by
  unfold LinksOnly at *
  rw [g, h]

end

theorem State.modLink_linksOnly (s : State) (l : Nat) (g : Link → Link) : LinksOnly s (s.modLink l g) := by
  unfold LinksOnly State.modLink State.setLink
  split <;> rfl

theorem State.link_modLink {s : State} {l : Nat} (hl : l < 24) (g : Link → Link) (e : Nat) :
    (s.modLink l g).link e = if e = l then g (s.link l) else s.link e := by
  unfold State.modLink
  split
  next h => rw [h, State.link_setLink_self _ _ hl]
  next h => rw [State.link_setLink_ne _ _ h]

/-- A link in IDENT that starts its identification again. -/
def Link.anew (k : Link) (b : BitVec 56) : Link :=
  { k with reason := 0, bringup := b, seq := 0, echoDue := none, confirmed := false, ranged := false, absent := false }

/-- A link that is in IDENT enters it again: only that link changes. -/
theorem State.enterIdent_anew {s : State} {l : Nat} (hl : l < 24) (hi : (s.link l).st = .ident) : LinksOnly s (s.enterIdent l) ∧
    ∀ e, (s.enterIdent l).link e = if e = l then (s.link l).anew (s.freshWord.setWidth 56) else s.link e := by
  have e1 : s.linkTo l .ident = s.modLink l (fun k => { k with st := .ident, reason := 0 }) := by
    unfold State.linkTo
    rw [if_neg (Nat.not_le.2 hl)]
    dsimp only
    rw [if_neg (by rw [hi]; simp), if_neg (by simp)]
    rfl
  refine ⟨?_, fun e => ?_⟩
  · unfold State.enterIdent
    rw [e1]
    exact ((State.modLink_linksOnly _ _ _).trans (State.modLink_linksOnly _ _ _)).trans rfl
  · unfold State.enterIdent
    rw [e1]
    refine (State.link_modLink hl _ e).trans ?_
    rw [State.link_modLink hl, State.link_modLink hl, if_pos rfl]
    split
    · rw [Link.anew, ← hi]
    · rfl

/-- One peer's keys are given to its link. -/
def State.givePeer (s : State) (p : PeerSpec) (epoch : BitVec 32) : State :=
  let t := s.modLink p.link (fun k => k.given s.store.serial p epoch)
  if (t.link p.link).st = .ident then t.enterIdent p.link else t

/-- The link of a peer once its keys are given: one in IDENT starts its identification again. -/
def Link.keyed (k : Link) (own : BitVec 128) (p : PeerSpec) (epoch : BitVec 32) (b : BitVec 56) : Link :=
  let g := k.given own p epoch
  if g.st = .ident then g.anew b else g

theorem State.givePeer_link {s : State} {p : PeerSpec} (hl : p.link < 24) (epoch : BitVec 32) : LinksOnly s (s.givePeer p epoch) ∧
    ∃ b, ∀ e, (s.givePeer p epoch).link e = if e = p.link then (s.link p.link).keyed s.store.serial p epoch b else s.link e := by
  let t := s.modLink p.link (fun k => k.given s.store.serial p epoch)
  have ht : LinksOnly s t := State.modLink_linksOnly _ _ _
  have hk : t.link p.link = (s.link p.link).given s.store.serial p epoch := State.link_modLink_self _ _ hl
  unfold State.givePeer Link.keyed
  dsimp only
  by_cases hi : ((s.link p.link).given s.store.serial p epoch).st = .ident
  · have hi' : (t.link p.link).st = .ident := by rw [hk, hi]
    obtain ⟨h1, h2⟩ := State.enterIdent_anew hl hi'
    simp only [if_pos hi]
    rw [if_pos hi']
    refine ⟨ht.trans h1, t.freshWord.setWidth 56, fun e => (h2 e).trans ?_⟩
    rw [hk]
    split
    · rfl
    next he => exact State.link_modLink_ne _ _ he
  · have hi' : ¬ (t.link p.link).st = .ident := by rwa [hk]
    simp only [if_neg hi]
    rw [if_neg hi']
    exact ⟨ht, 0, State.link_modLink hl _⟩

/-- The links named have their peers' keys, and the others are as they were. -/
def Linked (s : State) (peers : List PeerSpec) (epoch : BitVec 32) (t : State) : Prop :=
  (∀ l, (∀ p ∈ peers, p.link ≠ l) → t.link l = s.link l) ∧
  ((peers.map (fun p => p.link)).Nodup → ∀ p ∈ peers, t.link p.link =
    (s.link p.link).keyed s.store.serial p epoch (t.link p.link).bringup)

theorem Link.keyed_bringup (k : Link) (own : BitVec 128) (p : PeerSpec) (epoch : BitVec 32) (b : BitVec 56) :
    k.keyed own p epoch (k.keyed own p epoch b).bringup = k.keyed own p epoch b := by
  unfold Link.keyed
  dsimp only
  split <;> rfl

theorem State.givePeers_linked {s : State} {peers : List PeerSpec} (hl : ∀ p ∈ peers, p.link < 24) (epoch : BitVec 32) :
    LinksOnly s (s.givePeers peers epoch) ∧ Linked s peers epoch (s.givePeers peers epoch) := by
  induction peers generalizing s with
  | nil => exact ⟨rfl, fun _ _ => rfl, by simp⟩
  | cons p peers ih =>
    obtain ⟨h1, b, h2⟩ := State.givePeer_link (hl p List.mem_cons_self) epoch (s := s)
    obtain ⟨i1, i2, i3⟩ := ih (s := s.givePeer p epoch) (fun q hq => hl q (List.mem_cons_of_mem _ hq))
    have e : s.givePeers (p :: peers) epoch = (s.givePeer p epoch).givePeers peers epoch := rfl
    rw [e]
    refine ⟨h1.trans i1, fun l hne => ?_, fun hn q hq => ?_⟩
    · rw [i2 l fun q hq => hne q (List.mem_cons_of_mem _ hq), h2, if_neg fun h => hne p List.mem_cons_self h.symm]
    · rw [List.map_cons, List.nodup_cons] at hn
      obtain ⟨hp, hn⟩ := hn
      rcases List.mem_cons.1 hq with rfl | hq
      · rw [i2 q.link fun x hx hxq => hp (List.mem_map.2 ⟨x, hx, hxq⟩), h2, if_pos rfl, Link.keyed_bringup]
      · have hne : q.link ≠ p.link := fun h => hp (List.mem_map.2 ⟨q, hq, h⟩)
        have hi := i3 hn q hq
        rw [h1.store, h2 q.link, if_neg hne] at hi
        exact hi

theorem Linked.of_eq {s s' t t' : State} {peers : List PeerSpec} {epoch : BitVec 32} (h : Linked s' peers epoch t')
    (hs : ∀ l, s'.link l = s.link l) (hst : s'.store = s.store) (ht : ∀ l, t.link l = t'.link l) : Linked s peers epoch t := by
  unfold Linked at *
  simpa only [hs, hst, ht] using h

/-! ### Commands at a bell or at once (R28) -/

@[simp] theorem State.admitted_atRest (s : State) (r : Req) (k : Session) (f : Nat) : (s.admitted r k).atRest f = s.atRest f := by
  simp [State.atRest, State.idleSeat]

section
variable {s : State} {r : Req} {i : Nat} {k : Session} {cls cmd : Nat} {x : Rights} {c : Instr}

/-- What has to wait for the next bell is listed there. -/
theorem Heard.listed (h : Heard s r i k cls cmd x) {b : BellCmd} {now : State → State}
    (e : exec c s = .next (((s.admitted r k).atBellOr (reqField r) b now).respond r stOk)) (hr : s.atRest (reqField r) = false) :
    Does c s r stOk 0 .empty (fun t => UnitsKept s t ∧
      OnlySeat (reqField r) { s.seat (reqField r) with atBell := (s.seat (reqField r)).atBell ++ [b] } s t) := by
  unfold State.atBellOr at e
  rw [State.admitted_atRest, if_neg (by simp [hr])] at e
  refine h.does e (by simp) ⟨h.admitted_units.trans ((State.setSeat_unitsKept _ _ _).trans (State.respond_unitsKept _ _ _ _ _)), ?_⟩
  exact (OnlySeat.modSeat (reqField_lt r) (by simp) (by simp) fun q : Seat => { q with atBell := q.atBell ++ [b] }).respond _ _ _ _

theorem Heard.at_once {b : BellCmd} {now : State → State} (e : exec c s = .next (((s.admitted r k).atBellOr (reqField r) b now).respond r stOk)) (hr : s.atRest (reqField r) = true) :
    exec c s = .next ((now (s.admitted r k)).respond r stOk) := by
  unfold State.atBellOr at e
  rwa [State.admitted_atRest, if_pos hr] at e

end

/-! ### SEAT and PEERS -/

theorem peersOk_lt {r : Req} {peers : List PeerSpec} (h : peersOk r peers = true) : ∀ p ∈ peers, p.link < 24 := by
  unfold peersOk at h
  rw [List.all_eq_true] at h
  intro p hp
  have := h p hp
  simp only [Bool.and_eq_true, decide_eq_true_eq] at this
  exact this.1

section
variable {s : State} {r : Req} {i : Nat} {k : Session}

section
variable {m : BitVec 14} {e : BitVec 32} {peers : List PeerSpec} (h : Admitted s r i k 6 1 .bound)
include h

theorem exec_jobSeat : exec (.jobSeat r m e peers) s = .next (
    if s.px.factoryOpened then (s.admitted r k).deny r 6 1
    else if !peersOk r peers then (s.admitted r k).badField r
    else if (s.seat (reqField r)).cm.seatState = 1 then (s.admitted r k).respond r stWrongState (s.wrongDetail (reqField r))
    else ((s.admitted r k).atBellOr (reqField r) (.seat m e peers) (fun s => s.takeSeat (reqField r) m e peers)).respond r stOk) := by
  rw [h.exec_go rfl]
  dsimp only
  rw [State.admitted_px, State.admitted_seat, State.admitted_wrongDetail]

theorem jobSeat_opened (ho : s.px.factoryOpened = true) : ∃ t y rest, exec (.jobSeat r m e peers) s = .next t ∧
    t.host.sent = .slate y :: rest ∧ y.seq = r.seq ∧ y.status = stDenied ∧ UnitsKept s t := by
  obtain ⟨t, ht, ⟨y, rest, hy, -, hseq, -, hst, -⟩, hu, -⟩ := h.heard.deny (c := .jobSeat r m e peers) (by rw [exec_jobSeat h, if_pos ho])
  exact ⟨t, y, rest, ht, hy, hseq, hst, hu⟩

variable (ho : s.px.factoryOpened = false)
include ho

theorem jobSeat_badPeers (hp : peersOk r peers = false) : Replies (.jobSeat r m e peers) s r stBadField s.freshWord .empty :=
  h.heard.badField (by rw [exec_jobSeat h, if_neg (by simp [ho]), if_pos (by simp [hp])])

variable (hp : peersOk r peers = true)
include hp

theorem jobSeat_standby (hs : (s.seat (reqField r)).cm.seatState = 1) :
    Replies (.jobSeat r m e peers) s r stWrongState (s.wrongDetail (reqField r)) .empty :=
  replies_heard h.heard (by rw [exec_jobSeat h, if_neg (by simp [ho]), if_neg (by simp [hp]), if_pos hs])

variable (hs : (s.seat (reqField r)).cm.seatState ≠ 1)
include hs

theorem exec_jobSeat_takes : exec (.jobSeat r m e peers) s = .next
    (((s.admitted r k).atBellOr (reqField r) (.seat m e peers) (fun s => s.takeSeat (reqField r) m e peers)).respond r stOk) := by
  rw [exec_jobSeat h, if_neg (by simp [ho]), if_neg (by simp [hp]), if_neg hs]

theorem jobSeat_takes (hr : s.atRest (reqField r) = true) : Does (.jobSeat r m e peers) s r stOk 0 .empty (fun t => t.mem = s.mem ∧
    t.cores = s.cores ∧ Linked s peers e t ∧ (t.seat (reqField r)).ck.lastCommit = none ∧
    (t.seat (reqField r)).cm = { (s.seat (reqField r)).cm with moduleId := m, epoch := e, seatState := 4 } ∧
    (t.seat (reqField r)).tt = { (s.seat (reqField r)).tt with counted := (s.seat (reqField r)).plan.isSome && (s.seat (reqField r)).tt.isRoot } ∧
    (t.seat (reqField r)).plan = (s.seat (reqField r)).plan) := by
  let v := (s.admitted r k).modSeat (reqField r) (fun q => (q.takeId m e 4).uncounted)
  have hv : v.seat (reqField r) = ((s.seat (reqField r)).takeId m e 4).uncounted := by
    rw [State.seat_modSeat_self _ _ (reqField_lt r), State.admitted_seat]
  obtain ⟨ho, hl⟩ := State.givePeers_linked (s := v) (peersOk_lt hp) e
  have hseat : ((v.givePeers peers e).respond r stOk).seat (reqField r) = ((s.seat (reqField r)).takeId m e 4).uncounted := by
    rw [State.respond_seat, State.seat_congr _ ho.seats (by rw [ho.host]), hv]
  refine h.heard.does (Heard.at_once (exec_jobSeat_takes h ‹_› hp hs) hr) ?_ ⟨?_, ?_, ?_, ?_, ?_, ?_, ?_⟩
  · show (v.givePeers peers e).host.sessions = _
    rw [ho.host]
    simp [v]
  · show ((v.givePeers peers e).respond r stOk).mem = _
    rw [State.respond_mem, ho.mem]
    simp [v]
  · show ((v.givePeers peers e).respond r stOk).cores = _
    rw [State.respond_cores, ho.cores]
    simp [v]
  · refine hl.of_eq (fun l => ?_) ?_ fun l => State.link_congr l (State.respond_links _ _ _ _ _)
    · rw [State.link_congr l (State.modSeat_links _ _ _), State.admitted_link]
    · simp [v]
  · exact (congrArg (fun q : Seat => q.ck.lastCommit) hseat :)
  · exact (congrArg Seat.cm hseat :)
  · exact (congrArg Seat.tt hseat :)
  · exact (congrArg Seat.plan hseat :)

end

section
variable {peers : List PeerSpec} (h : Admitted s r i k 6 7 .bound)
include h

theorem exec_jobPeers : exec (.jobPeers r peers) s = .next (
    if !peersOk r peers then (s.admitted r k).badField r
    else if (s.seat (reqField r)).cm.seatState < 2 then (s.admitted r k).respond r stNotSeated ((s.seat (reqField r)).cm.seatState.setWidth 64)
    else ((s.admitted r k).atBellOr (reqField r) (.peers peers) (fun s => s.givePeers peers (s.seat (reqField r)).cm.epoch)).respond r stOk) := by
  rw [h.exec_go rfl]
  dsimp only
  rw [State.admitted_seat]

theorem jobPeers_badPeers (hp : peersOk r peers = false) : Replies (.jobPeers r peers) s r stBadField s.freshWord .empty :=
  h.heard.badField (by rw [exec_jobPeers h, if_pos (by simp [hp])])

variable (hp : peersOk r peers = true)
include hp

theorem jobPeers_notSeated (hs : (s.seat (reqField r)).cm.seatState < 2) :
    Replies (.jobPeers r peers) s r stNotSeated ((s.seat (reqField r)).cm.seatState.setWidth 64) .empty :=
  replies_heard h.heard (by rw [exec_jobPeers h, if_neg (by simp [hp]), if_pos hs])

variable (hs : 2 ≤ (s.seat (reqField r)).cm.seatState)
include hs

theorem exec_jobPeers_replaces : exec (.jobPeers r peers) s = .next
    (((s.admitted r k).atBellOr (reqField r) (.peers peers) (fun s => s.givePeers peers (s.seat (reqField r)).cm.epoch)).respond r stOk) := by
  rw [exec_jobPeers h, if_neg (by simp [hp]), if_neg (BitVec.not_lt.2 hs)]

theorem jobPeers_replaces (hr : s.atRest (reqField r) = true) : Does (.jobPeers r peers) s r stOk 0 .empty (fun t => t.mem = s.mem ∧
    t.cores = s.cores ∧ SeatsKept s t ∧ Linked s peers (s.seat (reqField r)).cm.epoch t) := by
  let u := s.admitted r k
  have e := Heard.at_once (exec_jobPeers_replaces h hp hs) hr
  rw [State.admitted_seat] at e
  obtain ⟨ho, hl⟩ := State.givePeers_linked (s := u) (peersOk_lt hp) (s.seat (reqField r)).cm.epoch
  refine h.heard.does e (by rw [ho.host]) ⟨?_, ?_, SeatsKept.of_eq ?_ ?_, hl.of_eq (fun l => State.admitted_link s r k l) (s.admitted_store r k)
    fun l => State.link_congr l (State.respond_links _ _ _ _ _)⟩
  · rw [State.respond_mem, ho.mem, State.admitted_mem]
  · rw [State.respond_cores, ho.cores, State.admitted_cores]
  · rw [State.respond_seats, ho.seats, State.admitted_seats]
  · rw [State.respond_layout, ho.host, State.admitted_layout]

end

/-! ### PARTNER -/

/-- A seat with more messages to send. -/
theorem Seat.queueBulk_only (q : Seat) (f : Nat) (kind : BulkKind) (off : Nat) (data : List Byte) (base first : Nat) :
    q.queueBulk f kind off data base first = { q with bulkOut := (q.queueBulk f kind off data base first).bulkOut } := by
  unfold Seat.queueBulk
  cases q.bulkChan f kind <;> rfl

theorem Seat.queueBulks_only (l : List Nat) (f : Nat) (kind : BulkKind) (data : Nat → List Byte) (q : Seat) :
    l.foldl (fun q i => q.queueBulk f kind i (data i)) q = { q with bulkOut := (l.foldl (fun q i => q.queueBulk f kind i (data i)) q).bulkOut } := by
  induction l generalizing q with
  | nil => rfl
  | cons i l ih =>
    rw [List.foldl_cons, ih, Seat.queueBulk_only]

/-- A Librarian's message changes what its seat sends alone. -/
theorem State.tell_seat (s : State) {f : Nat} (hf : f < 4) (x : XMsg) : ((s.tell f x).seat f) =
    { s.seat f with bulkOut := ((s.tell f x).seat f).bulkOut, cm := { (s.seat f).cm with outbox := x :: (s.seat f).cm.outbox } } := by
  unfold State.tell
  dsimp only
  rw [State.seat_modSeat_self _ _ hf]
  exact Seat.queueBulks_only _ _ _ _ _

theorem State.tell_onlySeat (s : State) {f : Nat} (hf : f < 4) (x : XMsg) : OnlySeat f { s.seat f with
    bulkOut := ((s.tell f x).seat f).bulkOut, cm := { (s.seat f).cm with outbox := x :: (s.seat f).cm.outbox } } s (s.tell f x) := by
  refine ⟨s.tell_seat hf x, ?_⟩
  unfold State.tell
  exact (s.modSeat_onlySeat hf _).2

section
variable {p : BitVec 14} {both : Bool} (h : Admitted s r i k 6 2 .bound)
include h

theorem exec_jobPartner : exec (.jobPartner r p both) s = .next (
    if s.atRest (reqField r) then (((s.admitted r k).modCm (reqField r)
        (fun m => { m with partner := p, named := true, partnerOk := both || m.namedBy == some p })).tell (reqField r)
        (.named p (s.seat (reqField r)).cm.moduleId)).respond r stOk
    else (s.admitted r k).respond r stWrongState (s.wrongDetail (reqField r))) := by
  rw [h.exec_go rfl]
  unfold State.atRestOnly State.need
  dsimp only
  rw [State.admitted_atRest, State.admitted_wrongDetail]
  have hm : ((s.admitted r k).modCm (reqField r) (fun m => { m with partner := p, named := true, partnerOk := both || m.namedBy == some p })).seat
      (reqField r) = { s.seat (reqField r) with cm := { (s.seat (reqField r)).cm with
        partner := p, named := true, partnerOk := both || (s.seat (reqField r)).cm.namedBy == some p } } := by
    unfold State.modCm
    rw [State.seat_modSeat_self _ _ (reqField_lt r), State.admitted_seat]
  rw [hm]

theorem jobPartner_running (hr : s.atRest (reqField r) = false) :
    Replies (.jobPartner r p both) s r stWrongState (s.wrongDetail (reqField r)) .empty :=
  replies_heard h.heard (by rw [exec_jobPartner h, if_neg (by simp [hr])])

theorem jobPartner_names (hr : s.atRest (reqField r) = true) : Does (.jobPartner r p both) s r stOk 0 .empty (fun t => UnitsKept s t ∧
    OnlySeat (reqField r) { s.seat (reqField r) with
      bulkOut := (t.seat (reqField r)).bulkOut,
      cm := { (s.seat (reqField r)).cm with
              partner := p, named := true, partnerOk := both || (s.seat (reqField r)).cm.namedBy == some p
              outbox := .named p (s.seat (reqField r)).cm.moduleId :: (s.seat (reqField r)).cm.outbox } } s t) := by
  let f := reqField r
  let v := (s.admitted r k).modCm f (fun m => { m with partner := p, named := true, partnerOk := both || m.namedBy == some p })
  have ho := v.tell_onlySeat (reqField_lt r) (.named p (s.seat f).cm.moduleId)
  have hv : OnlySeat f { s.seat f with cm := { (s.seat f).cm with
        partner := p, named := true, partnerOk := both || (s.seat f).cm.namedBy == some p } } s v :=
    OnlySeat.modSeat (reqField_lt r) (by simp) (by simp) fun q : Seat => { q with cm := _ }
  have e := exec_jobPartner h (p := p) (both := both)
  rw [if_pos hr] at e
  refine h.heard.does e (by simp [State.tell]) ⟨h.heard.admitted_units.trans ((State.setSeat_unitsKept _ _ _).trans
    ((State.setSeat_unitsKept _ _ _).trans (State.respond_unitsKept _ _ _ _ _))), ?_⟩
  rw [State.respond_seat]
  refine OnlySeat.respond ⟨?_, fun g hg => ?_⟩ _ _ _ _
  · have h1 := ho.1
    rw [hv.1] at h1
    exact h1
  · rw [← hv.2 g hg]
    have hix (e : Nat) : v.seatIx e = s.seatIx e := State.seatIx_congr e (by simp [v])
    exact ho.2 g (by rw [hix, hix]; exact hg)

end

/-! ### STANDBY and ASSUME -/

theorem linksOfField_lt {f : Nat} (hf : f < 4) : ∀ l ∈ linksOfField f, l < 24 := by
  intro l hl
  obtain ⟨j, hj, rfl⟩ := List.mem_map.1 hl
  rw [List.mem_range] at hj
  omega

theorem State.seatLinks_lt {s : State} {g : Nat} : ∀ l ∈ s.seatLinks g, l < 24 := by
  intro l hl
  obtain ⟨f, hf, hl⟩ := List.mem_flatMap.1 hl
  exact linksOfField_lt (partFields_lt hf) l hl

/-- The seat that a substitute takes (R269). -/
def Seat.assume (q : Seat) (m p : BitVec 14) (ep : BitVec 32) (n : BitVec 64) : Seat :=
  let q := (q.takeId m ep 2).uncounted
  { q with cm := { q.cm with partner := p, partnerOk := true, named := true, namedBy := some p, committed := n, live := n, partnerStep := some n } }

/-- The links of a seat that leaves the job idle on their presets, without keys. -/
def Link.idled (k : Link) : Link := { k.unkeyed with st := if k.st = .off then .dark else k.st }

theorem Link.idled_idled (k : Link) : k.idled.idled = k.idled := by
  unfold Link.idled
  dsimp only [Link.unkeyed]
  split <;> simp_all

theorem idleLinks_step (v : State) (ls : List Nat) (hl : ∀ l ∈ ls, l < 24) : LinksOnly v (eachOf ls (fun l t => t.modLink l Link.idled) v) ∧
    ∀ l ∈ ls, (eachOf ls (fun l t => t.modLink l Link.idled) v).link l = (v.link l).idled := by
  obtain ⟨⟨h1, -⟩, h2, -⟩ := eachOf_gives (I := fun t => LinksOnly v t ∧ ∀ l, t.link l = v.link l ∨ t.link l = (v.link l).idled)
    (Q := fun l t => t.link l = (v.link l).idled) (g := fun l t => t.modLink l Link.idled) ls
    (fun l hl' t ht => by
      refine ⟨ht.1.trans (State.modLink_linksOnly _ _ _), fun e => ?_⟩
      rw [State.link_modLink (hl l hl')]
      split
      next he =>
        rw [he]
        rcases ht.2 l with h | h
        · exact .inr (by rw [h])
        · exact .inr (by rw [h, Link.idled_idled])
      next => exact ht.2 e)
    (fun l hl' t ht => by
      rw [State.link_modLink (hl l hl'), if_pos rfl]
      rcases ht.2 l with h | h
      · rw [h]
      · rw [h, Link.idled_idled])
    (fun e l hl' t ht he => by
      rw [State.link_modLink (hl l hl')]
      split
      next hel => rw [← hel, he, Link.idled_idled]
      next => exact he)
    (s := v) ⟨rfl, fun _ => .inl rfl⟩
  exact ⟨h1, h2⟩

theorem State.seatOfReq_lt {g : Nat} (h : s.seatOfReq r = some g) : g < 4 := by
  unfold State.seatOfReq at h
  split at h
  · cases h
    exact reqField_lt r
  · split at h
    · cases h
      decide
    · cases h

@[simp] theorem State.admitted_seatOfReq : (s.admitted r k).seatOfReq r = s.seatOfReq r := by simp [State.seatOfReq, State.partLive]

section
variable (h : Admitted s r i k 6 4 .owner)
include h

theorem jobStandby_nobody (hg : s.seatOfReq r = none) : Replies (.jobStandby r) s r stBadField s.freshWord .empty := by
  refine h.heard.badField ((h.exec_go rfl).trans ?_)
  dsimp only
  rw [State.admitted_seatOfReq, hg]

variable {g : Nat} (hg : s.seatOfReq r = some g)
include hg

theorem exec_jobStandby : exec (.jobStandby r) s = .next (
    let u := s.admitted r k
    if s.px.factoryOpened then u.deny r 6 4
    else if (s.seat g).plan.isSome ∨ 1 < (s.seat g).cm.seatState then u.respond r stWrongState (s.wrongDetail g)
    else
      let v := u.modSeat g (fun k => { k with cm := { k.cm with seatState := 1 }, tt := { k.tt with counted := false } })
      (eachOf (s.seatLinks g) (fun l t => t.modLink l (fun k => { k.unkeyed with st := if k.st = .off then .dark else k.st })) v).respond r stOk) := by
  rw [h.exec_go rfl]
  dsimp only
  rw [State.admitted_seatOfReq, hg]
  dsimp only
  rw [State.admitted_px, State.admitted_seat, State.admitted_wrongDetail]
  simp only [State.seatLinks, State.seatFields, State.partOf, State.modSeat_host, State.admitted_layout]

theorem jobStandby_opened (ho : s.px.factoryOpened = true) : Does (.jobStandby r) s r stDenied (opDetail 6 4) .empty (fun t => UnitsKept s t ∧
    ∀ f, t.seat f = { s.seat f with vlog := (t.seat f).vlog }) := by
  refine (h.heard.deny ?_).imp fun t ht => ⟨ht.1, ht.2.2⟩
  have e := exec_jobStandby h hg
  dsimp only at e
  rw [e, if_pos ho]

variable (ho : s.px.factoryOpened = false)
include ho

theorem jobStandby_seated (hs : (s.seat g).plan.isSome = true ∨ 1 < (s.seat g).cm.seatState) :
    Replies (.jobStandby r) s r stWrongState (s.wrongDetail g) .empty := by
  have e := exec_jobStandby h hg
  dsimp only at e
  exact replies_heard h.heard (by rw [e, if_neg (by simp [ho]), if_pos hs])

theorem jobStandby_idles (hp : (s.seat g).plan = none) (hs : (s.seat g).cm.seatState ≤ 1) :
    Does (.jobStandby r) s r stOk 0 .empty (fun t => t.mem = s.mem ∧ t.cores = s.cores ∧
      OnlySeat g { s.seat g with cm := { (s.seat g).cm with seatState := 1 }, tt := { (s.seat g).tt with counted := false } } s t ∧
      ∀ l ∈ s.seatLinks g, (t.link l).keyEpoch = none ∧ (t.link l).nodeOk = false ∧
        (t.link l).st = (if (s.link l).st = .off then .dark else (s.link l).st)) := by
  let v := (s.admitted r k).modSeat g (fun k => { k with cm := { k.cm with seatState := 1 }, tt := { k.tt with counted := false } })
  obtain ⟨h1, h2⟩ := idleLinks_step v (s.seatLinks g) State.seatLinks_lt
  have e := exec_jobStandby h hg
  dsimp only at e
  rw [if_neg (by simp [ho]), if_neg (not_or.2 ⟨by simp [hp], BitVec.not_lt.2 hs⟩)] at e
  have hv : OnlySeat g _ s v := OnlySeat.modSeat (State.seatOfReq_lt hg) (by simp) (by simp)
    fun q : Seat => { q with cm := { q.cm with seatState := 1 }, tt := { q.tt with counted := false } }
  have hseat (f : Nat) : (eachOf (s.seatLinks g) (fun l t => t.modLink l Link.idled) v).seat f = v.seat f :=
    State.seat_congr f h1.seats (by rw [h1.host])
  refine h.heard.does e (by exact (congrArg HostPort.sessions h1.host).trans (by simp [v])) ⟨?_, ?_, ?_, fun l hl => ?_⟩
  · exact (State.respond_mem _ _ _ _ _).trans (h1.mem.trans (by simp [v]))
  · exact (State.respond_cores _ _ _ _ _).trans (h1.cores.trans (by simp [v]))
  · exact OnlySeat.respond ⟨(hseat g).trans hv.1, fun f hf => (hseat f).trans (hv.2 f hf)⟩ _ _ _ _
  · have hlink : v.link l = s.link l := (State.link_congr l (State.modSeat_links _ _ _)).trans (State.admitted_link s r k l)
    have hl' := h2 l hl
    rw [hlink, ← State.link_congr l (State.respond_links _ r stOk 0 .empty)] at hl'
    exact ⟨congrArg Link.keyEpoch hl', congrArg Link.nodeOk hl', congrArg Link.st hl'⟩

end

section
variable {m p : BitVec 14} {ep : BitVec 32} {ver : BitVec 16} {n : BitVec 64} {peers : List PeerSpec} (h : Admitted s r i k 6 5 .owner)
include h

theorem jobAssume_nobody (hg : s.seatOfReq r = none) : Replies (.jobAssume r m p ep ver n peers) s r stBadField s.freshWord .empty := by
  refine h.heard.badField ((h.exec_go rfl).trans ?_)
  dsimp only
  rw [State.admitted_seatOfReq, hg]

variable {g : Nat} (hg : s.seatOfReq r = some g)
include hg

theorem exec_jobAssume : exec (.jobAssume r m p ep ver n peers) s = .next (
    let u := s.admitted r k
    if s.px.factoryOpened then u.deny r 6 5
    else if !peers.all (fun p => decide (p.link < 24) && (s.seatLinks g).contains p.link) then u.badField r
    else if (s.seat g).cm.seatState ≠ 1 then u.respond r stWrongState (s.wrongDetail g)
    else ((u.modSeat g (fun q => q.assume m p ep n)).givePeers peers ep).respond r stOk) := by
  rw [h.exec_go rfl]
  dsimp only
  rw [State.admitted_seatOfReq, hg]
  dsimp only
  rw [State.admitted_px, State.admitted_seat, State.admitted_wrongDetail]
  simp only [State.seatLinks, State.admitted_seatFields]
  rfl

theorem jobAssume_opened (ho : s.px.factoryOpened = true) : Does (.jobAssume r m p ep ver n peers) s r stDenied (opDetail 6 5) .empty
    (fun t => UnitsKept s t ∧ ∀ f, t.seat f = { s.seat f with vlog := (t.seat f).vlog }) := by
  refine (h.heard.deny ?_).imp fun t ht => ⟨ht.1, ht.2.2⟩
  have e := exec_jobAssume (m := m) (p := p) (ep := ep) (ver := ver) (n := n) (peers := peers) h hg
  dsimp only at e
  rw [e, if_pos ho]

variable (ho : s.px.factoryOpened = false) (hp : ∀ x ∈ peers, x.link ∈ s.seatLinks g)
include ho hp

theorem exec_jobAssume_named : exec (.jobAssume r m p ep ver n peers) s = .next (
    let u := s.admitted r k
    if (s.seat g).cm.seatState ≠ 1 then u.respond r stWrongState (s.wrongDetail g)
    else ((u.modSeat g (fun q => q.assume m p ep n)).givePeers peers ep).respond r stOk) := by
  have e := exec_jobAssume (m := m) (p := p) (ep := ep) (ver := ver) (n := n) (peers := peers) h hg
  dsimp only at e
  have hall : peers.all (fun p => decide (p.link < 24) && (s.seatLinks g).contains p.link) = true := by
    rw [List.all_eq_true]
    intro x hx
    simp [hp x hx, State.seatLinks_lt _ (hp x hx)]
  rw [e, if_neg (by simp [ho]), if_neg (by rw [hall]; decide)]

theorem jobAssume_seated (hs : (s.seat g).cm.seatState ≠ 1) :
    Replies (.jobAssume r m p ep ver n peers) s r stWrongState (s.wrongDetail g) .empty := by
  have e := exec_jobAssume_named (m := m) (p := p) (ep := ep) (ver := ver) (n := n) h hg ho hp
  dsimp only at e
  exact replies_heard h.heard (by rw [e, if_pos hs])

theorem jobAssume_takes (hs : (s.seat g).cm.seatState = 1) : Does (.jobAssume r m p ep ver n peers) s r stOk 0 .empty (fun t =>
    t.mem = s.mem ∧ t.cores = s.cores ∧ Linked s peers ep t ∧ (t.seat g).cm = ((s.seat g).assume m p ep n).cm) := by
  have e := exec_jobAssume_named (m := m) (p := p) (ep := ep) (ver := ver) (n := n) h hg ho hp
  dsimp only at e
  rw [if_neg (not_not.2 hs)] at e
  let v := (s.admitted r k).modSeat g (fun q => q.assume m p ep n)
  have hv : v.seat g = (s.seat g).assume m p ep n := by
    rw [State.seat_modSeat_self _ _ (State.seatOfReq_lt hg), State.admitted_seat]
  obtain ⟨h1, hl⟩ := State.givePeers_linked (s := v) (peers := peers) (fun x hx => State.seatLinks_lt _ (hp x hx)) ep
  refine h.heard.does e (by exact (congrArg HostPort.sessions h1.host).trans (by simp [v])) ⟨?_, ?_, hl.of_eq (fun l => ?_) ?_ fun l =>
    State.link_congr l (State.respond_links _ _ _ _ _), ?_⟩
  · exact (State.respond_mem _ _ _ _ _).trans (h1.mem.trans (by simp [v]))
  · exact (State.respond_cores _ _ _ _ _).trans (h1.cores.trans (by simp [v]))
  · exact (State.link_congr l (State.modSeat_links _ _ _)).trans (State.admitted_link s r k l)
  · simp [v]
  · rw [State.respond_seat, State.seat_congr _ h1.seats (by rw [h1.host]), hv]

end

end

end Sys2Proof.Machine
end

section
/-! Fills, handovers and the seat given up (R253, R267, R270, R271, R346), and O41. -/

namespace Sys2Proof.Machine

/-! ### The Librarians of a partition -/

/-- A change of a Librarian in each field of a list. -/
theorem eachOf_modLb (g : Lb → Lb) {l : List Nat} (hl : ∀ f ∈ l, f < 4) (hn : l.Nodup) (s : State) (e : Nat) :
    ((eachOf l (fun f t => t.modLb f g) s).field e).lb = if e ∈ l then g (s.field e).lb else (s.field e).lb := by
  unfold eachOf
  induction l generalizing s with
  | nil => rfl
  | cons f l ih =>
    rw [List.nodup_cons] at hn
    rw [List.foldl_cons, ih (fun x hx => hl x (List.mem_cons_of_mem _ hx)) hn.2]
    unfold State.modLb
    by_cases he : e = f
    · rw [he, State.field_setField_self _ _ (hl f List.mem_cons_self), if_neg hn.1, if_pos List.mem_cons_self]
    · rw [State.field_setField_ne _ _ he]
      simp [he]

theorem State.modLbs_lb (s : State) (f : Nat) (g : Lb → Lb) (e : Nat) :
    ((s.modLbs f g).field e).lb = if e ∈ s.seatFields f then g (s.field e).lb else (s.field e).lb :=
  eachOf_modLb g (fun _ h => partFields_lt h) (partFields_nodup _) s e

theorem State.modLbs_mem (s : State) (f : Nat) (g : Lb → Lb) : (s.modLbs f g).mem = s.mem :=
  eachOf_keeps (fun t => t.mem = s.mem) _ _ (fun _ t ht => (State.modLb_mem t _ _).trans ht) s rfl

@[simp] theorem State.tell_mem (s : State) (f : Nat) (x : XMsg) : (s.tell f x).mem = s.mem := by simp [State.tell]
@[simp] theorem State.tell_host (s : State) (f : Nat) (x : XMsg) : (s.tell f x).host = s.host := by simp [State.tell]
@[simp] theorem State.tell_fields (s : State) (f : Nat) (x : XMsg) : (s.tell f x).fields = s.fields := by simp [State.tell]
@[simp] theorem State.tell_px (s : State) (f : Nat) (x : XMsg) : (s.tell f x).px = s.px := by simp [State.tell]

section
variable {s : State} {r : Req} {i : Nat} {k : Session}

@[simp] theorem State.admitted_fwDigest : (s.admitted r k).fwDigest = s.fwDigest := by simp [State.fwDigest]

theorem Heard.appliesEnded {cls cmd : Nat} {x : Rights} (h : Heard s r i k cls cmd x) (f : Nat) :
    (s.admitted r k).appliesEnded f = s.appliesEnded f := by
  have e (g : Nat) : ((s.admitted r k).field g).lb = (s.field g).lb := (h.field_parts g).2.1
  simp only [State.appliesEnded, State.admitted_seatFields, e]

/-! ### FILL -/

/-- A fill from a step. -/
def Seat.fillOf (q : Seat) (r : Req) (a b : Nat) (step : BitVec 64) : Xfer :=
  { kind := .fill, step := step, req := some r, due := q.fillUnits r.expert a b }

/-- A fill asked for: the partner is told. -/
def State.askFill (s : State) (f : Nat) (r : Req) (a b : Nat) (step : BitVec 64) : State :=
  ((s.modLbs f (fun l => { l with mState := 1 })).modCm f (fun m => { m with xfers := m.xfers ++ [(s.seat f).fillOf r a b step] })).tell f
    (.fillAsk a (if r.expert then b else (s.seat f).mirrorUnits.length - 1) s.fwDigest 0xA1)

theorem State.askFill_seat {f : Nat} (hf : f < 4) (s : State) (a b : Nat) (step : BitVec 64) :
    ((s.askFill f r a b step).seat f).cm.xfers = (s.seat f).cm.xfers ++ [(s.seat f).fillOf r a b step] ∧
    ((s.askFill f r a b step).seat f).cm.outbox =
      .fillAsk a (if r.expert then b else (s.seat f).mirrorUnits.length - 1) s.fwDigest 0xA1 :: (s.seat f).cm.outbox := by
  obtain ⟨hs, hh, -, -⟩ := s.modLbs_keeps f (fun l => { l with mState := 1 })
  unfold State.askFill
  rw [State.tell_seat _ hf]
  unfold State.modCm
  rw [State.seat_modSeat_self _ _ hf, State.seat_congr f hs (by rw [hh])]
  exact ⟨rfl, rfl⟩

theorem State.askFill_rest (s : State) (f : Nat) (a b : Nat) (step : BitVec 64) : (s.askFill f r a b step).mem = s.mem ∧
    (s.askFill f r a b step).host = s.host ∧
    ∀ e, ((s.askFill f r a b step).field e).lb = if e ∈ s.seatFields f then { (s.field e).lb with mState := 1 } else (s.field e).lb := by
  obtain ⟨hs, hh, -, -⟩ := s.modLbs_keeps f (fun l => { l with mState := 1 })
  unfold State.askFill
  refine ⟨by simp [State.modLbs_mem], (State.tell_host _ _ _).trans ((State.modCm_host _ _ _).trans hh), fun e => ?_⟩
  rw [State.field_congr e (State.tell_fields _ _ _), State.field_congr e (State.modCm_fields _ _ _), State.modLbs_lb]

/-- A fill that has ended: its mirror belongs to a step. -/
theorem State.xferDone_fill {f : Nat} (hf : f < 4) (s : State) (x : Xfer) (hx : x.kind = .fill) (hr : x.req = some r) :
    ∃ v : State, s.xferDone f x = v.respond r stOk ∧ v.mem = s.mem ∧ v.host = s.host ∧
      (v.seat f).cm.xfers = (s.seat f).cm.xfers.flatMap (fun y => if y = x then [] else [y]) ∧
      ∀ g ∈ s.seatFields f, (v.field g).lb.mState = 2 ∧ (v.field g).lb.mirrorFor = x.step := by
  let u := s.modCm f (fun m => m.setXfer x none)
  let w := u.modCm f (fun m => { m with units := [], partnerStep := some x.step })
  obtain ⟨hs, hh, -, -⟩ := w.modLbs_keeps f (fun b => { b with mirrorFor := x.step, mState := 2, verified := true, selfChecked := false, unresolved := false })
  refine ⟨u.mirrorFilled f x.step, ?_, ?_, ?_, ?_, fun g hg => ?_⟩
  · unfold State.xferDone
    dsimp only
    rw [hx, hr]
    rfl
  · unfold State.mirrorFilled
    rw [State.modLbs_mem]
    simp [u]
  · unfold State.mirrorFilled
    rw [hh]
    simp [u, w]
  · unfold State.mirrorFilled
    rw [State.seat_congr f hs (by rw [hh])]
    dsimp only [w, u]
    unfold State.modCm
    rw [State.seat_modSeat_self _ _ hf, State.seat_modSeat_self _ _ hf]
    rfl
  · unfold State.mirrorFilled
    rw [State.modLbs_lb, if_pos (by simpa [State.seatFields, State.partOf, u] using hg)]
    exact ⟨rfl, rfl⟩

section
variable {a b : Nat} {digest : BitVec 384} {stepping : BitVec 8} {step : BitVec 64} (h : Admitted s r i k 6 3 .bound)
  (hx : r.expert = true ∨ a = 0 ∧ b = 0)
include h hx

theorem jobFill_noPlan (hp : (s.seat (reqField r)).plan = none) : Replies (.jobFill r a b ⟨digest, stepping⟩ step) s r stNoPlan 0 .empty := by
  refine replies_heard h.heard ((h.exec_go rfl).trans ?_)
  rw [State.expertOnly_goes (hx.imp_right (by rintro ⟨rfl, rfl⟩; rfl)), State.planned_none (by rwa [State.admitted_seat])]

variable (hp : (s.seat (reqField r)).plan.isSome = true)
include hp

theorem exec_jobFill : exec (.jobFill r a b ⟨digest, stepping⟩ step) s = .next (
    let f := reqField r
    let q := s.seat f
    let u := s.admitted r k
    if !q.cm.partnerOk ∨ q.xfer.isSome ∨ !s.appliesEnded f ∨ q.cm.serving then u.respond r stWrongState (s.wrongDetail f)
    else if r.expert ∧ (b < a ∨ q.mirrorUnits.length ≤ b) then u.badField r
    else if digest ≠ s.fwDigest ∨ stepping ≠ 0xA1 then u.respond r stPairing
    else if q.fillUnits r.expert a b = [] then (u.askFill f r a b step).xferDone f (q.fillOf r a b step)
    else u.askFill f r a b step) := by
  refine (h.exec_go rfl).trans ?_
  rw [State.expertOnly_goes (hx.imp_right (by rintro ⟨rfl, rfl⟩; rfl)), State.planned_some (by rwa [State.admitted_seat])]
  dsimp only
  rw [State.admitted_seat, h.heard.appliesEnded, State.admitted_wrongDetail, State.admitted_fwDigest]
  have e (v : State) : ((v.modLbs (reqField r) (fun b => { b with mState := 1 })).modCm (reqField r) (fun m => { m with xfers := m.xfers ++
    [(s.seat (reqField r)).fillOf r a b step] })).fwDigest = v.fwDigest := by
    unfold State.fwDigest
    rw [State.modCm_px, (v.modLbs_keeps _ _).2.2.1]
  unfold State.askFill
  dsimp only [Seat.fillOf] at e ⊢
  rw [e, State.admitted_seat, State.admitted_fwDigest]

theorem jobFill_wrong (hm : ¬((s.seat (reqField r)).cm.partnerOk = true ∧ (s.seat (reqField r)).xfer = none ∧
      s.appliesEnded (reqField r) = true ∧ (s.seat (reqField r)).cm.serving = false)) :
    Replies (.jobFill r a b ⟨digest, stepping⟩ step) s r stWrongState (s.wrongDetail (reqField r)) .empty := by
  have e := exec_jobFill (digest := digest) (stepping := stepping) (step := step) h hx hp
  dsimp only at e
  refine replies_heard h.heard ?_
  rw [e, if_pos]
  by_contra hn
  rw [not_or, not_or, not_or] at hn
  obtain ⟨h1, h2, h3, h4⟩ := hn
  exact hm ⟨by simpa using h1, by simpa using h2, by simpa using h3, by simpa using h4⟩

variable (hm : (s.seat (reqField r)).cm.partnerOk = true ∧ (s.seat (reqField r)).xfer = none ∧
  s.appliesEnded (reqField r) = true ∧ (s.seat (reqField r)).cm.serving = false)
include hm

theorem exec_jobFill_may : exec (.jobFill r a b ⟨digest, stepping⟩ step) s = .next (
    let f := reqField r
    let q := s.seat f
    let u := s.admitted r k
    if r.expert ∧ (b < a ∨ q.mirrorUnits.length ≤ b) then u.badField r
    else if digest ≠ s.fwDigest ∨ stepping ≠ 0xA1 then u.respond r stPairing
    else if q.fillUnits r.expert a b = [] then (u.askFill f r a b step).xferDone f (q.fillOf r a b step)
    else u.askFill f r a b step) := by
  obtain ⟨h1, h2, h3, h4⟩ := hm
  have e := exec_jobFill (digest := digest) (stepping := stepping) (step := step) h hx hp
  dsimp only at e
  rw [e, if_neg]
  simp [h1, h2, h3, h4]

theorem jobFill_badRange (hr : ¬(r.expert = false ∨ a ≤ b ∧ b < (s.seat (reqField r)).mirrorUnits.length)) :
    Replies (.jobFill r a b ⟨digest, stepping⟩ step) s r stBadField s.freshWord .empty := by
  have e := exec_jobFill_may (digest := digest) (stepping := stepping) (step := step) h hx hp hm
  dsimp only at e
  refine h.heard.badField ?_
  rw [not_or, not_and_or, Nat.not_le, Nat.not_lt] at hr
  rw [e, if_pos ⟨by simpa using hr.1, hr.2⟩]

variable (hr : r.expert = false ∨ a ≤ b ∧ b < (s.seat (reqField r)).mirrorUnits.length)
include hr

theorem exec_jobFill_range : exec (.jobFill r a b ⟨digest, stepping⟩ step) s = .next (
    let f := reqField r
    let q := s.seat f
    let u := s.admitted r k
    if digest ≠ s.fwDigest ∨ stepping ≠ 0xA1 then u.respond r stPairing
    else if q.fillUnits r.expert a b = [] then (u.askFill f r a b step).xferDone f (q.fillOf r a b step)
    else u.askFill f r a b step) := by
  have e := exec_jobFill_may (digest := digest) (stepping := stepping) (step := step) h hx hp hm
  dsimp only at e
  rw [e, if_neg]
  rintro ⟨h1, h2⟩
  rcases hr with hr | ⟨h3, h4⟩
  · rw [hr] at h1; cases h1
  · omega

theorem jobFill_otherFirmware (hd : ¬(digest = s.fwDigest ∧ stepping = 0xA1)) :
    Replies (.jobFill r a b ⟨digest, stepping⟩ step) s r stPairing 0 .empty := by
  have e := exec_jobFill_range (digest := digest) (stepping := stepping) (step := step) h hx hp hm hr
  dsimp only at e
  exact replies_heard h.heard (by rw [e, if_pos (not_and_or.1 hd)])

variable (hd : digest = s.fwDigest ∧ stepping = 0xA1)
include hd

theorem jobFill_nothing (hu : (s.seat (reqField r)).fillUnits r.expert a b = []) :
    Does (.jobFill r a b ⟨digest, stepping⟩ step) s r stOk 0 .empty (fun t => t.mem = s.mem ∧
      (t.seat (reqField r)).cm.xfers = (s.seat (reqField r)).cm.xfers ∧
      ∀ g ∈ s.seatFields (reqField r), (t.field g).lb.mState = 2 ∧ (t.field g).lb.mirrorFor = step) := by
  let f := reqField r
  let v := (s.admitted r k).askFill f r a b step
  let x := (s.seat f).fillOf r a b step
  have e := exec_jobFill_range (digest := digest) (stepping := stepping) (step := step) h hx hp hm hr
  dsimp only at e
  rw [if_neg (not_or.2 ⟨not_not.2 hd.1, not_not.2 hd.2⟩), if_pos hu] at e
  obtain ⟨w, hw, wm, wh, wx, wl⟩ := State.xferDone_fill (r := r) (reqField_lt r) v x rfl rfl
  obtain ⟨vm, vh, -⟩ := State.askFill_rest (r := r) (s.admitted r k) f a b step
  obtain ⟨vx, -⟩ := State.askFill_seat (r := r) (reqField_lt r) (s.admitted r k) a b step
  rw [State.admitted_seat] at vx
  have hfree : (s.seat f).cm.xfers.flatMap (fun y => if y = x then [] else [y]) = (s.seat f).cm.xfers := by
    have hk : ∀ y ∈ (s.seat f).cm.xfers, (if y = x then [] else [y]) = [y] := fun y hy => by
      rw [if_neg]
      rintro rfl
      have hn := List.find?_eq_none.1 hm.2.1 x hy
      exact hn rfl
    rw [List.flatMap_congr hk, List.flatMap_singleton']
  refine h.heard.does (e.trans (congrArg _ hw)) (by rw [wh, vh]) ⟨?_, ?_, fun g hg => ?_⟩
  · rw [State.respond_mem, wm, vm, State.admitted_mem]
  · rw [State.respond_seat, wx, vx, List.flatMap_append, hfree]
    rw [List.flatMap_cons, if_pos rfl, List.flatMap_nil, List.append_nil, List.append_nil]
  · rw [State.respond_field]
    refine wl g ?_
    have hlay : v.host.layout = s.host.layout := by rw [vh, State.admitted_layout]
    unfold State.seatFields State.partOf
    rw [hlay]
    exact hg

theorem jobFill_asks (hu : (s.seat (reqField r)).fillUnits r.expert a b ≠ []) :
    Waits (.jobFill r a b ⟨digest, stepping⟩ step) s (fun t => t.mem = s.mem ∧
      (t.seat (reqField r)).cm.xfers = (s.seat (reqField r)).cm.xfers ++ [(s.seat (reqField r)).fillOf r a b step] ∧
      (t.seat (reqField r)).cm.outbox = .fillAsk a (if r.expert then b else (s.seat (reqField r)).mirrorUnits.length - 1) s.fwDigest 0xA1 ::
        (s.seat (reqField r)).cm.outbox ∧
      ∀ g ∈ s.seatFields (reqField r), (t.field g).lb.mState = 1) := by
  have e := exec_jobFill_range (digest := digest) (stepping := stepping) (step := step) h hx hp hm hr
  dsimp only at e
  rw [if_neg (not_or.2 ⟨not_not.2 hd.1, not_not.2 hd.2⟩), if_neg hu] at e
  obtain ⟨vm, vh, vl⟩ := State.askFill_rest (r := r) (s.admitted r k) (reqField r) a b step
  obtain ⟨vx, vo⟩ := State.askFill_seat (r := r) (reqField_lt r) (s.admitted r k) a b step
  rw [State.admitted_seat] at vx vo
  rw [State.admitted_fwDigest] at vo
  refine ⟨_, e, by rw [vh, State.admitted_sent], vm.trans (State.admitted_mem s r k), vx, vo, fun g hg => ?_⟩
  rw [vl, if_pos (by rwa [State.admitted_seatFields])]

end

/-! ### HANDOVER: units and slots sent -/

/-- A read check depends on memory's tags and flaws and on the keys of the fields. -/
theorem State.readErr_congr {s t : State} (ht : t.lpTags = s.lpTags) (hb : t.bad = s.bad) (hf : t.flaws = s.flaws)
    (hmc : ∀ e, (t.field e).mc.calm = (s.field e).mc.calm) (fs : List Nat) : t.readErr fs = s.readErr fs := by
  have hm (g : Nat) : (t.field g).mc.epoch = (s.field g).mc.epoch ∧ (t.field g).mc.gen = (s.field g).mc.gen ∧ (t.field g).mc.old = (s.field g).mc.old ∧
      (t.field g).mc.oldLive = (s.field g).mc.oldLive ∧ (t.field g).mc.oldGen = (s.field g).mc.oldGen ∧ (t.field g).mc.base = (s.field g).mc.base :=
    ⟨(congrArg Mc.epoch (hmc g) :), (congrArg Mc.gen (hmc g) :), (congrArg Mc.old (hmc g) :), (congrArg Mc.oldLive (hmc g) :),
      (congrArg Mc.oldGen (hmc g) :), (congrArg Mc.base (hmc g) :)⟩
  have htag (b : Nat) : t.blockTag b = s.blockTag b := by
    unfold State.blockTag
    rw [ht]
    congr 1
    funext b
    exact (hm _).2.2.2.2.2
  funext a
  unfold State.readErr State.blockOut
  simp only [htag, hb, hf, (hm _).1, (hm _).2.1, (hm _).2.2.1, (hm _).2.2.2.1, (hm _).2.2.2.2.1]

/-- A request remembered and counted leaves memory's tags and flaws. -/
theorem State.admitted_tags (s : State) (r : Req) (k : Session) :
    (s.admitted r k).lpTags = s.lpTags ∧ (s.admitted r k).bad = s.bad ∧ (s.admitted r k).flaws = s.flaws := by
  have hm := s.modSession_host r.sess (fun x => x.accept r.seq)
  unfold State.admitted
  rcases State.countReq_cases (s.modSession r.sess (fun x => x.accept r.seq)) k r.part with e | ⟨a, e⟩
  · rw [e, hm]
    exact ⟨rfl, rfl, rfl⟩
  · obtain ⟨-, -, -, -, -, -, -, -, b1, b2, -, b3, -⟩ := State.bump_frame (s.modSession r.sess (fun x => x.accept r.seq)) a
    rw [e, b1, b2, b3, hm]
    exact ⟨rfl, rfl, rfl⟩

/-- Memory, its checks and the Librarians' states stand in `t` as in `s`, and the seat of field `f` has only more to say. -/
structure Sends (f : Nat) (s t : State) : Prop where
  noted : Noted s t
  mc : ∀ e, (t.field e).mc.calm = (s.field e).mc.calm
  lb : ∀ e, (t.field e).lb.mState = (s.field e).lb.mState
  serving : (t.seat f).cm.serving = (s.seat f).cm.serving
  outbox : ∀ x ∈ (s.seat f).cm.outbox, x ∈ (t.seat f).cm.outbox

theorem Sends.refl (f : Nat) (s : State) : Sends f s s := ⟨Noted.refl s, fun _ => rfl, fun _ => rfl, rfl, fun _ h => h⟩

theorem Sends.trans {f : Nat} {s t u : State} (h : Sends f s t) (g : Sends f t u) : Sends f s u :=
  ⟨h.noted.trans g.noted, fun e => (g.mc e).trans (h.mc e), fun e => (g.lb e).trans (h.lb e), g.serving.trans h.serving,
    fun x hx => g.outbox x (h.outbox x hx)⟩

theorem Sends.libRead (f : Nat) (s : State) (g a n : Nat) : Sends f s (s.libRead g a n).1 := by
  have hc : Calm s (s.libRead g a n).1 := (Calm.refl s).libRead
  have hcm : ((s.libRead g a n).1.seat f).cm = (s.seat f).cm := (congrArg Seat.cm (hc.seat_calm f) :)
  exact ⟨(s.libRead_noted g a n).1, fun e => congrArg Field.mc (hc.field e), fun e => (congrArg (fun x : Field => x.lb.mState) (hc.field e) :),
    congrArg Cm.serving hcm, fun x hx => by rwa [hcm]⟩

theorem Sends.modSeat {f : Nat} (hf : f < 4) (s : State) (g : Seat → Seat) (hs : (g (s.seat f)).cm.serving = (s.seat f).cm.serving)
    (ho : ∀ x ∈ (s.seat f).cm.outbox, x ∈ (g (s.seat f)).cm.outbox) : Sends f s (s.modSeat f g) := by
  refine ⟨⟨by simp, by simp, by simp, by simp, by simp, by simp, by simp⟩, fun e => ?_, fun e => ?_, ?_, ?_⟩
  · rw [State.modSeat, State.field_setSeat]
  · rw [State.modSeat, State.field_setSeat]
  · rwa [State.seat_modSeat_self _ _ hf]
  · rwa [State.seat_modSeat_self _ _ hf]

theorem Sends.tell {f : Nat} (hf : f < 4) (s : State) (x : XMsg) : Sends f s (s.tell f x) ∧ x ∈ ((s.tell f x).seat f).cm.outbox := by
  have hout : ((s.tell f x).seat f).cm = { (s.seat f).cm with outbox := x :: (s.seat f).cm.outbox } := by rw [s.tell_seat hf x]
  refine ⟨⟨⟨by simp, by simp [State.tell], by simp [State.tell], by simp, by simp [State.tell], by simp [State.tell], by simp [State.tell]⟩,
    fun e => ?_, fun e => ?_, ?_, fun y hy => ?_⟩, ?_⟩
  · rw [State.field_congr e (State.tell_fields s f x)]
  · rw [State.field_congr e (State.tell_fields s f x)]
  · rw [hout]
  · rw [hout]
    exact List.mem_cons_of_mem _ hy
  · rw [hout]
    exact List.mem_cons_self

theorem Sends.forward {f : Nat} (hf : f < 4) (s : State) (kind : BulkKind) (base lo hi : Nat) : Sends f s (s.forward f kind base lo hi) := by
  unfold State.forward
  refine List.foldlRecOn (motive := Sends f s) _ _ (Sends.refl f s) fun t ht j _ => ht.trans ?_
  have hr := Sends.libRead f t f (base + 256 * (lo / 256 + j)) 256
  cases e : t.libRead f (base + 256 * (lo / 256 + j)) 256 with
  | mk v b =>
    rw [e] at hr
    cases b with
    | none => exact hr
    | some bs =>
      refine hr.trans (Sends.modSeat hf v _ ?_ ?_)
      · rw [Seat.queueBulk_only]
      · rw [Seat.queueBulk_only]
        exact fun _ h => h

theorem Sends.sendUnit {f : Nat} (hf : f < 4) (s : State) (base : Nat) (u : ShardUnit) (kind : BulkKind) :
    Sends f s (s.sendUnit f base u kind) ∧ (firstErr (s.readErr (s.seatFields f)) (base + u.offset) (unitLen u) = none →
      .unit u.core u.record (crc32c (s.unitBytes base u)) ∈ ((s.sendUnit f base u kind).seat f).cm.outbox) := by
  have hr := Sends.libRead f s f (base + u.offset) (unitLen u)
  unfold State.sendUnit
  cases e : s.libRead f (base + u.offset) (unitLen u) with
  | mk v b =>
    rw [e] at hr
    cases b with
    | none =>
      refine ⟨hr, fun hn => ?_⟩
      unfold State.libRead State.readRange at e
      rw [hn] at e
      cases e
    | some bs =>
      obtain ⟨h1, h2⟩ := Sends.tell hf (v.forward f kind base u.offset (u.offset + unitLen u)) (.unit u.core u.record (crc32c bs))
      refine ⟨(hr.trans (Sends.forward hf v _ _ _ _)).trans h1, fun hn => ?_⟩
      unfold State.libRead State.readRange at e
      rw [hn] at e
      cases e
      exact h2

theorem Sends.sendSlot {f : Nat} (hf : f < 4) (s : State) (base j : Nat) (x : Slot) (kind : BulkKind) : Sends f s (s.sendSlot f base j x kind) := by
  have hr := Sends.libRead f s (s.seatIx f) base ((s.seat f).slotLen x)
  unfold State.sendSlot
  dsimp only
  cases e : s.libRead (s.seatIx f) base ((s.seat f).slotLen x) with
  | mk v b =>
    rw [e] at hr
    cases b with
    | none => exact hr
    | some bs =>
      dsimp only
      split
      · exact hr.trans (Sends.tell hf _ _).1
      · exact (hr.trans (Sends.forward hf _ _ _ _ _)).trans (Sends.tell hf _ _).1

theorem Sends.readErr {f : Nat} {s t : State} (h : Sends f s t) (fs : List Nat) : t.readErr fs = s.readErr fs :=
  State.readErr_congr h.noted.tags h.noted.bad h.noted.flaws h.mc fs

theorem Sends.seatFields {f : Nat} {s t : State} (h : Sends f s t) (g : Nat) : t.seatFields g = s.seatFields g := by
  unfold State.seatFields State.partOf
  rw [h.noted.host]

/-- Units sent one after another: each that can be read is told with its CRC. -/
theorem Sends.sendUnits {f : Nat} (hf : f < 4) (base : Nat) (kind : BulkKind) (us : List ShardUnit) (s : State) :
    Sends f s (us.foldl (fun t u => t.sendUnit f base u kind) s) ∧
    ∀ u ∈ us, firstErr (s.readErr (s.seatFields f)) (base + u.offset) (unitLen u) = none →
      .unit u.core u.record (crc32c (s.unitBytes base u)) ∈ ((us.foldl (fun t u => t.sendUnit f base u kind) s).seat f).cm.outbox := by
  induction us generalizing s with
  | nil => exact ⟨Sends.refl f s, by simp⟩
  | cons u us ih =>
    obtain ⟨h1, h2⟩ := Sends.sendUnit hf s base u kind
    obtain ⟨i1, i2⟩ := ih (s.sendUnit f base u kind)
    refine ⟨h1.trans i1, fun x hx hn => ?_⟩
    rcases List.mem_cons.1 hx with rfl | hx
    · exact i1.outbox _ (h2 hn)
    · have hi := i2 x hx
      unfold State.unitBytes at hi ⊢
      rw [h1.readErr, h1.seatFields, h1.noted.mem] at hi
      exact hi hn

/-- What serving the pulls of a substitute leaves: the mirror and the committed buffer are told unit by unit. -/
theorem State.servePulls_serves {f : Nat} (hf : f < 4) (s : State) : (s.servePulls f).mem = s.mem ∧ (s.servePulls f).host = s.host ∧
    ((s.servePulls f).seat f).cm.serving = (s.seat f).cm.serving ∧ (∀ g ∈ s.seatFields f, ((s.servePulls f).field g).lb.mState = 5) ∧
    (∀ u ∈ (s.seat f).mirrorUnits, firstErr (s.readErr (s.seatFields f)) ((s.seat f).regions.mirror + u.offset) (unitLen u) = none →
      .unit u.core u.record (crc32c (s.unitBytes (s.seat f).regions.mirror u)) ∈ ((s.servePulls f).seat f).cm.outbox) ∧
    ∀ u ∈ (s.seat f).units, firstErr (s.readErr (s.seatFields f)) ((s.seat f).committedBase + u.offset) (unitLen u) = none →
      .unit u.core u.record (crc32c (s.unitBytes (s.seat f).committedBase u)) ∈ ((s.servePulls f).seat f).cm.outbox := by
  let v := s.modLbs f (fun b => { b with mState := 5 })
  obtain ⟨hs, hh, -, hmc⟩ := s.modLbs_keeps f (fun b => { b with mState := 5 })
  have hvf : v.seatFields f = s.seatFields f := by
    unfold State.seatFields State.partOf
    rw [hh]
  have hslots (base : Nat → Nat) (x : Nat → Slot) (kind : BulkKind) (t : State) :
      Sends f t (eachOf (List.range 3) (fun i t => t.sendSlot f (base i) i (x i) kind) t) :=
    eachOf_keeps (Sends f t) _ _ (fun i u hu => hu.trans (Sends.sendSlot hf u _ _ _ _)) t (Sends.refl f t)
  let t1 := (s.seat f).mirrorUnits.foldl (fun t u => t.sendUnit f (s.seat f).regions.mirror u .toShard) v
  let t2 := eachOf (List.range 3) (fun i t => t.sendSlot f ((s.seat f).copyBase i) i ((s.seat f).cm.copySlot i) .toSatchel) t1
  let t3 := (s.seat f).units.foldl (fun t u => t.sendUnit f (s.seat f).committedBase u .toMirror) t2
  obtain ⟨a1, a2⟩ := Sends.sendUnits hf (s.seat f).regions.mirror .toShard (s.seat f).mirrorUnits v
  have b1 : Sends f t1 t2 := hslots _ _ _ _
  obtain ⟨c1, c2⟩ := Sends.sendUnits hf (s.seat f).committedBase .toMirror (s.seat f).units t2
  have d1 : Sends f t3 (s.servePulls f) := hslots _ _ _ _
  have hab : Sends f v t2 := a1.trans b1
  have hcd : Sends f t2 (s.servePulls f) := c1.trans d1
  have hall := hab.trans hcd
  have hmem : v.mem = s.mem := State.modLbs_mem _ _ _
  have hlp : v.lpTags = s.lpTags ∧ v.bad = s.bad ∧ v.flaws = s.flaws :=
    eachOf_keeps (fun t => t.lpTags = s.lpTags ∧ t.bad = s.bad ∧ t.flaws = s.flaws) _ _
      (fun _ t ht => by simpa [State.modLb] using ht) s ⟨rfl, rfl, rfl⟩
  have herr : v.readErr (s.seatFields f) = s.readErr (s.seatFields f) :=
    State.readErr_congr hlp.1 hlp.2.1 hlp.2.2 (fun e => congrArg Mc.calm (hmc e)) _
  refine ⟨hall.noted.mem.trans hmem, hall.noted.host.trans hh, ?_, fun g hg => ?_, fun u hu hn => ?_, fun u hu hn => ?_⟩
  · refine hall.serving.trans ?_
    rw [State.seat_congr f hs (by rw [hh])]
  · refine (hall.lb g).trans ?_
    rw [State.modLbs_lb, if_pos hg]
  · have hi := a2 u hu
    rw [hvf, herr] at hi
    have hb : v.unitBytes (s.seat f).regions.mirror u = s.unitBytes (s.seat f).regions.mirror u := by
      unfold State.unitBytes
      rw [hmem]
    rw [hb] at hi
    exact hcd.outbox _ (b1.outbox _ (hi hn))
  · have hi := c2 u hu
    rw [hab.readErr, hab.seatFields, hvf, herr] at hi
    unfold State.unitBytes at hi ⊢
    rw [hab.noted.mem, hmem] at hi
    exact d1.outbox _ (hi hn)

/-! ### HANDOVER -/

/-- A HANDOVER may be served: the mirror is the partner's, and neither corrected nor waited for. -/
def Seat.mayHand (q : Seat) (s : State) (f : Nat) : Prop := q.cm.partnerOk = true ∧ q.cm.serving = false ∧
  (∀ g ∈ s.seatFields f, (s.field g).lb.mState ≠ 4) ∧ ∀ e ∈ q.cm.units, e.2.unacked = false

section
variable {n : BitVec 64} (h : Admitted s r i k 6 6 .bound)
include h

theorem jobHandover_noPlan (hp : (s.seat (reqField r)).plan = none) : Replies (.jobHandover r n) s r stNoPlan 0 .empty :=
  replies_heard h.heard ((h.exec_go rfl).trans (congrArg _ (State.planned_none (by rwa [State.admitted_seat]))))

variable (hp : (s.seat (reqField r)).plan.isSome = true)
include hp

theorem exec_jobHandover : exec (.jobHandover r n) s = .next (
    let f := reqField r
    let m := (s.seat f).cm
    let u := s.admitted r k
    let v := u.modCm f (fun m => { m with serving := true, handReq := some r, handStep := n })
    if !m.partnerOk ∨ m.serving ∨ (s.seatFields f).any (fun g => (s.field g).lb.mState == 4) ∨ m.units.any (fun e => e.2.unacked) then
      u.respond r stWrongState (s.wrongDetail f)
    else if s.appliesEnded f then v.handGo f else v) := by
  have e (g : Nat) : ((s.admitted r k).field g).lb = (s.field g).lb := (h.heard.field_parts g).2.1
  refine ((h.exec_go rfl).trans (congrArg _ (State.planned_some (by rwa [State.admitted_seat])))).trans ?_
  dsimp only
  have ha : ((s.admitted r k).modCm (reqField r) (fun m => { m with serving := true, handReq := some r, handStep := n })).appliesEnded (reqField r) =
      s.appliesEnded (reqField r) := by
    rw [← h.heard.appliesEnded]
    simp only [State.appliesEnded, State.seatFields, State.partOf, State.modCm_host, State.field_congr _ (State.modCm_fields _ _ _)]
  rw [ha, State.admitted_seat, State.admitted_wrongDetail, State.admitted_seatFields]
  simp only [e]

theorem jobHandover_wrong (hm : ¬(s.seat (reqField r)).mayHand s (reqField r)) :
    Replies (.jobHandover r n) s r stWrongState (s.wrongDetail (reqField r)) .empty := by
  have e := exec_jobHandover (n := n) h hp
  dsimp only at e
  refine replies_heard h.heard ?_
  rw [e, if_pos]
  by_contra hn
  rw [not_or, not_or, not_or] at hn
  obtain ⟨h1, h2, h3, h4⟩ := hn
  exact hm ⟨by simpa using h1, by simpa using h2, by simpa using h3, by simpa using h4⟩

variable (hm : (s.seat (reqField r)).mayHand s (reqField r))
include hm

theorem exec_jobHandover_may : exec (.jobHandover r n) s = .next (
    let f := reqField r
    let v := (s.admitted r k).modCm f (fun m => { m with serving := true, handReq := some r, handStep := n })
    if s.appliesEnded f then v.handGo f else v) := by
  obtain ⟨h1, h2, h3, h4⟩ := hm
  have e := exec_jobHandover (n := n) h hp
  dsimp only at e
  rw [e, if_neg]
  rw [not_or, not_or, not_or]
  exact ⟨by simpa using h1, by simpa using h2, by simpa using h3, by simpa using h4⟩

theorem jobHandover_applies (ha : s.appliesEnded (reqField r) = false) : Waits (.jobHandover r n) s (fun t => UnitsKept s t ∧
    OnlySeat (reqField r) { s.seat (reqField r) with
      cm := { (s.seat (reqField r)).cm with serving := true, handReq := some r, handStep := n } } s t) := by
  refine ⟨_, exec_jobHandover_may h hp hm, ?_⟩
  dsimp only
  rw [if_neg (by simp [ha])]
  exact ⟨by simp, h.heard.admitted_units.trans (State.setSeat_unitsKept _ _ _), OnlySeat.modSeat (reqField_lt r) (by simp) (by simp)
    fun q : Seat => { q with cm := { q.cm with serving := true, handReq := some r, handStep := n } }⟩

variable (ha : s.appliesEnded (reqField r) = true)
include ha

/-- A HANDOVER that no apply holds back. -/
theorem exec_jobHandover_goes : exec (.jobHandover r n) s = .next (
    let f := reqField r
    let v := (s.admitted r k).modCm f (fun m => { m with serving := true, handReq := some r, handStep := n })
    let refuse (st : BitVec 16) (d : BitVec 64) : State := (v.modCm f (fun m => { m with serving := false, handReq := none })).respond r st d
    if (s.seatFields f).any (fun g => let b := (s.field g).lb; decide (b.mState < 2) || decide (b.mirrorFor < n)) then
      refuse stMirrorBehind (s.field f).lb.mirrorFor
    else if (s.seatFields f).any (fun g => (s.field g).lb.unresolved) then
      refuse stUnresolved (match (s.seat f).unitsWith 6 with | u :: _ => BitVec.ofNat 64 (u.core + fieldAt u.record 16) | [] => 0)
    else if r.expert ∧ (s.seatFields f).any (fun g => (s.field g).lb.selfChecked) then
      refuse stSelfChecked (BitVec.ofNat 64 ((s.seat f).unitsWith 5).length)
    else v.servePulls f) := by
  have e := exec_jobHandover_may (n := n) h hp hm
  dsimp only at e
  rw [e, if_pos ha]
  let v := (s.admitted r k).modCm (reqField r) (fun m => { m with serving := true, handReq := some r, handStep := n })
  have hv : v.seat (reqField r) = { s.seat (reqField r) with
      cm := { (s.seat (reqField r)).cm with serving := true, handReq := some r, handStep := n } } := by
    refine (State.seat_modSeat_self _ _ (reqField_lt r)).trans ?_
    rw [State.admitted_seat]
  have hf (g : Nat) : (v.field g).lb = (s.field g).lb := by
    rw [State.field_congr g (State.modCm_fields _ _ _)]
    exact (h.heard.field_parts g).2.1
  have hsf : v.seatFields (reqField r) = s.seatFields (reqField r) := by
    simp only [v, State.seatFields, State.partOf, State.modCm_host, State.admitted_layout]
  show Host.Outcome.next (v.handGo (reqField r)) = _
  unfold State.handGo
  rw [hv, hsf]
  simp only [hf] <;> rfl

/-- A HANDOVER that is refused is no longer served. -/
theorem jobHandover_refused {st : BitVec 16} {d : BitVec 64} (e : exec (.jobHandover r n) s = .next (
    (((s.admitted r k).modCm (reqField r) (fun m => { m with serving := true, handReq := some r, handStep := n })).modCm (reqField r)
      (fun m => { m with serving := false, handReq := none })).respond r st d)) :
    Does (.jobHandover r n) s r st d .empty (fun t => UnitsKept s t ∧ (t.seat (reqField r)).cm.serving = false) := by
  refine h.heard.does e (by simp) ⟨?_, ?_⟩
  · exact h.heard.admitted_units.trans ((State.setSeat_unitsKept _ _ _).trans ((State.setSeat_unitsKept _ _ _).trans (State.respond_unitsKept _ _ _ _ _)))
  · rw [State.respond_seat, State.modCm, State.seat_modSeat_self _ _ (reqField_lt r)]

theorem jobHandover_behind (hc : ¬∀ g ∈ s.seatFields (reqField r), 2 ≤ (s.field g).lb.mState ∧ n ≤ (s.field g).lb.mirrorFor) :
    Does (.jobHandover r n) s r stMirrorBehind (s.field (reqField r)).lb.mirrorFor .empty
      (fun t => UnitsKept s t ∧ (t.seat (reqField r)).cm.serving = false) := by
  have e := exec_jobHandover_goes (n := n) h hp hm ha
  dsimp only at e
  refine jobHandover_refused h hp hm ha (e.trans ?_)
  rw [if_pos]
  rw [List.any_eq_true]
  push Not at hc
  obtain ⟨g, hg, hg'⟩ := hc
  refine ⟨g, hg, ?_⟩
  simp only [Bool.or_eq_true, decide_eq_true_eq]
  by_cases h2 : (2 : BitVec 3) ≤ (s.field g).lb.mState
  · exact .inr (BitVec.not_le.1 (hg' h2))
  · exact .inl (BitVec.not_le.1 h2)

variable (hc : ∀ g ∈ s.seatFields (reqField r), 2 ≤ (s.field g).lb.mState ∧ n ≤ (s.field g).lb.mirrorFor)
include hc

omit h hp hm ha in
theorem current_any : ¬(s.seatFields (reqField r)).any (fun g => let b := (s.field g).lb; decide (b.mState < 2) || decide (b.mirrorFor < n)) = true := by
  rw [List.any_eq_true]
  rintro ⟨g, hg, hb⟩
  simp only [Bool.or_eq_true, decide_eq_true_eq] at hb
  obtain ⟨h1, h2⟩ := hc g hg
  rcases hb with hb | hb
  · exact BitVec.not_lt.2 h1 hb
  · exact BitVec.not_lt.2 h2 hb

theorem jobHandover_unresolved {u : ShardUnit} {us : List ShardUnit} (hr : ¬∀ g ∈ s.seatFields (reqField r), (s.field g).lb.unresolved = false)
    (hu : (s.seat (reqField r)).unitsWith 6 = u :: us) :
    Does (.jobHandover r n) s r stUnresolved (BitVec.ofNat 64 (u.core + fieldAt u.record 16)) .empty
      (fun t => UnitsKept s t ∧ (t.seat (reqField r)).cm.serving = false) := by
  have e := exec_jobHandover_goes (n := n) h hp hm ha
  dsimp only at e
  refine jobHandover_refused h hp hm ha (e.trans ?_)
  rw [if_neg (current_any hc), if_pos, hu]
  rw [List.any_eq_true]
  push Not at hr
  simpa using hr

variable (hr : ∀ g ∈ s.seatFields (reqField r), (s.field g).lb.unresolved = false)
include hr

theorem jobHandover_selfChecked (hx : r.expert = true) (hv : ¬∀ g ∈ s.seatFields (reqField r), (s.field g).lb.selfChecked = false) :
    Does (.jobHandover r n) s r stSelfChecked (BitVec.ofNat 64 ((s.seat (reqField r)).unitsWith 5).length) .empty
      (fun t => UnitsKept s t ∧ (t.seat (reqField r)).cm.serving = false) := by
  have e := exec_jobHandover_goes (n := n) h hp hm ha
  dsimp only at e
  refine jobHandover_refused h hp hm ha (e.trans ?_)
  push Not at hv
  rw [if_neg (current_any hc), if_neg (by simpa using hr), if_pos ⟨hx, by simpa using hv⟩]

theorem jobHandover_serves (hv : r.expert = false ∨ ∀ g ∈ s.seatFields (reqField r), (s.field g).lb.selfChecked = false) :
    let f := reqField r
    let q := s.seat f
    Waits (.jobHandover r n) s (fun t => t.mem = s.mem ∧ (t.seat f).cm.serving = true ∧ (∀ g ∈ s.seatFields f, (t.field g).lb.mState = 5) ∧
      (∀ u ∈ q.mirrorUnits, firstErr (s.readErr (s.seatFields f)) (q.regions.mirror + u.offset) (unitLen u) = none →
        .unit u.core u.record (crc32c (s.unitBytes q.regions.mirror u)) ∈ (t.seat f).cm.outbox) ∧
      ∀ u ∈ q.units, firstErr (s.readErr (s.seatFields f)) (q.committedBase + u.offset) (unitLen u) = none →
        .unit u.core u.record (crc32c (s.unitBytes q.committedBase u)) ∈ (t.seat f).cm.outbox) := by
  intro f q
  have e := exec_jobHandover_goes (n := n) h hp hm ha
  dsimp only at e
  have hx : ¬(r.expert = true ∧ (s.seatFields (reqField r)).any (fun g => (s.field g).lb.selfChecked) = true) := by
    rintro ⟨h1, h2⟩
    rcases hv with hv | hv
    · rw [hv] at h1; cases h1
    · obtain ⟨g, hg, h3⟩ := List.any_eq_true.1 h2
      rw [hv g hg] at h3
      cases h3
  rw [if_neg (current_any hc), if_neg (by simpa using hr), if_neg hx] at e
  let v := (s.admitted r k).modCm f (fun m => { m with serving := true, handReq := some r, handStep := n })
  have hvs : v.seat f = { q with cm := { q.cm with serving := true, handReq := some r, handStep := n } } := by
    refine (State.seat_modSeat_self _ _ (reqField_lt r)).trans ?_
    rw [State.admitted_seat]
  have hsf : v.seatFields f = s.seatFields f := by simp only [v, State.seatFields, State.partOf, State.modCm_host, State.admitted_layout]
  have hmem : v.mem = s.mem := by simp [v]
  have herr : v.readErr (s.seatFields f) = s.readErr (s.seatFields f) := by
    obtain ⟨t1, t2, t3⟩ := s.admitted_tags r k
    refine State.readErr_congr (by simpa [v] using t1) (by simpa [v] using t2) (by simpa [v] using t3) (fun e => ?_) _
    rw [State.field_congr e (State.modCm_fields _ _ _), (h.heard.field_parts e).1]
  obtain ⟨h1, h2, h3, h4, h5, h6⟩ := v.servePulls_serves (reqField_lt r)
  rw [hsf] at h4
  rw [hsf, herr, hvs] at h5 h6
  unfold State.unitBytes at h5 h6 ⊢
  rw [hmem] at h5 h6
  exact ⟨_, e, by rw [h2]; simp [v], h1.trans hmem, h3.trans (by rw [hvs]), h4, h5, h6⟩

end

end

end Sys2Proof.Machine
end

section
/-! The seat given up (R346), and O41. -/

namespace Sys2Proof.Machine

/-! ### Keys that stand -/

/-- What a response leaves of the sessions: every request that could be answered still can be. -/
theorem State.respond_answers {s : State} {r : Req} (h : s.answers r) (q : Req) (st : BitVec 16) (d : BitVec 64) (b : Body) :
    (s.respond q st d b).answers r := by
  obtain ⟨i, k, hk, hg⟩ := h
  cases hq : s.session q.sess with
  | none =>
    have e : s.respond q st d b = s := by unfold State.respond; rw [hq]
    rw [e]
    exact ⟨i, k, hk, hg⟩
  | some p =>
    obtain ⟨j, m⟩ := p
    unfold State.answers
    rw [State.session_congr _ (State.respond_session hq st d b)]
    obtain ⟨-, hm, hid⟩ := State.session_some hq
    by_cases hs : r.sess = q.sess
    · rw [hs] at hk ⊢
      rw [hk] at hq
      cases hq
      exact ⟨i, _, State.session_setSlot _ hk hid, hg⟩
    · refine ⟨i, k, ?_, hg⟩
      rw [State.session_setSlot_ne (fun x hx => ?_) (fun x hx => ?_)]
      · exact hk
      · rw [hm] at hx
        cases hx
        exact fun h => hs (h.symm.trans hid)
      · cases hx
        exact fun h => hs (h.symm.trans hid)

/-- Every link has the keys and the peer it had, and every request that could be answered still can be. -/
structure KeysStand (s t : State) : Prop where
  keys : ∀ l, (t.link l).keyEpoch = (s.link l).keyEpoch ∧ (t.link l).nodeOk = (s.link l).nodeOk
  answers : ∀ r, s.answers r → t.answers r

theorem KeysStand.refl (s : State) : KeysStand s s := ⟨fun _ => ⟨rfl, rfl⟩, fun _ h => h⟩
theorem KeysStand.trans {r s t : State} (h : KeysStand r s) (g : KeysStand s t) : KeysStand r t :=
  ⟨fun l => ⟨(g.keys l).1.trans (h.keys l).1, (g.keys l).2.trans (h.keys l).2⟩, fun r hr => g.answers r (h.answers r hr)⟩
theorem KeysStand.of_eq {s t : State} (h : t.links = s.links) (hh : t.host = s.host) : KeysStand s t :=
  ⟨fun l => by rw [State.link_congr l h]; exact ⟨rfl, rfl⟩, fun _ hr => State.answers_congr (by rw [hh]) hr⟩
theorem KeysStand.respond (s : State) (q : Req) (st : BitVec 16) (d : BitVec 64) (b : Body) : KeysStand s (s.respond q st d b) :=
  ⟨fun l => by rw [State.link_congr l (State.respond_links _ _ _ _ _)]; exact ⟨rfl, rfl⟩, fun _ hr => State.respond_answers hr q st d b⟩

theorem KeysStand.modLink (s : State) (l : Nat) (g : Link → Link)
    (hg : ∀ k : Link, (g k).keyEpoch = k.keyEpoch ∧ (g k).nodeOk = k.nodeOk := by exact fun _ => ⟨rfl, rfl⟩) : KeysStand s (s.modLink l g) := by
  refine ⟨fun e => ?_, fun _ hr => State.answers_congr (by rw [State.modLink_host]) hr⟩
  by_cases hl : l < 24
  · rw [State.link_modLink hl]
    split
    next he => rw [he]; exact hg _
    next => exact ⟨rfl, rfl⟩
  · unfold State.modLink State.setLink
    rw [if_neg hl]
    exact ⟨rfl, rfl⟩

theorem State.libWrite_links (s : State) (f a : Nat) (bs : List Byte) : (s.libWrite f a bs).links = s.links ∧
    (s.libWrite f a bs).host = s.host := by
  unfold State.libWrite
  split
  · exact ⟨rfl, rfl⟩
  split
  · exact ⟨rfl, rfl⟩
  unfold State.libLand
  obtain ⟨e, he⟩ | he := s.writeRange_cases (s.seatFields f) a bs <;> rw [he]
  · exact ⟨(Noted.libErr s f e).links, (Noted.libErr s f e).host⟩
  · have hn := (s.noteCorrected_noted (edges a bs.length)).1
    rw [← hn.links, ← hn.host]
    dsimp only
    unfold State.storeBytes
    dsimp only
    split <;> exact ⟨rfl, rfl⟩

theorem State.stageOp_links (s : State) (f : Nat) (o : PoolOp) : (s.stageOp f o).links = s.links ∧ (s.stageOp f o).host = s.host := by
  unfold State.stageOp
  cases (s.seat f).regions.staging with
  | none => exact ⟨rfl, rfl⟩
  | some a => exact s.libWrite_links _ _ _

theorem KeysStand.endBigPass {r s : State} (h : KeysStand r s) (entry part : Nat) : KeysStand r (s.endBigPass entry part) := by
  have hc (c : Coord) : KeysStand r { s with coord := c } := h.trans (KeysStand.of_eq rfl rfl)
  unfold State.endBigPass
  generalize partFields part = fs
  rcases fs with _ | ⟨f, _ | ⟨g, fs⟩⟩
  case cons.nil => exact h.trans (KeysStand.of_eq (State.modHm_links _ _ _) (State.modHm_host _ _ _))
  all_goals
    dsimp only
    cases Tab.find s.coord.passes entry with
    | none => exact h
    | some p =>
      dsimp only
      split <;> exact hc _

theorem KeysStand.ckEnd (s : State) (f : Nat) (code : BitVec 8) (b : Body) : KeysStand s (s.ckEnd f code b) := by
  unfold State.ckEnd
  dsimp only
  refine List.foldlRecOn (motive := KeysStand s) _ _ ?_ fun t ht _ _ => ht.trans (KeysStand.respond _ _ _ _ _)
  refine KeysStand.trans ?_ (KeysStand.of_eq (State.modCk_links _ _ _) (State.modCk_host _ _ _))
  refine eachOf_keeps (KeysStand s) _ _ (fun l t ht => ht.trans (KeysStand.modLink t l _)) _ ?_
  have h1 : KeysStand s (if (s.seat f).ck.trigger = 0 then s
      else eachOf (s.seatFields f) (fun g t => t.bump (lbBase g + if code = 0 then 0x140 else 0x148)) s) := by
    split
    · exact KeysStand.refl s
    · exact eachOf_keeps (KeysStand s) _ _ (fun g t ht => ht.trans (KeysStand.of_eq (State.bump_links _ _) (State.bump_host _ _))) s (KeysStand.refl s)
  split
  · exact KeysStand.endBigPass h1 _ _
  · exact h1

theorem KeysStand.openOp (s : State) (f : Nat) (o : PoolOp) : KeysStand s (s.openOp f o) := by
  unfold State.openOp
  dsimp only
  have h1 : KeysStand s (s.stageOp f o) := KeysStand.of_eq (s.stageOp_links f o).1 (s.stageOp_links f o).2
  cases (s.stageOp f o).poolLink f o.field with
  | none => exact (h1.trans (KeysStand.of_eq (State.modCk_links _ _ _) (State.modCk_host _ _ _))).trans (KeysStand.ckEnd _ _ _ _)
  | some l => exact h1.trans (KeysStand.modLink _ l _)

theorem KeysStand.opFail (s : State) (f : Nat) (o : PoolOp) (st : BitVec 8) : KeysStand s (s.opFail f o st) := by
  have h1 : KeysStand s (s.noteOpErr f o st) := KeysStand.of_eq (State.modCk_links _ _ _) (State.modCk_host _ _ _)
  unfold State.opFail
  dsimp only
  split
  · exact h1.trans (KeysStand.openOp _ _ _)
  · exact h1.trans (KeysStand.ckEnd _ _ _ _)

/-- An operation that ends with a status other than OK. -/
theorem KeysStand.endOp (s : State) (l : Nat) (tag : BitVec 7) {st : BitVec 8} (n : Nat) (hst : st ≠ 0) : KeysStand s (s.endOp l tag st n) := by
  unfold State.endOp
  cases (s.link l).op tag with
  | none => exact KeysStand.refl s
  | some o =>
    dsimp only
    rw [if_neg hst]
    exact (KeysStand.modLink s l (fun k => k.close tag)).trans (KeysStand.opFail _ _ _ _)

theorem KeysStand.opsLost (s : State) (l : Nat) : KeysStand s (s.opsLost l) :=
  List.foldlRecOn (motive := KeysStand s) _ _ (KeysStand.refl s) fun t ht o _ => ht.trans (KeysStand.endOp t l o.tag 0 (by decide))

theorem KeysStand.linkTo (s : State) (l : Nat) (st : LinkState) (why : BitVec 4) : KeysStand s (s.linkTo l st why) := by
  have hp (c : BitVec 4) (t : State) : KeysStand t (t.endLinkPass l c) := KeysStand.of_eq (State.modHm_links _ _ _) (State.modHm_host _ _ _)
  have hif (p : Prop) [Decidable p] (c : BitVec 4) (t : State) : KeysStand t (if p then t.endLinkPass l c else t) := by
    split
    · exact hp c t
    · exact KeysStand.refl t
  unfold State.linkTo
  split
  · exact KeysStand.refl s
  dsimp only
  split
  · refine KeysStand.trans ?_ (KeysStand.opsLost _ _)
    refine KeysStand.trans ?_ (KeysStand.of_eq (State.modTt_links _ _ _) (State.modTt_host _ _ _))
    exact (((KeysStand.modLink s l _).trans (hif _ _ _)).trans (KeysStand.modLink _ l _)).trans (hif _ _ _)
  · exact (KeysStand.modLink s l _).trans (hif _ _ _)

theorem KeysStand.enterIdent (s : State) (l : Nat) : KeysStand s (s.enterIdent l) :=
  ((KeysStand.linkTo s l _ _).trans (KeysStand.modLink _ l _)).trans (KeysStand.of_eq rfl rfl)

/-! ### Links without operations -/

/-- Link `l` is in state `st` in `t`; memory, and the other links' states and all operations, are those of `s`. -/
structure LinkIn (l : Nat) (st : LinkState) (s t : State) : Prop where
  mem : t.mem = s.mem
  st : ∀ e, (t.link e).st = if e = l then st else (s.link e).st
  ops : ∀ e, (t.link e).ops = (s.link e).ops

section
variable {l : Nat} {st : LinkState} {s t : State}

theorem LinkIn.same (h : (s.link l).st = st) : LinkIn l st s s := by
  refine ⟨rfl, fun e => ?_, fun _ => rfl⟩
  split
  next he => rw [he, h]
  next => rfl

theorem LinkIn.of_links {u : State} (h : LinkIn l st s t) (hm : u.mem = t.mem) (hl : u.links = t.links) : LinkIn l st s u :=
  ⟨hm.trans h.mem, fun e => by rw [State.link_congr e hl, h.st], fun e => by rw [State.link_congr e hl, h.ops]⟩

theorem LinkIn.passIf (h : LinkIn l st s t) (p : Prop) [Decidable p] (c : BitVec 4) : LinkIn l st s (if p then t.endLinkPass l c else t) := by
  split
  · exact h.of_links (State.modHm_mem _ _ _) (State.modHm_links _ _ _)
  · exact h

/-- A change of the link that keeps its state and its operations. -/
theorem LinkIn.modLink (hl : l < 24) (h : LinkIn l st s t) (g : Link → Link)
    (hg : ∀ k : Link, (g k).st = k.st ∧ (g k).ops = k.ops := by exact fun _ => ⟨rfl, rfl⟩) : LinkIn l st s (t.modLink l g) := by
  refine ⟨(State.modLink_mem _ _ _).trans h.mem, fun e => ?_, fun e => ?_⟩
  · rw [← h.st, State.link_modLink hl]
    split
    next he => rw [he]; exact (hg _).1
    next => rfl
  · rw [← h.ops, State.link_modLink hl]
    split
    next he => rw [he]; exact (hg _).2
    next => rfl

/-- A link without an open operation changes its state. -/
theorem State.linkTo_idle (hl : l < 24) (ho : (s.link l).ops = []) (why : BitVec 4) : LinkIn l st s (s.linkTo l st why) := by
  have h0 (g : Link → Link) (hg : ∀ k : Link, (g k).st = st ∧ (g k).ops = k.ops := by exact fun _ => ⟨rfl, rfl⟩) : LinkIn l st s (s.modLink l g) := by
    refine ⟨State.modLink_mem _ _ _, fun e => ?_, fun e => ?_⟩
    · rw [State.link_modLink hl]
      split
      · exact (hg _).1
      · rfl
    · rw [State.link_modLink hl]
      split
      next he => rw [he]; exact (hg _).2
      next => rfl
  have hlost {t : State} (h : LinkIn l st s t) : LinkIn l st s (t.opsLost l) := by
    unfold State.opsLost
    rw [h.ops, ho]
    exact h
  unfold State.linkTo
  rw [if_neg (Nat.not_le.2 hl)]
  dsimp only
  split
  · refine hlost (LinkIn.of_links ?_ (by simp [State.taint, State.setStatus]) (State.modTt_links _ _ _))
    refine LinkIn.passIf (LinkIn.modLink hl ?_ _) _ _
    exact (h0 _).passIf _ _
  · exact (h0 _).passIf _ _

theorem State.enterIdent_idle (hl : l < 24) (ho : (s.link l).ops = []) : LinkIn l .ident s (s.enterIdent l) :=
  (LinkIn.modLink hl (State.linkTo_idle hl ho 0) _).of_links rfl rfl

end

/-! ### LEAVE -/

/-- The state of a link whose seat is given up: off without a plan, else out of LOCKED and RANGING. -/
def leftState (gone : Bool) (st : LinkState) : LinkState :=
  if gone = true ∧ st ≠ .failed then .off else if st = .locked ∨ st = .ranging then .ident else st

theorem leftState_left (gone : Bool) (st : LinkState) : leftState gone (leftState gone st) = leftState gone st := by
  cases gone <;> cases st <;> decide

/-- One link of a seat that is given up. -/
def State.leaveLink (s : State) (f l : Nat) : State :=
  let st := (s.link l).st
  (if (s.seat f).plan.isNone ∧ st ≠ .failed then s.linkTo l .off else if st = .locked ∨ st = .ranging then s.enterIdent l else s).modLink l
    Link.unkeyed

theorem Calm.leaveLink {r s : State} (h : Calm r s) (f l : Nat) : Calm r (s.leaveLink f l) :=
  Calm.modLink (Calm.ite h.linkTo (Calm.ite h.enterIdent h))

theorem State.leaveLink_answers (s : State) (f l : Nat) {r : Req} (h : s.answers r) : (s.leaveLink f l).answers r := by
  have h1 : (if (s.seat f).plan.isNone = true ∧ (s.link l).st ≠ .failed then s.linkTo l .off
      else if (s.link l).st = .locked ∨ (s.link l).st = .ranging then s.enterIdent l else s).answers r := by
    split
    · exact (KeysStand.linkTo _ _ _ _).answers r h
    · split
      · exact (KeysStand.enterIdent _ _).answers r h
      · exact h
  exact State.answers_congr (by rw [State.leaveLink, State.modLink_host]) h1

theorem State.leaveLink_keys {l : Nat} (hl : l < 24) (s : State) (f : Nat) : ∀ e, ((s.leaveLink f l).link e).keyEpoch =
    (if e = l then none else (s.link e).keyEpoch) ∧ ((s.leaveLink f l).link e).nodeOk = if e = l then false else (s.link e).nodeOk := by
  intro e
  unfold State.leaveLink
  dsimp only
  rw [State.link_modLink hl]
  split
  · exact ⟨rfl, rfl⟩
  · have hk : KeysStand s (if (s.seat f).plan.isNone = true ∧ (s.link l).st ≠ .failed then s.linkTo l .off
        else if (s.link l).st = .locked ∨ (s.link l).st = .ranging then s.enterIdent l else s) := by
      split
      · exact KeysStand.linkTo _ _ _ _
      · split
        · exact KeysStand.enterIdent _ _
        · exact KeysStand.refl s
    exact hk.keys e

theorem State.leaveLink_idle {l : Nat} (hl : l < 24) {s : State} (ho : (s.link l).ops = []) (f : Nat) :
    LinkIn l (leftState (s.seat f).plan.isNone (s.link l).st) s (s.leaveLink f l) := by
  unfold State.leaveLink leftState
  refine LinkIn.modLink hl ?_ _
  split
  · exact State.linkTo_idle hl ho 0
  · split
    · exact State.enterIdent_idle hl ho
    · exact LinkIn.same rfl

/-- The links of a seat that is given up, one after another. -/
theorem leaveLinks_step (f : Nat) (ls : List Nat) (hl : ∀ l ∈ ls, l < 24) (v : State) :
    Calm v (eachOf ls (fun l t => t.leaveLink f l) v) ∧
    (∀ l ∈ ls, ((eachOf ls (fun l t => t.leaveLink f l) v).link l).keyEpoch = none ∧
      ((eachOf ls (fun l t => t.leaveLink f l) v).link l).nodeOk = false) ∧
    ((∀ l ∈ ls, (v.link l).ops = []) → (eachOf ls (fun l t => t.leaveLink f l) v).mem = v.mem ∧
      ∀ l ∈ ls, ((eachOf ls (fun l t => t.leaveLink f l) v).link l).st = leftState (v.seat f).plan.isNone (v.link l).st) := by
  obtain ⟨hc, hk, -⟩ := eachOf_gives (I := Calm v) (Q := fun l t => (t.link l).keyEpoch = none ∧ (t.link l).nodeOk = false)
    (g := fun l t => t.leaveLink f l) ls
    (fun l _ t ht => ht.leaveLink f l)
    (fun l h t _ => by simpa using State.leaveLink_keys (hl l h) t f l)
    (fun e l h t _ he => by
      obtain ⟨h1, h2⟩ := State.leaveLink_keys (hl l h) t f e
      rw [h1, h2, he.1, he.2]
      simp)
    (Calm.refl v)
  refine ⟨hc, hk, fun ho => ?_⟩
  let left (l : Nat) : LinkState := leftState (v.seat f).plan.isNone (v.link l).st
  have hplan {t : State} (ht : Calm v t) : (t.seat f).plan = (v.seat f).plan := (congrArg Seat.plan (ht.seat_calm f) :)
  have hstep (l : Nat) (h : l ∈ ls) (t : State) (ht : Calm v t ∧ t.mem = v.mem ∧ (∀ e, (t.link e).ops = (v.link e).ops) ∧
      ∀ e, (t.link e).st = (v.link e).st ∨ (t.link e).st = left e) : LinkIn l (left l) t (t.leaveLink f l) := by
    have hi := State.leaveLink_idle (hl l h) (s := t) ((ht.2.2.1 l).trans (ho l h)) f
    rw [hplan ht.1] at hi
    rcases ht.2.2.2 l with hst | hst
    · rwa [hst] at hi
    · rw [hst] at hi
      rwa [show leftState (v.seat f).plan.isNone (left l) = left l from leftState_left _ _] at hi
  obtain ⟨⟨-, h1, -⟩, h2, -⟩ := eachOf_gives
    (I := fun t => Calm v t ∧ t.mem = v.mem ∧ (∀ e, (t.link e).ops = (v.link e).ops) ∧ ∀ e, (t.link e).st = (v.link e).st ∨ (t.link e).st = left e)
    (Q := fun l t => (t.link l).st = left l) (g := fun l t => t.leaveLink f l) ls
    (fun l h t ht => by
      have hi := hstep l h t ht
      refine ⟨ht.1.leaveLink f l, hi.mem.trans ht.2.1, fun e => (hi.ops e).trans (ht.2.2.1 e), fun e => ?_⟩
      rw [hi.st]
      split
      next he => rw [he]; exact .inr rfl
      next => exact ht.2.2.2 e)
    (fun l h t ht => by rw [(hstep l h t ht).st, if_pos rfl])
    (fun e l h t ht he => by
      rw [(hstep l h t ht).st]
      split
      next hel => rw [hel]
      next => exact he)
    (s := v) ⟨Calm.refl v, rfl, fun _ => rfl, fun _ => .inl rfl⟩
  exact ⟨h1, h2⟩

/-- A seat goes into HOLD: its plan stays, and nothing but seats changes. -/
theorem State.enterHold_only {f : Nat} (hf : f < 4) (s : State) : s.enterHold f = { s with seats := (s.enterHold f).seats } ∧
    ((s.enterHold f).seat f).plan = (s.seat f).plan := by
  have hmod (t : State) (g : Seat → Seat) (hg : ∀ k, (g k).plan = k.plan) :
      t.modSeat f g = { t with seats := (t.modSeat f g).seats } ∧ ((t.modSeat f g).seat f).plan = (t.seat f).plan := by
    refine ⟨?_, by rw [State.seat_modSeat_self _ _ hf, hg]⟩
    unfold State.modSeat State.setSeat
    split <;> rfl
  have h1 : s.holdAbort f = { s with seats := (s.holdAbort f).seats } ∧ ((s.holdAbort f).seat f).plan = (s.seat f).plan := by
    unfold State.holdAbort
    cases (s.seat f).tt.pendingAttempt with
    | none => exact ⟨rfl, rfl⟩
    | some p => exact hmod s _ fun _ => rfl
  have h2 : (s.holdAbort f).holdNow f = { s.holdAbort f with seats := ((s.holdAbort f).holdNow f).seats } ∧
      (((s.holdAbort f).holdNow f).seat f).plan = ((s.holdAbort f).seat f).plan := by
    unfold State.holdNow
    exact hmod _ _ fun _ => rfl
  refine ⟨?_, h2.2.trans h1.2⟩
  unfold State.enterHold
  rw [h2.1, h1.1]

/-- A seat given up but for its links. -/
def Seat.left (k : Seat) : Seat :=
  let k := k.takeId 0 0 0
  { k with cm := { k.cm with partner := 0, partnerOk := false, named := false, namedBy := none }, tt := { k.tt with counted := false } }

/-- What is left of a seat that is given up. -/
theorem State.leaveSeat_leaves {f : Nat} (hf : f < 4) {s : State} (hck : (s.seat f).ck.state = 0) :
    (∀ r, s.answers r → (s.leaveSeat f).answers r) ∧
    ((s.leaveSeat f).seat f).cm.moduleId = 0 ∧ ((s.leaveSeat f).seat f).cm.epoch = 0 ∧ ((s.leaveSeat f).seat f).cm.seatState = 0 ∧
    ((s.leaveSeat f).seat f).cm.partnerOk = false ∧
    (∀ l ∈ s.seatLinks f, ((s.leaveSeat f).link l).keyEpoch = none ∧ ((s.leaveSeat f).link l).nodeOk = false) ∧
    ((∀ l ∈ s.seatLinks f, (s.link l).ops = []) → (s.leaveSeat f).mem = s.mem ∧
      ∀ l ∈ s.seatLinks f, ((s.leaveSeat f).link l).st = leftState (s.seat f).plan.isNone (s.link l).st) := by
  obtain ⟨u, hu, hplan⟩ : ∃ u : State, (if (s.seat f).tt.hold then s else s.enterHold f) = u ∧ u = { s with seats := u.seats } ∧
      (u.seat f).plan = (s.seat f).plan := by
    refine ⟨_, rfl, ?_⟩
    split
    · exact ⟨rfl, rfl⟩
    · exact s.enterHold_only hf
  obtain ⟨hu', hplan⟩ := hplan
  let v := u.modSeat f Seat.left
  have hlinks : v.seatLinks f = s.seatLinks f := by
    simp only [v, State.seatLinks, State.seatFields, State.partOf, State.modSeat_host]
    rw [hu']
  have e : s.leaveSeat f = eachOf (s.seatLinks f) (fun l t => t.leaveLink f l) v := by
    unfold State.leaveSeat State.ckInterrupt
    rw [if_pos hck]
    dsimp only
    rw [hu, ← hlinks]
    rfl
  obtain ⟨hc, hk, hi⟩ := leaveLinks_step f (s.seatLinks f) State.seatLinks_lt v
  have hv : v.seat f = (u.seat f).left := State.seat_modSeat_self _ _ hf
  have hvl (l : Nat) : v.link l = s.link l := State.link_congr l ((State.modSeat_links _ _ _).trans (by rw [hu']))
  have hcm : ((s.leaveSeat f).seat f).cm = (u.seat f).left.cm := by
    rw [e, ← hv]
    exact (congrArg Seat.cm (hc.seat_calm f) :)
  refine ⟨fun r hr => ?_, ?_, ?_, ?_, ?_, ?_, fun ho => ?_⟩
  · rw [e]
    refine eachOf_keeps (fun t => t.answers r) _ _ (fun l t ht => t.leaveLink_answers f l ht) v (State.answers_congr ?_ hr)
    rw [State.modSeat_host, hu']
  · rw [hcm]; rfl
  · rw [hcm]; rfl
  · rw [hcm]; rfl
  · rw [hcm]; rfl
  · rw [e]
    exact hk
  · obtain ⟨h1, h2⟩ := hi fun l hl => by rw [hvl]; exact ho l hl
    rw [e]
    refine ⟨h1.trans ((State.modSeat_mem _ _ _).trans (by rw [hu'])), fun l hl => ?_⟩
    rw [h2 l hl, hv, hvl]
    exact congrArg (fun p : Option Plan => leftState p.isNone (s.link l).st) hplan

section
variable {s : State} {r : Req} {i : Nat} {k : Session} (h : Admitted s r i k 6 13 .bound)
include h

theorem jobLeave_standby (hs : (s.seat (reqField r)).cm.seatState = 1) :
    Replies (.jobLeave r) s r stWrongState (s.wrongDetail (reqField r)) .empty := by
  refine replies_heard h.heard ((h.exec_go rfl).trans ?_)
  dsimp only
  rw [State.admitted_seat, if_pos hs, State.admitted_wrongDetail]

variable (hs : (s.seat (reqField r)).cm.seatState ≠ 1)
include hs

theorem exec_jobLeave_leaves : exec (.jobLeave r) s = .next
    (((s.admitted r k).atBellOr (reqField r) .leave (fun s => s.leaveSeat (reqField r))).respond r stOk) := by
  refine (h.exec_go rfl).trans ?_
  dsimp only
  rw [State.admitted_seat, if_neg hs]

theorem jobLeave_leaves (hr : s.atRest (reqField r) = true) (hck : (s.seat (reqField r)).ck.state = 0) : let f := reqField r
    Does (.jobLeave r) s r stOk 0 .empty (fun t => (t.seat f).cm.moduleId = 0 ∧ (t.seat f).cm.epoch = 0 ∧ (t.seat f).cm.seatState = 0 ∧
      (t.seat f).cm.partnerOk = false ∧ (∀ l ∈ s.seatLinks f, (t.link l).keyEpoch = none ∧ (t.link l).nodeOk = false) ∧
      ((∀ l ∈ s.seatLinks f, (s.link l).ops = []) → t.mem = s.mem ∧ ∀ l ∈ s.seatLinks f, (t.link l).st =
        (if (s.seat f).plan = none ∧ (s.link l).st ≠ .failed then .off
         else if (s.link l).st = .locked ∨ (s.link l).st = .ranging then .ident else (s.link l).st))) := by
  intro f
  obtain ⟨ha, hm, he, hst, hp, hk, hi⟩ := State.leaveSeat_leaves (s := s.admitted r k) (reqField_lt r) (by rwa [State.admitted_seat])
  have hl : (s.admitted r k).seatLinks f = s.seatLinks f := by simp only [State.seatLinks, State.admitted_seatFields]
  have hlink {t : State} (l : Nat) : (t.respond r stOk).link l = t.link l := State.link_congr l (State.respond_links _ _ _ _ _)
  rw [hl] at hk hi
  refine does_respond (Heard.at_once (exec_jobLeave_leaves h hs) hr) (ha r h.heard.answers) ⟨?_, ?_, ?_, ?_, fun l hl => ?_, fun ho => ?_⟩
  · rw [State.respond_seat, hm]
  · rw [State.respond_seat, he]
  · rw [State.respond_seat, hst]
  · rw [State.respond_seat, hp]
  · rw [hlink]
    exact hk l hl
  · obtain ⟨h1, h2⟩ := hi fun l hl => by rw [State.admitted_link]; exact ho l hl
    refine ⟨(State.respond_mem _ _ _ _ _).trans (h1.trans (State.admitted_mem s r k)), fun l hl => ?_⟩
    rw [hlink, h2 l hl, State.admitted_seat, State.admitted_link]
    exact if_congr (and_congr Option.isNone_iff_eq_none Iff.rfl) rfl rfl

end

/-- Settles O41: each request as its outcome lemmas say. -/
theorem seatsArePairedAndHandedOver : Obligations.SeatsArePairedAndHandedOver := by
  intro s r i k f q wrong linked
  refine ⟨fun m e peers h => ?_, fun p both h => ?_, fun a b digest stepping step h hx => ?_, fun h g hg ho => ?_, fun m p e v n peers g h hg ho => ?_,
    fun h ho => ?_, fun m p e v n peers h ho => ?_, fun n h => ?_, fun peers h => ?_, fun h => ?_⟩
  · exact ⟨jobSeat_opened h, jobSeat_badPeers h, jobSeat_standby h, fun ho hp hs => h.heard.listed (exec_jobSeat_takes h ho hp hs),
      fun ho hp hs => jobSeat_takes h ho hp hs⟩
  · exact ⟨jobPartner_running h, jobPartner_names h⟩
  · exact ⟨jobFill_noPlan h hx, jobFill_wrong h hx, jobFill_badRange h hx, jobFill_otherFirmware h hx, jobFill_nothing h hx, jobFill_asks h hx⟩
  · exact jobStandby_opened h hg ho
  · exact jobAssume_opened h hg ho
  · exact ⟨jobStandby_nobody h, fun g hg => ⟨jobStandby_seated h hg ho, jobStandby_idles h hg ho⟩⟩
  · exact ⟨jobAssume_nobody h, fun g hg hp => ⟨jobAssume_seated h hg ho hp, jobAssume_takes h hg ho hp⟩⟩
  · exact ⟨jobHandover_noPlan h, jobHandover_wrong h, jobHandover_applies h, jobHandover_behind h,
      fun u us hp hm ha hc hr hu => jobHandover_unresolved h hp hm ha hc hr hu, fun hp hm ha hc hr hx hv => jobHandover_selfChecked h hp hm ha hc hr hx hv,
      fun hp hm ha hc hr hv => jobHandover_serves h hp hm ha hc hr hv⟩
  · exact ⟨jobPeers_badPeers h, jobPeers_notSeated h, fun hp hs => h.heard.listed (exec_jobPeers_replaces h hp hs),
      fun hp hs => jobPeers_replaces h hp hs⟩
  · exact ⟨jobLeave_standby h, fun hs => h.heard.listed (exec_jobLeave_leaves h hs), jobLeave_leaves h⟩

end Sys2Proof.Machine
end

section
/-! Status words (R69 to R75): their fields, the children's words, the fold at a bell, verdicts and branches, and O21. -/

namespace Sys2Proof.Machine

/-! ### The fields of a status word (Table 02-10) -/

section
variable (fl : BitVec 9) (m : Bool) (ly c v : BitVec 16)

theorem b2n_le (m : Bool) : b2n m ≤ 1 := by cases m <;> decide

theorem mkWord_toNat : (mkWord fl m ly c v).toNat = fl.toNat + 512 * b2n m + 65536 * ly.toNat + 2 ^ 32 * c.toNat + 2 ^ 48 * v.toNat := by
  have h1 := fl.isLt
  have h2 := b2n_le m
  have h3 := ly.isLt
  have h4 := c.isLt
  have h5 := v.isLt
  rw [mkWord, BitVec.toNat_ofNat, Nat.mod_eq_of_lt (by omega)]

@[simp] theorem wordFlags_mkWord : wordFlags (mkWord fl m ly c v) = fl := by
  apply BitVec.eq_of_toNat_eq
  have h1 := fl.isLt
  have h2 := b2n_le m
  rw [wordFlags, BitVec.extractLsb'_toNat, mkWord_toNat, Nat.shiftRight_zero]
  omega

@[simp] theorem wordMirror_mkWord : wordMirror (mkWord fl m ly c v) = m := by
  have h1 := fl.isLt
  have h2 := b2n_le m
  have hb : (fl.toNat + 512 * b2n m + 65536 * ly.toNat + 2 ^ 32 * c.toNat + 2 ^ 48 * v.toNat) / 2 ^ 9 % 2 = b2n m := by omega
  rw [wordMirror, BitVec.getLsbD, mkWord_toNat, Nat.testBit_eq_decide_div_mod_eq, hb]
  cases m <;> rfl

@[simp] theorem wordLayer_mkWord : wordLayer (mkWord fl m ly c v) = ly := by
  apply BitVec.eq_of_toNat_eq
  have h1 := fl.isLt
  have h2 := b2n_le m
  have h3 := ly.isLt
  rw [wordLayer, BitVec.extractLsb'_toNat, mkWord_toNat, Nat.shiftRight_eq_div_pow]
  omega

@[simp] theorem wordCount_mkWord : wordCount (mkWord fl m ly c v) = c := by
  apply BitVec.eq_of_toNat_eq
  have h1 := fl.isLt
  have h2 := b2n_le m
  have h3 := ly.isLt
  have h4 := c.isLt
  rw [wordCount, BitVec.extractLsb'_toNat, mkWord_toNat, Nat.shiftRight_eq_div_pow]
  omega

@[simp] theorem wordVer_mkWord : wordVer (mkWord fl m ly c v) = v := by
  apply BitVec.eq_of_toNat_eq
  have h1 := fl.isLt
  have h2 := b2n_le m
  have h3 := ly.isLt
  have h4 := c.isLt
  have h5 := v.isLt
  rw [wordVer, BitVec.extractLsb'_toNat, mkWord_toNat, Nat.shiftRight_eq_div_pow]
  omega

end

/-- A word folded into another, field by field (R72). -/
theorem foldWord_fields (a w : BitVec 64) : let r := foldWord a w
    wordFlags r = (wordFlags a ||| wordFlags w ||| if wordVer a = wordVer w then 0 else 1) ∧ wordMirror r = (wordMirror a && wordMirror w) ∧
    wordLayer r = (if wordLayer w < wordLayer a then wordLayer w else wordLayer a) ∧
    wordCount r = (if wordCount a < wordCount w then wordCount w else wordCount a) ∧ wordVer r = wordVer a := by
  unfold foldWord
  refine ⟨wordFlags_mkWord _ _ _ _ _, wordMirror_mkWord _ _ _ _ _, ?_, wordCount_mkWord _ _ _ _ _, wordVer_mkWord _ _ _ _ _⟩
  rw [wordLayer_mkWord, min16]
  split
  next h => rw [if_neg (by bv_omega)]
  next h =>
    split
    · rfl
    next h' => bv_omega

theorem missingWord_fields (ver : BitVec 16) : wordFlags (missingWord ver) = 1 ∧ wordLayer (missingWord ver) = 0xFFFF :=
  ⟨wordFlags_mkWord _ _ _ _ _, wordLayer_mkWord _ _ _ _ _⟩

/-! ### Verdicts (Tables 01-3, 02-11) -/

theorem faultFlags_iff (fl : BitVec 9) : (fl &&& 7 != 0) = (fl.getLsbD 0 || fl.getLsbD 1 || fl.getLsbD 2) := by
  revert fl
  decide

/-- The verdict of a word without a fault, of one with, and of a step that is not finite. -/
theorem judgeWord_cases (w : BitVec 64) (replay : Bool) (aborts limit : Nat) :
    let v := judgeWord w replay aborts limit
    let fl := wordFlags w
    let fault : Prop := fl.getLsbD 0 = true ∨ fl.getLsbD 1 = true ∨ fl.getLsbD 2 = true ∨ wordMirror w = false
    let nonfinite : Prop := fl.getLsbD 8 = true
    (¬ fault → ¬ nonfinite → v.commit = true ∧ v.abort = false ∧ v.clip = fl.getLsbD 5 ∧ v.ckpt = fl.getLsbD 6 ∧ v.subst = fl.getLsbD 7 ∧
      v.cont = if fl.getLsbD 7 then 3 else if fl.getLsbD 5 then 2 else 0) ∧
    (nonfinite → (replay = true ∨ ¬ fault) → v.commit = false ∧ v.abort = true ∧ v.nonfinite = true ∧ v.cont = 3) ∧
    (fault → ¬ (nonfinite ∧ replay = true) → v.commit = false ∧ v.abort = true ∧ v.nonfinite = false ∧
      v.cont = if aborts + 1 < limit then 1 else 3) := by
  intro v fl fault nonfinite
  have hf : (fl &&& 7 != 0 || !wordMirror w) = true ↔ fault := by
    rw [faultFlags_iff]
    simp only [fault, Bool.or_eq_true, Bool.not_eq_true', or_assoc]
  have hv : v = if fl.getLsbD 8 && (replay || !(fl &&& 7 != 0 || !wordMirror w)) then { abort := true, nonfinite := true, cont := 3 }
      else if (fl &&& 7 != 0 || !wordMirror w) then
        (if aborts + 1 < limit then { abort := true, cont := 1 } else { abort := true, limit := true, cont := 3 })
      else { commit := true, clip := fl.getLsbD 5, ckpt := fl.getLsbD 6, subst := fl.getLsbD 7,
             cont := if fl.getLsbD 7 then 3 else if fl.getLsbD 5 then 2 else 0 } := rfl
  generalize (fl &&& 7 != 0 || !wordMirror w) = b at hf hv
  refine ⟨fun h1 h2 => ?_, fun h1 h2 => ?_, fun h1 h2 => ?_⟩
  · have hb : b = false := by simpa using mt hf.1 h1
    rw [hv, hb, if_neg (by simpa [nonfinite] using h2), if_neg (by simp)]
    exact ⟨rfl, rfl, rfl, rfl, rfl, rfl⟩
  · have hb : replay = true ∨ b = false := h2.imp_right fun h => by simpa using mt hf.1 h
    rw [hv, if_pos]
    · exact ⟨rfl, rfl, rfl, rfl⟩
    · have h1' : fl.getLsbD 8 = true := h1
      rcases hb with hb | hb <;> simp [h1', hb]
  · have hb : b = true := hf.2 h1
    rw [hv, hb, if_neg (by simpa [nonfinite] using h2), if_pos rfl]
    split <;> exact ⟨rfl, rfl, rfl, rfl⟩

/-! ### Words of children and of the parent (R71, R289) -/

section
variable {s : State} {l : Nat} (hl : l < 24) (hp : (s.seat (fieldOfLink l)).plan.isSome = true)

/-- A node's record of words once a child's word has joined. -/
def State.joined (s : State) (l : Nat) (a w n : BitVec 64) : State :=
  s.modTt (fieldOfLink l) (fun x => { x with
    combined := Tab.put x.combined ((s.seat (fieldOfLink l)).tt.bell - 1).toNat (joinWord a w),
    childGot := x.childGot ++ [(l, (s.seat (fieldOfLink l)).tt.bell - 1, w, n)] })

/-- The first word of a child joins. -/
theorem State.joinChild_joins {a : BitVec 64} (hc : Tab.find (s.seat (fieldOfLink l)).tt.combined ((s.seat (fieldOfLink l)).tt.bell - 1).toNat = some a)
    (hg : (s.seat (fieldOfLink l)).tt.childGot = []) (w n : BitVec 64) : s.joinChild l w n = s.joined l a w n := by
  unfold State.joinChild State.joined
  dsimp only
  rw [hg, if_neg (by simp), hc]

/-- The first reduced word that a seat keeps. -/
theorem State.addReduced_first {g : Nat} (hg : g < 4) (h : (s.seat g).tt.reduced = []) (p w : BitVec 64) (n : Option (BitVec 64)) :
    ((s.addReduced g p w n).seat g).tt = { (s.seat g).tt with reduced := [{ period := p, word := w, norm := n }] } := by
  unfold State.addReduced State.modTt
  rw [State.seat_modSeat_self _ _ hg]
  dsimp only
  rw [h, if_neg (by simp)]
  rfl

include hl hp

theorem exec_statusFlitReceive_word (hk : (s.link l).st = .locked) (ht : (s.treeChildren (fieldOfLink l)).contains l = true) {x : StatusFlit}
    (hx : x.down = false) : exec (.statusFlitReceive l (some x)) s = .next
      (s.joinChild l (x.words.getD 0 (missingWord (s.seat (fieldOfLink l)).planVer)) x.norm0) := by
  show Host.Outcome.next (execStatusFlitReceive l (some x) s) = _
  unfold execStatusFlitReceive
  dsimp only
  rw [if_neg (by simp [hl, hk, Option.isSome_iff_ne_none.1 hp]), if_pos ht, if_neg (by simp [hx])]

theorem exec_statusFlitReceive_damaged (hk : (s.link l).st = .locked) (ht : (s.treeChildren (fieldOfLink l)).contains l = true) :
    exec (.statusFlitReceive l none) s = .next (s.joinChild l (missingWord (s.seat (fieldOfLink l)).planVer) 0) := by
  show Host.Outcome.next (execStatusFlitReceive l none s) = _
  unfold execStatusFlitReceive
  dsimp only
  rw [if_neg (by simp [hl, hk, Option.isSome_iff_ne_none.1 hp]), if_pos ht]

theorem exec_statusChildMissing_child (ht : (s.treeChildren (fieldOfLink l)).contains l = true) :
    exec (.statusChildMissing (fieldOfLink l) l) s = .next (s.joinChild l (missingWord (s.seat (fieldOfLink l)).planVer) 0) := by
  show Host.Outcome.next (execStatusChildMissing (fieldOfLink l) l s) = _
  have hf : fieldOfLink l < 4 := by unfold fieldOfLink; omega
  rw [execStatusChildMissing, if_pos ⟨hf, hp, ht, rfl⟩]

/-- A reduced word from the parent is kept for its bell. -/
theorem statusFlitReceive_reduced (ht : (s.treeChildren (fieldOfLink l)).contains l = false) (hpar : s.isParentLink l = true)
    (hk : (s.link l).st = .locked) (hr : (s.seat (fieldOfLink l)).tt.reduced = []) {x : StatusFlit} {w : BitVec 64} (hx : x.down = true)
    (hw : x.words = [w]) : ∃ t, exec (.statusFlitReceive l (some x)) s = .next t ∧ (t.seat (fieldOfLink l)).tt.heard = true ∧
      (t.seat (fieldOfLink l)).tt.reduced = [{ period := (s.seat (fieldOfLink l)).tt.bell - 1, word := w, norm := some x.norm0 }] ∧
      t.mem = s.mem ∧ t.links = s.links := by
  let g := fieldOfLink l
  have hg : g < 4 := by unfold g fieldOfLink; omega
  let v := s.modTt g (fun t => { t with heard := true })
  have e : exec (.statusFlitReceive l (some x)) s = .next (v.addReduced g ((s.seat g).tt.bell - 1 - BitVec.ofNat 64 0) w (some x.norm0)) := by
    show Host.Outcome.next (execStatusFlitReceive l (some x) s) = _
    unfold execStatusFlitReceive
    dsimp only
    rw [if_neg (by simp [hl, hk, Option.isSome_iff_ne_none.1 hp]), if_neg (by rw [ht]; decide), if_pos hpar, hx, if_neg (by decide), hw]
    rfl
  have hv : v.seat g = { s.seat g with tt := { (s.seat g).tt with heard := true } } := State.seat_modSeat_self _ _ hg
  have hred := State.addReduced_first (s := v) hg (by rw [hv]; exact hr) ((s.seat g).tt.bell - 1 - BitVec.ofNat 64 0) w (some x.norm0)
  refine ⟨_, e, ?_, ?_, ?_, ?_⟩
  · rw [hred, hv]
  · rw [hred, BitVec.ofNat_eq_ofNat, BitVec.sub_zero]
  · simp [State.addReduced, v]
  · simp [State.addReduced, v]

end

/-! ### The fold at a bell (R39, R69, R72) -/

/-- A word into a window or an accumulator. -/
def foldInto (a : Option (BitVec 64)) (w : BitVec 64) : BitVec 64 := match a with | some x => foldWord x w | none => w

/-- TT_STATUS_LAST, the window and the accumulators of a seat's timetable. -/
abbrev Tt.wordsOf (t : Tt) : BitVec 64 × Option (BitVec 64) × Tab (BitVec 64) := (t.statusLast, t.win, t.accs)

theorem Calm.wordsOf {s t : State} (h : Calm s t) (f : Nat) : (t.seat f).tt.wordsOf = (s.seat f).tt.wordsOf ∧
    (t.seat f).tt.syncState = (s.seat f).tt.syncState :=
  ⟨(congrArg (fun k : Seat => k.tt.wordsOf) (h.seat_calm f) :), (congrArg (fun k : Seat => k.tt.syncState) (h.seat_calm f) :)⟩

/-- The effect of a norm leaves the record of words. -/
theorem State.normEffect_words (s : State) {f : Nat} (hf : f < 4) (n : BitVec 64) :
    ((s.normEffect f n).seat f).tt.wordsOf = (s.seat f).tt.wordsOf := by
  unfold State.normEffect
  cases (s.seat f).plan with
  | none => rfl
  | some p =>
    have hc := (Calm.refl s).eachOf (coresOf (s.seatFields f)) (g := fun c t => t.libWrite (fieldOfCore c) (slateBase c + p.hdr.normTable + 8)
      (leBytes 8 n.toNat)) fun _ _ ht => ht.libWrite
    have hcm (t : State) (g : Cm → Cm) : ((t.modCm f g).seat f).tt = (t.seat f).tt := by
      unfold State.modCm
      rw [State.seat_modSeat_self _ _ hf]
    dsimp only
    cases clipOf p.hdr.theta n with
    | some c => rw [hcm]; exact (hc.wordsOf f).1
    | none =>
      refine Eq.trans ?_ (hc.wordsOf f).1
      exact congrArg Tt.wordsOf (hcm _ _)

/-- HOLD leaves the record of words and the state of synchronisation. -/
theorem State.enterHold_words (s : State) {f : Nat} (hf : f < 4) : ((s.enterHold f).seat f).tt.wordsOf = (s.seat f).tt.wordsOf ∧
    ((s.enterHold f).seat f).tt.syncState = (s.seat f).tt.syncState ∧ ((s.enterHold f).seat f).tt.hold = true := by
  unfold State.enterHold State.holdNow
  dsimp only
  rw [State.seat_modSeat_self _ _ hf]
  unfold State.holdAbort
  cases (s.seat f).tt.pendingAttempt with
  | none => exact ⟨rfl, rfl, rfl⟩
  | some p =>
    dsimp only
    rw [State.seat_modSeat_self _ _ hf]
    exact ⟨rfl, rfl, rfl⟩

/-- A seat that loses its synchronisation and holds. -/
theorem State.unlock_holds (s : State) {f : Nat} (hf : f < 4) : (((s.unlock f).enterHold f).seat f).tt.wordsOf = (s.seat f).tt.wordsOf ∧
    (((s.unlock f).enterHold f).seat f).tt.hold = true ∧ (((s.unlock f).enterHold f).seat f).tt.syncState = 0 := by
  obtain ⟨h1, h2, h3⟩ := (s.unlock f).enterHold_words hf
  let v := s.modTt f (fun t => { t with syncState := 0 })
  have hv : v.seat f = { s.seat f with tt := { (s.seat f).tt with syncState := 0 } } := State.seat_modSeat_self _ _ hf
  have hc : Calm v (s.unlock f) := (Calm.refl v).eachOf _ fun _ _ ht => ht.sendAbsent.ite ht
  obtain ⟨c1, c2⟩ := hc.wordsOf f
  exact ⟨h1.trans (c1.trans (by rw [hv])), h3, h2.trans (c2.trans (by rw [hv]))⟩

/-- The words of a period that has closed take effect. -/
def Tt.fold (t : Tt) (w : BitVec 64) (a : Option Nat) : BitVec 64 × Option (BitVec 64) × Tab (BitVec 64) :=
  (w, some (foldInto t.win w), match a with | some a => Tab.put t.accs a (foldInto (Tab.find t.accs a) w) | none => t.accs)

theorem State.foldWords_folds (s : State) {f : Nat} (hf : f < 4) {w : BitVec 64} {n : Option (BitVec 64)} :
    let t := (s.seat f).tt
    let q := t.bell - 1 - t.lag.setWidth 64
    s.effective f q = some (w, n) → ((s.foldWords f).seat f).tt.wordsOf = t.fold w (Tab.find t.periodOf q.toNat) := by
  intro t q he
  have hmod (g : Tt → Tt) : ((s.modTt f g).seat f).tt = g t := by
    unfold State.modTt
    rw [State.seat_modSeat_self _ _ hf]
  unfold State.foldWords
  dsimp only
  rw [show s.effective f ((s.seat f).tt.bell - 1 - (s.seat f).tt.lag.setWidth 64) = some (w, n) from he]
  cases hp : Tab.find t.periodOf q.toNat with
  | none =>
    dsimp only
    rw [hmod]
    rfl
  | some a =>
    dsimp only
    split
    · cases n with
      | some n =>
        dsimp only
        rw [State.normEffect_words _ hf, hmod]
        rfl
      | none =>
        dsimp only
        rw [(State.unlock_holds _ hf).1, hmod]
        rfl
    · rw [hmod]
      rfl

theorem State.foldWords_unlocks (s : State) {f : Nat} (hf : f < 4) : let t := (s.seat f).tt
    let q := t.bell - 1 - t.lag.setWidth 64
    s.effective f q = none →
    ((Tab.find t.periodOf q.toNat).isSome = true → ((s.foldWords f).seat f).tt.hold = true ∧ ((s.foldWords f).seat f).tt.syncState = 0) ∧
    (Tab.find t.periodOf q.toNat = none → s.foldWords f = s) := by
  intro t q he
  have he' : s.effective f ((s.seat f).tt.bell - 1 - (s.seat f).tt.lag.setWidth 64) = none := he
  refine ⟨fun hp => ?_, fun hp => ?_⟩
  · obtain ⟨a, ha⟩ := Option.isSome_iff_exists.1 hp
    have ha' : Tab.find (s.seat f).tt.periodOf ((s.seat f).tt.bell - 1 - (s.seat f).tt.lag.setWidth 64).toNat = some a := ha
    have e : s.foldWords f = (s.unlock f).enterHold f := by
      unfold State.foldWords
      dsimp only
      rw [ha', he'] <;> rfl
    rw [e]
    exact (s.unlock_holds hf).2
  · have hp' : Tab.find (s.seat f).tt.periodOf ((s.seat f).tt.bell - 1 - (s.seat f).tt.lag.setWidth 64).toNat = none := hp
    unfold State.foldWords
    dsimp only
    rw [hp', he'] <;> rfl

/-! ### Branches (R74, R75) -/

theorem efield_lt (e : Entry) {hi lo n : Nat} (h : hi + 1 - lo = n) : efield e hi lo < 2 ^ n := by
  subst h
  exact Nat.mod_lt _ (Nat.two_pow_pos _)

/-- A condition word meets a mask. -/
theorem mask_meets (v : BitVec 10) {m : Nat} (hm : m < 2 ^ 10) : v &&& BitVec.ofNat 10 m ≠ 0 ↔ v.toNat &&& m ≠ 0 := by
  rw [not_iff_not, BitVec.toNat_eq, BitVec.toNat_and, BitVec.toNat_ofNat, Nat.mod_eq_of_lt hm]
  rfl

/-- The lowest continuation whose mask meets the condition word, else T0. -/
theorem branchPick_cases (e : Entry) (c : BitVec 10) : let v := c.toNat
    (v &&& efield e 53 44 = 0 → v &&& efield e 43 34 = 0 → v &&& efield e 33 24 = 0 → branchPick e c = 0) ∧
    (v &&& efield e 53 44 = 0 → v &&& efield e 43 34 = 0 → v &&& efield e 33 24 ≠ 0 → branchPick e c = 3) ∧
    (v &&& efield e 53 44 = 0 → v &&& efield e 43 34 ≠ 0 → branchPick e c = 2) ∧
    (v &&& efield e 53 44 ≠ 0 → branchPick e c = 1) := by
  have m1 := mask_meets c (efield_lt e (hi := 53) (lo := 44) rfl)
  have m2 := mask_meets c (efield_lt e (hi := 43) (lo := 34) rfl)
  have m3 := mask_meets c (efield_lt e (hi := 33) (lo := 24) rfl)
  simp only [branchPick, m1, m2, m3]
  refine ⟨fun h1 h2 h3 => ?_, fun h1 h2 h3 => ?_, fun h1 h2 => ?_, fun h1 => if_pos h1⟩
  · rw [if_neg (not_not.2 h1), if_neg (not_not.2 h2), if_neg (not_not.2 h3)]
  · rw [if_neg (not_not.2 h1), if_neg (not_not.2 h2), if_pos h3]
  · rw [if_neg (not_not.2 h1), if_pos h2]

/-- What a branch leaves in its seat's timetable. -/
theorem State.noteBranch_tt (s : State) {f : Nat} (hf : f < 4) (e k : Nat) (verdict indexed : Bool) (layer : BitVec 16) :
    ((s.noteBranch f e k verdict indexed layer).seat f).tt = { (s.seat f).tt with
      win := none, sel := { (s.seat f).tt.sel with sel := BitVec.ofNat 2 k, verdict, indexed, layer, entry := BitVec.ofNat 17 e } } := by
  unfold State.noteBranch State.modTt
  rw [State.seat_modSeat_self _ _ hf]

theorem State.numLog_tt (s : State) {f : Nat} (hf : f < 4) (e : NumEntry) : ((s.numLog f e).seat f).tt = (s.seat f).tt := by
  unfold State.numLog
  rw [State.seat_modSeat_self _ _ hf]

/-- The word that a mid-step branch looks at. -/
def Walk.looksAt (w : Walk) (f : Nat) (e : Entry) : BitVec 64 :=
  (if efield e 123 123 = 1 then Tab.find (w.s.seat f).tt.accs (w.s.seat f).tt.attempt else (w.s.seat f).tt.win).getD (emptyWord (w.s.seat f).planVer)

/-- A branch went to `target` as continuation `n`. -/
def Walk.Takes (w : Walk) (f i : Nat) (r : Walk × Nat) (n target : Nat) : Prop :=
  (r.1.s.seat f).tt.win = none ∧ (r.1.s.seat f).tt.sel.entry = BitVec.ofNat 17 i ∧ (r.1.s.seat f).tt.sel.verdict = false ∧
  r.2 = target ∧ (r.1.s.seat f).tt.sel.sel = BitVec.ofNat 2 n ∧ r.1.redirect = (w.redirect || n != 0)

section
variable (w : Walk) {f : Nat} (hf : f < 4) (i : Nat) (blk : List Entry)
include hf

/-- A continuation that takes no indexed form. -/
theorem Walk.branch_plain {n : Nat} (hn : branchPick (blk.getD i 0) (condWord (w.looksAt f (blk.getD i 0))) = n)
    (h : ¬ (n = 1 ∧ efield (blk.getD i 0) 122 122 = 1)) :
    w.Takes f i (w.branch f blk i) n (branchTarget (blk.getD i 0) n) := by
  subst hn
  have e : w.branch f blk i = _ := if_neg h
  rw [e]
  have ht := State.noteBranch_tt w.s hf i (branchPick (blk.getD i 0) (condWord (w.looksAt f (blk.getD i 0)))) false false 0xFFFF
  exact ⟨congrArg (·.win) ht, congrArg (·.sel.entry) ht, congrArg (·.sel.verdict) ht, rfl, congrArg (·.sel.sel) ht, rfl⟩

theorem Walk.branch_indexed (hn : branchPick (blk.getD i 0) (condWord (w.looksAt f (blk.getD i 0))) = 1)
    (hx : efield (blk.getD i 0) 122 122 = 1) :
    let e := blk.getD i 0
    let word := w.looksAt f e
    let jump := efield e 104 88 + ((wordLayer word).toNat - efield e 23 8)
    let inTable : Prop := efield e 23 8 ≤ (wordLayer word).toNat ∧ jump < jumpTableEnd blk blk.length (efield e 104 88)
    (inTable → w.Takes f i (w.branch f blk i) 1 jump ∧ ((w.branch f blk i).1.s.seat f).tt.sel.indexed = true ∧
      ((w.branch f blk i).1.s.seat f).tt.sel.layer = wordLayer word) ∧
    (¬ inTable → w.Takes f i (w.branch f blk i) 0 (branchTarget e 0)) := by
  intro e word jump inTable
  refine ⟨fun h => ?_, fun h => ?_⟩
  · have eb : w.branch f blk i = _ := (if_pos ⟨hn, hx⟩).trans (if_pos h)
    have ht := State.noteBranch_tt w.s hf i 1 false true (wordLayer word)
    have hs := (State.numLog_tt (w.s.noteBranch f i 1 false true (wordLayer word)) hf
      { step := (w.s.seat f).cm.live, layer := wordLayer word, kind := 2, bell := (w.s.seat f).tt.bell,
        attempt := (w.s.seat f).tt.sel.aborts.setWidth 8 }).trans ht
    rw [eb]
    exact ⟨⟨congrArg (·.win) hs, congrArg (·.sel.entry) hs, congrArg (·.sel.verdict) hs, rfl, congrArg (·.sel.sel) hs, (Bool.or_true _).symm⟩,
      congrArg (·.sel.indexed) hs, congrArg (·.sel.layer) hs⟩
  · have eb : w.branch f blk i = _ := (if_pos ⟨hn, hx⟩).trans (if_neg h)
    have ht := State.noteBranch_tt w.s hf i 0 false false 0xFFFF
    rw [eb]
    exact ⟨congrArg (·.win) ht, congrArg (·.sel.entry) ht, congrArg (·.sel.verdict) ht, rfl, congrArg (·.sel.sel) ht, (Bool.or_false _).symm⟩

/-- Whatever it takes, a branch empties the window and names its entry. -/
theorem Walk.branch_takes : ∃ n target, w.Takes f i (w.branch f blk i) n target := by
  by_cases hx : branchPick (blk.getD i 0) (condWord (w.looksAt f (blk.getD i 0))) = 1 ∧ efield (blk.getD i 0) 122 122 = 1
  · obtain ⟨h1, h2⟩ := w.branch_indexed hf i blk hx.1 hx.2
    by_cases h : efield (blk.getD i 0) 23 8 ≤ (wordLayer (w.looksAt f (blk.getD i 0))).toNat ∧
        efield (blk.getD i 0) 104 88 + ((wordLayer (w.looksAt f (blk.getD i 0))).toNat - efield (blk.getD i 0) 23 8) <
          jumpTableEnd blk blk.length (efield (blk.getD i 0) 104 88)
    · exact ⟨_, _, (h1 h).1⟩
    · exact ⟨_, _, h2 h⟩
  · exact ⟨_, _, w.branch_plain hf i blk rfl hx⟩

end

/-- Settles O21: a child's word joins once, the word of a closed period folds, and verdicts and branches follow its fields. -/
theorem statusWordsCombine : Obligations.StatusWordsCombine := by
  unfold Obligations.StatusWordsCombine
  refine ⟨fun s l a hl hp => ?_, fun s f hf => ⟨fun w n he => ?_, ?_⟩, foldWord_fields, judgeWord_cases, fun w f i blk hf => ?_⟩
  · refine ⟨missingWord_fields _, fun ht hc hg => ⟨fun hk x w r hx hw => ?_, fun hk => ?_, ?_⟩, fun ht hpar hk hr x w hx hw =>
      statusFlitReceive_reduced hl hp ht hpar hk hr hx hw⟩
    · refine ⟨_, exec_statusFlitReceive_word hl hp hk ht hx, ?_⟩
      rw [hw]
      exact State.joinChild_joins hc hg _ _
    · exact ⟨_, exec_statusFlitReceive_damaged hl hp hk ht, State.joinChild_joins hc hg _ _⟩
    · exact ⟨_, exec_statusChildMissing_child hl hp ht, State.joinChild_joins hc hg _ _⟩
  · have h := s.foldWords_folds hf he
    refine ⟨congrArg (·.1) h, congrArg (·.2.1) h, fun a ha => ?_⟩
    have h2 : ((s.foldWords f).seat f).tt.accs = _ := congrArg (·.2.2) h
    rw [h2, ha]
    exact Tab.find_put_self _ _ _
  · exact ⟨fun he => (s.foldWords_unlocks hf he).1, fun he => (s.foldWords_unlocks hf he).2⟩
  · obtain ⟨n, tg, h1, h2, h3, -⟩ := w.branch_takes hf i blk
    obtain ⟨p0, p3, p2, p1⟩ := branchPick_cases (blk.getD i 0) (condWord (w.looksAt f (blk.getD i 0)))
    have plain (n : Nat) (hn : branchPick (blk.getD i 0) (condWord (w.looksAt f (blk.getD i 0))) = n)
        (h : ¬ (n = 1 ∧ efield (blk.getD i 0) 122 122 = 1)) := (w.branch_plain hf i blk hn h).2.2.2
    refine ⟨h1, h2, h3, fun a1 a2 a3 => plain 0 (p0 a1 a2 a3) (by simp), fun a1 a2 a3 => plain 3 (p3 a1 a2 a3) (by simp),
      fun a1 a2 => plain 2 (p2 a1 a2) (by simp), fun a1 hx => plain 1 (p1 a1) (by rw [hx]; simp), fun a1 hx ht => ?_, fun a1 hx ht => ?_⟩
    · obtain ⟨⟨-, -, -, q⟩, q2⟩ := (w.branch_indexed hf i blk (p1 a1) hx).1 ht
      exact ⟨q, q2⟩
    · exact ((w.branch_indexed hf i blk (p1 a1) hx).2 ht).2.2.2

end Sys2Proof.Machine
end

section
/-! What a bell leaves of its seat: the commands accepted for the bell, and what a roll call has set. -/

namespace Sys2Proof.Machine

/-! ### A view of the seats -/

/-- The layout of `t` is that of `s`, and what `P` sees of every seat is the same; `P` sees nothing of what `Seat.calm` leaves out. -/
structure Sees {α : Type} (P : Seat → α) (s t : State) : Prop where
  blind : ∀ k : Seat, P k.calm = P k
  layout : t.host.layout = s.host.layout
  seat : ∀ j, P (t.seatAt j) = P (s.seatAt j)

section
variable {α : Type} {P : Seat → α} {r s t : State}

theorem Sees.refl (hP : ∀ k : Seat, P k.calm = P k) (s : State) : Sees P s s := ⟨hP, rfl, fun _ => rfl⟩

theorem Sees.trans (h : Sees P r s) (g : Sees P s t) : Sees P r t :=
  ⟨h.blind, g.layout.trans h.layout, fun j => (g.seat j).trans (h.seat j)⟩

theorem Sees.seatIx (h : Sees P s t) (f : Nat) : t.seatIx f = s.seatIx f := State.seatIx_congr f h.layout
theorem Sees.seatFields (h : Sees P s t) (f : Nat) : t.seatFields f = s.seatFields f := by simp [State.seatFields, State.partOf, h.layout]

theorem Sees.at (h : Sees P s t) (f : Nat) : P (t.seat f) = P (s.seat f) := by
  unfold State.seat
  rw [h.seatIx]
  exact h.seat _

/-- A view of what the first one sees. -/
theorem Sees.view {β : Type} {Q : Seat → β} (v : α → β) (hv : ∀ k, Q k = v (P k)) (h : Sees P s t) : Sees Q s t :=
  ⟨fun k => by rw [hv, hv, h.blind], h.layout, fun j => by rw [hv, hv, h.seat]⟩

theorem Calm.sees (h : Calm s t) (hP : ∀ k : Seat, P k.calm = P k) : Sees P s t :=
  ⟨hP, h.layout, fun j => by rw [← hP, ← hP (s.seatAt j), h.seat]⟩

theorem Sees.calm (h : Sees P r s) (c : Calm s t) : Sees P r t := h.trans (c.sees h.blind)

/-- A state with the seats and the layout of another. -/
theorem Sees.of_eq (h : Sees P r s) (hs : t.seats = s.seats) (hl : t.host.layout = s.host.layout) : Sees P r t :=
  h.trans ⟨h.blind, hl, fun j => congrArg P (State.seatAt_congr hs j)⟩

theorem Sees.ite {p : Prop} [Decidable p] (h : Sees P r s) (g : Sees P r t) : Sees P r (if p then s else t) := by
  split
  · exact h
  · exact g

theorem Sees.foldl {β : Type} (l : List β) {g : State → β → State} (h : Sees P r s) (hg : ∀ t x, Sees P r t → Sees P r (g t x)) :
    Sees P r (l.foldl g s) :=
  List.foldlRecOn (motive := Sees P r) l g h fun t ht x _ => hg t x ht

theorem Sees.eachOf (l : List Nat) {g : Nat → State → State} (h : Sees P r s) (hg : ∀ x t, Sees P r t → Sees P r (g x t)) :
    Sees P r (Machine.eachOf l g s) := Sees.foldl l h fun t x ht => hg x t ht

theorem Sees.setSeat {f : Nat} {k : Seat} (h : Sees P r s) (hk : P k = P (s.seat f)) : Sees P r (s.setSeat f k) := by
  unfold State.setSeat
  split
  · refine ⟨h.blind, h.layout, fun j => ?_⟩
    unfold State.seatAt
    rw [Tab.get_set]
    split
    next hj => rw [hj]; exact hk.trans (h.seat _)
    next => exact h.seat j
  · exact h

theorem Sees.modSeat {f : Nat} {g : Seat → Seat} (h : Sees P r s) (hg : ∀ k, P (g k) = P k) : Sees P r (s.modSeat f g) :=
  h.setSeat (hg _)

theorem Sees.setField {f : Nat} {k : Field} (h : Sees P r s) : Sees P r (s.setField f k) := h.of_eq (by simp) (by simp)
theorem Sees.modLb {f : Nat} {g : Lb → Lb} (h : Sees P r s) : Sees P r (s.modLb f g) := h.setField
theorem Sees.modMc {f : Nat} {g : Mc → Mc} (h : Sees P r s) : Sees P r (s.modMc f g) := h.setField
theorem Sees.modLbs {f : Nat} {g : Lb → Lb} (h : Sees P r s) : Sees P r (s.modLbs f g) := h.eachOf _ fun _ _ ht => ht.modLb

end

/-! ### What a roll call has set -/

/-- The commands that wait for the bell of a seat, and what a roll call sets: the word, the verdict and its step; the committed step, the buffers,
the slots and the tray; the pending step and the aborts in a row. -/
abbrev Seat.judged (k : Seat) : List BellCmd × (BitVec 64 × Verdict × BitVec 64) ×
    (BitVec 64 × Bool × Bool × Tab Slot × Tab Slot × Tab (Option (BitVec 64))) × Option (Nat × BitVec 64) × BitVec 4 × Option (BitVec 64) :=
  (k.atBell, (k.cm.roll, k.cm.verdict, k.cm.verdictStep), (k.cm.committed, k.cm.buffer, k.cm.firstStep, k.cm.own, k.cm.copy, k.cm.tray),
    k.tt.pendingAttempt, k.tt.sel.aborts, k.tt.abortedStep)

/-- What a roll call has set of a seat stands. -/
abbrev Stands (s t : State) : Prop := Sees Seat.judged s t

theorem Stands.refl (s : State) : Stands s s := Sees.refl (fun _ => rfl) s

section
variable {r s t : State}

theorem Sees.ckNote {f : Nat} {code : BitVec 8} {rs : List Req} (h : Stands r s) : Stands r (s.ckNote f code rs) := by
  unfold State.ckNote State.ckAnswer
  exact h.calm ((Calm.modCk ((Calm.refl s).eachOf _ fun _ _ ht => ht.bump)).foldl _ fun _ _ ht => ht.respond)

theorem Calm.bigPass {code : BitVec 4} {entry part : Nat} {byHost : Bool} (h : Calm r s) : Calm r (s.bigPass code entry part byHost) := by
  unfold State.bigPass
  rcases partFields part with _ | ⟨f, _ | ⟨g, l⟩⟩
  · exact h.of_eq rfl rfl rfl rfl
  · exact h.modHm
  · exact h.of_eq rfl rfl rfl rfl

theorem Calm.ckGo {f : Nat} (h : Calm r s) : Calm r (s.ckGo f) := by
  unfold State.ckGo State.ckOpen State.issueScan State.issueSeal
  exact (h.modCk.openOp).ite h.modCk.openOp

theorem Sees.startCkpt {f : Nat} {step : BitVec 64} {trigger : BitVec 2} {rs : List Req} (h : Stands r s) :
    Stands r (s.startCkpt f step trigger rs) := by
  unfold State.startCkpt
  dsimp only
  refine (h.ckNote).ite (h.ckNote.ite (h.calm ?_))
  exact (Calm.refl s).bigPass.modCk.ite (Calm.refl s).bigPass.modCk.ckGo

theorem Sees.ckTrigger {f : Nat} {step : BitVec 64} {req : Bool} (h : Stands r s) : Stands r (s.ckTrigger f step req) := by
  unfold State.ckTrigger
  dsimp only
  have h1 := h.calm ((Calm.refl s).modCk (f := f) (g := fun k =>
    { k with lastCommit := some (s.seat f).tt.bell, arms := k.arms.filter (fun a => !a.1.hits (s.seat f).tt.bell step) }))
  exact h.ite (h1.startCkpt.ite (h1.startCkpt.ite h1))

theorem Calm.of_libRead {g a n : Nat} {o : Option (List Byte)} (h : s.libRead g a n = (t, o)) : Calm s t := by
  have hc := (Calm.refl s).libRead (f := g) (a := a) (n := n)
  rw [h] at hc
  exact hc

theorem Calm.ckAbandon {f : Nat} (h : Calm r s) : Calm r (s.ckAbandon f) := by
  unfold State.ckAbandon
  exact h.ckEnd.ite h

theorem Seat.queueBulk_judged (k : Seat) (f : Nat) (kind : BulkKind) (off : Nat) (data : List Byte) (base first : Nat) :
    (k.queueBulk f kind off data base first).judged = k.judged := by
  unfold Seat.queueBulk
  split <;> rfl

theorem Sees.tell {f : Nat} {x : XMsg} (h : Stands r s) : Stands r (s.tell f x) := by
  unfold State.tell
  exact h.modSeat fun k => List.foldlRecOn (motive := fun k' => Seat.judged k' = k.judged) _ _ rfl fun _ hk _ _ =>
    (Seat.queueBulk_judged _ _ _ _ _ _ _).trans hk

theorem Sees.forward {f : Nat} {kind : BulkKind} {base lo hi : Nat} (h : Stands r s) : Stands r (s.forward f kind base lo hi) := by
  unfold State.forward
  refine h.foldl _ fun t i ht => ?_
  rcases e : t.libRead f (base + 256 * (lo / 256 + i)) 256 with ⟨u, _ | bs⟩
  · exact ht.calm (Calm.of_libRead e)
  · exact (ht.calm (Calm.of_libRead e)).modSeat fun _ => Seat.queueBulk_judged _ _ _ _ _ _ _

theorem Sees.writeHeader {f i : Nat} (h : Stands r s) : Stands r (s.writeHeader f i) := by
  unfold State.writeHeader
  dsimp only
  cases ((s.seat f).cm.ownSlot i).hdr with
  | none => exact h
  | some x =>
    have h1 (bs : List Byte) := h.calm ((Calm.refl s).libWrite (f := s.seatIx f) (a := (s.seat f).satchelBase i) (bs := bs))
    exact (h1 _).ite ((h1 _).forward.ite (h1 _).forward.forward)

theorem Sees.startApply {f : Nat} {step : BitVec 64} {clip : Bool} (h : Stands r s) : Stands r (s.startApply f step clip) := by
  unfold State.startApply
  exact h.ite (Sees.modLbs (h.modSeat fun _ => rfl))

theorem Sees.sendCrcs {f : Nat} {clip : Bool} (h : Stands r s) : Stands r (s.sendCrcs f clip) := by
  unfold State.sendCrcs
  refine h.ite (h.foldl _ fun t u ht => ?_)
  rcases e : t.libRead (u.core / 500) ((t.seat f).committedBase + u.offset) (unitLen u) with ⟨v, _ | bs⟩
  · exact ht.calm (Calm.of_libRead e)
  · exact (ht.calm (Calm.of_libRead e)).ite (ht.calm (Calm.of_libRead e)).tell

theorem Calm.unitClip {base : Nat} {u : ShardUnit} (h : Calm r s) : Calm r (s.unitClip base u).1 := by
  unfold State.unitClip
  rcases e : s.libRead (u.core / 500) (base + u.offset + unitLen u - 64) 64 with ⟨v, _ | bs⟩
  · exact h.trans (Calm.of_libRead e)
  · exact h.trans (Calm.of_libRead e)

theorem Calm.clipOpen {f : Nat} {c : BitVec 32} (h : Calm r s) : Calm r (s.clipOpen f c).1 := by
  unfold State.clipOpen
  refine List.foldlRecOn (motive := fun p : State × Bool => Calm r p.1) _ _ h fun p hp u _ => ?_
  have hc : Calm r (p.1.unitClip (s.seat f).committedBase u).1 := hp.unitClip
  rcases e : p.1.unitClip (s.seat f).committedBase u with ⟨v, _ | x⟩
  · rw [e] at hc
    exact hc
  · rw [e] at hc
    exact hc

end

/-! ### A commit and an abort -/

/-- The seat at a commit. -/
def Seat.commit (k : Seat) (step : BitVec 64) : Seat :=
  let k := k.restartReads step
  { k with
    shardVer := some k.planVer,
    waits := k.waits.map (fun w => match w.step with | none => { w with step := some step } | some _ => w),
    cm := { (k.cm.moveSlots step .live .held) with
      committed := step, buffer := !k.cm.buffer, firstStep := false, summary := none, ownFixDue := [],
      fixLanded := [], failedXfer := [], resent := [], partnerStep := some step },
    tt := { k.tt with sel := { k.tt.sel with aborts := 0 }, abortedStep := none } }

theorem State.commitStep_stands (s : State) (f : Nat) (step : BitVec 64) (v : Verdict) :
    Stands ((s.ckAbandon f).modSeat f (fun k => k.commit step)) (s.commitStep f step v) := by
  unfold State.commitStep
  dsimp only
  refine Sees.ckTrigger ?_
  have hm (P : Prop) [Decidable P] {r t : State} (h : Stands r t) :
      Stands r (if P then eachOf (t.seatFields f) (fun g t => t.modHm g (fun h => { h with reqCkpt := false })) t else t) :=
    (h.calm ((Calm.refl t).eachOf _ fun _ _ ht => ht.modHm)).ite h
  refine hm _ ?_
  have h1 : Stands ((s.ckAbandon f).modSeat f (fun k => k.commit step))
      (eachOf (((s.ckAbandon f).modSeat f (fun k => k.commit step)).seatFields f) (fun g t => t.bump (cmBase g + 0x60))
        ((s.ckAbandon f).modSeat f (fun k => k.commit step))) := (Stands.refl _).calm ((Calm.refl _).eachOf _ fun _ _ ht => ht.bump)
  have h2 := (h1.startApply (f := f) (step := step) (clip := v.clip)).sendCrcs (f := f) (clip := v.clip)
  refine Sees.ite (Sees.modSeat (h2.calm (Calm.clipOpen (Calm.refl _))) fun _ => rfl) (h2.modSeat fun _ => rfl)

theorem State.abortStep_stands (s : State) (f : Nat) (step : BitVec 64) : Stands (s.modSeat f (fun k => k.abort step)) (s.abortStep f step) := by
  unfold State.abortStep
  exact (Stands.refl _).calm ((Calm.refl _).eachOf _ fun _ _ ht => ht.bump)

/-! ### The roll call -/

/-- The word of a pending step. -/
def Seat.rollWord (k : Seat) (p : Nat × BitVec 64) : BitVec 64 := (Tab.find k.tt.accs p.1).getD (emptyWord k.planVer ||| 1)

/-- The verdict on a pending step. -/
def Seat.judge (k : Seat) (p : Nat × BitVec 64) : Verdict :=
  judgeWord (k.rollWord p) (k.tt.abortedStep == some p.2) k.tt.sel.aborts.toNat k.tt.abortLimit.toNat

/-- What a roll call records. -/
def Seat.record (k : Seat) (p : Nat × BitVec 64) (w : BitVec 64) (v : Verdict) : Seat :=
  { k with tt := { k.tt with pendingAttempt := none, judgedAt := some k.tt.bell, accs := k.tt.accs.filter (fun e => decide (p.1 < e.1)),
                             inStep := k.tt.inStep && v.cont == 0 },
           cm := { k.cm with roll := w, verdict := v, verdictStep := p.2 } }

/-- What a word with MIRROR_OK frees of the step before. -/
def Seat.freeHeld (k : Seat) (step : BitVec 64) : Seat :=
  { k with cm := { (k.cm.moveSlots step .held .free) with
      tray := if Tab.get (fun _ => none) k.cm.tray (step.toNat % 2) = some step
        then Tab.set (fun _ => none) k.cm.tray (step.toNat % 2) none else k.cm.tray } }

/-- The state of a roll call before its verdict takes effect. -/
def State.recorded (s : State) (f : Nat) (p : Nat × BitVec 64) : State :=
  let t := s.modSeat f (fun k => k.record p ((s.seat f).rollWord p) ((s.seat f).judge p))
  if wordMirror ((s.seat f).rollWord p) then t.modSeat f (fun k => k.freeHeld (p.2 - 1)) else t

theorem State.rollCall_eq (s : State) (f : Nat) (p : Nat × BitVec 64) : s.rollCall f p =
    (if ((s.seat f).judge p).commit then (s.recorded f p).commitStep f p.2 ((s.seat f).judge p) else (s.recorded f p).abortStep f p.2,
      (s.seat f).judge p) := rfl

end Sys2Proof.Machine
end

section
/-! The commands accepted for a bell: what the bell's own parts leave of them. -/

namespace Sys2Proof.Machine

/-- The commands that wait for the bells of the seats stand, and so does the layout. -/
abbrev BellCmds (s t : State) : Prop := Sees Seat.atBell s t

theorem BellCmds.refl (s : State) : BellCmds s s := Sees.refl (fun _ => rfl) s

section
variable {r s t : State}

theorem BellCmds.stands (h : BellCmds r s) (c : Stands s t) : BellCmds r t := h.trans (c.view (·.1) fun _ => rfl)
theorem Sees.modTt {f : Nat} {g : Tt → Tt} (h : BellCmds r s) : BellCmds r (s.modTt f g) := h.modSeat fun _ => rfl
theorem Sees.modCm {f : Nat} {g : Cm → Cm} (h : BellCmds r s) : BellCmds r (s.modCm f g) := h.modSeat fun _ => rfl
theorem Sees.taint {f : Nat} (h : BellCmds r s) : BellCmds r (s.taint f) := h.calm (Calm.refl s).taint

theorem Sees.unlock {f : Nat} (h : BellCmds r s) : BellCmds r (s.unlock f) := by
  unfold State.unlock
  exact h.modTt.calm ((Calm.refl _).eachOf _ fun _ _ ht => ht.sendAbsent.ite ht)

theorem Sees.holdAbort {f : Nat} (h : BellCmds r s) : BellCmds r (s.holdAbort f) := by
  unfold State.holdAbort
  split
  · exact h.modSeat fun _ => rfl
  · exact h

theorem Sees.enterHold {f : Nat} (h : BellCmds r s) : BellCmds r (s.enterHold f) := by
  unfold State.enterHold State.holdNow
  exact h.holdAbort.modSeat fun _ => rfl

/-! ### Synchronisation, links and deliveries -/

theorem Sees.syncBell {f : Nat} {offset : BitVec 32} (h : BellCmds r s) : BellCmds r (s.syncBell f offset) := by
  unfold State.syncBell
  have h1 (g : Tt → Tt) : BellCmds r (s.modTt f g) := h.modTt
  exact h.ite ((h1 _).ite (Sees.ite ((h1 _).modTt.ite (h1 _)) (Sees.ite (h1 _).modTt (Sees.ite (h1 _)
    (Sees.ite (h1 _).modTt.modTt.taint (h1 _).modTt.unlock.enterHold)))))

theorem Calm.lockLinks {f : Nat} (h : Calm r s) : Calm r (s.lockLinks f) := by
  unfold State.lockLinks
  exact (h.eachOf _ fun _ _ ht => ht.modLink.endLinkPass.ite ht).ite h

theorem Calm.scoreWaves {l w : Nat} {ce : List (Nat × Nat)} (h : Calm r s) : Calm r (s.scoreWaves l w ce) := by
  unfold State.scoreWaves
  exact h.ite (h.foldl _ fun _ _ ht => ht.demerit)

theorem Calm.lostFlit {l : Nat} (h : Calm r s) : Calm r (s.lostFlit l) := h.bump.scoreWaves

theorem Calm.poolLost {l chan : Nat} (h : Calm r s) : Calm r (s.poolLost l chan) := h.foldl _ fun _ _ ht => ht.endOp (by decide)

theorem Calm.linkQuiz {l : Nat} (h : Calm r s) : Calm r (s.linkQuiz l) := by
  unfold State.linkQuiz
  exact h.ite (Calm.foldl _ (h.bump.ite h.bump.bump) fun _ _ ht => ht.demerit)

theorem Calm.dropSpent {l : Nat} {q : BitVec 64} (h : Calm r s) : Calm r (s.dropSpent l q) := by
  unfold State.dropSpent
  exact h.modLink.foldl _ fun _ _ ht => (ht.lostFlit.endOp (by decide)).ite ht.lostFlit

theorem Calm.deliver {f : Nat} (h : Calm r s) : Calm r (s.deliver f) := by
  unfold State.deliver
  refine h.eachOf _ fun l t ht => Calm.modLink (Calm.dropSpent (Calm.modHm (Calm.linkQuiz (ht.modLink.foldl _ fun t a ht => ?_))))
  cases a.pool with
  | none => exact ht.lostFlit.taint
  | some c => exact ht.lostFlit.poolLost

/-! ### Words and the final bell -/

theorem Sees.normEffect {f : Nat} {n : BitVec 64} (h : BellCmds r s) : BellCmds r (s.normEffect f n) := by
  unfold State.normEffect
  cases (s.seat f).plan with
  | none => exact h
  | some p =>
    have h1 := h.calm ((Calm.refl s).eachOf (coresOf (s.seatFields f)) (g := fun c t => t.libWrite (fieldOfCore c) (slateBase c + p.hdr.normTable + 8)
      (leBytes 8 n.toNat)) fun _ _ ht => ht.libWrite)
    dsimp only
    cases clipOf p.hdr.theta n with
    | some c => exact h1.modCm
    | none => exact h1.modCm.of_eq rfl rfl

theorem Sees.foldWords {f : Nat} (h : BellCmds r s) : BellCmds r (s.foldWords f) := by
  unfold State.foldWords
  dsimp only
  cases Tab.find (s.seat f).tt.periodOf _ with
  | none =>
    cases s.effective f _ with
    | none => exact h
    | some x => exact h.modTt
  | some a =>
    rcases s.effective f _ with _ | ⟨w, _ | n⟩
    · exact h.unlock.enterHold
    · exact h.modTt.unlock.enterHold.ite h.modTt
    · exact h.modTt.normEffect.ite h.modTt

theorem Sees.copyHistory {f : Nat} {n : BitVec 64} (h : BellCmds r s) : BellCmds r (s.copyHistory f n) := by
  unfold State.copyHistory
  dsimp only
  rcases hh : (s.seat f).cm.hist.find? (fun e => e.1 == n) with _ | ⟨m, _ | _⟩
  · rw [hh]
    exact h
  · rw [hh]
    dsimp only
    cases ((s.seat f).cm.ownSlot (n.toNat % 3)).hdr with
    | none => exact h
    | some x =>
      refine h.ite (h.modCm.ite ?_)
      rcases e : s.libRead (s.seatIx f) ((s.seat f).bufferBefore n + (s.seat f).regions.histOff) (s.seat f).regions.histLen with ⟨u, _ | bs⟩
      · exact h.calm (Calm.of_libRead e)
      · have hw (g a : Nat) : BellCmds r (u.libWrite g a bs) := h.calm (Calm.libWrite (Calm.of_libRead e))
        dsimp only
        split
        · exact hw _ _
        · exact BellCmds.stands (Sees.modCm (hw _ _)) (Stands.refl _).writeHeader
  · rw [hh]
    exact h

theorem Sees.finalBell {f : Nat} (h : BellCmds r s) : BellCmds r (s.finalBell f) := by
  unfold State.finalBell
  exact Sees.ite (h.modCm.copyHistory.modSeat fun _ => rfl) h

/-! ### The walk -/

theorem Sees.rollCall {f : Nat} {p : Nat × BitVec 64} (h : BellCmds r s) : BellCmds r (s.rollCall f p).1 := by
  rw [State.rollCall_eq]
  have h1 : BellCmds r (s.recorded f p) := by
    unfold State.recorded
    exact Sees.ite (Sees.modSeat (h.modSeat fun _ => rfl) fun _ => rfl) (h.modSeat fun _ => rfl)
  have h2 : BellCmds r (((s.recorded f p).ckAbandon f).modSeat f (fun k => k.commit p.2)) :=
    (h1.calm (Calm.refl _).ckAbandon).modSeat fun _ => rfl
  have h3 : BellCmds r ((s.recorded f p).modSeat f (fun k => k.abort p.2)) := h1.modSeat fun _ => rfl
  exact Sees.ite (BellCmds.stands h2 (State.commitStep_stands _ _ _ _)) (BellCmds.stands h3 (State.abortStep_stands _ _ _))

theorem Sees.noteBranch {f e k : Nat} {verdict indexed : Bool} {layer : BitVec 16} (h : BellCmds r s) :
    BellCmds r (s.noteBranch f e k verdict indexed layer) := h.modTt

theorem Sees.numLog {f : Nat} {e : NumEntry} (h : BellCmds r s) : BellCmds r (s.numLog f e) := h.modSeat fun _ => rfl

theorem Sees.branch {w : Walk} {f i : Nat} {blk : List Entry} (h : BellCmds r w.s) : BellCmds r (w.branch f blk i).1.s := by
  unfold Walk.branch
  simp only [apply_ite Prod.fst, apply_ite Walk.s]
  exact Sees.ite (Sees.ite h.noteBranch.numLog h.noteBranch) h.noteBranch

theorem Sees.verdict {w : Walk} {f i : Nat} {blk : List Entry} (h : BellCmds r w.s) : BellCmds r (w.verdict f blk i).1.s := by
  unfold Walk.verdict
  dsimp only
  cases (w.s.seat f).tt.pendingAttempt with
  | none => exact h.noteBranch
  | some p => exact Sees.ite (h.rollCall.noteBranch.modSeat fun _ => rfl) h.rollCall.noteBranch

theorem walk_bellCmds {f : Nat} {blk : List Entry} (n i : Nat) (w : Walk) (h : BellCmds r w.s) : BellCmds r (walk f blk n i w).1.s := by
  induction n generalizing i w with
  | zero => exact h
  | succ n ih =>
    unfold walk
    dsimp only
    split
    · exact h
    split
    · exact h
    · refine ih _ _ ?_
      dsimp only
      exact Sees.modTt h
    · refine ih _ _ ?_
      dsimp only
      refine Sees.modTt ?_
      split
      · exact h.verdict
      · exact h.branch
    · refine ih _ _ ?_
      dsimp only
      exact Sees.modTt h
    · exact h
    · exact ih _ _ h

theorem Sees.clearReady {g : Nat} {first : Bool} (h : BellCmds r s) : BellCmds r (s.clearReady g first) := by
  unfold State.clearReady
  dsimp only
  refine h.ite (Sees.modLb (h.foldl _ fun t x ht => ?_))
  rcases e : t.libRead g (slateBase (500 * g + x.core) + (s.field g).lb.ccb.toNat + 0x34) 1 with ⟨u, _ | bs⟩
  · exact ht.calm (Calm.of_libRead e)
  · exact ht.calm (Calm.of_libRead e).libWrite

theorem Sees.redirect {f : Nat} {entry : Option Nat} {first : Bool} (h : BellCmds r s) : BellCmds r (s.redirect f entry first) := by
  unfold State.redirect
  exact Sees.eachOf _ (h.calm (Calm.flushHeld ((Calm.refl s).eachOf _ fun _ _ ht => ht.cancelCore.modCore))) fun _ _ ht => ht.clearReady

theorem Sees.openFirst {f : Nat} {final : Bool} (h : BellCmds r s) : BellCmds r (s.openFirst f final) := by
  unfold State.openFirst
  dsimp only
  have h1 {g : Seat → Seat} (hg : ∀ k, (g k).atBell = k.atBell) : BellCmds r (s.modSeat f g) := h.modSeat hg
  exact Sees.ite (Sees.taint (Sees.modLbs (h1 fun _ => rfl))) (Sees.modLbs (h1 fun _ => rfl))

theorem Sees.openPeriod {f p left : Nat} {first : Bool} (h : BellCmds r s) : BellCmds r (s.openPeriod f p left first) := h.modTt.modLbs

theorem Calm.advance {c op : Nat} (h : Calm r s) : Calm r (s.advance c op) := by
  unfold State.advance State.advanceFrom State.recordFaultOpen State.recordFault
  dsimp only
  have h1 (k : Core) : Calm r ((s.setCore c k).modCore c (·.recordFault 8 (s.core c).pc.toNat op (s.setCore c k).freshWord.toNat)) :=
    h.setCore.modCore
  exact h.setCore.ite (((h1 _).taint.vlog.ite (h1 _).taint).of_eq rfl rfl rfl rfl)

theorem Calm.wakeCores {f : Nat} (h : Calm r s) : Calm r (s.wakeCores f) := by
  unfold State.wakeCores
  exact h.eachOf _ fun _ _ ht => ht.setCore.advance.ite ht

theorem Sees.cleanPage {p : Nat} (h : BellCmds r s) : BellCmds r (s.cleanPage p) := h.of_eq rfl rfl

theorem Sees.remapPage {f p : Nat} (h : BellCmds r s) : BellCmds r (s.remapPage f p) := by
  unfold State.remapPage
  refine h.cleanPage.modMc.ite ?_
  cases borrowPage ((s.cleanPage p).field f).lb ((s.cleanPage p).field f).mc (p % 32) with
  | none => exact h.cleanPage.modMc
  | some q => exact h.cleanPage.modMc.modLb

theorem Calm.requests {f : Nat} (h : Calm r s) : Calm r (s.requests f) := by
  unfold State.requests
  dsimp only
  cases (s.requestRows f).find? (fun r => decide (r.1 ≤ 2) && !(s.field f).hm.raisedOnce.contains r) <;>
    cases (s.requestRows f).find? (fun r => decide (3 ≤ r.1))
  case none.none => exact h.modHm
  case none.some => exact h.modHm
  case some.none => exact Calm.ite (h.modHm.modHm.of_eq rfl rfl rfl rfl) h.modHm
  case some.some => exact Calm.ite (h.modHm.modHm.of_eq rfl rfl rfl rfl) h.modHm

theorem Calm.quizPasses {g : Nat} (h : Calm r s) : Calm r (s.quizPasses g) := by
  unfold State.quizPasses
  refine h.eachOf _ fun i t ht => Calm.ite ?_ ht
  unfold State.takePass
  dsimp only
  cases t.blocker g _ with
  | some _ => exact ht
  | none =>
    cases (t.field g).hm.freePass with
    | none => exact ht
    | some _ => exact ht.modHm

theorem Sees.healthBell {f : Nat} {first verdict : Bool} (h : BellCmds r s) : BellCmds r (s.healthBell f first verdict) := by
  unfold State.healthBell
  refine h.eachOf _ fun g t ht => ?_
  have h1 (k : Hm → Hm) : BellCmds r (t.modHm g k) := ht.calm (Calm.refl t).modHm
  have h2 {t : State} (ht : BellCmds r t) : BellCmds r (((t.wantPages g).requests g).quizPasses g) :=
    ht.calm (Calm.modHm (Calm.refl t)).requests.quizPasses
  exact h2 (Sees.ite (Sees.eachOf _ (h1 _).modMc fun _ _ ht => ht.remapPage) (h1 _))

theorem Sees.endAttempt {f : Nat} {step : BitVec 64} {cont : BitVec 2} (h : BellCmds r s) : BellCmds r (s.endAttempt f step cont) :=
  Sees.calm (Sees.modSeat h (g := fun k =>
    { k.abort step with cm := { (k.abort step).cm with verdict := { abort := true, cont := cont, midstep := true }, verdictStep := step } }) fun _ => rfl)
    ((Calm.refl _).eachOf _ fun _ _ ht => ht.bump)

theorem Sees.afterWalk {f : Nat} {w : Walk} {p : Option Nat} {final : Bool} (h : BellCmds r w.s) : BellCmds r (State.afterWalk f w p final) := by
  unfold State.afterWalk
  cases p with
  | none => exact (h.redirect.ite h).enterHold.healthBell
  | some p =>
    dsimp only
    have h1 : BellCmds r (match w.mid with
        | some k => if efield ((w.s.block (w.s.seatIx f)).getD p 0) 66 66 == 1 && !final && (w.s.seat f).tt.inStep
          then w.s.endAttempt f (w.s.seat f).cm.live k else w.s
        | none => w.s) := by
      cases w.mid with
      | none => exact h
      | some k => exact h.endAttempt.ite h
    have h2 {t : State} (ht : BellCmds r t) (c c' : Prop) [Decidable c] [Decidable c'] (n : Nat) (b : Bool) : 
        BellCmds r (if c' then ((if c then t.openFirst f final else t).openPeriod f p n b).redirect f (some p) b
          else ((if c then t.openFirst f final else t).openPeriod f p n b).wakeCores f) :=
      Sees.ite (ht.openFirst.ite ht).openPeriod.redirect ((ht.openFirst.ite ht).openPeriod.calm (Calm.refl _).wakeCores)
    exact (h2 h1 _ _ _ _).healthBell

theorem Sees.walkBell {f : Nat} {final : Bool} (h : BellCmds r s) : BellCmds r (s.walkBell f final) := by
  unfold State.walkBell State.walkFrom
  exact h.ite (h.healthBell.ite (Sees.ite (h.openPeriod.calm (Calm.refl _).wakeCores).healthBell (Sees.afterWalk (walk_bellCmds _ _ _ h))))

/-! ### What was accepted for the bell -/

theorem Sees.givePeers {ps : List PeerSpec} {e : BitVec 32} (h : BellCmds r s) : BellCmds r (s.givePeers ps e) :=
  h.calm ((Calm.refl s).foldl _ fun _ _ ht => ht.modLink.enterIdent.ite ht.modLink)

theorem Sees.takeSeat {f : Nat} {m : BitVec 14} {e : BitVec 32} {ps : List PeerSpec} (h : BellCmds r s) : BellCmds r (s.takeSeat f m e ps) :=
  Sees.givePeers (Sees.modSeat h fun _ => rfl)

theorem Sees.leaveSeat {f : Nat} (h : BellCmds r s) : BellCmds r (s.leaveSeat f) := by
  unfold State.leaveSeat
  have h1 := h.calm ((Calm.refl s).ckInterrupt (f := f))
  refine Sees.calm (Sees.modSeat (h1.ite h1.enterHold) (g := fun k =>
    { k.takeId 0 0 0 with
      cm := { (k.takeId 0 0 0).cm with partner := 0, partnerOk := false, named := false, namedBy := none }, tt := { k.tt with counted := false } })
    fun _ => rfl) ((Calm.refl _).eachOf _ fun _ _ ht => ?_)
  exact Calm.modLink (ht.linkTo.ite (ht.enterIdent.ite ht))

theorem Calm.retrainLink {l : Nat} (h : Calm r s) : Calm r (s.retrainLink l) := h.ite h.linkTo.modLink

end

end Sys2Proof.Machine
end

section
/-! Latched counters, cores that overrun, and redirects. -/

namespace Sys2Proof.Machine

/-! ### Latched counters (R363) -/

theorem Tab.find_tail_of_sorted {α : Type} {j : Nat} {v : α} {r : Tab α} (h : Tab.sorted ((j, v) :: r) = true) : Tab.find r j = none := by
  replace h := ((Tab.sorted_cons _ _).1 h).1
  induction r with
  | nil => rfl
  | cons e r ih =>
    have he : j < e.1 := h e List.mem_cons_self
    obtain ⟨i, w⟩ := e
    rw [Tab.find, if_neg (by dsimp only at he; omega)]
    exact ih fun x hx => h x (List.mem_cons_of_mem _ hx)

/-- A list of writes, those of the entries that meet `p`, at the index of a listed entry and elsewhere. -/
theorem Tab.get_foldl_set {α : Type} [DecidableEq α] {d : Nat → α} (p : Nat × α → Prop) [DecidablePred p] (g : Nat × α → α) {l : Tab α}
    (hl : Tab.sorted l = true) (t : Tab α) (i : Nat) :
    Tab.get d (l.foldl (fun t e => if p e then Tab.set d t e.1 (g e) else t) t) i = match Tab.find l i with
      | some v => if p (i, v) then g (i, v) else Tab.get d t i
      | none => Tab.get d t i := by
  induction l generalizing t with
  | nil => rfl
  | cons e l ih =>
    obtain ⟨j, v⟩ := e
    rw [List.foldl_cons, ih ((Tab.sorted_cons _ _).1 hl).2]
    by_cases hj : j = i
    · subst hj
      rw [Tab.find_tail_of_sorted hl, Tab.find, if_pos rfl]
      dsimp only
      split
      · exact Tab.get_set_self _ _ _ _
      · rfl
    · have h1 : Tab.get d (if p (j, v) then Tab.set d t j (g (j, v)) else t) i = Tab.get d t i := by
        split
        · exact Tab.get_set_ne _ _ _ (Ne.symm hj)
        · rfl
      rw [Tab.find, if_neg hj, h1]

/-- The counters of a seat's fields, and those of no field, are latched. -/
theorem State.latch_get (s : State) (f a : Nat) (hc : Tab.wf (fun _ => ({} : Counter)) s.counters = true) :
    Tab.get (fun _ => ({} : Counter)) (s.latch f).latched a =
      if counterOwner a = 4 ∨ counterOwner a ∈ s.seatFields f then s.counter a else Tab.get (fun _ => ({} : Counter)) s.latched a := by
  let mine (i : Nat) : Bool := counterOwner i == 4 || (s.seatFields f).contains (counterOwner i)
  have hm : mine a = true ↔ counterOwner a = 4 ∨ counterOwner a ∈ s.seatFields f := by simp [mine]
  have hs : Tab.sorted (s.counters.filter fun e => mine e.1) = true := Tab.sorted_filter _ ((Tab.wf_iff _ _).1 hc).1
  have h := Tab.get_foldl_set (d := fun _ => ({} : Counter)) (fun _ => True) (fun e => e.2) hs (s.latched.filter fun e => !mine e.1) a
  simp only [if_true] at h
  refine (show Tab.get _ (s.latch f).latched a = _ from h).trans ?_
  have hl : Tab.get (fun _ => ({} : Counter)) (s.latched.filter fun e => !mine e.1) a =
      ((if (!mine a) = true then Tab.find s.latched a else none).getD {}) := by
    rw [Tab.get, Tab.find_filter s.latched fun i => !mine i]
  rw [Tab.find_filter s.counters mine, hl]
  by_cases ha : mine a = true
  · rw [if_pos ha, if_pos (hm.1 ha), if_neg (by rw [ha]; decide)]
    unfold State.counter Tab.get
    cases Tab.find s.counters a <;> rfl
  · rw [if_neg ha, if_neg (mt hm.2 ha), if_pos (by simpa using ha)]
    rfl

/-! ### Cores that overrun (R111, R383) -/

/-- A core that reads other than the reset state is listed. -/
theorem State.mem_listedCores {s : State} {c : Nat} {fs : List Nat} (hf : fieldOfCore c ∈ fs) (h : s.core c ≠ Core.reset c) : c ∈ s.listedCores fs := by
  refine List.mem_filter.2 ⟨?_, by simpa using hf⟩
  by_contra hc
  refine h ?_
  unfold State.core Tab.get
  have hn : Tab.find s.cores c = none := by
    generalize s.cores = l at hc
    induction l with
    | nil => rfl
    | cons e l ih =>
      obtain ⟨j, v⟩ := e
      rw [List.map_cons, List.mem_cons, not_or] at hc
      rw [Tab.find, if_neg fun h => hc.1 h.symm]
      exact ih hc.2
  rw [hn]
  rfl

theorem State.mem_listedCores_field {s : State} {c : Nat} {fs : List Nat} (h : c ∈ s.listedCores fs) : fieldOfCore c ∈ fs := by
  simpa using (List.mem_filter.1 h).2

/-- The fields of a partition in use have one seat. -/
theorem State.seatIx_of_live {s : State} {f g : Nat} (h : s.partLive (s.partOf f) = true) (hg : g ∈ s.seatFields f) : s.seatIx g = s.seatIx f := by
  unfold State.partLive at h
  rw [Bool.and_eq_true] at h
  have hp : s.partOf g = s.partOf f := beq_iff_eq.1 (List.all_eq_true.1 h.2 g hg)
  unfold State.seatIx
  rw [hp]
  obtain ⟨x, l, e⟩ := List.exists_cons_of_ne_nil (List.ne_nil_of_mem (show g ∈ partFields (s.partOf f) from hg))
  rw [e]
  rfl

/-- A core whose field has a seat's index records LATE there. -/
theorem State.late_cur {s : State} {f g : Nat} (hg : g < 4) (hx : s.seatIx g = s.seatIx f) :
    ((s.late g).seat f).tt.cur = (s.seat f).tt.cur ||| 2 ∧ Calm s (s.late g) := by
  have hc : Calm s (s.late g) := by
    unfold State.late
    dsimp only
    exact (Calm.refl s).setStatus.ite (Calm.bump (Calm.setField (Calm.refl s).setStatus (by rfl)))
  refine ⟨?_, hc⟩
  have he : (s.late g).seat f = (s.setStatus g 2#9).seat f := by
    unfold State.late
    dsimp only
    split
    · rfl
    · exact State.seat_congr f (by simp) (by simp)
  have hsf : s.seat g = s.seat f := by
    unfold State.seat
    rw [hx]
  rw [he, State.setStatus, State.modTt, State.seat_modSeat hg, if_pos hx.symm, hsf]
  rfl

theorem or_two_bit (x : BitVec 9) : (x ||| 2).getLsbD 1 = true := by
  revert x
  decide

/-- The cores of a seat that overrun its bell. -/
def State.overruns (s : State) (f : Nat) : List Nat :=
  (s.listedCores (s.seatFields f)).filter (fun c => (s.core c).mode == .running || (s.core c).mode == .faulted)

theorem State.mem_overruns {s : State} {f c : Nat} : c ∈ s.overruns f ↔
    fieldOfCore c ∈ s.seatFields f ∧ ((s.core c).mode = .running ∨ (s.core c).mode = .faulted) := by
  unfold State.overruns
  rw [List.mem_filter, Bool.or_eq_true, beq_iff_eq, beq_iff_eq]
  refine ⟨fun h => ⟨State.mem_listedCores_field h.1, h.2⟩, fun h => ⟨State.mem_listedCores h.1 fun e => ?_, h.2⟩⟩
  rw [e] at h
  exact h.2.elim (fun h => by cases h) (fun h => by cases h)

/-- Cores of a seat that record LATE leave it, but for that bit, as it is. -/
theorem State.foldl_late {s : State} {f : Nat} (hl : s.partLive (s.partOf f) = true) (l : List Nat) (hm : ∀ c ∈ l, fieldOfCore c ∈ s.seatFields f) :
    Calm s (l.foldl (fun t c => t.late (fieldOfCore c)) s) ∧
    (l ≠ [] → ((l.foldl (fun t c => t.late (fieldOfCore c)) s).seat f).tt.cur.getLsbD 1 = true) := by
  induction l using List.reverseRecOn with
  | nil => exact ⟨Calm.refl s, fun h => absurd rfl h⟩
  | append_singleton l c ih =>
    obtain ⟨h1, -⟩ := ih fun d hd => hm d (List.mem_append_left _ hd)
    have hc := hm c (List.mem_append_right _ List.mem_cons_self)
    obtain ⟨h2, h3⟩ := State.late_cur (f := f) (partFields_lt hc)
      (show (l.foldl (fun t c => t.late (fieldOfCore c)) s).seatIx (fieldOfCore c) = _ by rw [h1.seatIx, h1.seatIx, State.seatIx_of_live hl hc])
    rw [List.foldl_append]
    refine ⟨h1.trans h3, fun _ => ?_⟩
    rw [List.foldl_cons, List.foldl_nil, h2]
    exact or_two_bit _

/-- The close of a period whose cores have overrun, and of one whose cores have not. -/
theorem State.closeCores_cases {s : State} {f : Nat} (hf : f < 4) (hl : s.partLive (s.partOf f) = true) (hp : (s.seat f).plan.isSome = true)
    (hh : (s.seat f).tt.hold = false) :
    (s.overruns f ≠ [] → ((s.closeCores f).seat f).tt.cur.getLsbD 1 = true ∧ ((s.closeCores f).seat f).sealedBell = (s.seat f).sealedBell) ∧
    (s.overruns f = [] → (s.seat f).sealMissed = false →
      ((s.closeCores f).seat f).sealedBell = (s.seat f).tt.bell + 1 ∧ ((s.closeCores f).seat f).tt.cur = (s.seat f).tt.cur) := by
  have e : s.closeCores f = if (s.seat f).sealMissed || !(s.overruns f).isEmpty then (s.overruns f).foldl (fun t c => t.late (fieldOfCore c)) s
      else (((s.overruns f).foldl (fun t c => t.late (fieldOfCore c)) s).bump
        (prBase (((s.overruns f).foldl (fun t c => t.late (fieldOfCore c)) s).seatIx f) + 0x58)).modSeat f
          (fun k => { k with sealedBell := k.tt.bell + 1 }) :=
    if_neg (by rw [hh, Option.isNone_eq_false_iff.2 hp]; decide)
  refine ⟨fun ho => ?_, fun ho hs => ?_⟩
  · obtain ⟨hc, h1⟩ := State.foldl_late hl (s.overruns f) fun c h => (State.mem_overruns.1 h).1
    rw [e, if_pos (by rw [List.isEmpty_eq_false_iff.2 ho]; exact Bool.or_true _)]
    exact ⟨h1 ho, (congrArg (fun k : Seat => k.sealedBell) (hc.seat_calm f) :)⟩
  · have hb (a : Nat) : (s.bump a).seat f = s.seat f := State.seat_congr f (by simp) (by simp)
    rw [e, ho, hs, if_neg (by decide), List.foldl_nil, State.seat_modSeat_self _ _ hf, hb]
    exact ⟨rfl, rfl⟩

/-! ### Redirects (R88) -/

theorem State.storeBytes_cores (s : State) (a : Nat) (bs : List Byte) : (s.storeBytes a bs).cores = s.cores := by
  unfold State.storeBytes
  dsimp only
  split <;> rfl

theorem State.libWrite_cores (s : State) (f a : Nat) (bs : List Byte) : (s.libWrite f a bs).cores = s.cores := by
  unfold State.libWrite
  split
  · rfl
  split
  · rfl
  unfold State.libLand
  obtain ⟨e, he⟩ | he := s.writeRange_cases (s.seatFields f) a bs <;> rw [he]
  · exact (Noted.libErr s f e).cores
  · exact (State.storeBytes_cores _ _ _).trans (s.noteCorrected_noted (edges a bs.length)).1.cores

theorem State.foldl_cores {α : Type} {g : State → α → State} (l : List α) (s : State) (h : ∀ t x, (g t x).cores = t.cores) :
    (l.foldl g s).cores = s.cores :=
  List.foldlRecOn (motive := fun t => State.cores t = s.cores) l g rfl fun t ht x _ => (h t x).trans ht

theorem State.flushHeld_cores (s : State) : s.flushHeld.cores = s.cores := State.foldl_cores _ _ fun _ _ => State.libWrite_cores _ _ _ _

/-- The cores of `t` are those of `s`. -/
def SameCores (s t : State) : Prop := t.cores = s.cores

theorem SameCores.of_libRead {s t : State} {g a n : Nat} {o : Option (List Byte)} (h : s.libRead g a n = (t, o)) : SameCores s t := by
  have hn := (State.libRead_noted s g a n).1
  rw [h] at hn
  exact hn.cores

theorem SameCores.libWrite {s t : State} (h : SameCores s t) (g a : Nat) (bs : List Byte) : SameCores s (t.libWrite g a bs) :=
  (State.libWrite_cores _ _ _ _).trans h

theorem State.clearReady_cores (s : State) (g : Nat) (first : Bool) : SameCores s (s.clearReady g first) := by
  unfold State.clearReady
  dsimp only
  split
  · rfl
  refine (State.modLb_cores _ _ _).trans (State.foldl_cores _ _ fun t x => ?_)
  refine (show SameCores t _ from ?_)
  rcases e : t.libRead g (slateBase (500 * g + x.core) + (s.field g).lb.ccb.toNat + 0x34) 1 with ⟨u, _ | bs⟩
  · exact SameCores.of_libRead e
  · exact (SameCores.of_libRead e).libWrite _ _ _

theorem State.spoil_cores (s : State) (c : Nat) (l : List (Nat × Nat)) : (s.spoil c l).cores = s.cores := by
  refine State.foldl_cores _ _ fun t x => ?_
  split
  · rfl
  · exact (State.burn_cores _ _).trans (State.storeBytes_cores _ _ _)

theorem State.endReads_cores (s : State) (o : DmaOp) : (s.endReads o).cores = s.cores := State.foldl_cores _ _ fun _ _ => State.modMc_cores _ _ _

/-- An ABFT event of a core changes no other core, and of its own only the log of the event. -/
theorem State.abftEvent_cores (s : State) (c : Nat) (x : Mxst) : (s.abftEvent c x).cores = s.cores ∨
    (s.abftEvent c x).cores = (s.modCore c (fun k => { k with abftLast := abftLastWord x x.outcome })).cores := by
  have hd (t : State) (f kind i w : Nat) : (t.demerit f kind i w).cores = t.cores := (Noted.demerit t f kind i w).cores
  have hi (t u : State) (p : Prop) [Decidable p] (h : u.cores = t.cores) : (if p then u else t).cores = t.cores := by
    split
    · exact h
    · rfl
  unfold State.abftEvent
  dsimp only
  by_cases h0 : x.outcome = 0
  · rw [if_pos h0]
    exact .inl rfl
  · rw [if_neg h0]
    refine .inr ((hi _ _ _ ?_).trans ?_)
    · unfold State.setStatus
      rw [State.modTt_cores]
      exact hi _ _ _ (hd _ _ _ _ _)
    · rw [hd, hi _ _ _ (State.bump_cores _ _), State.bump_cores]

/-- What a service that ends leaves of the cores. -/
theorem State.cutService_core (s : State) {c : Nat} (hc : c < 2000) : (∀ d, d ≠ c → (s.cutService c).core d = s.core d) ∧
    ((s.cutService c).core c).codeLen = (s.core c).codeLen ∧ ((s.cutService c).core c).entries = (s.core c).entries := by
  have h : (s.cutService c).cores = s.cores ∨ ∃ w, (s.cutService c).cores = (s.modCore c (fun k => { k with abftLast := w })).cores := by
    unfold State.cutService
    cases (s.core c).mxst with
    | none => exact .inl rfl
    | some x =>
      dsimp only
      split
      · exact (State.abftEvent_cores _ _ _).imp_right fun h => ⟨_, h⟩
      · exact .inl rfl
  rcases h with h | ⟨w, h⟩
  · exact ⟨fun d _ => State.core_congr d h, by rw [State.core_congr c h], by rw [State.core_congr c h]⟩
  · refine ⟨fun d hd => (State.core_congr d h).trans (State.core_modCore_ne _ _ hd), ?_, ?_⟩ <;>
      rw [State.core_congr c h, State.core_modCore_self _ _ hc]

/-- A cancelled core is cleared, and no other core is touched. -/
theorem State.cancelCore_core (s : State) {c : Nat} (hc : c < 2000) : (∀ d, d ≠ c → (s.cancelCore c).core d = s.core d) ∧
    ∃ k : Core, k.codeLen = (s.core c).codeLen ∧ k.entries = (s.core c).entries ∧ (s.cancelCore c).core c = k.cleared c := by
  obtain ⟨h1, h2, h3⟩ := s.cutService_core hc
  refine ⟨fun d hd => ?_, (s.cutService c).core c, h2, h3, State.core_setCore_self _ _ hc⟩
  unfold State.cancelCore
  dsimp only
  rw [State.core_setCore_ne _ _ hd]
  exact (State.core_congr d ((State.foldl_cores _ _ fun _ _ => State.endReads_cores _ _).trans (State.spoil_cores _ _ _))).trans (h1 d hd)

/-- The record of the entry that opens. -/
def Core.recordOf (k : Core) (entry : Option Nat) : Option (BitVec 64) := entry.bind (fun e => k.entries.find? (fun r => r.toNat % 131072 == e))

/-- A core that a redirect has reached, with the record of the entry that opens. -/
structure Core.Entered (k : Core) (live sel : BitVec 64) (r : Option (BitVec 64)) : Prop where
  live : k.sreg 3 = live
  sel : k.sreg 4 = sel
  queues : k.dmaQ = [] ∧ k.arrQ = [] ∧ k.vecQ = [] ∧ k.mxst = none
  rest : k.stall = none ∧ k.seals = 0 ∧ k.fault = 0
  runs : ∀ x, r = some x → k.mode = .running ∧ k.pc = x.extractLsb' 17 14 ∧ k.sreg 1 = (x.extractLsb' 32 16).setWidth 64
  rests : r = none → k.mode = .resting

theorem Core.sreg_setS_self (k : Core) {r : BitVec 5} (v : BitVec 64) (hr : r ≠ 0) : (k.setS r v).sreg r = v := by
  rw [Core.sreg, if_neg hr, Core.setS, if_neg hr]
  exact Tab.get_set_self _ _ _ _

theorem Core.sreg_setS_ne (k : Core) {r q : BitVec 5} (v : BitVec 64) (h : q ≠ r) : (k.setS r v).sreg q = k.sreg q := by
  unfold Core.setS
  split
  · rfl
  · unfold Core.sreg
    rw [Tab.get_set_ne _ _ _ fun e => h (BitVec.eq_of_toNat_eq e)]

/-- A cleared core with a lesson enters. -/
theorem Core.enter_cleared {k : Core} (c : Nat) (hc : k.codeLen ≠ 0) (l : List (BitVec 16)) (live sel : BitVec 64) (entry : Option Nat) :
    Core.Entered (Core.enter { k.cleared c with logged := l } live sel entry) live sel (k.recordOf entry) ∧
    (Core.enter { k.cleared c with logged := l } live sel entry).codeLen = k.codeLen ∧
    (Core.enter { k.cleared c with logged := l } live sel entry).entries = k.entries := by
  let k2 := (Core.setS { k.cleared c with logged := l } 3 live).setS 4 sel
  have hm : k2.mode = .resting := if_neg hc
  have e : Core.enter { k.cleared c with logged := l } live sel entry = match k.recordOf entry with
      | none => k2
      | some r => ({ k2 with mode := .running, pc := r.extractLsb' 17 14 } : Core).setS 1 ((r.extractLsb' 32 16).setWidth 64) := by
    unfold Core.enter
    rw [if_neg (by rw [show ({ k.cleared c with logged := l } : Core).mode = .resting from if_neg hc]; decide)]
    rfl
  have h3 : k2.sreg 3 = live := (Core.sreg_setS_ne _ _ (by decide)).trans (Core.sreg_setS_self _ _ (by decide))
  have h4 : k2.sreg 4 = sel := Core.sreg_setS_self _ _ (by decide)
  rw [e]
  cases k.recordOf entry with
  | none => exact ⟨⟨h3, h4, ⟨rfl, rfl, rfl, rfl⟩, ⟨rfl, rfl, rfl⟩, fun _ h => (by cases h), fun _ => hm⟩, rfl, rfl⟩
  | some r =>
    refine ⟨⟨(Core.sreg_setS_ne _ _ (by decide)).trans h3, (Core.sreg_setS_ne _ _ (by decide)).trans h4, ⟨rfl, rfl, rfl, rfl⟩, ⟨rfl, rfl, rfl⟩,
      fun x hx => ?_, fun h => by cases h⟩, rfl, rfl⟩
    cases hx
    exact ⟨rfl, rfl, Core.sreg_setS_self _ _ (by decide)⟩

/-- A redirect reaches every core of its seat that has a lesson. -/
theorem State.redirect_enters (s : State) {f c : Nat} (entry : Option Nat) (first : Bool) (hf : fieldOfCore c ∈ s.seatFields f)
    (hc : (s.core c).codeLen ≠ 0) : Core.Entered ((s.redirect f entry first).core c) (s.seat f).cm.live (BitVec.ofNat 64 (s.seat f).tt.sel.word)
      ((s.core c).recordOf entry) := by
  have hlt (d : Nat) (hd : d ∈ s.listedCores (s.seatFields f)) : d < 2000 := by
    have h4 := partFields_lt (State.mem_listedCores_field hd)
    unfold fieldOfCore at h4
    omega
  let live := (s.seat f).cm.live
  let sel := BitVec.ofNat 64 (s.seat f).tt.sel.word
  let enters (d : Nat) (t : State) : State := (t.cancelCore d).modCore d (fun k =>
    ({ k with logged := if first then [] else k.logged } : Core).enter live sel entry)
  let lesson (t : State) : Prop := (t.core c).codeLen = (s.core c).codeLen ∧ (t.core c).entries = (s.core c).entries
  have hself (t : State) (h : lesson t) (hm : c < 2000) : Core.Entered ((enters c t).core c) live sel ((s.core c).recordOf entry) ∧ lesson (enters c t) := by
    obtain ⟨h1, h2⟩ := h
    obtain ⟨-, k, k1, k2, k3⟩ := t.cancelCore_core hm
    obtain ⟨e1, e2, e3⟩ := Core.enter_cleared c (k := k) (by rw [k1, h1]; exact hc) (if first then [] else (k.cleared c).logged) live sel entry
    have ec : (enters c t).core c = Core.enter { k.cleared c with logged := if first then [] else (k.cleared c).logged } live sel entry := by
      unfold enters
      rw [State.core_modCore_self _ _ hm, k3]
    have er : k.recordOf entry = (s.core c).recordOf entry := by rw [Core.recordOf, k2, h2]; rfl
    unfold lesson
    rw [ec]
    exact ⟨er ▸ e1, e2.trans (k1.trans h1), e3.trans (k2.trans h2)⟩
  have hne (t : State) (d : Nat) (hd : d < 2000) (h : c ≠ d) : (enters d t).core c = t.core c :=
    (State.core_modCore_ne _ _ h).trans ((t.cancelCore_core hd).1 c h)
  obtain ⟨-, h2, -⟩ := eachOf_gives (I := lesson) (Q := fun d t => d = c → Core.Entered (t.core c) live sel ((s.core c).recordOf entry)) (g := enters)
    (s.listedCores (s.seatFields f))
    (fun d hd t ht => by
      by_cases h : c = d
      · subst h; exact (hself t ht (hlt _ hd)).2
      · unfold lesson; rw [hne t d (hlt d hd) h]; exact ht)
    (fun d hd t ht h => by subst h; exact (hself t ht (hlt _ hd)).1)
    (fun e d hd t ht hq h => by
      by_cases h' : c = d
      · subst h'; exact (hself t ht (hlt _ hd)).1
      · rw [hne t d (hlt d hd) h']; exact hq h)
    (s := s) ⟨rfl, rfl⟩
  have hfin := h2 c (State.mem_listedCores hf fun h => hc (by rw [h]; rfl)) rfl
  have hcore : (s.redirect f entry first).cores = (eachOf (s.listedCores (s.seatFields f)) enters s).cores :=
    (State.foldl_cores _ _ fun _ _ => State.clearReady_cores _ _ _).trans (State.flushHeld_cores _)
  rw [State.core_congr c hcore]
  exact hfin

end Sys2Proof.Machine
end

section
/-! The roll call, the bell's clock, and O17. -/

namespace Sys2Proof.Machine

/-! ### Slots that a verdict moves (R256) -/

/-- A slot of a step in one state, moved to another. -/
def Slot.moved (step : BitVec 64) (was next : SlotState) (x : Slot) : Slot :=
  if x.holds step ∧ x.st = was then (if next = .free then {} else { x with st := next }) else x

/-- The slots of a table, moved. -/
def movedSlots (step : BitVec 64) (was next : SlotState) (t : Tab Slot) : Tab Slot :=
  t.foldl (fun t e => if e.2.holds step ∧ e.2.st = was then Tab.set (fun _ => {}) t e.1 (if next = .free then {} else { e.2 with st := next }) else t) t

theorem movedSlots_wf (step : BitVec 64) (was next : SlotState) {t : Tab Slot} (h : Tab.wf (fun _ => ({} : Slot)) t = true) :
    Tab.wf (fun _ => ({} : Slot)) (movedSlots step was next t) = true := by
  unfold movedSlots
  refine List.foldlRecOn (motive := fun u => Tab.wf (fun _ => ({} : Slot)) u = true) t _ h fun u hu e _ => ?_
  split
  · exact Tab.wf_set _ _ _ _ hu
  · exact hu

theorem movedSlots_get (step : BitVec 64) {was next : SlotState} (hw : was ≠ .free) {t : Tab Slot} (h : Tab.wf (fun _ => ({} : Slot)) t = true) (i : Nat) :
    Tab.get (fun _ => ({} : Slot)) (movedSlots step was next t) i = (Tab.get (fun _ => ({} : Slot)) t i).moved step was next := by
  have e := Tab.get_foldl_set (d := fun _ => ({} : Slot)) (fun e => e.2.holds step = true ∧ e.2.st = was)
    (fun e => if next = .free then {} else { e.2 with st := next }) ((Tab.wf_iff _ _).1 h).1 t i
  refine (show Tab.get _ (movedSlots step was next t) i = _ from e).trans ?_
  unfold Tab.get Slot.moved
  cases Tab.find t i with
  | none => exact (if_neg fun hx => hw hx.2.symm).symm
  | some v => rfl

theorem Slot.moved_hits {x : Slot} {step : BitVec 64} {was next : SlotState} (h1 : x.holds step = true) (h2 : x.st = was) :
    (x.moved step was next).st = next := by
  rw [Slot.moved, if_pos ⟨h1, h2⟩]
  split
  next h => exact h.symm
  next => rfl

theorem Slot.moved_misses {x : Slot} (step : BitVec 64) {was : SlotState} (next : SlotState) (h : x.st ≠ was) : x.moved step was next = x :=
  if_neg fun hx => h hx.2

/-! ### The roll call (R75, R256) -/

theorem Seat.commit_calm (k : Seat) (step : BitVec 64) : (k.calm.commit step).judged = (k.commit step).judged := rfl

section
variable {s : State} {f : Nat} (hf : f < 4) (p : Nat × BitVec 64)
include hf

theorem State.recorded_seat : (s.recorded f p).seat f = if wordMirror ((s.seat f).rollWord p)
    then ((s.seat f).record p ((s.seat f).rollWord p) ((s.seat f).judge p)).freeHeld (p.2 - 1)
    else (s.seat f).record p ((s.seat f).rollWord p) ((s.seat f).judge p) := by
  unfold State.recorded
  dsimp only
  split
  · rw [State.seat_modSeat_self _ _ hf, State.seat_modSeat_self _ _ hf]
  · rw [State.seat_modSeat_self _ _ hf]

theorem State.rollCall_commits (hv : ((s.seat f).judge p).commit = true) :
    ((s.rollCall f p).1.seat f).judged = (((s.recorded f p).seat f).commit p.2).judged := by
  have hs := (State.commitStep_stands (s.recorded f p) f p.2 ((s.seat f).judge p)).at f
  rw [State.seat_modSeat_self _ _ hf] at hs
  rw [State.rollCall_eq, if_pos hv, hs]
  have hc := (Calm.ckAbandon (f := f) (Calm.refl (s.recorded f p))).seat_calm f
  rw [← Seat.commit_calm, hc, Seat.commit_calm]

theorem State.rollCall_aborts (hv : ((s.seat f).judge p).commit = false) :
    ((s.rollCall f p).1.seat f).judged = (((s.recorded f p).seat f).abort p.2).judged := by
  have hs := (State.abortStep_stands (s.recorded f p) f p.2).at f
  rw [State.seat_modSeat_self _ _ hf] at hs
  rw [State.rollCall_eq, if_neg (by rw [hv]; decide), hs]

end

/-- Seats that a roll call has set alike. -/
theorem Seat.judged_eq {k k' : Seat} (h : k.judged = k'.judged) :
    (k.cm.roll = k'.cm.roll ∧ k.cm.verdict = k'.cm.verdict ∧ k.cm.verdictStep = k'.cm.verdictStep) ∧
    (k.cm.committed = k'.cm.committed ∧ k.cm.buffer = k'.cm.buffer ∧ k.cm.firstStep = k'.cm.firstStep) ∧
    (k.cm.own = k'.cm.own ∧ k.cm.copy = k'.cm.copy ∧ k.cm.tray = k'.cm.tray) ∧
    k.tt.pendingAttempt = k'.tt.pendingAttempt ∧ k.tt.sel.aborts = k'.tt.sel.aborts ∧ k.tt.abortedStep = k'.tt.abortedStep := by
  simp only [Prod.mk.injEq] at h
  obtain ⟨-, h1, ⟨h2, h3, h4, h5, h6, h7⟩, h8, h9, h10⟩ := h
  exact ⟨h1, ⟨h2, h3, h4⟩, ⟨h5, h6, h7⟩, h8, h9, h10⟩

/-- The step before a roll call has its HELD slots freed by a word with MIRROR_OK. -/
def Slot.unheld (w : BitVec 64) (step : BitVec 64) (x : Slot) : Slot := if wordMirror w then x.moved (step - 1) .held .free else x

/-- A live slot stays with its step; a held one of the step before is freed by MIRROR_OK. -/
theorem Slot.unheld_live {x : Slot} (w step : BitVec 64) (h : x.st = .live) : x.unheld w step = x := by
  unfold Slot.unheld
  split
  · exact Slot.moved_misses _ _ (by rw [h]; decide)
  · rfl

theorem Slot.unheld_held {x : Slot} {w step : BitVec 64} (hw : wordMirror w = true) (h1 : x.holds (step - 1) = true) (h2 : x.st = .held) :
    (x.unheld w step).st = .free := by
  rw [Slot.unheld, if_pos hw]
  exact Slot.moved_hits h1 h2

section
variable {s : State} {f : Nat} (hf : f < 4) (p : Nat × BitVec 64) (ho : Tab.wf (fun _ => ({} : Slot)) (s.seat f).cm.own = true)
  (hc : Tab.wf (fun _ => ({} : Slot)) (s.seat f).cm.copy = true)
include hf ho hc

/-- The slots before the verdict takes effect. -/
theorem State.recorded_slots : (Tab.wf (fun _ => ({} : Slot)) ((s.recorded f p).seat f).cm.own = true ∧
      Tab.wf (fun _ => ({} : Slot)) ((s.recorded f p).seat f).cm.copy = true) ∧
    ∀ i, ((s.recorded f p).seat f).cm.ownSlot i = ((s.seat f).cm.ownSlot i).unheld ((s.seat f).rollWord p) p.2 ∧
      ((s.recorded f p).seat f).cm.copySlot i = ((s.seat f).cm.copySlot i).unheld ((s.seat f).rollWord p) p.2 := by
  rw [State.recorded_seat hf]
  by_cases hw : wordMirror ((s.seat f).rollWord p) = true
  · rw [if_pos hw]
    refine ⟨⟨movedSlots_wf _ _ _ ho, movedSlots_wf _ _ _ hc⟩, fun i => ?_⟩
    unfold Slot.unheld
    rw [if_pos hw, if_pos hw]
    exact ⟨movedSlots_get _ (by decide) ho i, movedSlots_get _ (by decide) hc i⟩
  · rw [if_neg hw]
    refine ⟨⟨ho, hc⟩, fun i => ?_⟩
    unfold Slot.unheld
    rw [if_neg hw, if_neg hw]
    exact ⟨rfl, rfl⟩

/-- The slots after a commit. -/
theorem State.rollCall_commits_slots (hv : ((s.seat f).judge p).commit = true) (i : Nat) :
    ((s.rollCall f p).1.seat f).cm.ownSlot i = (((s.seat f).cm.ownSlot i).unheld ((s.seat f).rollWord p) p.2).moved p.2 .live .held ∧
    ((s.rollCall f p).1.seat f).cm.copySlot i = (((s.seat f).cm.copySlot i).unheld ((s.seat f).rollWord p) p.2).moved p.2 .live .held := by
  obtain ⟨-, -, ⟨h1, h2, -⟩, -⟩ := Seat.judged_eq (State.rollCall_commits hf p hv)
  obtain ⟨⟨w1, w2⟩, hs⟩ := State.recorded_slots hf p ho hc
  unfold Cm.ownSlot Cm.copySlot at hs ⊢
  rw [h1, h2, ← (hs i).1, ← (hs i).2]
  exact ⟨movedSlots_get _ (by decide) w1 i, movedSlots_get _ (by decide) w2 i⟩

/-- The slots after an abort. -/
theorem State.rollCall_aborts_slots (hv : ((s.seat f).judge p).commit = false) (i : Nat) :
    ((s.rollCall f p).1.seat f).cm.ownSlot i = ((s.seat f).cm.ownSlot i).unheld ((s.seat f).rollWord p) p.2 ∧
    ((s.rollCall f p).1.seat f).cm.copySlot i = ((s.seat f).cm.copySlot i).unheld ((s.seat f).rollWord p) p.2 := by
  obtain ⟨-, -, ⟨h1, h2, -⟩, -⟩ := Seat.judged_eq (State.rollCall_aborts hf p hv)
  obtain ⟨-, hs⟩ := State.recorded_slots hf p ho hc
  unfold Cm.ownSlot Cm.copySlot at hs ⊢
  rw [h1, h2]
  exact hs i

end

/-- A slot that is free before the verdict takes effect is free after it. -/
theorem State.rollCall_frees {s : State} {f : Nat} (hf : f < 4) (p : Nat × BitVec 64) (ho : Tab.wf (fun _ => ({} : Slot)) (s.seat f).cm.own = true)
    (hc : Tab.wf (fun _ => ({} : Slot)) (s.seat f).cm.copy = true) (i : Nat) :
    ((((s.seat f).cm.ownSlot i).unheld ((s.seat f).rollWord p) p.2).st = .free → (((s.rollCall f p).1.seat f).cm.ownSlot i).st = .free) ∧
    ((((s.seat f).cm.copySlot i).unheld ((s.seat f).rollWord p) p.2).st = .free → (((s.rollCall f p).1.seat f).cm.copySlot i).st = .free) := by
  have stays {x : Slot} (h : x.st = .free) : (x.moved p.2 .live .held).st = .free := by
    rw [Slot.moved_misses _ _ (by rw [h]; decide)]
    exact h
  cases hv : ((s.seat f).judge p).commit with
  | true =>
    obtain ⟨h1, h2⟩ := State.rollCall_commits_slots hf p ho hc hv i
    rw [h1, h2]
    exact ⟨stays, stays⟩
  | false =>
    obtain ⟨h1, h2⟩ := State.rollCall_aborts_slots hf p ho hc hv i
    rw [h1, h2]
    exact ⟨id, id⟩

/-- What the roll call records reaches the end of it. -/
theorem State.recorded_fields {s : State} {f : Nat} (hf : f < 4) (p : Nat × BitVec 64) : let k := (s.recorded f p).seat f
    (k.cm.roll = (s.seat f).rollWord p ∧ k.cm.verdict = (s.seat f).judge p ∧ k.cm.verdictStep = p.2) ∧
    k.cm.committed = (s.seat f).cm.committed ∧ k.cm.buffer = (s.seat f).cm.buffer ∧ k.tt.pendingAttempt = none ∧
    k.tt.sel = (s.seat f).tt.sel := by
  dsimp only
  rw [State.recorded_seat hf]
  split <;> exact ⟨⟨rfl, rfl, rfl⟩, rfl, rfl, rfl, rfl⟩

theorem forall_zip_pair {α : Type} {P : α × α → Prop} {a b c d : α} (h1 : P (a, c)) (h2 : P (b, d)) : ∀ e ∈ [a, b].zip [c, d], P e := by
  intro e he
  simp only [List.zip_cons_cons, List.zip_nil_right, List.mem_cons, List.not_mem_nil, or_false] at he
  rcases he with rfl | rfl
  · exact h1
  · exact h2

/-- What a roll call sets. -/
theorem State.rollCall_sets {s : State} {f : Nat} (hf : f < 4) (p : Nat × BitVec 64) : let t := (s.rollCall f p).1.seat f
    (t.cm.roll = (s.seat f).rollWord p ∧ t.cm.verdict = (s.seat f).judge p ∧ t.cm.verdictStep = p.2 ∧ t.tt.pendingAttempt = none) ∧
    (((s.seat f).judge p).commit = true → t.cm.committed = p.2 ∧ t.cm.buffer = !(s.seat f).cm.buffer ∧ t.tt.sel.aborts = 0 ∧ t.cm.firstStep = false) ∧
    (((s.seat f).judge p).commit = false → t.cm.committed = (s.seat f).cm.committed ∧ t.cm.buffer = (s.seat f).cm.buffer ∧
      t.tt.sel.aborts = nextAborts (s.seat f).tt.sel.aborts ∧ t.tt.abortedStep = some p.2 ∧
      Tab.get (fun _ => none) t.cm.tray (p.2.toNat % 2) = none) := by
  intro t
  obtain ⟨⟨r1, r2, r3⟩, rc, rb, rp, rs⟩ := State.recorded_fields (s := s) hf p
  cases hv : ((s.seat f).judge p).commit with
  | true =>
    obtain ⟨⟨h1, h2, h3⟩, ⟨h4, h5, h6⟩, -, h7, h8, -⟩ := Seat.judged_eq (State.rollCall_commits hf p hv)
    exact ⟨⟨h1.trans r1, h2.trans r2, h3.trans r3, h7.trans rp⟩, fun _ => ⟨h4, h5.trans (congrArg (fun b => !b) rb), h8, h6⟩, fun h => (by cases h)⟩
  | false =>
    obtain ⟨⟨h1, h2, h3⟩, ⟨h4, h5, -⟩, ⟨-, -, h6⟩, h7, h8, h9⟩ := Seat.judged_eq (State.rollCall_aborts hf p hv)
    refine ⟨⟨h1.trans r1, h2.trans r2, h3.trans r3, h7.trans rp⟩, fun h => (by cases h), fun _ => ⟨h4.trans rc, h5.trans rb, ?_, h9, ?_⟩⟩
    · exact h8.trans (congrArg (fun x : BranchSel => nextAborts x.aborts) rs)
    · exact (congrArg (fun x => Tab.get (fun _ => none) x (p.2.toNat % 2)) h6).trans
        (Tab.get_set_self (fun _ => (none : Option (BitVec 64))) ((s.recorded f p).seat f).cm.tray (p.2.toNat % 2) none)

/-! ### The bell's clock (R46, R48, R349, R363) -/

/-- The placed start, the place in the tree and the bell count of a seat. -/
abbrev Seat.startOf (k : Seat) : Option StartAt × Bool × BitVec 64 := (k.start, k.tt.isRoot, k.tt.bell)

section
variable {r s : State} {f : Nat}

theorem Calm.closeHistory (h : Calm r s) : Calm r (s.closeHistory f) := by
  unfold State.closeHistory
  exact h.taint.ite h

theorem Calm.late (h : Calm r s) : Calm r (s.late f) := by
  unfold State.late
  dsimp only
  exact h.setStatus.ite (Calm.bump (Calm.setField h.setStatus (by rfl)))

theorem Sees.closeCores (h : Sees Seat.startOf r s) : Sees Seat.startOf r (s.closeCores f) := by
  unfold State.closeCores
  dsimp only
  have hc (l : List Nat) : Calm s (l.foldl (fun t c => t.late (fieldOfCore c)) s) := (Calm.refl s).foldl _ fun _ _ ht => ht.late
  exact h.ite ((h.calm (hc _)).ite (Sees.modSeat (h.calm (hc _).bump) fun _ => rfl))

theorem Calm.closeRx (h : Calm r s) : Calm r (s.closeRx f) := h.eachOf _ fun _ _ ht => ht.modLink

theorem Calm.coreNorm {g a : Nat} {x : Fv} (h : Calm r s) : Calm r (s.coreNorm g a x).1 := by
  unfold State.coreNorm
  rcases e : s.libRead g a 8 with ⟨u, _ | bs⟩
  · exact h.trans (Calm.of_libRead e)
  · dsimp only
    rcases e' : u.libRead g (a + 16) (16 * Nat.min (ofLe bs) 32767) with ⟨v, _ | cs⟩
    · exact (h.trans (Calm.of_libRead e)).trans (Calm.of_libRead e')
    · exact (h.trans (Calm.of_libRead e)).trans (Calm.of_libRead e')

/-- A fold whose state is calm. -/
theorem Calm.foldl_fst {α β : Type} (l : List α) (g : State × β → α → State × β) (q : State × β) (h : Calm r q.1)
    (hg : ∀ q x, Calm r q.1 → Calm r (g q x).1) : Calm r (l.foldl g q).1 := by
  induction l generalizing q with
  | nil => exact h
  | cons x l ih => exact ih _ (hg q x h)

theorem Calm.coreNorms {g : Nat} (h : Calm r s) (l : List Nat) (a : Nat → Nat) (x : Fv) :
    Calm r (l.foldl (fun q c => q.1.coreNorm g (a c) q.2) (s, x)).1 :=
  Calm.foldl_fst l (fun q c => q.1.coreNorm g (a c) q.2) (s, x) h fun _ _ hq => hq.coreNorm

theorem Calm.fieldNorm {g : Nat} (h : Calm r s) : Calm r (s.fieldNorm f g).1 :=
  h.coreNorms (coresOfField g) (fun c => slateBase c + (s.seat f).normTable) Fv.zero

theorem Calm.pair {β : Type} (b : β) (h : Calm r s) : Calm r (s, b).1 := h

theorem Calm.addNorm {q : State × Fv} {g : Nat} (h : Calm r q.1) : Calm r (State.addNorm f q g).1 := by
  unfold State.addNorm
  exact Calm.pair _ (Calm.fieldNorm h)

theorem Calm.seatNorm (h : Calm r s) : Calm r (s.seatNorm f).1 := by
  unfold State.seatNorm
  exact Calm.pair _ (Calm.foldl_fst _ _ _ h fun _ _ hq => Calm.addNorm hq)

theorem Sees.closeWord (h : Sees Seat.startOf r s) : Sees Seat.startOf r (s.closeWord f) := by
  unfold State.closeWord
  dsimp only
  have h1 (p : Prop) [Decidable p] : Sees Seat.startOf r (if p then s.seatNorm f else (s, 0)).1 := by
    split
    · exact h.calm (Calm.refl s).seatNorm
    · exact h
  exact h.ite (Sees.modSeat (h1 _) fun _ => rfl)

end

/-- The state in which a bell finds its period closed. -/
def State.closed (s : State) (f : Nat) : State := (((s.closeHistory f).closeCores f).closeRx f).closeWord f

theorem State.closed_startOf (s : State) (f : Nat) : Sees Seat.startOf s (s.closed f) :=
  Sees.closeWord ((Sees.closeCores ((Sees.refl (fun _ => rfl) s).calm (Calm.refl s).closeHistory)).calm (Calm.refl _).closeRx)

/-- The seat whose period opens. -/
def Seat.opens (k : Seat) (now : Option Nat) (clk : BitVec 64) : Seat :=
  { k with sealMissed := false,
           tt := { k.tt with bell := k.tt.bell + 1, opened := clk, cur := 0, curLayer := 0xFFFF, heard := false,
                             silent := if k.tt.heard || k.tt.isRoot then 0 else k.tt.silent + 1,
                             recent := ((k.tt.bell, now, k.tt.hold) :: k.tt.recent).take 4,
                             recentLive := ((k.tt.bell, k.cm.live, k.tt.stepPeriod) :: k.tt.recentLive).take 4 } }

theorem State.openBell_keeps (s : State) (f : Nat) :
    Keep True True ((s.latch f).modSeat f (fun k => k.opens ((s.latch f).template f) s.hmClk)) (s.openBell f) := by
  unfold State.openBell
  refine State.flushHeld_keep (eachOf_keep _ _ _ (eachOf_keep _ _ _ (eachOf_keep _ _ _ (Keep.refl _ _ _) ?_) ?_) ?_)
  · exact fun g t ht => State.setField_keep _ _ ht
  · exact fun l t ht => State.modLink_keep ht
  · exact fun c t ht => State.modCore_keep ht

theorem State.runAtBell_empties (s : State) {f : Nat} (hf : f < 4) : ((s.runAtBell f).seat f).atBell = [] := by
  have h : BellCmds (s.modSeat f (fun k => { k with atBell := [] })) (s.runAtBell f) := by
    refine (BellCmds.refl _).foldl _ fun t x ht => ?_
    cases x with
    | leave => exact ht.leaveSeat
    | retrain l => exact ht.calm (Calm.refl t).retrainLink
    | seat m e ps => exact ht.takeSeat
    | peers ps => exact ht.givePeers
  rw [h.at f, State.seat_modSeat_self _ _ hf]

/-- What comes after the period has opened and the commands of the bell were done. -/
def State.bellRest (s : State) (f : Nat) (offset : BitVec 32) : State :=
  let s := ((s.syncBell f offset).lockLinks f).deliver f
  ((s.foldWords f).finalBell f).walkBell f (s.seat f).tt.lastPeriod

theorem State.bellRest_keeps (s : State) (f : Nat) (offset : BitVec 32) : Keep True False s (s.bellRest f offset) :=
  State.walkBell_keep (State.finalBell_keep (State.foldWords_keep (State.deliver_keep (State.lockLinks_keep (State.syncBell_keep (Keep.refl _ _ _))))))

theorem State.bellRest_bellCmds (s : State) (f : Nat) (offset : BitVec 32) : BellCmds s (s.bellRest f offset) := by
  have h := ((BellCmds.refl s).syncBell (f := f) (offset := offset)).calm (Calm.deliver (f := f) (Calm.lockLinks (f := f) (Calm.refl _)))
  exact h.foldWords.finalBell.walkBell

theorem sub_two_add_one (b : BitVec 64) : b - 2 + 1 = b - 1 := by bv_omega

/-- A placed start with SETCOUNT sets the count of a root. -/
theorem State.setCount_bell (s : State) {f : Nat} (hf : f < 4) : ((s.setCount f).seat f).tt.bell = match (s.seat f).start with
    | some x => if x.setCount = true ∧ (s.seat f).tt.isRoot = true then x.bell - 2 else (s.seat f).tt.bell
    | none => (s.seat f).tt.bell := by
  unfold State.setCount
  cases (s.seat f).start with
  | none => rfl
  | some x =>
    dsimp only
    by_cases h : x.setCount = true ∧ (s.seat f).tt.isRoot = true
    · rw [if_pos h, if_pos (by rw [h.1, h.2]; rfl), State.seat_modSeat_self _ _ hf]
      rfl
    · rw [if_neg h, if_neg (by simpa using h)]

theorem State.setCount_frame (s : State) {f : Nat} (hf : f < 4) : (s.setCount f).hmClk = s.hmClk ∧ (s.setCount f).counters = s.counters ∧
    (s.setCount f).latched = s.latched ∧ (s.setCount f).host = s.host ∧ ∀ g, s.seatIx g ≠ s.seatIx f → (s.setCount f).seat g = s.seat g := by
  unfold State.setCount
  split
  · split
    · exact ⟨by simp, by simp, by simp, by simp, fun g hg => by rw [State.seat_modSeat hf, if_neg hg]⟩
    · exact ⟨rfl, rfl, rfl, rfl, fun _ _ => rfl⟩
  · exact ⟨rfl, rfl, rfl, rfl, fun _ _ => rfl⟩

/-- The clocks and counters once the period has opened. -/
theorem State.opened_clock (s : State) {f : Nat} (hf : f < 4) : let t := (s.setCount f).openBell f
    t.hmClk = s.hmClk ∧ t.latched = (s.latch f).latched ∧ (t.seat f).clockOf = (((s.setCount f).seat f).tt.bell + 1, s.hmClk) ∧
    ∀ g, s.seatIx g ≠ s.seatIx f → (t.seat g).clockOf = (s.seat g).clockOf := by
  intro t
  obtain ⟨c1, c2, c3, c4, c5⟩ := s.setCount_frame hf
  obtain ⟨k1, k2, k3⟩ := ((State.openBell_keeps (s.setCount f) f).time trivial).clocks
  have hl : ((s.setCount f).latch f).latched = (s.latch f).latched := by
    unfold State.latch State.seatFields State.partOf
    rw [c2, c3, c4]
  refine ⟨k1.trans ?_, k2.trans ?_, (k3 f).trans ?_, fun g hg => (k3 g).trans ?_⟩
  · rw [State.modSeat_hmClk]
    exact c1
  · rw [State.modSeat_latched]
    exact hl
  · rw [State.seat_modSeat_self _ _ hf]
    exact congrArg (Prod.mk _) c1
  · have hx (e : Nat) : ((s.setCount f).latch f).seatIx e = s.seatIx e := State.seatIx_congr e (congrArg _ c4)
    rw [State.seat_modSeat hf, if_neg (by rw [hx, hx]; exact hg)]
    exact congrArg Seat.clockOf (c5 g hg)

/-- The state after a bell. -/
def State.afterBell (s : State) (f : Nat) (offset : BitVec 32) : State :=
  ((((s.closed f).setCount f).openBell f).runAtBell f).bellRest f offset

theorem exec_bell (s : State) {f : Nat} (offset : BitVec 32) (hf : f < 4) : exec (.bell f offset) s = .next (s.afterBell f offset) :=
  congrArg Host.Outcome.next (show execBell f offset s = s.afterBell f offset from if_neg (by omega))

theorem State.closed_clocks (s : State) (f : Nat) : (s.closed f).hmClk = s.hmClk ∧ (s.closed f).latched = s.latched ∧
    ∀ g, ((s.closed f).seat g).clockOf = (s.seat g).clockOf :=
  ((State.closeWord_keep (State.closeRx_keep (State.closeCores_keep (State.closeHistory_keep (Keep.refl True True s))))).time trivial).clocks

theorem State.runAtBell_clocks (s : State) (f : Nat) : (s.runAtBell f).hmClk = s.hmClk ∧ (s.runAtBell f).latched = s.latched ∧
    ∀ g, ((s.runAtBell f).seat g).clockOf = (s.seat g).clockOf := ((State.runAtBell_keep (Keep.refl True False s)).time trivial).clocks

theorem State.bellRest_clocks (s : State) (f : Nat) (offset : BitVec 32) : (s.bellRest f offset).hmClk = s.hmClk ∧
    (s.bellRest f offset).latched = s.latched ∧ ∀ g, ((s.bellRest f offset).seat g).clockOf = (s.seat g).clockOf :=
  ((State.bellRest_keeps s f offset).time trivial).clocks

/-- The clocks and counters after a bell. -/
theorem State.afterBell_clocks (s : State) {f : Nat} (offset : BitVec 32) (hf : f < 4) : (s.afterBell f offset).hmClk = s.hmClk ∧
    (s.afterBell f offset).latched = ((s.closed f).latch f).latched ∧
    ((s.afterBell f offset).seat f).clockOf = ((((s.closed f).setCount f).seat f).tt.bell + 1, s.hmClk) ∧
    ∀ g, s.seatIx g ≠ s.seatIx f → ((s.afterBell f offset).seat g).clockOf = (s.seat g).clockOf := by
  obtain ⟨i1, -, i3⟩ := s.closed_clocks f
  obtain ⟨c1, c2, c3, c4⟩ := (s.closed f).opened_clock hf
  obtain ⟨j1, j2, j3⟩ := (((s.closed f).setCount f).openBell f).runAtBell_clocks f
  obtain ⟨k1, k2, k3⟩ := ((((s.closed f).setCount f).openBell f).runAtBell f).bellRest_clocks f offset
  have hx (e : Nat) : (s.closed f).seatIx e = s.seatIx e := (s.closed_startOf f).seatIx e
  refine ⟨?_, ?_, ?_, fun g hg => ?_⟩ <;> rw [State.afterBell]
  · rw [k1, j1, c1, i1]
  · rw [k2, j2, c2]
  · rw [k3, j3, c3, i1]
  · rw [k3, j3, c4 g (by rwa [hx g, hx f]), i3]

/-- The count after a bell. -/
theorem State.afterBell_bell (s : State) {f : Nat} (hf : f < 4) : (((s.closed f).setCount f).seat f).tt.bell + 1 = (match (s.seat f).start with
    | some x => if x.setCount = true ∧ (s.seat f).tt.isRoot = true then x.bell - 1 else (s.seat f).tt.bell + 1
    | none => (s.seat f).tt.bell + 1) := by
  obtain ⟨hs, hr, hb⟩ : ((s.closed f).seat f).start = (s.seat f).start ∧ ((s.closed f).seat f).tt.isRoot = (s.seat f).tt.isRoot ∧
      ((s.closed f).seat f).tt.bell = (s.seat f).tt.bell := by
    simpa only [Prod.mk.injEq] using (s.closed_startOf f).at f
  rw [(s.closed f).setCount_bell hf, hs, hr, hb]
  cases (s.seat f).start with
  | none => rfl
  | some x =>
    dsimp only
    split
    · exact sub_two_add_one x.bell
    · rfl

theorem State.afterBell_atBell (s : State) {f : Nat} (offset : BitVec 32) (hf : f < 4) : ((s.afterBell f offset).seat f).atBell = [] :=
  ((State.bellRest_bellCmds _ f offset).at f).trans (State.runAtBell_empties _ hf)

theorem State.overruns_ne_nil {s : State} {f : Nat} : s.overruns f ≠ [] ↔
    ∃ c, fieldOfCore c ∈ s.seatFields f ∧ ((s.core c).mode = .running ∨ (s.core c).mode = .faulted) := by
  simp only [← State.mem_overruns, ne_eq, List.eq_nil_iff_forall_not_mem, not_forall, not_not]

theorem State.overruns_eq_nil {s : State} {f : Nat} : s.overruns f = [] ↔
    ∀ c, ¬(fieldOfCore c ∈ s.seatFields f ∧ ((s.core c).mode = .running ∨ (s.core c).mode = .faulted)) := by
  simp only [← State.mem_overruns, List.eq_nil_iff_forall_not_mem]

/-- Settles O17: the count, the latched counters, LATE, the roll call and the redirect of a bell. -/
theorem bellAdvancesTheCount : Obligations.BellAdvancesTheCount := by
  unfold Obligations.BellAdvancesTheCount
  refine ⟨fun s f offset hf => ?_, fun s f a hc _ => s.latch_get f a hc, fun s f hf hl hp hh => ?_, fun s f p hf ho hc => ?_,
    fun s f c entry first hm hc => ?_⟩
  · obtain ⟨h1, h2, h3, h4⟩ := s.afterBell_clocks offset hf
    exact ⟨_, exec_bell s offset hf, congrArg (·.2) h3, h1, s.afterBell_atBell offset hf, h2, (congrArg (·.1) h3).trans (s.afterBell_bell hf), h4⟩
  · obtain ⟨h1, h2⟩ := State.closeCores_cases hf hl hp hh
    have ho := State.overruns_ne_nil (s := s) (f := f)
    have hn := State.overruns_eq_nil (s := s) (f := f)
    exact ⟨fun h => h1 (ho.2 h), fun h => h2 (hn.2 h)⟩
  · intro k w v t slots
    obtain ⟨⟨h1, h2, h3, h4⟩, hcm, hab⟩ := State.rollCall_sets (s := s) hf p
    refine ⟨rfl, h1, h2, h3, h4, fun hv => ?_, fun hv => ?_, fun hw i => ?_⟩
    · obtain ⟨a1, a2, a3, a4⟩ := hcm hv
      refine ⟨a1, a2, a3, a4, fun i => forall_zip_pair (fun g1 g2 => ?_) fun g1 g2 => ?_⟩ <;> dsimp only at g1 g2 ⊢
      · rw [(State.rollCall_commits_slots hf p ho hc hv i).1, Slot.unheld_live _ _ g2]
        exact Slot.moved_hits g1 g2
      · rw [(State.rollCall_commits_slots hf p ho hc hv i).2, Slot.unheld_live _ _ g2]
        exact Slot.moved_hits g1 g2
    · obtain ⟨a1, a2, a3, a4, a5⟩ := hab hv
      refine ⟨a1, a2, a3, a4, a5, fun i => forall_zip_pair (fun g1 g2 => ?_) fun g1 g2 => ?_⟩ <;> dsimp only at g1 g2 ⊢
      · rw [(State.rollCall_aborts_slots hf p ho hc hv i).1, Slot.unheld_live _ _ g2]
        exact g2
      · rw [(State.rollCall_aborts_slots hf p ho hc hv i).2, Slot.unheld_live _ _ g2]
        exact g2
    · exact forall_zip_pair (fun g1 g2 => (State.rollCall_frees hf p ho hc i).1 (Slot.unheld_held hw g1 g2))
        fun g1 g2 => (State.rollCall_frees hf p ho hc i).2 (Slot.unheld_held hw g1 g2)
  · intro k rec'
    have h := s.redirect_enters entry first hm hc
    exact ⟨h.live, h.sel, h.queues.1, h.queues.2.1, h.queues.2.2.1, h.queues.2.2.2, h.rest.1, h.rest.2.1, h.rest.2.2, h.runs, h.rests⟩

end Sys2Proof.Machine
end

section
/-! The module right after reset (R47, R52, R81, R83, R84, R121, R138, R181, R359, R403, R436, R440): O59. -/

namespace Sys2Proof.Machine

/-- Every table lists nothing at reset, so all of them are canonical. -/
theorem State.reset_canonical : State.reset.canonical :=
  ⟨rfl, rfl, rfl, rfl, rfl, rfl, fun _ h => (List.not_mem_nil h).elim, fun _ h => (List.not_mem_nil h).elim, fun _ h => (List.not_mem_nil h).elim⟩

/-- Every core, seat, link and counter reads as unlisted at reset. -/
theorem State.reset_units : (∀ c, State.reset.core c = Core.reset c) ∧ (∀ f, State.reset.seat f = {}) ∧ (∀ l, State.reset.link l = {}) ∧
    ∀ a, State.reset.counter a = {} := ⟨fun _ => rfl, fun _ => rfl, fun _ => rfl, fun _ => rfl⟩

/-- After a reset s2 holds the core's number (R84). -/
theorem Core.reset_s2 (c : Nat) : (Core.reset c).sreg 2 = BitVec.ofNat 64 c := by
  show Tab.get (fun _ => 0) (if BitVec.ofNat 64 c = 0#64 then [] else [(2, BitVec.ofNat 64 c)]) 2 = _
  split
  next h => exact h.symm
  next => rfl

/-- After a reset every scalar register but s2 reads zero. -/
theorem Core.reset_sreg {r : BitVec 5} (c : Nat) (h : r ≠ 2) : (Core.reset c).sreg r = 0 := by
  have hr : r.toNat ≠ 2 := fun e => h (BitVec.eq_of_toNat_eq e)
  unfold Core.sreg Core.reset
  dsimp only
  split
  · rfl
  · split <;> simp [Tab.get, Tab.find, Ne.symm hr]

/-- After a reset a0 holds the slate's base and a1 the desk's. -/
theorem Core.reset_bases (c : Nat) : (Core.reset c).areg 0 = BitVec.ofNat 48 (slateBase c) ∧ (Core.reset c).areg 1 = BitVec.ofNat 48 (deskBase c) :=
  ⟨rfl, rfl⟩

/-- Settles O59: every unit reads as unlisted, and a core as `Core.reset` has it. -/
theorem resetLeavesTheReset : Obligations.ResetLeavesTheReset := by
  obtain ⟨hcore, hseat, hlink, hcounter⟩ := State.reset_units
  refine ⟨State.reset_canonical, rfl, rfl, rfl, rfl, rfl, rfl, rfl, hcounter, fun _ => rfl, rfl, fun c _ => ?_, fun f => ?_, fun l => ?_,
    rfl, rfl, rfl, fun _ => rfl, rfl, rfl, rfl, rfl⟩
  · rw [hcore]
    exact ⟨rfl, rfl, Core.reset_s2 c, fun r h => Core.reset_sreg c h, (Core.reset_bases c).1, (Core.reset_bases c).2, rfl, rfl, rfl, rfl, rfl⟩
  · rw [hseat]
    exact ⟨rfl, rfl, rfl, rfl, rfl, rfl, rfl, rfl, rfl⟩
  · rw [hlink]
    exact ⟨rfl, rfl, rfl, rfl⟩

end Sys2Proof.Machine
end

section
/-! Faults of a core (R97, Tables 03-13 to 03-15): what recording one sets, and what a core that goes on keeps. -/

namespace Sys2Proof.Machine

/-! ### A core that goes on -/

section
variable (k : Core)

/-- A step forward moves the PC and the loops alone. -/
theorem Core.goesOn_frame : k.goesOn = { k with lc0 := k.goesOn.lc0, lc1 := k.goesOn.lc1, pc := k.goesOn.pc } := by
  unfold Core.goesOn
  rw [Core.seqNext_frame]

@[simp] theorem Core.goesOn_fault : k.goesOn.fault = k.fault := by rw [Core.goesOn_frame]
@[simp] theorem Core.goesOn_faultAddr : k.goesOn.faultAddr = k.faultAddr := by rw [Core.goesOn_frame]
@[simp] theorem Core.goesOn_sreg (r : BitVec 5) : k.goesOn.sreg r = k.sreg r := by rw [Core.goesOn_frame]; rfl

end

/-- Where a core goes next depends on its PC and its loops alone. -/
theorem Core.goesOn_pc_congr {k m : Core} (h0 : m.lc0 = k.lc0) (h1 : m.lc1 = k.lc1) (hp : m.pc = k.pc) : m.goesOn.pc = k.goesOn.pc := by
  show BitVec.ofNat 14 (m.seqNext m.pc.toNat).2 = BitVec.ofNat 14 (k.seqNext k.pc.toNat).2
  rw [hp, (Core.seqNext_congr _ h0 h1).1]

/-! ### FAULT and FAULT_ADDR -/

section
variable (k : Core) (code pc op addr : Nat)

/-- Recording a fault changes FAULT and FAULT_ADDR alone. -/
theorem Core.recordFault_frame : k.recordFault code pc op addr =
    { k with fault := (k.recordFault code pc op addr).fault, faultAddr := (k.recordFault code pc op addr).faultAddr } := by
  unfold Core.recordFault
  split <;> rfl

@[simp] theorem Core.recordFault_mode : (k.recordFault code pc op addr).mode = k.mode := by rw [Core.recordFault_frame]
@[simp] theorem Core.recordFault_pc : (k.recordFault code pc op addr).pc = k.pc := by rw [Core.recordFault_frame]
@[simp] theorem Core.recordFault_lc0 : (k.recordFault code pc op addr).lc0 = k.lc0 := by rw [Core.recordFault_frame]
@[simp] theorem Core.recordFault_lc1 : (k.recordFault code pc op addr).lc1 = k.lc1 := by rw [Core.recordFault_frame]
@[simp] theorem Core.recordFault_codeLen : (k.recordFault code pc op addr).codeLen = k.codeLen := by rw [Core.recordFault_frame]

theorem Core.recordFault_goesOn_pc : (k.recordFault code pc op addr).goesOn.pc = k.goesOn.pc :=
  Core.goesOn_pc_congr (k.recordFault_lc0 ..) (k.recordFault_lc1 ..) (k.recordFault_pc ..)

end

theorem Core.recordFault_inside {k : Core} (code pc op addr : Nat) (h : k.inside) : (k.recordFault code pc op addr).inside :=
  Core.inside_congr (by simp) (by simp) (by simp) (by simp) h

/-- The fields of FAULT (Table 03-15). -/
theorem faultWord_toNat (code pc op : Nat) : (faultWord code pc op).toNat = code % 256 + pc % 16384 * 512 + op % 256 * 8388608 := by
  unfold faultWord
  rw [BitVec.toNat_ofNat]
  omega

/-- A first fault is kept in full (R97). -/
theorem Core.recordFault_first {k : Core} {code pc op addr : Nat} (h : k.fault.toNat % 256 = 0) :
    k.recordFault code pc op addr = { k with fault := faultWord code pc op, faultAddr := BitVec.ofNat 64 (addr % 2 ^ 48) } := if_pos h

/-- A later fault sets MORE. -/
theorem Core.recordFault_later {k : Core} {code pc op addr : Nat} (h : k.fault.toNat % 256 ≠ 0) :
    k.recordFault code pc op addr = { k with fault := k.fault ||| 0x100#64 } := if_neg h

/-- Code and address of a first fault. -/
theorem Core.recordFault_code_addr {k : Core} {code pc op addr : Nat} (h : k.fault.toNat % 256 = 0) (hc : code < 256) (ha : addr < 2 ^ 48) :
    (k.recordFault code pc op addr).fault.toNat % 256 = code ∧ (k.recordFault code pc op addr).faultAddr.toNat = addr := by
  rw [Core.recordFault_first h]
  refine ⟨?_, ?_⟩
  · show (faultWord code pc op).toNat % 256 = code
    rw [faultWord_toNat]
    omega
  · show (BitVec.ofNat 64 (addr % 2 ^ 48)).toNat = addr
    rw [BitVec.toNat_ofNat]
    omega

/-! ### The block's record of a fault -/

section
variable (s : State) (c code pc op addr source : Nat)

@[simp] theorem State.taint_mem (f : Nat) : (s.taint f).mem = s.mem := State.modTt_mem ..
@[simp] theorem State.taint_cores (f : Nat) : (s.taint f).cores = s.cores := State.modTt_cores ..

/-- The entry that logs a fault of codes 0x02 to 0x05. -/
def faultEntry : VEntry :=
  { addr := BitVec.ofNat 64 (addr % 2 ^ 48), source := BitVec.ofNat 8 source, code := BitVec.ofNat 8 code, unitId := BitVec.ofNat 16 c }

/-- A fault is recorded in its core, TAINTs the period, and is logged if its code is one of 0x02 to 0x05. -/
theorem State.recordFault_eq : s.recordFault c code pc op addr source =
    if 2 ≤ code ∧ code ≤ 5 then
      ((s.modCore c (fun k => k.recordFault code pc op addr)).taint (fieldOfCore c)).vlog (fieldOfCore c) (faultEntry c code addr source)
    else (s.modCore c (fun k => k.recordFault code pc op addr)).taint (fieldOfCore c) := rfl

@[simp] theorem State.recordFault_mem : (s.recordFault c code pc op addr source).mem = s.mem := by
  rw [State.recordFault_eq]
  split
  · rw [(State.vlog_logged _ _ _).units.1]
    simp
  · simp

/-- The core after its fault is recorded. -/
theorem State.recordFault_core (hc : c < 2000) : (s.recordFault c code pc op addr source).core c = (s.core c).recordFault code pc op addr := by
  have e : ((s.modCore c (fun k => k.recordFault code pc op addr)).taint (fieldOfCore c)).core c = (s.core c).recordFault code pc op addr := by
    rw [State.core_congr c (State.taint_cores _ _), State.core_modCore_self _ _ hc]
  rw [State.recordFault_eq]
  split
  · rw [State.core_congr c (State.vlog_logged _ _ _).units.2.1, e]
  · exact e

end

/-- A core changed by `g` that goes on: the core, memory and the seats. -/
theorem State.modCore_advance {s : State} {c : Nat} (hc : c < 2000) (op : Nat) {g : Core → Core} (hi : (g (s.core c)).inside) :
    ((s.modCore c g).advance c op).core c = (g (s.core c)).goesOn ∧ ((s.modCore c g).advance c op).mem = s.mem ∧
      ∀ f, ((s.modCore c g).advance c op).seat f = s.seat f := by
  rw [State.advance_inside _ _ _ (by rw [State.core_modCore_self _ _ hc]; exact hi), State.core_modCore_self _ _ hc]
  exact ⟨State.core_setCore_self _ _ hc, by simp, fun f => by simp [State.modCore]⟩

/-- The same of a core that an update of nothing leaves as it was. -/
theorem State.advance_goes {s : State} {c : Nat} (hc : c < 2000) (op : Nat) (hi : (s.core c).inside) :
    (s.advance c op).core c = (s.core c).goesOn ∧ (s.advance c op).mem = s.mem ∧ ∀ f, (s.advance c op).seat f = s.seat f := by
  rw [State.advance_inside _ _ _ hi]
  exact ⟨State.core_setCore_self _ _ hc, by simp, fun f => by simp⟩

end Sys2Proof.Machine
end

section
/-! The control instructions (R69, R108 to R111, R113, R115): parking, control registers, random numbers, checks, RAISE, and O11. -/

namespace Sys2Proof.Machine

section
variable {s : State} {c : Nat} {i : Ins}

/-- An able core runs. -/
theorem Able.mode (h : Able s c i) : (s.core c).mode = .running := Core.ready_mode h.2.1

/-- A change of an able core that is then changed by `g`, the core itself being the later of the two. -/
theorem Able.modCore_advance (h : Able s c i) (op : Nat) {g : Core → Core} (hm : (g (s.core c)).mode = .running) (hi : (g (s.core c)).inside) :
    (s.modCore c g).advance c op = s.setCore c (g (s.core c)).goesOn := by
  rw [State.advance_inside _ _ _ (by rw [State.core_modCore_self _ _ h.1]; exact hi), State.core_modCore_self _ _ h.1]
  exact State.setCore_setCore _ _ _ _ (Core.ne_reset (by rw [hm]; decide))

/-! ### BELLWAIT, BELLWAITS, REST -/

/-- A core whose step period has come goes on (R110). -/
theorem State.parkUntil_goes (hi : (s.core c).inside) (op : Nat) {t : BitVec 32} (ht : t ≤ (s.seat (fieldOfCore c)).tt.stepPeriod) :
    s.parkUntil c op t = s.setCore c (s.core c).goesOn := by
  rw [State.parkUntil, if_neg (by simpa using ht), State.advance_inside _ _ _ hi]

/-- A core whose step period has not come parks. -/
theorem State.parkUntil_parks (op : Nat) {t : BitVec 32} (ht : (s.seat (fieldOfCore c)).tt.stepPeriod < t) :
    s.parkUntil c op t = s.setCore c { s.core c with mode := .parked, waitFor := t, waitOp := BitVec.ofNat 8 op } := if_pos ht

theorem Able.execRest (h : Able s c i) : execRest c i s = s.setCore c { s.core c with mode := .resting } := by
  rw [Machine.execRest, issue_able h]
  rfl

/-! ### Control registers -/

/-- RDCR of a register that the lesson may read. -/
theorem Able.execRdcr_reads (h : Able s c i) (hi : (s.core c).inside) {v : BitVec 64} (hv : s.lessonRead c ((s.core c).effAddr i) = some v) :
    execRdcr c i s = s.setCore c ((s.core c).setS i.dst v).goesOn := by
  rw [execRdcr, issue_able h]
  dsimp only
  rw [hv]
  exact h.modCore_advance _ (by rw [Core.setS_mode, h.mode]) (Core.setS_inside _ _ hi)

/-- A lesson's write changes registers of the engines alone. -/
theorem Core.lessonWrite_frame {k w : Core} {c a : Nat} {v : BitVec 64} (h : k.lessonWrite c a v = some w) :
    w.mode = k.mode ∧ w.lc0 = k.lc0 ∧ w.lc1 = k.lc1 ∧ w.pc = k.pc ∧ w.codeLen = k.codeLen := by
  have mx {off : Nat} (h : k.writeMx off v = some w) : w.mode = k.mode ∧ w.lc0 = k.lc0 ∧ w.lc1 = k.lc1 ∧ w.pc = k.pc ∧ w.codeLen = k.codeLen := by
    unfold Core.writeMx at h
    split at h <;> cases h <;> exact ⟨rfl, rfl, rfl, rfl, rfl⟩
  have vx {off : Nat} (h : k.writeVx off v = some w) : w.mode = k.mode ∧ w.lc0 = k.lc0 ∧ w.lc1 = k.lc1 ∧ w.pc = k.pc ∧ w.codeLen = k.codeLen := by
    unfold Core.writeVx at h
    split at h <;> cases h <;> exact ⟨rfl, rfl, rfl, rfl, rfl⟩
  unfold Core.lessonWrite at h
  split at h
  · split at h
    · exact mx h
    · cases h
  · split at h
    · exact vx h
    · cases h
  · cases h

/-- WRCR of a register that the lesson may write. -/
theorem Able.execWrcr_writes (h : Able s c i) (hi : (s.core c).inside) {w : Core}
    (hw : (s.core c).lessonWrite c ((s.core c).effAddr i) ((s.core c).sreg i.sb) = some w) : execWrcr c i s = s.setCore c w.goesOn := by
  obtain ⟨hm, h0, h1, hp, hl⟩ := Core.lessonWrite_frame hw
  rw [execWrcr, issue_able h]
  dsimp only
  rw [hw]
  exact h.modCore_advance (g := fun _ => w) _ (by rw [hm, h.mode]) (Core.inside_congr h0 h1 hp hl hi)

/-- An address of the local map has 48 bits. -/
theorem Core.effAddr_lt (k : Core) (i : Ins) : k.effAddr i < 2 ^ 48 := BitVec.isLt _

/-- RDCR of another register returns zero and records fault 0x05 at its address (R109). -/
theorem Able.execRdcr_refused (h : Able s c i) (hi : (s.core c).inside) (hn : s.lessonRead c ((s.core c).effAddr i) = none)
    (hf : (s.core c).fault.toNat % 256 = 0) : ((execRdcr c i s).core c).sreg i.dst = 0 ∧ ((execRdcr c i s).core c).fault.toNat % 256 = 5 ∧
      ((execRdcr c i s).core c).faultAddr.toNat = (s.core c).effAddr i ∧ (execRdcr c i s).mem = s.mem := by
  have hk := s.recordFault_core c 5 (s.core c).pc.toNat 0xA0 ((s.core c).effAddr i) 1 h.1
  have hi' := Core.recordFault_inside 5 (s.core c).pc.toNat 0xA0 ((s.core c).effAddr i) hi
  rw [execRdcr, issue_able h]
  dsimp only
  rw [hn]
  obtain ⟨e, hmem, -⟩ := State.modCore_advance (s := s.recordFault c 5 (s.core c).pc.toNat 0xA0 ((s.core c).effAddr i) 1) h.1 0xA0
    (g := fun k => k.setS i.dst 0) (by rw [hk]; exact Core.setS_inside _ _ hi')
  obtain ⟨hcode, haddr⟩ := Core.recordFault_code_addr (pc := (s.core c).pc.toNat) (op := 0xA0) hf (by decide) ((s.core c).effAddr_lt i) (code := 5)
  have hz (k : Core) : (k.setS i.dst 0).sreg i.dst = 0 := by
    by_cases hd : i.dst = 0
    · unfold Core.sreg
      rw [if_pos hd]
    · exact Core.sreg_setS_self k 0 hd
  have hs (k : Core) : (k.setS i.dst 0).fault = k.fault ∧ (k.setS i.dst 0).faultAddr = k.faultAddr := by
    unfold Core.setS
    split <;> exact ⟨rfl, rfl⟩
  rw [e, hk, hmem, Core.goesOn_sreg, Core.goesOn_fault, Core.goesOn_faultAddr, (hs _).1, (hs _).2]
  exact ⟨hz _, hcode, haddr, State.recordFault_mem ..⟩

/-- A fault recorded by an instruction that goes on: the core, with its first fault's code and address, and memory. -/
theorem State.recordFault_goes (hc : c < 2000) (hi : (s.core c).inside) {code op addr : Nat} (hf : (s.core c).fault.toNat % 256 = 0) (hcode : code < 256)
    (haddr : addr < 2 ^ 48) : let t := (s.recordFault c code (s.core c).pc.toNat op addr 1).advance c op
    (t.core c).fault.toNat % 256 = code ∧ (t.core c).faultAddr.toNat = addr ∧ (t.core c).pc = (s.core c).goesOn.pc ∧ t.mem = s.mem := by
  have hk := s.recordFault_core c code (s.core c).pc.toNat op addr 1 hc
  obtain ⟨e, hmem, -⟩ := State.advance_goes (s := s.recordFault c code (s.core c).pc.toNat op addr 1) hc op (by
    rw [hk]
    exact Core.recordFault_inside _ _ _ _ hi)
  obtain ⟨h1, h2⟩ := Core.recordFault_code_addr (pc := (s.core c).pc.toNat) (op := op) hf hcode haddr
  intro t
  rw [e, hk, hmem, Core.goesOn_fault, Core.goesOn_faultAddr, Core.recordFault_goesOn_pc]
  exact ⟨h1, h2, rfl, State.recordFault_mem ..⟩

/-- WRCR of another register records fault 0x05 at its address. -/
theorem Able.execWrcr_refused (h : Able s c i) (hi : (s.core c).inside)
    (hn : (s.core c).lessonWrite c ((s.core c).effAddr i) ((s.core c).sreg i.sb) = none) (hf : (s.core c).fault.toNat % 256 = 0) :
    ((execWrcr c i s).core c).fault.toNat % 256 = 5 ∧ ((execWrcr c i s).core c).faultAddr.toNat = (s.core c).effAddr i ∧
      (execWrcr c i s).mem = s.mem := by
  rw [execWrcr, issue_able h]
  dsimp only
  rw [hn]
  obtain ⟨h1, h2, -, h4⟩ := State.recordFault_goes (op := 0xA1) h.1 hi hf (by decide) ((s.core c).effAddr_lt i) (code := 5)
  exact ⟨h1, h2, h4⟩

/-! ### Random numbers, CHECK, RDFLT -/

/-- RNG draws the words of its element under the key of the step, the layer and the core (R108). -/
theorem Able.execRng (h : Able s c i) (hi : (s.core c).inside) :
    let x := philoxIn (s.rngKey c).seed.toNat (s.rngKey c).step.toNat (s.core c).rngLayer.toNat c (((s.core c).sreg i.sa).toNat % 2 ^ 40)
    execRng c i s = s.setCore c ((s.core c).setS i.dst (x.2.1 ++ x.1)).goesOn := by
  rw [Machine.execRng, issue_able h]
  exact h.modCore_advance _ (by rw [Core.setS_mode, h.mode]) (Core.setS_inside _ _ hi)

/-- CHECK records fault 0x07 with its number, and goes on (R111). -/
theorem Able.execCheck (h : Able s c i) (hi : (s.core c).inside) (hf : (s.core c).fault.toNat % 256 = 0) :
    let t := execCheck c i s
    (t.core c).fault.toNat % 256 = 7 ∧ (t.core c).faultAddr.toNat = i.imm.toNat % 65536 ∧ (t.core c).pc = (s.core c).goesOn.pc ∧ t.mem = s.mem := by
  rw [Machine.execCheck, issue_able h]
  exact State.recordFault_goes h.1 hi hf (by decide) (by omega)

/-! ### RAISE -/

theorem eight_bit : ∀ j : Fin 9, j.val ≠ 3 → (8#9)[j.val] = false := by decide

/-- With OVERFLOW among its bits a mask already holds what `State.overflow` adds. -/
theorem or_overflow {m : BitVec 9} (x : BitVec 9) (h : m.getLsbD 3 = true) : x ||| m ||| 8#9 = x ||| m := by
  ext j hj
  by_cases e : j = 3
  · subst e
    simp [← BitVec.getLsbD_eq_getElem, h]
  · simp [eight_bit ⟨j, hj⟩ e]

/-- What RAISE sets before its core goes on: the status bits of its mask and, with OVERFLOW, the layer. -/
def State.raised (s : State) (f : Nat) (m : BitVec 9) (layer : BitVec 16) : State :=
  if m.getLsbD 3 then (s.setStatus f m).overflow f layer else s.setStatus f m

/-- RAISE touches its seat's word of the running period alone. -/
theorem State.raised_frame (f : Nat) (m : BitVec 9) (layer : BitVec 16) : let t := s.raised f m layer
    t.cores = s.cores ∧ t.mem = s.mem ∧ t.links = s.links ∧ t.fields = s.fields ∧ t.counters = s.counters := by
  unfold State.raised State.overflow State.setStatus
  split <;> simp

/-- The word of the running period after RAISE (R69, R115). -/
theorem State.raised_word {f : Nat} (hf : f < 4) (m : BitVec 9) (layer : BitVec 16) :
    ((s.raised f m layer).seat f).tt.cur = (s.seat f).tt.cur ||| m ∧
    ((s.raised f m layer).seat f).tt.curLayer =
      (if m.getLsbD 3 = true ∧ layer < (s.seat f).tt.curLayer then layer else (s.seat f).tt.curLayer) := by
  unfold State.raised State.overflow State.setStatus State.modTt
  cases hm : m.getLsbD 3 with
  | true => simp [hf, or_overflow _ hm]
  | false => simp [hf]

theorem fieldOfCore_lt (hc : c < 2000) : fieldOfCore c < 4 := by
  unfold fieldOfCore
  omega

theorem Able.execRaise (h : Able s c i) (hi : (s.core c).inside) :
    let u := s.raised (fieldOfCore c) (i.imm.setWidth 9 &&& 0x139#9) (((s.core c).sreg i.sa).setWidth 16)
    execRaise c i s = u.setCore c (s.core c).goesOn := by
  intro u
  obtain ⟨hcores, -⟩ := s.raised_frame (fieldOfCore c) (i.imm.setWidth 9 &&& 0x139#9) (((s.core c).sreg i.sa).setWidth 16)
  have hk : u.core c = s.core c := State.core_congr c hcores
  rw [Machine.execRaise, issue_able h]
  exact (State.advance_inside u c 0xB9 (by rw [hk]; exact hi)).trans (by rw [hk])

end

/-! ### The control instructions -/

/-- Settles O11: each instruction as its lemma says. -/
theorem controlInstructionsHaveTheirEffect : Obligations.ControlInstructionsHaveTheirEffect := by
  refine ⟨fun s c i h hi => ?_, fun s c i h => ?_, fun s c i h hi => ?_⟩
  · refine ⟨fun ht => ?_, fun ht => ?_, ?_, fun v hv => ?_, fun w hw => ?_, fun hn hf => ?_, fun hn hf => ?_, ?_, ?_, fun hf => ?_, ?_⟩
    · exact congrArg Host.Outcome.next ((issue_able h).trans (State.parkUntil_goes hi _ ht))
    · exact congrArg Host.Outcome.next ((issue_able h).trans (State.parkUntil_goes hi _ ht))
    · exact congrArg Host.Outcome.next h.execRest
    · exact congrArg Host.Outcome.next (h.execRdcr_reads hi hv)
    · exact congrArg Host.Outcome.next (h.execWrcr_writes hi hw)
    · exact ⟨_, rfl, h.execRdcr_refused hi hn hf⟩
    · exact ⟨_, rfl, h.execWrcr_refused hi hn hf⟩
    · exact congrArg Host.Outcome.next (issueK_able h h.mode (Core.inside_congr (k := s.core c) rfl rfl rfl rfl hi))
    · exact congrArg Host.Outcome.next (h.execRng hi)
    · exact ⟨_, rfl, h.execCheck hi hf⟩
    · exact congrArg Host.Outcome.next (issueK_able h (by rw [Core.setS_mode, h.mode]) (Core.setS_inside _ _ hi))
  · exact ⟨fun ht => congrArg Host.Outcome.next ((issue_able h).trans (State.parkUntil_parks _ ht)),
      fun ht => congrArg Host.Outcome.next ((issue_able h).trans (State.parkUntil_parks _ ht))⟩
  · intro k f m layer
    obtain ⟨hcur, hlayer⟩ := s.raised_word (fieldOfCore_lt h.1) m layer
    obtain ⟨-, hmem, hlinks, hfields, hcounters⟩ := s.raised_frame f m layer
    refine ⟨(s.raised f m layer).setCore c k.goesOn, congrArg Host.Outcome.next (h.execRaise hi), ?_⟩
    simp only [State.seat_setCore, State.core_setCore_self _ _ h.1, State.setCore_mem, State.setCore_links, State.setCore_fields,
      State.setCore_counters]
    exact ⟨hcur, hlayer, trivial, hmem, hlinks, hfields, hcounters⟩

end Sys2Proof.Machine
end

section
/-! Scalar accesses refused and stores held (R58, R71, R87, R97, R101, R102): windows, code regions, seals, and O6. -/

namespace Sys2Proof.Machine

/-! ### What stops an access (R102) -/

/-- `n` bytes from `a` on lie in neither window of core `c`. -/
def OutOfWindows (c a n : Nat) : Prop :=
  ¬ (slateBase c ≤ a ∧ a + n ≤ slateBase c + 0x80000) ∧ ¬ (deskBase c ≤ a ∧ a + n ≤ deskBase c + 0x800000)

/-- `n` aligned bytes from `a` on lie in core `c`'s slate and begin in its code region of `len` instructions. -/
def StartsInCode (c len a n : Nat) : Prop := slateBase c ≤ a ∧ a + n ≤ slateBase c + 0x80000 ∧ a % n = 0 ∧ a < slateBase c + 8 * len

theorem inWindow_iff (c a n : Nat) : inWindow c a n = true ↔ ¬ OutOfWindows c a n := by
  unfold OutOfWindows inWindow
  simp only [Bool.or_eq_true, Bool.and_eq_true, decide_eq_true_eq]
  tauto

theorem accessFault_out {c a n : Nat} (h : OutOfWindows c a n) : accessFault c a n = some 2 := by
  have hw : inWindow c a n = false := by
    rw [Bool.eq_false_iff, ne_eq, inWindow_iff, not_not]
    exact h
  rw [accessFault, hw]
  rfl

theorem accessFault_misaligned {c a n : Nat} (h : ¬ OutOfWindows c a n) (hn : a % n ≠ 0) : accessFault c a n = some 9 := by
  rw [accessFault, (inWindow_iff c a n).2 h]
  exact if_pos hn

theorem accessFault_code {c len a n : Nat} (h : StartsInCode c len a n) : accessFault c a n = none := by
  obtain ⟨h1, h2, h3, -⟩ := h
  have hw : inWindow c a n = true := (inWindow_iff c a n).2 (by rintro ⟨hs, -⟩; exact hs ⟨h1, h2⟩)
  simp [accessFault, hw, h3]

/-- The slate of a range inside one slate is the only one that it touches. -/
theorem unitsIn_slate {c a n : Nat} (hn : 0 < n) (h1 : slateBase c ≤ a) (h2 : a + n ≤ slateBase c + 0x80000) :
    unitsIn 0x900000000000 0x80000 a n = [c] := by
  unfold slateBase at h1 h2
  unfold unitsIn
  have e {x : Nat} (h : 0x900000000000 + c * 0x80000 ≤ x ∧ x < 0x900000000000 + (c + 1) * 0x80000) : (x - 0x900000000000) / 0x80000 = c := by
    omega
  rw [if_neg (by omega), e (x := a) (by omega), e (x := a + n - 1) (by omega), Nat.add_sub_cancel_left]
  rfl

/-- A range that begins in a code region hits it, at its own first byte. -/
theorem State.hitsCode_starts {s : State} {c a n : Nat} (hn : 0 < n) (h : StartsInCode c (s.core c).codeLen a n) :
    s.hitsCode a n = true ∧ s.firstCode a n = a := by
  obtain ⟨h1, h2, -, h4⟩ := h
  have hp : (decide (a < slateBase c + 8 * (s.core c).codeLen) && decide (slateBase c < a + n)) = true := by
    simp only [Bool.and_eq_true, decide_eq_true_eq]
    omega
  have hf : [c].find? (fun c => decide (a < slateBase c + 8 * (s.core c).codeLen) && decide (slateBase c < a + n)) = some c :=
    List.find?_cons_of_pos hp
  unfold State.hitsCode State.firstCode
  rw [unitsIn_slate hn h1 h2, hf]
  exact ⟨by simpa using hp, Nat.max_eq_left h1⟩

/-- Which ranges hit code depends on the lengths of the lessons alone. -/
theorem State.hitsCode_congr {s t : State} (h : ∀ e, (t.core e).codeLen = (s.core e).codeLen) (a n : Nat) :
    t.hitsCode a n = s.hitsCode a n ∧ t.firstCode a n = s.firstCode a n := by
  unfold State.hitsCode State.firstCode
  simp only [h]
  exact ⟨trivial, trivial⟩

theorem State.seatFields_congr {s t : State} (hl : t.host.layout = s.host.layout) (f : Nat) : t.seatFields f = s.seatFields f := by
  simp [State.seatFields, State.partOf, hl]

/-- The core-data runs of a core depend on the seats and the layout. -/
theorem State.coreRuns_congr {s t : State} (hs : t.seats = s.seats) (hl : t.host.layout = s.host.layout) (c : Nat) : t.coreRuns c = s.coreRuns c := by
  have hseat (f : Nat) : t.seat f = s.seat f := State.seat_congr f hs hl
  unfold State.coreRuns State.runs State.template State.block
  simp only [hseat, State.seatFields_congr hl]

/-- Which writes wait for a seal depends on the seals, the seats and the layout. -/
theorem State.meetsSeal_congr {s t : State} (h : ∀ e, (t.core e).seals = (s.core e).seals) (hs : t.seats = s.seats)
    (hl : t.host.layout = s.host.layout) (a n : Nat) : t.meetsSeal a n = s.meetsSeal a n := by
  unfold State.meetsSeal Core.sealed
  simp only [h, State.coreRuns_congr hs hl]

/-- A change of one core that keeps its `p` keeps every core's. -/
theorem State.modCore_core {α : Type} (p : Core → α) {s : State} {c : Nat} {g : Core → Core} (h : p (g (s.core c)) = p (s.core c)) (e : Nat) :
    p ((s.modCore c g).core e) = p (s.core e) := by
  by_cases he : e = c
  · subst he
    by_cases hc : e < 2000
    · rw [State.core_modCore_self _ _ hc, h]
    · rw [State.modCore, State.setCore, if_neg hc]
  · rw [State.core_modCore_ne _ _ he]

/-! ### Post-increment -/

section
variable (k : Core) (i : Ins)

/-- A post-increment changes an address register at most. -/
theorem Core.inc_frame : k.inc i = { k with a := (k.inc i).a } := by
  unfold Core.inc
  split <;> rfl

theorem Core.inc_mode : (k.inc i).mode = k.mode := by rw [Core.inc_frame]
theorem Core.inc_pc : (k.inc i).pc = k.pc := by rw [Core.inc_frame]
theorem Core.inc_codeLen : (k.inc i).codeLen = k.codeLen := by rw [Core.inc_frame]
theorem Core.inc_seals : (k.inc i).seals = k.seals := by rw [Core.inc_frame]

variable {k} in
theorem Core.inc_inside (h : k.inside) : (k.inc i).inside := by
  rw [Core.inc_frame]
  exact Core.inside_congr (k := k) rfl rfl rfl rfl h

theorem Core.inc_fault : (k.inc i).fault = k.fault := by rw [Core.inc_frame]

theorem Core.inc_setFault (x y : BitVec 64) :
    ({ k with fault := x, faultAddr := y } : Core).inc i = { k.inc i with fault := x, faultAddr := y } := by
  unfold Core.inc
  split <;> rfl

/-- A post-increment and the record of a fault do not meet. -/
theorem Core.recordFault_inc (code pc op addr : Nat) : (k.recordFault code pc op addr).inc i = (k.inc i).recordFault code pc op addr := by
  by_cases h : k.fault.toNat % 256 = 0
  · rw [Core.recordFault_first h, Core.recordFault_first (by rw [Core.inc_fault]; exact h)]
    exact Core.inc_setFault k i _ _
  · rw [Core.recordFault_later h, Core.recordFault_later (by rw [Core.inc_fault]; exact h), Core.inc_fault]
    exact (Core.inc_setFault k i _ k.faultAddr).trans (by rw [Core.inc_frame])

theorem ldstAddr_lt : ldstAddr k i < 2 ^ 48 := by
  unfold ldstAddr
  split
  · exact BitVec.isLt _
  · exact k.effAddr_lt i

end

/-- A load that cannot be made returns zero. -/
theorem ofLe_zeros (n : Nat) : ofLe (List.replicate n 0) = 0 := by
  induction n with
  | zero => rfl
  | succ n ih => rw [List.replicate_succ, ofLe, ih]; rfl

theorem extendLoad_zeros (i : Ins) (n : Nat) : extendLoad i (List.replicate n 0) = 0 := by
  have hz (m : Nat) : signedOf m 0 = 0 := by
    unfold signedOf
    dsimp only
    rw [Nat.zero_mod, if_pos (Nat.two_pow_pos _)]
    rfl
  unfold extendLoad
  dsimp only
  rw [ofLe_zeros, hz]
  split <;> rfl

/-! ### What a refused access leaves -/

/-- The seat of `f` after an entry is logged there. -/
theorem State.vlog_seat {s : State} {f : Nat} (hf : f < 4) (e : VEntry) :
    (s.vlog f e).seat f = { s.seat f with vlog := (vlogAdd (s.seat f).vlog { e with bell := (s.seat f).tt.bell }).1 } := by
  unfold State.vlog
  dsimp only
  split
  · rw [State.seat_bump, State.seat_setSeat_self _ _ hf]
  · rw [State.seat_setSeat_self _ _ hf]

/-- A refused access: its core goes on as `m`, TAINT is set, codes 0x02 and 0x03 are logged, and no byte of memory changes. -/
structure Refused (s : State) (c v a : Nat) (m : Core) (t : State) : Prop where
  core : t.core c = m.goesOn
  mem : t.mem = s.mem
  taint : (t.seat (fieldOfCore c)).tt.cur.getLsbD 0 = true
  vlog : (t.seat (fieldOfCore c)).vlog = if v = 9 then (s.seat (fieldOfCore c)).vlog else (vlogAdd (s.seat (fieldOfCore c)).vlog
    { addr := BitVec.ofNat 64 a, bell := (s.seat (fieldOfCore c)).tt.bell, source := 1, code := BitVec.ofNat 8 v, unitId := BitVec.ofNat 16 c }).1

theorem or_one_bit (x : BitVec 9) : (x ||| 1#9).getLsbD 0 = true := by simp

/-- What a scalar access's fault records in its seat. -/
theorem State.recordFault_seat {s : State} {c : Nat} (hc : c < 2000) {v : Nat} (hv : v ∈ [2, 3, 9]) (pc op : Nat) {a : Nat} (ha : a < 2 ^ 48) :
    let k := (s.recordFault c v pc op a 1).seat (fieldOfCore c)
    k.tt.cur.getLsbD 0 = true ∧ k.vlog = if v = 9 then (s.seat (fieldOfCore c)).vlog else (vlogAdd (s.seat (fieldOfCore c)).vlog
      { addr := BitVec.ofNat 64 a, bell := (s.seat (fieldOfCore c)).tt.bell, source := 1, code := BitVec.ofNat 8 v, unitId := BitVec.ofNat 16 c }).1 := by
  have hf := fieldOfCore_lt hc
  have e : ((s.modCore c (fun k => k.recordFault v pc op a)).taint (fieldOfCore c)).seat (fieldOfCore c) =
      { s.seat (fieldOfCore c) with tt := { (s.seat (fieldOfCore c)).tt with cur := (s.seat (fieldOfCore c)).tt.cur ||| 1#9 } } := by
    unfold State.taint State.setStatus State.modTt State.modCore
    rw [State.seat_modSeat_self _ _ hf, State.seat_setCore]
  have hlog : (faultEntry c v a 1).addr = BitVec.ofNat 64 a := by
    unfold faultEntry
    rw [Nat.mod_eq_of_lt ha]
  rw [State.recordFault_eq]
  simp only [List.mem_cons, List.not_mem_nil, or_false] at hv
  rcases hv with rfl | rfl | rfl
  · rw [if_pos (by decide), State.vlog_seat hf, e, ← hlog]
    exact ⟨or_one_bit _, rfl⟩
  · rw [if_pos (by decide), State.vlog_seat hf, e, ← hlog]
    exact ⟨or_one_bit _, rfl⟩
  · rw [if_neg (by decide), e]
    exact ⟨or_one_bit _, rfl⟩

theorem Refused.congr {s u t : State} {c v a : Nat} {m : Core} (h : Refused u c v a m t) (hm : u.mem = s.mem)
    (hs : ∀ f, u.seat f = s.seat f) : Refused s c v a m t := by
  obtain ⟨h1, h2, h3, h4⟩ := h
  rw [hs] at h4
  exact ⟨h1, h2.trans hm, h3, h4⟩

section
variable {s : State} {c v a : Nat}

/-- An access whose fault is recorded and whose core then goes on as `m`. -/
theorem State.recordFault_refuses {u : State} {m : Core} {pc op op' : Nat} (hc : c < 2000) (hv : v ∈ [2, 3, 9]) (ha : a < 2 ^ 48)
    (hk : u.core c = m) (hi : m.inside) (hm : u.mem = (s.recordFault c v pc op a 1).mem)
    (hs : ∀ f, u.seat f = (s.recordFault c v pc op a 1).seat f) : Refused s c v a m (u.advance c op') := by
  obtain ⟨e1, e2, e3⟩ := State.advance_goes (s := u) hc op' (by rw [hk]; exact hi)
  obtain ⟨h1, h2⟩ := State.recordFault_seat (s := s) hc hv pc op ha
  exact ⟨by rw [e1, hk], by rw [e2, hm, State.recordFault_mem], by rw [e3, hs]; exact h1, by rw [e3, hs]; exact h2⟩

/-- The fault of a load, whose core is changed by `g` after it. -/
theorem State.recordFault_loads (hc : c < 2000) (hi : (s.core c).inside) (hv : v ∈ [2, 3, 9]) (ha : a < 2 ^ 48) (op : Nat) {g : Core → Core}
    (hg : ∀ k : Core, k.inside → (g k).inside) : Refused s c v a (g ((s.core c).recordFault v (s.core c).pc.toNat op a))
      (((s.recordFault c v (s.core c).pc.toNat op a 1).modCore c g).advance c op) :=
  State.recordFault_refuses hc hv ha (by rw [State.core_modCore_self _ _ hc, State.recordFault_core _ _ _ _ _ _ _ hc])
    (hg _ (Core.recordFault_inside _ _ _ _ hi)) (State.modCore_mem _ _ _) (fun f => State.seat_setCore _ _ f _)

/-- The fault of a store. -/
theorem State.recordFault_stores (hc : c < 2000) (hi : (s.core c).inside) (hv : v ∈ [2, 3, 9]) (ha : a < 2 ^ 48) (op : Nat) :
    Refused s c v a ((s.core c).recordFault v (s.core c).pc.toNat op a) ((s.recordFault c v (s.core c).pc.toNat op a 1).advance c op) :=
  State.recordFault_refuses hc hv ha (State.recordFault_core _ _ _ _ _ _ _ hc) (Core.recordFault_inside _ _ _ _ hi) rfl (fun _ => rfl)

/-- A load is refused. The definition is opened under no argument here and below, so that the kernel need not evaluate the windows. -/
theorem State.scalarLoad_refused (op n : Nat) (h : accessFault c a n = some v) :
    s.scalarLoad c op a n = (s.recordFault c v (s.core c).pc.toNat op a 1, List.replicate n 0) := by
  have e : State.scalarLoad = State.scalarLoad := rfl
  conv at e => rhs; delta State.scalarLoad
  rw [e]
  beta_reduce
  rw [h]

/-- A store that the windows refuse. -/
theorem State.scalarStore_outside (op : Nat) {bs : List Byte} (h : accessFault c a bs.length = some v) :
    s.scalarStore c op a bs = (s.recordFault c v (s.core c).pc.toNat op a 1).advance c op := by
  have e : State.scalarStore = State.scalarStore := rfl
  conv at e => rhs; delta State.scalarStore
  rw [e]
  beta_reduce
  rw [h]

/-- A store that the windows allow: into code, into a sealed buffer, or made. -/
theorem State.scalarStore_inside (op : Nat) {bs : List Byte} (h : accessFault c a bs.length = none) : s.scalarStore c op a bs =
    if s.hitsCode a bs.length then (s.recordFault c 3 (s.core c).pc.toNat op (s.firstCode a bs.length) 1).advance c op
    else if s.meetsSeal a bs.length then s.modCore c (fun k => { k with stall := some (.store a bs) })
    else (s.landStore c a bs).advance c op := by
  have e : State.scalarStore = State.scalarStore := rfl
  conv at e => rhs; delta State.scalarStore
  rw [e]
  beta_reduce
  rw [h]

/-- A store is refused with code `v`. -/
def RefusesStore (c len v a n : Nat) : Prop := (accessFault c a n = some v ∧ v ∈ [2, 3, 9]) ∨ (v = 3 ∧ StartsInCode c len a n)

theorem RefusesStore.mem {len n : Nat} (h : RefusesStore c len v a n) : v ∈ [2, 3, 9] := by
  rcases h with ⟨-, h⟩ | ⟨rfl, -⟩
  · exact h
  · decide

theorem State.scalarStore_refused (hc : c < 2000) (hi : (s.core c).inside) (ha : a < 2 ^ 48) (op : Nat) {bs : List Byte} (hb : 0 < bs.length)
    (h : RefusesStore c (s.core c).codeLen v a bs.length) :
    Refused s c v a ((s.core c).recordFault v (s.core c).pc.toNat op a) (s.scalarStore c op a bs) := by
  have hg := State.recordFault_stores hc hi h.mem ha op
  rcases h with ⟨h, -⟩ | ⟨rfl, h⟩
  · rw [State.scalarStore_outside op h]
    exact hg
  · obtain ⟨h1, h2⟩ := State.hitsCode_starts hb h
    rw [State.scalarStore_inside op (accessFault_code h), if_pos h1, h2]
    exact hg

variable {i : Ins}

/-! ### LD, ST, LDD and STD -/

theorem Able.execLd_refused (h : Able s c i) (hi : (s.core c).inside) (hv : v ∈ [2, 3, 9])
    (hf : accessFault c (ldstAddr (s.core c) i) (memSize i) = some v) : Refused s c v (ldstAddr (s.core c) i)
      ((((s.core c).inc i).recordFault v (s.core c).pc.toNat 0x50 (ldstAddr (s.core c) i)).setS i.dst 0) (execLd c i s) := by
  rw [execLd, issue_able h]
  dsimp only
  rw [State.scalarLoad_refused _ _ hf, ← Core.recordFault_inc]
  dsimp only
  rw [extendLoad_zeros]
  exact State.recordFault_loads h.1 hi hv (ldstAddr_lt _ _) 0x50 (g := fun k => (k.inc i).setS i.dst 0)
    fun k hk => Core.setS_inside _ _ (Core.inc_inside i hk)

theorem Able.execLdd_refused (h : Able s c i) (hi : (s.core c).inside) (hv : v ∈ [2, 3, 9])
    (hf : accessFault c ((s.core c).effAddr i) 64 = some v) : Refused s c v ((s.core c).effAddr i)
      (((s.core c).recordFault v (s.core c).pc.toNat 0x52 ((s.core c).effAddr i)).setD i.dst 0) (execLdd c i s) := by
  rw [execLdd, issue_able h]
  dsimp only
  rw [State.scalarLoad_refused _ _ hf]
  dsimp only
  rw [ofLe_zeros]
  exact State.recordFault_loads h.1 hi hv ((s.core c).effAddr_lt i) 0x52 (g := fun k => k.setD i.dst 0) fun k hk => Core.setD_inside _ _ hk

/-- A store finds its core with the address stepped. -/
theorem Able.execSt_eq (h : Able s c i) : execSt c i s =
    (s.modCore c (fun k => k.inc i)).scalarStore c 0x51 (ldstAddr (s.core c) i) (leBytes (memSize i) ((s.core c).sreg i.sb).toNat) := issue_able h

theorem Able.execStd_eq (h : Able s c i) :
    execStd c i s = s.scalarStore c 0x53 ((s.core c).effAddr i) (leBytes 64 ((s.core c).dreg i.sb).toNat) := issue_able h

theorem memSize_pos (i : Ins) : 0 < memSize i := Nat.two_pow_pos _

theorem Able.execSt_refused (h : Able s c i) (hi : (s.core c).inside)
    (hf : RefusesStore c (s.core c).codeLen v (ldstAddr (s.core c) i) (memSize i)) : Refused s c v (ldstAddr (s.core c) i)
      (((s.core c).inc i).recordFault v (s.core c).pc.toNat 0x51 (ldstAddr (s.core c) i)) (execSt c i s) := by
  have e := State.core_modCore_self s (fun k => k.inc i) h.1
  have hst := State.scalarStore_refused (s := s.modCore c (fun k => k.inc i)) (v := v) h.1 (by rw [e]; exact Core.inc_inside i hi)
    (ldstAddr_lt (s.core c) i) 0x51 (bs := leBytes (memSize i) ((s.core c).sreg i.sb).toNat) (by rw [leBytes_length]; exact memSize_pos i)
    (by rw [e, Core.inc_codeLen, leBytes_length]; exact hf)
  rw [e, Core.inc_pc] at hst
  rw [h.execSt_eq]
  exact hst.congr (by simp) (fun f => by simp [State.modCore])

theorem Able.execStd_refused (h : Able s c i) (hi : (s.core c).inside) (hf : RefusesStore c (s.core c).codeLen v ((s.core c).effAddr i) 64) :
    Refused s c v ((s.core c).effAddr i) ((s.core c).recordFault v (s.core c).pc.toNat 0x53 ((s.core c).effAddr i)) (execStd c i s) := by
  rw [h.execStd_eq]
  exact State.scalarStore_refused h.1 hi ((s.core c).effAddr_lt i) 0x53 (by rw [leBytes_length]; decide) (by rw [leBytes_length]; exact hf)

/-! ### Held stores (R58) -/

theorem State.scalarStore_held (hf : accessFault c a bs.length = none) (hc : s.hitsCode a bs.length = false) (hs : s.meetsSeal a bs.length = true)
    (op : Nat) : s.scalarStore c op a bs = s.setCore c { s.core c with stall := some (.store a bs) } := by
  rw [State.scalarStore_inside op hf, hc, hs]
  rfl

theorem Able.execSt_held (h : Able s c i) (hf : accessFault c (ldstAddr (s.core c) i) (memSize i) = none)
    (hc : s.hitsCode (ldstAddr (s.core c) i) (memSize i) = false) (hs : s.meetsSeal (ldstAddr (s.core c) i) (memSize i) = true) :
    execSt c i s = s.setCore c { (s.core c).inc i with
      stall := some (.store (ldstAddr (s.core c) i) (leBytes (memSize i) ((s.core c).sreg i.sb).toNat)) } := by
  have e := State.core_modCore_self s (fun k => k.inc i) h.1
  rw [h.execSt_eq, State.scalarStore_held, e]
  · exact State.setCore_setCore _ _ _ _ (Core.ne_reset (by rw [Core.inc_mode, h.mode]; decide))
  · rw [leBytes_length]
    exact hf
  · rw [leBytes_length, (State.hitsCode_congr (State.modCore_core (g := fun k => k.inc i) Core.codeLen (Core.inc_codeLen _ _)) _ _).1]
    exact hc
  · rw [leBytes_length, State.meetsSeal_congr (State.modCore_core (g := fun k => k.inc i) Core.seals (Core.inc_seals _ _)) (by simp) (by simp)]
    exact hs

theorem Able.execStd_held (h : Able s c i) (hf : accessFault c ((s.core c).effAddr i) 64 = none) (hc : s.hitsCode ((s.core c).effAddr i) 64 = false)
    (hs : s.meetsSeal ((s.core c).effAddr i) 64 = true) : execStd c i s = s.setCore c { s.core c with
      stall := some (.store ((s.core c).effAddr i) (leBytes 64 ((s.core c).dreg i.sb).toNat)) } := by
  rw [h.execStd_eq, State.scalarStore_held] <;> rw [leBytes_length] <;> assumption

/-! ### SEALED_WRITE_RELEASE -/

variable {bs : List Byte}

theorem execSealedWriteRelease_waits (hk : (s.core c).stall = some (.store a bs)) (hs : s.meetsSeal a bs.length = true) :
    execSealedWriteRelease c s = s := by
  unfold execSealedWriteRelease
  dsimp only
  rw [hk]
  dsimp only
  rw [hs]
  simp

end

/-- A range whose bytes all pass a test has no first failure. -/
theorem firstErr_none {test : Nat → Option MemErr} {a n : Nat} (h : ∀ x, a ≤ x → x < a + n → test x = none) : firstErr test a n = none := by
  induction n generalizing a with
  | zero => rfl
  | succ n ih =>
    rw [firstErr, h a (by omega) (by omega)]
    exact ih fun x h1 h2 => h x (by omega) (by omega)

/-- A write check depends on memory's tags and flaws and on the keys of the fields. -/
theorem State.writeErr_congr {s t : State} (ht : t.lpTags = s.lpTags) (hb : t.bad = s.bad) (hf : t.flaws = s.flaws)
    (hfields : t.fields = s.fields) (fs : List Nat) (lo n : Nat) : t.writeErr fs lo n = s.writeErr fs lo n := by
  have hfield (e : Nat) : t.field e = s.field e := State.field_congr e hfields
  funext a
  unfold State.writeErr
  simp only [hfield, State.readErr_congr ht hb hf (fun e => by rw [hfield])]

section
variable {s : State} {c a : Nat} {bs : List Byte}

/-- A store that no byte refuses lands its bytes and changes no core and no seat (R102). -/
theorem State.landStore_lands (h : ∀ x, a ≤ x → x < a + bs.length → s.writeErr (s.seatFields (fieldOfCore c)) a bs.length x = none) :
    (s.landStore c a bs).mem = Memory.writeN s.mem a bs ∧ (s.landStore c a bs).cores = s.cores := by
  have e : s.landStore c a bs = (s.noteCorrected (edges a bs.length)).storeBytes a bs := by
    unfold State.landStore State.writeRange
    rw [firstErr_none h]
  rw [e, State.storeBytes_mem, State.storeBytes_cores, State.noteCorrected_mem, (s.noteCorrected_noted _).1.cores]
  exact ⟨rfl, rfl⟩

/-- SEALED_WRITE_RELEASE of a store whose seal has cleared: its bytes land and its core goes on. -/
theorem execSealedWriteRelease_lands (hc : c < 2000) (hi : (s.core c).inside) (hk : (s.core c).stall = some (.store a bs))
    (hs : s.meetsSeal a bs.length = false)
    (hw : ∀ x, a ≤ x → x < a + bs.length → s.writeErr (s.seatFields (fieldOfCore c)) a bs.length x = none) :
    (execSealedWriteRelease c s).mem = Memory.writeN s.mem a bs ∧
      (execSealedWriteRelease c s).core c = ({ s.core c with stall := none } : Core).goesOn := by
  obtain ⟨hm, hcores⟩ := State.landStore_lands (s := s.modCore c (fun k => { k with stall := none })) (c := c) (a := a) (bs := bs) (by
    rw [State.writeErr_congr (s := s) (by simp) (by simp) (by simp) (by simp [State.modCore]), State.seatFields_congr (s := s) (by simp)]
    exact hw)
  have hcore := State.core_congr c hcores
  rw [State.core_modCore_self _ _ hc] at hcore
  unfold execSealedWriteRelease
  dsimp only
  rw [hk]
  dsimp only
  rw [if_pos ⟨hc, by rw [hs]; rfl⟩]
  obtain ⟨h1, h2, -⟩ := State.advance_goes (s := (s.modCore c (fun k => { k with stall := none })).landStore c a bs) hc
    (if bs.length = 64 then 0x53 else 0x51) (by
      rw [hcore]
      exact Core.inside_congr (k := s.core c) rfl rfl rfl rfl hi)
  rw [h1, h2, hm, hcore]
  exact ⟨by simp, rfl⟩

end

/-! ### Refused and held accesses -/

/-- The fields of FAULT and FAULT_ADDR after a first fault. -/
theorem Core.recordFault_fields {k : Core} {v pc op a : Nat} (h : k.fault.toNat % 256 = 0) (hv : v < 256) (hpc : pc < 16384) (hop : op < 256)
    (ha : a < 2 ^ 48) : let r := k.recordFault v pc op a
    r.fault.toNat % 256 = v ∧ r.fault.toNat / 512 % 16384 = pc ∧ r.fault.toNat / 2 ^ 23 % 256 = op ∧ r.fault.getLsbD 8 = false ∧
      r.faultAddr.toNat = a := by
  obtain ⟨h1, h2⟩ := Core.recordFault_code_addr (pc := pc) (op := op) h hv ha
  have e : (k.recordFault v pc op a).fault.toNat = v + pc * 512 + op * 8388608 := by
    rw [Core.recordFault_first h]
    show (faultWord v pc op).toNat = _
    rw [faultWord_toNat, Nat.mod_eq_of_lt hv, Nat.mod_eq_of_lt hpc, Nat.mod_eq_of_lt hop]
  refine ⟨h1, ?_, ?_, ?_, h2⟩
  · rw [e]
    omega
  · rw [e]
    omega
  · rw [BitVec.getLsbD, Nat.testBit_eq_decide_div_mod_eq, e, decide_eq_false_iff_not]
    omega

/-- Settles O6: refused loads and stores by what stops them, the fields of FAULT, and held stores. -/
theorem refusedAndHeldAccesses : Obligations.RefusedAndHeldAccesses := by
  refine ⟨fun s c i h hi => ?_, fun k v pc op a hv0 hv hpc hop ha => ?_, fun s c i bs a => ⟨fun h => ?_, fun _ _ _ hk hs => ?_, fun hc _ hi hk hs hw => ?_⟩⟩
  · intro k f n a k' e out code entry faults loads
    have gives {x : Instr} {t : State} {v a : Nat} {m : Core} (hx : exec x s = .next t) (hr : Refused s c v a m t) : faults x v a m :=
      ⟨t, hx, hr.core, hr.mem, hr.taint, hr.vlog⟩
    refine ⟨fun ho => ?_, fun ho hn => ?_, fun ho => ?_, fun ho hn => ?_, fun hc => ?_, fun hc => ?_⟩
    · exact ⟨gives rfl (h.execLd_refused hi (by decide) (accessFault_out ho)), gives rfl (h.execSt_refused hi (.inl ⟨accessFault_out ho, by decide⟩))⟩
    · exact ⟨gives rfl (h.execLd_refused hi (by decide) (accessFault_misaligned ho hn)),
        gives rfl (h.execSt_refused hi (.inl ⟨accessFault_misaligned ho hn, by decide⟩))⟩
    · exact ⟨gives rfl (h.execLdd_refused hi (by decide) (accessFault_out ho)),
        gives rfl (h.execStd_refused hi (.inl ⟨accessFault_out ho, by decide⟩))⟩
    · exact ⟨gives rfl (h.execLdd_refused hi (by decide) (accessFault_misaligned ho hn)),
        gives rfl (h.execStd_refused hi (.inl ⟨accessFault_misaligned ho hn, by decide⟩))⟩
    · exact gives rfl (h.execSt_refused hi (.inr ⟨rfl, hc⟩))
    · exact gives rfl (h.execStd_refused hi (.inr ⟨rfl, hc⟩))
  · exact ⟨fun h => Core.recordFault_fields h hv hpc hop ha, fun h => Core.recordFault_later h⟩
  · exact ⟨fun hf hc hs => congrArg Host.Outcome.next (h.execSt_held hf hc hs), fun hf hc hs => congrArg Host.Outcome.next (h.execStd_held hf hc hs)⟩
  · exact congrArg Host.Outcome.next (execSealedWriteRelease_waits hk hs)
  · obtain ⟨h1, h2⟩ := execSealedWriteRelease_lands hc hi hk hs hw
    refine ⟨_, rfl, ?_, fun x hx => ?_, h2⟩
    · rw [h1, Memory.readN_writeN]
    · rw [h1, Memory.read_writeN_out _ _ _ _ hx]

end Sys2Proof.Machine
end

section
/-! Where the register and log commands complete (R52, R109, R138, R181, R346, R354, R360, R436): O53. -/

namespace Sys2Proof.Machine

/-- COUNTER_CLEAR of zero by a writer that may clear the counter (R360). -/
theorem execCounterClear_clears {s : State} {w : Writer} {a : Addr} {v : BitVec 64} {x : RegAddr} (hx : regAddr a.toNat = some x)
    (hw : s.mayClear w x = true) (hv : v.extractLsb' 0 32 = (0 : BitVec 32)) :
    execCounterClear w a v s = s.setCounter (s.counterHome x a.toNat) {} := by
  unfold execCounterClear
  rw [hx]
  dsimp only
  rw [hw, if_neg (by decide), if_pos hv]
  rfl

/-- The sideband's write of PW_ALERT_MASK and of PW_CAP, where its target answers (R436). -/
theorem registerWrite_power {s : State} (v : BitVec 64) (h : s.i3cHeard = true) :
    exec (.registerWrite .sideband (BitVec.ofNat 48 (pwBase + 0x28)) v) s = .next { s with pw := { s.pw with mask := v.setWidth 10 } } ∧
    exec (.registerWrite .sideband (BitVec.ofNat 48 (pwBase + 0x30)) v) s = .next { s with pw := { s.pw with cap := v.setWidth 16 } } := by
  have hm : (BitVec.ofNat 48 (pwBase + 0x28)).toNat = pwBase + 0x28 := by decide
  have hc : (BitVec.ofNat 48 (pwBase + 0x30)).toNat = pwBase + 0x30 := by decide
  rw [registerWrite_sideband, registerWrite_sideband, h, hm, hc]
  exact ⟨rfl, rfl⟩

section
variable {s : State} {r : Req} {i : Nat} {k : Session} {addrs : List Addr}

/-- Health CLEAR of counters that the session may clear. -/
theorem healthClear_completes (h : Admitted s r i k 7 3 .boundOwner) (hc : addrs ≠ [] ∧ addrs.length ≤ 128)
    (ha : ∀ a ∈ addrs, ∃ x, regAddr a.toNat = some x ∧ k.mayClear x = true) : ∃ t, exec (.healthClear r addrs) s = .next t ∧
      Answered t r stOk 0 .empty ∧ ∀ a ∈ addrs, ∀ x, regAddr a.toNat = some x → t.counter (s.counterHome x a.toNat) = {} := by
  obtain ⟨-, hclear, -⟩ := healthClear_outcomes (addrs := addrs) h
  obtain ⟨t, e, hans, -, -, hz, -⟩ := hclear hc fun a haa => by
    obtain ⟨x, hx, hm⟩ := ha a haa
    unfold Session.regClearable
    rw [hx]
    exact hm
  exact ⟨t, e, hans, hz⟩

/-- REGS of registers that the session may read. -/
theorem readRegs_completes (h : Admitted s r i k 5 4 .boundOwner) (hc : addrs ≠ [] ∧ addrs.length ≤ 128)
    (ha : ∀ a ∈ addrs, ∃ x, regAddr a.toNat = some x ∧ k.mayRead x = true ∧ ((s.admitted r k).sessionRead k a.toNat).isSome = true) :
    ∃ t, exec (.readRegs r addrs) s = .next t ∧
      Answered t r stOk 0 (.words (addrs.map (fun a => ((s.admitted r k).sessionRead k a.toNat).getD 0))) := by
  obtain ⟨-, hread, -⟩ := readRegs_outcomes (addrs := addrs) h
  obtain ⟨t, e, hans, -⟩ := hread hc fun a haa => by
    obtain ⟨x, hx, hm, hs⟩ := ha a haa
    unfold State.regReadable
    rw [hx]
    exact Bool.and_eq_true_iff.2 ⟨hm, hs⟩
  exact ⟨t, e, hans⟩

/-- LOG of a partition's log, numerics or violations. -/
theorem readLog_completes {numerics clear : Bool} {start : Nat} (h : Admitted s r i k 5 5 .bound7)
    (hx : r.expert = true ∨ (start = 0 ∧ clear = false)) (hp : r.part ≠ 7) : let q := s.seat (reqField r)
    ∃ t, exec (.readLog r numerics start clear) s = .next t ∧
      Answered t r stOk 0 (if numerics then .numlog (q.numEntries.drop start) else .vlog (q.vlog.drop start)) ∧
      (t.seat (reqField r)).vlog = if !numerics && clear then [] else q.vlog := by
  intro q
  obtain ⟨-, hl⟩ := readLog_outcomes (numerics := numerics) (start := start) (clear := clear) h
  obtain ⟨-, -, hnum, hvio⟩ := hl hx
  cases numerics with
  | true =>
    obtain ⟨t, e, hans, -, hseat, -⟩ := hnum hp rfl
    refine ⟨t, e, hans, ?_⟩
    rw [hseat]
    cases clear <;> rfl
  | false =>
    obtain ⟨t, e, hans, -, ⟨hseat, -⟩, -⟩ := hvio hp rfl
    refine ⟨t, e, hans, ?_⟩
    rw [hseat]
    cases clear <;> rfl

end

/-- Settles O53: each command as its lemma says. -/
theorem registerAndLogCommandsComplete : Obligations.RegisterAndLogCommandsComplete := by
  refine ⟨fun s w a v x hx hw hv => ?_, fun s c v hc => ⟨⟨_, rfl, ?_⟩, ⟨_, rfl, ?_⟩⟩, fun s f v hf hv => ?_, fun s c a v k hc hk => ?_,
    fun s v h => ?_, fun s r i k addrs hne hlen => ?_, fun s r i k numerics start clear h hx => ?_⟩
  · refine ⟨_, congrArg Host.Outcome.next (execCounterClear_clears hx hw hv), UnitsKept.of_eq rfl rfl rfl rfl, ?_, fun n hn => ?_⟩
    · exact (State.counter_setCounter _ _ _ _).trans (if_pos rfl)
    · exact (State.counter_setCounter _ _ _ _).trans (if_neg hn)
  · exact congrArg Core.mxFlags (State.modCore_onlyCore s hc _).2
  · exact congrArg Core.vxFlags (State.modCore_onlyCore s hc _).2
  · obtain ⟨t, e, -, hseat, -⟩ := (outOfTolClear_effect s v hf).2 hv
    exact ⟨t, e, by rw [hseat]⟩
  · exact ⟨_, (exec_registerWrite_core s hc a v).1 k hk, State.core_setCore_self _ _ hc⟩
  · obtain ⟨hm, hc⟩ := registerWrite_power v h
    exact ⟨⟨_, hm, rfl⟩, ⟨_, hc, rfl⟩⟩
  · exact ⟨fun h ha => healthClear_completes h ⟨hne, hlen⟩ ha, fun h ha => readRegs_completes h ⟨hne, hlen⟩ ha⟩
  · refine ⟨fun hp hn => ?_, fun hp => readLog_completes h hx hp⟩
    obtain ⟨-, hl⟩ := readLog_outcomes (numerics := numerics) (start := start) (clear := clear) h
    obtain ⟨t, e, hans, -, -, hlog, -⟩ := (hl hx).2.1 hp hn
    exact ⟨t, e, hans, hlog⟩

end Sys2Proof.Machine
end

section
/-! The walk of a seat (R68, R346, R349): O19. -/

namespace Sys2Proof.Machine

/-- Where no walk moves, every seat's walk stands where it stood. -/
theorem SameWalk.walks {s t : State} (h : SameWalk s t) (f : Nat) : (t.seat f).walkOf = (s.seat f).walkOf := by
  unfold State.seat
  rw [State.seatIx_congr f h.layout]
  exact h.walk _

/-- Settles O19: a command outside the list keeps every walk, as `exec_keep_time_walk` says. -/
theorem onlyTheTimetableMovesTheWalk : Obligations.OnlyTheTimetableMovesTheWalk := by
  intro c s t h
  obtain ⟨u, hu, k⟩ := exec_keep_time_walk c s
  cases hu.symm.trans h
  cases c with
  | bell | parentSilenceUnlock | scheduledStart | scheduledStop | contextResetEffect | planCommit | unload | runStart | runStop | gen2Halt
  | jobLeave | gen2Load | gen2Go | wipeStart | wipeLpddrDone | dumpFetch | gen2Dump | dumpCollectDone | chipResetWaitExpiry | rstNAssert
  | pwrEnFall | hotSwapTrip | thermtrip | inputOvervoltCutoff | undervoltShutdown => trivial
  | _ => exact (k.place id).walks

end Sys2Proof.Machine
end

section
/-! The seal deadline (R56, R57, R112): what recording LATE leaves alone, and the run that is pulled or marked late. -/

namespace Sys2Proof.Machine

theorem fieldOfLink_lt {l : Nat} (h : l < 24) : fieldOfLink l < 4 := Nat.div_lt_of_lt_mul h

theorem Noted.setStatus (s : State) (f : Nat) (m : BitVec 9) : Noted s (s.setStatus f m) := by
  unfold State.setStatus State.modTt
  exact ⟨by simp, by simp, by simp, by simp, by simp, by simp, by simp⟩

theorem Noted.setField (s : State) (f : Nat) (x : Field) : Noted s (s.setField f x) :=
  ⟨by simp, by simp, by simp, by simp, by simp, by simp, by simp⟩

theorem State.late_noted (s : State) (f : Nat) : Noted s (s.late f) := by
  unfold State.late
  dsimp only
  split
  · exact Noted.setStatus s f 2#9
  · exact (Noted.setStatus s f 2#9).trans ((Noted.setField _ f _).trans (Noted.bump _ _))

/-- LATE is a status bit of the seat; all else of the seat is kept. -/
theorem State.late_seat {s : State} {f : Nat} (hf : f < 4) :
    (s.late f).seat f = { s.seat f with tt := { (s.seat f).tt with cur := (s.seat f).tt.cur ||| 2 } } := by
  have he : (s.late f).seat f = (s.setStatus f 2#9).seat f := by
    unfold State.late
    dsimp only
    split
    · rfl
    · exact State.seat_congr f (by simp) (by simp)
  rw [he, State.setStatus, State.modTt, State.seat_modSeat_self s _ hf]
  rfl

/-- The run that a seal deadline asks for, on a link whose slot has been neither pulled nor marked late. -/
structure Asked (s : State) (l slot : Nat) (r : Run) : Prop where
  lt : l < 24
  run : (s.runs (fieldOfLink l)).find? (fun r => r.link == l % 6 && !r.rx && r.kind == 0 && r.start == slot) = some r
  pulled : (s.link l).pulled.contains slot = false
  late : (s.link l).lateRuns.contains slot = false

theorem Asked.execSealDeadline {s : State} {l slot : Nat} {r : Run} (h : Asked s l slot r) :
    execSealDeadline l slot s =
      if (s.seat (fieldOfLink l)).tt.hold then s
      else if (s.core (500 * fieldOfLink l + r.core)).sealed r.sealId then s.modLink l (fun x => { x with pulled := x.pulled ++ [slot] })
      else ((s.modLink l (fun x => { x with lateRuns := x.lateRuns ++ [slot] })).modSeat (fieldOfLink l)
        (fun k => { k with sealMissed := true })).late (fieldOfLink l) := by
  have hn : ¬ (24 ≤ l ∨ (s.link l).pulled.contains slot = true ∨ (s.link l).lateRuns.contains slot = true) := by
    rintro (hl | hp | hp)
    · exact absurd h.lt (Nat.not_lt.2 hl)
    · exact Bool.false_ne_true (h.pulled.symm.trans hp)
    · exact Bool.false_ne_true (h.late.symm.trans hp)
  unfold Machine.execSealDeadline
  dsimp only
  rw [h.run]
  dsimp only
  rw [if_neg hn]

/-- The record of a missed seal: late markers on the link, LATE and the missed seal in the seat. -/
theorem State.missedSeal_records (s : State) {l : Nat} (hl : l < 24) (g : Link → Link) :
    let t := ((s.modLink l g).modSeat (fieldOfLink l) (fun k => { k with sealMissed := true })).late (fieldOfLink l)
    t.link l = g (s.link l) ∧ (t.seat (fieldOfLink l)).tt.cur = (s.seat (fieldOfLink l)).tt.cur ||| 2 ∧
      (t.seat (fieldOfLink l)).sealMissed = true ∧ t.mem = s.mem ∧ t.cores = s.cores := by
  intro t
  have hf := fieldOfLink_lt hl
  have hn : Noted ((s.modLink l g).modSeat (fieldOfLink l) (fun k => { k with sealMissed := true })) t := State.late_noted _ _
  have hs : t.seat (fieldOfLink l) = _ := State.late_seat hf
  rw [State.seat_modSeat_self _ _ hf] at hs
  refine ⟨?_, ?_, ?_, hn.mem.trans (by simp), hn.cores.trans (by simp)⟩
  · rw [State.link, hn.links]
    exact (congrArg (fun x => Tab.get _ x l) (State.modSeat_links _ _ _)).trans (State.link_modLink_self s g hl)
  · rw [hs, State.seat_congr (s := s) (fieldOfLink l) (State.modLink_seats s l g) (by simp)]
  · rw [hs]

/-- Settles O22: what is asked of the run decides, in the order of HOLD, the seal, and the miss. -/
theorem sealDeadlineDecidesTheRun : Obligations.SealDeadlineDecidesTheRun := by
  intro s l slot r hl
  dsimp only
  intro hr hp hlate
  have he : exec (.sealDeadline l slot) s = .next (execSealDeadline l slot s) := rfl
  rw [he, Asked.execSealDeadline ⟨hl, hr, hp, hlate⟩]
  refine ⟨fun hh => ?_, fun hh hs => ?_, fun hh hs => ?_⟩
  · rw [if_pos hh]
  · rw [hh, if_neg Bool.false_ne_true, if_pos hs]
    rfl
  · rw [hh, hs, if_neg Bool.false_ne_true, if_neg Bool.false_ne_true]
    exact ⟨_, rfl, s.missedSeal_records hl _⟩

end Sys2Proof.Machine
end

section
/-! The write of an MXST (R135 to R138, R143, R147, R58): where ranges land, what an ABFT event records, and the tile that is written. -/

namespace Sys2Proof.Machine

/-! ### Ranges that land -/

/-- Memory after ranges have taken their bytes from `m`. -/
def Memory.land (m : Memory) (mem : Memory) (l : List (Nat × Nat)) : Memory :=
  l.foldl (fun t r => Memory.writeN t r.1 (Memory.readN m r.1 r.2)) mem

theorem State.landRanges_mem (s : State) (m : Memory) (l : List (Nat × Nat)) : (s.landRanges m l).mem = Memory.land m s.mem l := by
  have hf (t : State) (l : List (Nat × Nat)) :
      (l.foldl (fun t r => t.storeBytes r.1 (Memory.readN m r.1 r.2)) t).mem = Memory.land m t.mem l := by
    induction l generalizing t with
    | nil => rfl
    | cons r l ih => exact (ih _).trans (congrArg (fun x => Memory.land m x l) (State.storeBytes_mem _ _ _))
  unfold State.landRanges
  rw [hf, (s.noteCorrected_noted _).1.mem]

theorem Memory.read_land_out (m mem : Memory) (l : List (Nat × Nat)) (y : Nat) (h : ∀ r ∈ l, y < r.1 ∨ r.1 + r.2 ≤ y) :
    Memory.read (Memory.land m mem l) y = Memory.read mem y := by
  induction l generalizing mem with
  | nil => rfl
  | cons r l ih =>
    obtain ⟨hr, hl⟩ := List.forall_mem_cons.1 h
    exact (ih _ hl).trans (Memory.read_writeN_out _ _ _ _ (by rwa [Memory.readN_length]))

theorem State.landRanges_cores (s : State) (m : Memory) (l : List (Nat × Nat)) : (s.landRanges m l).cores = s.cores :=
  (State.foldl_cores _ _ fun _ _ => State.storeBytes_cores _ _ _).trans (s.noteCorrected_noted _).1.cores

/-- What the elements of a descriptor make of memory depends on memory alone. -/
theorem State.putAll_mem_congr {s t : State} (h : t.mem = s.mem) (d : Desc) (vs : List Nat) : (t.putAll d vs).mem = (s.putAll d vs).mem := by
  unfold State.putAll
  dsimp only
  rw [State.landRanges_mem, State.landRanges_mem, h]

theorem State.putAll_read_out (s : State) (d : Desc) (vs : List Nat) (y : Nat) (h : ∀ r ∈ d.ranges, y < r.1 ∨ r.1 + r.2 ≤ y) :
    Memory.read (s.putAll d vs).mem y = Memory.read s.mem y := by
  unfold State.putAll
  dsimp only
  rw [State.landRanges_mem, Memory.read_land_out _ _ _ _ h]

/-! ### The ABFT event -/

theorem State.abftEvent_none (s : State) (c : Nat) {x : Mxst} (h : x.outcome = 0) : s.abftEvent c x = s := by
  unfold State.abftEvent
  dsimp only
  rw [if_pos h]

theorem State.abftEvent_noted (s : State) (c : Nat) {x : Mxst} (h : x.outcome ≠ 0) :
    Noted (s.modCore c (fun k => { k with abftLast := abftLastWord x x.outcome })) (s.abftEvent c x) := by
  have hi {t u : State} (p : Prop) [Decidable p] (hu : Noted t u) : Noted t (if p then u else t) := by
    split
    · exact hu
    · exact Noted.refl t
  unfold State.abftEvent
  dsimp only
  rw [if_neg h]
  exact (((Noted.bump _ _).trans (hi _ (Noted.bump _ _))).trans (Noted.demerit _ _ _ _ _)).trans
    (hi _ ((hi _ (Noted.demerit _ _ _ _ _)).trans (Noted.setStatus _ _ _)))

theorem State.abftEvent_mem (s : State) (c : Nat) (x : Mxst) : (s.abftEvent c x).mem = s.mem := by
  by_cases h : x.outcome = 0
  · rw [s.abftEvent_none c h]
  · exact (s.abftEvent_noted c h).mem.trans (by simp)

/-- Of its core an event changes MX_ABFT_LAST alone. -/
theorem State.abftEvent_core (s : State) {c : Nat} (hc : c < 2000) (x : Mxst) :
    (s.abftEvent c x).core c = { s.core c with abftLast := if x.outcome = 0 then (s.core c).abftLast else abftLastWord x x.outcome } := by
  by_cases h : x.outcome = 0
  · rw [s.abftEvent_none c h, if_pos h]
  · rw [if_neg h, State.core_congr c (s.abftEvent_noted c h).cores, State.core_modCore_self _ _ hc]

theorem or_four_bit (x : BitVec 9) : (x ||| 4#9).getLsbD 2 = true := by
  revert x
  decide

/-- An unresolved sequence sets ABFT_UNRESOLVED. -/
theorem State.abftEvent_unresolved (s : State) {c : Nat} (hc : c < 2000) {x : Mxst} (h : x.outcome = 3) :
    ((s.abftEvent c x).seat (fieldOfCore c)).tt.cur.getLsbD 2 = true := by
  have h0 : x.outcome ≠ 0 := by omega
  unfold State.abftEvent
  dsimp only
  rw [if_neg h0, if_pos h, State.setStatus, State.modTt, State.seat_modSeat_self _ _ (fieldOfCore_lt hc)]
  exact or_four_bit _

/-! ### The numerics log -/

theorem State.numLog_cores (s : State) (f : Nat) (e : NumEntry) : (s.numLog f e).cores = s.cores := State.modSeat_cores _ _ _

theorem State.logOverflow_mem (s : State) (c : Nat) (layer : BitVec 16) (d : Desc) (amax : BitVec 32) :
    (s.logOverflow c layer d amax).mem = s.mem := by
  unfold State.logOverflow State.numLog
  dsimp only
  split
  · rfl
  · simp

/-- Of its core an overflow's entry changes the list of tensors logged alone. -/
theorem State.logOverflow_core (s : State) {c : Nat} (hc : c < 2000) (layer : BitVec 16) (d : Desc) (amax : BitVec 32) :
    ∃ l, (s.logOverflow c layer d amax).core c = { s.core c with logged := l } := by
  unfold State.logOverflow
  dsimp only
  split
  · exact ⟨_, rfl⟩
  · exact ⟨_, (State.core_congr c (State.numLog_cores _ _ _)).trans (State.core_setCore_self _ _ hc)⟩

theorem State.logOverflow_tt (s : State) {c : Nat} (hc : c < 2000) (layer : BitVec 16) (d : Desc) (amax : BitVec 32) :
    ((s.logOverflow c layer d amax).seat (fieldOfCore c)).tt = (s.seat (fieldOfCore c)).tt := by
  unfold State.logOverflow State.numLog
  dsimp only
  split
  · rfl
  · rw [State.seat_modSeat_self _ _ (fieldOfCore_lt hc)]
    dsimp only
    rw [State.seat_congr (s := s) (fieldOfCore c) (State.setCore_seats _ _ _) (by rw [State.setCore_host])]

/-! ### The write -/

/-- A state in which an MXST's write has landed: the words of its tile, its event, its core. -/
structure TileWritten (s : State) (c : Nat) (x : Mxst) (vs : List Nat) (t : State) : Prop where
  port : (t.core c).mxst = none
  tag : (t.core c).tag x.tag = (s.core c).tag x.tag - 1
  mem : t.mem = (s.putAll (descOf x.d) vs).mem
  last : x.outcome ≠ 0 → (t.core c).abftLast = abftLastWord x x.outcome
  unresolved : x.outcome = 3 → (t.seat (fieldOfCore c)).tt.cur.getLsbD 2 = true

/-- A core whose MXST is done: port free, one operation less on its tag. -/
structure Core.PortFreed (k : Core) (x : Mxst) (k' : Core) : Prop where
  port : k'.mxst = none
  tag : k'.tag x.tag = k.tag x.tag - 1

theorem Core.portFreed (k : Core) (x : Mxst) (fl : Nat) (norm : BitVec 64) :
    k.PortFreed x { (k.tagDone x.tag fl none).stickMx fl with mxst := none, mxNorm := norm } :=
  ⟨rfl, Tab.get_set_self _ _ _ _⟩

theorem TileWritten.of_event {s : State} {c : Nat} (hc : c < 2000) {x : Mxst} {k : Core} (hk : (s.core c).PortFreed x k) (vs : List Nat) :
    TileWritten s c x vs (((s.setCore c k).putAll (descOf x.d) vs).abftEvent c x) := by
  have hcore : ((s.setCore c k).putAll (descOf x.d) vs).core c = k :=
    (State.core_congr c (State.landRanges_cores _ _ _)).trans (State.core_setCore_self _ _ hc)
  have he := State.abftEvent_core ((s.setCore c k).putAll (descOf x.d) vs) hc x
  rw [hcore] at he
  refine ⟨?_, ?_, ?_, fun h => ?_, fun h => State.abftEvent_unresolved _ hc h⟩
  · rw [he]
    exact hk.port
  · rw [he]
    exact hk.tag
  · rw [State.abftEvent_mem, State.putAll_mem_congr (State.setCore_mem _ _ _)]
  · rw [he]
    exact if_neg h

theorem TileWritten.logOverflow {s t : State} {c : Nat} (hc : c < 2000) {x : Mxst} {vs : List Nat} (h : TileWritten s c x vs t)
    (layer : BitVec 16) (d : Desc) (amax : BitVec 32) : TileWritten s c x vs (t.logOverflow c layer d amax) := by
  obtain ⟨l, hl⟩ := t.logOverflow_core hc layer d amax
  refine ⟨?_, ?_, (t.logOverflow_mem c layer d amax).trans h.mem, fun h0 => ?_, fun h3 => ?_⟩
  · rw [hl]
    exact h.port
  · rw [hl]
    exact h.tag
  · rw [hl]
    exact h.last h0
  · rw [t.logOverflow_tt hc]
    exact h.unresolved h3

theorem TileWritten.ite_logOverflow {s t : State} {c : Nat} (hc : c < 2000) {x : Mxst} {vs : List Nat} (h : TileWritten s c x vs t) (p : Prop)
    [Decidable p] (layer : BitVec 16) (d : Desc) (amax : BitVec 32) :
    TileWritten s c x vs (if p then t.logOverflow c layer d amax else t) := by
  split
  · exact h.logOverflow hc layer d amax
  · exact h

section
variable {s : State} {c : Nat} {x : Mxst} (hc : c < 2000) (hx : (s.core c).mxst = some x)
include hx

theorem execMxstWriteDone_waits (hseal : s.anySeal (descOf x.d).ranges = true) : execMxstWriteDone c s = s := by
  unfold execMxstWriteDone
  dsimp only
  rw [hx]
  dsimp only
  rw [hseal, if_neg fun h => Bool.false_ne_true h.2.2]

include hc

theorem execMxstWriteDone_writes (hst : x.stage = .writing) (hseal : s.anySeal (descOf x.d).ranges = false)
    (herr : s.rangesErr c (descOf x.d).ranges = none) :
    TileWritten s c x (((List.range 4096).map
      (((s.core c).accreg x.acc.toNat).outElem x.imm (s.core c).oscale x.key (descOf x.d))).map (·.1)) (execMxstWriteDone c s) := by
  unfold execMxstWriteDone
  dsimp only
  rw [hx]
  dsimp only
  rw [hseal, if_pos ⟨hst, hc, rfl⟩, herr]
  dsimp only
  exact (TileWritten.of_event hc (Core.portFreed (s.core c) x _ _) _).ite_logOverflow hc _ _ _ _

end

/-- Settles O14: a sealed range makes the write wait; one without an error lands, with its event. -/
theorem mxstWritesItsTile : Obligations.MxstWritesItsTile := by
  intro s c x hc hx hst
  dsimp only
  have he : exec (.mxstWriteDone c) s = .next (execMxstWriteDone c s) := rfl
  rw [he]
  refine ⟨fun hseal => congrArg Host.Outcome.next (execMxstWriteDone_waits hx hseal), fun hseal herr => ?_⟩
  have ht := execMxstWriteDone_writes hc hx hst hseal herr
  refine ⟨_, rfl, ht.port, ht.tag, ht.mem, ht.last, ht.unresolved, fun y hy => ?_⟩
  rw [ht.mem]
  exact State.putAll_read_out _ _ _ _ hy

end Sys2Proof.Machine
end

section
/-! What pool operations that fail, and links that leave their state, leave of the links. -/

namespace Sys2Proof.Machine

/-- A link without its open pool operations. -/
def Link.calm (k : Link) : Link := { k with ops := [] }

/-- The links of `t` are those of `s` but for their pool operations. -/
def LinksCalm (s t : State) : Prop := ∀ e, (t.link e).calm = (s.link e).calm

section
variable {r s t : State}

theorem LinksCalm.refl (s : State) : LinksCalm s s := fun _ => rfl
theorem LinksCalm.trans (h : LinksCalm r s) (g : LinksCalm s t) : LinksCalm r t := fun e => (g e).trans (h e)
theorem LinksCalm.of_eq (h : t.links = s.links) : LinksCalm s t := fun e => congrArg Link.calm (State.link_congr e h)

theorem LinksCalm.st (h : LinksCalm s t) (e : Nat) : (t.link e).st = (s.link e).st := (congrArg Link.st (h e) :)
theorem LinksCalm.arrivals (h : LinksCalm s t) (e : Nat) : (t.link e).arrivals = (s.link e).arrivals := (congrArg Link.arrivals (h e) :)
theorem LinksCalm.kept (h : LinksCalm s t) (e : Nat) : (t.link e).kept = (s.link e).kept := (congrArg Link.kept (h e) :)

theorem LinksCalm.ite {p : Prop} [Decidable p] (hs : LinksCalm r s) (ht : LinksCalm r t) : LinksCalm r (if p then s else t) := by
  split
  · exact hs
  · exact ht

/-- A change of a link that keeps what `P` sees. -/
theorem State.modLink_sees {α : Type} (P : Link → α) (s : State) (l : Nat) (g : Link → Link) (hg : P (g (s.link l)) = P (s.link l)) (e : Nat) :
    P ((s.modLink l g).link e) = P (s.link e) := by
  by_cases hl : l < 24
  · rw [State.link_modLink hl]
    split
    next he => rw [he, hg]
    next => rfl
  · unfold State.modLink State.setLink
    rw [if_neg hl]

theorem LinksCalm.modLink (s : State) (l : Nat) (g : Link → Link) (hg : ∀ k, (g k).calm = k.calm) : LinksCalm s (s.modLink l g) :=
  State.modLink_sees Link.calm s l g (hg _)

theorem LinksCalm.foldl {α : Type} {g : State → α → State} (l : List α) (h : LinksCalm r s) (hg : ∀ t x, LinksCalm t (g t x)) :
    LinksCalm r (l.foldl g s) := List.foldlRecOn (motive := LinksCalm r) l g h fun t ht x _ => ht.trans (hg t x)

theorem LinksCalm.eachOf {g : Nat → State → State} (l : List Nat) (h : LinksCalm r s) (hg : ∀ x t, LinksCalm t (g x t)) :
    LinksCalm r (Machine.eachOf l g s) := LinksCalm.foldl l h fun t x => hg x t

end

theorem State.bumps_links (s : State) (l : List Nat) (a : Nat → Nat) : (eachOf l (fun g t => t.bump (a g)) s).links = s.links :=
  eachOf_keeps (fun t => t.links = s.links) l _ (fun _ _ ht => (State.bump_links _ _).trans ht) s rfl

theorem State.endBigPass_links (s : State) (entry part : Nat) : (s.endBigPass entry part).links = s.links := by
  unfold State.endBigPass
  generalize partFields part = fs
  rcases fs with _ | ⟨f, _ | ⟨g, fs⟩⟩
  case cons.nil => exact State.modHm_links _ _ _
  all_goals
    dsimp only
    cases Tab.find s.coord.passes entry with
    | none => rfl
    | some p =>
      dsimp only
      split <;> rfl

theorem LinksCalm.ckEnd (s : State) (f : Nat) (code : BitVec 8) (b : Body) : LinksCalm s (s.ckEnd f code b) := by
  unfold State.ckEnd
  dsimp only
  refine LinksCalm.foldl _ ?_ fun _ _ => LinksCalm.of_eq (State.respond_links _ _ _ _ _)
  refine LinksCalm.trans ?_ (LinksCalm.of_eq (State.modCk_links _ _ _))
  refine LinksCalm.eachOf _ ?_ fun _ _ => LinksCalm.modLink _ _ _ fun _ => rfl
  have hb := LinksCalm.of_eq (State.bumps_links s (s.seatFields f) fun g => lbBase g + if code = 0 then 0x140 else 0x148)
  have hc := (LinksCalm.refl s).ite (p := (s.seat f).ck.trigger = 0) hb
  exact (hc.trans (LinksCalm.of_eq (State.endBigPass_links _ _ _))).ite hc

theorem LinksCalm.openOp (s : State) (f : Nat) (o : PoolOp) : LinksCalm s (s.openOp f o) := by
  unfold State.openOp
  dsimp only
  have h := LinksCalm.of_eq (s.stageOp_links f o).1
  cases (s.stageOp f o).poolLink f o.field with
  | none => exact (h.trans (LinksCalm.of_eq (State.modCk_links _ _ _))).trans (LinksCalm.ckEnd _ _ _ _)
  | some l => exact h.trans (LinksCalm.modLink _ l _ fun _ => rfl)

theorem LinksCalm.opFail (s : State) (f : Nat) (o : PoolOp) (st : BitVec 8) : LinksCalm s (s.opFail f o st) := by
  unfold State.opFail
  have h : LinksCalm s (s.noteOpErr f o st) := LinksCalm.of_eq (State.modCk_links _ _ _)
  exact (h.trans (LinksCalm.openOp _ _ _)).ite (h.trans (LinksCalm.ckEnd _ _ _ _))

/-- An operation that ends with a status other than OK. -/
theorem LinksCalm.endOp (s : State) (l : Nat) (tag : BitVec 7) {st : BitVec 8} (n : Nat) (hst : st ≠ 0) : LinksCalm s (s.endOp l tag st n) := by
  unfold State.endOp
  cases (s.link l).op tag with
  | none => exact LinksCalm.refl s
  | some o =>
    dsimp only
    rw [if_neg hst]
    exact (LinksCalm.modLink s l (fun k => k.close tag) fun _ => rfl).trans (LinksCalm.opFail _ _ _ _)

theorem LinksCalm.opsLost (s : State) (l : Nat) : LinksCalm s (s.opsLost l) :=
  LinksCalm.foldl _ (LinksCalm.refl s) fun t o => LinksCalm.endOp t l o.tag 0 (by decide)

/-! ### A link that goes dark -/

/-- Link `l` has taken state `st`; of the other links pool operations alone have changed. -/
structure GoesTo (l : Nat) (st : LinkState) (s t : State) : Prop where
  st : (t.link l).st = st
  other : ∀ e, e ≠ l → (t.link e).calm = (s.link e).calm

section
variable {l : Nat} {st : LinkState} {s t u : State}

theorem GoesTo.calm (h : GoesTo l st s t) (c : LinksCalm t u) : GoesTo l st s u :=
  ⟨(c.st l).trans h.st, fun e he => (c e).trans (h.other e he)⟩

theorem GoesTo.of_links (h : GoesTo l st s t) (hl : u.links = t.links) : GoesTo l st s u := h.calm (LinksCalm.of_eq hl)

theorem GoesTo.modLink (hl : l < 24) (h : GoesTo l st s t) (g : Link → Link)
    (hg : ∀ k : Link, (g k).st = k.st := by exact fun _ => rfl) : GoesTo l st s (t.modLink l g) := by
  refine ⟨?_, fun e he => ?_⟩
  · rw [State.link_modLink_self _ _ hl, hg, h.st]
  · rw [State.link_modLink_ne _ _ he, h.other e he]

theorem GoesTo.passIf (h : GoesTo l st s t) (p : Prop) [Decidable p] (c : BitVec 4) : GoesTo l st s (if p then t.endLinkPass l c else t) := by
  split
  · exact h.of_links (State.modHm_links _ _ _)
  · exact h

theorem State.linkTo_goes (hl : l < 24) (s : State) (st : LinkState) (why : BitVec 4) : GoesTo l st s (s.linkTo l st why) := by
  have h1 (g : Link → Link) (hg : ∀ k : Link, (g k).st = st := by exact fun _ => rfl) : GoesTo l st s (s.modLink l g) := by
    refine ⟨?_, fun e he => ?_⟩
    · rw [State.link_modLink_self _ _ hl, hg]
    · rw [State.link_modLink_ne _ _ he]
  unfold State.linkTo
  rw [if_neg (Nat.not_le.2 hl)]
  dsimp only
  split
  · refine GoesTo.calm (GoesTo.of_links ?_ (State.modTt_links _ _ _)) (LinksCalm.opsLost _ _)
    refine GoesTo.passIf (GoesTo.modLink hl ?_ _) _ _
    exact (h1 _).passIf _ _
  · exact (h1 _).passIf _ _

end

/-! ### The links of a seat that is unlocked -/

/-- The link carries flits or ranges. -/
def Link.up (k : Link) : Prop := k.st = .locked ∨ k.st = .ranging

/-- The link sends the absent pattern from DARK. -/
def Link.down (k : Link) : Prop := k.st = .dark ∧ k.absent = true

theorem Link.not_up_of_down {k : Link} (h : k.down) : ¬ k.up := by
  rintro (e | e) <;> exact absurd (h.1.symm.trans e) (by decide)

theorem Link.down_congr {j k : Link} (h : j.calm = k.calm) (hk : k.down) : j.down :=
  ⟨(congrArg Link.st h :).trans hk.1, (congrArg Link.absent h :).trans hk.2⟩

theorem Link.up_congr {j k : Link} (h : j.calm = k.calm) (hk : k.up) : j.up := by
  unfold Link.up
  rwa [show j.st = k.st from (congrArg Link.st h :)]

/-- A link that was up sends the absent pattern. -/
def State.absentIfUp (s : State) (l : Nat) : State :=
  if (s.link l).st = .locked ∨ (s.link l).st = .ranging then s.sendAbsent l else s

theorem State.absentIfUp_of_up {s : State} {l : Nat} (h : (s.link l).up) : s.absentIfUp l = s.sendAbsent l := if_pos h
theorem State.absentIfUp_of_not_up {s : State} {l : Nat} (h : ¬ (s.link l).up) : s.absentIfUp l = s := if_neg h

theorem State.absentIfUp_down {s : State} {l : Nat} (hl : l < 24) (h : (s.link l).up ∨ (s.link l).down) : ((s.absentIfUp l).link l).down := by
  rcases h with h | h
  · have hn : ¬ ((s.link l).st = .off ∨ (s.link l).st = .failed) := by rcases h with h | h <;> simp [h]
    rw [State.absentIfUp_of_up h]
    unfold State.sendAbsent
    rw [if_neg (Nat.not_le.2 hl)]
    dsimp only
    rw [if_neg hn, State.link_modLink_self _ _ hl]
    exact ⟨(State.linkTo_goes hl s .dark 0).st, rfl⟩
  · rw [State.absentIfUp_of_not_up (Link.not_up_of_down h)]
    exact h

theorem State.absentIfUp_other {s : State} {l e : Nat} (hl : l < 24) (he : e ≠ l) : ((s.absentIfUp l).link e).calm = (s.link e).calm := by
  unfold State.absentIfUp State.sendAbsent
  rw [if_neg (Nat.not_le.2 hl)]
  dsimp only
  split
  · split
    · rfl
    · rw [State.link_modLink_ne _ _ he, (State.linkTo_goes hl s .dark 0).other e he]
  · rfl

theorem State.unlock_links (s : State) {f l : Nat} (hl : l ∈ s.seatLinks f) (hs : (s.link l).up) : ((s.unlock f).link l).down := by
  let v := s.modTt f (fun t => { t with syncState := 0 })
  have hv (e : Nat) : v.link e = s.link e := State.link_congr e (State.modTt_links _ _ _)
  have hstep (e : Nat) (h : e ∈ s.seatLinks f) (t : State) (ht : ∀ e, (t.link e).down ∨ (t.link e).calm = (v.link e).calm) :
      (v.link e).up → ((t.absentIfUp e).link e).down := fun hu =>
    State.absentIfUp_down (State.seatLinks_lt e h) ((ht e).symm.imp_left fun hc => Link.up_congr hc hu)
  obtain ⟨-, h, -⟩ := eachOf_gives (I := fun t => ∀ e, (t.link e).down ∨ (t.link e).calm = (v.link e).calm)
    (Q := fun e t => (v.link e).up → (t.link e).down) (g := fun l t => t.absentIfUp l) (s.seatLinks f)
    (fun e h t ht j => by
      by_cases hj : j = e
      · subst hj
        by_cases hu : (t.link j).up ∨ (t.link j).down
        · exact .inl (State.absentIfUp_down (State.seatLinks_lt j h) hu)
        · rw [State.absentIfUp_of_not_up fun hu' => hu (.inl hu')]
          exact ht j
      · exact (ht j).imp (Link.down_congr (State.absentIfUp_other (State.seatLinks_lt e h) hj))
          (State.absentIfUp_other (State.seatLinks_lt e h) hj).trans)
    (fun e h t ht => hstep e h t ht)
    (fun j e h t ht hd hu => by
      by_cases hj : j = e
      · subst hj
        exact hstep j h t ht hu
      · exact Link.down_congr (State.absentIfUp_other (State.seatLinks_lt e h) hj) (hd hu))
    (s := v) (fun _ => .inr rfl)
  exact h l hl (by rwa [hv])

end Sys2Proof.Machine
end

section
/-! Placed starts and stops, the silence of the parent, and synchronisation at a bell (R68, R77, R349, Table 02-1). -/

namespace Sys2Proof.Machine

/-! ### Seats in HOLD -/

/-- A seat that has entered HOLD, at the entry of its HOLD schedule. -/
def Seat.held (k : Seat) (h : Nat) : Seat :=
  { k with running := false,
           tt := { k.tt with hold := true, left := 0, stack := [], entry := h, lastPeriod := false, pendingAttempt := none, inStep := false } }

/-- An entry into HOLD leaves what sees neither its marks nor those of the abort of a pending step. -/
theorem State.enterHold_sees {α : Type} {P : Seat → α} (hh : ∀ k h, P (Seat.held k h) = P k) (ha : ∀ k n, P (Seat.abort k n) = P k)
    (hv : ∀ k v n, P { k with cm := { k.cm with verdict := v, verdictStep := n } } = P k) (s : State) {f : Nat} (hf : f < 4) :
    P ((s.enterHold f).seat f) = P (s.seat f) := by
  unfold State.enterHold State.holdNow
  dsimp only
  rw [State.seat_modSeat_self _ _ hf]
  refine (hh _ _).trans ?_
  unfold State.holdAbort
  cases (s.seat f).tt.pendingAttempt with
  | none => rfl
  | some p =>
    dsimp only
    rw [State.seat_modSeat_self _ _ hf]
    exact (hv _ _ _).trans (ha _ _)

theorem State.enterHold_holds (s : State) {f : Nat} (hf : f < 4) :
    ((s.enterHold f).seat f).tt.hold = true ∧ ((s.enterHold f).seat f).running = false := by
  unfold State.enterHold State.holdNow
  dsimp only
  rw [State.seat_modSeat_self _ _ hf]
  exact ⟨rfl, rfl⟩

/-- A seat that holds, with the bell count of another state. -/
structure Holds (f : Nat) (s t : State) : Prop where
  hold : (t.seat f).tt.hold = true
  running : (t.seat f).running = false
  bell : (t.seat f).tt.bell = (s.seat f).tt.bell

theorem SameTime.bells {s t : State} (h : SameTime s t) (f : Nat) : (t.seat f).tt.bell = (s.seat f).tt.bell :=
  (congrArg Prod.fst (h.clocks.2.2 f) :)

/-- Place and count of the walk after what moves neither. -/
theorem Keep.walks {s t : State} (h : Keep True True s t) (f : Nat) : (t.seat f).walkOf = (s.seat f).walkOf := (h.place trivial).walks f

/-! ### The placed start -/

/-- A seat whose placed start takes effect. -/
def Seat.begin (k : Seat) : Seat :=
  { k with start := none, stop := none, running := true, ctxHeld := false, lateEntry := none,
           tt := { k.tt with hold := false, left := 0, stack := [], pendingAttempt := none, lastPeriod := false, inStep := false,
                             sel := { k.tt.sel with aborts := 0 } } }

/-- The state in which the walk of a placed start begins. -/
def State.begun (s : State) (f : Nat) : State := ((s.holdAbort f).stopMargins f).modSeat f Seat.begin

theorem execScheduledStart_begins {s : State} {f : Nat} {x : StartAt} (hf : f < 4) (hx : (s.seat f).start = some x)
    (hp : (s.seat f).plan.isSome = true) (hb : x.bell = (s.seat f).tt.bell) :
    execScheduledStart f s = (s.begun f).walkFrom f x.entry true false := by
  have hn : ¬ (4 ≤ f ∨ x.bell ≠ (s.seat f).tt.bell ∨ (s.seat f).plan.isNone = true) := by
    rw [hb]
    rintro (h | h | h)
    · omega
    · exact h rfl
    · rw [Option.isNone_iff_eq_none.1 h] at hp
      exact Bool.false_ne_true hp
  unfold execScheduledStart
  dsimp only
  rw [hx]
  dsimp only
  rw [if_neg hn]
  rfl

theorem execScheduledStart_waits {s : State} {f : Nat} {x : StartAt} (hx : (s.seat f).start = some x) (hb : x.bell ≠ (s.seat f).tt.bell) :
    execScheduledStart f s = s := by
  unfold execScheduledStart
  dsimp only
  rw [hx]
  dsimp only
  rw [if_pos (.inr (.inl hb))]

theorem State.begun_seat (s : State) {f : Nat} (hf : f < 4) : ((s.begun f).seat f).start = none ∧ ((s.begun f).seat f).running = true ∧
    ((s.begun f).seat f).tt.hold = false ∧ ((s.begun f).seat f).plan = (s.seat f).plan := by
  have hk := (State.stopMargins_keep (State.holdAbort_keep (Keep.refl True True s)) : Keep True True s ((s.holdAbort f).stopMargins f)).walks f
  unfold State.begun
  rw [State.seat_modSeat_self _ _ hf]
  exact ⟨rfl, rfl, rfl, (congrArg (fun w => w.2.2.2.1) hk :)⟩

theorem State.block_congr {s t : State} (hl : t.host.layout = s.host.layout) (hp : ∀ e, (t.seat e).plan = (s.seat e).plan) (f : Nat) :
    t.block f = s.block f := by
  unfold State.block
  rw [hp, State.seatFields_congr hl]

theorem State.begun_block (s : State) {f : Nat} (hf : f < 4) : (s.begun f).block ((s.begun f).seatIx f) = s.block (s.seatIx f) := by
  let v := (s.holdAbort f).stopMargins f
  have hk : Keep True True s v := State.stopMargins_keep (State.holdAbort_keep (Keep.refl True True s))
  have hl : (s.begun f).host.layout = s.host.layout := (congrArg HostPort.layout (State.modSeat_host _ _ _)).trans (hk.place trivial).layout
  rw [State.seatIx_congr f hl]
  refine State.block_congr hl (fun e => ?_) _
  have he : (v.seat e).plan = (s.seat e).plan := (congrArg (fun w => w.2.2.2.1) (hk.walks e) :)
  unfold State.begun
  rw [State.seat_modSeat hf]
  split
  next h =>
    refine Eq.trans ?_ he
    unfold State.seat
    rw [h]
    rfl
  next => exact he

/-! ### The walk from an entry -/

theorem walk_period {f i n : Nat} {blk : List Entry} {w : Walk} (hi : i < blk.length) (hs : w.stop = false) (he : etype (blk.getD i 0) = 1) :
    walk f blk (n + 1) i w = (w, some i) := by
  unfold walk
  dsimp only
  rw [if_neg (by simp [hs, hi]), he]
  rfl

theorem walk_end {f i n : Nat} {blk : List Entry} {w : Walk} (he : etype (blk.getD i 0) = 7) :
    walk f blk (n + 1) i w = (w, none) := by
  unfold walk
  dsimp only
  split
  · rfl
  · rw [he]
    rfl

theorem State.walkFrom_period {s : State} {f i : Nat} (r final : Bool) (hi : i < (s.block (s.seatIx f)).length)
    (he : etype ((s.block (s.seatIx f)).getD i 0) = 1) : s.walkFrom f i r final = State.afterWalk f { s := s, redirect := r } (some i) final := by
  unfold State.walkFrom
  dsimp only
  rw [show walkFuel = 1048575 + 1 from rfl, walk_period hi rfl he]

theorem State.walkFrom_end {s : State} {f i : Nat} (r final : Bool) (he : etype ((s.block (s.seatIx f)).getD i 0) = 7) :
    s.walkFrom f i r final = State.afterWalk f { s := s, redirect := r } none final := by
  unfold State.walkFrom
  dsimp only
  rw [show walkFuel = 1048575 + 1 from rfl, walk_end he]

/-- A seat at the first period of an entry, with some periods to follow. -/
def Seat.at (k : Seat) (p n : Nat) : Seat := { k with tt := { k.tt with entry := p, left := n } }

theorem Seat.at_congr {j k : Seat} (h : j.walkOf = k.walkOf) (p n : Nat) : (j.at p n).walkOf = (k.at p n).walkOf := by
  simp only [Seat.walkOf, Prod.mk.injEq] at h
  simp [Seat.walkOf, Seat.at, h]

theorem State.openPeriod_walk (s : State) {f : Nat} (hf : f < 4) (p n : Nat) (first : Bool) :
    ((s.openPeriod f p n first).seat f).walkOf = ((s.seat f).at p n).walkOf := by
  unfold State.openPeriod
  dsimp only
  refine (Keep.walks (State.modLbs_keep (Keep.refl _ _ _)) f).trans ?_
  rw [State.modTt, State.seat_modSeat_self _ _ hf]
  rfl

/-- A walk without a branch that ends at a PERIOD entry, with a redirect due, opens its first period. -/
theorem State.afterWalk_period (s : State) {f : Nat} (hf : f < 4) (i : Nat) (final : Bool) :
    ((State.afterWalk f { s := s, redirect := true } (some i) final).seat f).walkOf =
      ((s.seat f).at i (efield ((s.block (s.seatIx f)).getD i 0) 106 75 - 1)).walkOf := by
  unfold State.afterWalk
  dsimp only
  rw [if_pos (by simp)]
  refine (Keep.walks (State.healthBell_keep (State.redirect_keep (Keep.refl _ _ _))) f).trans ((State.openPeriod_walk _ hf _ _ _).trans ?_)
  refine Seat.at_congr (Keep.walks ?_ f) _ _
  split
  · exact State.openFirst_keep (Keep.refl _ _ _)
  · exact Keep.refl _ _ _

/-- A walk that ends in HOLD. -/
theorem State.afterWalk_hold (w : Walk) {f : Nat} (hf : f < 4) (final : Bool) :
    let t := State.afterWalk f w none final
    (t.seat f).start = (w.s.seat f).start ∧ (t.seat f).stop = (w.s.seat f).stop ∧ (t.seat f).running = false ∧ (t.seat f).tt.hold = true := by
  intro t
  let v := if w.redirect then w.s.redirect f none false else w.s
  have hv : Keep True True w.s v := by
    unfold v
    split
    · exact State.redirect_keep (Keep.refl _ _ _)
    · exact Keep.refl _ _ _
  have ht : (t.seat f).walkOf = ((v.enterHold f).seat f).walkOf := Keep.walks (State.healthBell_keep (Keep.refl _ _ _)) f
  have hs := v.enterHold_sees (P := fun k => (k.start, k.stop)) (fun _ _ => rfl) (fun _ _ => rfl) (fun _ _ _ => rfl) hf
  obtain ⟨hh, hr⟩ := v.enterHold_holds hf
  have hw := hv.walks f
  simp only [Seat.walkOf, Prod.mk.injEq] at ht hs hw
  refine ⟨?_, ?_, ?_, ?_⟩
  · rw [ht.1, hs.1, hw.1]
  · rw [ht.2.1, hs.2, hw.2.1]
  · rw [ht.2.2.1, hr]
  · rw [ht.2.2.2.2.2.1, hh]

/-! ### No walk places a start -/

/-- The placed starts of the seats stand. -/
abbrev Starts (s t : State) : Prop := Sees Seat.start s t

theorem Starts.refl (s : State) : Starts s s := Sees.refl (fun _ => rfl) s

section
variable {r s t : State} {f : Nat}

theorem Starts.keep (h : Starts r s) (k : Keep True True s t) : Starts r t :=
  h.trans ⟨fun _ => rfl, (k.place trivial).layout, fun j => (congrArg Prod.fst ((k.place trivial).walk j) :)⟩

theorem Starts.modTt {g : Tt → Tt} (h : Starts r s) : Starts r (s.modTt f g) := h.modSeat fun _ => rfl

theorem Starts.noteBranch {e k : Nat} {verdict indexed : Bool} {layer : BitVec 16} (h : Starts r s) :
    Starts r (s.noteBranch f e k verdict indexed layer) := h.modTt

theorem Starts.verdict {w : Walk} {i : Nat} {blk : List Entry} (h : Starts r w.s) : Starts r (w.verdict f blk i).1.s := by
  unfold Walk.verdict
  dsimp only
  cases (w.s.seat f).tt.pendingAttempt with
  | none => exact Starts.noteBranch h
  | some p =>
    have hv : Starts r (w.s.rollCall f p).1 := h.keep (State.rollCall_keep (Keep.refl _ _ _))
    exact Sees.ite (Sees.modSeat hv.noteBranch fun _ => rfl) hv.noteBranch

theorem Starts.branch {w : Walk} {i : Nat} {blk : List Entry} (h : Starts r w.s) : Starts r (w.branch f blk i).1.s := by
  unfold Walk.branch
  simp only [apply_ite Prod.fst, apply_ite Walk.s]
  exact Sees.ite (Sees.ite (Sees.modSeat h.noteBranch fun _ => rfl) h.noteBranch) h.noteBranch

theorem Starts.walk {blk : List Entry} (n i : Nat) (w : Walk) (h : Starts r w.s) : Starts r (walk f blk n i w).1.s := by
  induction n generalizing i w with
  | zero => exact h
  | succ n ih =>
    unfold Machine.walk
    dsimp only
    split
    · exact h
    split
    · exact h
    · refine ih _ _ ?_
      dsimp only
      exact Starts.modTt h
    · refine ih _ _ ?_
      dsimp only
      refine Starts.modTt ?_
      split
      · exact Starts.verdict h
      · exact Starts.branch h
    · refine ih _ _ ?_
      dsimp only
      exact Starts.modTt h
    · exact h
    · exact ih _ _ h

theorem Starts.afterWalk {w : Walk} {p : Option Nat} {final : Bool} (h : Starts r w.s) : Starts r (State.afterWalk f w p final) := by
  have hred {u : State} {e : Option Nat} {b : Bool} : Keep True True u (u.redirect f e b) := State.redirect_keep (Keep.refl _ _ _)
  have hhealth {u : State} {a b : Bool} (hu : Starts r u) : Starts r (u.healthBell f a b) := hu.keep (State.healthBell_keep (Keep.refl _ _ _))
  have hheld {u : State} (hu : Starts r u) : Starts r (u.enterHold f) :=
    Sees.modSeat (g := fun k => k.held _) (hu.keep (State.holdAbort_keep (Keep.refl _ _ _))) fun _ => rfl
  unfold State.afterWalk
  cases p with
  | none => exact hhealth (hheld (Sees.ite (h.keep hred) h))
  | some p =>
    dsimp only
    have h1 : Starts r (match w.mid with
        | some k => if efield ((w.s.block (w.s.seatIx f)).getD p 0) 66 66 == 1 && !final && (w.s.seat f).tt.inStep
          then w.s.endAttempt f (w.s.seat f).cm.live k else w.s
        | none => w.s) := by
      cases w.mid with
      | none => exact h
      | some k => exact Sees.ite (h.keep (State.endAttempt_keep (Keep.refl _ _ _))) h
    have h2 {t : State} (ht : Starts r t) (c : Prop) [Decidable c] (n : Nat) (b : Bool) :
        Starts r ((if c then t.openFirst f final else t).openPeriod f p n b) :=
      Sees.modLbs (Starts.modTt (Sees.ite (ht.keep (State.openFirst_keep (Keep.refl _ _ _))) ht))
    have h3 {t : State} (ht : Starts r t) (c : Prop) [Decidable c] (b : Bool) :
        Starts r (if c then t.redirect f (some p) b else t.wakeCores f) :=
      Sees.ite (ht.keep hred) (ht.keep (State.wakeCores_keep (Keep.refl _ _ _)))
    exact hhealth (h3 (h2 h1 _ _ _) _ _)

theorem Starts.walkFrom {i : Nat} {b final : Bool} (h : Starts r s) : Starts r (s.walkFrom f i b final) := (h.walk _ _ _).afterWalk

end

/-! ### What a placed start leads to -/

section
variable {s : State} {f : Nat} {x : StartAt} (hf : f < 4) (hx : (s.seat f).start = some x) (hp : (s.seat f).plan.isSome = true)
  (hb : x.bell = (s.seat f).tt.bell)
include hf hx hp hb

theorem execScheduledStart_period (hi : x.entry < (s.block (s.seatIx f)).length) (he : etype ((s.block (s.seatIx f)).getD x.entry 0) = 1) :
    ((execScheduledStart f s).seat f).walkOf =
      (((s.begun f).seat f).at x.entry (efield ((s.block (s.seatIx f)).getD x.entry 0) 106 75 - 1)).walkOf := by
  rw [execScheduledStart_begins hf hx hp hb, State.walkFrom_period true false (by rwa [s.begun_block hf]) (by rwa [s.begun_block hf]),
    State.afterWalk_period _ hf, s.begun_block hf]

theorem execScheduledStart_end (he : etype ((s.block (s.seatIx f)).getD x.entry 0) = 7) :
    ((execScheduledStart f s).seat f).start = none ∧ ((execScheduledStart f s).seat f).running = false ∧
      ((execScheduledStart f s).seat f).tt.hold = true := by
  rw [execScheduledStart_begins hf hx hp hb, State.walkFrom_end true false (by rwa [s.begun_block hf])]
  obtain ⟨h1, -, h3, h4⟩ := State.afterWalk_hold { s := s.begun f, redirect := true } hf false
  exact ⟨h1.trans (s.begun_seat hf).1, h3, h4⟩

/-- The start is used up, whatever its entry. -/
theorem execScheduledStart_used : ((execScheduledStart f s).seat f).start = none := by
  rw [execScheduledStart_begins hf hx hp hb]
  exact ((Starts.refl _).walkFrom.at f).trans (s.begun_seat hf).1

end

/-! ### The placed stop, and the silence of the parent -/

theorem execScheduledStop_waits {s : State} {f : Nat} {b : BitVec 64} (hs : (s.seat f).stop = some (.atBell b)) (hb : b ≠ (s.seat f).tt.bell) :
    execScheduledStop f s = s := by
  unfold execScheduledStop
  dsimp only
  rw [hs]
  dsimp only
  rw [if_pos (.inr (.inl hb))]

/-- A stop at its bell ends as a walk that ends in HOLD, with the stop used up. -/
theorem execScheduledStop_stops {s : State} {f : Nat} {b : BitVec 64} (hf : f < 4) (hp : (s.seat f).plan.isSome = true)
    (hs : (s.seat f).stop = some (.atBell b)) (hh : (s.seat f).tt.hold = false) (hb : b = (s.seat f).tt.bell) :
    ∃ w : Walk, execScheduledStop f s = State.afterWalk f { w with s := w.s.modSeat f (fun k => { k with stop := none }) } none false := by
  have hn : ¬ (4 ≤ f ∨ b ≠ (s.seat f).tt.bell ∨ (s.seat f).tt.hold = true ∨ (s.seat f).plan.isNone = true) := by
    rw [hb, hh, Option.isNone_eq_false_iff.2 hp]
    rintro (h | h | h | h)
    · omega
    · exact h rfl
    · exact Bool.false_ne_true h
    · exact Bool.false_ne_true h
  unfold execScheduledStop
  dsimp only
  rw [hs]
  dsimp only
  rw [if_neg hn]
  exact ⟨_, rfl⟩

theorem execScheduledStop_holds {s : State} {f : Nat} {b : BitVec 64} (hf : f < 4) (hp : (s.seat f).plan.isSome = true)
    (hs : (s.seat f).stop = some (.atBell b)) (hh : (s.seat f).tt.hold = false) (hb : b = (s.seat f).tt.bell) :
    Holds f s (execScheduledStop f s) ∧ ((execScheduledStop f s).seat f).stop = none := by
  have hk : Keep True False s (execScheduledStop f s) := execScheduledStop_keep (Keep.refl _ _ _)
  obtain ⟨w, hw⟩ := execScheduledStop_stops hf hp hs hh hb
  obtain ⟨-, h2, h3, h4⟩ := State.afterWalk_hold { w with s := w.s.modSeat f (fun k => { k with stop := none }) } hf false
  rw [← hw] at h2 h3 h4
  refine ⟨⟨h4, h3, (hk.time trivial).bells f⟩, h2.trans ?_⟩
  dsimp only
  rw [State.seat_modSeat_self _ _ hf]

theorem execParentSilenceUnlock_waits {s : State} {f : Nat} (h : (s.seat f).tt.silent < 16) : execParentSilenceUnlock f s = s := by
  unfold execParentSilenceUnlock
  dsimp only
  rw [if_neg fun hc => absurd h (Nat.not_lt.2 hc.2.2.2)]

theorem execParentSilenceUnlock_holds {s : State} {f : Nat} (hf : f < 4) (hp : (s.seat f).plan.isSome = true)
    (hr : (s.seat f).tt.isRoot = false) (h : 16 ≤ (s.seat f).tt.silent) :
    Holds f s (execParentSilenceUnlock f s) ∧ ((execParentSilenceUnlock f s).seat f).tt.syncState = 0 := by
  have hk : Keep True False s (execParentSilenceUnlock f s) := execParentSilenceUnlock_keep (Keep.refl _ _ _)
  have he : execParentSilenceUnlock f s = (s.unlock f).enterHold f := by
    unfold execParentSilenceUnlock
    dsimp only
    rw [if_pos ⟨hf, hp, by rw [hr]; rfl, h⟩]
  have hb := (hk.time trivial).bells f
  rw [he] at hb ⊢
  obtain ⟨h1, h2⟩ := (s.unlock f).enterHold_holds hf
  exact ⟨⟨h1, h2, hb⟩, (s.unlock_holds hf).2.2⟩

/-! ### Synchronisation at a bell -/

/-- What neither HOLD nor the loss of synchronisation changes of a seat stands. -/
theorem State.unlock_enterHold_sees {α : Type} {P : Seat → α} (hc : ∀ k, P (Seat.calm k) = P k) (hh : ∀ k h, P (Seat.held k h) = P k)
    (ha : ∀ k n, P (Seat.abort k n) = P k) (hv : ∀ k v n, P { k with cm := { k.cm with verdict := v, verdictStep := n } } = P k)
    (hs : ∀ k, P { k with tt := { k.tt with syncState := 0 } } = P k) (s : State) {f : Nat} (hf : f < 4) :
    P (((s.unlock f).enterHold f).seat f) = P (s.seat f) := by
  let v := s.modTt f (fun t => { t with syncState := 0 })
  have hv0 : v.seat f = { s.seat f with tt := { (s.seat f).tt with syncState := 0 } } := State.seat_modSeat_self _ _ hf
  have hcalm : Calm v (s.unlock f) := (Calm.refl v).eachOf _ fun _ _ ht => ht.sendAbsent.ite ht
  refine ((s.unlock f).enterHold_sees hh ha hv hf).trans (((hcalm.sees hc).at f).trans ?_)
  rw [hv0]
  exact hs _

theorem State.modTt_tt (s : State) {f : Nat} (hf : f < 4) (g : Tt → Tt) : (s.modTt f g).seat f = { s.seat f with tt := g (s.seat f).tt } :=
  State.seat_modSeat_self _ _ hf

section
variable {s : State} {f : Nat} (hp : (s.seat f).plan.isSome = true)
include hp

theorem State.syncBell_root (offset : BitVec 32) (hr : (s.seat f).tt.isRoot = true) :
    s.syncBell f offset = s.modTt f (fun t => { t with syncState := 2, syncOffset := 0 }) := by
  unfold State.syncBell
  dsimp only
  rw [Option.isNone_eq_false_iff.2 hp, if_neg Bool.false_ne_true, if_pos hr]

variable (hr : (s.seat f).tt.isRoot = false)
include hr

/-- The seat takes its offset, and then its state by that offset. -/
theorem State.syncBell_node (offset : BitVec 32) : s.syncBell f offset =
    let s1 := s.modTt f (fun t => { t with syncOffset := offset })
    let s2 := s1.modTt f (fun t => { t with outOfTol := true })
    if (s.seat f).tt.syncState = 0 then
      (if (s1.link (s.seat f).tt.parent.toNat).st = .ranging ∨ (s1.link (s.seat f).tt.parent.toNat).st = .locked
        then s1.modTt f (fun t => { t with syncState := 1 }) else s1)
    else if offset.toInt.natAbs ≤ 10000 then s1.modTt f (fun t => { t with syncState := 2 })
    else if (s.seat f).tt.syncState = 1 then s1
    else if offset.toInt.natAbs ≤ 100000 then (s2.modTt f (fun t => { t with syncState := 3 })).taint f
    else (s2.unlock f).enterHold f := by
  unfold State.syncBell
  dsimp only
  rw [Option.isNone_eq_false_iff.2 hp, if_neg Bool.false_ne_true, hr, if_neg Bool.false_ne_true]

variable (hf : f < 4)
include hf

theorem State.syncBell_offset (offset : BitVec 32) : ((s.syncBell f offset).seat f).tt.syncOffset = offset := by
  rw [State.syncBell_node hp hr]
  dsimp only
  split
  · split
    · rw [State.modTt_tt _ hf, State.modTt_tt _ hf]
    · rw [State.modTt_tt _ hf]
  split
  · rw [State.modTt_tt _ hf, State.modTt_tt _ hf]
  split
  · rw [State.modTt_tt _ hf]
  split
  · rw [State.taint, State.setStatus, State.modTt_tt _ hf, State.modTt_tt _ hf, State.modTt_tt _ hf, State.modTt_tt _ hf]
  · refine (State.unlock_enterHold_sees (P := fun k => k.tt.syncOffset) (fun _ => rfl) (fun _ _ => rfl) (fun _ _ => rfl) (fun _ _ _ => rfl)
      (fun _ => rfl) _ hf).trans ?_
    rw [State.modTt_tt _ hf, State.modTt_tt _ hf]

/-- Within 10 ns the seat is locked. -/
theorem State.syncBell_near {offset : BitVec 32} (hs : (s.seat f).tt.syncState ≠ 0) (hd : offset.toInt.natAbs ≤ 10000) :
    (s.syncBell f offset).seat f = { s.seat f with tt := { (s.seat f).tt with syncOffset := offset, syncState := 2 } } := by
  rw [State.syncBell_node hp hr]
  dsimp only
  rw [if_neg hs, if_pos hd, State.modTt_tt _ hf, State.modTt_tt _ hf]

/-- A locked seat within 100 ns is out of tolerance. -/
theorem State.syncBell_drifts {offset : BitVec 32} (hs : (s.seat f).tt.syncState = 2 ∨ (s.seat f).tt.syncState = 3)
    (hd : 10000 < offset.toInt.natAbs) (hd' : offset.toInt.natAbs ≤ 100000) :
    (s.syncBell f offset).seat f = { s.seat f with tt :=
      { (s.seat f).tt with syncOffset := offset, outOfTol := true, syncState := 3, cur := (s.seat f).tt.cur ||| 1#9 } } := by
  have h0 : (s.seat f).tt.syncState ≠ 0 := by rcases hs with h | h <;> rw [h] <;> decide
  have h1 : (s.seat f).tt.syncState ≠ 1 := by rcases hs with h | h <;> rw [h] <;> decide
  rw [State.syncBell_node hp hr]
  dsimp only
  rw [if_neg h0, if_neg (Nat.not_le.2 hd), if_neg h1, if_pos hd', State.taint, State.setStatus, State.modTt_tt _ hf, State.modTt_tt _ hf,
    State.modTt_tt _ hf, State.modTt_tt _ hf]

/-- Beyond 100 ns a locked seat is unlocked and holds. -/
theorem State.syncBell_loses {offset : BitVec 32} (hs : (s.seat f).tt.syncState = 2 ∨ (s.seat f).tt.syncState = 3)
    (hd : 100000 < offset.toInt.natAbs) :
    ∃ v : State, s.syncBell f offset = (v.unlock f).enterHold f ∧ (v.seat f).tt.outOfTol = true ∧ v.links = s.links ∧ v.seatLinks f = s.seatLinks f := by
  have h0 : (s.seat f).tt.syncState ≠ 0 := by rcases hs with h | h <;> rw [h] <;> decide
  have h1 : (s.seat f).tt.syncState ≠ 1 := by rcases hs with h | h <;> rw [h] <;> decide
  refine ⟨(s.modTt f (fun t => { t with syncOffset := offset })).modTt f (fun t => { t with outOfTol := true }), ?_, ?_, ?_, ?_⟩
  · rw [State.syncBell_node hp hr]
    dsimp only
    rw [if_neg h0, if_neg (by omega), if_neg h1, if_neg (Nat.not_le.2 hd)]
  · rw [State.modTt_tt _ hf]
  · rw [State.modTt_links, State.modTt_links]
  · unfold State.seatLinks
    rw [State.seatFields_congr (s := s) (by rw [State.modTt_host, State.modTt_host])]

end

/-- A seat that loses its synchronisation: unlocked, in HOLD, and its links that were up absent. -/
theorem State.unlock_enterHold (v : State) {f : Nat} (hf : f < 4) :
    let u := (v.unlock f).enterHold f
    (u.seat f).tt.syncState = 0 ∧ (u.seat f).tt.outOfTol = (v.seat f).tt.outOfTol ∧ (u.seat f).tt.hold = true ∧ (u.seat f).running = false ∧
      ∀ l ∈ v.seatLinks f, (v.link l).up → (u.link l).down := by
  intro u
  obtain ⟨h1, h2⟩ := (v.unlock f).enterHold_holds hf
  refine ⟨(v.unlock_holds hf).2.2, ?_, h1, h2, fun l hl hup => ?_⟩
  · exact State.unlock_enterHold_sees (P := fun k => k.tt.outOfTol) (fun _ => rfl) (fun _ _ => rfl) (fun _ _ => rfl) (fun _ _ _ => rfl)
      (fun _ => rfl) v hf
  · have hlinks : u.links = (v.unlock f).links := (congrArg State.links ((v.unlock f).enterHold_only hf).1 :)
    rw [State.link_congr l hlinks]
    exact v.unlock_links hl hup

/-- Settles O20: the walk from a start's entry, the entries into HOLD, and the bands of the offset. -/
theorem startsStopsAndSilence : Obligations.StartsStopsAndSilence := by
  refine ⟨fun s f x hf hx hp => ?_, fun s f hf hp => ?_, fun s f offset hf hp => ?_⟩
  · dsimp only
    have he : exec (.scheduledStart f) s = .next (execScheduledStart f s) := rfl
    rw [he]
    refine ⟨fun hb => congrArg Host.Outcome.next (execScheduledStart_waits hx hb), fun hb hi => ⟨_, rfl, execScheduledStart_used hf hx hp hb,
      ?_, fun h1 => ?_, fun h7 => (execScheduledStart_end hf hx hp hb h7).2⟩⟩
    · have hk : Keep True False s (execScheduledStart f s) := execScheduledStart_keep (Keep.refl _ _ _)
      exact (hk.time trivial).bells f
    · have hw := execScheduledStart_period hf hx hp hb hi h1
      obtain ⟨-, hrun, hhold, -⟩ := s.begun_seat hf
      simp only [Seat.walkOf, Seat.at, Prod.mk.injEq] at hw
      obtain ⟨-, -, h3, -, h5, h6, h7, -⟩ := hw
      exact ⟨h3.trans hrun, h6.trans hhold, h5, h7⟩
  · dsimp only
    have hstop : exec (.scheduledStop f) s = .next (execScheduledStop f s) := rfl
    have hsilent : exec (.parentSilenceUnlock f) s = .next (execParentSilenceUnlock f s) := rfl
    rw [hstop, hsilent]
    refine ⟨fun b hs hh hb => ?_, fun b hs hb => congrArg Host.Outcome.next (execScheduledStop_waits hs hb), fun hr h => ?_,
      fun _ h => congrArg Host.Outcome.next (execParentSilenceUnlock_waits h)⟩
    · obtain ⟨⟨h1, h2, h3⟩, h4⟩ := execScheduledStop_holds hf hp hs hh hb
      exact ⟨_, rfl, ⟨h1, h2, h3⟩, h4⟩
    · obtain ⟨⟨h1, h2, h3⟩, h4⟩ := execParentSilenceUnlock_holds hf hp hr h
      exact ⟨_, rfl, ⟨h1, h2, h3⟩, h4⟩
  · dsimp only
    refine ⟨fun hr => ?_, fun hr => ⟨State.syncBell_offset hp hr hf offset, fun hs hd => ?_, fun hs hd hd' => ?_, fun hs hd => ?_⟩⟩
    · rw [State.syncBell_root hp offset hr, State.modTt_tt _ hf]
      exact ⟨rfl, rfl, rfl⟩
    · rw [State.syncBell_near hp hr hf hs hd]
      exact ⟨rfl, rfl, rfl⟩
    · rw [State.syncBell_drifts hp hr hf hs hd hd']
      exact ⟨rfl, rfl, or_one_bit _, rfl⟩
    · obtain ⟨v, hv, htol, hlinks, hsl⟩ := State.syncBell_loses hp hr hf hs hd
      obtain ⟨h1, h2, h3, h4, h5⟩ := v.unlock_enterHold hf
      rw [hv]
      refine ⟨h1, h2.trans htol, h3, h4, fun l hl hup => h5 l (by rwa [hsl]) ?_⟩
      rw [State.link_congr l hlinks]
      exact hup

end Sys2Proof.Machine
end

section
/-! What a slot of the transmit direction carries (R57, R77, R281, R284, R289, R372, R389), and what it leaves of memory. -/

namespace Sys2Proof.Machine

/-! ### Stores that wait -/

theorem State.demerit_held (s : State) (f kind i w : Nat) : (s.demerit f kind i w).held = s.held := State.modHm_held _ _ _

theorem State.bump_held (s : State) (a : Nat) : (s.bump a).held = s.held := by
  obtain ⟨-, -, -, -, -, -, -, -, -, -, -, -, hh, -⟩ := s.bump_frame a
  exact hh

theorem State.taint_held (s : State) (f : Nat) : (s.taint f).held = s.held := State.modTt_held _ _ _
theorem State.duePage_held (s : State) (g a : Nat) : (s.duePage g a).held = s.held := State.modMc_held _ _ _

theorem State.correctedWord_held (s : State) (a : Nat) : (s.correctedWord a).held = s.held := by
  unfold State.correctedWord
  cases regionOf a with
  | desk c | slate c => exact (State.demerit_held _ _ _ _ _).trans (State.bump_held _ _)
  | _ => rfl

theorem State.correctedBlock_held (s : State) (f a : Nat) : (s.correctedBlock f a).held = s.held := by
  have h (g : Mc → Mc) : (((s.bump (mcBase f + 0x20)).demerit f 3 (channelOf a) 1).modMc f g).held = s.held := by
    rw [State.modMc_held, State.demerit_held, State.bump_held]
  unfold State.correctedBlock
  dsimp only
  split
  · rw [State.duePage_held, h]
  · rw [h]

theorem State.noteCorrected_held (s : State) (l : List (Nat × Nat)) : (s.noteCorrected l).held = s.held := by
  unfold State.noteCorrected
  refine List.foldlRecOn (motive := fun t => State.held t = s.held) _ _ ?_ fun t ht _ _ => (t.correctedBlock_held _ _).trans ht
  exact List.foldlRecOn (motive := fun t => State.held t = s.held) _ _ rfl fun t ht _ _ => (t.correctedWord_held _).trans ht

theorem State.noteErr_held (s : State) (f a : Nat) (e : MemErr) : (s.noteErr f a e).held = s.held := by
  have hb (b g kind i w : Nat) : ((s.bump b).demerit g kind i w).held = s.held := (State.demerit_held _ _ _ _ _).trans (State.bump_held _ _)
  unfold State.noteErr
  cases e with
  | firewall => rfl
  | word =>
    dsimp only
    cases regionOf a with
    | desk c => exact (State.taint_held _ _).trans ((State.modHm_held _ _ _).trans (hb _ _ _ _ _))
    | slate c => exact (State.taint_held _ _).trans (hb _ _ _ _ _)
    | _ => exact State.taint_held _ _
  | ue =>
    exact (State.taint_held _ _).trans ((State.duePage_held _ _ _).trans ((State.demerit_held _ _ _ _ _).trans
      ((State.modMc_held _ _ _).trans (State.bump_held _ _))))
  | mac => exact (State.taint_held _ _).trans ((State.demerit_held _ _ _ _ _).trans ((State.modMc_held _ _ _).trans (State.bump_held _ _)))
  | tag => exact (State.taint_held _ _).trans ((State.modMc_held _ _ _).trans (State.bump_held _ _))

/-- With no store waiting, nothing is made. -/
theorem State.flushHeld_mem {s : State} (h : s.held = []) : s.flushHeld.mem = s.mem := by
  unfold State.flushHeld
  rw [h]
  rfl

theorem State.flushHeld_links (s : State) : s.flushHeld.links = s.links :=
  List.foldlRecOn (motive := fun t => State.links t = s.links) s.held (fun t w => t.libWrite w.1 w.2.1 w.2.2) (b := { s with held := [] }) rfl
    fun t ht _ _ => (t.libWrite_links _ _ _).1.trans ht

theorem State.unseal_links (s : State) (g : Nat) (r : Run) : (s.unseal g r).links = s.links := by
  unfold State.unseal
  dsimp only
  split
  · exact (State.flushHeld_links _).trans (State.modCore_links _ _ _)
  · rfl

theorem State.unseal_mem {s : State} (h : s.held = []) (g : Nat) (r : Run) : (s.unseal g r).mem = s.mem := by
  unfold State.unseal
  dsimp only
  split
  · exact (State.flushHeld_mem (by rw [State.modCore_held, h])).trans (State.modCore_mem _ _ _)
  · rfl

/-! ### A flit that is sent -/

/-- The link's latest slot carried a flit that is `x` but for the answer in its header. -/
def Link.Carries (k : Link) (x : Flit) : Prop :=
  ∃ y, k.sent = some y ∧ y.kind = x.kind ∧ y.payload = x.payload ∧ y.slot = x.slot ∧ y.bell = x.bell

theorem State.sendFlit_carries {l : Nat} (hl : l < 24) (s : State) (slot : Nat) (x : Flit) : ((s.sendFlit l slot x).link l).Carries x := by
  unfold State.sendFlit
  dsimp only
  rw [State.link_modLink_self _ _ hl]
  cases (s.link l).answer with
  | none => exact ⟨_, rfl, rfl, rfl, rfl, rfl⟩
  | some a => exact ⟨_, rfl, rfl, rfl, rfl, rfl⟩

theorem State.sendFlit_mem (s : State) (l slot : Nat) (x : Flit) : (s.sendFlit l slot x).mem = s.mem := State.modLink_mem _ _ _
theorem State.sendFlit_held (s : State) (l slot : Nat) (x : Flit) : (s.sendFlit l slot x).held = s.held := State.modLink_held _ _ _

/-- With no link message waiting, a slot without a run is IDLE. -/
theorem State.sendIdle_carries {s : State} {l : Nat} (hl : l < 24) (h : (s.link l).lctl = []) (slot : Nat) (stream : BitVec 8) :
    ∃ x : Flit, x.kind = 0 ∧ ((s.sendIdle l slot stream).link l).Carries x := by
  unfold State.sendIdle
  rw [h]
  exact ⟨_, rfl, State.sendFlit_carries hl _ _ _⟩

theorem State.sendIdle_mem (s : State) (l slot : Nat) (stream : BitVec 8) : (s.sendIdle l slot stream).mem = s.mem := by
  unfold State.sendIdle
  cases (s.link l).lctl with
  | nil => exact State.sendFlit_mem _ _ _ _
  | cons x r => exact (State.sendFlit_mem _ _ _ _).trans (State.modLink_mem _ _ _)

/-! ### Slots of runs -/

theorem State.sendBulk_mem (s : State) (l slot : Nat) (r : Run) : (s.sendBulk l slot r).mem = s.mem := by
  unfold State.sendBulk
  dsimp only
  split
  · exact State.sendIdle_mem _ _ _ _
  · split
    · exact State.sendIdle_mem _ _ _ _
    · exact (State.sendFlit_mem _ _ _ _).trans (State.modSeat_mem _ _ _)

theorem State.sendPool_mem (s : State) (l slot : Nat) (r : Run) : (s.sendPool l slot r).mem = s.mem := by
  unfold State.sendPool
  dsimp only
  split
  · exact State.sendIdle_mem _ _ _ _
  split
  · exact (State.sendFlit_mem _ _ _ _).trans (State.modLink_mem _ _ _)
  split
  · exact (State.sendFlit_mem _ _ _ _).trans (State.modLink_mem _ _ _)
  · exact State.sendIdle_mem _ _ _ _

theorem State.sendResend_mem (s : State) (l slot : Nat) (stream : BitVec 8) : (s.sendResend l slot stream).mem = s.mem := by
  unfold State.sendResend
  dsimp only
  split
  · exact State.sendIdle_mem _ _ _ _
  · exact (State.bump_mem _ _).trans (State.modLink_mem _ _ _)

/-- The flit of a pulled slot has gone out: the word read, or a late marker where it fails. -/
def State.sendPulled (s : State) (l slot : Nat) (r : Run) : State :=
  let g := fieldOfLink l
  let a := r.bufAddr g + 256 * (slot - r.start)
  match s.readRange (s.seatFields g) a 256 with
  | .ok bs => (s.noteCorrected [(a, 256)]).sendFlit l slot { s.flitOf l slot 1 (BitVec.ofNat 8 r.stream) with payload := bs }
  | .error e => (s.noteErr g e.1 e.2).sendFlit l slot (s.lateFlit l slot r)

/-- The end of a run whose last flit has been pulled. -/
def State.endRun (s : State) (l slot : Nat) (r : Run) : State :=
  if slot + 1 = r.start + r.count then (s.modLink l (fun k => { k with ended := k.ended ++ [r.start] })).unseal (fieldOfLink l) r else s

theorem State.sendData_eq (s : State) (l slot : Nat) (r : Run) : s.sendData l slot r =
    if (s.seat (fieldOfLink l)).tt.hold then
      (if (s.seat (fieldOfLink l)).ctxHeld then s.sendFlit l slot (s.lateFlit l slot r) else s.sendIdle l slot (BitVec.ofNat 8 r.stream))
    else if (s.link l).pulled.contains r.start then (s.sendPulled l slot r).endRun l slot r
    else s.sendFlit l slot (s.lateFlit l slot r) := rfl

theorem State.sendPulled_mem (s : State) (l slot : Nat) (r : Run) : (s.sendPulled l slot r).mem = s.mem := by
  unfold State.sendPulled
  dsimp only
  split
  · exact (State.sendFlit_mem _ _ _ _).trans (State.noteCorrected_mem _ _)
  · exact (State.sendFlit_mem _ _ _ _).trans (Noted.noteErr _ _ _ _).mem

theorem State.sendPulled_held (s : State) (l slot : Nat) (r : Run) : (s.sendPulled l slot r).held = s.held := by
  unfold State.sendPulled
  dsimp only
  split
  · exact (State.sendFlit_held _ _ _ _).trans (State.noteCorrected_held _ _)
  · exact (State.sendFlit_held _ _ _ _).trans (State.noteErr_held _ _ _ _)

theorem State.endRun_mem {s : State} (h : s.held = []) (l slot : Nat) (r : Run) : (s.endRun l slot r).mem = s.mem := by
  unfold State.endRun
  split
  · exact (State.unseal_mem (by rw [State.modLink_held, h]) _ _).trans (State.modLink_mem _ _ _)
  · rfl

theorem State.endRun_sent (s : State) (l slot : Nat) (r : Run) : ((s.endRun l slot r).link l).sent = (s.link l).sent := by
  unfold State.endRun
  split
  · rw [State.link_congr l (State.unseal_links _ _ _)]
    exact State.modLink_sees Link.sent _ _ _ rfl _
  · rfl

theorem State.sendData_mem {s : State} (h : s.held = []) (l slot : Nat) (r : Run) : (s.sendData l slot r).mem = s.mem := by
  rw [State.sendData_eq]
  split
  · split
    · exact State.sendFlit_mem _ _ _ _
    · exact State.sendIdle_mem _ _ _ _
  split
  · exact (State.endRun_mem (by rw [State.sendPulled_held, h]) _ _ _).trans (State.sendPulled_mem _ _ _ _)
  · exact State.sendFlit_mem _ _ _ _

section
variable {s : State} {l slot : Nat} {r : Run} (hl : l < 24) (hh : (s.seat (fieldOfLink l)).tt.hold = false)
include hl hh

/-- A slot of a pulled run carries its bytes of the buffer. -/
theorem State.sendData_pulled (hp : (s.link l).pulled.contains r.start = true) {bs : List Byte}
    (hr : s.readRange (s.seatFields (fieldOfLink l)) (r.bufAddr (fieldOfLink l) + 256 * (slot - r.start)) 256 = .ok bs) :
    ((s.sendData l slot r).link l).Carries { s.flitOf l slot 1 (BitVec.ofNat 8 r.stream) with payload := bs } := by
  have h : ((s.sendPulled l slot r).link l).Carries { s.flitOf l slot 1 (BitVec.ofNat 8 r.stream) with payload := bs } := by
    unfold State.sendPulled
    dsimp only
    rw [hr]
    exact State.sendFlit_carries hl _ _ _
  rw [State.sendData_eq, hh, if_neg Bool.false_ne_true, if_pos hp]
  unfold Link.Carries
  rw [State.endRun_sent]
  exact h

/-- A slot of a run that was not pulled carries a late marker. -/
theorem State.sendData_late (hp : (s.link l).pulled.contains r.start = false) :
    ((s.sendData l slot r).link l).Carries (s.lateFlit l slot r) := by
  rw [State.sendData_eq, hh, hp, if_neg Bool.false_ne_true, if_neg Bool.false_ne_true]
  exact State.sendFlit_carries hl _ _ _

end

/-! ### The slots of a LOCKED link -/

/-- A slot of a run, by its kind. -/
def State.sendRun (s : State) (l slot : Nat) (r : Run) : State :=
  let g := fieldOfLink l
  match r.kind with
  | 0 => s.sendData l slot r
  | 1 => s.sendBulk l slot r
  | 2 => s.sendFlit l slot { s.flitOf l slot 3 (BitVec.ofNat 8 r.stream) with payload := s.statusPayload l }
  | 3 => s.sendResend l slot (BitVec.ofNat 8 r.stream)
  | 4 => s.sendFlit l slot { s.flitOf l slot 4 (BitVec.ofNat 8 r.stream) with
      payload := quizPattern (s.seat g).cm.live (s.seat g).tt.stepPeriod slot }
  | 5 => s.sendPool l slot r
  | _ => s.sendIdle l slot 0

/-- A slot of a LOCKED link. -/
def State.lockedSlot (s : State) (l slot : Nat) : State :=
  match runOn (s.runs (fieldOfLink l)) l false slot with
  | none =>
    match s.lateRun l slot with
    | some r => s.sendFlit l slot (s.lateFlit l slot r)
    | none => s.sendIdle l slot 0
  | some r => s.sendRun l slot r

theorem State.sendRun_mem {s : State} (h : s.held = []) (l slot : Nat) (r : Run) : (s.sendRun l slot r).mem = s.mem := by
  unfold State.sendRun
  dsimp only
  split
  · exact State.sendData_mem h _ _ _
  · exact State.sendBulk_mem _ _ _ _
  · exact State.sendFlit_mem _ _ _ _
  · exact State.sendResend_mem _ _ _ _
  · exact State.sendFlit_mem _ _ _ _
  · exact State.sendPool_mem _ _ _ _
  · exact State.sendIdle_mem _ _ _ _

theorem State.lockedSlot_mem {s : State} (h : s.held = []) (l slot : Nat) : (s.lockedSlot l slot).mem = s.mem := by
  unfold State.lockedSlot
  split
  · split
    · exact State.sendFlit_mem _ _ _ _
    · exact State.sendIdle_mem _ _ _ _
  · exact State.sendRun_mem h _ _ _

/-- The block that a link without keys or peer sends: ABSENT or WIPE. -/
def State.bareFlit (s : State) (l : Nat) (kind : BitVec 4) : Flit :=
  if s.hasNode l then { kind := kind, src := s.nodeId l, payload := List.replicate 256 0x5A }
  else { kind := kind, pkind := 1, payload := List.replicate 256 0x5A }

theorem State.bareFlit_fields (s : State) (l : Nat) (kind : BitVec 4) :
    (s.bareFlit l kind).kind = kind ∧ (s.bareFlit l kind).payload = List.replicate 256 0x5A := by
  unfold State.bareFlit
  split <;> exact ⟨rfl, rfl⟩

/-- What a link does in a slot, by the state of its seat and its own. -/
theorem execTxSlot_eq {l : Nat} (hl : l < 24) (slot : Nat) (s : State) : execTxSlot l slot s =
    if (s.seat (fieldOfLink l)).wiping then s.modLink l (fun k => if k.st = .off then k.fill else k.bare (s.bareFlit l 0xF))
    else if (s.link l).absent then s.modLink l (fun k => k.bare (s.bareFlit l 0xE))
    else match (s.link l).st with
    | .locked => if (s.seat (fieldOfLink l)).tt.slots.toNat ≤ slot then s.modLink l Link.fill else s.lockedSlot l slot
    | .ident | .ranging =>
      if (s.link l).keyEpoch.isSome && (s.link l).nodeOk then
        (s.modLink l (fun k => { k.emit (s.identFlit l slot) (identNonce k.seq k.bringup) with seq := k.seq + 1, echoDue := none })).burn
      else s.modLink l Link.fill
    | _ => s.modLink l Link.fill := by
  unfold execTxSlot
  dsimp only
  rw [if_neg (Nat.not_le.2 hl)]
  rfl

theorem execTxSlot_mem {l : Nat} (hl : l < 24) (slot : Nat) {s : State} (h : s.held = []) : (execTxSlot l slot s).mem = s.mem := by
  have hmod (g : Link → Link) : (s.modLink l g).mem = s.mem := State.modLink_mem _ _ _
  rw [execTxSlot_eq hl]
  split
  · exact hmod _
  split
  · exact hmod _
  cases (s.link l).st with
  | locked =>
    dsimp only
    split
    · exact hmod _
    · exact State.lockedSlot_mem h _ _
  | ident | ranging =>
    dsimp only
    split
    · exact hmod _
    · exact hmod _
  | _ => exact hmod _

section
variable {s : State} {l slot : Nat} (hl : l < 24)
include hl

theorem execTxSlot_wiping (hw : (s.seat (fieldOfLink l)).wiping = true) (ho : (s.link l).st ≠ .off) :
    ((execTxSlot l slot s).link l).sent = some (s.bareFlit l 0xF) := by
  rw [execTxSlot_eq hl, if_pos hw, State.link_modLink_self _ _ hl, if_neg ho]
  rfl

variable (hw : (s.seat (fieldOfLink l)).wiping = false)
include hw

theorem execTxSlot_absent (ha : (s.link l).absent = true) : ((execTxSlot l slot s).link l).sent = some (s.bareFlit l 0xE) := by
  rw [execTxSlot_eq hl, hw, if_neg Bool.false_ne_true, if_pos ha, State.link_modLink_self _ _ hl]
  rfl

variable (ha : (s.link l).absent = false)
include ha

theorem execTxSlot_fills (h : (s.link l).st ≠ .locked) (hi : (s.link l).st ≠ .ident) (hr : (s.link l).st ≠ .ranging) :
    execTxSlot l slot s = s.modLink l Link.fill := by
  rw [execTxSlot_eq hl, hw, ha, if_neg Bool.false_ne_true, if_neg Bool.false_ne_true]
  revert h hi hr
  cases (s.link l).st with
  | locked => exact fun h => absurd rfl h
  | ident => exact fun _ h => absurd rfl h
  | ranging => exact fun _ _ h => absurd rfl h
  | _ => exact fun _ _ _ => rfl

theorem execTxSlot_beyond (h : (s.link l).st = .locked) (hs : (s.seat (fieldOfLink l)).tt.slots.toNat ≤ slot) :
    execTxSlot l slot s = s.modLink l Link.fill := by
  rw [execTxSlot_eq hl, hw, ha, if_neg Bool.false_ne_true, if_neg Bool.false_ne_true, h]
  exact if_pos hs

theorem execTxSlot_locked (h : (s.link l).st = .locked) (hs : slot < (s.seat (fieldOfLink l)).tt.slots.toNat) :
    execTxSlot l slot s = s.lockedSlot l slot := by
  rw [execTxSlot_eq hl, hw, ha, if_neg Bool.false_ne_true, if_neg Bool.false_ne_true, h]
  exact if_neg (Nat.not_le.2 hs)

end

theorem State.lockedSlot_run {s : State} {l slot : Nat} {r : Run} (h : runOn (s.runs (fieldOfLink l)) l false slot = some r) :
    s.lockedSlot l slot = s.sendRun l slot r := by
  unfold State.lockedSlot
  rw [h]

theorem State.lockedSlot_late {s : State} {l slot : Nat} {r : Run} (h : runOn (s.runs (fieldOfLink l)) l false slot = none)
    (hr : s.lateRun l slot = some r) : s.lockedSlot l slot = s.sendFlit l slot (s.lateFlit l slot r) := by
  unfold State.lockedSlot
  rw [h, hr]

theorem State.lockedSlot_idle {s : State} {l slot : Nat} (h : runOn (s.runs (fieldOfLink l)) l false slot = none)
    (hr : s.lateRun l slot = none) : s.lockedSlot l slot = s.sendIdle l slot 0 := by
  unfold State.lockedSlot
  rw [h, hr]

theorem State.fill_sent {l : Nat} (hl : l < 24) (s : State) : ((s.modLink l Link.fill).link l).sent = none := by
  rw [State.link_modLink_self _ _ hl]
  rfl

/-- Settles O23: each clause is a branch of the slot, in the order in which the slot asks. -/
theorem txSlotSendsItsFlit : Obligations.TxSlotSendsItsFlit := by
  intro s l slot hl
  dsimp only
  have hkind {k : Link} {x : Flit} (h : k.Carries x) : ∃ y, k.sent = some y ∧ y.kind = x.kind ∧ y.payload = x.payload := by
    obtain ⟨y, h1, h2, h3, -⟩ := h
    exact ⟨y, h1, h2, h3⟩
  refine ⟨execTxSlot l slot s, rfl, execTxSlot_mem hl slot, fun hw ha hst hs => ?_, fun hw ho => ?_, fun hw ha => ?_, fun hw ha h hi hr => ?_,
    fun ⟨hw, ha, hst, hs⟩ hr hlr hc => ?_, fun r ⟨hw, ha, hst, hs⟩ hr hlr => ?_, fun r ⟨hw, ha, hst, hs⟩ hr hk => ?_,
    fun r ⟨hw, ha, hst, hs⟩ hr hk => ?_, fun r ⟨hw, ha, hst, hs⟩ hr hk hh hp bs hbs => ?_, fun r ⟨hw, ha, hst, hs⟩ hr hk hh hp => ?_⟩
  · rw [execTxSlot_beyond hl hw ha hst hs]
    exact ⟨State.fill_sent hl s, State.modLink_mem _ _ _⟩
  · exact ⟨_, execTxSlot_wiping hl hw ho, s.bareFlit_fields l 0xF⟩
  · exact ⟨_, execTxSlot_absent hl hw ha, s.bareFlit_fields l 0xE⟩
  · rw [execTxSlot_fills hl hw ha h hi hr]
    exact State.fill_sent hl s
  · rw [execTxSlot_locked hl hw ha hst hs, State.lockedSlot_idle hr hlr]
    obtain ⟨x, hx, y, h1, h2, -⟩ := State.sendIdle_carries hl hc slot 0
    exact ⟨y, h1, h2.trans hx⟩
  all_goals rw [execTxSlot_locked hl hw ha hst hs]
  · rw [State.lockedSlot_late hr hlr]
    exact hkind (State.sendFlit_carries hl _ _ _)
  all_goals rw [State.lockedSlot_run hr, State.sendRun, hk]
  · exact hkind (State.sendFlit_carries hl _ _ _)
  · exact hkind (State.sendFlit_carries hl _ _ _)
  · exact State.sendData_pulled hl hh hp hbs
  · exact hkind (State.sendData_late hl hh hp)

end Sys2Proof.Machine
end

section
/-! What a receiving slot does with its flit (R53, R55, R285, R286, R290, R292). -/

namespace Sys2Proof.Machine

/-! ### Where a Librarian's write lands -/

/-- What a landed write makes of memory. -/
theorem State.libLand_mem (s : State) (f a : Nat) (bs : List Byte) : (s.libLand f a bs).mem =
    if (firstErr (s.writeErr (s.seatFields f) a bs.length) a bs.length).isSome then s.mem else Memory.writeN s.mem a bs := by
  unfold State.libLand State.writeRange
  cases firstErr (s.writeErr (s.seatFields f) a bs.length) a bs.length with
  | some e => exact (Noted.libErr s f e).mem
  | none =>
    refine (State.storeBytes_mem _ _ _).trans ?_
    rw [State.noteCorrected_mem]
    rfl

/-- What a Librarian's write makes of memory does not depend on the links. -/
theorem LinksOnly.libWrite_mem {s t : State} (h : LinksOnly s t) (f a : Nat) (bs : List Byte) : (t.libWrite f a bs).mem = (s.libWrite f a bs).mem := by
  have hl : t.host.layout = s.host.layout := congrArg HostPort.layout h.host
  have hseal : t.meetsSeal a bs.length = s.meetsSeal a bs.length :=
    State.meetsSeal_congr (fun e => congrArg Core.seals (State.core_congr e h.cores)) h.seats hl _ _
  have hland : (t.libLand f a bs).mem = (s.libLand f a bs).mem := by
    rw [State.libLand_mem, State.libLand_mem, State.seatFields_congr hl, h.mem,
      State.writeErr_congr (by rw [h]) (by rw [h]) (by rw [h]) h.fields]
  unfold State.libWrite
  rw [hseal]
  split
  · exact h.mem
  split
  · exact h.mem
  · exact hland

/-! ### Damaged flits -/

/-- A damaged flit in a core-data slot is asked for again. -/
theorem State.damagedFlit_asks {l : Nat} (hl : l < 24) (s : State) (b : BitVec 64) (slot : Nat) (tag : Bool) {r : Run} (hr : r.kind = 0) :
    ((s.damagedFlit l b slot tag (some r) []).link l).answer = some (2, slot, b.getLsbD 0, 0) ∧
      (s.damagedFlit l b slot tag (some r) []).mem = s.mem := by
  have hscore (t : State) : t.scoreWaves l 4 [] = t := rfl
  have hwait (t : State) : t.awaitResend l b slot r = t := by
    unfold State.awaitResend
    rw [if_neg (by simp [hr])]
  unfold State.damagedFlit
  dsimp only
  rw [hwait, if_pos (.inl hr), State.link_congr l (State.bump_links _ _), State.link_modLink_self _ _ hl, State.bump_mem, State.modLink_mem]
  refine ⟨rfl, ?_⟩
  split
  · rfl
  · rw [hscore, State.bump_mem]

/-! ### The rules of a slot -/

/-- A flit that breaks no rule, and is no resend, came in the slot that its header names. -/
theorem State.flitErr_slot {s : State} {l slot : Nat} {b p : BitVec 64} {x : Flit} {run orig : Option Run} {held again : Bool}
    (h : s.flitErr l b slot x run orig p held again = 0) (hr : x.resend = false) : x.slot = slot := by
  by_contra hne
  have h7 : ((!x.resend && (x.bell != b.setWidth 16 || x.slot != slot)) || (x.resend && orig.isNone)) = true := by simp [hr, hne]
  have hpos (c : Prop) [Decidable c] {n m : Nat} (hn : n ≠ 0) (hm : m ≠ 0) : (if c then n else m) ≠ 0 := by
    split
    · exact hn
    · exact hm
  revert h
  unfold State.flitErr
  dsimp only
  rw [if_pos h7]
  exact hpos _ (by decide) (hpos _ (by decide) (hpos _ (by decide) (hpos _ (by decide) (hpos _ (by decide) (hpos _ (by decide)
    (hpos _ (by decide) (by decide)))))))

/-- A flit of a core-data slot that breaks a rule: answered with its code, with TAINT. -/
theorem State.violation_refuses {l : Nat} (hl : l < 24) (s : State) (b : BitVec 64) (slot : Nat) {x : Flit} {r : Run} (hr : r.kind = 0)
    (hx : x.resend = false) (orig : Option Run) (p : BitVec 64) (code : Nat) :
    let t := s.violation l b slot x (some r) orig p code
    (t.link l).answer = some (3, slot, b.getLsbD 0, BitVec.ofNat 4 code) ∧ (t.seat (fieldOfLink l)).tt.cur.getLsbD 0 = true ∧
      t.mem = s.mem := by
  intro t
  have ht : ∃ (e : BitVec 54) (v : VEntry), t = (((s.modLink l (fun k =>
      { k with answer := some (3, slot, b.getLsbD 0, BitVec.ofNat 4 code), errLast := e })).bump (flBase l + 0x40)).vlog
        (fieldOfLink l) v).taint (fieldOfLink l) := by
    unfold t State.violation
    dsimp only
    rw [hx, if_neg Bool.false_ne_true, if_neg (by simp [hr]), if_pos (.inl hr)]
    exact ⟨_, _, rfl⟩
  obtain ⟨e, v, ht⟩ := ht
  have hn := ((Noted.bump (s.modLink l (fun k => { k with answer := some (3, slot, b.getLsbD 0, BitVec.ofNat 4 code), errLast := e }))
    (flBase l + 0x40)).trans (Noted.vlog _ (fieldOfLink l) v)).trans (Noted.taint _ (fieldOfLink l))
  rw [← ht] at hn
  refine ⟨?_, ?_, hn.mem.trans (State.modLink_mem _ _ _)⟩
  · rw [State.link_congr l hn.links, State.link_modLink_self _ _ hl]
  · rw [ht, State.taint, State.setStatus, State.modTt_tt _ (fieldOfLink_lt hl)]
    exact or_one_bit _

/-! ### Flits that are taken -/

/-- A flit without an answer in its header answers none of ours. -/
theorem State.answered_none (s : State) (l : Nat) {x : Flit} (h : x.ackCode = 0) : s.answered l x = s := by
  unfold State.answered
  cases (s.link l).kept.find? (fun y => y.sentSlot == x.ackSlot && y.sentBell.getLsbD 0 == x.ackPar) with
  | none =>
    dsimp only
    rw [if_neg (by rw [h]; decide)]
  | some y =>
    dsimp only
    rw [h]
    rfl

/-- A link that has acknowledged a flit of the slot. -/
structure Acked (l slot : Nat) (b : BitVec 64) (s t : State) : Prop where
  links : LinksOnly s t
  answer : (t.link l).answer = some (1, slot, b.getLsbD 0, 0)

/-- A DATA flit before its delivery bell is placed, in a state that differs in the links alone; one that is late changes no more than the
acknowledgement does. -/
theorem State.acceptFlit_data {l : Nat} (hl : l < 24) (s : State) (b : BitVec 64) (slot : Nat) {x : Flit} {r : Run} (hr : r.kind = 0)
    (hk : x.kind = 1) (ha : x.ackCode = 0) :
    ∃ v, Acked l slot b s v ∧ s.acceptFlit l b slot x (some b) (some r) =
      if b + BitVec.ofNat 64 (r.deliver + 1) ≤ (s.seat (fieldOfLink l)).tt.bell then v
      else v.placeData (fieldOfLink l) r b x.slot x.payload := by
  let u := s.modLink l (fun k => { k with answer := some (1, slot, b.getLsbD 0, 0) })
  let u' := u.modLink l (fun k =>
    { k with arrivals := k.arrivals.filter (fun a => !(a.period == b && a.slot == x.slot)) ++
               [{ period := b, slot := x.slot, deliver := b + BitVec.ofNat 64 (r.deliver + 1), pool := r.poolChan, got := true }] })
  have hu : Acked l slot b s u := ⟨State.modLink_linksOnly _ _ _, by rw [State.link_modLink_self _ _ hl]⟩
  have hu' : Acked l slot b s u' := ⟨hu.links.trans (State.modLink_linksOnly _ _ _), by rw [State.link_modLink_self _ _ hl, hu.answer]⟩
  have hseat : u.seat (fieldOfLink l) = s.seat (fieldOfLink l) :=
    State.seat_congr _ hu.links.seats (congrArg HostPort.layout hu.links.host)
  have hd : u.deliveryBell l b r = b + BitVec.ofNat 64 (r.deliver + 1) := by
    unfold State.deliveryBell
    rw [if_pos hr]
  have he : s.acceptFlit l b slot x (some b) (some r) = u.take l b r x := by
    unfold State.acceptFlit
    dsimp only
    rw [s.answered_none l ha, if_pos (show ackedKind x = true by simp [ackedKind, hk]), if_neg (show ¬ x.kind = 4 by rw [hk]; decide),
      if_pos (.inl hk)]
  have ht : u.take l b r x = if b + BitVec.ofNat 64 (r.deliver + 1) ≤ (s.seat (fieldOfLink l)).tt.bell then u
      else u'.placeData (fieldOfLink l) r b x.slot x.payload := by
    unfold State.take
    dsimp only
    rw [hd, hseat, hk]
    rfl
  rw [he, ht]
  split
  · exact ⟨u, hu, rfl⟩
  · exact ⟨u', hu', rfl⟩

/-! ### Where DATA is placed -/

theorem State.placeData_links (s : State) (g : Nat) (r : Run) (p : BitVec 64) (slot : Nat) (bs : List Byte) :
    (s.placeData g r p slot bs).links = s.links := by
  unfold State.placeData
  cases (s.seat g).dataPlace g r p slot with
  | none => rfl
  | some w =>
    obtain ⟨a, step⟩ := w
    cases step with
    | none => exact (s.libWrite_links g a bs).1
    | some n => exact (State.modCm_links _ _ _).trans (s.libWrite_links g a bs).1

/-- In its core's buffer. -/
theorem State.placeData_buffer {s : State} {g : Nat} {r : Run} (h : (s.seat g).trayRun g r = none) (p : BitVec 64) (slot : Nat) (bs : List Byte) :
    s.placeData g r p slot bs = s.libWrite g (rxAddr g r slot) bs := by
  unfold State.placeData Seat.dataPlace
  rw [h]

theorem Cm.trayHolds_get (m : Cm) (n : BitVec 64) : Tab.get (fun _ => none) (m.trayHolds n).tray (n.toNat % 2) = some n :=
  Tab.get_set_self (fun _ => (none : Option (BitVec 64))) m.tray (n.toNat % 2) (some n)

/-- In the tray of the step that ran in its period. -/
theorem State.placeData_tray {s : State} {g : Nat} (hg : g < 4) {r : Run} {y : TrayRun} {n p : BitVec 64} (h : (s.seat g).trayRun g r = some y)
    (hn : (s.seat g).stepAt p = some n) (slot : Nat) (bs : List Byte) :
    (s.placeData g r p slot bs).mem = (s.libWrite g ((s.seat g).trayBase n + y.base + 256 * (r.offset + (slot - r.start))) bs).mem ∧
      Tab.get (fun _ => none) ((s.placeData g r p slot bs).seat g).cm.tray (n.toNat % 2) = some n := by
  unfold State.placeData Seat.dataPlace
  rw [h]
  dsimp only
  rw [hn]
  refine ⟨State.modCm_mem _ _ _, ?_⟩
  dsimp only [Option.map]
  rw [State.modCm, State.seat_modSeat_self _ _ hg]
  exact Cm.trayHolds_get _ n

/-! ### A slot -/

/-- A flit has been heard: one of the tree parent's, and its count is followed. -/
def State.heardFlit (s : State) (l : Nat) (b : BitVec 64) : State :=
  if s.isParentLink l then (s.followCount l b).modTt (fieldOfLink l) (fun t => { t with heard := true }) else s

theorem State.heardFlit_mem (s : State) (l : Nat) (b : BitVec 64) : (s.heardFlit l b).mem = s.mem := by
  have hf : (s.followCount l b).mem = s.mem := by
    unfold State.followCount
    dsimp only
    split
    · rfl
    · exact State.modSeat_mem _ _ _
  unfold State.heardFlit
  split
  · exact (State.modTt_mem _ _ _).trans hf
  · rfl

/-- What the rules of its slot say of a flit that is no resend. -/
def State.slotErr (s : State) (l : Nat) (b : BitVec 64) (slot : Nat) (x : Flit) (run : Option Run) (held : Bool) : Nat :=
  s.flitErr l b slot x run (runOn (s.runsAt (fieldOfLink l) b).1 l true x.slot) b held ((s.link l).accepted b x.slot)

section
variable {s : State} {l slot : Nat} {b : BitVec 64} (hl : l < 24) (hst : (s.link l).st = .locked)

theorem execFlitReceive_beyond (h : (s.seat (fieldOfLink l)).tt.slots.toNat ≤ slot) (rx : Rx) (ce : List (Nat × Nat)) :
    execFlitReceive l b slot rx ce s = s := by
  unfold execFlitReceive
  dsimp only
  rw [if_pos (.inr (.inr h))]

variable (hreset : (s.link l).resetting = false) (hs : slot < (s.seat (fieldOfLink l)).tt.slots.toNat)
include hl hst hreset hs

theorem execFlitReceive_damaged {rx : Rx} {tag : Bool} (ho : s.openFlit l b slot rx = .error tag) :
    execFlitReceive l b slot rx [] s = s.damagedFlit l b slot tag (runOn (s.runsAt (fieldOfLink l) b).1 l true slot) [] := by
  have hn : ¬ (24 ≤ l ∨ (s.link l).st ≠ .locked ∨ (s.seat (fieldOfLink l)).tt.slots.toNat ≤ slot) := by
    rintro (h | h | h)
    · exact absurd hl (Nat.not_lt.2 h)
    · exact h hst
    · exact absurd hs (Nat.not_lt.2 h)
  have hc (q : Bool) : s.corrected l q [] = s := rfl
  unfold execFlitReceive
  dsimp only
  rw [if_neg hn, hreset, if_neg Bool.false_ne_true, hc, ho]

theorem execFlitReceive_opens {rx : Rx} {x : Flit} (ho : s.openFlit l b slot rx = .ok x) (hx : x.resend = false) :
    let h := s.heardFlit l b
    let run := runOn (s.runsAt (fieldOfLink l) b).1 l true slot
    let code := h.slotErr l b slot x run (s.runsAt (fieldOfLink l) b).2
    execFlitReceive l b slot rx [] s =
      if code ≠ 0 then h.violation l b slot x run (runOn (h.runsAt (fieldOfLink l) b).1 l true x.slot) b code
      else h.acceptFlit l b slot x (some b) run := by
  have hn : ¬ (24 ≤ l ∨ (s.link l).st ≠ .locked ∨ (s.seat (fieldOfLink l)).tt.slots.toNat ≤ slot) := by
    rintro (h | h | h)
    · exact absurd hl (Nat.not_lt.2 h)
    · exact h hst
    · exact absurd hs (Nat.not_lt.2 h)
  have hc (q : Bool) : s.corrected l q [] = s := rfl
  intro h run code
  unfold execFlitReceive
  dsimp only
  rw [if_neg hn, hreset, if_neg Bool.false_ne_true, hc, ho]
  dsimp only
  rw [hx]
  rfl

end

end Sys2Proof.Machine
end

section
/-! Flits that have not come, and flits without an answer (R55, R287, R288): the delivery of a seat's links at its bell, and the queue of flits that
may be resent. -/

namespace Sys2Proof.Machine

/-! ### Counters -/

theorem satCountAddr_ge (o : Nat) : 0xF09000000000 ≤ satCountAddr o := by
  unfold satCountAddr hmBase fieldBlock hmCoordBase
  split <;> omega

theorem State.counter_congr {s t : State} (h : t.counters = s.counters) (n : Nat) : t.counter n = s.counter n := by
  unfold State.counter
  rw [h]

/-- An event counts in its own counter, and in that of saturated counters of its owner, alone. -/
theorem State.counter_bump_ne (s : State) {a n : Nat} (h : n ≠ a) (hs : n ≠ satCountAddr (counterOwner a)) :
    (s.bump a).counter n = s.counter n := by
  have hset (t : State) (b : Nat) (k : Counter) (hb : n ≠ b) : (t.setCounter b k).counter n = t.counter n :=
    (t.counter_setCounter b k n).trans (if_neg hb)
  have hsat (t : State) : (t.satEvent a).counter n = t.counter n := by
    unfold State.satEvent
    dsimp only
    split
    · exact (State.counter_congr (State.modHm_counters _ _ _) n).trans (hset _ _ _ hs)
    · exact hset _ _ _ hs
  unfold State.bump
  dsimp only
  split
  · rfl
  split
  · exact (hsat _).trans (hset _ _ _ h)
  · exact hset _ _ _ h

theorem State.counter_bump_self {s : State} {a : Nat} (hs : (s.counter a).sat = false) (hc : (s.counter a).count ≠ 0xFFFFFFFF#32) :
    ((s.bump a).counter a).count = (s.counter a).count + 1 := by
  unfold State.bump
  dsimp only
  rw [hs, if_neg Bool.false_ne_true, if_neg hc, State.counter_setCounter, if_pos rfl]
  unfold Counter.bump
  rw [if_neg hc]

/-- The counter of the flits lost on a link. -/
def lostCount (l : Nat) : Nat := flBase l + 0x38

/-- A Hall Monitor's counter is none of those of lost flits. -/
theorem State.counter_bump_hm (s : State) {l a : Nat} (hl : l < 24) (ha : 0xF09000000000 ≤ a) :
    (s.bump a).counter (lostCount l) = s.counter (lostCount l) := by
  have h : lostCount l < 0xF09000000000 := by
    unfold lostCount flBase
    omega
  have hs := satCountAddr_ge (counterOwner a)
  exact s.counter_bump_ne (by omega) (by omega)

/-! ### What the delivery of a link does -/

/-- The seats, the layout and the count of the flits lost on link `l` are those of another state. -/
structure Unmoved (l : Nat) (s t : State) : Prop where
  seats : t.seats = s.seats
  layout : t.host.layout = s.host.layout
  count : t.counter (lostCount l) = s.counter (lostCount l)

theorem Unmoved.refl (l : Nat) (s : State) : Unmoved l s s := ⟨rfl, rfl, rfl⟩

section
variable {l : Nat} {r s t : State}

theorem Unmoved.trans (h : Unmoved l r s) (g : Unmoved l s t) : Unmoved l r t :=
  ⟨g.seats.trans h.seats, g.layout.trans h.layout, g.count.trans h.count⟩

theorem Unmoved.modHm (s : State) (f : Nat) (g : Hm → Hm) : Unmoved l s (s.modHm f g) :=
  ⟨State.modHm_seats _ _ _, by rw [State.modHm_host], State.counter_congr (State.modHm_counters _ _ _) _⟩

theorem Unmoved.modLink (s : State) (e : Nat) (g : Link → Link) : Unmoved l s (s.modLink e g) :=
  ⟨State.modLink_seats _ _ _, by rw [State.modLink_host], State.counter_congr (State.modLink_counters _ _ _) _⟩

theorem Unmoved.bump_hm (hl : l < 24) (s : State) {a : Nat} (ha : 0xF09000000000 ≤ a) : Unmoved l s (s.bump a) :=
  ⟨State.bump_seats _ _, by rw [State.bump_host], s.counter_bump_hm hl ha⟩

theorem Unmoved.ite {p : Prop} [Decidable p] (h : Unmoved l r s) (g : Unmoved l r t) : Unmoved l r (if p then s else t) := by
  split
  · exact h
  · exact g

theorem Unmoved.foldl {α : Type} {g : State → α → State} (xs : List α) (h : Unmoved l r s) (hg : ∀ t x, Unmoved l t (g t x)) :
    Unmoved l r (xs.foldl g s) := List.foldlRecOn (motive := Unmoved l r) xs g h fun t ht x _ => ht.trans (hg t x)

theorem Unmoved.seat (h : Unmoved l s t) (f : Nat) : t.seat f = s.seat f := State.seat_congr f h.seats h.layout

end

theorem Unmoved.linkQuiz {l : Nat} (hl : l < 24) (s : State) (e : Nat) : Unmoved l s (s.linkQuiz e) := by
  have hb (t : State) (n : Nat) : Unmoved l t (t.bump (hmBase (fieldOfLink e) + n)) :=
    Unmoved.bump_hm hl t (by unfold hmBase fieldBlock; omega)
  unfold State.linkQuiz
  dsimp only
  exact (Unmoved.refl l s).ite (Unmoved.foldl _ ((hb s 0x38).ite ((hb s 0x38).trans (hb _ 0x40))) fun _ _ => Unmoved.modHm _ _ _)

theorem State.linkQuiz_links (s : State) (e : Nat) : (s.linkQuiz e).links = s.links := by
  have hi (p : Prop) [Decidable p] (a b : Nat) : (if p then s.bump a else (s.bump a).bump b).links = s.links := by
    split
    · exact State.bump_links _ _
    · exact (State.bump_links _ _).trans (State.bump_links _ _)
  unfold State.linkQuiz
  dsimp only
  split
  · rfl
  · exact List.foldlRecOn (motive := fun t => State.links t = s.links) _ _ (hi _ _ _) fun t ht _ _ => (Noted.demerit t _ _ _ _).links.trans ht

/-- A wavelength's score changes links and seats no more than it does counters of lost flits. -/
theorem State.scoreWaves_unmoved (l : Nat) (s : State) (e w : Nat) (ce : List (Nat × Nat)) :
    Unmoved l s (s.scoreWaves e w ce) ∧ (s.scoreWaves e w ce).links = s.links := by
  unfold State.scoreWaves
  dsimp only
  split
  · exact ⟨Unmoved.refl l s, rfl⟩
  · exact ⟨Unmoved.foldl _ (Unmoved.refl l s) fun _ _ => Unmoved.modHm _ _ _,
      List.foldlRecOn (motive := fun t => State.links t = s.links) _ _ rfl fun t ht _ _ => (Noted.demerit t _ _ _ _).links.trans ht⟩

theorem State.lostFlit_links (s : State) (e : Nat) : (s.lostFlit e).links = s.links :=
  (State.scoreWaves_unmoved e _ _ _ _).2.trans (State.bump_links _ _)

theorem LinksCalm.poolLost (s : State) (e c : Nat) : LinksCalm s (s.poolLost e c) :=
  LinksCalm.foldl _ (LinksCalm.refl s) fun t o => LinksCalm.endOp t e o.tag 0 (by decide)

/-- A flit that has not come: lost, with TAINT, or with its pool operation. -/
def State.missed (s : State) (f e : Nat) (a : Arrival) : State :=
  match a.pool with
  | some c => (s.lostFlit e).poolLost e c
  | none => (s.lostFlit e).taint f

theorem LinksCalm.missed (s : State) (f e : Nat) (a : Arrival) : LinksCalm s (s.missed f e a) := by
  unfold State.missed
  cases a.pool with
  | none => exact LinksCalm.of_eq ((State.modTt_links _ _ _).trans (s.lostFlit_links e))
  | some c => exact (LinksCalm.of_eq (s.lostFlit_links e)).trans (LinksCalm.poolLost _ _ _)

/-- The flits of a link that are due at a bell and have not come. -/
def Link.due (k : Link) (b : BitVec 64) : List Arrival := k.arrivals.filter (fun a => a.deliver == b && !a.got)

/-- A link at its seat's bell, before its lost flits: those due wait no more. -/
def State.undue (s : State) (b : BitVec 64) (e : Nat) : State :=
  s.modLink e (fun x => { x with arrivals := x.arrivals.filter (fun a => a.deliver != b) })

/-- What follows the lost flits of a link: its quiz, and its flits too old to be sent again. -/
def State.endLink (s : State) (b : BitVec 64) (e : Nat) : State :=
  (((s.linkQuiz e).endQuiz e).dropSpent e b).modLink e (fun x =>
    { x.dropLctl b with ceNow := [], ceQuiz := [], quizSeen := false, quizVoid := false, quizBad := false })

/-- The delivery of a link at the bell of its seat. -/
def State.deliverLink (s : State) (f : Nat) (b : BitVec 64) (e : Nat) : State :=
  (((s.link e).due b).foldl (fun t a => t.missed f e a) (s.undue b e)).endLink b e

theorem State.deliver_eq (s : State) (f : Nat) :
    s.deliver f = eachOf (s.seatLinks f) (fun e t => t.deliverLink f (s.seat f).tt.bell e) s := by
  unfold State.deliver State.deliverLink State.missed
  rfl

/-! ### Links that keep no flit -/

/-- No link keeps a flit. -/
def State.keepsNone (s : State) : Prop := ∀ e, (s.link e).kept = []

theorem State.dropSpent_none {s : State} {e : Nat} (h : (s.link e).kept = []) (q : BitVec 64) :
    s.dropSpent e q = s.modLink e (fun k => { k with kept := k.kept.filter (fun x => !(x.queued && (s.link e).spent q x)) }) := by
  unfold State.dropSpent
  dsimp only
  rw [h]
  rfl

/-- A state of the links: the flits that each waits for, and none that it keeps. -/
structure Waiting (s : State) (a : Nat → List Arrival) : Prop where
  kept : s.keepsNone
  arrivals : ∀ e, (s.link e).arrivals = a e

theorem Waiting.calm {s t : State} {a : Nat → List Arrival} (h : Waiting s a) (c : LinksCalm s t) : Waiting t a :=
  ⟨fun e => (c.kept e).trans (h.kept e), fun e => (c.arrivals e).trans (h.arrivals e)⟩

theorem Waiting.modLink {s : State} {a : Nat → List Arrival} (h : Waiting s a) (e : Nat) (g : Link → Link)
    (hg : ∀ k : Link, k.kept = [] → (g k).kept = [] ∧ (g k).arrivals = k.arrivals) : Waiting (s.modLink e g) a := by
  obtain ⟨hk, ha⟩ := hg _ (h.kept e)
  exact ⟨fun j => (State.modLink_sees Link.kept s e g (hk.trans (h.kept e).symm) j).trans (h.kept j),
    fun j => (State.modLink_sees Link.arrivals s e g ha j).trans (h.arrivals j)⟩

/-- What follows the lost flits changes neither what is waited for nor the seats. -/
theorem State.endLink_keeps {s : State} {a : Nat → List Arrival} (h : Waiting s a) (b : BitVec 64) (e : Nat) :
    Waiting (s.endLink b e) a ∧ ∀ l, l < 24 → Unmoved l s (s.endLink b e) := by
  let u := (s.linkQuiz e).endQuiz e
  have hu : u.links = s.links := (State.modHm_links _ _ _).trans (s.linkQuiz_links e)
  have hw : Waiting u a := h.calm (LinksCalm.of_eq hu)
  unfold State.endLink
  rw [show ((s.linkQuiz e).endQuiz e).dropSpent e b = _ from State.dropSpent_none (hw.kept e) b]
  refine ⟨Waiting.modLink (Waiting.modLink hw e _ ?_) e _ ?_, fun l hl => ?_⟩
  · intro k hk
    dsimp only
    rw [hk]
    exact ⟨rfl, rfl⟩
  · intro k hk
    unfold Link.dropLctl
    dsimp only
    rw [hk]
    exact ⟨rfl, rfl⟩
  · exact (((Unmoved.linkQuiz hl s e).trans (Unmoved.modHm _ _ _)).trans (Unmoved.modLink _ _ _)).trans (Unmoved.modLink _ _ _)

/-- What a link waits for once the flits due at a bell have been delivered. -/
def later (b : BitVec 64) (a : Nat → List Arrival) (e : Nat) : Nat → List Arrival :=
  fun j => if j = e then (a e).filter (fun x => x.deliver != b) else a j

theorem State.undue_waits {s : State} {a : Nat → List Arrival} (h : Waiting s a) {e : Nat} (he : e < 24) (b : BitVec 64) :
    Waiting (s.undue b e) (later b a e) := by
  unfold State.undue later
  refine ⟨fun j => (State.modLink_sees Link.kept s e _ rfl j).trans (h.kept j), fun j => ?_⟩
  rw [State.link_modLink he]
  split
  · exact congrArg (List.filter _) (h.arrivals e)
  · exact h.arrivals j

theorem State.deliverLink_waits {s : State} {a : Nat → List Arrival} (h : Waiting s a) {e : Nat} (he : e < 24) (f : Nat) (b : BitVec 64) :
    Waiting (s.deliverLink f b e) (later b a e) := by
  have hm : Waiting (((s.link e).due b).foldl (fun t a => t.missed f e a) (s.undue b e)) (later b a e) :=
    (State.undue_waits h he b).calm (LinksCalm.foldl _ (LinksCalm.refl _) fun t x => LinksCalm.missed t f e x)
  exact (State.endLink_keeps hm b e).1

/-- A link to which all that is due has come. -/
theorem State.deliverLink_unmoved {s : State} {a : Nat → List Arrival} (h : Waiting s a) {e : Nat} (he : e < 24) (f : Nat) {b : BitVec 64}
    (hd : ∀ x ∈ a e, x.deliver = b → x.got = true) {l : Nat} (hl : l < 24) : Unmoved l s (s.deliverLink f b e) := by
  have hdue : (s.link e).due b = [] := by
    unfold Link.due
    rw [h.arrivals, List.filter_eq_nil_iff]
    intro x hx hc
    rw [Bool.and_eq_true] at hc
    obtain ⟨h1, h2⟩ := hc
    rw [hd x hx (beq_iff_eq.1 h1)] at h2
    exact absurd h2 (by decide)
  unfold State.deliverLink
  rw [hdue]
  exact (Unmoved.modLink s e _).trans ((State.endLink_keeps (State.undue_waits h he b) b e).2 l hl)

/-- A core-data flit that has not come is lost: counted, with TAINT. -/
theorem State.deliverLink_loses {s : State} {a : Nat → List Arrival} (h : Waiting s a) {l : Nat} (hl : l < 24) {f : Nat} (hf : f < 4)
    {b : BitVec 64} {x : Arrival} (ha : a l = [x]) (hx : x.deliver = b) (hg : x.got = false) (hp : x.pool = none) :
    let t := s.deliverLink f b l
    (t.seat f).tt.cur.getLsbD 0 = true ∧
      ((s.counter (lostCount l)).sat = false → (s.counter (lostCount l)).count ≠ 0xFFFFFFFF#32 →
        (t.counter (lostCount l)).count = (s.counter (lostCount l)).count + 1) := by
  intro t
  let u := s.undue b l
  have hu : Unmoved l s u := Unmoved.modLink _ _ _
  have hdue : (s.link l).due b = [x] := by
    unfold Link.due
    rw [h.arrivals, ha, List.filter_cons, hx, hg]
    simp
  have hm : u.missed f l x = (u.lostFlit l).taint f := by
    unfold State.missed
    rw [hp]
  have ht : t = ((u.lostFlit l).taint f).endLink b l := by
    unfold t State.deliverLink
    rw [hdue]
    exact congrArg (fun v => State.endLink v b l) hm
  have hw : Waiting ((u.lostFlit l).taint f) (later b a l) :=
    (State.undue_waits h hl b).calm (LinksCalm.of_eq ((State.modTt_links _ _ _).trans (u.lostFlit_links l)))
  have he := (State.endLink_keeps hw b l).2 l hl
  rw [← ht] at he
  refine ⟨?_, fun hs hc => ?_⟩
  · rw [he.seat, State.taint, State.setStatus, State.modTt_tt _ hf]
    exact or_one_bit _
  · have h1 : (u.bump (lostCount l)).counter (lostCount l) = t.counter (lostCount l) := by
      refine Eq.symm (he.count.trans ((State.counter_congr (State.modTt_counters _ _ _) _).trans ?_))
      exact (State.scoreWaves_unmoved l _ _ _ _).1.count
    rw [← h1, State.counter_bump_self (by rw [hu.count, hs]) (by rw [hu.count]; exact hc), hu.count]

/-! ### The delivery of a seat -/

/-- Links to which all that is due has come, one after another. -/
theorem deliverLinks_unmoved (f : Nat) (b : BitVec 64) (L : List Nat) {s : State} {a : Nat → List Arrival} (h : Waiting s a) (hL : ∀ e ∈ L, e < 24)
    (hd : ∀ e ∈ L, ∀ x ∈ a e, x.deliver = b → x.got = true) :
    ∃ a', Waiting (eachOf L (fun e t => t.deliverLink f b e) s) a' ∧ (∀ e, ∀ x ∈ a' e, x ∈ a e) ∧ (∀ e, e ∉ L → a' e = a e) ∧
      ∀ l, l < 24 → Unmoved l s (eachOf L (fun e t => t.deliverLink f b e) s) := by
  induction L generalizing s a with
  | nil => exact ⟨a, h, fun _ _ hx => hx, fun _ _ => rfl, fun l _ => Unmoved.refl l s⟩
  | cons e L ih =>
    obtain ⟨he, hL⟩ := List.forall_mem_cons.1 hL
    obtain ⟨hde, hdL⟩ := List.forall_mem_cons.1 hd
    have hsub (j : Nat) (x : Arrival) (hx : x ∈ later b a e j) : x ∈ a j := by
      unfold later at hx
      split at hx
      next hj => rw [hj]; exact List.mem_of_mem_filter hx
      next => exact hx
    obtain ⟨a', h1, h2, h3, h4⟩ := ih (State.deliverLink_waits h he f b) hL fun j hj x hx => hdL j hj x (hsub j x hx)
    refine ⟨a', h1, fun j x hx => hsub j x (h2 j x hx), fun j hj => ?_, fun l hl => (State.deliverLink_unmoved h he f hde hl).trans (h4 l hl)⟩
    rw [List.mem_cons, not_or] at hj
    exact (h3 j hj.2).trans (if_neg hj.1)

/-- What a seat waits for whose link `l` alone waits for a flit. -/
def oneFlit (l : Nat) (x : Arrival) : Nat → List Arrival := fun e => if e = l then [x] else []

/-- The delivery of a seat that waits for one flit, due at its bell: the links before its link and after it move nothing. -/
theorem State.deliver_one {s : State} {f l : Nat} {x : Arrival} (hl : l ∈ s.seatLinks f) (h : Waiting s (oneFlit l x))
    (hx : x.deliver = (s.seat f).tt.bell) :
    ∃ u, Waiting u (oneFlit l x) ∧ Unmoved l s u ∧ Unmoved l (u.deliverLink f (s.seat f).tt.bell l) (s.deliver f) ∧
      ((s.deliver f).link l).arrivals = [] := by
  have hl24 : l < 24 := State.seatLinks_lt l hl
  obtain ⟨L₁, L₂, hL, hn⟩ := List.eq_append_cons_of_mem hl
  have hlt (e : Nat) (he : e ∈ L₁ ∨ e ∈ L₂) : e < 24 :=
    State.seatLinks_lt e (by rw [hL]; exact List.mem_append.2 (he.imp_right (List.mem_cons_of_mem _)))
  obtain ⟨a₁, h1, h2, h3, h4⟩ := deliverLinks_unmoved f (s.seat f).tt.bell L₁ h (fun e he => hlt e (.inl he)) fun e he y hy => by
    have hel : e ≠ l := fun hel => hn (hel ▸ he)
    rw [oneFlit, if_neg hel] at hy
    exact absurd hy List.not_mem_nil
  let u := eachOf L₁ (fun e t => t.deliverLink f (s.seat f).tt.bell e) s
  have ha : a₁ = oneFlit l x := by
    funext e
    by_cases he : e = l
    · rw [he, h3 l hn]
    · rw [oneFlit, if_neg he, List.eq_nil_iff_forall_not_mem]
      intro y hy
      have := h2 e y hy
      rw [oneFlit, if_neg he] at this
      exact absurd this List.not_mem_nil
  rw [ha] at h1
  have hnone (e : Nat) : later (s.seat f).tt.bell (oneFlit l x) l e = [] := by
    unfold later oneFlit
    split
    · rw [if_pos rfl, List.filter_cons, hx]
      simp
    next he => rfl
  obtain ⟨a₂, g1, g2, -, g4⟩ := deliverLinks_unmoved f (s.seat f).tt.bell L₂ (State.deliverLink_waits h1 hl24 f (s.seat f).tt.bell)
    (fun e he => hlt e (.inr he)) fun e _ y hy => by
      rw [hnone] at hy
      exact absurd hy List.not_mem_nil
  have he : s.deliver f = eachOf L₂ (fun e t => t.deliverLink f (s.seat f).tt.bell e) (u.deliverLink f (s.seat f).tt.bell l) := by
    rw [State.deliver_eq, hL]
    exact List.foldl_append
  rw [he]
  refine ⟨u, h1, h4 l hl24, g4 l hl24, (g1.arrivals l).trans ?_⟩
  rw [List.eq_nil_iff_forall_not_mem]
  intro y hy
  have := g2 l y hy
  rw [hnone] at this
  exact absurd this List.not_mem_nil

/-! ### Flits without an answer -/

theorem Tab.set_again {α : Type} [DecidableEq α] (d : Nat → α) (t : Tab α) (i : Nat) (v : α) :
    Tab.set d (Tab.set d t i v) i v = Tab.set d t i v := by
  by_cases h : v = d i
  · unfold Tab.set
    rw [if_pos h, if_pos h]
    unfold Tab.erase
    rw [List.filter_filter]
    simp
  · exact Tab.set_set d t i v v h

theorem State.setLink_again (s : State) (l : Nat) (k : Link) : (s.setLink l k).setLink l k = s.setLink l k := by
  unfold State.setLink
  split
  · dsimp only
    rw [Tab.set_again]
  · rfl

/-- The flits kept once one without an answer in its time is queued, and a link message dropped. -/
def Link.timedOut (k : Link) (b : BitVec 64) (slot : Nat) : Link :=
  { k with kept := (k.kept.filter (fun z => !(z.sentBell == b && z.sentSlot == slot && z.flit.kind == 7))).map (fun z =>
      if z.sentBell = b ∧ z.sentSlot = slot then { z with queued := true } else z) }

/-- A flit that may still be sent again may be so once queued. -/
theorem Link.timedOut_spent {k : Link} {q : BitVec 64} (h : ∀ x ∈ k.kept, k.spent q x = false) (b : BitVec 64) (slot : Nat) :
    ∀ x ∈ (k.timedOut b slot).kept, (k.timedOut b slot).spent q x = false := by
  intro x hx
  obtain ⟨z, hz, rfl⟩ := List.mem_map.1 hx
  have hs := h z (List.mem_of_mem_filter hz)
  split <;> exact hs

theorem execAckTimeout_queues {s : State} {l : Nat} (hl : l < 24) (slot : Nat) (b : BitVec 64)
    (h : ∀ x ∈ (s.link l).kept, (s.link l).spent (s.seat (fieldOfLink l)).tt.bell x = false) :
    execAckTimeout l b slot s = s.setLink l ((s.link l).timedOut b slot) := by
  have hs := Link.timedOut_spent h b slot
  have hk : (s.setLink l ((s.link l).timedOut b slot)).link l = (s.link l).timedOut b slot := State.link_setLink_self _ _ hl
  have hgone : ((s.link l).timedOut b slot).kept.filter
      (fun x => x.queued && ((s.link l).timedOut b slot).spent (s.seat (fieldOfLink l)).tt.bell x) = [] := by
    rw [List.filter_eq_nil_iff]
    intro x hx
    rw [hs x hx, Bool.and_false]
    exact Bool.false_ne_true
  have hstay : ((s.link l).timedOut b slot).kept.filter
      (fun x => !(x.queued && ((s.link l).timedOut b slot).spent (s.seat (fieldOfLink l)).tt.bell x)) = ((s.link l).timedOut b slot).kept := by
    rw [List.filter_eq_self]
    intro x hx
    rw [hs x hx, Bool.and_false]
    rfl
  have he : execAckTimeout l b slot s = (s.setLink l ((s.link l).timedOut b slot)).dropSpent l (s.seat (fieldOfLink l)).tt.bell := rfl
  rw [he]
  unfold State.dropSpent
  dsimp only
  rw [hk, hgone]
  unfold State.modLink
  rw [hk]
  dsimp only
  rw [hstay]
  exact State.setLink_again _ _ _

/-- What GCM says of a flit that arrives intact. -/
theorem State.openFlit_opens {s : State} {l slot : Nat} {b : BitVec 64} {x : Flit} {cipher : List Byte}
    (h : (Config.gcm (s.link l).keyRx (flitNonce b slot) (flitHeader x) x.payload).take 272 = cipher) :
    s.openFlit l b slot (.intact x cipher) = .ok x := if_pos h

theorem State.openFlit_fails {s : State} {l slot : Nat} {b : BitVec 64} {x : Flit} {cipher : List Byte}
    (h : ¬ (Config.gcm (s.link l).keyRx (flitNonce b slot) (flitHeader x) x.payload).take 272 = cipher) :
    s.openFlit l b slot (.intact x cipher) = .error true := if_neg h

/-- A DATA flit that breaks no rule, in a state with the flit heard: acknowledged, and placed if it comes before its delivery bell. -/
theorem State.acceptFlit_places {h : State} {l slot : Nat} (hl : l < 24) {b : BitVec 64} {x : Flit} {r : Run} (hk : r.kind = 0)
    (hx : x.resend = false) {run orig : Option Run} {p : BitVec 64} {held again : Bool} (hc : h.flitErr l b slot x run orig p held again = 0)
    (h1 : x.kind = 1) (h0 : x.ackCode = 0) :
    let g := fieldOfLink l
    let due := b + BitVec.ofNat 64 (r.deliver + 1)
    let t := h.acceptFlit l b slot x (some b) (some r)
    (t.link l).answer = some (1, slot, b.getLsbD 0, 0) ∧
      (due ≤ (h.seat g).tt.bell → t.mem = h.mem) ∧
      ((h.seat g).tt.bell < due → (h.seat g).trayRun g r = none → t.mem = (h.libWrite g (rxAddr g r slot) x.payload).mem) ∧
      (∀ y n, (h.seat g).tt.bell < due → (h.seat g).trayRun g r = some y → (h.seat g).stepAt b = some n →
        t.mem = (h.libWrite g ((h.seat g).trayBase n + y.base + 256 * (r.offset + (slot - r.start))) x.payload).mem ∧
        Tab.get (fun _ => none) (t.seat g).cm.tray (n.toNat % 2) = some n) := by
  intro g due t
  have hslot := State.flitErr_slot hc hx
  obtain ⟨v, ⟨hv, ha⟩, ht⟩ := State.acceptFlit_data hl h b slot hk h1 h0
  have hseat : v.seat g = h.seat g := State.seat_congr g hv.seats (congrArg HostPort.layout hv.host)
  rw [hslot] at ht
  have hlate (hd : due ≤ (h.seat g).tt.bell) : t = v := ht.trans (if_pos hd)
  have hearly (hd : ¬ due ≤ (h.seat g).tt.bell) : t = v.placeData g r b slot x.payload := ht.trans (if_neg hd)
  refine ⟨?_, fun hd => ?_, fun hd hn => ?_, fun y n hd hy hn => ?_⟩
  · by_cases hd : due ≤ (h.seat g).tt.bell
    · rw [hlate hd, ha]
    · rw [hearly hd, State.link_congr l (State.placeData_links _ _ _ _ _ _), ha]
  · rw [hlate hd, hv.mem]
  · rw [hearly (BitVec.not_le.2 hd), State.placeData_buffer (by rw [hseat, hn]), hv.libWrite_mem]
  · obtain ⟨hm, htray⟩ := State.placeData_tray (fieldOfLink_lt hl) (by rw [hseat, hy]) (by rw [hseat, hn]) slot x.payload
    rw [hearly (BitVec.not_le.2 hd)]
    refine ⟨hm.trans ?_, htray⟩
    rw [hv.libWrite_mem, hseat]

/-- Settles O24: a slot's flit by its branches, the delivery of one flit, and the queue. -/
theorem flitsAreTakenRefusedOrKept : Obligations.FlitsAreTakenRefusedOrKept := by
  refine ⟨fun s l slot b r hl hst hreset => ?_, fun s l a hl ha hkept hothers hdue => ?_, fun s l slot b hl h => ?_⟩
  · dsimp only
    have hexec (rx : Rx) (ce : List (Nat × Nat)) : exec (.flitReceive l b slot rx ce) s = .next (execFlitReceive l b slot rx ce s) := rfl
    simp only [hexec]
    refine ⟨fun hs x ce => congrArg Host.Outcome.next (execFlitReceive_beyond hs x ce), fun hs hr hk => ?_⟩
    have hagain {rx : Rx} {tag : Bool} (ho : s.openFlit l b slot rx = .error tag) := execFlitReceive_damaged hl hst hreset hs ho
    rw [hr] at hagain
    refine ⟨fun tag => ⟨_, rfl, ?_⟩, fun x cipher ho => ⟨_, rfl, ?_⟩, fun x cipher ho hx => ?_⟩
    · rw [hagain (tag := tag) rfl]
      exact State.damagedFlit_asks hl s b slot tag hk
    · rw [hagain (State.openFlit_fails ho)]
      exact State.damagedFlit_asks hl s b slot true hk
    · have he := execFlitReceive_opens hl hst hreset hs (State.openFlit_opens ho) hx
      dsimp only at he
      rw [hr] at he
      refine ⟨fun hc => ⟨_, rfl, ?_⟩, fun hc h1 h0 _ => ⟨_, rfl, ?_⟩⟩
      · rw [he.trans (if_pos hc)]
        obtain ⟨h1, h2, h3⟩ := State.violation_refuses hl (s.heardFlit l b) b slot hk hx _ b _
        exact ⟨h1, h2, h3.trans (s.heardFlit_mem l b)⟩
      · rw [he.trans (if_neg (not_not_intro hc))]
        obtain ⟨h1, h2, h3, h4⟩ := State.acceptFlit_places hl hk hx hc h1 h0
        exact ⟨h1, fun hd => (h2 hd).trans (s.heardFlit_mem l b), h3, h4⟩
  · dsimp only
    have hl24 : l < 24 := State.seatLinks_lt l hl
    have hf := fieldOfLink_lt hl24
    have hw : Waiting s (oneFlit l a) := by
      refine ⟨hkept, fun e => ?_⟩
      unfold oneFlit
      split
      next he => rw [he, ha]
      next he => exact hothers e he
    obtain ⟨u, hu, hsu, hut, hnil⟩ := State.deliver_one hl hw hdue
    have hal : oneFlit l a l = [a] := if_pos rfl
    refine ⟨hnil, fun hg hp => ?_, fun hg hp hs hc => ?_, fun hg => ?_⟩
    · rw [hut.seat]
      exact (State.deliverLink_loses hu hl24 hf hal hdue hg hp).1
    · have h := (State.deliverLink_loses hu hl24 hf hal hdue hg hp).2 (by rw [hsu.count]; exact hs) (by rw [hsu.count]; exact hc)
      exact (congrArg Counter.count hut.count).trans (h.trans (by rw [hsu.count]; rfl))
    · have h := State.deliverLink_unmoved hu hl24 (fieldOfLink l) (b := (s.seat (fieldOfLink l)).tt.bell) (l := l)
        (fun x hx _ => by rw [hal, List.mem_singleton] at hx; rw [hx, hg]) hl24
      rw [hut.seat, h.seat, hsu.seat]
  · exact congrArg Host.Outcome.next (execAckTimeout_queues hl slot b h)

end Sys2Proof.Machine
end
